-- ==== Sys2Proof/Word.lean ====
section
/-!
DEFINITION. The word types of the block: a register value (spec/00_scope.md R4: 32 bits, or 64 where marked; both
are held in 64 bits) and a byte of a frame or of host memory.
-/

namespace Sys2Proof

/-- A register value. A 32-bit register uses the low 32 bits. -/
abbrev Word := BitVec 64

/-- A byte of a frame, of a buffer or of a table record. -/
abbrev Byte := BitVec 8

end Sys2Proof
end

