-- ==== Sys2Proof/Syntax.lean ====
section
/-!
DEFINITION. The commands of the block: one constructor of `Instr` per row of spec/opcode_table.json, with the values
that come from outside the block as its operands (what a master writes, what a memory or a sensor answers, what arrives
on a lane). The table gives its rows no operand fields and no bits; the operands are the model's reading of each row's
rule (log 1). A command whose condition does not hold in the state changes nothing (log 3).
-/

namespace Sys2Proof

/-- The agents that carry a master identity (spec/00_scope.md R2). -/
inductive Master where
  | pf0
  /-- VF(v + 1). -/
  | vf (v : Fin 31)
  | svc (k : Fin 8)
  | jtag
  | bmc
  deriving DecidableEq, Repr

/-- The 8-bit master identity (R2). -/
def Master.mid : Master → Nat
  | .pf0 => 0
  | .vf v => v.val + 1
  | .svc k => 0x40 + k.val
  | .jtag => 0x50
  | .bmc => 0x51

/-- The BARs of spec/00_scope.md R17. -/
inductive Bar where
  | bar0 | bar2 | bar4
  deriving DecidableEq, Repr

/-- GLB_BAD_ACCESS.BAR. -/
def Bar.num : Bar → Nat
  | .bar0 => 0
  | .bar2 => 1
  | .bar4 => 2

/-- What the host answers to a read that the block makes of host memory (spec/11_host_rings.md R347, R359): data, or
Unsupported Request or Completer Abort, a completion timeout, or poisoned data. -/
inductive HostRead where
  | data (bytes : List Byte)
  | urOrCa
  | timeout
  | poisoned
  deriving DecidableEq, Repr

/-- What asks for a VF reset (spec/11_host_rings.md R360). -/
inductive VfResetCause where
  /-- Function Level Reset of VF(v + 1). -/
  | flr (v : Fin 31)
  /-- VF Enable cleared: every VF. -/
  | vfEnableCleared
  deriving DecidableEq, Repr

/-- What asks for a HIF reset (R360). -/
inductive HifResetCause where
  | flrPf0
  | hotReset
  | linkDisable
  | perst
  /-- PCIE_REFCLK is absent or out of tolerance (spec/14_reset_and_startup.md R412). -/
  | refclk
  /-- A write of HIF_CTL.RESET by `m`. -/
  | ctl (m : Master)
  deriving DecidableEq, Repr

/-- An access to the BAR0 map that another master makes in the same clock as a command's own (spec/00_scope.md R9): master, offset,
8 bytes wide or 4, a write of `val` or a read. -/
structure BusAccess where
  m : Master
  off : BitVec 26
  wide : Bool
  write : Bool
  val : Word
  deriving DecidableEq, Repr

/-- What the receive PCS finds in a codeword or block (spec/02_lanes_and_ports.md R58). An error strikes the frame whose header
window has arrived when `cur` says so, and the next `next` frames, whose header windows have not. -/
inductive Codeword where
  /-- No error. -/
  | clean
  /-- Corrected, with k + 1 corrected symbols, k + 1 = 1 to 15. -/
  | corrected (k : Fin 15)
  | uncorrectable (cur : Bool) (next : Fin 16)
  /-- A block that is invalid after decoding. -/
  | badBlock (cur : Bool) (next : Fin 2)
  deriving DecidableEq, Repr

/-- What a lane measures when it tracks: partner offset in 0.1 ppm (two's complement), CTLE, VGA and first DFE tap, SNR. -/
structure LaneMeas where
  ppm : BitVec 12
  ctle : BitVec 5
  vga : BitVec 6
  dfe1 : BitVec 7
  snr : BitVec 16
  deriving DecidableEq, Repr

/-- The freeze reasons of R67 that come from the lane's signal; the software reason is LANE_ADAPT.FORCE_FRZ. -/
inductive FreezeWhy where
  | quiet | idleOnly
  deriving DecidableEq, Repr

/-- One received 8b/10b code-group (R71 to R73): the columns of the code table that hold it, its ending disparity, the
byte it stands for and whether it is a special (K) code-group, and whether the standard does not allow it here. -/
structure AuxCodeGroup where
  inNeg : Bool
  inPos : Bool
  endsPos : Bool
  byte : Byte
  special : Bool
  misplaced : Bool
  deriving DecidableEq, Repr


/-- What comes to the entry arbiter of a pipeline (spec/03_parser_and_pipelines.md R79): a header from the port's wire, with its
window (at most 256 bytes), whether the frame has ended with it, and the SFD timestamp in the format of R86; or nothing more
than the headers that wait in the entry buffer and in the injection entries (spec/11_host_rings.md R348). -/
inductive SlotSrc where
  | wire (window : List Byte) (ended : Bool) (sfd : BitVec 40)
  | waiting
  deriving DecidableEq, Repr

/-- How the PCS ended a frame (spec/05_quarry_central_store.md R152): as received, truncated on overflow of its queue, or
errored. -/
inductive FrameMark where
  | ok | truncated | errored
  deriving DecidableEq, Repr

/-- What a table image's 64-byte header says (spec/04_forwarding_tables.md R141), or how its read failed: the table ID, the
MAJOR revision, the two seeds and the count of valid entries. -/
inductive ImageHeader where
  | fields (table : BitVec 8) (major : BitVec 8) (seed0 seed1 : BitVec 32) (count : BitVec 32)
  | fault (r : HostRead)
  deriving DecidableEq, Repr

/-- How an enumeration of a CXL root port ends (spec/06_sump_deep_store.md R179): the link did not train (code 1); it trained
(rate and width as CXL_STAT encodes them) and step 2 + `step` failed; or every step passed, with the size of
the device's range in bytes. -/
inductive CxlEnum where
  | noLink
  | failed (speed width : Fin 3) (step : Fin 6)
  | passed (speed width : Fin 3) (bytes : BitVec 64)
  deriving DecidableEq, Repr

/-- How a batch read returns (R199): whole; with a bad header, in `lines` poisoned lines or, with none, by its CRC; or with
poison in cells and in records of frames that start in the batch, in `lines` 64-byte lines in all. -/
inductive ReadBack where
  | clean
  | badHeader (lines : Fin 3)
  | poison (cells : List (Fin 64)) (records : List (Fin 64)) (lines : Fin 384)
  deriving DecidableEq, Repr

/-- How a PMBus read of READ_POUT or STATUS_WORD ends (spec/09_annealer_power_thermal.md R265, R267, R270): its word, or a failure (NACK, bad PEC, the
SMBus timeout). -/
inductive PmbRead where
  | word (v : BitVec 16)
  | failed
  deriving DecidableEq, Repr

/-- What a read of a flash slot's image brings (spec/12_mailboxes_and_service_cores.md R388, step 4): the bytes, or a read error. -/
inductive FlashImage where
  | readError
  | bytes (b : List (BitVec 8))
  deriving DecidableEq, Repr

/-- A flash slot (R387): its 512-byte header and the image that follows it. -/
structure BootSlot where
  header : List (BitVec 8)
  image : FlashImage
  deriving DecidableEq, Repr

/-- What host software has written into a function's configuration space beside Bus Master Enable (spec/11_host_rings.md R324):
SR-IOV's VF Enable and NumVFs (PF0's alone), MPS as 128 << n, MRRS as 128 << n, the ASPM control, the completion timeout range,
and whether errors are reported through AER. -/
structure PcieCfg where
  vfEnable : Bool := false
  numVfs : Fin 32 := 0
  mps : Fin 3 := 0
  mrrs : Fin 6 := 2
  aspm : Fin 4 := 0
  timeout : Fin 16 := 0
  aer : Bool := false
  deriving DecidableEq, Repr

/-- Where an injected frame comes from (spec/11_host_rings.md R348, spec/12_mailboxes_and_service_cores.md R380): an INJECT job of a
ring, with the read of its frame, or a service core. -/
inductive InjectSrc where
  | host (n : Fin 256) (r : HostRead)
  | core (k : Fin 8) (port : Fin 1024) (calcFcs : Bool) (frame : List (BitVec 8))
  deriving DecidableEq, Repr

/-- What a service core has done in a tick of the Annealer (spec/10_telemetry_and_counters.md R317): instructions retired, active
cycles, cache misses, branch mispredictions. -/
structure CoreWork where
  retired : BitVec 32
  cycles : BitVec 32
  misses : BitVec 32
  mispredictions : BitVec 32
  deriving DecidableEq, Repr

/-- What starts a power-on reset (spec/14_reset_and_startup.md R415). -/
inductive PowerOnCause where
  | vddAon | vddIo | pwrgd | refclkA
  deriving DecidableEq, Repr

/-- The sources that raise a fault in one MGMT clock, each with its syndrome (spec/13_spall_faults.md R397, R400): those of the
collector that the command names, and those of further collectors, in rising order. -/
structure FaultClock where
  own : List (BitVec 8 × BitVec 32)
  others : List (Fin 61 × List (BitVec 8 × BitVec 32)) := []
  deriving DecidableEq, Repr

/-- A parity error in a collector's registers, and whether it lies in its counter (spec/13_spall_faults.md R405). -/
structure ParityError where
  collector : Fin 61
  counter : Bool := false
  deriving DecidableEq, Repr

/-- A word of the one-time programmable memory (spec/13_spall_faults.md R393): a dword of the key hash, one of the two of the rollback
index, VMIN, the trimmed value of a coefficient. -/
inductive OtpWord where
  | key (i : Fin 12)
  | rollback (i : Fin 2)
  | vmin
  | trim (i : Fin 40)
  deriving DecidableEq, Repr

/-- What MEM_UC, CFG_PAR or INT_TIMEOUT has hit, where R393 (spec/13_spall_faults.md) gives an effect; the parts of a block are
named by their own numbers. -/
inductive Contained where
  /-- A frame that arrives at front-panel port `p`, or on side-port port `p`. -/
  | portFrame (p : Fin 1024)
  | auxFrame (p : Fin 4)
  /-- The packet of a pass, by its number in the model. -/
  | packet (pass : Nat)
  | emSlot (bank : Fin 2) (i : Fin 2097152)
  | lpmHandle (bank : Fin 2) (i : Fin 2097152)
  | flowCounter (i : Fin 1048576)
  /-- An entry of a parser's state table; a word of a pipeline instance's program bank, by target, stage and index as
  PIPE_IDX_ADDR names it. -/
  | parserWord (n : Fin 32) (bank : Fin 2) (i : Fin 512)
  | programWord (n : Fin 64) (bank : Fin 2) (target : Fin 3) (stage : Fin 16) (i : Fin 2048)
  | tcamEntry (i : Fin 49152)
  | meter (i : Fin 262144)
  | voq (v : Fin 393216)
  /-- A cell of a stored frame, by the frame's number in the model. -/
  | cell (pkt : Nat)
  /-- A batch of a spill context whose read is under way. -/
  | batchHeader (ctx : Nat) (seq : Nat)
  /-- A read, or a write, of a CXL port under way: as a poisoned read-back, or as an error completion. -/
  | cxlRead (port : Fin 4) (cells : List (Fin 64)) (lines : Fin 384)
  | cxlWrite (port : Fin 4)
  /-- An access of core `core` to the ARCHIVE region through a CXL port. -/
  | archiveAccess (port : Fin 4) (core : Fin 8)
  /-- A table job that reads or writes the TABLE_IMAGE region. -/
  | tableJob (job : Nat)
  | egrQueue (p : Fin 1024) (q : Fin 12)
  | gatherCtx (slot : Fin 4096) (step : BitVec 32) (seq : BitVec 16)
  | ring (n : Fin 256)
  | channel (c : Fin 64)
  | core (k : Fin 8)
  /-- Any other word: a register of the map, by its BAR0 offset. -/
  | word (off : BitVec 26)
  /-- Words with no offset: a word of queue `e`'s histogram, a dword of a place of the record buffer, a word of the OTP. -/
  | histWord (e : Fin 12288) (i : Fin 19)
  | recordWord (place : Fin 2048) (i : Fin 8)
  | otpWord (w : OtpWord)
  deriving DecidableEq, Repr

/-- The commands, in the table's order. -/
inductive Instr where
  /-- REG_WRITE (R14). A write to a register that has no row of its own; access checks, RWL lock refusal, W1C/W1S action and the effect within 40 ns are applied. -/
  | regWrite (m : Master) (off : BitVec 26) (wide : Bool) (v : Word) (others : List BusAccess)
  /-- RC_READ (R7). A read of an RC field returns its value and clears it; an event in the same clock survives the clear. -/
  | rcRead (m : Master) (bar : Bar) (off : BitVec 26) (wide : Bool) (others : List BusAccess)
  /-- LOW_DWORD_READ (R10). A read of a 64-bit register's low dword latches its high dword for the reading MID. -/
  | lowDwordRead (m : Master) (bar : Bar) (off : BitVec 26) (wide : Bool)
  /-- HIGH_DWORD_READ (R10). A read of a high dword returns the MID's latched value and releases the latch, or returns the live value. -/
  | highDwordRead (m : Master) (bar : Bar) (off : BitVec 26)
  /-- LOW_DWORD_WRITE (R10). A write of a 64-bit register's low dword is held for the writing MID. -/
  | lowDwordWrite (m : Master) (off : BitVec 26) (v : BitVec 32)
  /-- HIGH_DWORD_WRITE (R10). A write of a high dword updates all 64 bits with the held low dword, or the high half alone when none is held. -/
  | highDwordWrite (m : Master) (off : BitVec 26) (v : BitVec 32)
  /-- RESERVED_OFFSET_ACCESS (R17). An access to a reserved window or offset completes normally, reads 0, discards a write and is logged. -/
  | reservedOffsetAccess (m : Master) (off : BitVec 26) (write wide : Bool)
  /-- BAD_SIZE_ACCESS (R17). A BAR access that is not 4 or 8 bytes long and naturally aligned completes with Unsupported Request and is logged. -/
  | badSizeAccess (m : Master) (bar : Bar) (off : BitVec 26) (write : Bool)
  /-- BAR4_WRITE (R17). A write to PF0's BAR4 or to a VF's BAR4 is discarded and logged as kind 0x5. -/
  | bar4Write (m : Master) (off : BitVec 16)
  /-- CFG_COMMIT (R8). A GO write to a block's CFG_COMMIT is accepted, BUSY rises, and the copy of the staged RWS values starts. -/
  | cfgCommit (m : Master) (win : Fin 26)
  /-- COMMIT_APPLY (R8). The block copies the staged RWS values into the committed set at one edge and BUSY falls. -/
  | commitApply (win : Fin 26)
  /-- D2D_REPLAY (R392). A die-to-die transfer fails its CRC and is replayed; a CE fault is counted. -/
  | d2dReplay (k : Fin 61) (link : BitVec 8)
  /-- D2D_FAIL (R392). The 16th failed replay of one transfer raises the hard FT fault D2D_FAIL. -/
  | d2dFail (k : Fin 61) (link : BitVec 8)
  /-- PD_REQUEST (R37). A write of GLB_PD_REQ requests power domains on or off. -/
  | pdRequest (m : Master) (k : Fin 6) (v : BitVec 32)
  /-- PD_TRANSITION_DONE (R40). A domain's power-up or power-down completes, GLB_PD_ON changes and the next pending transition starts. -/
  | pdTransitionDone
  /-- QRY_GROUP_DRAINED (R39). A Quarry bank group requested off holds no allocated cell, and its power-down starts. -/
  | qryGroupDrained (g : Fin 8)
  /-- ANL_PERIOD (R262). At each 10 us tick the Annealer latches the activity counts, publishes the budget level and computes powers, grants, A, the OPP ceiling and the voltage request. -/
  | anlPeriod (cores : List CoreWork) (avsAck : Bool)
  /-- PUB_GAP (R45). A consumer that has received no publication for 40 us acts at budget level L3, and a UC fault is raised. -/
  | pubGap
  /-- REFCLK_A_LOSS (R412). REFCLK_A absent or more than 10% off holds the device in power-on reset. -/
  | refclkALoss
  /-- REFCLK_OUT_OF_RANGE (R445). REFCLK_B-H absent or more than 1,000 ppm from REFCLK_A clears REF_OK and takes the served clusters' ports down. -/
  | refclkOutOfRange (b : Fin 7)
  /-- SIGNAL_LOSS (R62). The partner disappears: SIG_DET and CDR_LOCK fall, ALIGN_LOCK falls, LOC_FAULT rises and LINK_UP falls. -/
  | signalLoss (p : Fin 1024)
  /-- LINK_UP_CHANGE (R62). LINK_UP changes: a fall is counted in PCS_LINK_FLAP and sets LINK_DOWN_EVT, and either change posts a link event. -/
  | linkUpChange (p : Fin 1024) (localFault remoteFault : Bool)
  /-- FEC_CODEWORD (R58). The receive PCS decodes one codeword or block and counts corrected, uncorrectable or invalid results. -/
  | fecCodeword (p : Fin 1024) (r : Codeword) (hiSer rxLpi degRem : Bool) (skew : Fin 256)
  /-- FEC_DEG_INTERVAL (R59). At the end of an 8,192-codeword interval FEC_DEG_LOC is set or cleared against the thresholds. -/
  | fecDegInterval (p : Fin 1024)
  /-- RATE_MATCH (R60). The receive PCS inserts or deletes one idle block between frames and counts the action. -/
  | rateMatch (p : Fin 1024) (insert : Bool)
  /-- RM_OVF (R61). A full dual-clock queue truncates the arriving frame, ends it errored and sets RM_OVF. -/
  | rmOvf (p : Fin 1024)
  /-- LPI_ENTER (R63). After LPI_US us with no frame to send, the transmit PCS sends LPI. -/
  | lpiEnter (p : Fin 1024)
  /-- LPI_WAKE (R63). The 1.0 us wake time after a frame became ready while in LPI ends, and the frame is sent. -/
  | lpiWake (p : Fin 1024)
  /-- BRINGUP_START (R64). Firmware starts link bring-up of an enabled port without mismatch at phase 1. -/
  | bringupStart (p : Fin 1024)
  /-- LANE_READY (R64). Every lane of the port reports READY, ending phase 1. -/
  | laneReady (p : Fin 1024)
  /-- AN_RESOLVE (R64). Clause 73 auto-negotiation resolves to the configured speed and FEC, ending phase 2. -/
  | anResolve (p : Fin 1024)
  /-- LT_COMPLETE (R64). Every lane reports LT_STATE trained, ending phase 3; freeze reasons that still hold take effect. -/
  | ltComplete (p : Fin 1024) (taps : List (BitVec 30))
  /-- ADAPT_TRACKING (R64). Every lane reaches ADAPT tracking, ending phase 4. -/
  | adaptTracking (p : Fin 1024) (meas : List LaneMeas)
  /-- ALIGN_LOCK (R57). Alignment markers lock and lanes are deskewed, ending phase 5. -/
  | alignLock (p : Fin 1024) (skew : Fin 201)
  /-- BRINGUP_TIMEOUT (R64). A bring-up phase overruns its limit; LT_STATE is set to failed and a 1 s wait starts. -/
  | bringupTimeout (p : Fin 1024)
  /-- BRINGUP_RETRY (R64). The 1 s wait after a failed attempt ends and bring-up restarts at phase 1. -/
  | bringupRetry (p : Fin 1024)
  /-- ADAPT_FREEZE (R67). A freeze reason comes to hold, the lane freezes adaptation and LANE_FRZ_CNT increments. -/
  | adaptFreeze (n : Fin 1024) (why : FreezeWhy)
  /-- ADAPT_UNFREEZE (R67). No freeze reason holds any longer and the lane resumes tracking. -/
  | adaptUnfreeze (n : Fin 1024) (why : FreezeWhy)
  /-- ADAPT_RESTART (R68). A write of LANE_ADAPT.RESTART restarts adaptation from the current coefficients unless frozen or training. -/
  | adaptRestart (m : Master) (n : Fin 1024)
  /-- AUX_CODE_GROUP (R71). A side-port lane receives one 8b/10b code-group and checks its disparity and validity. -/
  | auxCodeGroup (l : Fin 4) (cg : AuxCodeGroup)
  /-- AUX_RATE_MATCH (R74). The side port inserts or deletes one R column or I2 ordered set between frames. -/
  | auxRateMatch (p : Fin 4) (insert : Bool)
  /-- AUX_TDENS_WINDOW (R75). A 1,024-UI window ends and side-port adaptation freezes or resumes by its transition count. -/
  | auxTdensWindow (l : Fin 4) (transitions : Fin 1025)
  /-- HEADER_SLOT (R77). A frame's header window has arrived and the packet takes an ingress slot, runs the parser and stages, and is sampled or tagged. -/
  | headerSlot (p : Fin 1024) (src : SlotSrc) (sameClock : Bool)
  /-- MAC_CONTROL_TERMINATE (R78). A MAC control frame is terminated by the port and never enters the pipeline. -/
  | macControlTerminate (p : Fin 1024) (frame : List Byte)
  /-- NOP (R94). Instruction NOP does nothing. -/
  | nop (pass : Nat)
  /-- SET (R94). Instruction SET writes the source to the destination selector. -/
  | set (pass : Nat)
  /-- ADD (R94). Instruction ADD adds the source to the destination modulo its width. -/
  | add (pass : Nat)
  /-- SUB (R94). Instruction SUB subtracts the source from the destination modulo its width. -/
  | sub (pass : Nat)
  /-- AND (R94). Instruction AND ANDs the source into the destination. -/
  | and (pass : Nat)
  /-- OR (R94). Instruction OR ORs the source into the destination. -/
  | or (pass : Nat)
  /-- XOR (R94). Instruction XOR XORs the source into the destination. -/
  | xor (pass : Nat)
  /-- FWD_PORT (R94). Instruction FWD_PORT sets a unicast destination port. -/
  | fwdPort (pass : Nat)
  /-- FWD_MC (R94). Instruction FWD_MC sets a multicast group destination. -/
  | fwdMc (pass : Nat)
  /-- FWD_HOST (R94). Instruction FWD_HOST sends the packet to the host with a trap code. -/
  | fwdHost (pass : Nat)
  /-- COPY_HOST (R102). Instruction COPY_HOST requests a host copy with a trap code. -/
  | copyHost (pass : Nat)
  /-- DROP (R94). Instruction DROP raises drop code 0x20 plus the user code. -/
  | drop (pass : Nat)
  /-- METER (R97). Instruction METER charges PKT_LEN to a meter and sets COLOUR, dropping on red with RED_DROP. -/
  | meter (pass : Nat)
  /-- COUNT (R99). Instruction COUNT adds one packet and PKT_LEN bytes to a flow counter. -/
  | count (pass : Nat)
  /-- MIRROR (R102). Instruction MIRROR selects a mirror session for the packet. -/
  | mirror (pass : Nat)
  /-- LEARN (R100). Instruction LEARN offers a learn entry that waits for the frame's end. -/
  | learn (pass : Nat)
  /-- HASH (R94). Instruction HASH sets FLOW_HASH to a CRC-32C over a key profile's bytes. -/
  | hash (pass : Nat)
  /-- SKIP (R95). Instruction SKIP names the next stage to run. -/
  | skip (pass : Nat)
  /-- INSERT4 (R94). Instruction INSERT4 inserts 4 bytes before a named header byte at egress. -/
  | insert4 (pass : Nat)
  /-- REMOVE (R94). Instruction REMOVE removes 1 to 64 bytes from a named header byte at egress. -/
  | remove (pass : Nat)
  /-- DEC_TTL (R94). Instruction DEC_TTL decrements TTL or Hop Limit, dropping with TTL_ZERO at 1 or less. -/
  | decTtl (pass : Nat)
  /-- INSERT_IOAM (R311). Instruction INSERT_IOAM writes or inserts IOAM trace node data, or sets the overflow flag. -/
  | insertIoam (pass : Nat)
  /-- INGRESS_END (R103). The ingress pipeline ends: Gather classification, forwarding miss, hairpin and queue resolution, drop decision and copies. -/
  | ingressEnd (pass : Nat)
  /-- COPY_ABANDON (R169). A copy that finds no shared-pool room while being written is abandoned and counted. -/
  | copyAbandon (copy : Nat)
  /-- FRAME_END_CHECKS (R152). At the later of frame end and ingress end the Quarry runs the frame-end checks, admits the copies and passes any learn offer. -/
  | frameEndChecks (pkt : Nat) (tail : List Byte) (mark : FrameMark)
  /-- CT_CANDIDATE (R171). A cut-through frame becomes a scheduler candidate once two or all of its cells are in the Quarry. -/
  | ctCandidate (pkt : Nat) (more : List Byte)
  /-- CT_STOMP (R173). A cut-through frame that fails after its head left, or falls behind, is ended with a complemented FCS. -/
  | ctStomp (copy : Nat)
  /-- WRED_AVG_UPDATE (R162). Every 256 ns each egress queue's average depth is updated. -/
  | wredAvgUpdate
  /-- PFC_EVAL (R165). The 1 us evaluation of XOFF for each lossless ingress priority runs. -/
  | pfcEval
  /-- PFC_FRAME_SEND (R166). The port builds and sends a PFC frame carrying every priority in XOFF and those released. -/
  | pfcFrameSend (p : Fin 1024)
  /-- PFC_RESEND (R166). Half the QUANTA time after the last PFC frame with a priority in XOFF, the port sends another. -/
  | pfcResend (p : Fin 1024)
  /-- SCHED_DECISION (R201). A port's transmitter can take another frame and the scheduler chooses queue and VOQ by eligibility, level, DRR and round robin. -/
  | schedDecision (p : Fin 1024)
  /-- EGRESS_ENTER (R106). A copy enters egress stage 0; SRC_PRUNE is raised for a multicast copy to its own ingress port. -/
  | egressEnter (n : Fin 32) (sameClock : Bool)
  /-- EGRESS_END (R107). The deparser applies header writes, removals and insertions, checks growth and MTU, and makes egress copies. -/
  | egressEnd (pass : Nat)
  /-- CT_FALLBACK (R172). A cut-through frame whose egress set LENCHG waits for its frame-end checks and leaves as stored. -/
  | ctFallback (copy : Nat)
  /-- FRAME_TRANSMIT (R299). The egress PCS sends a frame, takes its transmit timestamp and feeds histograms, capture and Cullet records. -/
  | frameTransmit (copy : Nat)
  /-- COPY_READ_DONE (R168). A copy's last cell is read for transmission; the reference count falls and cells free at zero. -/
  | copyReadDone (copy : Nat)
  /-- LEHR_SLOT (R217). The wheel time reaches a slot and its queues become eligible or move from the overflow wheel. -/
  | lehrSlot
  /-- LEHR_RATE_WRITE (R218). A write of LEHR_Q_RATE or BURST; a change to 0 makes the queue eligible at once. -/
  | lehrRateWrite (m : Master) (p : Fin 1024) (q : Fin 12) (burst : Bool) (v : BitVec 32)
  /-- GATE_INTERVAL_END (R209). A gate list entry's interval or a cycle ends and the gates change. -/
  | gateIntervalEnd (p : Fin 1024)
  /-- GCL_SWITCH_REQ (R213). A GO write of EGR_GCL_CTL requests a gate list bank switch or is refused. -/
  | gclSwitchReq (m : Master) (p : Fin 1024) (v : BitVec 32)
  /-- GCL_SWITCH (R213). At T_sw the new gate list bank becomes operating and PEND falls. -/
  | gclSwitch (p : Fin 1024)
  /-- GCL_WR (R455). EGR_GCL_ADDR WR writes EGR_GCL_DATA into the non-operating bank. -/
  | gclWr (m : Master) (v : BitVec 32)
  /-- GCL_RD (R455). EGR_GCL_ADDR RD reads a gate list target into EGR_GCL_DATA. -/
  | gclRd (m : Master) (v : BitVec 32)
  /-- PFC_RX (R220). A received PFC frame loads or releases the pause timers of its enabled priorities. -/
  | pfcRx (p : Fin 1024)
  /-- PAUSE_RX (R220). A received PAUSE frame loads the port's pause timer. -/
  | pauseRx (p : Fin 1024)
  /-- CTL_FRAME_BAD (R220). A bad MAC control frame is discarded and counted. -/
  | ctlFrameBad (p : Fin 1024)
  /-- PAUSE_TIMER_EXPIRY (R221). A priority or port pause timer runs out and its queues resume. -/
  | pauseTimerExpiry (p : Fin 1024) (pri : Option (Fin 8))
  /-- PFCWD_PERIOD (R222). Each 100 us the PFC watchdog examines each priority and trips or restores it. -/
  | pfcwdPeriod
  /-- FLUSH_START (R224). A disabled port, or a down link after DOWN_HOLD, starts flushing its queues. -/
  | flushStart (p : Fin 1024)
  /-- FLUSH_DROP (R225). The flush engine drops one candidate frame from a flushed queue and counts it. -/
  | flushDrop (n : Fin 32)
  /-- MTR_READ (R229). MTR_CMD READ returns a meter's profile, levels and byte counts. -/
  | mtrRead (m : Master) (v : BitVec 32)
  /-- MTR_WRITE (R229). MTR_CMD WRITE sets a meter's profile and keeps or fills its buckets. -/
  | mtrWrite (m : Master) (v : BitVec 32)
  /-- MTR_CLEAR (R229). MTR_CMD CLEAR sets a meter's three byte counts to 0. -/
  | mtrClear (m : Master) (v : BitVec 32)
  /-- PRS_ST_WR (R85). PRS_ST_ADDR WR writes PRS_ST_DATA into a parser state-table entry. -/
  | prsStWr (m : Master) (n : Fin 32) (v : BitVec 32)
  /-- PRS_ST_RD (R455). PRS_ST_ADDR RD reads a parser state-table entry into PRS_ST_DATA. -/
  | prsStRd (m : Master) (n : Fin 32) (v : BitVec 32)
  /-- PIPE_IDX_WR (R455). PIPE_IDX_ADDR WR writes an action word, stage configuration or key profile. -/
  | pipeIdxWr (m : Master) (n : Fin 64) (v : BitVec 32)
  /-- PIPE_IDX_RD (R455). PIPE_IDX_ADDR RD reads an action word, stage configuration or key profile. -/
  | pipeIdxRd (m : Master) (n : Fin 64) (v : BitVec 32)
  /-- TBL_READ (R123). TBL_CMD READ returns an entry by index, optionally clearing HIT or counters. -/
  | tblRead (m : Master) (v : BitVec 32)
  /-- TBL_WRITE (R116). TBL_CMD WRITE stores an entry by index exactly as written. -/
  | tblWrite (m : Master) (v : BitVec 32)
  /-- TBL_INSERT (R114). TBL_CMD INSERT places a key by update, free slot, relocation or eviction. -/
  | tblInsert (m : Master) (v : BitVec 32)
  /-- TBL_DELETE (R125). TBL_CMD DELETE clears a key's entry. -/
  | tblDelete (m : Master) (v : BitVec 32)
  /-- TBL_SEARCH (R123). TBL_CMD SEARCH finds a key and returns its entry and slot. -/
  | tblSearch (m : Master) (v : BitVec 32)
  /-- TBL_NEXT (R128). TBL_CMD NEXT scans upward to the next valid entry, optionally by tag and clearing HIT. -/
  | tblNext (m : Master) (v : BitVec 32)
  /-- FLUSH_BY_PORT (R129). TBL_CMD FLUSH_BY_PORT deletes every non-static entry whose action data match. -/
  | flushByPort (m : Master) (v : BitVec 32)
  /-- DELETE_IF_IDLE (R130). TBL_CMD DELETE_IF_IDLE deletes a key only if its HIT is 0. -/
  | deleteIfIdle (m : Master) (v : BitVec 32)
  /-- TBL_CMD_DONE (R124). A table command's result is in place and BUSY falls. -/
  | tblCmdDone
  /-- RELOCATION_MOVE (R115). One relocation move writes the new copy and invalidates the old, merging HIT. -/
  | relocationMove (b : Fin 2)
  /-- LEARN_TAKE (R132). The learning logic takes an offer from the queue and inserts, moves, drops or evicts. -/
  | learnTake
  /-- LEARN_EVENT_RESUME (R136). The learn event ring has room again and the stalled change and its event proceed. -/
  | learnEventResume (slots : Fin 65537)
  /-- STAMP_TICK (R134). TBL_STAMP.NOW increments once per STAMP_TICK period. -/
  | stampTick
  /-- STAMP_TICK_WRITE (R134). A write of TBL_CFG.STAMP_TICK starts a new stamp period at the write. -/
  | stampTickWrite (m : Master) (v : BitVec 32)
  /-- DUALWR_ENABLE (R143). TBL_CFG.DUALWR rising from 0 to 1 empties the delete log. -/
  | dualwrEnable (m : Master) (v : BitVec 32)
  /-- INJECT (R348). Job INJECT feeds a host frame into an ingress pipeline as if its port had received it. -/
  | inject (src : InjectSrc)
  /-- RX_POST (R349). Job RX_POST posts a receive buffer for frames to the host. -/
  | rxPost (n : Fin 256)
  /-- GATHER_GROUP_SET (R239). Job GATHER_GROUP_SET fetches the member table and creates or replaces a group. -/
  | gatherGroupSet (n : Fin 256) (r : HostRead)
  /-- GATHER_GROUP_CLEAR (R240). Job GATHER_GROUP_CLEAR aborts a group's operations and invalidates its slot. -/
  | gatherGroupClear (n : Fin 256)
  /-- GATHER_OP (R242). Job GATHER_OP checks and queues a run of reduction steps. -/
  | gatherOp (n : Fin 256)
  /-- TABLE_BULK_LOAD (R140). Job TABLE_BULK_LOAD clears and loads the inactive EM or LPM bank in KEYED or IMAGE format. -/
  | tableBulkLoad (n : Fin 256) (hdr : ImageHeader)
  /-- BULK_CLEAR_DONE (R140). The background clear of the inactive bank ends and record placement begins. -/
  | bulkClearDone (t : Fin 2)
  /-- BULK_RECORD (R140). One bulk-load record is placed, discarded through the delete log, or counted as failed. -/
  | bulkRecord (t : Fin 2) (r : HostRead)
  /-- TABLE_BULK_DUMP (R145). Job TABLE_BULK_DUMP writes a bank to host memory or the Sump. -/
  | tableBulkDump (n : Fin 256)
  /-- TABLE_BANK_SWAP (R138). Job TABLE_BANK_SWAP makes the inactive EM or LPM bank active at one edge. -/
  | tableBankSwap (n : Fin 256)
  /-- TLM_POST (R303). Job TLM_POST supplies a buffer for a telemetry stream. -/
  | tlmPost (n : Fin 256)
  /-- FENCE (R343). Job FENCE waits for earlier jobs, and optionally all earlier table jobs, and then completes. -/
  | fence (n : Fin 256)
  /-- TABLE_JOB_DONE (R139). A table job ends and the next table job of its tables may start. -/
  | tableJobDone
  /-- CXL_ENUMERATE (R179). CXL_CTL.EN rising, or a link-down, starts firmware enumeration of a root port. -/
  | cxlEnumerate (m : Master) (k : Fin 4) (v : BitVec 32)
  /-- CXL_ENUM_COMPLETE (R179). Enumeration ends successfully with MEM_READY or fails with ENUM_ERR. -/
  | cxlEnumComplete (k : Fin 4) (r : CxlEnum)
  /-- CXL_RETRAIN (R179). A write of CXL_CTL.RETRAIN takes the link down and enumerates again. -/
  | cxlRetrain (m : Master) (k : Fin 4) (v : BitVec 32)
  /-- CXL_DISABLE (R179). A clear of CXL_CTL.EN stops enumeration and requests, and MEM_READY falls. -/
  | cxlDisable (m : Master) (k : Fin 4) (v : BitVec 32)
  /-- BATCH_CLOSE (R189). CLOSE_US after its first cell an open batch closes and joins the write queue. -/
  | batchClose (ctx : BitVec 16)
  /-- BATCH_WRITE_ISSUE (R189). The write bucket holds a closed batch's bytes and its CXL write is issued. -/
  | batchWriteIssue
  /-- BATCH_WRITE_DONE (R189). A batch's last CXL write completes; cells and staging are released, or an error drops its frames. -/
  | batchWriteDone (ctx : BitVec 16) (seq : Nat) (ok : Bool)
  /-- BATCH_READ_ISSUE (R191). A spilled context meets the read-back conditions and the read of its next batch is issued. -/
  | batchReadIssue
  /-- BATCH_READ_RETURN (R192). A batch read returns and is linked to the Quarry part in order, dropping poisoned frames. -/
  | batchReadReturn (ctx : BitVec 16) (seq : Nat) (r : ReadBack)
  /-- SPILL_FOLD (R193). A spilled VOQ with no batch in the Sump and an empty Quarry part folds its batches back. -/
  | spillFold (ctx : BitVec 16)
  /-- SPILL_END (R194). A spill with nothing left in the Sump ends, its context and extents are freed and SPILLED falls. -/
  | spillEnd (ctx : BitVec 16)
  /-- CXL_LINK_DOWN (R199). A CXL link goes down or MEM_READY falls; frames on the port are dropped and its extents leave their chains. -/
  | cxlLinkDown (k : Fin 4)
  /-- CXL_VIRAL (R199). Viral from a memory device is handled as link down. -/
  | cxlViral (k : Fin 4)
  /-- CXL_FLIT_REPLAY (R199). A CXL link-layer CRC error is replayed and counted as CE. -/
  | cxlFlitReplay (k : Fin 4)
  /-- GATHER_CONTRIB (R246). An engine takes a CONTRIB frame and answers, resends, discards or reduces it. -/
  | gatherContrib (k : Fin 8)
  /-- GATHER_ACK (R251). An engine takes an ACK frame and raises the member's acknowledged step. -/
  | gatherAck (k : Fin 8)
  /-- STEP_DISPATCH (R247). The dispatcher dispatches a step, opening every context at one edge and taking tokens. -/
  | stepDispatch
  /-- NAK_TIMER (R253). Each NAK_US interval the engine sends NAK MISSING to members whose bit is clear. -/
  | nakTimer (slot : Fin 4096) (step : BitVec 32) (seq : BitVec 16)
  /-- STRAGGLER_EXPIRY (R253). The straggler timer expires and the context completes partially or the operation aborts. -/
  | stragglerExpiry (slot : Fin 4096) (step : BitVec 32) (seq : BitVec 16)
  /-- HOLD_EXPIRY (R252). HOLD_US after entering RESULTED a step becomes eligible to retire. -/
  | holdExpiry (slot : Fin 4096) (step : BitVec 32)
  /-- PMB_WINDOW (R265). Each 1 ms PMBus window reads the rails and evaluates telemetry loss and divergence. -/
  | pmbWindow (reads words : List PmbRead)
  /-- PMB_ALERT (R270). PMB_ALERT_N falls; the level is held at L2 or more, STATUS_WORD is read and a UC fault is raised. -/
  | pmbAlert
  /-- HINT_EXPIRY (R279). A HEAVY_AHEAD hint's HINT_US time passes and the hint closes. -/
  | hintExpiry (job : Nat)
  /-- HINT_DISPATCH_RELEASE (R279). A hinted job's dispatch hold ends after voltage settling or WAIT_US. -/
  | hintDispatchRelease (job : Nat)
  /-- DROOP_FIRE (R282). A droop detector fires and its die's clocks are stretched. -/
  | droopFire (die : Fin 4)
  /-- STRETCH_END (R282). STRETCH_NS after the supply recovers the stretched clocks resume full rate. -/
  | stretchEnd (die : Fin 4)
  /-- DROOP_WINDOW (R283). A 1 ms droop window ends and the guard voltage or forced level is raised on many firings. -/
  | droopWindow
  /-- GUARD_FALL (R283). After 100 ms with no droop firing GUARD_MV falls by one step. -/
  | guardFall
  /-- SENSOR_CONVERT (R284). Each 20 us the on-die sensors convert and the thermal responses are evaluated. -/
  | sensorConvert (readings : List (BitVec 12))
  /-- THERM_CRIT_EXIT (R285). T_hot has stayed below CRIT minus 5 C for 10 ms and thermal critical ends. -/
  | thermCritExit
  /-- RDIODE_READ (R286). Each 1 ms the remote diodes are read and compared with their limits. -/
  | rdiodeRead (t0 t1 : Option (BitVec 12))
  /-- SAG_ENTER (R288). VDD_IO or VDD_AON below its sag threshold for 1 us asserts INHIBIT. -/
  | sagEnter (ioLow aonLow flashBusy : Bool)
  /-- SAG_RELEASE (R289). Both supplies above their release thresholds for 10 ms clear INHIBIT and queued records flush. -/
  | sagRelease
  /-- TIME_SET (R295). TLM_TIME_CTL.SET loads TLM_TIME_STEP as the new nanosecond count. -/
  | timeSet (m : Master)
  /-- TIME_STEP (R295). TLM_TIME_CTL.STEP adds TLM_TIME_STEP to the nanosecond count. -/
  | timeStep (m : Master)
  /-- TLM_FLUSH (R303). FLUSH_US after a stream buffer's first record the buffer's job completes. -/
  | tlmFlush (k : Fin 4)
  /-- QS_SWEEP (R305). Every PERIOD_US a queue-sample sweep starts, or is skipped if one is running, and visits the selected queues. -/
  | qsSweep
  /-- HIST_LATCH_READ (R308). A read of TLM_HQ_DATA[0] latches a queue's histogram and optionally clears it. -/
  | histLatchRead (m : Master)
  /-- PMC_WRAP (R319). A programmable counter wraps, sets its PMC_OVF bit and optionally emits an overflow sample. -/
  | pmcWrap (pass : Nat) (pc : BitVec 64)
  /-- PMC_SNAP (R320). A write of PMC_GCTL.SNAP copies every counter into its shadow. -/
  | pmcSnap (m : Master) (v : BitVec 32)
  /-- PMC_SNAP_PERIODIC (R320). Every TICKS-th Annealer tick all counters are snapshotted. -/
  | pmcSnapPeriodic
  /-- IPFIX_EXPORT (R312). The IPFIX export interval expires and flow and queue records are exported. -/
  | ipfixExport
  /-- IPFIX_TEMPLATE_REFRESH (R312). The template refresh interval expires and templates are resent. -/
  | ipfixTemplateRefresh
  /-- SQ_DB (R333). A write of SQ_DB is accepted, refused or stale and moves the producer index. -/
  | sqDb (m : Master) (page : Fin 256) (v : BitVec 32) (wide : Bool)
  /-- CQ_DB (R334). A write of CQ_DB is accepted or refused and frees completion slots. -/
  | cqDb (m : Master) (page : Fin 256) (v : BitVec 32) (wide : Bool)
  /-- RESERVED_DOORBELL (R20). An access to a reserved doorbell page offset is discarded or reads 0 and is logged. -/
  | reservedDoorbell (m : Master) (page : Fin 256) (off : Fin 4096) (write wide : Bool)
  /-- SQ_FETCH (R340). The ring engine fetches an announced submission entry. -/
  | sqFetch (n : Fin 256) (r : HostRead)
  /-- SQ_POLL (R341). Each RING_POLL interval the entry at c is read and taken if its PH is expected. -/
  | sqPoll (n : Fin 256) (r : HostRead)
  /-- OWNER_POLL (R339). In owner mode the engine reads entries in order while OWNER is 1. -/
  | ownerPoll (n : Fin 256) (r : HostRead)
  /-- PH_RETRY (R337). Each 1 us an entry with the wrong PH is fetched again, entering ERROR after PH_RETRY tries. -/
  | phRetry (n : Fin 256) (r : HostRead)
  /-- FETCH_FAULT (R359). A submission fetch ends in UR, CA, timeout or poison and the ring enters ERROR. -/
  | fetchFault (n : Fin 256) (r : HostRead)
  /-- JOB_DISPATCH (R345). The engine dispatches a fetched entry, checking opcode, permission and fragment table. -/
  | jobDispatch (frags : HostRead)
  /-- COMPLETION_WRITE (R350). A finished job's completion is written into its ring or enters the holding queue. -/
  | completionWrite (slotFree : Bool)
  /-- CQ_STALL_TIMEOUT (R352). A stall lasting HIF_CQ_STALL_TMO raises a UC fault and a kind 7 event. -/
  | cqStallTimeout (m : Fin 256)
  /-- IRQ_TIMER (R327). TIMER_US after the first unsignalled entry the completion ring signals its interrupt. -/
  | irqTimer (m : Fin 256)
  /-- HOST_RX_DELIVER (R349). The ring engine writes a frame from a host internal queue into an RX_POST buffer or drops it. -/
  | hostRxDeliver
  /-- SQ_SHUTDOWN (R356). A write of SQ_EN 0 shuts the submission ring down, completing outstanding entries ABORTED. -/
  | sqShutdown (m : Master) (n : Fin 256)
  /-- SQ_SHUTDOWN_END (R356). Every completion of a stopping ring has been placed and SQ_STATE reads DISABLED. -/
  | sqShutdownEnd (n : Fin 256)
  /-- CQ_DISABLE (R358). A write of CQ_EN 0 requests the completion ring off; it stays STOPPING while work remains. -/
  | cqDisable (m : Master) (n : Fin 256)
  /-- CQ_DISABLE_EFFECT (R358). Its feeding rings are disabled and its holding queue empty, so the completion ring turns off. -/
  | cqDisableEffect (n : Fin 256)
  /-- RING_RESET (R360). A ring reset returns pair n to reset and ends its jobs without completion. -/
  | ringReset (m : Master) (n : Fin 256)
  /-- VF_RESET (R360). An FLR of a VF, or clearing VF Enable, resets the VF and ring-resets its pairs. -/
  | vfReset (cause : VfResetCause)
  /-- HIF_RESET (R360). An FLR of PF0, hot reset, PERST_N or HIF_CTL.RESET resets the host interface while forwarding continues. -/
  | hifReset (cause : HifResetCause)
  /-- HIF_RESET_DONE (R360). The HIF reset ends within 100 us and RST_BUSY falls. -/
  | hifResetDone
  /-- BUS_MASTER_ENABLE (R328). Setting a function's Bus Master Enable lets the engine start its rings' DMA. -/
  | busMasterEnable (fn : Fin 32) (enable : Bool) (msiVectors : Fin 33) (cfg : PcieCfg)
  /-- POISONED_TLP (R359). A poisoned TLP written to a BAR is discarded and counted. -/
  | poisonedTlp (fn : Fin 32)
  /-- PCIE_LINK_DOWN (R394). The PCIe link leaves L0 without a reset request and a UC fault is raised. -/
  | pcieLinkDown
  /-- MBX_SEND (R367). The sender's SEND makes a mailbox message FULL, increments SEQ and starts the timer, or is refused. -/
  | mbxSend (m : Master) (c : Fin 64) (len : BitVec 7)
  /-- MBX_ACK (R368). The receiver's ACK with the current SEQ clears FULL and TIMEOUT. -/
  | mbxAck (m : Master) (c : Fin 64) (seq : BitVec 16)
  /-- MBX_RESET (R371). MBX_CTL.RESET clears a channel's FULL, TIMEOUT, SEND_REJ and LEN. -/
  | mbxReset (m : Master) (c : Fin 64)
  /-- MBX_TIMEOUT (R369). FULL held for TMO_US sets TIMEOUT. -/
  | mbxTimeout (c : Fin 64)
  /-- MBX_BIND_CHANGE (R366). A write of SVC_MBX_BIND changes a channel's binding and clears the channel. -/
  | mbxBindChange (m : Master) (c : Fin 64) (enable : Bool) (sender receiver : BitVec 8)
  /-- MBX_LOCK_ACQUIRE (R374). A read of a free lock acquires it; a read of a held lock reports the owner. -/
  | mbxLockAcquire (m : Master) (k : Fin 16)
  /-- MBX_LOCK_RELEASE (R375). RELEASE by the owner frees a lock. -/
  | mbxLockRelease (m : Master) (k : Fin 16)
  /-- MBX_LOCK_FORCE (R375). FORCE by a service core or JTAG frees a lock and increments MBX_LOCK_FORCED. -/
  | mbxLockForce (m : Master) (k : Fin 16)
  /-- SVC_HALT (R379). SVC_CTL.HALT stops or resumes a service core. -/
  | svcHalt (m : Master) (k : Fin 8) (halt : Bool)
  /-- SVC_RESET (R379). SVC_CTL.RESET restarts a service core at the firmware entry. -/
  | svcReset (m : Master) (k : Fin 8)
  /-- LINK_HANDOVER (R382). The LINK service moves to another core when its core is halted, reset or off. -/
  | linkHandover
  /-- SYSTEM_PING (R381). Service request SYSTEM ping is answered by S0. -/
  | systemPing (c : Fin 64)
  /-- SYSTEM_VERSION (R381). Service request SYSTEM version returns the firmware version. -/
  | systemVersion (c : Fin 64)
  /-- ROLLBACK_COMMIT (R390). SYSTEM ROLLBACK_COMMIT raises the OTP rollback index to the running image's. -/
  | rollbackCommit (c : Fin 64)
  /-- SET_CONFIG (R385). IPFIX SET_CONFIG sets collectors, ranges and intervals and restarts templates. -/
  | setConfig (c : Fin 64)
  /-- HEALTH (R386). CXLMEM HEALTH returns a memory device's health. -/
  | health (c : Fin 64) (data : Option (List (BitVec 32)))
  /-- EVENT_LOG (R386). CXLMEM EVENT_LOG returns a memory device's event log. -/
  | eventLog (c : Fin 64) (data : Option (List (BitVec 32)))
  /-- FW_UPDATE (R386). CXLMEM FW_UPDATE transfers firmware to a memory device, or ends BUSY. -/
  | fwUpdate (c : Fin 64) (off : BitVec 39) (bytes : List Byte) (poison ok : Bool)
  /-- FLASH_WRITE (R384). A FLASH service request writes a firmware image to SPI NOR, or ends BUSY during a sag. -/
  | flashWrite (c : Fin 64) (addr : BitVec 25) (bytes : List Byte) (ok : Bool)
  /-- FAULTLOG_READ (R404). FAULTLOG READ returns up to 7 records from a sequence number. -/
  | faultlogRead (c : Fin 64)
  /-- FAULTLOG_STATUS (R404). FAULTLOG STATUS returns the oldest and newest logged sequence and waiting count. -/
  | faultlogStatus (c : Fin 64)
  /-- FAULTLOG_ERASE (R404). FAULTLOG ERASE erases the flash log. -/
  | faultlogErase (c : Fin 64)
  /-- FAULTLOG_FLUSH (R403). The FAULTLOG service writes a buffered record to the flash log and frees it after read-back. -/
  | faultlogFlush (readBackGood : Bool)
  /-- BOOT_ROM (R388). After reset the boot ROM on S0 selects, checks, loads and verifies an image and starts it, or fails. -/
  | bootRom (a b : BootSlot)
  /-- BOOT_GO (R414). A write of RST_BOOT_GO.GO ends a boot hold. -/
  | bootGo (m : Master)
  /-- OTP_PROGRAM (R389). SVC_OTP_CTL.PROGRAM programs and locks the firmware key hash. -/
  | otpProgram (m : Master)
  /-- OTP_PROGRAM_DONE (R389). Key-hash programming completes, BUSY falls and the ROM continues at step 2. -/
  | otpProgramDone
  /-- FAULT_RAISE (R397). A source raises a fault in its collector; it is classified, counted, latched or overflowed, recorded and posted. -/
  | faultRaise (k : Fin 61) (faults : FaultClock) (hit : List Contained)
  /-- FAULT_INJECT (R401). SPL_INJ GO presents an injected fault to a collector, or is refused. -/
  | faultInject (m : Master) (k : Fin 61) (v : BitVec 32)
  /-- LATCH_CLEAR (R397). A W1C of SPL_LATCH.VALID clears the collector's latch. -/
  | latchClear (m : Master) (k : Fin 61)
  /-- FORCE_SAFE (R406). A write of SPL_CTL.FORCE_SAFE raises SW_SAFE and enters the safe state. -/
  | forceSafe (m : Master)
  /-- COLL_PAR (R405). A parity error in a collector's registers marks it broken and raises COLL_PAR. -/
  | collPar (e : ParityError)
  /-- ROOT_CHECK (R405). The two copies of collector 60 disagree and the hard FT source ROOT_CHECK fires. -/
  | rootCheck
  /-- POWER_ON_RESET (R415). VDD_AON or VDD_IO below threshold, SYS_PWRGD low or REFCLK_A loss starts a power-on reset. -/
  | powerOnReset (cause : PowerOnCause)
  /-- SUPPLY_FAIL (R410). A core supply below its reset threshold for 1 us starts a cold reset. -/
  | supplyFail (supply : Fin 4)
  /-- COLD (R415). A write of RST_CTL COLD with KEY 0x5A starts a cold reset. -/
  | cold (m : Master) (v : BitVec 32)
  /-- WARM (R416). A write of RST_CTL WARM with KEY 0x5A starts a warm reset unless THERMTRIP holds. -/
  | warm (m : Master) (v : BitVec 32)
  /-- SYS_RST_N_LOW (R415). SYS_RST_N held low for 1 us starts a warm reset. -/
  | sysRstNLow
  /-- RESET_RELEASE (R423). A reset ends, straps are sampled on power-on, and initialisation and the domain sequence start. -/
  | resetRelease (smbAddr : Fin 4) (spiSlow : Bool) (boot : Fin 4)
  /-- INIT_DONE (R420). Core-region memory initialisation completes and INIT_DONE rises. -/
  | initDone
  /-- PERST_N_RISE (R424). PERST_N rises and the PCIe link trains to L0. -/
  | perstNRise (width : Fin 32) (speed : Fin 16) (flit : Bool)
  /-- BMC_ADDR (R438). BMC port command ADDR sets the BAR0 offset. -/
  | bmcAddr (off : BitVec 32) (badPec : Bool)
  /-- BMC_WRITE (R438). BMC port command WRITE writes the register at ADDR and advances ADDR. -/
  | bmcWrite (v : BitVec 32) (badPec : Bool)
  /-- BMC_READ (R438). BMC port command READ returns the register at ADDR and advances ADDR. -/
  | bmcRead
  /-- BMC_STATUS (R438). BMC port command STATUS returns whether the last access was refused. -/
  | bmcStatus
  /-- BMC_TIMEOUT (R438). A BMC transaction stopped for 35 ms resets the port's transaction state. -/
  | bmcTimeout
  /-- I3C_DAA (R438). A BMC controller assigns a dynamic address by SETDASA or ENTDAA and the port turns I3C. -/
  | i3cDaa (addr : BitVec 7)
  /-- RSTDAA (R438). The I3C controller issues RSTDAA and the port returns to SMBus. -/
  | rstdaa
  /-- JTAG_TAP_RESET (R437). TRST_N low or five TCK cycles with TMS high reset the TAP. -/
  | jtagTapReset
  /-- REF_OK_RESTORE (R412). A REFCLK_B-H input returns within 1,000 ppm of REFCLK_A, PCS_CL_STAT.REF_OK rises and the served clusters' lanes can become ready again. -/
  | refOkRestore (b : Fin 7)
  /-- PMB_ALERT_N_RISE (R270). PMB_ALERT_N returns high, ANL_STAT.ALERT clears and the forced minimum budget level of L2 ends. -/
  | pmbAlertNRise
  /-- CQ_OWNER_POLL (R338). In owner mode the device re-reads the last dword of completion slot q every RING_POLL interval, or every 1 us, and writes held entries once the host has set OWNER to 0. -/
  | cqOwnerPoll (m : Fin 256) (free : Bool)
  /-- AUX_SIGNAL_LOSS (R73). A side-port partner disappears: SIG_DET and CDR_LOCK fall on its lanes and the port loses synchronisation and link. -/
  | auxSignalLoss (p : Fin 4)
  /-- MACRO_PLL_RELOCK (R394). An octal macro's transmit PLL regains lock, LANE_MACRO_STAT.PLL_LOCK rises and its lanes can become ready for bring-up again. -/
  | macroPllRelock (m : Fin 128)
  /-- PCIE_LINK_UP (R424). The PCIe link trains back to L0 after a surprise link-down, link disable or hot reset, without a rise of PERST_N, and HIF_STAT.LINK_UP rises. -/
  | pcieLinkUp (width : Fin 32) (speed : Fin 16) (flit : Bool)
  /-- ENEC (R439). The I3C controller sends ENEC or DISEC to the BMC port and enables or disables its in-band interrupts. -/
  | enec (enable : Bool)
  deriving DecidableEq, Repr

end Sys2Proof
end

