-- ==== Sys2Proof/WellFormed.lean ====
section
/-!
DEFINITION. Which command terms the outside can send: the limits on operands that their types do not say. A meaning is
total on the other terms too.
-/

namespace Sys2Proof

/-- The further collectors of one clock come in rising order after the first. -/
def faultsRise : Nat → List (Fin 61 × List (BitVec 8 × BitVec 32)) → Bool
  | _, [] => true
  | k, x :: t => decide (k < x.1.val) && faultsRise x.1.val t

/-- A header window holds at most 256 bytes (spec/03_parser_and_pipelines.md R77). -/
def SlotSrc.wf : SlotSrc → Bool
  | .wire window _ _ => decide (window.length ≤ 256)
  | .waiting => true

/-- Accesses of one clock come from different masters (spec/00_scope.md R9), a 4-byte one with a 32-bit value. -/
def othersWf (m : Master) (l : List BusAccess) : Bool :=
  l.all (fun a => a.m != m && (a.wide || decide (a.val.toNat < 2 ^ 32))) && decide ((l.map (fun a => a.m)).Nodup)

/-- The dwords of a service's answer fit its reply (spec/12_mailboxes_and_service_cores.md R383). -/
def svcData (n : Nat) : Option (List (BitVec 32)) → Bool
  | some l => decide (l.length ≤ n)
  | none => true

/-- A slot's header has 512 bytes (spec/12_mailboxes_and_service_cores.md R387). -/
def slotWf (b : BootSlot) : Bool := decide (b.header.length = 512)

/-- A command that can be sent: a 32-bit write has a 32-bit value, a port has at most 8 lanes (R48), the PMBus at most 8 rails
(R265), the device 64 sensors (R284). -/
def Instr.wf : Instr → Bool
  | .regWrite m _ wide v others => (wide || decide (v.toNat < 2 ^ 32)) && othersWf m others
  | .rcRead m _ _ _ others => othersWf m others
  | .lowDwordRead _ _ _ _ => true
  | .highDwordRead _ _ _ => true
  | .lowDwordWrite _ _ _ => true
  | .highDwordWrite _ _ _ => true
  | .reservedOffsetAccess _ _ _ _ => true
  | .badSizeAccess _ _ _ _ => true
  | .bar4Write _ _ => true
  | .cfgCommit _ _ => true
  | .commitApply _ => true
  | .d2dReplay _ _ => true
  | .d2dFail _ _ => true
  | .pdRequest _ _ _ => true
  | .pdTransitionDone => true
  | .qryGroupDrained _ => true
  | .anlPeriod cores _ => decide (cores.length ≤ 8)
  | .pubGap => true
  | .refclkALoss => true
  | .refclkOutOfRange _ => true
  | .signalLoss _ => true
  | .linkUpChange _ _ _ => true
  | .fecCodeword _ _ _ _ _ _ => true
  | .fecDegInterval _ => true
  | .rateMatch _ _ => true
  | .rmOvf _ => true
  | .lpiEnter _ => true
  | .lpiWake _ => true
  | .bringupStart _ => true
  | .laneReady _ => true
  | .anResolve _ => true
  | .ltComplete _ taps => decide (taps.length ≤ 8)
  | .adaptTracking _ meas => decide (meas.length ≤ 8)
  | .alignLock _ _ => true
  | .bringupTimeout _ => true
  | .bringupRetry _ => true
  | .adaptFreeze _ _ => true
  | .adaptUnfreeze _ _ => true
  | .adaptRestart _ _ => true
  | .auxCodeGroup _ _ => true
  | .auxRateMatch _ _ => true
  | .auxTdensWindow _ _ => true
  | .headerSlot _ src _ => src.wf
  | .macControlTerminate _ _ => true
  | .nop _ => true
  | .set _ => true
  | .add _ => true
  | .sub _ => true
  | .and _ => true
  | .or _ => true
  | .xor _ => true
  | .fwdPort _ => true
  | .fwdMc _ => true
  | .fwdHost _ => true
  | .copyHost _ => true
  | .drop _ => true
  | .meter _ => true
  | .count _ => true
  | .mirror _ => true
  | .learn _ => true
  | .hash _ => true
  | .skip _ => true
  | .insert4 _ => true
  | .remove _ => true
  | .decTtl _ => true
  | .insertIoam _ => true
  | .ingressEnd _ => true
  | .copyAbandon _ => true
  | .frameEndChecks _ _ _ => true
  | .ctCandidate _ _ => true
  | .ctStomp _ => true
  | .wredAvgUpdate => true
  | .pfcEval => true
  | .pfcFrameSend _ => true
  | .pfcResend _ => true
  | .schedDecision _ => true
  | .egressEnter _ _ => true
  | .egressEnd _ => true
  | .ctFallback _ => true
  | .frameTransmit _ => true
  | .copyReadDone _ => true
  | .lehrSlot => true
  | .lehrRateWrite _ _ _ _ _ => true
  | .gateIntervalEnd _ => true
  | .gclSwitchReq _ _ _ => true
  | .gclSwitch _ => true
  | .gclWr _ _ => true
  | .gclRd _ _ => true
  | .pfcRx _ => true
  | .pauseRx _ => true
  | .ctlFrameBad _ => true
  | .pauseTimerExpiry _ _ => true
  | .pfcwdPeriod => true
  | .flushStart _ => true
  | .flushDrop _ => true
  | .mtrRead _ _ => true
  | .mtrWrite _ _ => true
  | .mtrClear _ _ => true
  | .prsStWr _ _ _ => true
  | .prsStRd _ _ _ => true
  | .pipeIdxWr _ _ _ => true
  | .pipeIdxRd _ _ _ => true
  | .tblRead _ _ => true
  | .tblWrite _ _ => true
  | .tblInsert _ _ => true
  | .tblDelete _ _ => true
  | .tblSearch _ _ => true
  | .tblNext _ _ => true
  | .flushByPort _ _ => true
  | .deleteIfIdle _ _ => true
  | .tblCmdDone => true
  | .relocationMove _ => true
  | .learnTake => true
  | .learnEventResume _ => true
  | .stampTick => true
  | .stampTickWrite _ _ => true
  | .dualwrEnable _ _ => true
  | .inject _ => true
  | .rxPost _ => true
  | .gatherGroupSet _ _ => true
  | .gatherGroupClear _ => true
  | .gatherOp _ => true
  | .tableBulkLoad _ _ => true
  | .bulkClearDone _ => true
  | .bulkRecord _ _ => true
  | .tableBulkDump _ => true
  | .tableBankSwap _ => true
  | .tlmPost _ => true
  | .fence _ => true
  | .tableJobDone => true
  | .cxlEnumerate _ _ _ => true
  | .cxlEnumComplete _ _ => true
  | .cxlRetrain _ _ _ => true
  | .cxlDisable _ _ _ => true
  | .batchClose _ => true
  | .batchWriteIssue => true
  | .batchWriteDone _ _ _ => true
  | .batchReadIssue => true
  | .batchReadReturn _ _ _ => true
  | .spillFold _ => true
  | .spillEnd _ => true
  | .cxlLinkDown _ => true
  | .cxlViral _ => true
  | .cxlFlitReplay _ => true
  | .gatherContrib _ => true
  | .gatherAck _ => true
  | .stepDispatch => true
  | .nakTimer _ _ _ => true
  | .stragglerExpiry _ _ _ => true
  | .holdExpiry _ _ => true
  | .pmbWindow reads words => decide (reads.length ≤ 8) && decide (words.length ≤ 8)
  | .pmbAlert => true
  | .hintExpiry _ => true
  | .hintDispatchRelease _ => true
  | .droopFire _ => true
  | .stretchEnd _ => true
  | .droopWindow => true
  | .guardFall => true
  | .sensorConvert readings => decide (readings.length = 64)
  | .thermCritExit => true
  | .rdiodeRead _ _ => true
  | .sagEnter _ _ _ => true
  | .sagRelease => true
  | .timeSet _ => true
  | .timeStep _ => true
  | .tlmFlush _ => true
  | .qsSweep => true
  | .histLatchRead _ => true
  | .pmcWrap _ _ => true
  | .pmcSnap _ _ => true
  | .pmcSnapPeriodic => true
  | .ipfixExport => true
  | .ipfixTemplateRefresh => true
  | .sqDb _ _ _ _ => true
  | .cqDb _ _ _ _ => true
  | .reservedDoorbell _ _ _ _ _ => true
  | .sqFetch _ _ => true
  | .sqPoll _ _ => true
  | .ownerPoll _ _ => true
  | .phRetry _ _ => true
  | .fetchFault _ _ => true
  | .jobDispatch _ => true
  | .completionWrite _ => true
  | .cqStallTimeout _ => true
  | .irqTimer _ => true
  | .hostRxDeliver => true
  | .sqShutdown _ _ => true
  | .sqShutdownEnd _ => true
  | .cqDisable _ _ => true
  | .cqDisableEffect _ => true
  | .ringReset _ _ => true
  | .vfReset _ => true
  | .hifReset _ => true
  | .hifResetDone => true
  | .busMasterEnable _ _ _ _ => true
  | .poisonedTlp _ => true
  | .pcieLinkDown => true
  | .mbxSend _ _ _ => true
  | .mbxAck _ _ _ => true
  | .mbxReset _ _ => true
  | .mbxTimeout _ => true
  | .mbxBindChange _ _ _ _ _ => true
  | .mbxLockAcquire _ _ => true
  | .mbxLockRelease _ _ => true
  | .mbxLockForce _ _ => true
  | .svcHalt _ _ _ => true
  | .svcReset _ _ => true
  | .linkHandover => true
  | .systemPing _ => true
  | .systemVersion _ => true
  | .rollbackCommit _ => true
  | .setConfig _ => true
  | .health _ data => svcData 63 data
  | .eventLog _ data => svcData 60 data
  | .fwUpdate _ _ _ _ _ => true
  | .flashWrite _ _ _ _ => true
  | .faultlogRead _ => true
  | .faultlogStatus _ => true
  | .faultlogErase _ => true
  | .faultlogFlush _ => true
  | .bootRom a b => slotWf a && slotWf b
  | .bootGo _ => true
  | .otpProgram _ => true
  | .otpProgramDone => true
  | .faultRaise k faults _ => faultsRise k.val faults.others
  | .faultInject _ _ _ => true
  | .latchClear _ _ => true
  | .forceSafe _ => true
  | .collPar _ => true
  | .rootCheck => true
  | .powerOnReset _ => true
  | .supplyFail _ => true
  | .cold _ _ => true
  | .warm _ _ => true
  | .sysRstNLow => true
  | .resetRelease _ _ _ => true
  | .initDone => true
  | .perstNRise _ _ _ => true
  | .bmcAddr _ _ => true
  | .bmcWrite _ _ => true
  | .bmcRead => true
  | .bmcStatus => true
  | .bmcTimeout => true
  | .i3cDaa _ => true
  | .rstdaa => true
  | .jtagTapReset => true
  | .refOkRestore _ => true
  | .pmbAlertNRise => true
  | .cqOwnerPoll _ _ => true
  | .auxSignalLoss _ => true
  | .macroPllRelock _ => true
  | .pcieLinkUp _ _ _ => true
  | .enec _ => true

end Sys2Proof
end

