-- ==== Sys2Proof/Decode.lean ====
section
/-!
DEFINITION. The command that a word spells by the bits of spec/opcode_table.json. The table gives no row any bits
(every row's "fields" is empty and none has a width), so no word spells a command.
-/

namespace Sys2Proof

/-- The command that the table's bits spell: none, as no row has bits. -/
def decodeTableWord (_nbits _w : Nat) : Option Instr := none

end Sys2Proof
end

