-- ==== Sys2Proof/Config.lean ====
section
/-!
DEFINITION. What the spec leaves open. A free value has no body: no proof can know it, so a claim about it holds
whatever it is. The other constants are fixed figures of the spec that several files use.
-/

namespace Sys2Proof

/-- The source of free values: the n-th value that the spec leaves open (log 2). The device holds n in
`Dev.freeIdx` and advances it at each use. -/
opaque Config.freeValue : Nat → Word

/-- The 32-bit syndrome that holds the STATUS_WORDs of the listed rails (R270): the spec gives the words no places in it (log 290). -/
opaque Config.statusSyndrome : List Nat → Nat

/-- The 32-byte header of a sector of the flash log, little-endian, by the boot count and the number of the sector's first record
(R403): the spec names the boot count in it (R402) and gives no layout (log 314). -/
opaque Config.sectorHeader : Nat → Nat → BitVec 256

/-- The MAC address under which the service cores send on the side port; the spec gives none (log 299). -/
opaque Config.sideMac : Nat

/-- The 64 bytes of a table image's header (R141): the spec names what it holds, the table ID, the MAJOR revision, the two
seeds and the count of valid entries, and gives no place to any of them (log 52). -/
opaque Config.imageHeader : Nat → Nat → Nat → Nat → Nat → List Byte

end Sys2Proof
end

