-- ==== Sys2Proof/Machine/RegTable.lean ====
section
/-!
DEFINITION. The register map as data: one `Reg` per register (or per array of registers) of the spec's register
tables, with its window, its offset, its instance dimensions, and every field's bits, access type and reset value;
and one `Fld` constant per named field. Reserved bits belong to no field: they read 0 (spec/00_scope.md R5).
The register tables stand at the ends of the chapters of spec/; each group below names its chapter.
-/

namespace Sys2Proof.Machine

/-- The access types of spec/00_scope.md R6. -/
inductive Acc where
  | rw | ro | rc | w1c | w1s | wo | rws | rwl
  deriving DecidableEq, Repr

/-- Fault classes of spec/13_spall_faults.md: corrected, uncorrected and contained, fatal. -/
inductive FClass where
  | ce | uc | ft
  deriving DecidableEq, Repr

/-- The class number of R397 and R402: 1 CE, 2 UC, 3 FT. -/
def FClass.num : FClass → Nat
  | .ce => 1
  | .uc => 2
  | .ft => 3

/-- The class of source `src` of collector `k` (R392, R394); `none`: the collector does not implement the source.
DESIGN CHOICE (log 12): every collector implements the common sources 0x01 to 0x08 of R392. -/
def faultClass (k src : Nat) : Option FClass :=
  if src = 1 ∨ src = 4 then some .ce
  else if src = 2 ∨ src = 3 ∨ src = 7 then some .uc
  else if src = 5 ∨ src = 6 ∨ src = 8 then some .ft
  else if 2 ≤ k ∧ k ≤ 5 then (if src = 0x40 then some .uc else none)
  else if k = 45 then (if 0x40 ≤ src ∧ src ≤ 0x45 then some .uc else none)
  else if 46 ≤ k ∧ k ≤ 49 then (if src = 0x40 then some .ce else none)
  else if k = 53 then
    (if src = 0x40 ∨ src = 0x41 ∨ src = 0x44 ∨ src = 0x45 ∨ src = 0x48 ∨ src = 0x4A then some .ce
     else if src = 0x42 ∨ src = 0x43 ∨ src = 0x46 ∨ src = 0x47 ∨ src = 0x4B then some .uc
     else if src = 0x49 then some .ft else none)
  else if k = 54 then
    (if src = 0x41 then some .ce else if src = 0x40 ∨ src = 0x42 then some .uc else none)
  else if k = 56 then (if src = 0x40 ∨ src = 0x41 then some .uc else none)
  else if k = 60 then
    (if src = 0x40 ∨ src = 0x41 then some .uc
     else if src = 0x42 ∨ src = 0x43 then some .ft else none)
  else none

/-- The sources that are always fatal, marked hard in R392 and R394. -/
def faultHard (k src : Nat) : Bool :=
  src == 5 || src == 8 || (k == 53 && src == 0x49) || (k == 60 && (src == 0x42 || src == 0x43))

/-- The reset severity of a source: CE 1, UC 2, FT 3 (R396); 0 for a source that is not implemented
(DESIGN CHOICE, log 12). -/
def faultSev (k src : Nat) : Nat :=
  match faultClass k src with
  | some c => c.num
  | none => 0

/-- The reset value of SPL_SEV[k][j] at flat index 16 k + j: two bits for each of the sources 16 j to 16 j + 15. -/
def sevReset (flat : Nat) : Nat :=
  (List.range 16).foldl (fun a i => a + faultSev (flat / 16) (16 * (flat % 16) + i) * 4 ^ i) 0

/-- The reset binding of mailbox channel `c` (spec/12_mailboxes_and_service_cores.md R364): enabled, sender, receiver. -/
def bindReset (c : Nat) : Bool × Nat × Nat :=
  let other := if c < 16 then some (0x00, 0x40 + c / 2)
    else if c < 18 then some (0x51, 0x40)
    else if c < 20 then some (0x50, 0x40) else none
  match other with
  | some (a, b) => if c % 2 = 0 then (true, a, b) else (true, b, a)
  | none => (false, 0, 0)

/-- How a field's reset value depends on the flat instance index of its register. -/
inductive Rst where
  /-- The same value in every instance. -/
  | const (n : Nat)
  /-- `base + step · (index mod period)`. -/
  | affine (base step period : Nat)
  /-- The list's value at the index modulo its length. -/
  | table (l : List Nat)
  /-- The severities of R396. -/
  | sev
  /-- The mailbox bindings of R364. -/
  | bindEn | bindSender | bindReceiver
  deriving DecidableEq, Repr

/-- The reset value at flat instance index `i`. -/
def Rst.at (r : Rst) (i : Nat) : Nat :=
  match r with
  | .const n => n
  | .affine base step period => base + step * (i % period)
  | .table l => l.getD (i % l.length) 0
  | .sev => sevReset i
  | .bindEn => if (bindReset i).1 then 1 else 0
  | .bindSender => (bindReset i).2.1
  | .bindReceiver => (bindReset i).2.2

/-- One row of a register table: bits [hi:lo], access type, reset value. -/
structure Field where
  name : String
  hi : Nat
  lo : Nat
  acc : Acc
  rst : Rst
  deriving DecidableEq, Repr

/-- One instance dimension: indices `first` to `first + count - 1`, `stride` bytes apart. -/
structure Dim where
  first : Nat
  count : Nat
  stride : Nat
  deriving DecidableEq, Repr

/-- A register, or an array of registers of one layout. `off` is the window offset of the instance whose indices are
all 0, whether or not that instance exists. -/
structure Reg where
  id : Nat
  win : Nat
  off : Nat
  wide : Bool
  dims : List Dim
  fields : List Field
  deriving DecidableEq, Repr

/-- A named field of a register. -/
structure Fld where
  reg : Reg
  hi : Nat
  lo : Nat
  deriving DecidableEq, Repr

/-- The flat index of an instance: mixed radix over the dimensions. -/
def flatIndex : List Dim → List Nat → Nat → Nat
  | d :: ds, i :: is, acc => flatIndex ds is (acc * d.count + (i - d.first))
  | _, _, acc => acc

/-- The key of an instance in the register store: window, register number and flat index. -/
def Reg.keyAt (r : Reg) (flat : Nat) : Nat :=
  r.win * 4294967296 + r.id * 1048576 + flat % 1048576

/-- The key of the instance with indices `ix`. -/
def Reg.key (r : Reg) (ix : List Nat) : Nat := r.keyAt (flatIndex r.dims ix 0)

/-- Bits [hi:lo] of `v`. -/
def bitsOf (v hi lo : Nat) : Nat := v / 2 ^ lo % 2 ^ (hi + 1 - lo)

/-- `v` with bits [hi:lo] replaced by the low bits of `x`. -/
def setBitsOf (v hi lo x : Nat) : Nat :=
  v % 2 ^ lo + (x % 2 ^ (hi + 1 - lo)) * 2 ^ lo + v / 2 ^ (hi + 1) * 2 ^ (hi + 1)

/-- The reset value of instance `flat`: every field at its reset value, reserved bits 0 (R5). -/
def Reg.resetAt (r : Reg) (flat : Nat) : Nat :=
  r.fields.foldl (fun a f => setBitsOf a f.hi f.lo (f.rst.at flat)) 0

end Sys2Proof.Machine

namespace Sys2Proof.Machine.R

/-! Window 0, GLB_ (spec/00_scope.md, 01_parts_and_paths.md) and its header page (spec/00_scope.md R16). -/

def GLB_STRAP : Reg where
  id := 0
  win := 0
  off := 0x10
  wide := false
  dims := []
  fields := [⟨"SMB_ADDR", 5, 4, .ro, .const 0⟩, ⟨"SPI_SLOW", 2, 2, .ro, .const 0⟩, ⟨"BOOT", 1, 0, .ro, .const 0⟩]
def GLB_BAD_ACCESS : Reg where
  id := 1
  win := 0
  off := 0x100
  wide := true
  dims := []
  fields := [⟨"VALID", 63, 63, .w1c, .const 0⟩, ⟨"OVF", 62, 62, .ro, .const 0⟩, ⟨"BAR", 61, 60, .ro, .const 0⟩, ⟨"KIND", 59, 56, .ro, .const 0⟩, ⟨"MID", 55, 48, .ro, .const 0⟩, ⟨"COUNT", 47, 32, .ro, .const 0⟩, ⟨"OFFSET", 25, 0, .ro, .const 0⟩]
def GLB_PD_REQ : Reg where
  id := 2
  win := 0
  off := 0x200
  wide := false
  dims := [⟨0, 6, 0x4⟩]
  fields := [⟨"ON", 31, 0, .rw, .table [0xFFFFFFFF, 0xFFFFFFFF, 0xFFFFFFFF, 0xFFFFFFFF, 0xFFFFFFFF, 0x7FFFFFFF]⟩]
def GLB_PD_ON : Reg where
  id := 3
  win := 0
  off := 0x220
  wide := false
  dims := [⟨0, 6, 0x4⟩]
  fields := [⟨"ON", 31, 0, .ro, .table [0xFFFFFFFF, 0xFFFFFFFF, 0xFFFFFFFF, 0xFFFFFFFF, 0xFFFFFFFF, 0x7FFFFFFF]⟩]
def GLB_PD_DENY : Reg where
  id := 4
  win := 0
  off := 0x240
  wide := false
  dims := [⟨0, 6, 0x4⟩]
  fields := [⟨"DENY", 31, 0, .w1c, .const 0⟩]
def GLB_ID : Reg where
  id := 5
  win := 0
  off := 0xFF000
  wide := false
  dims := []
  fields := [⟨"WINDOW", 31, 24, .ro, .const 0⟩, ⟨"MAJOR", 23, 16, .ro, .const 1⟩, ⟨"MINOR", 15, 8, .ro, .const 0⟩]
def GLB_CFG_COMMIT : Reg where
  id := 6
  win := 0
  off := 0xFF004
  wide := false
  dims := []
  fields := [⟨"BUSY", 31, 31, .ro, .const 0⟩, ⟨"GO", 0, 0, .wo, .const 0⟩]

/-! Window 1, RST_ (spec/14_reset_and_startup.md) and its header page (spec/00_scope.md R16). -/

def RST_CTL : Reg where
  id := 7
  win := 1
  off := 0x0
  wide := false
  dims := []
  fields := [⟨"KEY", 15, 8, .wo, .const 0⟩, ⟨"COLD", 1, 1, .wo, .const 0⟩, ⟨"WARM", 0, 0, .wo, .const 0⟩]
def RST_STAT : Reg where
  id := 8
  win := 1
  off := 0x4
  wide := false
  dims := []
  fields := [⟨"INIT_DONE", 31, 31, .ro, .const 0⟩, ⟨"PD_DONE", 30, 30, .ro, .const 0⟩, ⟨"WARM_REJ", 29, 29, .w1c, .const 0⟩, ⟨"KEY_REJ", 28, 28, .w1c, .const 0⟩, ⟨"BOOT_HOLD", 27, 27, .ro, .const 0⟩]
def RST_CAUSE : Reg where
  id := 9
  win := 1
  off := 0x8
  wide := false
  dims := []
  fields := [⟨"CAUSE", 31, 28, .ro, .const 1⟩, ⟨"SUPPLY", 27, 24, .ro, .const 0⟩, ⟨"MID", 23, 16, .ro, .const 0⟩]
def RST_COUNT : Reg where
  id := 10
  win := 1
  off := 0xC
  wide := false
  dims := []
  fields := [⟨"COLD", 31, 16, .ro, .const 0⟩, ⟨"WARM", 15, 0, .ro, .const 0⟩]
def RST_BOOT_GO : Reg where
  id := 11
  win := 1
  off := 0x10
  wide := false
  dims := []
  fields := [⟨"GO", 0, 0, .wo, .const 0⟩]
def RST_ID : Reg where
  id := 12
  win := 1
  off := 0xFF000
  wide := false
  dims := []
  fields := [⟨"WINDOW", 31, 24, .ro, .const 1⟩, ⟨"MAJOR", 23, 16, .ro, .const 1⟩, ⟨"MINOR", 15, 8, .ro, .const 0⟩]
def RST_CFG_COMMIT : Reg where
  id := 13
  win := 1
  off := 0xFF004
  wide := false
  dims := []
  fields := [⟨"BUSY", 31, 31, .ro, .const 0⟩, ⟨"GO", 0, 0, .wo, .const 0⟩]

/-! Window 2, PIN_ (spec/15_package_pins_electrical.md) and its header page (spec/00_scope.md R16). -/

def PIN_GPIO_OUT : Reg where
  id := 14
  win := 2
  off := 0x0
  wide := false
  dims := []
  fields := [⟨"OUT", 7, 0, .rw, .const 0⟩]
def PIN_GPIO_OE : Reg where
  id := 15
  win := 2
  off := 0x4
  wide := false
  dims := []
  fields := [⟨"OE", 7, 0, .rw, .const 0⟩]
def PIN_GPIO_IN : Reg where
  id := 16
  win := 2
  off := 0x8
  wide := false
  dims := []
  fields := [⟨"IN", 7, 0, .ro, .const 0⟩]
def PIN_BMC : Reg where
  id := 17
  win := 2
  off := 0x10
  wide := false
  dims := []
  fields := [⟨"PEND", 31, 31, .w1c, .const 0⟩, ⟨"I3C", 30, 30, .ro, .const 0⟩, ⟨"DYN_ADDR", 22, 16, .ro, .const 0⟩, ⟨"STATIC_ADDR", 6, 0, .ro, .const 96⟩]
def PIN_ID : Reg where
  id := 18
  win := 2
  off := 0xFF000
  wide := false
  dims := []
  fields := [⟨"WINDOW", 31, 24, .ro, .const 2⟩, ⟨"MAJOR", 23, 16, .ro, .const 1⟩, ⟨"MINOR", 15, 8, .ro, .const 0⟩]
def PIN_CFG_COMMIT : Reg where
  id := 19
  win := 2
  off := 0xFF004
  wide := false
  dims := []
  fields := [⟨"BUSY", 31, 31, .ro, .const 0⟩, ⟨"GO", 0, 0, .wo, .const 0⟩]

/-! Window 3, LANE_ (spec/02_lanes_and_ports.md) and its header page (spec/00_scope.md R16). -/

def LANE_CTL : Reg where
  id := 20
  win := 3
  off := 0x0
  wide := false
  dims := [⟨0, 1024, 0x200⟩]
  fields := [⟨"REACH", 13, 12, .rw, .const 0⟩, ⟨"LPBK", 11, 10, .rw, .const 0⟩, ⟨"TX_SQ", 9, 9, .rw, .const 0⟩, ⟨"POL_RX", 8, 8, .rw, .const 0⟩, ⟨"POL_TX", 7, 7, .rw, .const 0⟩, ⟨"PRBS", 6, 4, .rw, .const 0⟩, ⟨"EN", 0, 0, .rw, .const 0⟩]
def LANE_STAT : Reg where
  id := 21
  win := 3
  off := 0x4
  wide := false
  dims := [⟨0, 1024, 0x200⟩]
  fields := [⟨"PPM", 31, 20, .ro, .const 0⟩, ⟨"LT_STATE", 15, 12, .ro, .const 0⟩, ⟨"ADAPT", 11, 10, .ro, .const 0⟩, ⟨"FRZ_WHY", 9, 8, .ro, .const 0⟩, ⟨"TXEQ_REJ", 7, 7, .ro, .const 0⟩, ⟨"CDR_LOCK", 2, 2, .ro, .const 0⟩, ⟨"SIG_DET", 1, 1, .ro, .const 0⟩, ⟨"READY", 0, 0, .ro, .const 0⟩]
def LANE_TXEQ : Reg where
  id := 22
  win := 3
  off := 0x8
  wide := false
  dims := [⟨0, 1024, 0x200⟩]
  fields := [⟨"OVR", 31, 31, .rw, .const 0⟩, ⟨"PRE3", 29, 24, .rw, .const 0⟩, ⟨"PRE2", 23, 18, .rw, .const 0⟩, ⟨"PRE1", 17, 12, .rw, .const 0⟩, ⟨"MAIN", 11, 6, .rw, .const 63⟩, ⟨"POST1", 5, 0, .rw, .const 0⟩]
def LANE_RXEQ : Reg where
  id := 23
  win := 3
  off := 0xC
  wide := false
  dims := [⟨0, 1024, 0x200⟩]
  fields := [⟨"CTLE", 31, 27, .ro, .const 0⟩, ⟨"VGA", 26, 21, .ro, .const 0⟩, ⟨"DFE1", 20, 14, .ro, .const 0⟩]
def LANE_ADAPT : Reg where
  id := 24
  win := 3
  off := 0x10
  wide := false
  dims := [⟨0, 1024, 0x200⟩]
  fields := [⟨"REUSE_MS", 31, 20, .rw, .const 1000⟩, ⟨"IDLE_US", 19, 10, .rw, .const 50⟩, ⟨"RESTART", 2, 2, .wo, .const 0⟩, ⟨"FORCE_FRZ", 1, 1, .rw, .const 0⟩, ⟨"IDLE_FRZ", 0, 0, .rw, .const 1⟩]
def LANE_SNR : Reg where
  id := 25
  win := 3
  off := 0x14
  wide := false
  dims := [⟨0, 1024, 0x200⟩]
  fields := [⟨"SNR", 15, 0, .ro, .const 0⟩]
def LANE_FRZ_CNT : Reg where
  id := 26
  win := 3
  off := 0x18
  wide := false
  dims := [⟨0, 1024, 0x200⟩]
  fields := [⟨"COUNT", 31, 0, .ro, .const 0⟩]
def LANE_PRBS_ERR : Reg where
  id := 27
  win := 3
  off := 0x20
  wide := true
  dims := [⟨0, 1024, 0x200⟩]
  fields := [⟨"COUNT", 63, 0, .ro, .const 0⟩]
def LANE_MACRO_STAT : Reg where
  id := 28
  win := 3
  off := 0x80000
  wide := false
  dims := [⟨0, 128, 0x10⟩]
  fields := [⟨"CAL_DONE", 1, 1, .ro, .const 0⟩, ⟨"PLL_LOCK", 0, 0, .ro, .const 0⟩]
def LANE_ID : Reg where
  id := 29
  win := 3
  off := 0xFF000
  wide := false
  dims := []
  fields := [⟨"WINDOW", 31, 24, .ro, .const 3⟩, ⟨"MAJOR", 23, 16, .ro, .const 1⟩, ⟨"MINOR", 15, 8, .ro, .const 0⟩]
def LANE_CFG_COMMIT : Reg where
  id := 30
  win := 3
  off := 0xFF004
  wide := false
  dims := []
  fields := [⟨"BUSY", 31, 31, .ro, .const 0⟩, ⟨"GO", 0, 0, .wo, .const 0⟩]

/-! Window 4, PCS_ (spec/02_lanes_and_ports.md) and its header page (spec/00_scope.md R16). -/

def PCS_SHAPE : Reg where
  id := 31
  win := 4
  off := 0x0
  wide := false
  dims := [⟨0, 32, 0x4000⟩]
  fields := [⟨"M3", 15, 12, .rws, .const 0⟩, ⟨"M2", 11, 8, .rws, .const 0⟩, ⟨"M1", 7, 4, .rws, .const 0⟩, ⟨"M0", 3, 0, .rws, .const 0⟩]
def PCS_CL_STAT : Reg where
  id := 32
  win := 4
  off := 0x4
  wide := false
  dims := [⟨0, 32, 0x4000⟩]
  fields := [⟨"SHAPE_REJ", 7, 4, .w1c, .const 0⟩, ⟨"REF_OK", 0, 0, .ro, .const 0⟩]
def PCS_PORT_CTL : Reg where
  id := 33
  win := 4
  off := 0x1000
  wide := false
  dims := [⟨0, 32, 0x4000⟩, ⟨0, 32, 0x80⟩]
  fields := [⟨"LPI_US", 13, 8, .rws, .const 8⟩, ⟨"LPI_EN", 7, 7, .rws, .const 0⟩, ⟨"LT_EN", 6, 6, .rws, .const 1⟩, ⟨"AN_EN", 5, 5, .rws, .const 1⟩, ⟨"MEDIA", 4, 4, .rws, .const 0⟩, ⟨"FEC", 3, 2, .rws, .const 2⟩, ⟨"EN", 0, 0, .rws, .const 0⟩]
def PCS_PORT_STAT : Reg where
  id := 34
  win := 4
  off := 0x1004
  wide := false
  dims := [⟨0, 32, 0x4000⟩, ⟨0, 32, 0x80⟩]
  fields := [⟨"SKEW", 31, 24, .ro, .const 0⟩, ⟨"CNFG_MISMATCH", 15, 15, .ro, .const 0⟩, ⟨"ABSENT", 14, 14, .ro, .const 1⟩, ⟨"PPM_RANGE", 13, 13, .ro, .const 0⟩, ⟨"RM_OVF", 12, 12, .w1c, .const 0⟩, ⟨"LINK_DOWN_EVT", 11, 11, .w1c, .const 0⟩, ⟨"FEC_DEG_REM", 7, 7, .ro, .const 0⟩, ⟨"FEC_DEG_LOC", 6, 6, .ro, .const 0⟩, ⟨"HI_SER", 5, 5, .ro, .const 0⟩, ⟨"REM_FAULT", 4, 4, .ro, .const 0⟩, ⟨"LOC_FAULT", 3, 3, .ro, .const 0⟩, ⟨"ALIGN_LOCK", 2, 2, .ro, .const 0⟩, ⟨"RX_LPI", 1, 1, .ro, .const 0⟩, ⟨"LINK_UP", 0, 0, .ro, .const 0⟩]
def PCS_FEC_DEG : Reg where
  id := 35
  win := 4
  off := 0x1008
  wide := false
  dims := [⟨0, 32, 0x4000⟩, ⟨0, 32, 0x80⟩]
  fields := [⟨"ACT_THR", 31, 16, .rw, .const 600⟩, ⟨"DEACT_THR", 15, 0, .rw, .const 300⟩]
def PCS_LINK_FLAP : Reg where
  id := 36
  win := 4
  off := 0x100C
  wide := false
  dims := [⟨0, 32, 0x4000⟩, ⟨0, 32, 0x80⟩]
  fields := [⟨"COUNT", 31, 0, .ro, .const 0⟩]
def PCS_FEC_CORR : Reg where
  id := 37
  win := 4
  off := 0x1010
  wide := true
  dims := [⟨0, 32, 0x4000⟩, ⟨0, 32, 0x80⟩]
  fields := [⟨"COUNT", 63, 0, .ro, .const 0⟩]
def PCS_FEC_UNCORR : Reg where
  id := 38
  win := 4
  off := 0x1018
  wide := true
  dims := [⟨0, 32, 0x4000⟩, ⟨0, 32, 0x80⟩]
  fields := [⟨"COUNT", 63, 0, .ro, .const 0⟩]
def PCS_FEC_SYM : Reg where
  id := 39
  win := 4
  off := 0x1020
  wide := true
  dims := [⟨0, 32, 0x4000⟩, ⟨0, 32, 0x80⟩]
  fields := [⟨"COUNT", 63, 0, .ro, .const 0⟩]
def PCS_RM_DEL : Reg where
  id := 40
  win := 4
  off := 0x1028
  wide := true
  dims := [⟨0, 32, 0x4000⟩, ⟨0, 32, 0x80⟩]
  fields := [⟨"COUNT", 63, 0, .ro, .const 0⟩]
def PCS_RM_INS : Reg where
  id := 41
  win := 4
  off := 0x1030
  wide := true
  dims := [⟨0, 32, 0x4000⟩, ⟨0, 32, 0x80⟩]
  fields := [⟨"COUNT", 63, 0, .ro, .const 0⟩]
def PCS_RM_OVF : Reg where
  id := 42
  win := 4
  off := 0x1038
  wide := false
  dims := [⟨0, 32, 0x4000⟩, ⟨0, 32, 0x80⟩]
  fields := [⟨"COUNT", 31, 0, .ro, .const 0⟩]
def PCS_BAD_BLK : Reg where
  id := 43
  win := 4
  off := 0x103C
  wide := false
  dims := [⟨0, 32, 0x4000⟩, ⟨0, 32, 0x80⟩]
  fields := [⟨"COUNT", 31, 0, .ro, .const 0⟩]
def PCS_FEC_BIN : Reg where
  id := 44
  win := 4
  off := 0x1040
  wide := false
  dims := [⟨0, 32, 0x4000⟩, ⟨0, 32, 0x80⟩, ⟨1, 15, 0x4⟩]
  fields := [⟨"COUNT", 31, 0, .rc, .const 0⟩]
def PCS_ID : Reg where
  id := 45
  win := 4
  off := 0xFF000
  wide := false
  dims := []
  fields := [⟨"WINDOW", 31, 24, .ro, .const 4⟩, ⟨"MAJOR", 23, 16, .ro, .const 1⟩, ⟨"MINOR", 15, 8, .ro, .const 0⟩]
def PCS_CFG_COMMIT : Reg where
  id := 46
  win := 4
  off := 0xFF004
  wide := false
  dims := []
  fields := [⟨"BUSY", 31, 31, .ro, .const 0⟩, ⟨"GO", 0, 0, .wo, .const 0⟩]

/-! Window 5, AUX_ (spec/02_lanes_and_ports.md) and its header page (spec/00_scope.md R16). -/

def AUX_MODE : Reg where
  id := 47
  win := 5
  off := 0x0
  wide := false
  dims := []
  fields := [⟨"MODE", 1, 0, .rw, .const 0⟩]
def AUX_STAT : Reg where
  id := 48
  win := 5
  off := 0x4
  wide := false
  dims := []
  fields := [⟨"CNFG_MISMATCH", 1, 1, .ro, .const 0⟩, ⟨"PLL_LOCK", 0, 0, .ro, .const 0⟩]
def AUX_PORT_CTL : Reg where
  id := 49
  win := 5
  off := 0x100
  wide := false
  dims := [⟨0, 4, 0x40⟩]
  fields := [⟨"SPEED", 7, 6, .rw, .const 2⟩, ⟨"TYPE", 5, 4, .rw, .const 0⟩, ⟨"AN_EN", 3, 3, .rw, .const 1⟩, ⟨"EN", 0, 0, .rw, .const 0⟩]
def AUX_PORT_STAT : Reg where
  id := 50
  win := 5
  off := 0x104
  wide := false
  dims := [⟨0, 4, 0x40⟩]
  fields := [⟨"ALIGN", 5, 5, .ro, .const 0⟩, ⟨"RX_FAULT", 4, 4, .ro, .const 0⟩, ⟨"SPEED_RES", 3, 2, .ro, .const 0⟩, ⟨"SYNC", 1, 1, .ro, .const 0⟩, ⟨"LINK_UP", 0, 0, .ro, .const 0⟩]
def AUX_DISP_ERR : Reg where
  id := 51
  win := 5
  off := 0x108
  wide := false
  dims := [⟨0, 4, 0x40⟩]
  fields := [⟨"COUNT", 31, 0, .ro, .const 0⟩]
def AUX_CODE_ERR : Reg where
  id := 52
  win := 5
  off := 0x10C
  wide := false
  dims := [⟨0, 4, 0x40⟩]
  fields := [⟨"COUNT", 31, 0, .ro, .const 0⟩]
def AUX_RM_INS : Reg where
  id := 53
  win := 5
  off := 0x110
  wide := true
  dims := [⟨0, 4, 0x40⟩]
  fields := [⟨"COUNT", 63, 0, .ro, .const 0⟩]
def AUX_RM_DEL : Reg where
  id := 54
  win := 5
  off := 0x118
  wide := true
  dims := [⟨0, 4, 0x40⟩]
  fields := [⟨"COUNT", 63, 0, .ro, .const 0⟩]
def AUX_LANE_CTL : Reg where
  id := 55
  win := 5
  off := 0x400
  wide := false
  dims := [⟨0, 4, 0x20⟩]
  fields := [⟨"TDENS_MIN", 31, 16, .rw, .const 200⟩, ⟨"FRZ_EN", 3, 3, .rw, .const 1⟩, ⟨"POL_RX", 2, 2, .rw, .const 0⟩, ⟨"POL_TX", 1, 1, .rw, .const 0⟩]
def AUX_LANE_STAT : Reg where
  id := 56
  win := 5
  off := 0x404
  wide := false
  dims := [⟨0, 4, 0x20⟩]
  fields := [⟨"TDENS", 31, 16, .ro, .const 0⟩, ⟨"FROZEN", 2, 2, .ro, .const 0⟩, ⟨"SIG_DET", 1, 1, .ro, .const 0⟩, ⟨"CDR_LOCK", 0, 0, .ro, .const 0⟩]
def AUX_LANE_FRZ_CNT : Reg where
  id := 57
  win := 5
  off := 0x408
  wide := false
  dims := [⟨0, 4, 0x20⟩]
  fields := [⟨"COUNT", 31, 0, .ro, .const 0⟩]
def AUX_ID : Reg where
  id := 58
  win := 5
  off := 0xFF000
  wide := false
  dims := []
  fields := [⟨"WINDOW", 31, 24, .ro, .const 5⟩, ⟨"MAJOR", 23, 16, .ro, .const 1⟩, ⟨"MINOR", 15, 8, .ro, .const 0⟩]
def AUX_CFG_COMMIT : Reg where
  id := 59
  win := 5
  off := 0xFF004
  wide := false
  dims := []
  fields := [⟨"BUSY", 31, 31, .ro, .const 0⟩, ⟨"GO", 0, 0, .wo, .const 0⟩]

/-! Window 6, PRS_ (spec/03_parser_and_pipelines.md) and its header page (spec/00_scope.md R16). -/

def PRS_CFG : Reg where
  id := 60
  win := 6
  off := 0x0
  wide := false
  dims := [⟨0, 32, 0x4000⟩]
  fields := [⟨"BANK", 1, 1, .rws, .const 0⟩, ⟨"MISS_ERR", 0, 0, .rws, .const 0⟩]
def PRS_STAT : Reg where
  id := 61
  win := 6
  off := 0x4
  wide := false
  dims := [⟨0, 32, 0x4000⟩]
  fields := [⟨"ACTIVE_BANK", 0, 0, .ro, .const 0⟩]
def PRS_ST_ADDR : Reg where
  id := 62
  win := 6
  off := 0x10
  wide := false
  dims := [⟨0, 32, 0x4000⟩]
  fields := [⟨"WR", 31, 31, .wo, .const 0⟩, ⟨"RD", 30, 30, .wo, .const 0⟩, ⟨"BANK", 29, 29, .rw, .const 0⟩, ⟨"INDEX", 8, 0, .rw, .const 0⟩]
def PRS_ST_DATA : Reg where
  id := 63
  win := 6
  off := 0x20
  wide := false
  dims := [⟨0, 32, 0x4000⟩, ⟨0, 4, 0x4⟩]
  fields := [⟨"DATA", 31, 0, .rw, .const 0⟩]
def PRS_PORT_CFG : Reg where
  id := 64
  win := 6
  off := 0x100
  wide := false
  dims := [⟨0, 32, 0x4000⟩, ⟨0, 32, 0x4⟩]
  fields := [⟨"START_LA_OFF", 13, 8, .rws, .const 12⟩, ⟨"START_STATE", 7, 0, .rws, .const 0⟩]
def PRS_ID : Reg where
  id := 65
  win := 6
  off := 0xFF000
  wide := false
  dims := []
  fields := [⟨"WINDOW", 31, 24, .ro, .const 6⟩, ⟨"MAJOR", 23, 16, .ro, .const 1⟩, ⟨"MINOR", 15, 8, .ro, .const 0⟩]
def PRS_CFG_COMMIT : Reg where
  id := 66
  win := 6
  off := 0xFF004
  wide := false
  dims := []
  fields := [⟨"BUSY", 31, 31, .ro, .const 0⟩, ⟨"GO", 0, 0, .wo, .const 0⟩]

/-! Window 7, PIPE_ (spec/03_parser_and_pipelines.md) and its header page (spec/00_scope.md R16). -/

def PIPE_CFG : Reg where
  id := 67
  win := 7
  off := 0x0
  wide := false
  dims := [⟨0, 64, 0x2000⟩]
  fields := [⟨"PROG_BANK", 1, 1, .rws, .const 0⟩]
def PIPE_STAT : Reg where
  id := 68
  win := 7
  off := 0x4
  wide := false
  dims := [⟨0, 64, 0x2000⟩]
  fields := [⟨"LKUP_REJ", 31, 16, .ro, .const 0⟩, ⟨"ACTIVE_BANK", 0, 0, .ro, .const 0⟩]
def PIPE_CHK_EN : Reg where
  id := 69
  win := 7
  off := 0x8
  wide := false
  dims := [⟨0, 64, 0x2000⟩]
  fields := [⟨"EN", 16, 6, .rw, .const 2047⟩]
def PIPE_IDX_ADDR : Reg where
  id := 70
  win := 7
  off := 0x10
  wide := false
  dims := [⟨0, 64, 0x2000⟩]
  fields := [⟨"WR", 31, 31, .wo, .const 0⟩, ⟨"RD", 30, 30, .wo, .const 0⟩, ⟨"BANK", 29, 29, .rw, .const 0⟩, ⟨"TARGET", 27, 24, .rw, .const 0⟩, ⟨"STAGE", 23, 20, .rw, .const 0⟩, ⟨"INDEX", 10, 0, .rw, .const 0⟩]
def PIPE_BAD_INSN : Reg where
  id := 71
  win := 7
  off := 0x300
  wide := false
  dims := [⟨0, 64, 0x2000⟩]
  fields := [⟨"COUNT", 31, 0, .ro, .const 0⟩]
def PIPE_IDX_DATA : Reg where
  id := 72
  win := 7
  off := 0x20
  wide := false
  dims := [⟨0, 64, 0x2000⟩, ⟨0, 8, 0x4⟩]
  fields := [⟨"DATA", 31, 0, .rw, .const 0⟩]
def PIPE_PORT_CFG : Reg where
  id := 73
  win := 7
  off := 0x100
  wide := false
  dims := [⟨0, 64, 0x2000⟩, ⟨0, 32, 0x4⟩]
  fields := [⟨"MTU", 31, 17, .rw, .const 9216⟩, ⟨"DEF_LEN", 16, 2, .rw, .const 1518⟩, ⟨"HAIRPIN", 1, 1, .rw, .const 0⟩, ⟨"MC_SELF", 0, 0, .rw, .const 0⟩]
def PIPE_IN_OVR : Reg where
  id := 74
  win := 7
  off := 0x200
  wide := false
  dims := [⟨0, 64, 0x2000⟩, ⟨0, 32, 0x4⟩]
  fields := [⟨"COUNT", 31, 0, .ro, .const 0⟩]
def PIPE_DROP : Reg where
  id := 75
  win := 7
  off := 0x800
  wide := true
  dims := [⟨0, 64, 0x2000⟩, ⟨1, 63, 0x8⟩]
  fields := [⟨"COUNT", 63, 0, .ro, .const 0⟩]
def PIPE_PORT_DROP : Reg where
  id := 76
  win := 7
  off := 0x1000
  wide := false
  dims := [⟨0, 64, 0x2000⟩, ⟨0, 32, 0x80⟩, ⟨0, 32, 0x4⟩]
  fields := [⟨"COUNT", 31, 0, .ro, .const 0⟩]
def PIPE_TCAM_BIND : Reg where
  id := 77
  win := 7
  off := 0x80000
  wide := false
  dims := [⟨0, 16, 0x4⟩]
  fields := [⟨"EN", 31, 31, .rws, .const 0⟩, ⟨"DIR", 30, 30, .rws, .const 0⟩, ⟨"STAGE", 3, 0, .rws, .const 0⟩]
def PIPE_MIRROR : Reg where
  id := 78
  win := 7
  off := 0x80100
  wide := false
  dims := [⟨1, 15, 0x4⟩]
  fields := [⟨"EN", 31, 31, .rw, .const 0⟩, ⟨"ON_DROP", 30, 30, .rw, .const 0⟩, ⟨"DEST", 29, 28, .rw, .const 0⟩, ⟨"PORT", 27, 18, .rw, .const 0⟩, ⟨"QUEUE", 17, 14, .rw, .const 0⟩, ⟨"TRUNC", 13, 0, .rw, .const 0⟩]
def PIPE_ID : Reg where
  id := 79
  win := 7
  off := 0xFF000
  wide := false
  dims := []
  fields := [⟨"WINDOW", 31, 24, .ro, .const 7⟩, ⟨"MAJOR", 23, 16, .ro, .const 1⟩, ⟨"MINOR", 15, 8, .ro, .const 0⟩]
def PIPE_CFG_COMMIT : Reg where
  id := 80
  win := 7
  off := 0xFF004
  wide := false
  dims := []
  fields := [⟨"BUSY", 31, 31, .ro, .const 0⟩, ⟨"GO", 0, 0, .wo, .const 0⟩]

/-! Window 8, TBL_ (spec/04_forwarding_tables.md) and its header page (spec/00_scope.md R16). -/

def TBL_CFG : Reg where
  id := 81
  win := 8
  off := 0x0
  wide := false
  dims := []
  fields := [⟨"STAMP_TICK", 23, 16, .rw, .const 100⟩, ⟨"MAXDEPTH", 15, 12, .rw, .const 8⟩, ⟨"LEARN_PAUSE", 2, 2, .rw, .const 0⟩, ⟨"DUALWR", 1, 1, .rw, .const 0⟩, ⟨"CMDSET", 0, 0, .rw, .const 0⟩]
def TBL_STAT : Reg where
  id := 82
  win := 8
  off := 0x4
  wide := false
  dims := []
  fields := [⟨"SEED_REJ", 8, 8, .w1c, .const 0⟩, ⟨"DLOG_OVF", 7, 7, .w1c, .const 0⟩, ⟨"DUAL_ERR", 6, 6, .w1c, .const 0⟩, ⟨"EVQ_STALL", 5, 5, .ro, .const 0⟩, ⟨"ACTIVE_LPM", 1, 1, .ro, .const 0⟩, ⟨"ACTIVE_EM", 0, 0, .ro, .const 0⟩]
def TBL_ACC : Reg where
  id := 83
  win := 8
  off := 0x8
  wide := false
  dims := []
  fields := [⟨"LOCK", 31, 31, .rwl, .const 0⟩, ⟨"JTAG", 3, 3, .rwl, .const 0⟩, ⟨"BMC", 2, 2, .rwl, .const 0⟩, ⟨"SVC", 1, 1, .rwl, .const 1⟩, ⟨"PF", 0, 0, .rwl, .const 1⟩]
def TBL_STAMP : Reg where
  id := 84
  win := 8
  off := 0xC
  wide := false
  dims := []
  fields := [⟨"NOW", 15, 0, .ro, .const 0⟩]
def TBL_CMD : Reg where
  id := 85
  win := 8
  off := 0x10
  wide := false
  dims := []
  fields := [⟨"BUSY", 31, 31, .ro, .const 0⟩, ⟨"CMDSET", 30, 30, .rw, .const 0⟩, ⟨"OP", 29, 28, .rw, .const 0⟩, ⟨"TABLE", 27, 25, .rw, .const 0⟩, ⟨"BANK", 24, 24, .rw, .const 0⟩, ⟨"CLR", 23, 23, .rw, .const 0⟩, ⟨"EVICT", 22, 22, .rw, .const 0⟩, ⟨"EVT", 21, 21, .rw, .const 0⟩, ⟨"TAGF", 20, 20, .rw, .const 0⟩, ⟨"TAG", 19, 16, .rw, .const 0⟩, ⟨"GO", 0, 0, .wo, .const 0⟩]
def TBL_CMD_IDX : Reg where
  id := 86
  win := 8
  off := 0x14
  wide := false
  dims := []
  fields := [⟨"INDEX", 20, 0, .rw, .const 0⟩]
def TBL_CMD_STAT : Reg where
  id := 87
  win := 8
  off := 0x18
  wide := false
  dims := []
  fields := [⟨"STATUS", 31, 24, .ro, .const 0⟩, ⟨"MID", 23, 16, .ro, .const 0⟩, ⟨"FOUND", 15, 15, .ro, .const 0⟩, ⟨"HIT_WAS", 14, 14, .ro, .const 0⟩, ⟨"DUAL_FAIL", 13, 13, .ro, .const 0⟩, ⟨"EVICTED", 12, 12, .ro, .const 0⟩, ⟨"LOST", 7, 0, .rc, .const 0⟩]
def TBL_CMD_RES : Reg where
  id := 88
  win := 8
  off := 0x1C
  wide := false
  dims := []
  fields := [⟨"COUNT", 31, 0, .ro, .const 0⟩]
def TBL_LEARN_CFG : Reg where
  id := 89
  win := 8
  off := 0x20
  wide := false
  dims := []
  fields := [⟨"EVT_EN", 31, 31, .rw, .const 1⟩, ⟨"EVQ", 7, 0, .rw, .const 0⟩]
def TBL_EM_SEED : Reg where
  id := 90
  win := 8
  off := 0x40
  wide := false
  dims := [⟨0, 2, 0x8⟩, ⟨0, 2, 0x4⟩]
  fields := [⟨"SEED", 31, 0, .rw, .table [0, 0x5A5A5A5A, 0, 0x5A5A5A5A]⟩]
def TBL_STAGE_CFG : Reg where
  id := 91
  win := 8
  off := 0x80
  wide := false
  dims := [⟨0, 2, 0x40⟩, ⟨0, 16, 0x4⟩]
  fields := [⟨"FAM", 8, 8, .rws, .const 0⟩, ⟨"TAG", 3, 0, .rws, .const 0⟩]
def TBL_CMD_DATA : Reg where
  id := 92
  win := 8
  off := 0x100
  wide := false
  dims := [⟨0, 32, 0x4⟩]
  fields := [⟨"DATA", 31, 0, .rw, .const 0⟩]
def TBL_TAG_CFG : Reg where
  id := 93
  win := 8
  off := 0x200
  wide := false
  dims := [⟨0, 16, 0x4⟩]
  fields := [⟨"LEARN_ACT", 31, 21, .rw, .const 0⟩, ⟨"LEARN_EN", 3, 3, .rw, .const 0⟩, ⟨"MOVE_UPD", 2, 2, .rw, .const 1⟩, ⟨"EVICT", 1, 0, .rw, .const 0⟩]
def TBL_LEARN_OK : Reg where
  id := 94
  win := 8
  off := 0x300
  wide := true
  dims := []
  fields := [⟨"COUNT", 63, 0, .ro, .const 0⟩]
def TBL_EVICT : Reg where
  id := 95
  win := 8
  off := 0x308
  wide := true
  dims := []
  fields := [⟨"COUNT", 63, 0, .ro, .const 0⟩]
def TBL_LEARN_DROP : Reg where
  id := 96
  win := 8
  off := 0x310
  wide := false
  dims := [⟨0, 5, 0x4⟩]
  fields := [⟨"COUNT", 31, 0, .ro, .const 0⟩]
def TBL_DUAL_FAIL : Reg where
  id := 97
  win := 8
  off := 0x330
  wide := false
  dims := []
  fields := [⟨"COUNT", 31, 0, .ro, .const 0⟩]
def TBL_MC_EMPTY : Reg where
  id := 98
  win := 8
  off := 0x334
  wide := false
  dims := []
  fields := [⟨"COUNT", 31, 0, .ro, .const 0⟩]
def TBL_EM_USED : Reg where
  id := 99
  win := 8
  off := 0x340
  wide := false
  dims := [⟨0, 2, 0x4⟩]
  fields := [⟨"COUNT", 31, 0, .ro, .const 0⟩]
def TBL_LPM_USED : Reg where
  id := 100
  win := 8
  off := 0x348
  wide := false
  dims := [⟨0, 2, 0x4⟩]
  fields := [⟨"COUNT", 31, 0, .ro, .const 0⟩]
def TBL_BULK_FAIL : Reg where
  id := 101
  win := 8
  off := 0x350
  wide := false
  dims := []
  fields := [⟨"COUNT", 31, 0, .ro, .const 0⟩]
def TBL_BULK_FAIL_IDX : Reg where
  id := 102
  win := 8
  off := 0x354
  wide := false
  dims := []
  fields := [⟨"COUNT", 31, 0, .ro, .const 0⟩]
def TBL_DLOG_USED : Reg where
  id := 103
  win := 8
  off := 0x358
  wide := false
  dims := []
  fields := [⟨"COUNT", 31, 0, .ro, .const 0⟩]
def TBL_ID : Reg where
  id := 104
  win := 8
  off := 0xFF000
  wide := false
  dims := []
  fields := [⟨"WINDOW", 31, 24, .ro, .const 8⟩, ⟨"MAJOR", 23, 16, .ro, .const 1⟩, ⟨"MINOR", 15, 8, .ro, .const 0⟩]
def TBL_CFG_COMMIT : Reg where
  id := 105
  win := 8
  off := 0xFF004
  wide := false
  dims := []
  fields := [⟨"BUSY", 31, 31, .ro, .const 0⟩, ⟨"GO", 0, 0, .wo, .const 0⟩]

/-! Window 9, MTR_ (spec/07_egress_scheduling.md) and its header page (spec/00_scope.md R16). -/

def MTR_PROF_MODE : Reg where
  id := 106
  win := 9
  off := 0x0
  wide := false
  dims := [⟨0, 4096, 0x20⟩]
  fields := [⟨"AWARE", 2, 2, .rws, .const 0⟩, ⟨"MODE", 1, 0, .rws, .const 2⟩]
def MTR_PROF_CIR : Reg where
  id := 107
  win := 9
  off := 0x4
  wide := false
  dims := [⟨0, 4096, 0x20⟩]
  fields := [⟨"CIR", 31, 0, .rws, .const 0⟩]
def MTR_PROF_EIR : Reg where
  id := 108
  win := 9
  off := 0x8
  wide := false
  dims := [⟨0, 4096, 0x20⟩]
  fields := [⟨"EIR", 31, 0, .rws, .const 0⟩]
def MTR_PROF_CBS : Reg where
  id := 109
  win := 9
  off := 0xC
  wide := false
  dims := [⟨0, 4096, 0x20⟩]
  fields := [⟨"CBS", 23, 0, .rws, .const 0⟩]
def MTR_PROF_EBS : Reg where
  id := 110
  win := 9
  off := 0x10
  wide := false
  dims := [⟨0, 4096, 0x20⟩]
  fields := [⟨"EBS", 23, 0, .rws, .const 0⟩]
def MTR_CMD : Reg where
  id := 111
  win := 9
  off := 0x20000
  wide := false
  dims := []
  fields := [⟨"BUSY", 31, 31, .ro, .const 0⟩, ⟨"GO", 30, 30, .wo, .const 0⟩, ⟨"OP", 29, 28, .rw, .const 0⟩, ⟨"RST_BKT", 27, 27, .rw, .const 0⟩, ⟨"INDEX", 17, 0, .rw, .const 0⟩]
def MTR_DATA_PROFILE : Reg where
  id := 112
  win := 9
  off := 0x20010
  wide := false
  dims := []
  fields := [⟨"PROFILE", 11, 0, .rw, .const 0⟩]
def MTR_DATA_LEVEL : Reg where
  id := 113
  win := 9
  off := 0x20010
  wide := false
  dims := [⟨1, 2, 0x4⟩]
  fields := [⟨"LEVEL", 24, 0, .ro, .const 0⟩]
def MTR_DATA_BYTES : Reg where
  id := 114
  win := 9
  off := 0x20010
  wide := false
  dims := [⟨3, 6, 0x4⟩]
  fields := [⟨"BYTES", 31, 0, .ro, .const 0⟩]
def MTR_ID : Reg where
  id := 115
  win := 9
  off := 0xFF000
  wide := false
  dims := []
  fields := [⟨"WINDOW", 31, 24, .ro, .const 9⟩, ⟨"MAJOR", 23, 16, .ro, .const 1⟩, ⟨"MINOR", 15, 8, .ro, .const 0⟩]
def MTR_CFG_COMMIT : Reg where
  id := 116
  win := 9
  off := 0xFF004
  wide := false
  dims := []
  fields := [⟨"BUSY", 31, 31, .ro, .const 0⟩, ⟨"GO", 0, 0, .wo, .const 0⟩]

/-! Window 10, QRY_ (spec/05_quarry_central_store.md) and its header page (spec/00_scope.md R16). -/

def QRY_HDRM_POOL : Reg where
  id := 117
  win := 10
  off := 0x0
  wide := false
  dims := []
  fields := [⟨"CELLS", 20, 0, .rws, .const 0⟩]
def QRY_STAGE : Reg where
  id := 118
  win := 10
  off := 0x4
  wide := false
  dims := []
  fields := [⟨"CELLS", 20, 0, .rws, .const 0⟩]
def QRY_STAT : Reg where
  id := 119
  win := 10
  off := 0x8
  wide := false
  dims := []
  fields := [⟨"OVERCOMMIT", 0, 0, .ro, .const 0⟩]
def QRY_POOL_ALLOC : Reg where
  id := 120
  win := 10
  off := 0x10
  wide := false
  dims := []
  fields := [⟨"CELLS", 20, 0, .ro, .const 0x180000⟩]
def QRY_POOL_SHARED : Reg where
  id := 121
  win := 10
  off := 0x14
  wide := false
  dims := []
  fields := [⟨"CELLS", 20, 0, .ro, .const 0x16e000⟩]
def QRY_POOL_USED : Reg where
  id := 122
  win := 10
  off := 0x18
  wide := false
  dims := []
  fields := [⟨"CELLS", 20, 0, .ro, .const 0⟩]
def QRY_POOL_HDRM_USED : Reg where
  id := 123
  win := 10
  off := 0x1C
  wide := false
  dims := []
  fields := [⟨"CELLS", 20, 0, .ro, .const 0⟩]
def QRY_POOL_STAGE_USED : Reg where
  id := 124
  win := 10
  off := 0x20
  wide := false
  dims := []
  fields := [⟨"CELLS", 20, 0, .ro, .const 0⟩]
def QRY_POOL_FREE : Reg where
  id := 125
  win := 10
  off := 0x24
  wide := false
  dims := []
  fields := [⟨"CELLS", 20, 0, .ro, .const 0x180000⟩]
def QRY_VOQ_IDX : Reg where
  id := 126
  win := 10
  off := 0xA0
  wide := false
  dims := []
  fields := [⟨"INDEX", 18, 0, .rw, .const 0⟩]
def QRY_VOQ_DATA0 : Reg where
  id := 127
  win := 10
  off := 0xA4
  wide := false
  dims := []
  fields := [⟨"CELLS", 20, 0, .ro, .const 0⟩]
def QRY_VOQ_DATA1 : Reg where
  id := 128
  win := 10
  off := 0xA8
  wide := false
  dims := []
  fields := [⟨"SPILLED", 31, 31, .ro, .const 0⟩, ⟨"CT_PEND", 30, 30, .ro, .const 0⟩, ⟨"FRAMES", 20, 0, .ro, .const 0⟩]
def QRY_INT_CFG : Reg where
  id := 129
  win := 10
  off := 0x40
  wide := false
  dims := [⟨0, 9, 0x4⟩]
  fields := [⟨"RSV", 31, 16, .rws, .const 0⟩, ⟨"ALPHA", 15, 12, .rws, .const 7⟩]
def QRY_PORT_CFG : Reg where
  id := 130
  win := 10
  off := 0x10000
  wide := false
  dims := [⟨0, 1024, 0x200⟩]
  fields := [⟨"CT_EN", 0, 0, .rw, .const 0⟩]
def QRY_PG_MAP : Reg where
  id := 131
  win := 10
  off := 0x10004
  wide := false
  dims := [⟨0, 1024, 0x200⟩]
  fields := [⟨"Q", 23, 0, .rws, .const 0xfac688⟩]
def QRY_PFC_CFG : Reg where
  id := 132
  win := 10
  off := 0x10008
  wide := false
  dims := [⟨0, 1024, 0x200⟩]
  fields := [⟨"QUANTA", 31, 16, .rws, .const 0xffff⟩, ⟨"EN", 15, 8, .rws, .const 0⟩, ⟨"PFC_ALPHA", 7, 4, .rws, .const 5⟩]
def QRY_PFC_STAT : Reg where
  id := 133
  win := 10
  off := 0x1000C
  wide := false
  dims := [⟨0, 1024, 0x200⟩]
  fields := [⟨"HDRM_USE", 15, 8, .ro, .const 0⟩, ⟨"XOFF", 7, 0, .ro, .const 0⟩]
def QRY_PFC_SA_LO : Reg where
  id := 134
  win := 10
  off := 0x101F0
  wide := false
  dims := [⟨0, 1024, 0x200⟩]
  fields := [⟨"SA_LO", 31, 0, .rw, .const 0⟩]
def QRY_PFC_SA_HI : Reg where
  id := 135
  win := 10
  off := 0x101F4
  wide := false
  dims := [⟨0, 1024, 0x200⟩]
  fields := [⟨"SA_HI", 15, 0, .rw, .const 0⟩]
def QRY_STOMP : Reg where
  id := 136
  win := 10
  off := 0x100F0
  wide := false
  dims := [⟨0, 1024, 0x200⟩]
  fields := [⟨"COUNT", 31, 0, .ro, .const 0⟩]
def QRY_CT_SENT : Reg where
  id := 137
  win := 10
  off := 0x100F4
  wide := false
  dims := [⟨0, 1024, 0x200⟩]
  fields := [⟨"COUNT", 31, 0, .ro, .const 0⟩]
def QRY_CT_FALLBACK : Reg where
  id := 138
  win := 10
  off := 0x100F8
  wide := false
  dims := [⟨0, 1024, 0x200⟩]
  fields := [⟨"COUNT", 31, 0, .ro, .const 0⟩]
def QRY_HDRM : Reg where
  id := 139
  win := 10
  off := 0x10010
  wide := false
  dims := [⟨0, 1024, 0x200⟩, ⟨0, 8, 0x4⟩]
  fields := [⟨"XON_DELTA", 31, 16, .rws, .const 256⟩, ⟨"HDRM", 15, 0, .rws, .const 0⟩]
def QRY_Q_CFG : Reg where
  id := 140
  win := 10
  off := 0x10030
  wide := false
  dims := [⟨0, 1024, 0x200⟩, ⟨0, 12, 0x4⟩]
  fields := [⟨"RSV", 31, 16, .rws, .const 0⟩, ⟨"ALPHA", 15, 12, .rws, .const 7⟩, ⟨"WRED_PROF", 11, 8, .rws, .const 0⟩, ⟨"AVG_W", 7, 4, .rws, .const 0⟩]
def QRY_Q_DEPTH : Reg where
  id := 141
  win := 10
  off := 0x10060
  wide := false
  dims := [⟨0, 1024, 0x200⟩, ⟨0, 12, 0x4⟩]
  fields := [⟨"CELLS", 20, 0, .ro, .const 0⟩]
def QRY_Q_AVG : Reg where
  id := 142
  win := 10
  off := 0x10090
  wide := false
  dims := [⟨0, 1024, 0x200⟩, ⟨0, 12, 0x4⟩]
  fields := [⟨"CELLS", 20, 0, .ro, .const 0⟩]
def QRY_FE_DROP : Reg where
  id := 143
  win := 10
  off := 0x100C0
  wide := false
  dims := [⟨0, 1024, 0x200⟩, ⟨1, 6, 0x4⟩]
  fields := [⟨"COUNT", 31, 0, .ro, .const 0⟩]
def QRY_COPY_DROP : Reg where
  id := 144
  win := 10
  off := 0x100E0
  wide := false
  dims := [⟨0, 1024, 0x200⟩, ⟨0, 4, 0x4⟩]
  fields := [⟨"COUNT", 31, 0, .ro, .const 0⟩]
def QRY_ECN_MARK : Reg where
  id := 145
  win := 10
  off := 0x101C0
  wide := false
  dims := [⟨0, 1024, 0x200⟩, ⟨0, 12, 0x4⟩]
  fields := [⟨"COUNT", 31, 0, .ro, .const 0⟩]
def QRY_ADM_DROP : Reg where
  id := 146
  win := 10
  off := 0x10100
  wide := false
  dims := [⟨0, 1024, 0x200⟩, ⟨0, 12, 0x10⟩, ⟨1, 4, 0x4⟩]
  fields := [⟨"COUNT", 31, 0, .ro, .const 0⟩]
def QRY_WRED_MIN : Reg where
  id := 147
  win := 10
  off := 0x90000
  wide := false
  dims := [⟨0, 3, 0x100⟩, ⟨0, 16, 0x10⟩]
  fields := [⟨"MIN", 20, 0, .rws, .const 0⟩]
def QRY_WRED_MAX : Reg where
  id := 148
  win := 10
  off := 0x90004
  wide := false
  dims := [⟨0, 3, 0x100⟩, ⟨0, 16, 0x10⟩]
  fields := [⟨"MAX", 20, 0, .rws, .const 0⟩]
def QRY_WRED_CTL : Reg where
  id := 149
  win := 10
  off := 0x90008
  wide := false
  dims := [⟨0, 3, 0x100⟩, ⟨0, 16, 0x10⟩]
  fields := [⟨"EN", 31, 31, .rws, .const 0⟩, ⟨"ECN", 30, 30, .rws, .const 0⟩, ⟨"MAXP", 8, 0, .rws, .const 0⟩]
def QRY_INT_DEPTH : Reg where
  id := 150
  win := 10
  off := 0x1000
  wide := false
  dims := [⟨0, 32, 0x24⟩, ⟨0, 9, 0x4⟩]
  fields := [⟨"CELLS", 20, 0, .ro, .const 0⟩]
def QRY_INT_DROP : Reg where
  id := 151
  win := 10
  off := 0x2000
  wide := false
  dims := [⟨0, 32, 0x24⟩, ⟨0, 9, 0x4⟩]
  fields := [⟨"COUNT", 31, 0, .ro, .const 0⟩]
def QRY_ID : Reg where
  id := 152
  win := 10
  off := 0xFF000
  wide := false
  dims := []
  fields := [⟨"WINDOW", 31, 24, .ro, .const 10⟩, ⟨"MAJOR", 23, 16, .ro, .const 1⟩, ⟨"MINOR", 15, 8, .ro, .const 0⟩]
def QRY_CFG_COMMIT : Reg where
  id := 153
  win := 10
  off := 0xFF004
  wide := false
  dims := []
  fields := [⟨"BUSY", 31, 31, .ro, .const 0⟩, ⟨"GO", 0, 0, .wo, .const 0⟩]

/-! Window 11, SMP_ (spec/06_sump_deep_store.md) and its header page (spec/00_scope.md R16). -/

def SMP_CFG : Reg where
  id := 154
  win := 11
  off := 0x0
  wide := false
  dims := []
  fields := [⟨"EN", 31, 31, .rw, .const 0⟩, ⟨"CLOSE_US", 23, 16, .rw, .const 4⟩, ⟨"RB_FLOOR", 11, 0, .rw, .const 400⟩]
def SMP_STAT : Reg where
  id := 155
  win := 11
  off := 0x4
  wide := false
  dims := []
  fields := [⟨"CNFG_MISMATCH", 1, 1, .ro, .const 0⟩, ⟨"MAP_REJ", 0, 0, .w1c, .const 0⟩]
def SMP_RB_RSV : Reg where
  id := 156
  win := 11
  off := 0x8
  wide := false
  dims := []
  fields := [⟨"CELLS", 20, 0, .rws, .const 4096⟩]
def SMP_BW_STAT : Reg where
  id := 157
  win := 11
  off := 0xC
  wide := false
  dims := []
  fields := [⟨"RB_RATE", 27, 16, .ro, .const 3200⟩, ⟨"WR_CAP", 11, 0, .ro, .const 3200⟩]
def SMP_CTX_USED : Reg where
  id := 158
  win := 11
  off := 0x10
  wide := false
  dims := []
  fields := [⟨"COUNT", 16, 0, .ro, .const 0⟩]
def SMP_EXT_FREE : Reg where
  id := 159
  win := 11
  off := 0x14
  wide := false
  dims := []
  fields := [⟨"COUNT", 19, 0, .ro, .const 0⟩]
def SMP_EXT_TOTAL : Reg where
  id := 160
  win := 11
  off := 0x18
  wide := false
  dims := []
  fields := [⟨"COUNT", 19, 0, .ro, .const 0⟩]
def SMP_VOQ_IDX : Reg where
  id := 161
  win := 11
  off := 0x180
  wide := false
  dims := []
  fields := [⟨"INDEX", 18, 0, .rw, .const 0⟩]
def SMP_VOQ_DATA0 : Reg where
  id := 162
  win := 11
  off := 0x184
  wide := false
  dims := []
  fields := [⟨"SPILLED", 31, 31, .ro, .const 0⟩, ⟨"BATCHES", 24, 0, .ro, .const 0⟩]
def SMP_VOQ_DATA1 : Reg where
  id := 163
  win := 11
  off := 0x188
  wide := false
  dims := []
  fields := [⟨"CTX", 31, 16, .ro, .const 0⟩, ⟨"RD_INFL", 15, 13, .ro, .const 0⟩, ⟨"OPEN_CELLS", 6, 0, .ro, .const 0⟩]
def SMP_LVL : Reg where
  id := 164
  win := 11
  off := 0x20
  wide := false
  dims := [⟨0, 4, 0x4⟩]
  fields := [⟨"WR_CAP", 11, 0, .rw, .table [3200, 2400, 1600, 800]⟩]
def SMP_REGION : Reg where
  id := 165
  win := 11
  off := 0x40
  wide := false
  dims := [⟨0, 4, 0x10⟩, ⟨0, 3, 0x4⟩]
  fields := [⟨"SIZE", 25, 16, .rws, .const 0⟩, ⟨"BASE", 9, 0, .rws, .const 0⟩]
def SMP_CLS_THR : Reg where
  id := 166
  win := 11
  off := 0x100
  wide := false
  dims := [⟨0, 8, 0x8⟩]
  fields := [⟨"EN", 31, 31, .rws, .const 0⟩, ⟨"SALPHA", 30, 27, .rws, .const 7⟩, ⟨"FLOOR", 20, 0, .rws, .const 4096⟩]
def SMP_CLS_LIM : Reg where
  id := 167
  win := 11
  off := 0x104
  wide := false
  dims := [⟨0, 8, 0x8⟩]
  fields := [⟨"QUOTA", 31, 12, .rws, .const 0⟩, ⟨"RB_THR", 11, 0, .rws, .const 1024⟩]
def SMP_WR_BATCH : Reg where
  id := 168
  win := 11
  off := 0x200
  wide := true
  dims := []
  fields := [⟨"COUNT", 63, 0, .ro, .const 0⟩]
def SMP_RD_BATCH : Reg where
  id := 169
  win := 11
  off := 0x208
  wide := true
  dims := []
  fields := [⟨"COUNT", 63, 0, .ro, .const 0⟩]
def SMP_FOLD : Reg where
  id := 170
  win := 11
  off := 0x210
  wide := true
  dims := []
  fields := [⟨"COUNT", 63, 0, .ro, .const 0⟩]
def SMP_REFUSE : Reg where
  id := 171
  win := 11
  off := 0x220
  wide := false
  dims := [⟨0, 4, 0x4⟩]
  fields := [⟨"COUNT", 31, 0, .ro, .const 0⟩]
def SMP_DROP : Reg where
  id := 172
  win := 11
  off := 0x230
  wide := false
  dims := [⟨0, 3, 0x4⟩]
  fields := [⟨"COUNT", 31, 0, .ro, .const 0⟩]
def SMP_ID : Reg where
  id := 173
  win := 11
  off := 0xFF000
  wide := false
  dims := []
  fields := [⟨"WINDOW", 31, 24, .ro, .const 11⟩, ⟨"MAJOR", 23, 16, .ro, .const 1⟩, ⟨"MINOR", 15, 8, .ro, .const 0⟩]
def SMP_CFG_COMMIT : Reg where
  id := 174
  win := 11
  off := 0xFF004
  wide := false
  dims := []
  fields := [⟨"BUSY", 31, 31, .ro, .const 0⟩, ⟨"GO", 0, 0, .wo, .const 0⟩]

/-! Window 12, CXL_ (spec/06_sump_deep_store.md) and its header page (spec/00_scope.md R16). -/

def CXL_CTL : Reg where
  id := 175
  win := 12
  off := 0x0
  wide := false
  dims := [⟨0, 4, 0x40000⟩]
  fields := [⟨"MAX_WIDTH", 5, 4, .rw, .const 0⟩, ⟨"MAX_SPEED", 3, 2, .rw, .const 0⟩, ⟨"RETRAIN", 1, 1, .wo, .const 0⟩, ⟨"EN", 0, 0, .rw, .const 0⟩]
def CXL_STAT : Reg where
  id := 176
  win := 12
  off := 0x4
  wide := false
  dims := [⟨0, 4, 0x40000⟩]
  fields := [⟨"CAP", 31, 22, .ro, .const 0⟩, ⟨"ENUM_ERR", 21, 18, .ro, .const 0⟩, ⟨"WIDTH", 7, 6, .ro, .const 0⟩, ⟨"SPEED", 5, 4, .ro, .const 0⟩, ⟨"FLIT256", 3, 3, .ro, .const 0⟩, ⟨"MEM_READY", 2, 2, .ro, .const 0⟩, ⟨"LINK_UP", 1, 1, .ro, .const 0⟩, ⟨"ENUM_DONE", 0, 0, .ro, .const 0⟩]
def CXL_ERR : Reg where
  id := 177
  win := 12
  off := 0x8
  wide := false
  dims := [⟨0, 4, 0x40000⟩]
  fields := [⟨"VIRAL", 4, 4, .w1c, .const 0⟩, ⟨"LINK_DOWN", 3, 3, .w1c, .const 0⟩, ⟨"UNCOR", 2, 2, .w1c, .const 0⟩, ⟨"POISON", 1, 1, .w1c, .const 0⟩, ⟨"CE", 0, 0, .w1c, .const 0⟩]
def CXL_RETRY_CNT : Reg where
  id := 178
  win := 12
  off := 0x10
  wide := true
  dims := [⟨0, 4, 0x40000⟩]
  fields := [⟨"COUNT", 63, 0, .ro, .const 0⟩]
def CXL_POISON_CNT : Reg where
  id := 179
  win := 12
  off := 0x18
  wide := false
  dims := [⟨0, 4, 0x40000⟩]
  fields := [⟨"COUNT", 31, 0, .ro, .const 0⟩]
def CXL_LINK_DOWN_CNT : Reg where
  id := 180
  win := 12
  off := 0x1C
  wide := false
  dims := [⟨0, 4, 0x40000⟩]
  fields := [⟨"COUNT", 31, 0, .ro, .const 0⟩]
def CXL_ID : Reg where
  id := 181
  win := 12
  off := 0xFF000
  wide := false
  dims := []
  fields := [⟨"WINDOW", 31, 24, .ro, .const 12⟩, ⟨"MAJOR", 23, 16, .ro, .const 1⟩, ⟨"MINOR", 15, 8, .ro, .const 0⟩]
def CXL_CFG_COMMIT : Reg where
  id := 182
  win := 12
  off := 0xFF004
  wide := false
  dims := []
  fields := [⟨"BUSY", 31, 31, .ro, .const 0⟩, ⟨"GO", 0, 0, .wo, .const 0⟩]

/-! Window 13, EGR_ (spec/07_egress_scheduling.md) and its header page (spec/00_scope.md R16). -/

def EGR_PORT_CFG : Reg where
  id := 183
  win := 13
  off := 0x0
  wide := false
  dims := [⟨0, 1024, 0x200⟩]
  fields := [⟨"OVHD", 31, 24, .rw, .const 20⟩, ⟨"GROW", 23, 17, .rw, .const 0⟩, ⟨"DOWN_HOLD", 16, 7, .rw, .const 0⟩, ⟨"PAUSE_RX_EN", 2, 2, .rw, .const 0⟩, ⟨"PFC_RX_EN", 1, 1, .rw, .const 0⟩, ⟨"GATE_EN", 0, 0, .rw, .const 0⟩]
def EGR_PORT_STAT : Reg where
  id := 184
  win := 13
  off := 0x4
  wide := false
  dims := [⟨0, 1024, 0x200⟩]
  fields := [⟨"WD_TRIP", 23, 16, .ro, .const 0⟩, ⟨"PAUSED", 15, 8, .ro, .const 0⟩, ⟨"GCL_REJ", 4, 4, .w1c, .const 0⟩, ⟨"PAUSE_ALL", 3, 3, .ro, .const 0⟩, ⟨"FLUSH", 2, 2, .ro, .const 0⟩, ⟨"OPER_BANK", 1, 1, .ro, .const 0⟩, ⟨"PEND", 0, 0, .ro, .const 0⟩]
def EGR_PFCWD : Reg where
  id := 185
  win := 13
  off := 0x8
  wide := false
  dims := [⟨0, 1024, 0x200⟩]
  fields := [⟨"EN", 31, 31, .rw, .const 0⟩, ⟨"ACTION", 30, 30, .rw, .const 0⟩, ⟨"RESTORE", 27, 16, .rw, .const 2000⟩, ⟨"DETECT", 11, 0, .rw, .const 2000⟩]
def EGR_GCL_CTL : Reg where
  id := 186
  win := 13
  off := 0x10
  wide := false
  dims := [⟨0, 1024, 0x200⟩]
  fields := [⟨"GO", 31, 31, .wo, .const 0⟩, ⟨"NEW_BANK", 30, 30, .rw, .const 0⟩]
def EGR_RX_PAUSE : Reg where
  id := 187
  win := 13
  off := 0xC0
  wide := false
  dims := [⟨0, 1024, 0x200⟩]
  fields := [⟨"COUNT", 31, 0, .ro, .const 0⟩]
def EGR_RX_CTL_BAD : Reg where
  id := 188
  win := 13
  off := 0xC4
  wide := false
  dims := [⟨0, 1024, 0x200⟩]
  fields := [⟨"COUNT", 31, 0, .ro, .const 0⟩]
def EGR_GATE_OVERRUN : Reg where
  id := 189
  win := 13
  off := 0xC8
  wide := false
  dims := [⟨0, 1024, 0x200⟩]
  fields := [⟨"COUNT", 31, 0, .ro, .const 0⟩]
def EGR_Q_CFG : Reg where
  id := 190
  win := 13
  off := 0x40
  wide := false
  dims := [⟨0, 1024, 0x200⟩, ⟨0, 12, 0x4⟩]
  fields := [⟨"LEVEL", 31, 29, .rws, .const 0⟩, ⟨"DEFER", 28, 28, .rws, .const 0⟩, ⟨"PFC_PRI", 27, 24, .rws, .table [0, 1, 2, 3, 4, 5, 6, 7, 15, 15, 15, 15]⟩, ⟨"QUANTUM", 23, 12, .rws, .const 145⟩]
def EGR_DROP : Reg where
  id := 191
  win := 13
  off := 0x80
  wide := false
  dims := [⟨0, 1024, 0x200⟩, ⟨1, 4, 0x4⟩]
  fields := [⟨"COUNT", 31, 0, .ro, .const 0⟩]
def EGR_RX_PFC : Reg where
  id := 192
  win := 13
  off := 0xA0
  wide := false
  dims := [⟨0, 1024, 0x200⟩, ⟨0, 8, 0x4⟩]
  fields := [⟨"COUNT", 31, 0, .ro, .const 0⟩]
def EGR_WD_TRIP_CNT : Reg where
  id := 193
  win := 13
  off := 0xE0
  wide := false
  dims := [⟨0, 1024, 0x200⟩, ⟨0, 8, 0x4⟩]
  fields := [⟨"COUNT", 31, 0, .ro, .const 0⟩]
def EGR_GCL_ADDR : Reg where
  id := 194
  win := 13
  off := 0x80000
  wide := false
  dims := []
  fields := [⟨"WR", 31, 31, .wo, .const 0⟩, ⟨"RD", 30, 30, .wo, .const 0⟩, ⟨"BANK", 29, 29, .rw, .const 0⟩, ⟨"TARGET", 28, 28, .rw, .const 0⟩, ⟨"PORT", 25, 16, .rw, .const 0⟩, ⟨"ENTRY", 5, 0, .rw, .const 0⟩]
def EGR_GCL_DATA : Reg where
  id := 195
  win := 13
  off := 0x80010
  wide := false
  dims := [⟨0, 4, 0x4⟩]
  fields := [⟨"DATA", 31, 0, .rw, .const 0⟩]
def EGR_STAT : Reg where
  id := 196
  win := 13
  off := 0x80100
  wide := false
  dims := []
  fields := [⟨"GCL_WR_REJ", 0, 0, .w1c, .const 0⟩]
def EGR_ID : Reg where
  id := 197
  win := 13
  off := 0xFF000
  wide := false
  dims := []
  fields := [⟨"WINDOW", 31, 24, .ro, .const 13⟩, ⟨"MAJOR", 23, 16, .ro, .const 1⟩, ⟨"MINOR", 15, 8, .ro, .const 0⟩]
def EGR_CFG_COMMIT : Reg where
  id := 198
  win := 13
  off := 0xFF004
  wide := false
  dims := []
  fields := [⟨"BUSY", 31, 31, .ro, .const 0⟩, ⟨"GO", 0, 0, .wo, .const 0⟩]

/-! Window 14, LEHR_ (spec/07_egress_scheduling.md) and its header page (spec/00_scope.md R16). -/

def LEHR_Q_RATE : Reg where
  id := 199
  win := 14
  off := 0x0
  wide := false
  dims := [⟨0, 1024, 0x40⟩, ⟨0, 12, 0x4⟩]
  fields := [⟨"RATE", 20, 0, .rw, .const 0⟩]
def LEHR_Q_BURST : Reg where
  id := 200
  win := 14
  off := 0x10000
  wide := false
  dims := [⟨0, 1024, 0x40⟩, ⟨0, 12, 0x4⟩]
  fields := [⟨"BYTES", 23, 0, .rw, .const 0x4014⟩]
def LEHR_SCALE : Reg where
  id := 201
  win := 14
  off := 0x80000
  wide := false
  dims := [⟨0, 4, 0x4⟩]
  fields := [⟨"FACTOR", 8, 0, .rw, .table [256, 192, 128, 64]⟩]
def LEHR_NOW : Reg where
  id := 202
  win := 14
  off := 0x80010
  wide := true
  dims := []
  fields := [⟨"V", 63, 0, .ro, .const 0⟩]
def LEHR_Q_IDX : Reg where
  id := 203
  win := 14
  off := 0x80020
  wide := false
  dims := []
  fields := [⟨"QUEUE", 13, 0, .rw, .const 0⟩]
def LEHR_Q_DATA : Reg where
  id := 204
  win := 14
  off := 0x80028
  wide := true
  dims := []
  fields := [⟨"ON_WHEEL", 63, 63, .ro, .const 0⟩, ⟨"OVERFLOW", 62, 62, .ro, .const 0⟩, ⟨"E", 47, 0, .ro, .const 0⟩]
def LEHR_STAT : Reg where
  id := 205
  win := 14
  off := 0x80030
  wide := false
  dims := []
  fields := [⟨"LEVEL", 1, 0, .ro, .const 0⟩]
def LEHR_ID : Reg where
  id := 206
  win := 14
  off := 0xFF000
  wide := false
  dims := []
  fields := [⟨"WINDOW", 31, 24, .ro, .const 14⟩, ⟨"MAJOR", 23, 16, .ro, .const 1⟩, ⟨"MINOR", 15, 8, .ro, .const 0⟩]
def LEHR_CFG_COMMIT : Reg where
  id := 207
  win := 14
  off := 0xFF004
  wide := false
  dims := []
  fields := [⟨"BUSY", 31, 31, .ro, .const 0⟩, ⟨"GO", 0, 0, .wo, .const 0⟩]

/-! Window 15, PNT_ (spec/05_quarry_central_store.md) and its header page (spec/00_scope.md R16). -/

def PNT_CFG : Reg where
  id := 208
  win := 15
  off := 0x0
  wide := false
  dims := []
  fields := [⟨"EN", 31, 31, .rw, .const 0⟩, ⟨"RING", 7, 0, .rw, .const 0⟩]
def PNT_RATE : Reg where
  id := 209
  win := 15
  off := 0x4
  wide := false
  dims := []
  fields := [⟨"KSPS", 23, 0, .rw, .const 0⟩]
def PNT_RATE_DROP : Reg where
  id := 210
  win := 15
  off := 0x8
  wide := false
  dims := []
  fields := [⟨"COUNT", 31, 0, .ro, .const 0⟩]
def PNT_PORT_CFG : Reg where
  id := 211
  win := 15
  off := 0x10000
  wide := false
  dims := [⟨0, 1024, 0x20⟩]
  fields := [⟨"EN", 31, 31, .rw, .const 0⟩, ⟨"RAND", 30, 30, .rw, .const 0⟩, ⟨"N_M1", 23, 0, .rw, .const 0⟩]
def PNT_PORT_LEN : Reg where
  id := 212
  win := 15
  off := 0x10004
  wide := false
  dims := [⟨0, 1024, 0x20⟩]
  fields := [⟨"LEN", 12, 0, .rw, .const 128⟩]
def PNT_SEL : Reg where
  id := 213
  win := 15
  off := 0x10008
  wide := true
  dims := [⟨0, 1024, 0x20⟩]
  fields := [⟨"COUNT", 63, 0, .ro, .const 0⟩]
def PNT_SEL_FAIL : Reg where
  id := 214
  win := 15
  off := 0x10010
  wide := false
  dims := [⟨0, 1024, 0x20⟩]
  fields := [⟨"COUNT", 31, 0, .ro, .const 0⟩]
def PNT_DROP_SPACE : Reg where
  id := 215
  win := 15
  off := 0x10014
  wide := false
  dims := [⟨0, 1024, 0x20⟩]
  fields := [⟨"COUNT", 31, 0, .ro, .const 0⟩]
def PNT_SEQ : Reg where
  id := 216
  win := 15
  off := 0x10018
  wide := false
  dims := [⟨0, 1024, 0x20⟩]
  fields := [⟨"COUNT", 31, 0, .ro, .const 0⟩]
def PNT_ID : Reg where
  id := 217
  win := 15
  off := 0xFF000
  wide := false
  dims := []
  fields := [⟨"WINDOW", 31, 24, .ro, .const 15⟩, ⟨"MAJOR", 23, 16, .ro, .const 1⟩, ⟨"MINOR", 15, 8, .ro, .const 0⟩]
def PNT_CFG_COMMIT : Reg where
  id := 218
  win := 15
  off := 0xFF004
  wide := false
  dims := []
  fields := [⟨"BUSY", 31, 31, .ro, .const 0⟩, ⟨"GO", 0, 0, .wo, .const 0⟩]

/-! Window 16, GTH_ (spec/08_gather_collectives.md) and its header page (spec/00_scope.md R16). -/

def GTH_CFG : Reg where
  id := 219
  win := 16
  off := 0x0
  wide := false
  dims := []
  fields := [⟨"ENG_EN", 31, 24, .rw, .const 0⟩, ⟨"ERR_QUEUE", 19, 16, .rw, .const 8⟩, ⟨"TTL", 15, 8, .rw, .const 64⟩, ⟨"DEF_ENG", 2, 0, .rw, .const 0⟩]
def GTH_UDP_PORT : Reg where
  id := 220
  win := 16
  off := 0x4
  wide := false
  dims := []
  fields := [⟨"PORT", 15, 0, .rw, .const 0⟩]
def GTH_ANS_RATE : Reg where
  id := 221
  win := 16
  off := 0x8
  wide := false
  dims := []
  fields := [⟨"KPPS", 19, 0, .rw, .const 1000⟩]
def GTH_UNSERVED : Reg where
  id := 222
  win := 16
  off := 0xC
  wide := false
  dims := []
  fields := [⟨"COUNT", 31, 0, .ro, .const 0⟩]
def GTH_DIR_IDX : Reg where
  id := 223
  win := 16
  off := 0x200
  wide := false
  dims := []
  fields := [⟨"SLOT", 11, 0, .rw, .const 0⟩]
def GTH_EP_CTL : Reg where
  id := 224
  win := 16
  off := 0x40
  wide := false
  dims := [⟨0, 4, 0x20⟩]
  fields := [⟨"EN", 31, 31, .rw, .const 0⟩, ⟨"FAM", 30, 30, .rw, .const 0⟩]
def GTH_EP_ADDR : Reg where
  id := 225
  win := 16
  off := 0x44
  wide := false
  dims := [⟨0, 4, 0x20⟩, ⟨0, 4, 0x4⟩]
  fields := [⟨"ADDR", 31, 0, .rw, .const 0⟩]
def GTH_EP_MAC_HI : Reg where
  id := 226
  win := 16
  off := 0x54
  wide := false
  dims := [⟨0, 4, 0x20⟩]
  fields := [⟨"MAC_HI", 15, 0, .rw, .const 0⟩]
def GTH_EP_MAC_LO : Reg where
  id := 227
  win := 16
  off := 0x58
  wide := false
  dims := [⟨0, 4, 0x20⟩]
  fields := [⟨"MAC_LO", 31, 0, .rw, .const 0⟩]
def GTH_LVL : Reg where
  id := 228
  win := 16
  off := 0x100
  wide := false
  dims := [⟨0, 4, 0x4⟩]
  fields := [⟨"BURST", 31, 16, .rw, .const 1024⟩, ⟨"RATE", 15, 0, .rw, .table [0, 4578, 3052, 1526]⟩]
def GTH_DIR_DATA : Reg where
  id := 229
  win := 16
  off := 0x204
  wide := false
  dims := []
  fields := [⟨"VALID", 31, 31, .ro, .const 0⟩, ⟨"ENGINES", 30, 23, .ro, .const 0⟩, ⟨"GROUP", 19, 0, .ro, .const 0⟩]
def GTH_DIR_GEN : Reg where
  id := 230
  win := 16
  off := 0x208
  wide := false
  dims := []
  fields := [⟨"GEN", 31, 0, .ro, .const 0⟩]
def GTH_DIR_NEXT : Reg where
  id := 231
  win := 16
  off := 0x20C
  wide := false
  dims := []
  fields := [⟨"NEXT", 31, 0, .ro, .const 0⟩]
def GTH_DIR_OLDEST : Reg where
  id := 232
  win := 16
  off := 0x210
  wide := false
  dims := []
  fields := [⟨"OLDEST", 31, 0, .ro, .const 0⟩]
def GTH_THR : Reg where
  id := 233
  win := 16
  off := 0x10000
  wide := false
  dims := [⟨0, 4096, 0x4⟩]
  fields := [⟨"HOLD", 31, 31, .rw, .const 0⟩, ⟨"GAP_US", 15, 0, .rw, .const 0⟩]
def GTH_ENG_STAT : Reg where
  id := 234
  win := 16
  off := 0x20000
  wide := false
  dims := [⟨0, 8, 0x100⟩]
  fields := [⟨"TOKENS", 31, 12, .ro, .const 0⟩, ⟨"CTX_USED", 9, 0, .ro, .const 0⟩]
def GTH_RX : Reg where
  id := 235
  win := 16
  off := 0x20010
  wide := true
  dims := [⟨0, 8, 0x100⟩]
  fields := [⟨"COUNT", 63, 0, .ro, .const 0⟩]
def GTH_BYTES : Reg where
  id := 236
  win := 16
  off := 0x20018
  wide := true
  dims := [⟨0, 8, 0x100⟩]
  fields := [⟨"COUNT", 63, 0, .ro, .const 0⟩]
def GTH_DUP : Reg where
  id := 237
  win := 16
  off := 0x20020
  wide := false
  dims := [⟨0, 8, 0x100⟩]
  fields := [⟨"COUNT", 31, 0, .ro, .const 0⟩]
def GTH_RESEND : Reg where
  id := 238
  win := 16
  off := 0x20024
  wide := false
  dims := [⟨0, 8, 0x100⟩]
  fields := [⟨"COUNT", 31, 0, .ro, .const 0⟩]
def GTH_NAK_TX : Reg where
  id := 239
  win := 16
  off := 0x20028
  wide := false
  dims := [⟨0, 8, 0x100⟩]
  fields := [⟨"COUNT", 31, 0, .ro, .const 0⟩]
def GTH_ERR_TX : Reg where
  id := 240
  win := 16
  off := 0x2002C
  wide := false
  dims := [⟨0, 8, 0x100⟩]
  fields := [⟨"COUNT", 31, 0, .ro, .const 0⟩]
def GTH_ANS_DROP : Reg where
  id := 241
  win := 16
  off := 0x20030
  wide := false
  dims := [⟨0, 8, 0x100⟩]
  fields := [⟨"COUNT", 31, 0, .ro, .const 0⟩]
def GTH_STRAG : Reg where
  id := 242
  win := 16
  off := 0x20034
  wide := false
  dims := [⟨0, 8, 0x100⟩]
  fields := [⟨"COUNT", 31, 0, .ro, .const 0⟩]
def GTH_HOLD_EXP : Reg where
  id := 243
  win := 16
  off := 0x20038
  wide := false
  dims := [⟨0, 8, 0x100⟩]
  fields := [⟨"COUNT", 31, 0, .ro, .const 0⟩]
def GTH_RX_BAD : Reg where
  id := 244
  win := 16
  off := 0x2003C
  wide := false
  dims := [⟨0, 8, 0x100⟩]
  fields := [⟨"COUNT", 31, 0, .ro, .const 0⟩]
def GTH_SAT : Reg where
  id := 245
  win := 16
  off := 0x20040
  wide := false
  dims := [⟨0, 8, 0x100⟩]
  fields := [⟨"COUNT", 31, 0, .ro, .const 0⟩]
def GTH_ID : Reg where
  id := 246
  win := 16
  off := 0xFF000
  wide := false
  dims := []
  fields := [⟨"WINDOW", 31, 24, .ro, .const 16⟩, ⟨"MAJOR", 23, 16, .ro, .const 1⟩, ⟨"MINOR", 15, 8, .ro, .const 0⟩]
def GTH_CFG_COMMIT : Reg where
  id := 247
  win := 16
  off := 0xFF004
  wide := false
  dims := []
  fields := [⟨"BUSY", 31, 31, .ro, .const 0⟩, ⟨"GO", 0, 0, .wo, .const 0⟩]

/-! Window 17, ANL_ (spec/09_annealer_power_thermal.md) and its header page (spec/00_scope.md R16). -/

def ANL_CFG : Reg where
  id := 248
  win := 17
  off := 0x0
  wide := false
  dims := []
  fields := [⟨"EN", 31, 31, .rw, .const 1⟩, ⟨"PRIO", 30, 28, .rws, .const 0⟩, ⟨"IDLE_OPP", 27, 24, .rws, .const 15⟩, ⟨"OPP_MIN", 23, 20, .rws, .const 0⟩, ⟨"EVQ", 7, 0, .rw, .const 0⟩]
def ANL_CAP : Reg where
  id := 249
  win := 17
  off := 0x4
  wide := false
  dims := []
  fields := [⟨"W", 10, 0, .rw, .const 1600⟩]
def ANL_STAT : Reg where
  id := 250
  win := 17
  off := 0x8
  wide := false
  dims := []
  fields := [⟨"OPP_CUR", 31, 28, .ro, .const 15⟩, ⟨"OPP_CEIL", 27, 24, .ro, .const 15⟩, ⟨"SEQ", 23, 20, .ro, .const 0⟩, ⟨"COMMIT_REJ", 11, 11, .w1c, .const 0⟩, ⟨"CNFG_MISMATCH", 10, 10, .ro, .const 0⟩, ⟨"ALERT", 9, 9, .ro, .const 0⟩, ⟨"RD_HOT", 8, 8, .ro, .const 0⟩, ⟨"THERM_CRIT", 7, 7, .ro, .const 0⟩, ⟨"THERM_ONSET", 6, 6, .ro, .const 0⟩, ⟨"TLM_LOST", 5, 5, .ro, .const 0⟩, ⟨"DIVERGED", 4, 4, .ro, .const 0⟩, ⟨"HEAVY", 3, 3, .ro, .const 0⟩, ⟨"LEVEL", 1, 0, .ro, .const 0⟩]
def ANL_LVL_THR : Reg where
  id := 251
  win := 17
  off := 0x10
  wide := false
  dims := []
  fields := [⟨"T3", 31, 21, .rws, .const 1020⟩, ⟨"T2", 20, 10, .rws, .const 970⟩, ⟨"T1", 9, 0, .rws, .const 900⟩]
def ANL_LVL_HYS : Reg where
  id := 252
  win := 17
  off := 0x14
  wide := false
  dims := []
  fields := [⟨"DWELL", 23, 16, .rws, .const 10⟩, ⟨"HYST", 7, 0, .rws, .const 20⟩]
def ANL_PWR_STAT : Reg where
  id := 253
  win := 17
  off := 0x40
  wide := false
  dims := []
  fields := [⟨"BASE", 26, 16, .ro, .const 0⟩, ⟨"ENF", 10, 0, .ro, .const 0⟩]
def ANL_PWR_MEAS : Reg where
  id := 254
  win := 17
  off := 0x44
  wide := false
  dims := []
  fields := [⟨"MODEL", 26, 16, .ro, .const 0⟩, ⟨"MEAS", 10, 0, .ro, .const 0⟩]
def ANL_LIMITS : Reg where
  id := 255
  win := 17
  off := 0x48
  wide := false
  dims := []
  fields := [⟨"CAP_EFF", 26, 16, .ro, .const 1600⟩, ⟨"A", 11, 0, .ro, .const 3200⟩]
def ANL_DIVERGE : Reg where
  id := 256
  win := 17
  off := 0x50
  wide := false
  dims := []
  fields := [⟨"GUARD_PCT", 15, 8, .rw, .const 15⟩, ⟨"PCT", 7, 0, .rw, .const 20⟩]
def ANL_HEAVY : Reg where
  id := 257
  win := 17
  off := 0x68
  wide := false
  dims := []
  fields := [⟨"VBOOST_MV", 31, 24, .rw, .const 20⟩, ⟨"RES_W", 23, 12, .rw, .const 64⟩, ⟨"WAIT_US", 11, 0, .rw, .const 100⟩]
def ANL_AVS : Reg where
  id := 258
  win := 17
  off := 0x70
  wide := false
  dims := []
  fields := [⟨"MODE", 31, 31, .rw, .const 0⟩, ⟨"FIXED_MV", 25, 16, .rw, .const 800⟩, ⟨"STEP_MV", 15, 8, .rw, .const 5⟩, ⟨"SETTLE_US", 7, 0, .rw, .const 20⟩]
def ANL_AVS_STAT : Reg where
  id := 259
  win := 17
  off := 0x74
  wide := false
  dims := []
  fields := [⟨"GUARD_MV", 31, 26, .ro, .const 0⟩, ⟨"VCMD_MV", 25, 16, .ro, .const 800⟩, ⟨"VMIN_MV", 9, 0, .ro, .const 0⟩]
def ANL_DROOP : Reg where
  id := 260
  win := 17
  off := 0x78
  wide := false
  dims := []
  fields := [⟨"LIMIT", 31, 24, .rw, .const 64⟩, ⟨"THR_MV", 23, 16, .rw, .const 40⟩, ⟨"GUARD_STEP", 15, 11, .rw, .const 5⟩, ⟨"GUARD_MAX", 10, 5, .rw, .const 25⟩, ⟨"STRETCH_NS", 4, 0, .rw, .const 20⟩]
def ANL_THERM : Reg where
  id := 261
  win := 17
  off := 0x80
  wide := false
  dims := []
  fields := [⟨"ONSET", 31, 24, .rw, .const 110⟩, ⟨"CRIT", 23, 16, .rw, .const 120⟩, ⟨"SLOPE", 15, 8, .rw, .const 40⟩]
def ANL_TEMP : Reg where
  id := 262
  win := 17
  off := 0x84
  wide := false
  dims := []
  fields := [⟨"HOT", 27, 16, .ro, .const 0⟩, ⟨"AVG", 11, 0, .ro, .const 0⟩]
def ANL_PMB_CFG : Reg where
  id := 263
  win := 17
  off := 0xA0
  wide := false
  dims := []
  fields := [⟨"EN", 31, 31, .rw, .const 0⟩, ⟨"SPEED", 30, 30, .rw, .const 0⟩, ⟨"NRAIL_M1", 26, 24, .rw, .const 0⟩, ⟨"LOSS_N", 7, 0, .rw, .const 3⟩]
def ANL_SAG : Reg where
  id := 264
  win := 17
  off := 0xA4
  wide := false
  dims := []
  fields := [⟨"INHIBIT", 31, 31, .ro, .const 0⟩, ⟨"IO_LOW", 30, 30, .ro, .const 0⟩, ⟨"AON_LOW", 29, 29, .ro, .const 0⟩, ⟨"FLASH_UNCERTAIN", 2, 2, .w1c, .const 0⟩, ⟨"OTP_ABORT", 1, 1, .w1c, .const 0⟩, ⟨"SEEN", 0, 0, .w1c, .const 0⟩]
def ANL_DIV_CNT : Reg where
  id := 265
  win := 17
  off := 0x448
  wide := false
  dims := []
  fields := [⟨"COUNT", 31, 0, .ro, .const 0⟩]
def ANL_PMB_ERR : Reg where
  id := 266
  win := 17
  off := 0x44C
  wide := false
  dims := []
  fields := [⟨"COUNT", 31, 0, .ro, .const 0⟩]
def ANL_CLS : Reg where
  id := 267
  win := 17
  off := 0x20
  wide := false
  dims := [⟨0, 3, 0x4⟩]
  fields := [⟨"FLOOR", 10, 0, .rws, .const 0⟩]
def ANL_CLS_STAT : Reg where
  id := 268
  win := 17
  off := 0x30
  wide := false
  dims := [⟨0, 3, 0x4⟩]
  fields := [⟨"GRANT", 26, 16, .ro, .const 0⟩, ⟨"DEMAND", 10, 0, .ro, .const 0⟩]
def ANL_PHASE_OPP : Reg where
  id := 269
  win := 17
  off := 0x60
  wide := true
  dims := []
  fields := [⟨"P", 63, 0, .rws, .const 0xffffffffffffffff⟩]
def ANL_RDIODE_CTL : Reg where
  id := 270
  win := 17
  off := 0x88
  wide := false
  dims := [⟨0, 2, 0x8⟩]
  fields := [⟨"EN", 31, 31, .rw, .const 0⟩, ⟨"LEVEL", 29, 28, .rw, .const 2⟩, ⟨"LIMIT", 23, 16, .rw, .const 100⟩]
def ANL_RDIODE_STAT : Reg where
  id := 271
  win := 17
  off := 0x8C
  wide := false
  dims := [⟨0, 2, 0x8⟩]
  fields := [⟨"OPEN", 31, 31, .ro, .const 0⟩, ⟨"T", 11, 0, .ro, .const 0⟩]
def ANL_PMB_RAIL : Reg where
  id := 272
  win := 17
  off := 0xC0
  wide := false
  dims := [⟨0, 8, 0x4⟩]
  fields := [⟨"ADDR", 22, 16, .rw, .const 0⟩, ⟨"PAGE", 15, 8, .rw, .const 255⟩, ⟨"KIND", 2, 0, .rw, .const 0⟩]
def ANL_PMB_MEAS : Reg where
  id := 273
  win := 17
  off := 0xE0
  wide := false
  dims := [⟨0, 8, 0x4⟩]
  fields := [⟨"VALID", 31, 31, .ro, .const 0⟩, ⟨"POWER", 15, 0, .ro, .const 0⟩]
def ANL_OPP : Reg where
  id := 274
  win := 17
  off := 0x100
  wide := false
  dims := [⟨0, 16, 0x4⟩]
  fields := [⟨"VCORE_MV", 25, 16, .rws, .affine 725 5 16⟩, ⟨"PRIO_EN", 3, 3, .rws, .const 0⟩, ⟨"PRIO", 2, 0, .rws, .const 0⟩]
def ANL_TEMP_SENS : Reg where
  id := 275
  win := 17
  off := 0x200
  wide := false
  dims := [⟨0, 64, 0x4⟩]
  fields := [⟨"T", 11, 0, .ro, .const 0⟩]
def ANL_COEF : Reg where
  id := 276
  win := 17
  off := 0x300
  wide := false
  dims := [⟨0, 15, 0x4⟩]
  fields := [⟨"VALUE", 23, 0, .rws, .table [8750, 625, 1875, 6144, 160, 512, 512, 512, 512, 512, 512, 512, 32768, 4000, 80]⟩]
def ANL_STATIC : Reg where
  id := 277
  win := 17
  off := 0x380
  wide := false
  dims := [⟨0, 23, 0x4⟩]
  fields := [⟨"VALUE", 23, 0, .rws, .table [620, 780, 950, 400, 500, 620, 280, 340, 420, 200, 240, 300, 40, 5000, 2000, 6000, 2250, 4000, 1000, 1000, 48000, 64000, 20]⟩]
def ANL_LVL_CNT : Reg where
  id := 278
  win := 17
  off := 0x400
  wide := true
  dims := [⟨0, 4, 0x8⟩]
  fields := [⟨"COUNT", 63, 0, .ro, .const 0⟩]
def ANL_DROOP_CNT : Reg where
  id := 279
  win := 17
  off := 0x420
  wide := false
  dims := [⟨0, 8, 0x4⟩]
  fields := [⟨"COUNT", 31, 0, .ro, .const 0⟩]
def ANL_ENERGY_TOTAL : Reg where
  id := 280
  win := 17
  off := 0x440
  wide := true
  dims := []
  fields := [⟨"COUNT", 63, 0, .ro, .const 0⟩]
def ANL_RING_ENERGY : Reg where
  id := 281
  win := 17
  off := 0x1000
  wide := true
  dims := [⟨0, 256, 0x8⟩]
  fields := [⟨"COUNT", 63, 0, .ro, .const 0⟩]
def ANL_ID : Reg where
  id := 282
  win := 17
  off := 0xFF000
  wide := false
  dims := []
  fields := [⟨"WINDOW", 31, 24, .ro, .const 17⟩, ⟨"MAJOR", 23, 16, .ro, .const 1⟩, ⟨"MINOR", 15, 8, .ro, .const 0⟩]
def ANL_CFG_COMMIT : Reg where
  id := 283
  win := 17
  off := 0xFF004
  wide := false
  dims := []
  fields := [⟨"BUSY", 31, 31, .ro, .const 0⟩, ⟨"GO", 0, 0, .wo, .const 0⟩]

/-! Window 18, TLM_ (spec/10_telemetry_and_counters.md) and its header page (spec/00_scope.md R16). -/

def TLM_TIME_NS : Reg where
  id := 284
  win := 18
  off := 0x0
  wide := true
  dims := []
  fields := [⟨"NS", 63, 0, .ro, .const 0⟩]
def TLM_TIME_FRAC : Reg where
  id := 285
  win := 18
  off := 0x8
  wide := false
  dims := []
  fields := [⟨"FRAC", 15, 0, .ro, .const 0⟩]
def TLM_TIME_TRIM : Reg where
  id := 286
  win := 18
  off := 0x10
  wide := false
  dims := []
  fields := [⟨"TRIM", 31, 0, .rw, .const 0⟩]
def TLM_TIME_STEP : Reg where
  id := 287
  win := 18
  off := 0x18
  wide := true
  dims := []
  fields := [⟨"STEP", 63, 0, .rw, .const 0⟩]
def TLM_TIME_CTL : Reg where
  id := 288
  win := 18
  off := 0x20
  wide := false
  dims := []
  fields := [⟨"SET", 1, 1, .wo, .const 0⟩, ⟨"STEP", 0, 0, .wo, .const 0⟩]
def TLM_HIST_CFG : Reg where
  id := 289
  win := 18
  off := 0x40
  wide := false
  dims := []
  fields := [⟨"BASE_NS", 15, 0, .rw, .const 256⟩]
def TLM_QS_CFG : Reg where
  id := 290
  win := 18
  off := 0x44
  wide := false
  dims := []
  fields := [⟨"EN", 31, 31, .rw, .const 0⟩, ⟨"PERIOD_US", 15, 0, .rw, .const 1000⟩]
def TLM_QS_MIN : Reg where
  id := 291
  win := 18
  off := 0x48
  wide := false
  dims := []
  fields := [⟨"CELLS", 20, 0, .rw, .const 0⟩]
def TLM_TSCAP_CFG : Reg where
  id := 292
  win := 18
  off := 0x4C
  wide := false
  dims := []
  fields := [⟨"EN", 31, 31, .rw, .const 0⟩, ⟨"CLASS", 20, 16, .rw, .const 0⟩, ⟨"KEY_SLOT", 14, 12, .rw, .const 0⟩, ⟨"KEY_OFF", 7, 0, .rw, .const 0⟩]
def TLM_STAT : Reg where
  id := 293
  win := 18
  off := 0x50
  wide := false
  dims := []
  fields := [⟨"QS_OVERRUN", 0, 0, .w1c, .const 0⟩]
def TLM_QS_SKIP : Reg where
  id := 294
  win := 18
  off := 0xA0
  wide := false
  dims := []
  fields := [⟨"COUNT", 31, 0, .ro, .const 0⟩]
def TLM_HQ_IDX : Reg where
  id := 295
  win := 18
  off := 0x20000
  wide := false
  dims := []
  fields := [⟨"CLR", 31, 31, .rw, .const 0⟩, ⟨"QUEUE", 13, 0, .rw, .const 0⟩]
def TLM_STREAM_CFG : Reg where
  id := 296
  win := 18
  off := 0x60
  wide := false
  dims := [⟨0, 4, 0x4⟩]
  fields := [⟨"EN", 31, 31, .rw, .const 0⟩, ⟨"DEST", 30, 30, .rw, .const 0⟩, ⟨"FLUSH_US", 23, 8, .rw, .const 1000⟩, ⟨"RING", 7, 0, .rw, .const 0⟩]
def TLM_STREAM_DROP : Reg where
  id := 297
  win := 18
  off := 0x80
  wide := false
  dims := [⟨0, 4, 0x4⟩]
  fields := [⟨"COUNT", 31, 0, .ro, .const 0⟩]
def TLM_STREAM_SEQ : Reg where
  id := 298
  win := 18
  off := 0x90
  wide := false
  dims := [⟨0, 4, 0x4⟩]
  fields := [⟨"SEQ", 31, 0, .ro, .const 0⟩]
def TLM_IOAM_CNT : Reg where
  id := 299
  win := 18
  off := 0x100
  wide := false
  dims := [⟨0, 7, 0x4⟩]
  fields := [⟨"COUNT", 31, 0, .ro, .const 0⟩]
def TLM_HQ_DATA : Reg where
  id := 300
  win := 18
  off := 0x20010
  wide := false
  dims := [⟨0, 19, 0x4⟩]
  fields := [⟨"DATA", 31, 0, .ro, .const 0⟩]
def TLM_IOAM_NS_ID : Reg where
  id := 301
  win := 18
  off := 0x200
  wide := false
  dims := [⟨0, 4, 0x20⟩]
  fields := [⟨"EN", 31, 31, .rw, .const 0⟩, ⟨"NS_ID", 15, 0, .rw, .const 0⟩]
def TLM_IOAM_NS_NODE_S : Reg where
  id := 302
  win := 18
  off := 0x204
  wide := false
  dims := [⟨0, 4, 0x20⟩]
  fields := [⟨"NODE_S", 23, 0, .rw, .const 0⟩]
def TLM_IOAM_NS_NODE_W_LO : Reg where
  id := 303
  win := 18
  off := 0x208
  wide := false
  dims := [⟨0, 4, 0x20⟩]
  fields := [⟨"NODE_W_LO", 31, 0, .rw, .const 0⟩]
def TLM_IOAM_NS_NODE_W_HI : Reg where
  id := 304
  win := 18
  off := 0x20C
  wide := false
  dims := [⟨0, 4, 0x20⟩]
  fields := [⟨"NODE_W_HI", 23, 0, .rw, .const 0⟩]
def TLM_IOAM_NS_DATA_S : Reg where
  id := 305
  win := 18
  off := 0x210
  wide := false
  dims := [⟨0, 4, 0x20⟩]
  fields := [⟨"DATA_S", 31, 0, .rw, .const 0⟩]
def TLM_IOAM_NS_DATA_W_LO : Reg where
  id := 306
  win := 18
  off := 0x214
  wide := false
  dims := [⟨0, 4, 0x20⟩]
  fields := [⟨"DATA_W_LO", 31, 0, .rw, .const 0⟩]
def TLM_IOAM_NS_DATA_W_HI : Reg where
  id := 307
  win := 18
  off := 0x218
  wide := false
  dims := [⟨0, 4, 0x20⟩]
  fields := [⟨"DATA_W_HI", 31, 0, .rw, .const 0⟩]
def TLM_PORT_CFG : Reg where
  id := 308
  win := 18
  off := 0x10000
  wide := false
  dims := [⟨0, 1024, 0x10⟩]
  fields := [⟨"HIST", 1, 1, .rw, .const 0⟩, ⟨"TSCAP", 0, 0, .rw, .const 0⟩]
def TLM_TS_ADJ : Reg where
  id := 309
  win := 18
  off := 0x10004
  wide := false
  dims := [⟨0, 1024, 0x10⟩]
  fields := [⟨"TX_ADJ", 31, 16, .rw, .const 0⟩, ⟨"RX_ADJ", 15, 0, .rw, .const 0⟩]
def TLM_QS_PORT : Reg where
  id := 310
  win := 18
  off := 0x10008
  wide := false
  dims := [⟨0, 1024, 0x10⟩]
  fields := [⟨"QMASK", 11, 0, .rw, .const 0⟩]
def TLM_ID : Reg where
  id := 311
  win := 18
  off := 0xFF000
  wide := false
  dims := []
  fields := [⟨"WINDOW", 31, 24, .ro, .const 18⟩, ⟨"MAJOR", 23, 16, .ro, .const 1⟩, ⟨"MINOR", 15, 8, .ro, .const 0⟩]
def TLM_CFG_COMMIT : Reg where
  id := 312
  win := 18
  off := 0xFF004
  wide := false
  dims := []
  fields := [⟨"BUSY", 31, 31, .ro, .const 0⟩, ⟨"GO", 0, 0, .wo, .const 0⟩]

/-! Window 19, CUL_ (spec/10_telemetry_and_counters.md) and its header page (spec/00_scope.md R16). -/

def CUL_CFG : Reg where
  id := 313
  win := 19
  off := 0x0
  wide := false
  dims := []
  fields := [⟨"EN", 31, 31, .rw, .const 0⟩, ⟨"MASK", 6, 0, .rw, .const 127⟩]
def CUL_STAT : Reg where
  id := 314
  win := 19
  off := 0x4
  wide := false
  dims := []
  fields := [⟨"IDS_USED", 12, 0, .ro, .const 0⟩]
def CUL_RATE : Reg where
  id := 315
  win := 19
  off := 0x10
  wide := false
  dims := [⟨0, 32, 0x8⟩]
  fields := [⟨"EN", 31, 31, .rw, .const 0⟩, ⟨"N_M1", 23, 0, .rw, .const 0xffffff⟩]
def CUL_PORTS : Reg where
  id := 316
  win := 19
  off := 0x14
  wide := false
  dims := [⟨0, 32, 0x8⟩]
  fields := [⟨"PORTS", 31, 0, .rw, .const 0xffffffff⟩]
def CUL_NO_ID : Reg where
  id := 317
  win := 19
  off := 0x8
  wide := false
  dims := []
  fields := [⟨"COUNT", 31, 0, .ro, .const 0⟩]
def CUL_TAGGED : Reg where
  id := 318
  win := 19
  off := 0x200
  wide := true
  dims := []
  fields := [⟨"COUNT", 63, 0, .ro, .const 0⟩]
def CUL_ID : Reg where
  id := 319
  win := 19
  off := 0xFF000
  wide := false
  dims := []
  fields := [⟨"WINDOW", 31, 24, .ro, .const 19⟩, ⟨"MAJOR", 23, 16, .ro, .const 1⟩, ⟨"MINOR", 15, 8, .ro, .const 0⟩]
def CUL_CFG_COMMIT : Reg where
  id := 320
  win := 19
  off := 0xFF004
  wide := false
  dims := []
  fields := [⟨"BUSY", 31, 31, .ro, .const 0⟩, ⟨"GO", 0, 0, .wo, .const 0⟩]

/-! Window 20, PMC_ (spec/10_telemetry_and_counters.md) and its header page (spec/00_scope.md R16). -/

def PMC_CYC : Reg where
  id := 321
  win := 20
  off := 0x0
  wide := true
  dims := [⟨0, 131, 0x800⟩]
  fields := [⟨"COUNT", 63, 0, .ro, .const 0⟩]
def PMC_CNT : Reg where
  id := 322
  win := 20
  off := 0x8
  wide := true
  dims := [⟨0, 131, 0x800⟩, ⟨0, 8, 0x8⟩]
  fields := [⟨"COUNT", 47, 0, .rw, .const 0⟩]
def PMC_EVSEL : Reg where
  id := 323
  win := 20
  off := 0x100
  wide := false
  dims := [⟨0, 131, 0x800⟩, ⟨0, 8, 0x4⟩]
  fields := [⟨"SMP", 31, 31, .rw, .const 0⟩, ⟨"EVENT", 7, 0, .rw, .const 0⟩]
def PMC_UCTL : Reg where
  id := 324
  win := 20
  off := 0x140
  wide := false
  dims := [⟨0, 131, 0x800⟩]
  fields := [⟨"CHAIN", 3, 0, .rw, .const 0⟩]
def PMC_PERM : Reg where
  id := 325
  win := 20
  off := 0x144
  wide := false
  dims := [⟨0, 131, 0x800⟩]
  fields := [⟨"USER", 31, 31, .rw, .const 0⟩, ⟨"VF", 4, 0, .rw, .const 0⟩]
def PMC_OVF : Reg where
  id := 326
  win := 20
  off := 0x148
  wide := false
  dims := [⟨0, 131, 0x800⟩]
  fields := [⟨"OVF", 7, 0, .w1c, .const 0⟩]
def PMC_GCTL : Reg where
  id := 327
  win := 20
  off := 0x80000
  wide := false
  dims := []
  fields := [⟨"FREEZE", 31, 31, .rw, .const 0⟩, ⟨"VIEW", 30, 30, .rw, .const 0⟩, ⟨"SNAP", 0, 0, .wo, .const 0⟩]
def PMC_SNAP_PERIOD : Reg where
  id := 328
  win := 20
  off := 0x80004
  wide := false
  dims := []
  fields := [⟨"TICKS", 15, 0, .rw, .const 0⟩]
def PMC_SNAP_TIME : Reg where
  id := 329
  win := 20
  off := 0x80008
  wide := true
  dims := []
  fields := [⟨"NS", 63, 0, .ro, .const 0⟩]
def PMC_SNAP_SEQ : Reg where
  id := 330
  win := 20
  off := 0x80010
  wide := false
  dims := []
  fields := [⟨"SEQ", 31, 0, .ro, .const 0⟩]
def PMC_ID : Reg where
  id := 331
  win := 20
  off := 0xFF000
  wide := false
  dims := []
  fields := [⟨"WINDOW", 31, 24, .ro, .const 20⟩, ⟨"MAJOR", 23, 16, .ro, .const 1⟩, ⟨"MINOR", 15, 8, .ro, .const 0⟩]
def PMC_CFG_COMMIT : Reg where
  id := 332
  win := 20
  off := 0xFF004
  wide := false
  dims := []
  fields := [⟨"BUSY", 31, 31, .ro, .const 0⟩, ⟨"GO", 0, 0, .wo, .const 0⟩]

/-! Window 21, HIF_ (spec/11_host_rings.md) and its header page (spec/00_scope.md R16). -/

def HIF_CFG : Reg where
  id := 333
  win := 21
  off := 0x0
  wide := false
  dims := []
  fields := [⟨"PH_RETRY", 11, 8, .rw, .const 8⟩, ⟨"PREFETCH", 3, 0, .rw, .const 8⟩]
def HIF_CTL : Reg where
  id := 334
  win := 21
  off := 0x4
  wide := false
  dims := []
  fields := [⟨"RESET", 0, 0, .wo, .const 0⟩]
def HIF_STAT : Reg where
  id := 335
  win := 21
  off := 0x8
  wide := false
  dims := []
  fields := [⟨"RST_BUSY", 31, 31, .ro, .const 0⟩, ⟨"CNFG_MISMATCH", 30, 30, .ro, .const 0⟩, ⟨"WIDTH", 12, 8, .ro, .const 0⟩, ⟨"SPEED", 7, 4, .ro, .const 0⟩, ⟨"FLIT", 3, 3, .ro, .const 0⟩, ⟨"LINK_UP", 0, 0, .ro, .const 0⟩]
def HIF_CQ_STALL_TMO : Reg where
  id := 336
  win := 21
  off := 0xC
  wide := false
  dims := []
  fields := [⟨"MS", 15, 0, .rw, .const 100⟩]
def HIF_EVQ_CFG : Reg where
  id := 337
  win := 21
  off := 0x10
  wide := false
  dims := []
  fields := [⟨"RING", 31, 24, .rw, .const 0⟩, ⟨"FAULT", 23, 16, .rw, .const 0⟩, ⟨"PORT", 15, 8, .rw, .const 0⟩, ⟨"LINK", 7, 0, .rw, .const 0⟩]
def HIF_EVQ_EN : Reg where
  id := 338
  win := 21
  off := 0x14
  wide := false
  dims := []
  fields := [⟨"RING", 3, 3, .rw, .const 0⟩, ⟨"FAULT", 2, 2, .rw, .const 0⟩, ⟨"PORT", 1, 1, .rw, .const 0⟩, ⟨"LINK", 0, 0, .rw, .const 0⟩]
def HIF_EVT_LOST : Reg where
  id := 339
  win := 21
  off := 0x200
  wide := false
  dims := []
  fields := [⟨"COUNT", 31, 0, .ro, .const 0⟩]
def HIF_RX_UNMAPPED : Reg where
  id := 340
  win := 21
  off := 0x204
  wide := false
  dims := []
  fields := [⟨"COUNT", 31, 0, .ro, .const 0⟩]
def HIF_DMA_ERR : Reg where
  id := 341
  win := 21
  off := 0x208
  wide := false
  dims := []
  fields := [⟨"COUNT", 31, 0, .ro, .const 0⟩]
def HIF_CQ_STALL_CNT : Reg where
  id := 342
  win := 21
  off := 0x20C
  wide := false
  dims := []
  fields := [⟨"COUNT", 31, 0, .ro, .const 0⟩]
def HIF_FUNC_PERM : Reg where
  id := 343
  win := 21
  off := 0x100
  wide := false
  dims := [⟨0, 32, 0x4⟩]
  fields := [⟨"CLASS", 4, 0, .rw, .table [0x1F, 0, 0, 0, 0, 0, 0, 0, 0, 0, 0, 0, 0, 0, 0, 0, 0, 0, 0, 0, 0, 0, 0, 0, 0, 0, 0, 0, 0, 0, 0, 0]⟩]
def HIF_VF_MAP : Reg where
  id := 344
  win := 21
  off := 0x180
  wide := false
  dims := [⟨1, 31, 0x4⟩]
  fields := [⟨"COUNT", 20, 16, .rws, .const 0⟩, ⟨"FIRST", 7, 0, .rws, .const 0⟩]
def HIF_RX_FRAMES : Reg where
  id := 345
  win := 21
  off := 0x210
  wide := true
  dims := []
  fields := [⟨"COUNT", 63, 0, .ro, .const 0⟩]
def HIF_INJ_FRAMES : Reg where
  id := 346
  win := 21
  off := 0x218
  wide := true
  dims := []
  fields := [⟨"COUNT", 63, 0, .ro, .const 0⟩]
def HIF_TRAP_MAP : Reg where
  id := 347
  win := 21
  off := 0x400
  wide := false
  dims := [⟨0, 256, 0x4⟩]
  fields := [⟨"EN", 31, 31, .rw, .const 0⟩, ⟨"RING", 7, 0, .rw, .const 0⟩]
def HIF_MIRROR_MAP : Reg where
  id := 348
  win := 21
  off := 0x800
  wide := false
  dims := [⟨1, 15, 0x4⟩]
  fields := [⟨"EN", 31, 31, .rw, .const 0⟩, ⟨"RING", 7, 0, .rw, .const 0⟩]
def HIF_MSIX_TABLE : Reg where
  id := 349
  win := 21
  off := 0x80000
  wide := false
  dims := [⟨0, 256, 0x10⟩, ⟨0, 4, 0x4⟩]
  fields := [⟨"DATA", 31, 0, .rw, .table [0, 0, 0, 1]⟩]
def HIF_MSIX_PBA : Reg where
  id := 350
  win := 21
  off := 0x81000
  wide := false
  dims := [⟨0, 8, 0x4⟩]
  fields := [⟨"PEND", 31, 0, .ro, .const 0⟩]
def HIF_ID : Reg where
  id := 351
  win := 21
  off := 0xFF000
  wide := false
  dims := []
  fields := [⟨"WINDOW", 31, 24, .ro, .const 21⟩, ⟨"MAJOR", 23, 16, .ro, .const 1⟩, ⟨"MINOR", 15, 8, .ro, .const 0⟩]
def HIF_CFG_COMMIT : Reg where
  id := 352
  win := 21
  off := 0xFF004
  wide := false
  dims := []
  fields := [⟨"BUSY", 31, 31, .ro, .const 0⟩, ⟨"GO", 0, 0, .wo, .const 0⟩]

/-! Window 22, RING_ (spec/11_host_rings.md) and its header page (spec/00_scope.md R16). -/

def RING_CTL : Reg where
  id := 353
  win := 22
  off := 0x0
  wide := false
  dims := [⟨0, 256, 0x800⟩]
  fields := [⟨"SQ_EN", 31, 31, .rw, .const 0⟩, ⟨"CQ_EN", 30, 30, .rw, .const 0⟩, ⟨"OWNMODE", 29, 29, .rw, .const 0⟩, ⟨"RESET", 28, 28, .wo, .const 0⟩, ⟨"CQ", 15, 8, .rw, .affine 0 1 256⟩]
def RING_SQ_BASE : Reg where
  id := 354
  win := 22
  off := 0x8
  wide := true
  dims := [⟨0, 256, 0x800⟩]
  fields := [⟨"ADDR", 63, 6, .rw, .const 0⟩]
def RING_CQ_BASE : Reg where
  id := 355
  win := 22
  off := 0x10
  wide := true
  dims := [⟨0, 256, 0x800⟩]
  fields := [⟨"ADDR", 63, 5, .rw, .const 0⟩]
def RING_SIZE : Reg where
  id := 356
  win := 22
  off := 0x18
  wide := false
  dims := [⟨0, 256, 0x800⟩]
  fields := [⟨"CQ_LOG2", 12, 8, .rw, .const 4⟩, ⟨"SQ_LOG2", 4, 0, .rw, .const 4⟩]
def RING_POLL : Reg where
  id := 357
  win := 22
  off := 0x1C
  wide := false
  dims := [⟨0, 256, 0x800⟩]
  fields := [⟨"INTERVAL", 15, 0, .rw, .const 0⟩]
def RING_IRQ : Reg where
  id := 358
  win := 22
  off := 0x20
  wide := false
  dims := [⟨0, 256, 0x800⟩]
  fields := [⟨"EN", 31, 31, .rw, .const 0⟩, ⟨"VECTOR", 23, 16, .rw, .const 0⟩, ⟨"COUNT", 15, 8, .rw, .const 1⟩, ⟨"TIMER_US", 7, 0, .rw, .const 0⟩]
def RING_STAT : Reg where
  id := 359
  win := 22
  off := 0x24
  wide := false
  dims := [⟨0, 256, 0x800⟩]
  fields := [⟨"SQ_STATE", 31, 30, .ro, .const 0⟩, ⟨"CQ_STATE", 29, 28, .ro, .const 0⟩, ⟨"CNFG_MISMATCH", 27, 27, .ro, .const 0⟩, ⟨"CQ_STALL", 26, 26, .ro, .const 0⟩, ⟨"RING_ERR", 25, 25, .w1c, .const 0⟩, ⟨"CFG_REJ", 24, 24, .w1c, .const 0⟩, ⟨"IRQ_REJ", 23, 23, .w1c, .const 0⟩, ⟨"HOLD", 6, 0, .ro, .const 0⟩]
def RING_SQ_PROD : Reg where
  id := 360
  win := 22
  off := 0x28
  wide := false
  dims := [⟨0, 256, 0x800⟩]
  fields := [⟨"INDEX", 16, 0, .ro, .const 0⟩]
def RING_SQ_CONS : Reg where
  id := 361
  win := 22
  off := 0x2C
  wide := false
  dims := [⟨0, 256, 0x800⟩]
  fields := [⟨"INDEX", 16, 0, .ro, .const 0⟩]
def RING_CQ_PROD : Reg where
  id := 362
  win := 22
  off := 0x30
  wide := false
  dims := [⟨0, 256, 0x800⟩]
  fields := [⟨"INDEX", 16, 0, .ro, .const 0⟩]
def RING_CQ_CONS : Reg where
  id := 363
  win := 22
  off := 0x34
  wide := false
  dims := [⟨0, 256, 0x800⟩]
  fields := [⟨"INDEX", 16, 0, .ro, .const 0⟩]
def RING_ERR_INFO : Reg where
  id := 364
  win := 22
  off := 0x38
  wide := false
  dims := [⟨0, 256, 0x800⟩]
  fields := [⟨"KIND", 31, 28, .ro, .const 0⟩, ⟨"VALUE", 16, 0, .ro, .const 0⟩]
def RING_DB_REJ : Reg where
  id := 365
  win := 22
  off := 0x40
  wide := false
  dims := [⟨0, 256, 0x800⟩]
  fields := [⟨"COUNT", 31, 0, .ro, .const 0⟩]
def RING_RX_NOBUF : Reg where
  id := 366
  win := 22
  off := 0x44
  wide := false
  dims := [⟨0, 256, 0x800⟩]
  fields := [⟨"COUNT", 31, 0, .ro, .const 0⟩]
def RING_RX_STALL : Reg where
  id := 367
  win := 22
  off := 0x48
  wide := false
  dims := [⟨0, 256, 0x800⟩]
  fields := [⟨"COUNT", 31, 0, .ro, .const 0⟩]
def RING_JOBS : Reg where
  id := 368
  win := 22
  off := 0x50
  wide := true
  dims := [⟨0, 256, 0x800⟩]
  fields := [⟨"COUNT", 63, 0, .ro, .const 0⟩]
def RING_ID : Reg where
  id := 369
  win := 22
  off := 0xFF000
  wide := false
  dims := []
  fields := [⟨"WINDOW", 31, 24, .ro, .const 22⟩, ⟨"MAJOR", 23, 16, .ro, .const 1⟩, ⟨"MINOR", 15, 8, .ro, .const 0⟩]
def RING_CFG_COMMIT : Reg where
  id := 370
  win := 22
  off := 0xFF004
  wide := false
  dims := []
  fields := [⟨"BUSY", 31, 31, .ro, .const 0⟩, ⟨"GO", 0, 0, .wo, .const 0⟩]

/-! Window 23, MBX_ (spec/12_mailboxes_and_service_cores.md) and its header page (spec/00_scope.md R16). -/

def MBX_STAT : Reg where
  id := 371
  win := 23
  off := 0x0
  wide := false
  dims := [⟨0, 64, 0x200⟩]
  fields := [⟨"FULL", 31, 31, .ro, .const 0⟩, ⟨"TIMEOUT", 30, 30, .ro, .const 0⟩, ⟨"CNFG_MISMATCH", 29, 29, .ro, .const 0⟩, ⟨"SEND_REJ", 28, 28, .w1c, .const 0⟩, ⟨"LEN", 22, 16, .ro, .const 0⟩, ⟨"SEQ", 15, 0, .ro, .const 0⟩]
def MBX_SEND : Reg where
  id := 372
  win := 23
  off := 0x4
  wide := false
  dims := [⟨0, 64, 0x200⟩]
  fields := [⟨"LEN", 6, 0, .wo, .const 0⟩]
def MBX_ACK : Reg where
  id := 373
  win := 23
  off := 0x8
  wide := false
  dims := [⟨0, 64, 0x200⟩]
  fields := [⟨"SEQ", 15, 0, .wo, .const 0⟩]
def MBX_CFG : Reg where
  id := 374
  win := 23
  off := 0xC
  wide := false
  dims := [⟨0, 64, 0x200⟩]
  fields := [⟨"RX_IRQ", 31, 31, .rw, .const 0⟩, ⟨"ACK_IRQ", 30, 30, .rw, .const 0⟩, ⟨"VECTOR", 23, 16, .rw, .const 0⟩, ⟨"TMO_US", 15, 0, .rw, .const 1000⟩]
def MBX_CTL : Reg where
  id := 375
  win := 23
  off := 0x10
  wide := false
  dims := [⟨0, 64, 0x200⟩]
  fields := [⟨"RESET", 0, 0, .wo, .const 0⟩]
def MBX_REJ : Reg where
  id := 376
  win := 23
  off := 0x14
  wide := false
  dims := [⟨0, 64, 0x200⟩]
  fields := [⟨"COUNT", 31, 0, .ro, .const 0⟩]
def MBX_DATA : Reg where
  id := 377
  win := 23
  off := 0x100
  wide := false
  dims := [⟨0, 64, 0x200⟩, ⟨0, 64, 0x4⟩]
  fields := [⟨"DATA", 31, 0, .rw, .const 0⟩]
def MBX_LOCK : Reg where
  id := 378
  win := 23
  off := 0x8000
  wide := false
  dims := [⟨0, 16, 0x4⟩]
  fields := [⟨"GRANTED", 31, 31, .ro, .const 0⟩, ⟨"HELD", 30, 30, .ro, .const 0⟩, ⟨"OWNER", 23, 16, .ro, .const 0⟩, ⟨"FORCE", 1, 1, .wo, .const 0⟩, ⟨"RELEASE", 0, 0, .wo, .const 0⟩]
def MBX_PEND : Reg where
  id := 379
  win := 23
  off := 0x8100
  wide := true
  dims := []
  fields := [⟨"FULL", 63, 0, .ro, .const 0⟩]
def MBX_LOCK_FORCED : Reg where
  id := 380
  win := 23
  off := 0x8108
  wide := false
  dims := []
  fields := [⟨"COUNT", 31, 0, .ro, .const 0⟩]
def MBX_ID : Reg where
  id := 381
  win := 23
  off := 0xFF000
  wide := false
  dims := []
  fields := [⟨"WINDOW", 31, 24, .ro, .const 23⟩, ⟨"MAJOR", 23, 16, .ro, .const 1⟩, ⟨"MINOR", 15, 8, .ro, .const 0⟩]
def MBX_CFG_COMMIT : Reg where
  id := 382
  win := 23
  off := 0xFF004
  wide := false
  dims := []
  fields := [⟨"BUSY", 31, 31, .ro, .const 0⟩, ⟨"GO", 0, 0, .wo, .const 0⟩]

/-! Window 24, SVC_ (spec/12_mailboxes_and_service_cores.md) and its header page (spec/00_scope.md R16). -/

def SVC_CTL : Reg where
  id := 383
  win := 24
  off := 0x0
  wide := false
  dims := [⟨0, 8, 0x10⟩]
  fields := [⟨"HALT", 1, 1, .rw, .const 0⟩, ⟨"RESET", 0, 0, .wo, .const 0⟩]
def SVC_STAT : Reg where
  id := 384
  win := 24
  off := 0x4
  wide := false
  dims := [⟨0, 8, 0x10⟩]
  fields := [⟨"POWERED", 2, 2, .ro, .const 1⟩, ⟨"HALTED", 1, 1, .ro, .const 0⟩, ⟨"RUNNING", 0, 0, .ro, .const 0⟩]
def SVC_BOOT : Reg where
  id := 385
  win := 24
  off := 0x100
  wide := false
  dims := []
  fields := [⟨"STATE", 31, 28, .ro, .const 0⟩, ⟨"ERR", 27, 24, .ro, .const 0⟩, ⟨"SLOT", 8, 8, .ro, .const 0⟩]
def SVC_FW_VER : Reg where
  id := 386
  win := 24
  off := 0x104
  wide := false
  dims := []
  fields := [⟨"VERSION", 31, 0, .ro, .const 0⟩]
def SVC_ROLLBACK : Reg where
  id := 387
  win := 24
  off := 0x108
  wide := false
  dims := []
  fields := [⟨"INDEX", 6, 0, .ro, .const 0⟩]
def SVC_OTP_KEY : Reg where
  id := 388
  win := 24
  off := 0x140
  wide := false
  dims := [⟨0, 12, 0x4⟩]
  fields := [⟨"HASH", 31, 0, .rw, .const 0⟩]
def SVC_OTP_CTL : Reg where
  id := 389
  win := 24
  off := 0x170
  wide := false
  dims := []
  fields := [⟨"LOCKED", 31, 31, .ro, .const 0⟩, ⟨"BUSY", 30, 30, .ro, .const 0⟩, ⟨"PROGRAM", 0, 0, .wo, .const 0⟩]
def SVC_MBX_BIND : Reg where
  id := 390
  win := 24
  off := 0x200
  wide := false
  dims := [⟨0, 64, 0x4⟩]
  fields := [⟨"EN", 31, 31, .rwl, .bindEn⟩, ⟨"SENDER", 15, 8, .rwl, .bindSender⟩, ⟨"RECEIVER", 7, 0, .rwl, .bindReceiver⟩]
def SVC_MBX_BIND_LOCK : Reg where
  id := 391
  win := 24
  off := 0x300
  wide := false
  dims := []
  fields := [⟨"LOCK", 0, 0, .rwl, .const 0⟩]
def SVC_TRAP_SEL : Reg where
  id := 392
  win := 24
  off := 0x400
  wide := false
  dims := [⟨0, 8, 0x4⟩]
  fields := [⟨"SEL", 31, 0, .rw, .const 0⟩]
def SVC_ID : Reg where
  id := 393
  win := 24
  off := 0xFF000
  wide := false
  dims := []
  fields := [⟨"WINDOW", 31, 24, .ro, .const 24⟩, ⟨"MAJOR", 23, 16, .ro, .const 1⟩, ⟨"MINOR", 15, 8, .ro, .const 0⟩]
def SVC_CFG_COMMIT : Reg where
  id := 394
  win := 24
  off := 0xFF004
  wide := false
  dims := []
  fields := [⟨"BUSY", 31, 31, .ro, .const 0⟩, ⟨"GO", 0, 0, .wo, .const 0⟩]

/-! Window 25, SPL_ (spec/13_spall_faults.md) and its header page (spec/00_scope.md R16). -/

def SPL_LATCH : Reg where
  id := 395
  win := 25
  off := 0x0
  wide := true
  dims := [⟨0, 61, 0x1000⟩]
  fields := [⟨"VALID", 63, 63, .w1c, .const 0⟩, ⟨"OVF", 62, 62, .ro, .const 0⟩, ⟨"INJ_SEEN", 61, 61, .ro, .const 0⟩, ⟨"INJ", 60, 60, .ro, .const 0⟩, ⟨"SORING", 59, 59, .ro, .const 0⟩, ⟨"CLASS", 49, 48, .ro, .const 0⟩, ⟨"SOURCE", 47, 40, .ro, .const 0⟩, ⟨"SYNDROME", 31, 0, .ro, .const 0⟩]
def SPL_LATCH_TIME : Reg where
  id := 396
  win := 25
  off := 0x8
  wide := true
  dims := [⟨0, 61, 0x1000⟩]
  fields := [⟨"NS", 63, 0, .ro, .const 0⟩]
def SPL_INJ : Reg where
  id := 397
  win := 25
  off := 0x10
  wide := false
  dims := [⟨0, 61, 0x1000⟩]
  fields := [⟨"GO", 31, 31, .wo, .const 0⟩, ⟨"SOURCE", 15, 8, .rw, .const 0⟩]
def SPL_INJ_SYN : Reg where
  id := 398
  win := 25
  off := 0x14
  wide := false
  dims := [⟨0, 61, 0x1000⟩]
  fields := [⟨"SYNDROME", 31, 0, .rw, .const 0⟩]
def SPL_CNT : Reg where
  id := 399
  win := 25
  off := 0x20
  wide := false
  dims := [⟨0, 61, 0x1000⟩, ⟨0, 4, 0x4⟩]
  fields := [⟨"COUNT", 31, 0, .ro, .const 0⟩]
def SPL_INJ_CNT : Reg where
  id := 400
  win := 25
  off := 0x30
  wide := false
  dims := [⟨0, 61, 0x1000⟩]
  fields := [⟨"COUNT", 31, 0, .ro, .const 0⟩]
def SPL_MASK : Reg where
  id := 401
  win := 25
  off := 0x40
  wide := false
  dims := [⟨0, 61, 0x1000⟩, ⟨0, 8, 0x4⟩]
  fields := [⟨"MASK", 31, 0, .rw, .const 0⟩]
def SPL_SEV : Reg where
  id := 402
  win := 25
  off := 0x80
  wide := false
  dims := [⟨0, 61, 0x1000⟩, ⟨0, 16, 0x4⟩]
  fields := [⟨"SEV", 31, 0, .rws, .sev⟩]
def SPL_CFG : Reg where
  id := 403
  win := 25
  off := 0x80000
  wide := false
  dims := []
  fields := [⟨"SORING_MODE", 31, 31, .rws, .const 0⟩, ⟨"INJ_LOCK", 30, 30, .rwl, .const 0⟩, ⟨"INJ_FT", 29, 29, .rw, .const 0⟩, ⟨"VECTOR", 7, 0, .rw, .const 0⟩]
def SPL_CTL : Reg where
  id := 404
  win := 25
  off := 0x80004
  wide := false
  dims := []
  fields := [⟨"FORCE_SAFE", 0, 0, .wo, .const 0⟩]
def SPL_STAT : Reg where
  id := 405
  win := 25
  off := 0x80008
  wide := false
  dims := []
  fields := [⟨"SAFE", 31, 31, .ro, .const 0⟩, ⟨"INJ_PEND", 30, 30, .ro, .const 0⟩, ⟨"INJ_REJ", 29, 29, .w1c, .const 0⟩]
def SPL_STAT2 : Reg where
  id := 406
  win := 25
  off := 0x80010
  wide := true
  dims := []
  fields := [⟨"BROKEN", 60, 0, .ro, .const 0⟩]
def SPL_SUMMARY : Reg where
  id := 407
  win := 25
  off := 0x80018
  wide := true
  dims := []
  fields := [⟨"VALID", 60, 0, .ro, .const 0⟩]
def SPL_FATAL : Reg where
  id := 408
  win := 25
  off := 0x80020
  wide := true
  dims := []
  fields := [⟨"VALID", 63, 63, .ro, .const 0⟩, ⟨"FATAL_OVF", 62, 62, .ro, .const 0⟩, ⟨"INJ", 61, 61, .ro, .const 0⟩, ⟨"COLLECTOR", 53, 48, .ro, .const 0⟩, ⟨"SOURCE", 47, 40, .ro, .const 0⟩, ⟨"SYNDROME", 31, 0, .ro, .const 0⟩]
def SPL_FATAL_TIME : Reg where
  id := 409
  win := 25
  off := 0x80028
  wide := true
  dims := []
  fields := [⟨"NS", 63, 0, .ro, .const 0⟩]
def SPL_REC_FILL : Reg where
  id := 410
  win := 25
  off := 0x80030
  wide := false
  dims := []
  fields := [⟨"COUNT", 11, 0, .ro, .const 0⟩]
def SPL_REC_SEQ : Reg where
  id := 411
  win := 25
  off := 0x80034
  wide := false
  dims := []
  fields := [⟨"SEQ", 31, 0, .ro, .const 0⟩]
def SPL_REC_LOST : Reg where
  id := 412
  win := 25
  off := 0x80038
  wide := false
  dims := []
  fields := [⟨"COUNT", 31, 0, .ro, .const 0⟩]
def SPL_ID : Reg where
  id := 413
  win := 25
  off := 0xFF000
  wide := false
  dims := []
  fields := [⟨"WINDOW", 31, 24, .ro, .const 25⟩, ⟨"MAJOR", 23, 16, .ro, .const 1⟩, ⟨"MINOR", 15, 8, .ro, .const 0⟩]
def SPL_CFG_COMMIT : Reg where
  id := 414
  win := 25
  off := 0xFF004
  wide := false
  dims := []
  fields := [⟨"BUSY", 31, 31, .ro, .const 0⟩, ⟨"GO", 0, 0, .wo, .const 0⟩]

end Sys2Proof.Machine.R

namespace Sys2Proof.Machine

/-- The registers of window 0 (GLB_), first match first. -/
def regsOfWindow0 : List Reg :=
  [R.GLB_STRAP, R.GLB_BAD_ACCESS, R.GLB_PD_REQ, R.GLB_PD_ON, R.GLB_PD_DENY, R.GLB_ID, R.GLB_CFG_COMMIT]

/-- The registers of window 1 (RST_), first match first. -/
def regsOfWindow1 : List Reg :=
  [R.RST_CTL, R.RST_STAT, R.RST_CAUSE, R.RST_COUNT, R.RST_BOOT_GO, R.RST_ID, R.RST_CFG_COMMIT]

/-- The registers of window 2 (PIN_), first match first. -/
def regsOfWindow2 : List Reg :=
  [R.PIN_GPIO_OUT, R.PIN_GPIO_OE, R.PIN_GPIO_IN, R.PIN_BMC, R.PIN_ID, R.PIN_CFG_COMMIT]

/-- The registers of window 3 (LANE_), first match first. -/
def regsOfWindow3 : List Reg :=
  [R.LANE_CTL, R.LANE_STAT, R.LANE_TXEQ, R.LANE_RXEQ, R.LANE_ADAPT, R.LANE_SNR, R.LANE_FRZ_CNT, R.LANE_PRBS_ERR, R.LANE_MACRO_STAT, R.LANE_ID, R.LANE_CFG_COMMIT]

/-- The registers of window 4 (PCS_), first match first. -/
def regsOfWindow4 : List Reg :=
  [R.PCS_SHAPE, R.PCS_CL_STAT, R.PCS_PORT_CTL, R.PCS_PORT_STAT, R.PCS_FEC_DEG, R.PCS_LINK_FLAP, R.PCS_FEC_CORR, R.PCS_FEC_UNCORR, R.PCS_FEC_SYM, R.PCS_RM_DEL, R.PCS_RM_INS, R.PCS_RM_OVF, R.PCS_BAD_BLK, R.PCS_FEC_BIN, R.PCS_ID, R.PCS_CFG_COMMIT]

/-- The registers of window 5 (AUX_), first match first. -/
def regsOfWindow5 : List Reg :=
  [R.AUX_MODE, R.AUX_STAT, R.AUX_PORT_CTL, R.AUX_PORT_STAT, R.AUX_DISP_ERR, R.AUX_CODE_ERR, R.AUX_RM_INS, R.AUX_RM_DEL, R.AUX_LANE_CTL, R.AUX_LANE_STAT, R.AUX_LANE_FRZ_CNT, R.AUX_ID, R.AUX_CFG_COMMIT]

/-- The registers of window 6 (PRS_), first match first. -/
def regsOfWindow6 : List Reg :=
  [R.PRS_CFG, R.PRS_STAT, R.PRS_ST_ADDR, R.PRS_ST_DATA, R.PRS_PORT_CFG, R.PRS_ID, R.PRS_CFG_COMMIT]

/-- The registers of window 7 (PIPE_), first match first. -/
def regsOfWindow7 : List Reg :=
  [R.PIPE_CFG, R.PIPE_STAT, R.PIPE_CHK_EN, R.PIPE_IDX_ADDR, R.PIPE_BAD_INSN, R.PIPE_IDX_DATA, R.PIPE_PORT_CFG, R.PIPE_IN_OVR, R.PIPE_DROP, R.PIPE_PORT_DROP, R.PIPE_TCAM_BIND, R.PIPE_MIRROR, R.PIPE_ID, R.PIPE_CFG_COMMIT]

/-- The registers of window 8 (TBL_), first match first. -/
def regsOfWindow8 : List Reg :=
  [R.TBL_CFG, R.TBL_STAT, R.TBL_ACC, R.TBL_STAMP, R.TBL_CMD, R.TBL_CMD_IDX, R.TBL_CMD_STAT, R.TBL_CMD_RES, R.TBL_LEARN_CFG, R.TBL_EM_SEED, R.TBL_STAGE_CFG, R.TBL_CMD_DATA, R.TBL_TAG_CFG, R.TBL_LEARN_OK, R.TBL_EVICT, R.TBL_LEARN_DROP, R.TBL_DUAL_FAIL, R.TBL_MC_EMPTY, R.TBL_EM_USED, R.TBL_LPM_USED, R.TBL_BULK_FAIL, R.TBL_BULK_FAIL_IDX, R.TBL_DLOG_USED, R.TBL_ID, R.TBL_CFG_COMMIT]

/-- The registers of window 9 (MTR_), first match first. -/
def regsOfWindow9 : List Reg :=
  [R.MTR_PROF_MODE, R.MTR_PROF_CIR, R.MTR_PROF_EIR, R.MTR_PROF_CBS, R.MTR_PROF_EBS, R.MTR_CMD, R.MTR_DATA_PROFILE, R.MTR_DATA_LEVEL, R.MTR_DATA_BYTES, R.MTR_ID, R.MTR_CFG_COMMIT]

/-- The registers of window 10 (QRY_), first match first. -/
def regsOfWindow10 : List Reg :=
  [R.QRY_HDRM_POOL, R.QRY_STAGE, R.QRY_STAT, R.QRY_POOL_ALLOC, R.QRY_POOL_SHARED, R.QRY_POOL_USED, R.QRY_POOL_HDRM_USED, R.QRY_POOL_STAGE_USED, R.QRY_POOL_FREE, R.QRY_VOQ_IDX, R.QRY_VOQ_DATA0, R.QRY_VOQ_DATA1, R.QRY_INT_CFG, R.QRY_PORT_CFG, R.QRY_PG_MAP, R.QRY_PFC_CFG, R.QRY_PFC_STAT, R.QRY_PFC_SA_LO, R.QRY_PFC_SA_HI, R.QRY_STOMP, R.QRY_CT_SENT, R.QRY_CT_FALLBACK, R.QRY_HDRM, R.QRY_Q_CFG, R.QRY_Q_DEPTH, R.QRY_Q_AVG, R.QRY_FE_DROP, R.QRY_COPY_DROP, R.QRY_ECN_MARK, R.QRY_WRED_MIN, R.QRY_WRED_MAX, R.QRY_WRED_CTL, R.QRY_INT_DEPTH, R.QRY_INT_DROP, R.QRY_ID, R.QRY_CFG_COMMIT, R.QRY_ADM_DROP]

/-- The registers of window 11 (SMP_), first match first. -/
def regsOfWindow11 : List Reg :=
  [R.SMP_CFG, R.SMP_STAT, R.SMP_RB_RSV, R.SMP_BW_STAT, R.SMP_CTX_USED, R.SMP_EXT_FREE, R.SMP_EXT_TOTAL, R.SMP_VOQ_IDX, R.SMP_VOQ_DATA0, R.SMP_VOQ_DATA1, R.SMP_LVL, R.SMP_REGION, R.SMP_CLS_THR, R.SMP_CLS_LIM, R.SMP_WR_BATCH, R.SMP_RD_BATCH, R.SMP_FOLD, R.SMP_REFUSE, R.SMP_DROP, R.SMP_ID, R.SMP_CFG_COMMIT]

/-- The registers of window 12 (CXL_), first match first. -/
def regsOfWindow12 : List Reg :=
  [R.CXL_CTL, R.CXL_STAT, R.CXL_ERR, R.CXL_RETRY_CNT, R.CXL_POISON_CNT, R.CXL_LINK_DOWN_CNT, R.CXL_ID, R.CXL_CFG_COMMIT]

/-- The registers of window 13 (EGR_), first match first. -/
def regsOfWindow13 : List Reg :=
  [R.EGR_PORT_CFG, R.EGR_PORT_STAT, R.EGR_PFCWD, R.EGR_GCL_CTL, R.EGR_RX_PAUSE, R.EGR_RX_CTL_BAD, R.EGR_GATE_OVERRUN, R.EGR_Q_CFG, R.EGR_DROP, R.EGR_RX_PFC, R.EGR_WD_TRIP_CNT, R.EGR_GCL_ADDR, R.EGR_GCL_DATA, R.EGR_STAT, R.EGR_ID, R.EGR_CFG_COMMIT]

/-- The registers of window 14 (LEHR_), first match first. -/
def regsOfWindow14 : List Reg :=
  [R.LEHR_Q_RATE, R.LEHR_Q_BURST, R.LEHR_SCALE, R.LEHR_NOW, R.LEHR_Q_IDX, R.LEHR_Q_DATA, R.LEHR_STAT, R.LEHR_ID, R.LEHR_CFG_COMMIT]

/-- The registers of window 15 (PNT_), first match first. -/
def regsOfWindow15 : List Reg :=
  [R.PNT_CFG, R.PNT_RATE, R.PNT_RATE_DROP, R.PNT_PORT_CFG, R.PNT_PORT_LEN, R.PNT_SEL, R.PNT_SEL_FAIL, R.PNT_DROP_SPACE, R.PNT_SEQ, R.PNT_ID, R.PNT_CFG_COMMIT]

/-- The registers of window 16 (GTH_), first match first. -/
def regsOfWindow16 : List Reg :=
  [R.GTH_CFG, R.GTH_UDP_PORT, R.GTH_ANS_RATE, R.GTH_UNSERVED, R.GTH_DIR_IDX, R.GTH_EP_CTL, R.GTH_EP_ADDR, R.GTH_EP_MAC_HI, R.GTH_EP_MAC_LO, R.GTH_LVL, R.GTH_DIR_DATA, R.GTH_DIR_GEN, R.GTH_DIR_NEXT, R.GTH_DIR_OLDEST, R.GTH_THR, R.GTH_ENG_STAT, R.GTH_RX, R.GTH_BYTES, R.GTH_DUP, R.GTH_RESEND, R.GTH_NAK_TX, R.GTH_ERR_TX, R.GTH_ANS_DROP, R.GTH_STRAG, R.GTH_HOLD_EXP, R.GTH_RX_BAD, R.GTH_SAT, R.GTH_ID, R.GTH_CFG_COMMIT]

/-- The registers of window 17 (ANL_), first match first. -/
def regsOfWindow17 : List Reg :=
  [R.ANL_CFG, R.ANL_CAP, R.ANL_STAT, R.ANL_LVL_THR, R.ANL_LVL_HYS, R.ANL_PWR_STAT, R.ANL_PWR_MEAS, R.ANL_LIMITS, R.ANL_DIVERGE, R.ANL_HEAVY, R.ANL_AVS, R.ANL_AVS_STAT, R.ANL_DROOP, R.ANL_THERM, R.ANL_TEMP, R.ANL_PMB_CFG, R.ANL_SAG, R.ANL_DIV_CNT, R.ANL_PMB_ERR, R.ANL_CLS, R.ANL_CLS_STAT, R.ANL_PHASE_OPP, R.ANL_RDIODE_CTL, R.ANL_RDIODE_STAT, R.ANL_PMB_RAIL, R.ANL_PMB_MEAS, R.ANL_OPP, R.ANL_TEMP_SENS, R.ANL_COEF, R.ANL_STATIC, R.ANL_LVL_CNT, R.ANL_DROOP_CNT, R.ANL_ENERGY_TOTAL, R.ANL_RING_ENERGY, R.ANL_ID, R.ANL_CFG_COMMIT]

/-- The registers of window 18 (TLM_), first match first. -/
def regsOfWindow18 : List Reg :=
  [R.TLM_TIME_NS, R.TLM_TIME_FRAC, R.TLM_TIME_TRIM, R.TLM_TIME_STEP, R.TLM_TIME_CTL, R.TLM_HIST_CFG, R.TLM_QS_CFG, R.TLM_QS_MIN, R.TLM_TSCAP_CFG, R.TLM_STAT, R.TLM_QS_SKIP, R.TLM_HQ_IDX, R.TLM_STREAM_CFG, R.TLM_STREAM_DROP, R.TLM_STREAM_SEQ, R.TLM_IOAM_CNT, R.TLM_HQ_DATA, R.TLM_IOAM_NS_ID, R.TLM_IOAM_NS_NODE_S, R.TLM_IOAM_NS_NODE_W_LO, R.TLM_IOAM_NS_NODE_W_HI, R.TLM_IOAM_NS_DATA_S, R.TLM_IOAM_NS_DATA_W_LO, R.TLM_IOAM_NS_DATA_W_HI, R.TLM_PORT_CFG, R.TLM_TS_ADJ, R.TLM_QS_PORT, R.TLM_ID, R.TLM_CFG_COMMIT]

/-- The registers of window 19 (CUL_), first match first. -/
def regsOfWindow19 : List Reg :=
  [R.CUL_CFG, R.CUL_STAT, R.CUL_RATE, R.CUL_PORTS, R.CUL_NO_ID, R.CUL_TAGGED, R.CUL_ID, R.CUL_CFG_COMMIT]

/-- The registers of window 20 (PMC_), first match first. -/
def regsOfWindow20 : List Reg :=
  [R.PMC_CYC, R.PMC_CNT, R.PMC_EVSEL, R.PMC_UCTL, R.PMC_PERM, R.PMC_OVF, R.PMC_GCTL, R.PMC_SNAP_PERIOD, R.PMC_SNAP_TIME, R.PMC_SNAP_SEQ, R.PMC_ID, R.PMC_CFG_COMMIT]

/-- The registers of window 21 (HIF_), first match first. -/
def regsOfWindow21 : List Reg :=
  [R.HIF_CFG, R.HIF_CTL, R.HIF_STAT, R.HIF_CQ_STALL_TMO, R.HIF_EVQ_CFG, R.HIF_EVQ_EN, R.HIF_EVT_LOST, R.HIF_RX_UNMAPPED, R.HIF_DMA_ERR, R.HIF_CQ_STALL_CNT, R.HIF_FUNC_PERM, R.HIF_VF_MAP, R.HIF_RX_FRAMES, R.HIF_INJ_FRAMES, R.HIF_TRAP_MAP, R.HIF_MIRROR_MAP, R.HIF_MSIX_TABLE, R.HIF_MSIX_PBA, R.HIF_ID, R.HIF_CFG_COMMIT]

/-- The registers of window 22 (RING_), first match first. -/
def regsOfWindow22 : List Reg :=
  [R.RING_CTL, R.RING_SQ_BASE, R.RING_CQ_BASE, R.RING_SIZE, R.RING_POLL, R.RING_IRQ, R.RING_STAT, R.RING_SQ_PROD, R.RING_SQ_CONS, R.RING_CQ_PROD, R.RING_CQ_CONS, R.RING_ERR_INFO, R.RING_DB_REJ, R.RING_RX_NOBUF, R.RING_RX_STALL, R.RING_JOBS, R.RING_ID, R.RING_CFG_COMMIT]

/-- The registers of window 23 (MBX_), first match first. -/
def regsOfWindow23 : List Reg :=
  [R.MBX_STAT, R.MBX_SEND, R.MBX_ACK, R.MBX_CFG, R.MBX_CTL, R.MBX_REJ, R.MBX_DATA, R.MBX_LOCK, R.MBX_PEND, R.MBX_LOCK_FORCED, R.MBX_ID, R.MBX_CFG_COMMIT]

/-- The registers of window 24 (SVC_), first match first. -/
def regsOfWindow24 : List Reg :=
  [R.SVC_CTL, R.SVC_STAT, R.SVC_BOOT, R.SVC_FW_VER, R.SVC_ROLLBACK, R.SVC_OTP_KEY, R.SVC_OTP_CTL, R.SVC_MBX_BIND, R.SVC_MBX_BIND_LOCK, R.SVC_TRAP_SEL, R.SVC_ID, R.SVC_CFG_COMMIT]

/-- The registers of window 25 (SPL_), first match first. -/
def regsOfWindow25 : List Reg :=
  [R.SPL_LATCH, R.SPL_LATCH_TIME, R.SPL_INJ, R.SPL_INJ_SYN, R.SPL_CNT, R.SPL_INJ_CNT, R.SPL_MASK, R.SPL_SEV, R.SPL_CFG, R.SPL_CTL, R.SPL_STAT, R.SPL_STAT2, R.SPL_SUMMARY, R.SPL_FATAL, R.SPL_FATAL_TIME, R.SPL_REC_FILL, R.SPL_REC_SEQ, R.SPL_REC_LOST, R.SPL_ID, R.SPL_CFG_COMMIT]

/-- The registers of window `w` (R15); a window above 25 is reserved and has none. -/
def regsOfWindow (w : Nat) : List Reg :=
  match w with
  | 0 => regsOfWindow0
  | 1 => regsOfWindow1
  | 2 => regsOfWindow2
  | 3 => regsOfWindow3
  | 4 => regsOfWindow4
  | 5 => regsOfWindow5
  | 6 => regsOfWindow6
  | 7 => regsOfWindow7
  | 8 => regsOfWindow8
  | 9 => regsOfWindow9
  | 10 => regsOfWindow10
  | 11 => regsOfWindow11
  | 12 => regsOfWindow12
  | 13 => regsOfWindow13
  | 14 => regsOfWindow14
  | 15 => regsOfWindow15
  | 16 => regsOfWindow16
  | 17 => regsOfWindow17
  | 18 => regsOfWindow18
  | 19 => regsOfWindow19
  | 20 => regsOfWindow20
  | 21 => regsOfWindow21
  | 22 => regsOfWindow22
  | 23 => regsOfWindow23
  | 24 => regsOfWindow24
  | 25 => regsOfWindow25
  | _ => []

end Sys2Proof.Machine

namespace Sys2Proof.Machine.F

def GLB_STRAP_SMB_ADDR : Fld := ⟨R.GLB_STRAP, 5, 4⟩
def GLB_STRAP_SPI_SLOW : Fld := ⟨R.GLB_STRAP, 2, 2⟩
def GLB_STRAP_BOOT : Fld := ⟨R.GLB_STRAP, 1, 0⟩
def GLB_BAD_ACCESS_VALID : Fld := ⟨R.GLB_BAD_ACCESS, 63, 63⟩
def GLB_BAD_ACCESS_OVF : Fld := ⟨R.GLB_BAD_ACCESS, 62, 62⟩
def GLB_BAD_ACCESS_BAR : Fld := ⟨R.GLB_BAD_ACCESS, 61, 60⟩
def GLB_BAD_ACCESS_KIND : Fld := ⟨R.GLB_BAD_ACCESS, 59, 56⟩
def GLB_BAD_ACCESS_MID : Fld := ⟨R.GLB_BAD_ACCESS, 55, 48⟩
def GLB_BAD_ACCESS_COUNT : Fld := ⟨R.GLB_BAD_ACCESS, 47, 32⟩
def GLB_BAD_ACCESS_OFFSET : Fld := ⟨R.GLB_BAD_ACCESS, 25, 0⟩
def GLB_PD_REQ_ON : Fld := ⟨R.GLB_PD_REQ, 31, 0⟩
def GLB_PD_ON_ON : Fld := ⟨R.GLB_PD_ON, 31, 0⟩
def GLB_PD_DENY_DENY : Fld := ⟨R.GLB_PD_DENY, 31, 0⟩
def GLB_ID_WINDOW : Fld := ⟨R.GLB_ID, 31, 24⟩
def GLB_ID_MAJOR : Fld := ⟨R.GLB_ID, 23, 16⟩
def GLB_ID_MINOR : Fld := ⟨R.GLB_ID, 15, 8⟩
def GLB_CFG_COMMIT_BUSY : Fld := ⟨R.GLB_CFG_COMMIT, 31, 31⟩
def GLB_CFG_COMMIT_GO : Fld := ⟨R.GLB_CFG_COMMIT, 0, 0⟩
def RST_CTL_KEY : Fld := ⟨R.RST_CTL, 15, 8⟩
def RST_CTL_COLD : Fld := ⟨R.RST_CTL, 1, 1⟩
def RST_CTL_WARM : Fld := ⟨R.RST_CTL, 0, 0⟩
def RST_STAT_INIT_DONE : Fld := ⟨R.RST_STAT, 31, 31⟩
def RST_STAT_PD_DONE : Fld := ⟨R.RST_STAT, 30, 30⟩
def RST_STAT_WARM_REJ : Fld := ⟨R.RST_STAT, 29, 29⟩
def RST_STAT_KEY_REJ : Fld := ⟨R.RST_STAT, 28, 28⟩
def RST_STAT_BOOT_HOLD : Fld := ⟨R.RST_STAT, 27, 27⟩
def RST_CAUSE_CAUSE : Fld := ⟨R.RST_CAUSE, 31, 28⟩
def RST_CAUSE_SUPPLY : Fld := ⟨R.RST_CAUSE, 27, 24⟩
def RST_CAUSE_MID : Fld := ⟨R.RST_CAUSE, 23, 16⟩
def RST_COUNT_COLD : Fld := ⟨R.RST_COUNT, 31, 16⟩
def RST_COUNT_WARM : Fld := ⟨R.RST_COUNT, 15, 0⟩
def RST_BOOT_GO_GO : Fld := ⟨R.RST_BOOT_GO, 0, 0⟩
def RST_ID_WINDOW : Fld := ⟨R.RST_ID, 31, 24⟩
def RST_ID_MAJOR : Fld := ⟨R.RST_ID, 23, 16⟩
def RST_ID_MINOR : Fld := ⟨R.RST_ID, 15, 8⟩
def RST_CFG_COMMIT_BUSY : Fld := ⟨R.RST_CFG_COMMIT, 31, 31⟩
def RST_CFG_COMMIT_GO : Fld := ⟨R.RST_CFG_COMMIT, 0, 0⟩
def PIN_GPIO_OUT_OUT : Fld := ⟨R.PIN_GPIO_OUT, 7, 0⟩
def PIN_GPIO_OE_OE : Fld := ⟨R.PIN_GPIO_OE, 7, 0⟩
def PIN_GPIO_IN_IN : Fld := ⟨R.PIN_GPIO_IN, 7, 0⟩
def PIN_BMC_PEND : Fld := ⟨R.PIN_BMC, 31, 31⟩
def PIN_BMC_I3C : Fld := ⟨R.PIN_BMC, 30, 30⟩
def PIN_BMC_DYN_ADDR : Fld := ⟨R.PIN_BMC, 22, 16⟩
def PIN_BMC_STATIC_ADDR : Fld := ⟨R.PIN_BMC, 6, 0⟩
def PIN_ID_WINDOW : Fld := ⟨R.PIN_ID, 31, 24⟩
def PIN_ID_MAJOR : Fld := ⟨R.PIN_ID, 23, 16⟩
def PIN_ID_MINOR : Fld := ⟨R.PIN_ID, 15, 8⟩
def PIN_CFG_COMMIT_BUSY : Fld := ⟨R.PIN_CFG_COMMIT, 31, 31⟩
def PIN_CFG_COMMIT_GO : Fld := ⟨R.PIN_CFG_COMMIT, 0, 0⟩
def LANE_CTL_REACH : Fld := ⟨R.LANE_CTL, 13, 12⟩
def LANE_CTL_LPBK : Fld := ⟨R.LANE_CTL, 11, 10⟩
def LANE_CTL_TX_SQ : Fld := ⟨R.LANE_CTL, 9, 9⟩
def LANE_CTL_POL_RX : Fld := ⟨R.LANE_CTL, 8, 8⟩
def LANE_CTL_POL_TX : Fld := ⟨R.LANE_CTL, 7, 7⟩
def LANE_CTL_PRBS : Fld := ⟨R.LANE_CTL, 6, 4⟩
def LANE_CTL_EN : Fld := ⟨R.LANE_CTL, 0, 0⟩
def LANE_STAT_PPM : Fld := ⟨R.LANE_STAT, 31, 20⟩
def LANE_STAT_LT_STATE : Fld := ⟨R.LANE_STAT, 15, 12⟩
def LANE_STAT_ADAPT : Fld := ⟨R.LANE_STAT, 11, 10⟩
def LANE_STAT_FRZ_WHY : Fld := ⟨R.LANE_STAT, 9, 8⟩
def LANE_STAT_TXEQ_REJ : Fld := ⟨R.LANE_STAT, 7, 7⟩
def LANE_STAT_CDR_LOCK : Fld := ⟨R.LANE_STAT, 2, 2⟩
def LANE_STAT_SIG_DET : Fld := ⟨R.LANE_STAT, 1, 1⟩
def LANE_STAT_READY : Fld := ⟨R.LANE_STAT, 0, 0⟩
def LANE_TXEQ_OVR : Fld := ⟨R.LANE_TXEQ, 31, 31⟩
def LANE_TXEQ_PRE3 : Fld := ⟨R.LANE_TXEQ, 29, 24⟩
def LANE_TXEQ_PRE2 : Fld := ⟨R.LANE_TXEQ, 23, 18⟩
def LANE_TXEQ_PRE1 : Fld := ⟨R.LANE_TXEQ, 17, 12⟩
def LANE_TXEQ_MAIN : Fld := ⟨R.LANE_TXEQ, 11, 6⟩
def LANE_TXEQ_POST1 : Fld := ⟨R.LANE_TXEQ, 5, 0⟩
def LANE_RXEQ_CTLE : Fld := ⟨R.LANE_RXEQ, 31, 27⟩
def LANE_RXEQ_VGA : Fld := ⟨R.LANE_RXEQ, 26, 21⟩
def LANE_RXEQ_DFE1 : Fld := ⟨R.LANE_RXEQ, 20, 14⟩
def LANE_ADAPT_REUSE_MS : Fld := ⟨R.LANE_ADAPT, 31, 20⟩
def LANE_ADAPT_IDLE_US : Fld := ⟨R.LANE_ADAPT, 19, 10⟩
def LANE_ADAPT_RESTART : Fld := ⟨R.LANE_ADAPT, 2, 2⟩
def LANE_ADAPT_FORCE_FRZ : Fld := ⟨R.LANE_ADAPT, 1, 1⟩
def LANE_ADAPT_IDLE_FRZ : Fld := ⟨R.LANE_ADAPT, 0, 0⟩
def LANE_SNR_SNR : Fld := ⟨R.LANE_SNR, 15, 0⟩
def LANE_FRZ_CNT_COUNT : Fld := ⟨R.LANE_FRZ_CNT, 31, 0⟩
def LANE_PRBS_ERR_COUNT : Fld := ⟨R.LANE_PRBS_ERR, 63, 0⟩
def LANE_MACRO_STAT_CAL_DONE : Fld := ⟨R.LANE_MACRO_STAT, 1, 1⟩
def LANE_MACRO_STAT_PLL_LOCK : Fld := ⟨R.LANE_MACRO_STAT, 0, 0⟩
def LANE_ID_WINDOW : Fld := ⟨R.LANE_ID, 31, 24⟩
def LANE_ID_MAJOR : Fld := ⟨R.LANE_ID, 23, 16⟩
def LANE_ID_MINOR : Fld := ⟨R.LANE_ID, 15, 8⟩
def LANE_CFG_COMMIT_BUSY : Fld := ⟨R.LANE_CFG_COMMIT, 31, 31⟩
def LANE_CFG_COMMIT_GO : Fld := ⟨R.LANE_CFG_COMMIT, 0, 0⟩
def PCS_SHAPE_M3 : Fld := ⟨R.PCS_SHAPE, 15, 12⟩
def PCS_SHAPE_M2 : Fld := ⟨R.PCS_SHAPE, 11, 8⟩
def PCS_SHAPE_M1 : Fld := ⟨R.PCS_SHAPE, 7, 4⟩
def PCS_SHAPE_M0 : Fld := ⟨R.PCS_SHAPE, 3, 0⟩
def PCS_CL_STAT_SHAPE_REJ : Fld := ⟨R.PCS_CL_STAT, 7, 4⟩
def PCS_CL_STAT_REF_OK : Fld := ⟨R.PCS_CL_STAT, 0, 0⟩
def PCS_PORT_CTL_LPI_US : Fld := ⟨R.PCS_PORT_CTL, 13, 8⟩
def PCS_PORT_CTL_LPI_EN : Fld := ⟨R.PCS_PORT_CTL, 7, 7⟩
def PCS_PORT_CTL_LT_EN : Fld := ⟨R.PCS_PORT_CTL, 6, 6⟩
def PCS_PORT_CTL_AN_EN : Fld := ⟨R.PCS_PORT_CTL, 5, 5⟩
def PCS_PORT_CTL_MEDIA : Fld := ⟨R.PCS_PORT_CTL, 4, 4⟩
def PCS_PORT_CTL_FEC : Fld := ⟨R.PCS_PORT_CTL, 3, 2⟩
def PCS_PORT_CTL_EN : Fld := ⟨R.PCS_PORT_CTL, 0, 0⟩
def PCS_PORT_STAT_SKEW : Fld := ⟨R.PCS_PORT_STAT, 31, 24⟩
def PCS_PORT_STAT_CNFG_MISMATCH : Fld := ⟨R.PCS_PORT_STAT, 15, 15⟩
def PCS_PORT_STAT_ABSENT : Fld := ⟨R.PCS_PORT_STAT, 14, 14⟩
def PCS_PORT_STAT_PPM_RANGE : Fld := ⟨R.PCS_PORT_STAT, 13, 13⟩
def PCS_PORT_STAT_RM_OVF : Fld := ⟨R.PCS_PORT_STAT, 12, 12⟩
def PCS_PORT_STAT_LINK_DOWN_EVT : Fld := ⟨R.PCS_PORT_STAT, 11, 11⟩
def PCS_PORT_STAT_FEC_DEG_REM : Fld := ⟨R.PCS_PORT_STAT, 7, 7⟩
def PCS_PORT_STAT_FEC_DEG_LOC : Fld := ⟨R.PCS_PORT_STAT, 6, 6⟩
def PCS_PORT_STAT_HI_SER : Fld := ⟨R.PCS_PORT_STAT, 5, 5⟩
def PCS_PORT_STAT_REM_FAULT : Fld := ⟨R.PCS_PORT_STAT, 4, 4⟩
def PCS_PORT_STAT_LOC_FAULT : Fld := ⟨R.PCS_PORT_STAT, 3, 3⟩
def PCS_PORT_STAT_ALIGN_LOCK : Fld := ⟨R.PCS_PORT_STAT, 2, 2⟩
def PCS_PORT_STAT_RX_LPI : Fld := ⟨R.PCS_PORT_STAT, 1, 1⟩
def PCS_PORT_STAT_LINK_UP : Fld := ⟨R.PCS_PORT_STAT, 0, 0⟩
def PCS_FEC_DEG_ACT_THR : Fld := ⟨R.PCS_FEC_DEG, 31, 16⟩
def PCS_FEC_DEG_DEACT_THR : Fld := ⟨R.PCS_FEC_DEG, 15, 0⟩
def PCS_LINK_FLAP_COUNT : Fld := ⟨R.PCS_LINK_FLAP, 31, 0⟩
def PCS_FEC_CORR_COUNT : Fld := ⟨R.PCS_FEC_CORR, 63, 0⟩
def PCS_FEC_UNCORR_COUNT : Fld := ⟨R.PCS_FEC_UNCORR, 63, 0⟩
def PCS_FEC_SYM_COUNT : Fld := ⟨R.PCS_FEC_SYM, 63, 0⟩
def PCS_RM_DEL_COUNT : Fld := ⟨R.PCS_RM_DEL, 63, 0⟩
def PCS_RM_INS_COUNT : Fld := ⟨R.PCS_RM_INS, 63, 0⟩
def PCS_RM_OVF_COUNT : Fld := ⟨R.PCS_RM_OVF, 31, 0⟩
def PCS_BAD_BLK_COUNT : Fld := ⟨R.PCS_BAD_BLK, 31, 0⟩
def PCS_FEC_BIN_COUNT : Fld := ⟨R.PCS_FEC_BIN, 31, 0⟩
def PCS_ID_WINDOW : Fld := ⟨R.PCS_ID, 31, 24⟩
def PCS_ID_MAJOR : Fld := ⟨R.PCS_ID, 23, 16⟩
def PCS_ID_MINOR : Fld := ⟨R.PCS_ID, 15, 8⟩
def PCS_CFG_COMMIT_BUSY : Fld := ⟨R.PCS_CFG_COMMIT, 31, 31⟩
def PCS_CFG_COMMIT_GO : Fld := ⟨R.PCS_CFG_COMMIT, 0, 0⟩
def AUX_MODE_MODE : Fld := ⟨R.AUX_MODE, 1, 0⟩
def AUX_STAT_CNFG_MISMATCH : Fld := ⟨R.AUX_STAT, 1, 1⟩
def AUX_STAT_PLL_LOCK : Fld := ⟨R.AUX_STAT, 0, 0⟩
def AUX_PORT_CTL_SPEED : Fld := ⟨R.AUX_PORT_CTL, 7, 6⟩
def AUX_PORT_CTL_TYPE : Fld := ⟨R.AUX_PORT_CTL, 5, 4⟩
def AUX_PORT_CTL_AN_EN : Fld := ⟨R.AUX_PORT_CTL, 3, 3⟩
def AUX_PORT_CTL_EN : Fld := ⟨R.AUX_PORT_CTL, 0, 0⟩
def AUX_PORT_STAT_ALIGN : Fld := ⟨R.AUX_PORT_STAT, 5, 5⟩
def AUX_PORT_STAT_RX_FAULT : Fld := ⟨R.AUX_PORT_STAT, 4, 4⟩
def AUX_PORT_STAT_SPEED_RES : Fld := ⟨R.AUX_PORT_STAT, 3, 2⟩
def AUX_PORT_STAT_SYNC : Fld := ⟨R.AUX_PORT_STAT, 1, 1⟩
def AUX_PORT_STAT_LINK_UP : Fld := ⟨R.AUX_PORT_STAT, 0, 0⟩
def AUX_DISP_ERR_COUNT : Fld := ⟨R.AUX_DISP_ERR, 31, 0⟩
def AUX_CODE_ERR_COUNT : Fld := ⟨R.AUX_CODE_ERR, 31, 0⟩
def AUX_RM_INS_COUNT : Fld := ⟨R.AUX_RM_INS, 63, 0⟩
def AUX_RM_DEL_COUNT : Fld := ⟨R.AUX_RM_DEL, 63, 0⟩
def AUX_LANE_CTL_TDENS_MIN : Fld := ⟨R.AUX_LANE_CTL, 31, 16⟩
def AUX_LANE_CTL_FRZ_EN : Fld := ⟨R.AUX_LANE_CTL, 3, 3⟩
def AUX_LANE_CTL_POL_RX : Fld := ⟨R.AUX_LANE_CTL, 2, 2⟩
def AUX_LANE_CTL_POL_TX : Fld := ⟨R.AUX_LANE_CTL, 1, 1⟩
def AUX_LANE_STAT_TDENS : Fld := ⟨R.AUX_LANE_STAT, 31, 16⟩
def AUX_LANE_STAT_FROZEN : Fld := ⟨R.AUX_LANE_STAT, 2, 2⟩
def AUX_LANE_STAT_SIG_DET : Fld := ⟨R.AUX_LANE_STAT, 1, 1⟩
def AUX_LANE_STAT_CDR_LOCK : Fld := ⟨R.AUX_LANE_STAT, 0, 0⟩
def AUX_LANE_FRZ_CNT_COUNT : Fld := ⟨R.AUX_LANE_FRZ_CNT, 31, 0⟩
def AUX_ID_WINDOW : Fld := ⟨R.AUX_ID, 31, 24⟩
def AUX_ID_MAJOR : Fld := ⟨R.AUX_ID, 23, 16⟩
def AUX_ID_MINOR : Fld := ⟨R.AUX_ID, 15, 8⟩
def AUX_CFG_COMMIT_BUSY : Fld := ⟨R.AUX_CFG_COMMIT, 31, 31⟩
def AUX_CFG_COMMIT_GO : Fld := ⟨R.AUX_CFG_COMMIT, 0, 0⟩
def PRS_CFG_BANK : Fld := ⟨R.PRS_CFG, 1, 1⟩
def PRS_CFG_MISS_ERR : Fld := ⟨R.PRS_CFG, 0, 0⟩
def PRS_STAT_ACTIVE_BANK : Fld := ⟨R.PRS_STAT, 0, 0⟩
def PRS_ST_ADDR_WR : Fld := ⟨R.PRS_ST_ADDR, 31, 31⟩
def PRS_ST_ADDR_RD : Fld := ⟨R.PRS_ST_ADDR, 30, 30⟩
def PRS_ST_ADDR_BANK : Fld := ⟨R.PRS_ST_ADDR, 29, 29⟩
def PRS_ST_ADDR_INDEX : Fld := ⟨R.PRS_ST_ADDR, 8, 0⟩
def PRS_ST_DATA_DATA : Fld := ⟨R.PRS_ST_DATA, 31, 0⟩
def PRS_PORT_CFG_START_LA_OFF : Fld := ⟨R.PRS_PORT_CFG, 13, 8⟩
def PRS_PORT_CFG_START_STATE : Fld := ⟨R.PRS_PORT_CFG, 7, 0⟩
def PRS_ID_WINDOW : Fld := ⟨R.PRS_ID, 31, 24⟩
def PRS_ID_MAJOR : Fld := ⟨R.PRS_ID, 23, 16⟩
def PRS_ID_MINOR : Fld := ⟨R.PRS_ID, 15, 8⟩
def PRS_CFG_COMMIT_BUSY : Fld := ⟨R.PRS_CFG_COMMIT, 31, 31⟩
def PRS_CFG_COMMIT_GO : Fld := ⟨R.PRS_CFG_COMMIT, 0, 0⟩
def PIPE_CFG_PROG_BANK : Fld := ⟨R.PIPE_CFG, 1, 1⟩
def PIPE_STAT_LKUP_REJ : Fld := ⟨R.PIPE_STAT, 31, 16⟩
def PIPE_STAT_ACTIVE_BANK : Fld := ⟨R.PIPE_STAT, 0, 0⟩
def PIPE_CHK_EN_EN : Fld := ⟨R.PIPE_CHK_EN, 16, 6⟩
def PIPE_IDX_ADDR_WR : Fld := ⟨R.PIPE_IDX_ADDR, 31, 31⟩
def PIPE_IDX_ADDR_RD : Fld := ⟨R.PIPE_IDX_ADDR, 30, 30⟩
def PIPE_IDX_ADDR_BANK : Fld := ⟨R.PIPE_IDX_ADDR, 29, 29⟩
def PIPE_IDX_ADDR_TARGET : Fld := ⟨R.PIPE_IDX_ADDR, 27, 24⟩
def PIPE_IDX_ADDR_STAGE : Fld := ⟨R.PIPE_IDX_ADDR, 23, 20⟩
def PIPE_IDX_ADDR_INDEX : Fld := ⟨R.PIPE_IDX_ADDR, 10, 0⟩
def PIPE_BAD_INSN_COUNT : Fld := ⟨R.PIPE_BAD_INSN, 31, 0⟩
def PIPE_IDX_DATA_DATA : Fld := ⟨R.PIPE_IDX_DATA, 31, 0⟩
def PIPE_PORT_CFG_MTU : Fld := ⟨R.PIPE_PORT_CFG, 31, 17⟩
def PIPE_PORT_CFG_DEF_LEN : Fld := ⟨R.PIPE_PORT_CFG, 16, 2⟩
def PIPE_PORT_CFG_HAIRPIN : Fld := ⟨R.PIPE_PORT_CFG, 1, 1⟩
def PIPE_PORT_CFG_MC_SELF : Fld := ⟨R.PIPE_PORT_CFG, 0, 0⟩
def PIPE_IN_OVR_COUNT : Fld := ⟨R.PIPE_IN_OVR, 31, 0⟩
def PIPE_DROP_COUNT : Fld := ⟨R.PIPE_DROP, 63, 0⟩
def PIPE_PORT_DROP_COUNT : Fld := ⟨R.PIPE_PORT_DROP, 31, 0⟩
def PIPE_TCAM_BIND_EN : Fld := ⟨R.PIPE_TCAM_BIND, 31, 31⟩
def PIPE_TCAM_BIND_DIR : Fld := ⟨R.PIPE_TCAM_BIND, 30, 30⟩
def PIPE_TCAM_BIND_STAGE : Fld := ⟨R.PIPE_TCAM_BIND, 3, 0⟩
def PIPE_MIRROR_EN : Fld := ⟨R.PIPE_MIRROR, 31, 31⟩
def PIPE_MIRROR_ON_DROP : Fld := ⟨R.PIPE_MIRROR, 30, 30⟩
def PIPE_MIRROR_DEST : Fld := ⟨R.PIPE_MIRROR, 29, 28⟩
def PIPE_MIRROR_PORT : Fld := ⟨R.PIPE_MIRROR, 27, 18⟩
def PIPE_MIRROR_QUEUE : Fld := ⟨R.PIPE_MIRROR, 17, 14⟩
def PIPE_MIRROR_TRUNC : Fld := ⟨R.PIPE_MIRROR, 13, 0⟩
def PIPE_ID_WINDOW : Fld := ⟨R.PIPE_ID, 31, 24⟩
def PIPE_ID_MAJOR : Fld := ⟨R.PIPE_ID, 23, 16⟩
def PIPE_ID_MINOR : Fld := ⟨R.PIPE_ID, 15, 8⟩
def PIPE_CFG_COMMIT_BUSY : Fld := ⟨R.PIPE_CFG_COMMIT, 31, 31⟩
def PIPE_CFG_COMMIT_GO : Fld := ⟨R.PIPE_CFG_COMMIT, 0, 0⟩
def TBL_CFG_STAMP_TICK : Fld := ⟨R.TBL_CFG, 23, 16⟩
def TBL_CFG_MAXDEPTH : Fld := ⟨R.TBL_CFG, 15, 12⟩
def TBL_CFG_LEARN_PAUSE : Fld := ⟨R.TBL_CFG, 2, 2⟩
def TBL_CFG_DUALWR : Fld := ⟨R.TBL_CFG, 1, 1⟩
def TBL_CFG_CMDSET : Fld := ⟨R.TBL_CFG, 0, 0⟩
def TBL_STAT_SEED_REJ : Fld := ⟨R.TBL_STAT, 8, 8⟩
def TBL_STAT_DLOG_OVF : Fld := ⟨R.TBL_STAT, 7, 7⟩
def TBL_STAT_DUAL_ERR : Fld := ⟨R.TBL_STAT, 6, 6⟩
def TBL_STAT_EVQ_STALL : Fld := ⟨R.TBL_STAT, 5, 5⟩
def TBL_STAT_ACTIVE_LPM : Fld := ⟨R.TBL_STAT, 1, 1⟩
def TBL_STAT_ACTIVE_EM : Fld := ⟨R.TBL_STAT, 0, 0⟩
def TBL_ACC_LOCK : Fld := ⟨R.TBL_ACC, 31, 31⟩
def TBL_ACC_JTAG : Fld := ⟨R.TBL_ACC, 3, 3⟩
def TBL_ACC_BMC : Fld := ⟨R.TBL_ACC, 2, 2⟩
def TBL_ACC_SVC : Fld := ⟨R.TBL_ACC, 1, 1⟩
def TBL_ACC_PF : Fld := ⟨R.TBL_ACC, 0, 0⟩
def TBL_STAMP_NOW : Fld := ⟨R.TBL_STAMP, 15, 0⟩
def TBL_CMD_BUSY : Fld := ⟨R.TBL_CMD, 31, 31⟩
def TBL_CMD_CMDSET : Fld := ⟨R.TBL_CMD, 30, 30⟩
def TBL_CMD_OP : Fld := ⟨R.TBL_CMD, 29, 28⟩
def TBL_CMD_TABLE : Fld := ⟨R.TBL_CMD, 27, 25⟩
def TBL_CMD_BANK : Fld := ⟨R.TBL_CMD, 24, 24⟩
def TBL_CMD_CLR : Fld := ⟨R.TBL_CMD, 23, 23⟩
def TBL_CMD_EVICT : Fld := ⟨R.TBL_CMD, 22, 22⟩
def TBL_CMD_EVT : Fld := ⟨R.TBL_CMD, 21, 21⟩
def TBL_CMD_TAGF : Fld := ⟨R.TBL_CMD, 20, 20⟩
def TBL_CMD_TAG : Fld := ⟨R.TBL_CMD, 19, 16⟩
def TBL_CMD_GO : Fld := ⟨R.TBL_CMD, 0, 0⟩
def TBL_CMD_IDX_INDEX : Fld := ⟨R.TBL_CMD_IDX, 20, 0⟩
def TBL_CMD_STAT_STATUS : Fld := ⟨R.TBL_CMD_STAT, 31, 24⟩
def TBL_CMD_STAT_MID : Fld := ⟨R.TBL_CMD_STAT, 23, 16⟩
def TBL_CMD_STAT_FOUND : Fld := ⟨R.TBL_CMD_STAT, 15, 15⟩
def TBL_CMD_STAT_HIT_WAS : Fld := ⟨R.TBL_CMD_STAT, 14, 14⟩
def TBL_CMD_STAT_DUAL_FAIL : Fld := ⟨R.TBL_CMD_STAT, 13, 13⟩
def TBL_CMD_STAT_EVICTED : Fld := ⟨R.TBL_CMD_STAT, 12, 12⟩
def TBL_CMD_STAT_LOST : Fld := ⟨R.TBL_CMD_STAT, 7, 0⟩
def TBL_CMD_RES_COUNT : Fld := ⟨R.TBL_CMD_RES, 31, 0⟩
def TBL_LEARN_CFG_EVT_EN : Fld := ⟨R.TBL_LEARN_CFG, 31, 31⟩
def TBL_LEARN_CFG_EVQ : Fld := ⟨R.TBL_LEARN_CFG, 7, 0⟩
def TBL_EM_SEED_SEED : Fld := ⟨R.TBL_EM_SEED, 31, 0⟩
def TBL_STAGE_CFG_FAM : Fld := ⟨R.TBL_STAGE_CFG, 8, 8⟩
def TBL_STAGE_CFG_TAG : Fld := ⟨R.TBL_STAGE_CFG, 3, 0⟩
def TBL_CMD_DATA_DATA : Fld := ⟨R.TBL_CMD_DATA, 31, 0⟩
def TBL_TAG_CFG_LEARN_ACT : Fld := ⟨R.TBL_TAG_CFG, 31, 21⟩
def TBL_TAG_CFG_LEARN_EN : Fld := ⟨R.TBL_TAG_CFG, 3, 3⟩
def TBL_TAG_CFG_MOVE_UPD : Fld := ⟨R.TBL_TAG_CFG, 2, 2⟩
def TBL_TAG_CFG_EVICT : Fld := ⟨R.TBL_TAG_CFG, 1, 0⟩
def TBL_LEARN_OK_COUNT : Fld := ⟨R.TBL_LEARN_OK, 63, 0⟩
def TBL_EVICT_COUNT : Fld := ⟨R.TBL_EVICT, 63, 0⟩
def TBL_LEARN_DROP_COUNT : Fld := ⟨R.TBL_LEARN_DROP, 31, 0⟩
def TBL_DUAL_FAIL_COUNT : Fld := ⟨R.TBL_DUAL_FAIL, 31, 0⟩
def TBL_MC_EMPTY_COUNT : Fld := ⟨R.TBL_MC_EMPTY, 31, 0⟩
def TBL_EM_USED_COUNT : Fld := ⟨R.TBL_EM_USED, 31, 0⟩
def TBL_LPM_USED_COUNT : Fld := ⟨R.TBL_LPM_USED, 31, 0⟩
def TBL_BULK_FAIL_COUNT : Fld := ⟨R.TBL_BULK_FAIL, 31, 0⟩
def TBL_BULK_FAIL_IDX_COUNT : Fld := ⟨R.TBL_BULK_FAIL_IDX, 31, 0⟩
def TBL_DLOG_USED_COUNT : Fld := ⟨R.TBL_DLOG_USED, 31, 0⟩
def TBL_ID_WINDOW : Fld := ⟨R.TBL_ID, 31, 24⟩
def TBL_ID_MAJOR : Fld := ⟨R.TBL_ID, 23, 16⟩
def TBL_ID_MINOR : Fld := ⟨R.TBL_ID, 15, 8⟩
def TBL_CFG_COMMIT_BUSY : Fld := ⟨R.TBL_CFG_COMMIT, 31, 31⟩
def TBL_CFG_COMMIT_GO : Fld := ⟨R.TBL_CFG_COMMIT, 0, 0⟩
def MTR_PROF_MODE_AWARE : Fld := ⟨R.MTR_PROF_MODE, 2, 2⟩
def MTR_PROF_MODE_MODE : Fld := ⟨R.MTR_PROF_MODE, 1, 0⟩
def MTR_PROF_CIR_CIR : Fld := ⟨R.MTR_PROF_CIR, 31, 0⟩
def MTR_PROF_EIR_EIR : Fld := ⟨R.MTR_PROF_EIR, 31, 0⟩
def MTR_PROF_CBS_CBS : Fld := ⟨R.MTR_PROF_CBS, 23, 0⟩
def MTR_PROF_EBS_EBS : Fld := ⟨R.MTR_PROF_EBS, 23, 0⟩
def MTR_CMD_BUSY : Fld := ⟨R.MTR_CMD, 31, 31⟩
def MTR_CMD_GO : Fld := ⟨R.MTR_CMD, 30, 30⟩
def MTR_CMD_OP : Fld := ⟨R.MTR_CMD, 29, 28⟩
def MTR_CMD_RST_BKT : Fld := ⟨R.MTR_CMD, 27, 27⟩
def MTR_CMD_INDEX : Fld := ⟨R.MTR_CMD, 17, 0⟩
def MTR_DATA_PROFILE_PROFILE : Fld := ⟨R.MTR_DATA_PROFILE, 11, 0⟩
def MTR_DATA_LEVEL_LEVEL : Fld := ⟨R.MTR_DATA_LEVEL, 24, 0⟩
def MTR_DATA_BYTES_BYTES : Fld := ⟨R.MTR_DATA_BYTES, 31, 0⟩
def MTR_ID_WINDOW : Fld := ⟨R.MTR_ID, 31, 24⟩
def MTR_ID_MAJOR : Fld := ⟨R.MTR_ID, 23, 16⟩
def MTR_ID_MINOR : Fld := ⟨R.MTR_ID, 15, 8⟩
def MTR_CFG_COMMIT_BUSY : Fld := ⟨R.MTR_CFG_COMMIT, 31, 31⟩
def MTR_CFG_COMMIT_GO : Fld := ⟨R.MTR_CFG_COMMIT, 0, 0⟩
def QRY_HDRM_POOL_CELLS : Fld := ⟨R.QRY_HDRM_POOL, 20, 0⟩
def QRY_STAGE_CELLS : Fld := ⟨R.QRY_STAGE, 20, 0⟩
def QRY_STAT_OVERCOMMIT : Fld := ⟨R.QRY_STAT, 0, 0⟩
def QRY_POOL_ALLOC_CELLS : Fld := ⟨R.QRY_POOL_ALLOC, 20, 0⟩
def QRY_POOL_SHARED_CELLS : Fld := ⟨R.QRY_POOL_SHARED, 20, 0⟩
def QRY_POOL_USED_CELLS : Fld := ⟨R.QRY_POOL_USED, 20, 0⟩
def QRY_POOL_HDRM_USED_CELLS : Fld := ⟨R.QRY_POOL_HDRM_USED, 20, 0⟩
def QRY_POOL_STAGE_USED_CELLS : Fld := ⟨R.QRY_POOL_STAGE_USED, 20, 0⟩
def QRY_POOL_FREE_CELLS : Fld := ⟨R.QRY_POOL_FREE, 20, 0⟩
def QRY_VOQ_IDX_INDEX : Fld := ⟨R.QRY_VOQ_IDX, 18, 0⟩
def QRY_VOQ_DATA0_CELLS : Fld := ⟨R.QRY_VOQ_DATA0, 20, 0⟩
def QRY_VOQ_DATA1_SPILLED : Fld := ⟨R.QRY_VOQ_DATA1, 31, 31⟩
def QRY_VOQ_DATA1_CT_PEND : Fld := ⟨R.QRY_VOQ_DATA1, 30, 30⟩
def QRY_VOQ_DATA1_FRAMES : Fld := ⟨R.QRY_VOQ_DATA1, 20, 0⟩
def QRY_INT_CFG_RSV : Fld := ⟨R.QRY_INT_CFG, 31, 16⟩
def QRY_INT_CFG_ALPHA : Fld := ⟨R.QRY_INT_CFG, 15, 12⟩
def QRY_PORT_CFG_CT_EN : Fld := ⟨R.QRY_PORT_CFG, 0, 0⟩
def QRY_PG_MAP_Q : Fld := ⟨R.QRY_PG_MAP, 23, 0⟩
def QRY_PFC_CFG_QUANTA : Fld := ⟨R.QRY_PFC_CFG, 31, 16⟩
def QRY_PFC_CFG_EN : Fld := ⟨R.QRY_PFC_CFG, 15, 8⟩
def QRY_PFC_CFG_PFC_ALPHA : Fld := ⟨R.QRY_PFC_CFG, 7, 4⟩
def QRY_PFC_STAT_HDRM_USE : Fld := ⟨R.QRY_PFC_STAT, 15, 8⟩
def QRY_PFC_STAT_XOFF : Fld := ⟨R.QRY_PFC_STAT, 7, 0⟩
def QRY_PFC_SA_LO_SA_LO : Fld := ⟨R.QRY_PFC_SA_LO, 31, 0⟩
def QRY_PFC_SA_HI_SA_HI : Fld := ⟨R.QRY_PFC_SA_HI, 15, 0⟩
def QRY_STOMP_COUNT : Fld := ⟨R.QRY_STOMP, 31, 0⟩
def QRY_CT_SENT_COUNT : Fld := ⟨R.QRY_CT_SENT, 31, 0⟩
def QRY_CT_FALLBACK_COUNT : Fld := ⟨R.QRY_CT_FALLBACK, 31, 0⟩
def QRY_HDRM_XON_DELTA : Fld := ⟨R.QRY_HDRM, 31, 16⟩
def QRY_HDRM_HDRM : Fld := ⟨R.QRY_HDRM, 15, 0⟩
def QRY_Q_CFG_RSV : Fld := ⟨R.QRY_Q_CFG, 31, 16⟩
def QRY_Q_CFG_ALPHA : Fld := ⟨R.QRY_Q_CFG, 15, 12⟩
def QRY_Q_CFG_WRED_PROF : Fld := ⟨R.QRY_Q_CFG, 11, 8⟩
def QRY_Q_CFG_AVG_W : Fld := ⟨R.QRY_Q_CFG, 7, 4⟩
def QRY_Q_DEPTH_CELLS : Fld := ⟨R.QRY_Q_DEPTH, 20, 0⟩
def QRY_Q_AVG_CELLS : Fld := ⟨R.QRY_Q_AVG, 20, 0⟩
def QRY_FE_DROP_COUNT : Fld := ⟨R.QRY_FE_DROP, 31, 0⟩
def QRY_COPY_DROP_COUNT : Fld := ⟨R.QRY_COPY_DROP, 31, 0⟩
def QRY_ECN_MARK_COUNT : Fld := ⟨R.QRY_ECN_MARK, 31, 0⟩
def QRY_ADM_DROP_COUNT : Fld := ⟨R.QRY_ADM_DROP, 31, 0⟩
def QRY_WRED_MIN_MIN : Fld := ⟨R.QRY_WRED_MIN, 20, 0⟩
def QRY_WRED_MAX_MAX : Fld := ⟨R.QRY_WRED_MAX, 20, 0⟩
def QRY_WRED_CTL_EN : Fld := ⟨R.QRY_WRED_CTL, 31, 31⟩
def QRY_WRED_CTL_ECN : Fld := ⟨R.QRY_WRED_CTL, 30, 30⟩
def QRY_WRED_CTL_MAXP : Fld := ⟨R.QRY_WRED_CTL, 8, 0⟩
def QRY_INT_DEPTH_CELLS : Fld := ⟨R.QRY_INT_DEPTH, 20, 0⟩
def QRY_INT_DROP_COUNT : Fld := ⟨R.QRY_INT_DROP, 31, 0⟩
def QRY_ID_WINDOW : Fld := ⟨R.QRY_ID, 31, 24⟩
def QRY_ID_MAJOR : Fld := ⟨R.QRY_ID, 23, 16⟩
def QRY_ID_MINOR : Fld := ⟨R.QRY_ID, 15, 8⟩
def QRY_CFG_COMMIT_BUSY : Fld := ⟨R.QRY_CFG_COMMIT, 31, 31⟩
def QRY_CFG_COMMIT_GO : Fld := ⟨R.QRY_CFG_COMMIT, 0, 0⟩
def SMP_CFG_EN : Fld := ⟨R.SMP_CFG, 31, 31⟩
def SMP_CFG_CLOSE_US : Fld := ⟨R.SMP_CFG, 23, 16⟩
def SMP_CFG_RB_FLOOR : Fld := ⟨R.SMP_CFG, 11, 0⟩
def SMP_STAT_CNFG_MISMATCH : Fld := ⟨R.SMP_STAT, 1, 1⟩
def SMP_STAT_MAP_REJ : Fld := ⟨R.SMP_STAT, 0, 0⟩
def SMP_RB_RSV_CELLS : Fld := ⟨R.SMP_RB_RSV, 20, 0⟩
def SMP_BW_STAT_RB_RATE : Fld := ⟨R.SMP_BW_STAT, 27, 16⟩
def SMP_BW_STAT_WR_CAP : Fld := ⟨R.SMP_BW_STAT, 11, 0⟩
def SMP_CTX_USED_COUNT : Fld := ⟨R.SMP_CTX_USED, 16, 0⟩
def SMP_EXT_FREE_COUNT : Fld := ⟨R.SMP_EXT_FREE, 19, 0⟩
def SMP_EXT_TOTAL_COUNT : Fld := ⟨R.SMP_EXT_TOTAL, 19, 0⟩
def SMP_VOQ_IDX_INDEX : Fld := ⟨R.SMP_VOQ_IDX, 18, 0⟩
def SMP_VOQ_DATA0_SPILLED : Fld := ⟨R.SMP_VOQ_DATA0, 31, 31⟩
def SMP_VOQ_DATA0_BATCHES : Fld := ⟨R.SMP_VOQ_DATA0, 24, 0⟩
def SMP_VOQ_DATA1_CTX : Fld := ⟨R.SMP_VOQ_DATA1, 31, 16⟩
def SMP_VOQ_DATA1_RD_INFL : Fld := ⟨R.SMP_VOQ_DATA1, 15, 13⟩
def SMP_VOQ_DATA1_OPEN_CELLS : Fld := ⟨R.SMP_VOQ_DATA1, 6, 0⟩
def SMP_LVL_WR_CAP : Fld := ⟨R.SMP_LVL, 11, 0⟩
def SMP_REGION_SIZE : Fld := ⟨R.SMP_REGION, 25, 16⟩
def SMP_REGION_BASE : Fld := ⟨R.SMP_REGION, 9, 0⟩
def SMP_CLS_THR_EN : Fld := ⟨R.SMP_CLS_THR, 31, 31⟩
def SMP_CLS_THR_SALPHA : Fld := ⟨R.SMP_CLS_THR, 30, 27⟩
def SMP_CLS_THR_FLOOR : Fld := ⟨R.SMP_CLS_THR, 20, 0⟩
def SMP_CLS_LIM_QUOTA : Fld := ⟨R.SMP_CLS_LIM, 31, 12⟩
def SMP_CLS_LIM_RB_THR : Fld := ⟨R.SMP_CLS_LIM, 11, 0⟩
def SMP_WR_BATCH_COUNT : Fld := ⟨R.SMP_WR_BATCH, 63, 0⟩
def SMP_RD_BATCH_COUNT : Fld := ⟨R.SMP_RD_BATCH, 63, 0⟩
def SMP_FOLD_COUNT : Fld := ⟨R.SMP_FOLD, 63, 0⟩
def SMP_REFUSE_COUNT : Fld := ⟨R.SMP_REFUSE, 31, 0⟩
def SMP_DROP_COUNT : Fld := ⟨R.SMP_DROP, 31, 0⟩
def SMP_ID_WINDOW : Fld := ⟨R.SMP_ID, 31, 24⟩
def SMP_ID_MAJOR : Fld := ⟨R.SMP_ID, 23, 16⟩
def SMP_ID_MINOR : Fld := ⟨R.SMP_ID, 15, 8⟩
def SMP_CFG_COMMIT_BUSY : Fld := ⟨R.SMP_CFG_COMMIT, 31, 31⟩
def SMP_CFG_COMMIT_GO : Fld := ⟨R.SMP_CFG_COMMIT, 0, 0⟩
def CXL_CTL_MAX_WIDTH : Fld := ⟨R.CXL_CTL, 5, 4⟩
def CXL_CTL_MAX_SPEED : Fld := ⟨R.CXL_CTL, 3, 2⟩
def CXL_CTL_RETRAIN : Fld := ⟨R.CXL_CTL, 1, 1⟩
def CXL_CTL_EN : Fld := ⟨R.CXL_CTL, 0, 0⟩
def CXL_STAT_CAP : Fld := ⟨R.CXL_STAT, 31, 22⟩
def CXL_STAT_ENUM_ERR : Fld := ⟨R.CXL_STAT, 21, 18⟩
def CXL_STAT_WIDTH : Fld := ⟨R.CXL_STAT, 7, 6⟩
def CXL_STAT_SPEED : Fld := ⟨R.CXL_STAT, 5, 4⟩
def CXL_STAT_FLIT256 : Fld := ⟨R.CXL_STAT, 3, 3⟩
def CXL_STAT_MEM_READY : Fld := ⟨R.CXL_STAT, 2, 2⟩
def CXL_STAT_LINK_UP : Fld := ⟨R.CXL_STAT, 1, 1⟩
def CXL_STAT_ENUM_DONE : Fld := ⟨R.CXL_STAT, 0, 0⟩
def CXL_ERR_VIRAL : Fld := ⟨R.CXL_ERR, 4, 4⟩
def CXL_ERR_LINK_DOWN : Fld := ⟨R.CXL_ERR, 3, 3⟩
def CXL_ERR_UNCOR : Fld := ⟨R.CXL_ERR, 2, 2⟩
def CXL_ERR_POISON : Fld := ⟨R.CXL_ERR, 1, 1⟩
def CXL_ERR_CE : Fld := ⟨R.CXL_ERR, 0, 0⟩
def CXL_RETRY_CNT_COUNT : Fld := ⟨R.CXL_RETRY_CNT, 63, 0⟩
def CXL_POISON_CNT_COUNT : Fld := ⟨R.CXL_POISON_CNT, 31, 0⟩
def CXL_LINK_DOWN_CNT_COUNT : Fld := ⟨R.CXL_LINK_DOWN_CNT, 31, 0⟩
def CXL_ID_WINDOW : Fld := ⟨R.CXL_ID, 31, 24⟩
def CXL_ID_MAJOR : Fld := ⟨R.CXL_ID, 23, 16⟩
def CXL_ID_MINOR : Fld := ⟨R.CXL_ID, 15, 8⟩
def CXL_CFG_COMMIT_BUSY : Fld := ⟨R.CXL_CFG_COMMIT, 31, 31⟩
def CXL_CFG_COMMIT_GO : Fld := ⟨R.CXL_CFG_COMMIT, 0, 0⟩
def EGR_PORT_CFG_OVHD : Fld := ⟨R.EGR_PORT_CFG, 31, 24⟩
def EGR_PORT_CFG_GROW : Fld := ⟨R.EGR_PORT_CFG, 23, 17⟩
def EGR_PORT_CFG_DOWN_HOLD : Fld := ⟨R.EGR_PORT_CFG, 16, 7⟩
def EGR_PORT_CFG_PAUSE_RX_EN : Fld := ⟨R.EGR_PORT_CFG, 2, 2⟩
def EGR_PORT_CFG_PFC_RX_EN : Fld := ⟨R.EGR_PORT_CFG, 1, 1⟩
def EGR_PORT_CFG_GATE_EN : Fld := ⟨R.EGR_PORT_CFG, 0, 0⟩
def EGR_PORT_STAT_WD_TRIP : Fld := ⟨R.EGR_PORT_STAT, 23, 16⟩
def EGR_PORT_STAT_PAUSED : Fld := ⟨R.EGR_PORT_STAT, 15, 8⟩
def EGR_PORT_STAT_GCL_REJ : Fld := ⟨R.EGR_PORT_STAT, 4, 4⟩
def EGR_PORT_STAT_PAUSE_ALL : Fld := ⟨R.EGR_PORT_STAT, 3, 3⟩
def EGR_PORT_STAT_FLUSH : Fld := ⟨R.EGR_PORT_STAT, 2, 2⟩
def EGR_PORT_STAT_OPER_BANK : Fld := ⟨R.EGR_PORT_STAT, 1, 1⟩
def EGR_PORT_STAT_PEND : Fld := ⟨R.EGR_PORT_STAT, 0, 0⟩
def EGR_PFCWD_EN : Fld := ⟨R.EGR_PFCWD, 31, 31⟩
def EGR_PFCWD_ACTION : Fld := ⟨R.EGR_PFCWD, 30, 30⟩
def EGR_PFCWD_RESTORE : Fld := ⟨R.EGR_PFCWD, 27, 16⟩
def EGR_PFCWD_DETECT : Fld := ⟨R.EGR_PFCWD, 11, 0⟩
def EGR_GCL_CTL_GO : Fld := ⟨R.EGR_GCL_CTL, 31, 31⟩
def EGR_GCL_CTL_NEW_BANK : Fld := ⟨R.EGR_GCL_CTL, 30, 30⟩
def EGR_RX_PAUSE_COUNT : Fld := ⟨R.EGR_RX_PAUSE, 31, 0⟩
def EGR_RX_CTL_BAD_COUNT : Fld := ⟨R.EGR_RX_CTL_BAD, 31, 0⟩
def EGR_GATE_OVERRUN_COUNT : Fld := ⟨R.EGR_GATE_OVERRUN, 31, 0⟩
def EGR_Q_CFG_LEVEL : Fld := ⟨R.EGR_Q_CFG, 31, 29⟩
def EGR_Q_CFG_DEFER : Fld := ⟨R.EGR_Q_CFG, 28, 28⟩
def EGR_Q_CFG_PFC_PRI : Fld := ⟨R.EGR_Q_CFG, 27, 24⟩
def EGR_Q_CFG_QUANTUM : Fld := ⟨R.EGR_Q_CFG, 23, 12⟩
def EGR_DROP_COUNT : Fld := ⟨R.EGR_DROP, 31, 0⟩
def EGR_RX_PFC_COUNT : Fld := ⟨R.EGR_RX_PFC, 31, 0⟩
def EGR_WD_TRIP_CNT_COUNT : Fld := ⟨R.EGR_WD_TRIP_CNT, 31, 0⟩
def EGR_GCL_ADDR_WR : Fld := ⟨R.EGR_GCL_ADDR, 31, 31⟩
def EGR_GCL_ADDR_RD : Fld := ⟨R.EGR_GCL_ADDR, 30, 30⟩
def EGR_GCL_ADDR_BANK : Fld := ⟨R.EGR_GCL_ADDR, 29, 29⟩
def EGR_GCL_ADDR_TARGET : Fld := ⟨R.EGR_GCL_ADDR, 28, 28⟩
def EGR_GCL_ADDR_PORT : Fld := ⟨R.EGR_GCL_ADDR, 25, 16⟩
def EGR_GCL_ADDR_ENTRY : Fld := ⟨R.EGR_GCL_ADDR, 5, 0⟩
def EGR_GCL_DATA_DATA : Fld := ⟨R.EGR_GCL_DATA, 31, 0⟩
def EGR_STAT_GCL_WR_REJ : Fld := ⟨R.EGR_STAT, 0, 0⟩
def EGR_ID_WINDOW : Fld := ⟨R.EGR_ID, 31, 24⟩
def EGR_ID_MAJOR : Fld := ⟨R.EGR_ID, 23, 16⟩
def EGR_ID_MINOR : Fld := ⟨R.EGR_ID, 15, 8⟩
def EGR_CFG_COMMIT_BUSY : Fld := ⟨R.EGR_CFG_COMMIT, 31, 31⟩
def EGR_CFG_COMMIT_GO : Fld := ⟨R.EGR_CFG_COMMIT, 0, 0⟩
def LEHR_Q_RATE_RATE : Fld := ⟨R.LEHR_Q_RATE, 20, 0⟩
def LEHR_Q_BURST_BYTES : Fld := ⟨R.LEHR_Q_BURST, 23, 0⟩
def LEHR_SCALE_FACTOR : Fld := ⟨R.LEHR_SCALE, 8, 0⟩
def LEHR_NOW_V : Fld := ⟨R.LEHR_NOW, 63, 0⟩
def LEHR_Q_IDX_QUEUE : Fld := ⟨R.LEHR_Q_IDX, 13, 0⟩
def LEHR_Q_DATA_ON_WHEEL : Fld := ⟨R.LEHR_Q_DATA, 63, 63⟩
def LEHR_Q_DATA_OVERFLOW : Fld := ⟨R.LEHR_Q_DATA, 62, 62⟩
def LEHR_Q_DATA_E : Fld := ⟨R.LEHR_Q_DATA, 47, 0⟩
def LEHR_STAT_LEVEL : Fld := ⟨R.LEHR_STAT, 1, 0⟩
def LEHR_ID_WINDOW : Fld := ⟨R.LEHR_ID, 31, 24⟩
def LEHR_ID_MAJOR : Fld := ⟨R.LEHR_ID, 23, 16⟩
def LEHR_ID_MINOR : Fld := ⟨R.LEHR_ID, 15, 8⟩
def LEHR_CFG_COMMIT_BUSY : Fld := ⟨R.LEHR_CFG_COMMIT, 31, 31⟩
def LEHR_CFG_COMMIT_GO : Fld := ⟨R.LEHR_CFG_COMMIT, 0, 0⟩
def PNT_CFG_EN : Fld := ⟨R.PNT_CFG, 31, 31⟩
def PNT_CFG_RING : Fld := ⟨R.PNT_CFG, 7, 0⟩
def PNT_RATE_KSPS : Fld := ⟨R.PNT_RATE, 23, 0⟩
def PNT_RATE_DROP_COUNT : Fld := ⟨R.PNT_RATE_DROP, 31, 0⟩
def PNT_PORT_CFG_EN : Fld := ⟨R.PNT_PORT_CFG, 31, 31⟩
def PNT_PORT_CFG_RAND : Fld := ⟨R.PNT_PORT_CFG, 30, 30⟩
def PNT_PORT_CFG_N_M1 : Fld := ⟨R.PNT_PORT_CFG, 23, 0⟩
def PNT_PORT_LEN_LEN : Fld := ⟨R.PNT_PORT_LEN, 12, 0⟩
def PNT_SEL_COUNT : Fld := ⟨R.PNT_SEL, 63, 0⟩
def PNT_SEL_FAIL_COUNT : Fld := ⟨R.PNT_SEL_FAIL, 31, 0⟩
def PNT_DROP_SPACE_COUNT : Fld := ⟨R.PNT_DROP_SPACE, 31, 0⟩
def PNT_SEQ_COUNT : Fld := ⟨R.PNT_SEQ, 31, 0⟩
def PNT_ID_WINDOW : Fld := ⟨R.PNT_ID, 31, 24⟩
def PNT_ID_MAJOR : Fld := ⟨R.PNT_ID, 23, 16⟩
def PNT_ID_MINOR : Fld := ⟨R.PNT_ID, 15, 8⟩
def PNT_CFG_COMMIT_BUSY : Fld := ⟨R.PNT_CFG_COMMIT, 31, 31⟩
def PNT_CFG_COMMIT_GO : Fld := ⟨R.PNT_CFG_COMMIT, 0, 0⟩
def GTH_CFG_ENG_EN : Fld := ⟨R.GTH_CFG, 31, 24⟩
def GTH_CFG_ERR_QUEUE : Fld := ⟨R.GTH_CFG, 19, 16⟩
def GTH_CFG_TTL : Fld := ⟨R.GTH_CFG, 15, 8⟩
def GTH_CFG_DEF_ENG : Fld := ⟨R.GTH_CFG, 2, 0⟩
def GTH_UDP_PORT_PORT : Fld := ⟨R.GTH_UDP_PORT, 15, 0⟩
def GTH_ANS_RATE_KPPS : Fld := ⟨R.GTH_ANS_RATE, 19, 0⟩
def GTH_UNSERVED_COUNT : Fld := ⟨R.GTH_UNSERVED, 31, 0⟩
def GTH_DIR_IDX_SLOT : Fld := ⟨R.GTH_DIR_IDX, 11, 0⟩
def GTH_EP_CTL_EN : Fld := ⟨R.GTH_EP_CTL, 31, 31⟩
def GTH_EP_CTL_FAM : Fld := ⟨R.GTH_EP_CTL, 30, 30⟩
def GTH_EP_ADDR_ADDR : Fld := ⟨R.GTH_EP_ADDR, 31, 0⟩
def GTH_EP_MAC_HI_MAC_HI : Fld := ⟨R.GTH_EP_MAC_HI, 15, 0⟩
def GTH_EP_MAC_LO_MAC_LO : Fld := ⟨R.GTH_EP_MAC_LO, 31, 0⟩
def GTH_LVL_BURST : Fld := ⟨R.GTH_LVL, 31, 16⟩
def GTH_LVL_RATE : Fld := ⟨R.GTH_LVL, 15, 0⟩
def GTH_DIR_DATA_VALID : Fld := ⟨R.GTH_DIR_DATA, 31, 31⟩
def GTH_DIR_DATA_ENGINES : Fld := ⟨R.GTH_DIR_DATA, 30, 23⟩
def GTH_DIR_DATA_GROUP : Fld := ⟨R.GTH_DIR_DATA, 19, 0⟩
def GTH_DIR_GEN_GEN : Fld := ⟨R.GTH_DIR_GEN, 31, 0⟩
def GTH_DIR_NEXT_NEXT : Fld := ⟨R.GTH_DIR_NEXT, 31, 0⟩
def GTH_DIR_OLDEST_OLDEST : Fld := ⟨R.GTH_DIR_OLDEST, 31, 0⟩
def GTH_THR_HOLD : Fld := ⟨R.GTH_THR, 31, 31⟩
def GTH_THR_GAP_US : Fld := ⟨R.GTH_THR, 15, 0⟩
def GTH_ENG_STAT_TOKENS : Fld := ⟨R.GTH_ENG_STAT, 31, 12⟩
def GTH_ENG_STAT_CTX_USED : Fld := ⟨R.GTH_ENG_STAT, 9, 0⟩
def GTH_RX_COUNT : Fld := ⟨R.GTH_RX, 63, 0⟩
def GTH_BYTES_COUNT : Fld := ⟨R.GTH_BYTES, 63, 0⟩
def GTH_DUP_COUNT : Fld := ⟨R.GTH_DUP, 31, 0⟩
def GTH_RESEND_COUNT : Fld := ⟨R.GTH_RESEND, 31, 0⟩
def GTH_NAK_TX_COUNT : Fld := ⟨R.GTH_NAK_TX, 31, 0⟩
def GTH_ERR_TX_COUNT : Fld := ⟨R.GTH_ERR_TX, 31, 0⟩
def GTH_ANS_DROP_COUNT : Fld := ⟨R.GTH_ANS_DROP, 31, 0⟩
def GTH_STRAG_COUNT : Fld := ⟨R.GTH_STRAG, 31, 0⟩
def GTH_HOLD_EXP_COUNT : Fld := ⟨R.GTH_HOLD_EXP, 31, 0⟩
def GTH_RX_BAD_COUNT : Fld := ⟨R.GTH_RX_BAD, 31, 0⟩
def GTH_SAT_COUNT : Fld := ⟨R.GTH_SAT, 31, 0⟩
def GTH_ID_WINDOW : Fld := ⟨R.GTH_ID, 31, 24⟩
def GTH_ID_MAJOR : Fld := ⟨R.GTH_ID, 23, 16⟩
def GTH_ID_MINOR : Fld := ⟨R.GTH_ID, 15, 8⟩
def GTH_CFG_COMMIT_BUSY : Fld := ⟨R.GTH_CFG_COMMIT, 31, 31⟩
def GTH_CFG_COMMIT_GO : Fld := ⟨R.GTH_CFG_COMMIT, 0, 0⟩
def ANL_CFG_EN : Fld := ⟨R.ANL_CFG, 31, 31⟩
def ANL_CFG_PRIO : Fld := ⟨R.ANL_CFG, 30, 28⟩
def ANL_CFG_IDLE_OPP : Fld := ⟨R.ANL_CFG, 27, 24⟩
def ANL_CFG_OPP_MIN : Fld := ⟨R.ANL_CFG, 23, 20⟩
def ANL_CFG_EVQ : Fld := ⟨R.ANL_CFG, 7, 0⟩
def ANL_CAP_W : Fld := ⟨R.ANL_CAP, 10, 0⟩
def ANL_STAT_OPP_CUR : Fld := ⟨R.ANL_STAT, 31, 28⟩
def ANL_STAT_OPP_CEIL : Fld := ⟨R.ANL_STAT, 27, 24⟩
def ANL_STAT_SEQ : Fld := ⟨R.ANL_STAT, 23, 20⟩
def ANL_STAT_COMMIT_REJ : Fld := ⟨R.ANL_STAT, 11, 11⟩
def ANL_STAT_CNFG_MISMATCH : Fld := ⟨R.ANL_STAT, 10, 10⟩
def ANL_STAT_ALERT : Fld := ⟨R.ANL_STAT, 9, 9⟩
def ANL_STAT_RD_HOT : Fld := ⟨R.ANL_STAT, 8, 8⟩
def ANL_STAT_THERM_CRIT : Fld := ⟨R.ANL_STAT, 7, 7⟩
def ANL_STAT_THERM_ONSET : Fld := ⟨R.ANL_STAT, 6, 6⟩
def ANL_STAT_TLM_LOST : Fld := ⟨R.ANL_STAT, 5, 5⟩
def ANL_STAT_DIVERGED : Fld := ⟨R.ANL_STAT, 4, 4⟩
def ANL_STAT_HEAVY : Fld := ⟨R.ANL_STAT, 3, 3⟩
def ANL_STAT_LEVEL : Fld := ⟨R.ANL_STAT, 1, 0⟩
def ANL_LVL_THR_T3 : Fld := ⟨R.ANL_LVL_THR, 31, 21⟩
def ANL_LVL_THR_T2 : Fld := ⟨R.ANL_LVL_THR, 20, 10⟩
def ANL_LVL_THR_T1 : Fld := ⟨R.ANL_LVL_THR, 9, 0⟩
def ANL_LVL_HYS_DWELL : Fld := ⟨R.ANL_LVL_HYS, 23, 16⟩
def ANL_LVL_HYS_HYST : Fld := ⟨R.ANL_LVL_HYS, 7, 0⟩
def ANL_PWR_STAT_BASE : Fld := ⟨R.ANL_PWR_STAT, 26, 16⟩
def ANL_PWR_STAT_ENF : Fld := ⟨R.ANL_PWR_STAT, 10, 0⟩
def ANL_PWR_MEAS_MODEL : Fld := ⟨R.ANL_PWR_MEAS, 26, 16⟩
def ANL_PWR_MEAS_MEAS : Fld := ⟨R.ANL_PWR_MEAS, 10, 0⟩
def ANL_LIMITS_CAP_EFF : Fld := ⟨R.ANL_LIMITS, 26, 16⟩
def ANL_LIMITS_A : Fld := ⟨R.ANL_LIMITS, 11, 0⟩
def ANL_DIVERGE_GUARD_PCT : Fld := ⟨R.ANL_DIVERGE, 15, 8⟩
def ANL_DIVERGE_PCT : Fld := ⟨R.ANL_DIVERGE, 7, 0⟩
def ANL_HEAVY_VBOOST_MV : Fld := ⟨R.ANL_HEAVY, 31, 24⟩
def ANL_HEAVY_RES_W : Fld := ⟨R.ANL_HEAVY, 23, 12⟩
def ANL_HEAVY_WAIT_US : Fld := ⟨R.ANL_HEAVY, 11, 0⟩
def ANL_AVS_MODE : Fld := ⟨R.ANL_AVS, 31, 31⟩
def ANL_AVS_FIXED_MV : Fld := ⟨R.ANL_AVS, 25, 16⟩
def ANL_AVS_STEP_MV : Fld := ⟨R.ANL_AVS, 15, 8⟩
def ANL_AVS_SETTLE_US : Fld := ⟨R.ANL_AVS, 7, 0⟩
def ANL_AVS_STAT_GUARD_MV : Fld := ⟨R.ANL_AVS_STAT, 31, 26⟩
def ANL_AVS_STAT_VCMD_MV : Fld := ⟨R.ANL_AVS_STAT, 25, 16⟩
def ANL_AVS_STAT_VMIN_MV : Fld := ⟨R.ANL_AVS_STAT, 9, 0⟩
def ANL_DROOP_LIMIT : Fld := ⟨R.ANL_DROOP, 31, 24⟩
def ANL_DROOP_THR_MV : Fld := ⟨R.ANL_DROOP, 23, 16⟩
def ANL_DROOP_GUARD_STEP : Fld := ⟨R.ANL_DROOP, 15, 11⟩
def ANL_DROOP_GUARD_MAX : Fld := ⟨R.ANL_DROOP, 10, 5⟩
def ANL_DROOP_STRETCH_NS : Fld := ⟨R.ANL_DROOP, 4, 0⟩
def ANL_THERM_ONSET : Fld := ⟨R.ANL_THERM, 31, 24⟩
def ANL_THERM_CRIT : Fld := ⟨R.ANL_THERM, 23, 16⟩
def ANL_THERM_SLOPE : Fld := ⟨R.ANL_THERM, 15, 8⟩
def ANL_TEMP_HOT : Fld := ⟨R.ANL_TEMP, 27, 16⟩
def ANL_TEMP_AVG : Fld := ⟨R.ANL_TEMP, 11, 0⟩
def ANL_PMB_CFG_EN : Fld := ⟨R.ANL_PMB_CFG, 31, 31⟩
def ANL_PMB_CFG_SPEED : Fld := ⟨R.ANL_PMB_CFG, 30, 30⟩
def ANL_PMB_CFG_NRAIL_M1 : Fld := ⟨R.ANL_PMB_CFG, 26, 24⟩
def ANL_PMB_CFG_LOSS_N : Fld := ⟨R.ANL_PMB_CFG, 7, 0⟩
def ANL_SAG_INHIBIT : Fld := ⟨R.ANL_SAG, 31, 31⟩
def ANL_SAG_IO_LOW : Fld := ⟨R.ANL_SAG, 30, 30⟩
def ANL_SAG_AON_LOW : Fld := ⟨R.ANL_SAG, 29, 29⟩
def ANL_SAG_FLASH_UNCERTAIN : Fld := ⟨R.ANL_SAG, 2, 2⟩
def ANL_SAG_OTP_ABORT : Fld := ⟨R.ANL_SAG, 1, 1⟩
def ANL_SAG_SEEN : Fld := ⟨R.ANL_SAG, 0, 0⟩
def ANL_DIV_CNT_COUNT : Fld := ⟨R.ANL_DIV_CNT, 31, 0⟩
def ANL_PMB_ERR_COUNT : Fld := ⟨R.ANL_PMB_ERR, 31, 0⟩
def ANL_CLS_FLOOR : Fld := ⟨R.ANL_CLS, 10, 0⟩
def ANL_CLS_STAT_GRANT : Fld := ⟨R.ANL_CLS_STAT, 26, 16⟩
def ANL_CLS_STAT_DEMAND : Fld := ⟨R.ANL_CLS_STAT, 10, 0⟩
def ANL_PHASE_OPP_P : Fld := ⟨R.ANL_PHASE_OPP, 63, 0⟩
def ANL_RDIODE_CTL_EN : Fld := ⟨R.ANL_RDIODE_CTL, 31, 31⟩
def ANL_RDIODE_CTL_LEVEL : Fld := ⟨R.ANL_RDIODE_CTL, 29, 28⟩
def ANL_RDIODE_CTL_LIMIT : Fld := ⟨R.ANL_RDIODE_CTL, 23, 16⟩
def ANL_RDIODE_STAT_OPEN : Fld := ⟨R.ANL_RDIODE_STAT, 31, 31⟩
def ANL_RDIODE_STAT_T : Fld := ⟨R.ANL_RDIODE_STAT, 11, 0⟩
def ANL_PMB_RAIL_ADDR : Fld := ⟨R.ANL_PMB_RAIL, 22, 16⟩
def ANL_PMB_RAIL_PAGE : Fld := ⟨R.ANL_PMB_RAIL, 15, 8⟩
def ANL_PMB_RAIL_KIND : Fld := ⟨R.ANL_PMB_RAIL, 2, 0⟩
def ANL_PMB_MEAS_VALID : Fld := ⟨R.ANL_PMB_MEAS, 31, 31⟩
def ANL_PMB_MEAS_POWER : Fld := ⟨R.ANL_PMB_MEAS, 15, 0⟩
def ANL_OPP_VCORE_MV : Fld := ⟨R.ANL_OPP, 25, 16⟩
def ANL_OPP_PRIO_EN : Fld := ⟨R.ANL_OPP, 3, 3⟩
def ANL_OPP_PRIO : Fld := ⟨R.ANL_OPP, 2, 0⟩
def ANL_TEMP_SENS_T : Fld := ⟨R.ANL_TEMP_SENS, 11, 0⟩
def ANL_COEF_VALUE : Fld := ⟨R.ANL_COEF, 23, 0⟩
def ANL_STATIC_VALUE : Fld := ⟨R.ANL_STATIC, 23, 0⟩
def ANL_LVL_CNT_COUNT : Fld := ⟨R.ANL_LVL_CNT, 63, 0⟩
def ANL_DROOP_CNT_COUNT : Fld := ⟨R.ANL_DROOP_CNT, 31, 0⟩
def ANL_ENERGY_TOTAL_COUNT : Fld := ⟨R.ANL_ENERGY_TOTAL, 63, 0⟩
def ANL_RING_ENERGY_COUNT : Fld := ⟨R.ANL_RING_ENERGY, 63, 0⟩
def ANL_ID_WINDOW : Fld := ⟨R.ANL_ID, 31, 24⟩
def ANL_ID_MAJOR : Fld := ⟨R.ANL_ID, 23, 16⟩
def ANL_ID_MINOR : Fld := ⟨R.ANL_ID, 15, 8⟩
def ANL_CFG_COMMIT_BUSY : Fld := ⟨R.ANL_CFG_COMMIT, 31, 31⟩
def ANL_CFG_COMMIT_GO : Fld := ⟨R.ANL_CFG_COMMIT, 0, 0⟩
def TLM_TIME_NS_NS : Fld := ⟨R.TLM_TIME_NS, 63, 0⟩
def TLM_TIME_FRAC_FRAC : Fld := ⟨R.TLM_TIME_FRAC, 15, 0⟩
def TLM_TIME_TRIM_TRIM : Fld := ⟨R.TLM_TIME_TRIM, 31, 0⟩
def TLM_TIME_STEP_STEP : Fld := ⟨R.TLM_TIME_STEP, 63, 0⟩
def TLM_TIME_CTL_SET : Fld := ⟨R.TLM_TIME_CTL, 1, 1⟩
def TLM_TIME_CTL_STEP : Fld := ⟨R.TLM_TIME_CTL, 0, 0⟩
def TLM_HIST_CFG_BASE_NS : Fld := ⟨R.TLM_HIST_CFG, 15, 0⟩
def TLM_QS_CFG_EN : Fld := ⟨R.TLM_QS_CFG, 31, 31⟩
def TLM_QS_CFG_PERIOD_US : Fld := ⟨R.TLM_QS_CFG, 15, 0⟩
def TLM_QS_MIN_CELLS : Fld := ⟨R.TLM_QS_MIN, 20, 0⟩
def TLM_TSCAP_CFG_EN : Fld := ⟨R.TLM_TSCAP_CFG, 31, 31⟩
def TLM_TSCAP_CFG_CLASS : Fld := ⟨R.TLM_TSCAP_CFG, 20, 16⟩
def TLM_TSCAP_CFG_KEY_SLOT : Fld := ⟨R.TLM_TSCAP_CFG, 14, 12⟩
def TLM_TSCAP_CFG_KEY_OFF : Fld := ⟨R.TLM_TSCAP_CFG, 7, 0⟩
def TLM_STAT_QS_OVERRUN : Fld := ⟨R.TLM_STAT, 0, 0⟩
def TLM_QS_SKIP_COUNT : Fld := ⟨R.TLM_QS_SKIP, 31, 0⟩
def TLM_HQ_IDX_CLR : Fld := ⟨R.TLM_HQ_IDX, 31, 31⟩
def TLM_HQ_IDX_QUEUE : Fld := ⟨R.TLM_HQ_IDX, 13, 0⟩
def TLM_STREAM_CFG_EN : Fld := ⟨R.TLM_STREAM_CFG, 31, 31⟩
def TLM_STREAM_CFG_DEST : Fld := ⟨R.TLM_STREAM_CFG, 30, 30⟩
def TLM_STREAM_CFG_FLUSH_US : Fld := ⟨R.TLM_STREAM_CFG, 23, 8⟩
def TLM_STREAM_CFG_RING : Fld := ⟨R.TLM_STREAM_CFG, 7, 0⟩
def TLM_STREAM_DROP_COUNT : Fld := ⟨R.TLM_STREAM_DROP, 31, 0⟩
def TLM_STREAM_SEQ_SEQ : Fld := ⟨R.TLM_STREAM_SEQ, 31, 0⟩
def TLM_IOAM_CNT_COUNT : Fld := ⟨R.TLM_IOAM_CNT, 31, 0⟩
def TLM_HQ_DATA_DATA : Fld := ⟨R.TLM_HQ_DATA, 31, 0⟩
def TLM_IOAM_NS_ID_EN : Fld := ⟨R.TLM_IOAM_NS_ID, 31, 31⟩
def TLM_IOAM_NS_ID_NS_ID : Fld := ⟨R.TLM_IOAM_NS_ID, 15, 0⟩
def TLM_IOAM_NS_NODE_S_NODE_S : Fld := ⟨R.TLM_IOAM_NS_NODE_S, 23, 0⟩
def TLM_IOAM_NS_NODE_W_LO_NODE_W_LO : Fld := ⟨R.TLM_IOAM_NS_NODE_W_LO, 31, 0⟩
def TLM_IOAM_NS_NODE_W_HI_NODE_W_HI : Fld := ⟨R.TLM_IOAM_NS_NODE_W_HI, 23, 0⟩
def TLM_IOAM_NS_DATA_S_DATA_S : Fld := ⟨R.TLM_IOAM_NS_DATA_S, 31, 0⟩
def TLM_IOAM_NS_DATA_W_LO_DATA_W_LO : Fld := ⟨R.TLM_IOAM_NS_DATA_W_LO, 31, 0⟩
def TLM_IOAM_NS_DATA_W_HI_DATA_W_HI : Fld := ⟨R.TLM_IOAM_NS_DATA_W_HI, 31, 0⟩
def TLM_PORT_CFG_HIST : Fld := ⟨R.TLM_PORT_CFG, 1, 1⟩
def TLM_PORT_CFG_TSCAP : Fld := ⟨R.TLM_PORT_CFG, 0, 0⟩
def TLM_TS_ADJ_TX_ADJ : Fld := ⟨R.TLM_TS_ADJ, 31, 16⟩
def TLM_TS_ADJ_RX_ADJ : Fld := ⟨R.TLM_TS_ADJ, 15, 0⟩
def TLM_QS_PORT_QMASK : Fld := ⟨R.TLM_QS_PORT, 11, 0⟩
def TLM_ID_WINDOW : Fld := ⟨R.TLM_ID, 31, 24⟩
def TLM_ID_MAJOR : Fld := ⟨R.TLM_ID, 23, 16⟩
def TLM_ID_MINOR : Fld := ⟨R.TLM_ID, 15, 8⟩
def TLM_CFG_COMMIT_BUSY : Fld := ⟨R.TLM_CFG_COMMIT, 31, 31⟩
def TLM_CFG_COMMIT_GO : Fld := ⟨R.TLM_CFG_COMMIT, 0, 0⟩
def CUL_CFG_EN : Fld := ⟨R.CUL_CFG, 31, 31⟩
def CUL_CFG_MASK : Fld := ⟨R.CUL_CFG, 6, 0⟩
def CUL_STAT_IDS_USED : Fld := ⟨R.CUL_STAT, 12, 0⟩
def CUL_RATE_EN : Fld := ⟨R.CUL_RATE, 31, 31⟩
def CUL_RATE_N_M1 : Fld := ⟨R.CUL_RATE, 23, 0⟩
def CUL_PORTS_PORTS : Fld := ⟨R.CUL_PORTS, 31, 0⟩
def CUL_NO_ID_COUNT : Fld := ⟨R.CUL_NO_ID, 31, 0⟩
def CUL_TAGGED_COUNT : Fld := ⟨R.CUL_TAGGED, 63, 0⟩
def CUL_ID_WINDOW : Fld := ⟨R.CUL_ID, 31, 24⟩
def CUL_ID_MAJOR : Fld := ⟨R.CUL_ID, 23, 16⟩
def CUL_ID_MINOR : Fld := ⟨R.CUL_ID, 15, 8⟩
def CUL_CFG_COMMIT_BUSY : Fld := ⟨R.CUL_CFG_COMMIT, 31, 31⟩
def CUL_CFG_COMMIT_GO : Fld := ⟨R.CUL_CFG_COMMIT, 0, 0⟩
def PMC_CYC_COUNT : Fld := ⟨R.PMC_CYC, 63, 0⟩
def PMC_CNT_COUNT : Fld := ⟨R.PMC_CNT, 47, 0⟩
def PMC_EVSEL_SMP : Fld := ⟨R.PMC_EVSEL, 31, 31⟩
def PMC_EVSEL_EVENT : Fld := ⟨R.PMC_EVSEL, 7, 0⟩
def PMC_UCTL_CHAIN : Fld := ⟨R.PMC_UCTL, 3, 0⟩
def PMC_PERM_USER : Fld := ⟨R.PMC_PERM, 31, 31⟩
def PMC_PERM_VF : Fld := ⟨R.PMC_PERM, 4, 0⟩
def PMC_OVF_OVF : Fld := ⟨R.PMC_OVF, 7, 0⟩
def PMC_GCTL_FREEZE : Fld := ⟨R.PMC_GCTL, 31, 31⟩
def PMC_GCTL_VIEW : Fld := ⟨R.PMC_GCTL, 30, 30⟩
def PMC_GCTL_SNAP : Fld := ⟨R.PMC_GCTL, 0, 0⟩
def PMC_SNAP_PERIOD_TICKS : Fld := ⟨R.PMC_SNAP_PERIOD, 15, 0⟩
def PMC_SNAP_TIME_NS : Fld := ⟨R.PMC_SNAP_TIME, 63, 0⟩
def PMC_SNAP_SEQ_SEQ : Fld := ⟨R.PMC_SNAP_SEQ, 31, 0⟩
def PMC_ID_WINDOW : Fld := ⟨R.PMC_ID, 31, 24⟩
def PMC_ID_MAJOR : Fld := ⟨R.PMC_ID, 23, 16⟩
def PMC_ID_MINOR : Fld := ⟨R.PMC_ID, 15, 8⟩
def PMC_CFG_COMMIT_BUSY : Fld := ⟨R.PMC_CFG_COMMIT, 31, 31⟩
def PMC_CFG_COMMIT_GO : Fld := ⟨R.PMC_CFG_COMMIT, 0, 0⟩
def HIF_CFG_PH_RETRY : Fld := ⟨R.HIF_CFG, 11, 8⟩
def HIF_CFG_PREFETCH : Fld := ⟨R.HIF_CFG, 3, 0⟩
def HIF_CTL_RESET : Fld := ⟨R.HIF_CTL, 0, 0⟩
def HIF_STAT_RST_BUSY : Fld := ⟨R.HIF_STAT, 31, 31⟩
def HIF_STAT_CNFG_MISMATCH : Fld := ⟨R.HIF_STAT, 30, 30⟩
def HIF_STAT_WIDTH : Fld := ⟨R.HIF_STAT, 12, 8⟩
def HIF_STAT_SPEED : Fld := ⟨R.HIF_STAT, 7, 4⟩
def HIF_STAT_FLIT : Fld := ⟨R.HIF_STAT, 3, 3⟩
def HIF_STAT_LINK_UP : Fld := ⟨R.HIF_STAT, 0, 0⟩
def HIF_CQ_STALL_TMO_MS : Fld := ⟨R.HIF_CQ_STALL_TMO, 15, 0⟩
def HIF_EVQ_CFG_RING : Fld := ⟨R.HIF_EVQ_CFG, 31, 24⟩
def HIF_EVQ_CFG_FAULT : Fld := ⟨R.HIF_EVQ_CFG, 23, 16⟩
def HIF_EVQ_CFG_PORT : Fld := ⟨R.HIF_EVQ_CFG, 15, 8⟩
def HIF_EVQ_CFG_LINK : Fld := ⟨R.HIF_EVQ_CFG, 7, 0⟩
def HIF_EVQ_EN_RING : Fld := ⟨R.HIF_EVQ_EN, 3, 3⟩
def HIF_EVQ_EN_FAULT : Fld := ⟨R.HIF_EVQ_EN, 2, 2⟩
def HIF_EVQ_EN_PORT : Fld := ⟨R.HIF_EVQ_EN, 1, 1⟩
def HIF_EVQ_EN_LINK : Fld := ⟨R.HIF_EVQ_EN, 0, 0⟩
def HIF_EVT_LOST_COUNT : Fld := ⟨R.HIF_EVT_LOST, 31, 0⟩
def HIF_RX_UNMAPPED_COUNT : Fld := ⟨R.HIF_RX_UNMAPPED, 31, 0⟩
def HIF_DMA_ERR_COUNT : Fld := ⟨R.HIF_DMA_ERR, 31, 0⟩
def HIF_CQ_STALL_CNT_COUNT : Fld := ⟨R.HIF_CQ_STALL_CNT, 31, 0⟩
def HIF_FUNC_PERM_CLASS : Fld := ⟨R.HIF_FUNC_PERM, 4, 0⟩
def HIF_VF_MAP_COUNT : Fld := ⟨R.HIF_VF_MAP, 20, 16⟩
def HIF_VF_MAP_FIRST : Fld := ⟨R.HIF_VF_MAP, 7, 0⟩
def HIF_RX_FRAMES_COUNT : Fld := ⟨R.HIF_RX_FRAMES, 63, 0⟩
def HIF_INJ_FRAMES_COUNT : Fld := ⟨R.HIF_INJ_FRAMES, 63, 0⟩
def HIF_TRAP_MAP_EN : Fld := ⟨R.HIF_TRAP_MAP, 31, 31⟩
def HIF_TRAP_MAP_RING : Fld := ⟨R.HIF_TRAP_MAP, 7, 0⟩
def HIF_MIRROR_MAP_EN : Fld := ⟨R.HIF_MIRROR_MAP, 31, 31⟩
def HIF_MIRROR_MAP_RING : Fld := ⟨R.HIF_MIRROR_MAP, 7, 0⟩
def HIF_MSIX_TABLE_DATA : Fld := ⟨R.HIF_MSIX_TABLE, 31, 0⟩
def HIF_MSIX_PBA_PEND : Fld := ⟨R.HIF_MSIX_PBA, 31, 0⟩
def HIF_ID_WINDOW : Fld := ⟨R.HIF_ID, 31, 24⟩
def HIF_ID_MAJOR : Fld := ⟨R.HIF_ID, 23, 16⟩
def HIF_ID_MINOR : Fld := ⟨R.HIF_ID, 15, 8⟩
def HIF_CFG_COMMIT_BUSY : Fld := ⟨R.HIF_CFG_COMMIT, 31, 31⟩
def HIF_CFG_COMMIT_GO : Fld := ⟨R.HIF_CFG_COMMIT, 0, 0⟩
def RING_CTL_SQ_EN : Fld := ⟨R.RING_CTL, 31, 31⟩
def RING_CTL_CQ_EN : Fld := ⟨R.RING_CTL, 30, 30⟩
def RING_CTL_OWNMODE : Fld := ⟨R.RING_CTL, 29, 29⟩
def RING_CTL_RESET : Fld := ⟨R.RING_CTL, 28, 28⟩
def RING_CTL_CQ : Fld := ⟨R.RING_CTL, 15, 8⟩
def RING_SQ_BASE_ADDR : Fld := ⟨R.RING_SQ_BASE, 63, 6⟩
def RING_CQ_BASE_ADDR : Fld := ⟨R.RING_CQ_BASE, 63, 5⟩
def RING_SIZE_CQ_LOG2 : Fld := ⟨R.RING_SIZE, 12, 8⟩
def RING_SIZE_SQ_LOG2 : Fld := ⟨R.RING_SIZE, 4, 0⟩
def RING_POLL_INTERVAL : Fld := ⟨R.RING_POLL, 15, 0⟩
def RING_IRQ_EN : Fld := ⟨R.RING_IRQ, 31, 31⟩
def RING_IRQ_VECTOR : Fld := ⟨R.RING_IRQ, 23, 16⟩
def RING_IRQ_COUNT : Fld := ⟨R.RING_IRQ, 15, 8⟩
def RING_IRQ_TIMER_US : Fld := ⟨R.RING_IRQ, 7, 0⟩
def RING_STAT_SQ_STATE : Fld := ⟨R.RING_STAT, 31, 30⟩
def RING_STAT_CQ_STATE : Fld := ⟨R.RING_STAT, 29, 28⟩
def RING_STAT_CNFG_MISMATCH : Fld := ⟨R.RING_STAT, 27, 27⟩
def RING_STAT_CQ_STALL : Fld := ⟨R.RING_STAT, 26, 26⟩
def RING_STAT_RING_ERR : Fld := ⟨R.RING_STAT, 25, 25⟩
def RING_STAT_CFG_REJ : Fld := ⟨R.RING_STAT, 24, 24⟩
def RING_STAT_IRQ_REJ : Fld := ⟨R.RING_STAT, 23, 23⟩
def RING_STAT_HOLD : Fld := ⟨R.RING_STAT, 6, 0⟩
def RING_SQ_PROD_INDEX : Fld := ⟨R.RING_SQ_PROD, 16, 0⟩
def RING_SQ_CONS_INDEX : Fld := ⟨R.RING_SQ_CONS, 16, 0⟩
def RING_CQ_PROD_INDEX : Fld := ⟨R.RING_CQ_PROD, 16, 0⟩
def RING_CQ_CONS_INDEX : Fld := ⟨R.RING_CQ_CONS, 16, 0⟩
def RING_ERR_INFO_KIND : Fld := ⟨R.RING_ERR_INFO, 31, 28⟩
def RING_ERR_INFO_VALUE : Fld := ⟨R.RING_ERR_INFO, 16, 0⟩
def RING_DB_REJ_COUNT : Fld := ⟨R.RING_DB_REJ, 31, 0⟩
def RING_RX_NOBUF_COUNT : Fld := ⟨R.RING_RX_NOBUF, 31, 0⟩
def RING_RX_STALL_COUNT : Fld := ⟨R.RING_RX_STALL, 31, 0⟩
def RING_JOBS_COUNT : Fld := ⟨R.RING_JOBS, 63, 0⟩
def RING_ID_WINDOW : Fld := ⟨R.RING_ID, 31, 24⟩
def RING_ID_MAJOR : Fld := ⟨R.RING_ID, 23, 16⟩
def RING_ID_MINOR : Fld := ⟨R.RING_ID, 15, 8⟩
def RING_CFG_COMMIT_BUSY : Fld := ⟨R.RING_CFG_COMMIT, 31, 31⟩
def RING_CFG_COMMIT_GO : Fld := ⟨R.RING_CFG_COMMIT, 0, 0⟩
def MBX_STAT_FULL : Fld := ⟨R.MBX_STAT, 31, 31⟩
def MBX_STAT_TIMEOUT : Fld := ⟨R.MBX_STAT, 30, 30⟩
def MBX_STAT_CNFG_MISMATCH : Fld := ⟨R.MBX_STAT, 29, 29⟩
def MBX_STAT_SEND_REJ : Fld := ⟨R.MBX_STAT, 28, 28⟩
def MBX_STAT_LEN : Fld := ⟨R.MBX_STAT, 22, 16⟩
def MBX_STAT_SEQ : Fld := ⟨R.MBX_STAT, 15, 0⟩
def MBX_SEND_LEN : Fld := ⟨R.MBX_SEND, 6, 0⟩
def MBX_ACK_SEQ : Fld := ⟨R.MBX_ACK, 15, 0⟩
def MBX_CFG_RX_IRQ : Fld := ⟨R.MBX_CFG, 31, 31⟩
def MBX_CFG_ACK_IRQ : Fld := ⟨R.MBX_CFG, 30, 30⟩
def MBX_CFG_VECTOR : Fld := ⟨R.MBX_CFG, 23, 16⟩
def MBX_CFG_TMO_US : Fld := ⟨R.MBX_CFG, 15, 0⟩
def MBX_CTL_RESET : Fld := ⟨R.MBX_CTL, 0, 0⟩
def MBX_REJ_COUNT : Fld := ⟨R.MBX_REJ, 31, 0⟩
def MBX_DATA_DATA : Fld := ⟨R.MBX_DATA, 31, 0⟩
def MBX_LOCK_GRANTED : Fld := ⟨R.MBX_LOCK, 31, 31⟩
def MBX_LOCK_HELD : Fld := ⟨R.MBX_LOCK, 30, 30⟩
def MBX_LOCK_OWNER : Fld := ⟨R.MBX_LOCK, 23, 16⟩
def MBX_LOCK_FORCE : Fld := ⟨R.MBX_LOCK, 1, 1⟩
def MBX_LOCK_RELEASE : Fld := ⟨R.MBX_LOCK, 0, 0⟩
def MBX_PEND_FULL : Fld := ⟨R.MBX_PEND, 63, 0⟩
def MBX_LOCK_FORCED_COUNT : Fld := ⟨R.MBX_LOCK_FORCED, 31, 0⟩
def MBX_ID_WINDOW : Fld := ⟨R.MBX_ID, 31, 24⟩
def MBX_ID_MAJOR : Fld := ⟨R.MBX_ID, 23, 16⟩
def MBX_ID_MINOR : Fld := ⟨R.MBX_ID, 15, 8⟩
def MBX_CFG_COMMIT_BUSY : Fld := ⟨R.MBX_CFG_COMMIT, 31, 31⟩
def MBX_CFG_COMMIT_GO : Fld := ⟨R.MBX_CFG_COMMIT, 0, 0⟩
def SVC_CTL_HALT : Fld := ⟨R.SVC_CTL, 1, 1⟩
def SVC_CTL_RESET : Fld := ⟨R.SVC_CTL, 0, 0⟩
def SVC_STAT_POWERED : Fld := ⟨R.SVC_STAT, 2, 2⟩
def SVC_STAT_HALTED : Fld := ⟨R.SVC_STAT, 1, 1⟩
def SVC_STAT_RUNNING : Fld := ⟨R.SVC_STAT, 0, 0⟩
def SVC_BOOT_STATE : Fld := ⟨R.SVC_BOOT, 31, 28⟩
def SVC_BOOT_ERR : Fld := ⟨R.SVC_BOOT, 27, 24⟩
def SVC_BOOT_SLOT : Fld := ⟨R.SVC_BOOT, 8, 8⟩
def SVC_FW_VER_VERSION : Fld := ⟨R.SVC_FW_VER, 31, 0⟩
def SVC_ROLLBACK_INDEX : Fld := ⟨R.SVC_ROLLBACK, 6, 0⟩
def SVC_OTP_KEY_HASH : Fld := ⟨R.SVC_OTP_KEY, 31, 0⟩
def SVC_OTP_CTL_LOCKED : Fld := ⟨R.SVC_OTP_CTL, 31, 31⟩
def SVC_OTP_CTL_BUSY : Fld := ⟨R.SVC_OTP_CTL, 30, 30⟩
def SVC_OTP_CTL_PROGRAM : Fld := ⟨R.SVC_OTP_CTL, 0, 0⟩
def SVC_MBX_BIND_EN : Fld := ⟨R.SVC_MBX_BIND, 31, 31⟩
def SVC_MBX_BIND_SENDER : Fld := ⟨R.SVC_MBX_BIND, 15, 8⟩
def SVC_MBX_BIND_RECEIVER : Fld := ⟨R.SVC_MBX_BIND, 7, 0⟩
def SVC_MBX_BIND_LOCK_LOCK : Fld := ⟨R.SVC_MBX_BIND_LOCK, 0, 0⟩
def SVC_TRAP_SEL_SEL : Fld := ⟨R.SVC_TRAP_SEL, 31, 0⟩
def SVC_ID_WINDOW : Fld := ⟨R.SVC_ID, 31, 24⟩
def SVC_ID_MAJOR : Fld := ⟨R.SVC_ID, 23, 16⟩
def SVC_ID_MINOR : Fld := ⟨R.SVC_ID, 15, 8⟩
def SVC_CFG_COMMIT_BUSY : Fld := ⟨R.SVC_CFG_COMMIT, 31, 31⟩
def SVC_CFG_COMMIT_GO : Fld := ⟨R.SVC_CFG_COMMIT, 0, 0⟩
def SPL_LATCH_VALID : Fld := ⟨R.SPL_LATCH, 63, 63⟩
def SPL_LATCH_OVF : Fld := ⟨R.SPL_LATCH, 62, 62⟩
def SPL_LATCH_INJ_SEEN : Fld := ⟨R.SPL_LATCH, 61, 61⟩
def SPL_LATCH_INJ : Fld := ⟨R.SPL_LATCH, 60, 60⟩
def SPL_LATCH_SORING : Fld := ⟨R.SPL_LATCH, 59, 59⟩
def SPL_LATCH_CLASS : Fld := ⟨R.SPL_LATCH, 49, 48⟩
def SPL_LATCH_SOURCE : Fld := ⟨R.SPL_LATCH, 47, 40⟩
def SPL_LATCH_SYNDROME : Fld := ⟨R.SPL_LATCH, 31, 0⟩
def SPL_LATCH_TIME_NS : Fld := ⟨R.SPL_LATCH_TIME, 63, 0⟩
def SPL_INJ_GO : Fld := ⟨R.SPL_INJ, 31, 31⟩
def SPL_INJ_SOURCE : Fld := ⟨R.SPL_INJ, 15, 8⟩
def SPL_INJ_SYN_SYNDROME : Fld := ⟨R.SPL_INJ_SYN, 31, 0⟩
def SPL_CNT_COUNT : Fld := ⟨R.SPL_CNT, 31, 0⟩
def SPL_INJ_CNT_COUNT : Fld := ⟨R.SPL_INJ_CNT, 31, 0⟩
def SPL_MASK_MASK : Fld := ⟨R.SPL_MASK, 31, 0⟩
def SPL_SEV_SEV : Fld := ⟨R.SPL_SEV, 31, 0⟩
def SPL_CFG_SORING_MODE : Fld := ⟨R.SPL_CFG, 31, 31⟩
def SPL_CFG_INJ_LOCK : Fld := ⟨R.SPL_CFG, 30, 30⟩
def SPL_CFG_INJ_FT : Fld := ⟨R.SPL_CFG, 29, 29⟩
def SPL_CFG_VECTOR : Fld := ⟨R.SPL_CFG, 7, 0⟩
def SPL_CTL_FORCE_SAFE : Fld := ⟨R.SPL_CTL, 0, 0⟩
def SPL_STAT_SAFE : Fld := ⟨R.SPL_STAT, 31, 31⟩
def SPL_STAT_INJ_PEND : Fld := ⟨R.SPL_STAT, 30, 30⟩
def SPL_STAT_INJ_REJ : Fld := ⟨R.SPL_STAT, 29, 29⟩
def SPL_STAT2_BROKEN : Fld := ⟨R.SPL_STAT2, 60, 0⟩
def SPL_SUMMARY_VALID : Fld := ⟨R.SPL_SUMMARY, 60, 0⟩
def SPL_FATAL_VALID : Fld := ⟨R.SPL_FATAL, 63, 63⟩
def SPL_FATAL_FATAL_OVF : Fld := ⟨R.SPL_FATAL, 62, 62⟩
def SPL_FATAL_INJ : Fld := ⟨R.SPL_FATAL, 61, 61⟩
def SPL_FATAL_COLLECTOR : Fld := ⟨R.SPL_FATAL, 53, 48⟩
def SPL_FATAL_SOURCE : Fld := ⟨R.SPL_FATAL, 47, 40⟩
def SPL_FATAL_SYNDROME : Fld := ⟨R.SPL_FATAL, 31, 0⟩
def SPL_FATAL_TIME_NS : Fld := ⟨R.SPL_FATAL_TIME, 63, 0⟩
def SPL_REC_FILL_COUNT : Fld := ⟨R.SPL_REC_FILL, 11, 0⟩
def SPL_REC_SEQ_SEQ : Fld := ⟨R.SPL_REC_SEQ, 31, 0⟩
def SPL_REC_LOST_COUNT : Fld := ⟨R.SPL_REC_LOST, 31, 0⟩
def SPL_ID_WINDOW : Fld := ⟨R.SPL_ID, 31, 24⟩
def SPL_ID_MAJOR : Fld := ⟨R.SPL_ID, 23, 16⟩
def SPL_ID_MINOR : Fld := ⟨R.SPL_ID, 15, 8⟩
def SPL_CFG_COMMIT_BUSY : Fld := ⟨R.SPL_CFG_COMMIT, 31, 31⟩
def SPL_CFG_COMMIT_GO : Fld := ⟨R.SPL_CFG_COMMIT, 0, 0⟩

end Sys2Proof.Machine.F
end

