-- ==== Sys2Proof/Machine/State.lean ====
section
/-!
DEFINITION. The state of the block as plain data: the register store (every register of spec/'s register tables), the
state of each block that no register shows, the queue of waiting commands, and the log of what the device has sent out.
-/

namespace Sys2Proof.Machine

/-- A sparse memory or array: (key, value) pairs, keys strictly rising, no entry equal to the array's default. -/
abbrev Sparse (α : Type) := List (Nat × α)

/-- What a port's transmit PCS signals to its partner: remote fault (R62), the local FEC-degraded state (R59), LPI in place of
idles (R63). -/
inductive PortSignal where
  | remoteFault | fecDegraded | lpi
  deriving DecidableEq, Repr

/-- A record of a batch slot (R186): the frame's metadata by field ID, its length, its first cell in the batch, its ECN mark, the
charge's number as in R314. -/
structure SlotRecord where
  md : Sparse Nat := []
  len : Nat := 0
  firstCell : Nat := 0
  ecn : Bool := false
  charge : Nat := 0
  deriving DecidableEq, Repr

/-- A batch slot as it is written (R186): its offset in the extent; the header's VOQ, context, sequence, count of cells, flag of
a frame continued from the previous batch, and CRC-32C; its records; its cells. -/
structure SlotImage where
  off : Nat := 0
  voq : Nat := 0
  ctx : Nat := 0
  seq : Nat := 0
  count : Nat := 0
  continued : Bool := false
  crc : Nat := 0
  records : List SlotRecord := []
  cells : List (List Byte) := []
  deriving DecidableEq, Repr

/-- What AER records of a failed DMA (R324, R359): a completion with UR or CA, a completion timeout, a poisoned TLP. -/
inductive AerError where
  | urOrCa | timeout | poisoned
  deriving DecidableEq, Repr

/-- PMBus transactions: a write of PAGE, and reads of READ_POUT and STATUS_WORD. -/
inductive PmbOp where
  | page (v : Nat)
  | readPout
  | statusWord
  deriving DecidableEq, Repr

/-- What leaves the device, newest last (the model's own log, log 4; no rule names it). -/
inductive Output where
  /-- The completion of a read: the reader, the BAR0 offset and the value. -/
  | readData (mid off val : Nat)
  /-- The one completion of an 8-byte read (R11): the reader, the offset in its BAR and the 64-bit value. -/
  | readWide (mid off val : Nat)
  /-- The Unsupported Request completion of an access with a bad size or alignment (R17): its master, BAR and offset. -/
  | unsupported (mid bar off : Nat)
  /-- A signal of port `port` to its partner begins or ends. -/
  | portSignal (port : Nat) (what : PortSignal) (on : Bool)
  /-- Code-groups of ten bits, bit a first, that a side-port lane sends (R71). -/
  | sideGroups (lane : Nat) (groups : List Nat)
  /-- A posted write to host memory under a function's requester ID: address and little-endian dwords. -/
  | dmaDwords (fn addr : Nat) (dwords : List Nat)
  /-- A posted write of a byte block to host memory. -/
  | dmaBytes (fn addr : Nat) (bytes : List Byte)
  /-- An MSI-X message of PF0. -/
  | msix (vector : Nat)
  /-- An MSI message of a VF. -/
  | msi (vf vector : Nat)
  /-- An error that a function reports through AER (R359). -/
  | aer (fn : Nat) (err : AerError)
  /-- A mailbox or safe-state interrupt of a service core. -/
  | coreIrq (core : Nat)
  /-- SAFE_N is driven low, or released (R407, R408). -/
  | safeN (low : Bool)
  /-- An in-band interrupt of the BMC port with its mandatory byte (R439). -/
  | ibi (byte : Nat)
  /-- A frame sent on a front-panel port, with its bytes and whether its FCS was complemented. -/
  | frame (port : Nat) (bytes : List Byte) (badFcs : Bool)
  /-- A control frame that the device makes: PFC or PAUSE (R166). -/
  | control (port : Nat) (bytes : List Byte)
  /-- A Gather NAK or ERROR or result datagram handed to the egress path (chapter Gather). -/
  | gatherFrame (engine : Nat) (bytes : List Byte)
  /-- A frame or message on the side port. -/
  | sideFrame (port : Nat) (bytes : List Byte)
  /-- A stream record delivered to the service cores (R303, DEST = 1). -/
  | coreRecord (stream : Nat) (bytes : List Byte)
  /-- A frame delivered to the service cores (R380). -/
  | coreFrame (trap : Nat) (bytes : List Byte)
  /-- A batch write or read request to a CXL root port: port, extent, bytes moved, and what is written. -/
  | cxlWrite (port extent : Nat) (bytes : Nat) (slot : SlotImage)
  /-- HDM decoder 0 of a CXL port's device is programmed with its base and size and committed (R179). -/
  | cxlHdm (port base size : Nat)
  | cxlRead (port extent : Nat) (bytes : Nat)
  /-- Bytes written at an offset of the TABLE_IMAGE region (R183). -/
  | tableImage (off : Nat) (bytes : List Byte)
  /-- A PMBus transaction of the device as master: the 7-bit address and what it is (R265, R270). -/
  | pmbus (addr : Nat) (op : PmbOp)
  /-- An AVSBus write of a VDD_CORE command in mV (R280). -/
  | avs (mv : Nat)
  /-- A write or erase of the SPI NOR flash: address and bytes (an erase has none). -/
  | flash (addr : Nat) (bytes : List Byte)
  /-- A read of the SPI NOR flash: address and length. -/
  | flashRead (addr len : Nat)
  /-- An IPFIX message to a collector (R312): the payload of its UDP datagram. -/
  | ipfix (collector : Nat) (message : List Byte)
  /-- A command to the mailbox of a memory device: its port, the operation of R386, its bytes. -/
  | memMailbox (port op : Nat) (bytes : List Byte)
  /-- The answer of the BMC port to a read transaction. -/
  | bmcData (v : Nat)
  /-- A bus error that a service core takes (R378, R393). -/
  | busError (core : Nat)
  /-- A reply of the service-core firmware, as message dwords, on a mailbox channel (R383). -/
  | reply (channel : Nat) (dwords : List Nat)
  deriving DecidableEq, Repr

/-- A fetched submission entry (spec/11_host_rings.md R344). -/
structure Sub where
  uid : Nat := 0
  ring : Nat := 0
  slot : Nat := 0
  tag : Nat := 0
  addr : Nat := 0
  len : Nat := 0
  indirect : Bool := false
  heavy : Bool := false
  phase : Nat := 0
  hintUs : Nat := 0
  params : List Nat := []
  opcode : Nat := 0
  nfragM1 : Nat := 0
  deriving DecidableEq, Repr

/-- A job in flight: a dispatched submission (R345), whether its opcode's own command has begun it, and the energy
attributed to it so far, in units of 1/16 pJ × 800² mV² (R290). `sealed`: of an INJECT job whose frame's last cell has been
written, the frame's length and its ingress pass: the job is DONE, and ends with the energy of that pass (R290, R348). -/
structure Job where
  id : Nat := 0
  sub : Sub := {}
  frags : List (Nat × Nat) := []
  started : Bool := false
  energy : Nat := 0
  sealed : Option (Nat × Nat) := none
  deriving DecidableEq, Repr

/-- A 32-byte entry waiting for or written into a completion ring: its first seven dwords and its last dword without
PH. `sq` names the submission ring of a completion; an event has none. `vec`: an MSI-X vector of PF0 that is signalled
when the entry is written (R396, severity 2). -/
structure RingEntry where
  body : List Nat := []
  last : Nat := 0
  sq : Option Nat := none
  vec : Option Nat := none
  deriving DecidableEq, Repr

/-- An open hint of a HEAVY_AHEAD job (R279): the job, its duration in µs (0: until completion), whether its dispatch is
still held. -/
structure Hint where
  uid : Nat := 0
  us : Nat := 0
  holding : Bool := true
  /-- HINT_US has passed: the hint is open no longer, and waits for the release of its dispatch. -/
  expired : Bool := false
  deriving DecidableEq, Repr

/-- What a ring pair holds beside its RING_ registers (R332 to R358). -/
structure Ring where
  fetched : List Sub := []
  phTry : Nat := 0
  hold : List RingEntry := []
  late : List RingEntry := []
  irqCount : Nat := 0
  /-- An MSI message of the ring waits for its owner's Bus Master Enable (R328). -/
  irqOwed : Bool := false
  doorbell : Nat := 0
  awake : Bool := false
  lastPhase : Nat := 0
  err : Bool := false
  stopSq : Bool := false
  stopCq : Bool := false
  deriving DecidableEq, Repr

/-- A buffer that a TLM_POST job gave to a stream (R303) or an RX_POST job to its ring pair (R349): the job, its ring, its
fragments, its length, the bytes written. -/
structure StreamBuf where
  job : Nat := 0
  ring : Nat := 0
  frags : List (Nat × Nat) := []
  len : Nat := 0
  written : Nat := 0
  deriving DecidableEq, Repr

/-- The host interface beside its registers. -/
structure Hif where
  rings : Sparse Ring := []
  jobs : List Job := []
  hints : List Hint := []
  jobSeq : Nat := 0
  finished : List (Nat × RingEntry) := []
  dmaReadRem : Nat := 0
  dmaWriteRem : Nat := 0
  backlog : List (Nat × RingEntry) := []
  lostSince : Nat := 0
  busMaster : Nat := 0
  msiVectors : Sparse Nat := []
  /-- Configuration space beside Bus Master Enable and the MSI vectors (R324), where it differs from its reset value. -/
  pcie : Sparse PcieCfg := []
  /-- What AER has recorded, by function and in order of arrival (R359). -/
  aer : List (Nat × AerError) := []
  rrNext : Nat := 0
  /-- Buffers of RX_POST jobs that wait, oldest first, over all rings (R349). -/
  rxBufs : List StreamBuf := []
  perstLow : Bool := false
  /-- A reset ended with PERST_N low: the interface stays in HIF reset until PERST_N rises (R417). -/
  perstHold : Bool := false
  /-- What the PCIe link trains to: WIDTH, SPEED and FLIT as in HIF_STAT, 0 while it does not train (R424). -/
  train : Nat := 0
  deriving DecidableEq, Repr

/-- A fault-record of the always-on buffer (spec/13_spall_faults.md R402), as its 32 bytes' fields. -/
structure FaultRec where
  ns : Nat := 0
  collector : Nat := 0
  source : Nat := 0
  soring : Bool := false
  inj : Bool := false
  injSeen : Bool := false
  cls : Nat := 0
  ovf : Bool := false
  syndrome : Nat := 0
  seq : Nat := 0
  lost : Nat := 0
  boot : Nat := 0
  /-- The STATUS_WORDs of the rails, in the record of an alert (R270). -/
  words : List Nat := []
  /-- Dwords of its place that read 0 (R393); a copy in flash whose read-back failed (R403). -/
  zeroed : List Nat := []
  bad : Bool := false
  deriving DecidableEq, Repr

/-- A dword of a stored register that an error has made read 0 (R393): its BAR0 offset, the register's key and reset value, and
whether it is the high dword. -/
structure DeadWord where
  off : Nat
  key : Nat
  reset : Word
  high : Bool
  deriving DecidableEq, Repr

/-- The Spall collectors beside their registers: the record buffer, the flash log and how many records it has taken. -/
structure Spl where
  records : List FaultRec := []
  flashLog : List FaultRec := []
  flashAt : Nat := 0
  bootCount : Nat := 0
  /-- The boot count that the service wrote last in a header of the flash log (R402). -/
  bootLogged : Nat := 0
  d2dReplays : Sparse Nat := []
  safeBy : Nat := 0
  /-- Dwords of registers that read 0 from an error on, and those of the record buffer by place and dword (R393). -/
  dead : List DeadWord := []
  deadRec : List (Nat × Nat) := []
  /-- Broken collectors whose own counters are in error (R405). -/
  badCnt : List Nat := []
  inj : Option (Nat × Nat × Nat) := none
  deriving DecidableEq, Repr

/-- A flow counter as the IPFIX service read it: its index, packets, bytes, and the TIME of the read in ns. -/
structure FlowRead where
  idx : Nat := 0
  packets : Nat := 0
  bytes : Nat := 0
  ns : Nat := 0
  deriving DecidableEq, Repr

/-- A batch of reads through TBL_CMD (R312, R376): the ranges that are left as first index and count, what has been read, and
whether a READ has been written and its result is awaited. -/
structure FlowBatch where
  ranges : List (Nat × Nat) := []
  got : List FlowRead := []
  asked : Bool := false
  deriving DecidableEq, Repr

/-- An export message that waits for its next hop's MAC address (R385): the collector's number, the datagram's payload, and whether
the address has been asked for. -/
structure Export where
  collector : Nat := 0
  message : List Byte := []
  asked : Bool := false
  deriving DecidableEq, Repr

/-- A boot slot that the ROM has still to try (R388): its number and what its header says; the bytes of its key, of its signature, and
of the part of the header that is signed. -/
structure BootCand where
  slot : Nat := 0
  version : Nat := 0
  rollback : Nat := 0
  length : Nat := 0
  entry : Nat := 0
  key : List Byte := []
  sig : List Byte := []
  signed : List Byte := []
  deriving DecidableEq, Repr

/-- The service cores beside their registers (spec/12_mailboxes_and_service_cores.md): which cores run the LINK service
(R382), whether a hand-over is under way, how often each core was restarted at the firmware entry (R379), the IPFIX
configuration as SET_CONFIG's dwords (R385), the template sequence, how many records have been exported, an OTP request that waits
for the sag's end, and the rollback index and the entry of the image that runs. -/
structure Svc where
  linkCores : List Nat := [1, 2]
  handover : Bool := false
  restarts : Sparse Nat := []
  ipfix : List Nat := []
  templateSeq : Nat := 0
  exported : Nat := 0
  otpWait : Bool := false
  /-- Firmware's GO of the trimmed coefficients waits until ANL_CFG_COMMIT reads not BUSY (R264, R8). -/
  trimGo : Bool := false
  imageRollback : Nat := 0
  entry : Nat := 0
  /-- The cores' 256 KiB of local memory, core k's from k × 0x4_0000 on, and the 8 MiB of firmware memory, byte by byte (R378). -/
  localMem : Sparse Nat := []
  fwMem : Sparse Nat := []
  /-- Domains of core pairs that have lost their memory and wait for S0 to reload it (R379). -/
  unloaded : List Nat := []
  /-- Requests that a core has taken from their channel while its own message waited for an ACK: the core's MID, the channel, the
  message (R373). -/
  taken : List (Nat × Nat × List Nat) := []
  /-- The slots that the ROM has still to try, the one that it works on first (R388). -/
  bootLeft : List BootCand := []
  /-- IPFIX: an interval that has expired and whose flow records are due; the batch of reads that runs; queue records that wait for
  the next interval; known next hops as addresses; messages that wait for one; side-port frames seen. -/
  exportDue : Bool := false
  batch : Option FlowBatch := none
  /-- Flow counters as their last reports gave them: packets and bytes; 0 before the first (R312). -/
  flows : Sparse (Nat × Nat) := []
  queueRecs : List (List Byte) := []
  neighbours : List (Nat × Nat) := []
  outgoing : List Export := []
  sideSeen : Nat := 0
  deriving DecidableEq, Repr

/-- One-time-programmable bits (R389, R390, R418): `key` is empty while the key hash is blank; `trim`: the calibration
record (R264) as index and value, ANL_COEF[i] at i and ANL_STATIC[j] at 16 + j, for the values that differ from reset. -/
structure Otp where
  locked : Bool := false
  key : List Nat := []
  rollback : Nat := 0
  vmin : Nat := 0
  trim : List (Nat × Nat) := []
  /-- Words that read 0 from an error on (R393). -/
  dead : List OtpWord := []
  deriving DecidableEq, Repr

/-- Levels of a reset in progress (R415). -/
inductive ResetLevel where
  | powerOn | cold | warm
  deriving DecidableEq, Repr

/-- A register access that waits for INIT_DONE (R420). -/
structure Waiting where
  mid : Nat
  off : Nat
  write : Bool
  wide : Bool
  val : Nat
  deriving DecidableEq, Repr

/-- Reset, power domains and start-up beside their registers: the reset in progress; THERMTRIP_N driven low; whether the power-up
sequence of R419 runs and the domains it has still to reach; the transition in progress (domain, up); bank groups that drain, as
bits, and those that have emptied and wait to be switched off (R39); register accesses that wait for INIT_DONE; TIME clocks
counted by the model; inputs REFCLK_(B + i) out of range, as bits. -/
structure RstSt where
  level : Option ResetLevel := none
  thermTrip : Bool := false
  seqOn : Bool := true
  seq : List Nat := []
  pdActive : Option (Nat × Bool) := none
  drain : Nat := 0
  drained : List Nat := []
  waiting : List Waiting := []
  mono : Nat := 0
  refclk : Nat := 0
  deriving DecidableEq, Repr

/-- The BMC port and the JTAG TAP (R437, R438). -/
structure Bmc where
  addr : Nat := 0
  err : Bool := false
  ibiEn : Bool := false
  tapReset : Bool := true
  deriving DecidableEq, Repr

/-- A port of the front panel beside its registers: the phase of bring-up (0 none, 1 to 5 as R64, 6 link up, 7 the wait
after a failed attempt), whether CNFG_MISMATCH held when last looked at, received local fault, corrected symbols of the
current interval, transmit LPI and the wake time after it, remote fault sent. `marks`: how the PCS has marked the frames whose header windows have not
come yet, the next one first (R58, R61). -/
structure PortSt where
  phase : Nat := 0
  mismatch : Bool := false
  locRx : Bool := false
  syms : Nat := 0
  marks : List FrameMark := []
  txLpi : Bool := false
  waking : Bool := false
  txFault : Bool := false
  deriving DecidableEq, Repr

/-- A lane beside its registers: the freeze reasons that hold (R67), training, the TIME at which it left tracking (R66),
the transmit coefficients in use, the result of the last training, and the reach in use (R50, R65). -/
structure LaneSt where
  quiet : Bool := false
  idle : Bool := false
  training : Bool := false
  left : Option Nat := none
  taps : Nat := 0x00000FC0
  trained : Option Nat := none
  reach : Nat := 0
  /-- Frozen at the end of training, before it has tracked (R68). -/
  fresh : Bool := false
  deriving DecidableEq, Repr

/-- A side-port lane beside its registers (R71 to R75): running disparity, synchronisation, the last code-groups; in mode 1 the
symbols that it holds from its ‖A‖ on until the other lanes' come, 512 and more for one in error; the running disparity of its
transmitter. -/
structure AuxLane where
  rdPos : Bool := false
  commas : Nat := 0
  bad : Nat := 0
  good : Nat := 0
  synced : Bool := false
  last : List Nat := []
  held : Option (List Nat) := none
  txPos : Bool := false
  deriving DecidableEq, Repr

/-- The deskew of mode 1 (R73): ‖A‖ columns without an error since the lanes were last not aligned, 4 at most, at which they are
aligned, and errors not made up for since; the fault that ‖Q‖ columns report, 1 local and 2 remote, and the columns since. -/
structure AuxAlign where
  good : Nat := 0
  bad : Nat := 0
  fault : Nat := 0
  quiet : Nat := 0
  deriving DecidableEq, Repr

/-- The auto-negotiation of a port in mode 2 (R69): its state (0 restart, 1 ability, 2 acknowledge, 3 complete, 4 idle, 5 link) and
the TIME at which it began, the configuration word last received without its ACK bit, how often in a row it came, and with ACK,
idles received in a row; whether the next /C/ is a /C2/, and the code-groups sent so far. -/
structure AuxAn where
  phase : Nat := 0
  since : Nat := 0
  word : Nat := 0
  same : Nat := 0
  acks : Nat := 0
  idles : Nat := 0
  second : Bool := false
  sent : Nat := 0
  deriving DecidableEq, Repr

/-- A side-port port's frame in reception: its bytes so far and whether it has met an error. -/
structure AuxRx where
  bytes : List Byte := []
  active : Bool := false
  bad : Bool := false
  deriving DecidableEq, Repr

/-- Lanes, ports and the side port beside their registers. -/
structure Phy where
  ports : Sparse PortSt := []
  lanes : Sparse LaneSt := []
  auxLanes : Sparse AuxLane := []
  auxRx : Sparse AuxRx := []
  auxAlign : AuxAlign := {}
  auxAn : Sparse AuxAn := []
  /-- Mode 1: the next transmit column, and the one at which the next ‖A‖ is due (R73). -/
  auxCol : Nat := 0
  auxNextA : Nat := 0
  delivered : List (Nat × List Byte) := []
  deriving DecidableEq, Repr

/-- A telemetry stream beside its registers: records waiting for a buffer (R304), newest last, and its buffers. -/
structure Stream where
  queue : List (List Byte) := []
  bufs : List StreamBuf := []
  deriving DecidableEq, Repr

/-- A queue's latency histogram (R307): bins, maximum, sum. -/
structure Hist where
  bins : Sparse Nat := []
  max : Nat := 0
  sum : Nat := 0
  deriving DecidableEq, Repr

/-- Telemetry, the Cullet tracer and the performance counters beside their registers. -/
structure Tlm where
  streams : Sparse Stream := []
  hist : Sparse Hist := []
  /-- The queue sampler's sweep that runs: the next queue number to look at, and the clock of the next visit. -/
  sweep : Option (Nat × Nat) := none
  /-- Words of TLM_HQ_DATA latched by the last read of word 0 (R308). -/
  hqLatch : List Nat := []
  /-- Words of histograms that read 0 from an error on, by queue and word (R393). -/
  deadHist : List (Nat × Nat) := []
  /-- Trace IDs in use (R313). -/
  traces : List Nat := []
  /-- Frames left before IPn tags again (R313). -/
  gaps : Sparse Nat := []
  /-- Shadows of the counters (R320): unit u's cycle counter at 16u, counter c at 16u + 1 + c. -/
  shadow : Sparse Nat := []
  /-- Annealer ticks since the last periodic snapshot. -/
  snapTicks : Nat := 0
  deriving DecidableEq, Repr

/-- A write of header bits (R93): the bit number counted from the msb of byte 0 of the header window, the width, the value. -/
structure HWrite where
  bit : Nat := 0
  width : Nat := 0
  val : Nat := 0
  deriving DecidableEq, Repr

/-- A removal or an insertion that the deparser makes (R107), at a byte of the frame as received. -/
inductive Edit where
  | remove (at_ n : Nat)
  | insert (at_ : Nat) (bytes : List Byte)
  deriving DecidableEq, Repr

/-- A learn offer (R131): tag, 144-bit key, action data. -/
structure Offer where
  tag : Nat := 0
  key : Nat := 0
  data : Nat := 0
  deriving DecidableEq, Repr

/-- A packet in a pipeline (R86 to R96): the frame, its copy in an egress pipeline, the pipeline number (n for IPn, 32 + n
for EPn), the program bank's words as they stood at its slot, LKUP_REJ and the table banks at that moment, its metadata by
field ID, the header map, the headers passed in order, the header window, header writes, removals and insertions, the stage
that runs, the stage that follows, the instructions of the stage still to execute and their action data. -/
structure Pass where
  uid : Nat := 0
  pkt : Nat := 0
  copy : Option Nat := none
  pipe : Nat := 0
  prog : Sparse Nat := []
  rej : Nat := 0
  em : Nat := 0
  lpm : Nat := 0
  md : Sparse Nat := []
  slots : Sparse (Nat × Nat) := []
  hdrs : List (Nat × Nat) := []
  win : List Byte := []
  writes : List HWrite := []
  edits : List Edit := []
  stage : Nat := 0
  next : Nat := 0
  todo : List Nat := []
  adata : Nat := 0
  meters : Nat := 0
  learn : Option Offer := none
  /-- A structure that the packet used was in error: it is freed at the end of its pipeline (R393). -/
  bad : Bool := false
  /-- Words of its program bank in error at its slot: their places in `prog`, and the sources of the errors. -/
  badAt : Sparse Nat := []
  empty : Bool := false
  /-- LENCHG rose while the frame, enqueued by cut-through, still arrived (R172). -/
  waits : Bool := false
  hit : Bool := false
  act : Nat := 0
  /-- At egress entry: the depth of the packet's egress queue, and U (R310). -/
  depth : Nat := 0
  used : Nat := 0
  deriving DecidableEq, Repr

/-- What a stored frame is: a frame, a sample (R28), a host copy or a mirror copy (R102), a frame that a Gather engine
made (R30). -/
inductive PktKind where
  | frame | sample | hostCopy | mirror | egrMirror | egrHostCopy | result
  deriving DecidableEq, Repr

/-- A frame in the Quarry, or arriving (R148). `pipe`: the ingress pipeline under which it is accounted. `port`: the
ingress port. `chain`: the cells that the Quarry holds of it, by their numbers in the frame, as the pointers of R146. `uHeld`: shared-pool cells that it holds. `g0`: the group of its
first cell. `keep`: the bytes that a truncated copy keeps, 0 for all. `src`: the frame that a copy was made of. `refs`: the reference count. -/
structure Pkt where
  uid : Nat := 0
  kind : PktKind := .frame
  pipe : Nat := 0
  port : Nat := 0
  bytes : List Byte := []
  ended : Bool := false
  noCell : Bool := false
  g0 : Nat := 0
  chain : Sparse Nat := []
  uHeld : Nat := 0
  refs : Nat := 0
  keep : Nat := 0
  src : Nat := 0
  frameLen : Nat := 0
  seq : Nat := 0
  lip : Option Nat := none
  md : Sparse Nat := []
  slots : Sparse (Nat × Nat) := []
  hdrs : List (Nat × Nat) := []
  writes : List HWrite := []
  /-- The ingress pipeline has ended, and the frame goes on (it carries no drop code). -/
  resolved : Bool := false
  dropped : Bool := false
  /-- How the PCS has marked it (R58, R61). -/
  mark : FrameMark := .ok
  /-- The frame-end checks have run. -/
  checked : Bool := false
  learn : Option Offer := none
  trace : Option Nat := none
  job : Option Nat := none
  /-- Its cells have been freed, and counted so (R317). -/
  freed : Bool := false
  /-- The Punty sampler selected the frame (R174). -/
  selected : Bool := false
  /-- Of a Gather frame: the frame as the copy to each port carries it (R258). -/
  perPort : Sparse (List Byte) := []
  /-- Of a copy of R169: the queue it goes to. -/
  dest : Nat := 0
  /-- A cell of the frame was in error: it is freed, or leaves stomped (R393). -/
  bad : Bool := false
  /-- A copy was admitted at header time (R171). -/
  ct : Bool := false
  /-- A sample whose ingress pipeline has not ended, or a copy whose queue has not decided it yet. -/
  open_ : Bool := false
  deriving DecidableEq, Repr

/-- What a copy's cells are charged to (R157). -/
inductive Charge where
  | none | reserve | shared | headroom | staging
  deriving DecidableEq, Repr

/-- Where an accepted copy stands: in the Quarry part of its queue, in the Sump (or waiting to return from it), chosen by
the scheduler, in its egress pipeline, waiting for its frame's end after LENCHG (R172), ready for the transmitter, in
transmission. -/
inductive Loc where
  | voq | sump | chosen | egress | held | ready | sending
  deriving DecidableEq, Repr

/-- An accepted copy (R157, R168). `queue`: the VOQ number v (R149), or 393,216 + 9n + d for internal queue (IPn, d).
`ig`: the ingress port and priority of a lossless copy. `ct`: enqueued by cut-through. `ready`: its first two cells or all
of them are in the Quarry (R171). `linked`: cells that have come back from the
Sump. -/
structure Copy where
  uid : Nat := 0
  pkt : Nat := 0
  queue : Nat := 0
  cells : Nat := 0
  len : Nat := 0
  charge : Charge := .none
  ig : Option (Nat × Nat) := none
  mc : Bool := false
  ecn : Bool := false
  ct : Bool := false
  ready : Bool := true
  loc : Loc := .voq
  released : Bool := false
  writes : List HWrite := []
  edits : List Edit := []
  lenchg : Bool := false
  /-- The transmit timestamp's ns, once its head has left. -/
  txNs : Nat := 0
  /-- Of a frame in transmission: the time since which its gate is known to have stayed open, and that it did close (R214). -/
  gateFrom : Nat := 0
  gateLate : Bool := false
  linked : Nat := 0
  md : Sparse Nat := []
  deriving DecidableEq, Repr

/-- An egress port's scheduler, pause and watchdog state beside its registers (chapter 07). -/
structure EgrPort where
  deficit : Sparse Nat := []
  rr : Sparse Nat := []
  /-- The queue at each level's pointer. -/
  ptr : Sparse Nat := []
  /-- Levels whose pointer's queue has had its quantum on this visit. -/
  visited : List Nat := []
  credit : Int := 0
  /-- The reason of the flush that runs: 1 LINK_DOWN, 2 DISABLED (R224). -/
  flush : Option Nat := none
  flushNext : Nat := 0
  /-- Priorities released since the port's last PFC frame; whether a frame is due (R166). -/
  pfcFell : Nat := 0
  pfcDue : Bool := false
  /-- Quanta last loaded into each priority's timer, and into the port's at key 8 (R220). -/
  quanta : Sparse Nat := []
  /-- The watchdog: stalled periods in a row, quiet periods in a row, priorities paused since the period
  began, queues that have held a candidate since then, priorities for which a PFC frame with a nonzero time came in it. -/
  stalls : Sparse Nat := []
  quiet : Sparse Nat := []
  held : Nat := 0
  heldQ : Nat := 0
  rxPause : Nat := 0
  /-- T_sw of a pending gate list switch (R213). -/
  tsw : Nat := 0
  deriving DecidableEq, Repr

/-- A queue on the Lehr (R215 to R218): E in 1/256 ns, the rate and burst in force, the wheel it is on (none, main, overflow)
with the slot entered. -/
structure LehrQ where
  e : Nat := 0
  wheel : Option (Bool × Nat) := none
  /-- X, for which it was entered, in 1/256 ns (R217, R218). -/
  x : Nat := 0
  deriving DecidableEq, Repr

/-- A meter (R226 to R229): profile, buckets in 1/256 byte, the time of its last update, byte counts by colour. -/
structure Meter where
  profile : Nat := 0
  tc : Nat := 0
  te : Nat := 0
  at_ : Nat := 0
  green : Nat := 0
  yellow : Nat := 0
  red : Nat := 0
  deriving DecidableEq, Repr

/-- An injected frame that waits for its ingress slot: the MID under which it was injected, and its INJECT job; a frame of a
service core has none (R348, R380). -/
structure Injected where
  mid : Nat := 0
  job : Option Nat := none
  port : Nat := 0
  bytes : List Byte := []
  deriving DecidableEq, Repr

/-- A header in a port's entry buffer (R79): the port, the frame, its SFD timestamp. -/
structure Entry where
  port : Nat := 0
  pkt : Nat := 0
  ts : Nat := 0
  deriving DecidableEq, Repr

/-- A MAC control frame that its port keeps (R78): its bytes, and whether the PCS marked it. -/
structure Control where
  port : Nat := 0
  bytes : List Byte := []
  bad : Bool := false
  deriving DecidableEq, Repr

/-- The frame path: frames, copies and packets, and the memories of the parsers, pipelines, schedulers and meters. -/
structure Dp where
  seq : Nat := 1
  pkts : List Pkt := []
  copies : List Copy := []
  passes : List Pass := []
  prs : Sparse Nat := []
  prog : Sparse Nat := []
  /-- Words of the parser tables and program banks in error, until software rewrites them: their keys as in `prs` and `prog`, and
  the sources of the errors (R393). -/
  badPrs : Sparse Nat := []
  badProg : Sparse Nat := []
  rotate : Sparse Nat := []
  inject : List Injected := []
  control : List Control := []
  /-- Headers that wait for an ingress slot, oldest first; the entry arbiter's credits by port, those of the injection entries
  of pipeline n at 1024 + n; and the ports served in each ingress pipeline's clock, 1024 for the injection entries (R79,
  R204). -/
  entries : List Entry := []
  entryCredit : Sparse Int := []
  entryTook : Sparse (List Nat) := []
  egr : Sparse EgrPort := []
  /-- Ports granted by each egress pipeline in its clock (R204). -/
  grants : Sparse (List Nat) := []
  lehr : Sparse LehrQ := []
  lehrV : Nat := 0
  gcl : Sparse Nat := []
  meters : Sparse Meter := []
  /-- MTR_CMD.BUSY (R230). -/
  mtrBusy : Bool := false
  /-- Frames left before the Punty sampler selects at a port; tokens in millionths and the time they were counted at. R175 states
  no level of the bucket at reset: it is full (DESIGN CHOICE, log 280). -/
  pntGap : Sparse Nat := []
  pntTokens : Nat := 64000000
  pntAt : Nat := 0
  /-- The next internal queue pipeline that the ring engine serves, and each port's latched VOQ word (R349, R154). -/
  rxNext : Nat := 0
  voqLatch : Nat := 0
  deriving DecidableEq, Repr

/-- Who asked for an insertion into an EM bank (R114): a command with its EVICT bit, learning, a bulk load of a job. -/
inductive InsBy where
  | cmd | learn | bulk
  deriving DecidableEq, Repr

/-- A relocation path in progress (R114, R115): the bank, the moves still to make in the order they are made, how many moves
it has in all, its path slots, and the new entry with the slot that the path frees for it. -/
structure Path where
  bank : Nat := 0
  moves : List (Nat × Nat) := []
  total : Nat := 0
  slots : List Nat := []
  target : Nat := 0
  entry : Nat := 0
  by_ : InsBy := .cmd
  deriving DecidableEq, Repr

/-- A command of TBL_CMD that runs: the word written, the master, index and data registers when it was accepted. -/
structure TblCmd where
  word : Nat := 0
  mid : Nat := 0
  idx : Nat := 0
  data : List Nat := []
  deriving DecidableEq, Repr

/-- The result of a command (R456): `none` keeps the register. -/
structure TblRes where
  mid : Nat := 0
  status : Nat := 0
  found : Bool := false
  hitWas : Bool := false
  dualFail : Bool := false
  evicted : Bool := false
  idx : Option Nat := none
  data : Option (List Nat) := none
  count : Option Nat := none
  deriving DecidableEq, Repr

/-- A change that learning or FLUSH_BY_PORT holds until its event ring has room (R136); an offer with the ACT_IDX and the bank
read when it was taken. -/
inductive Stalled where
  | offer (o : Offer) (act bank : Nat)
  /-- The end of a learning insertion whose relocation path in the bank has made its moves. -/
  | path (bank : Nat)
  /-- A flush: the slot at which its scan stands, the deletions made, the command. -/
  | flush (pos n : Nat) (c : TblCmd)
  deriving DecidableEq, Repr

/-- The scan of a NEXT or FLUSH_BY_PORT that runs (R124): the command, the slot that it reaches next, the deletions made. -/
structure Scan where
  cmd : TblCmd := {}
  pos : Nat := 0
  n : Nat := 0
  deriving DecidableEq, Repr

/-- A table job that runs (R139): its tables, the bank it works on, whether the background clear of R140 lasts, the next
index, its two result dwords (R351) and, when it has ended, its status. -/
structure TblJob where
  job : Nat := 0
  load : Bool := false
  dump : Bool := false
  table : Nat := 0
  bank : Nat := 0
  image : Bool := false
  sump : Bool := false
  clearing : Bool := false
  next : Nat := 0
  total : Nat := 0
  r0 : Nat := 0
  r1 : Nat := 0
  ended : Option Nat := none
  deriving DecidableEq, Repr

/-- The forwarding tables beside their registers (chapter 04). EM slots and LPM handles are keyed bank × 2^21 + index; a
TCAM entry is its 23 dwords as one number; a multicast group is its bitmap; a flow counter is packets and bytes. -/
structure Tbl where
  em : Sparse Nat := []
  lpm : Sparse Nat := []
  tcam : Sparse Nat := []
  mcg : Sparse Nat := []
  ctr : Sparse (Nat × Nat) := []
  /-- Flow counters in error: they read 0 from their next update onwards (R393). -/
  ctrBad : List Nat := []
  queue : List Offer := []
  stalled : List Stalled := []
  /-- The relocation path in progress in each bank. -/
  paths : Sparse Path := []
  wait : Option TblCmd := none
  scan : Option Scan := none
  res : Option TblRes := none
  dlog : List Nat := []
  dlogLpm : List Nat := []
  /-- Slots and handles that repeats have written since DUALWR last rose (R140). -/
  repEm : List Nat := []
  repLpm : List Nat := []
  jobs : List TblJob := []
  deriving DecidableEq, Repr

/-- Cells of a copy in a batch (R189): how many, whether the frame starts in this batch, and whether it has been lost since
the batch was written (R199). -/
structure Seg where
  copy : Nat := 0
  cells : Nat := 0
  first : Bool := true
  lost : Bool := false
  deriving DecidableEq, Repr

/-- Where a batch stands (R190, R192): open, closed and waiting for a write, being written, written, being read, read but not
yet linked. -/
inductive BatchAt where
  | open_ | waiting | writing | written | reading | returned
  deriving DecidableEq, Repr

/-- A batch of a spill context (R185): sequence number, cells by copy, place, extent and slot. -/
structure Batch where
  seq : Nat := 0
  segs : List Seg := []
  at_ : BatchAt := .open_
  extent : Option Nat := none
  slot : Nat := 0
  deriving DecidableEq, Repr

/-- A spill context (R185, R187): its number, its VOQ, the next batch sequence, its batches oldest first, its chain of
extents with the batch group that each holds. -/
structure Ctx where
  num : Nat := 0
  voq : Nat := 0
  nextSeq : Nat := 0
  batches : List Batch := []
  chain : List (Nat × Nat) := []
  deriving DecidableEq, Repr

/-- The Sump controller beside its registers (chapter 06). `queue`: closed batches in closing order, as context and
sequence. `allowance`: A of R197 and `level`: the budget level, as last published; `allowNow` and `levelNow`: those in force since the last
batch boundary (R44, R196). -/
structure Sump where
  ctxs : List Ctx := []
  queue : List (Nat × Nat) := []
  nextPort : Nat := 0
  rrCtx : Nat := 0
  wrBucket : Nat := 98304000
  rdBucket : Nat := 98304000
  at_ : Nat := 0
  allowance : Nat := 3200
  allowNow : Nat := 3200
  level : Nat := 0
  levelNow : Nat := 0
  enumerating : Nat := 0
  voqLatch : Nat := 0
  deriving DecidableEq, Repr


/-- A member record (R238). -/
structure Member where
  ip : Nat := 0
  mac : Nat := 0
  udp : Nat := 0
  port : Nat := 0
  deriving DecidableEq, Repr

/-- An operation of a group (R241 to R243): its job, its steps and parameters, how many of its steps have been dispatched,
the counts of its completion, whether an ERROR about it was sent, whether it has been aborted. -/
structure GOp where
  job : Nat := 0
  first : Nat := 0
  steps : Nat := 0
  op : Nat := 0
  dtype : Nat := 0
  elems : Nat := 0
  chunk : Nat := 0
  sent : Nat := 0
  retired : Nat := 0
  partials : Nat := 0
  expired : Nat := 0
  err : Bool := false
  aborted : Bool := false
  deriving DecidableEq, Repr

/-- An operation that is over: its first step, its steps, how many of them are retired or count as retired (every one after a
straggler abort, R253; those dispatched when its ring shut down or was reset, R356, R360), and whether the straggler timeout
aborted it. -/
structure PastOp where
  first : Nat
  steps : Nat
  gone : Nat
  aborted : Bool
  deriving DecidableEq, Repr

/-- A dispatched step that has not retired (R245): RESULTED or not, its hold time passed or not. -/
structure GStep where
  step : Nat := 0
  resulted : Bool := false
  expired : Bool := false
  deriving DecidableEq, Repr

/-- An accumulator of one element (R256, R257): the value in units of the data type's fixed point, whether it holds one, NaN
seen, +∞ seen, −∞ seen, every contribution −0. -/
structure Accum where
  v : Int := 0
  some_ : Bool := false
  nan : Bool := false
  pinf : Bool := false
  ninf : Bool := false
  negZero : Bool := true
  deriving DecidableEq, Repr

/-- The state of a context that is not FREE (R244). -/
inductive CtxSt | open_ | complete | failed
  deriving DecidableEq, Repr

/-- A context of a chunk (R244): its group's slot, step and chunk, its engine, its state, the member bitmap, the accumulators,
and of a complete one its payload, PARTIAL and SAT flags and NCONTRIB. -/
structure GCtx where
  slot : Nat := 0
  step : Nat := 0
  seq : Nat := 0
  engine : Nat := 0
  at_ : CtxSt := .open_
  bits : Nat := 0
  acc : List Accum := []
  payload : List Byte := []
  part : Bool := false
  sat : Bool := false
  n : Nat := 0
  deriving DecidableEq, Repr

/-- A group of the directory (R232, R237) with its member table, its open and queued operations, the acknowledged step of
each member as a signed value (R251), the steps in flight, the ranges of steps of operations that have ended and whether they
were aborted, the time of its last dispatch, and since when a step of it waits. -/
structure Group where
  id : Nat := 0
  gen : Nat := 0
  m : Nat := 0
  engines : Nat := 0
  home : Nat := 0
  ep : Nat := 0
  queue : Nat := 8
  addr : Bool := false
  resMc : Nat := 0
  resIp : Nat := 0
  resMac : Nat := 0
  resUdp : Nat := 0
  dscp : Nat := 0
  window : Nat := 1
  nakUs : Nat := 1
  stragUs : Nat := 1
  holdUs : Nat := 1
  partial_ : Bool := false
  members : List Member := []
  ops : List GOp := []
  acked : List Int := []
  steps : List GStep := []
  past : List PastOp := []
  lastAt : Option Nat := none
  waitAt : Option Nat := none
  deriving DecidableEq, Repr

/-- The Gather engines beside their registers: the directory by slot, the contexts, each engine's tokens in millionths
(R248), the time they were counted at, the level in force, answers sent in the current millisecond (R259), the pipeline that
each engine serves next (R233), and the words of GTH_DIR_DATA latched by a read of word 0. -/
structure Gth where
  dir : Sparse Group := []
  ctxs : List GCtx := []
  tokens : Sparse Int := []
  tokensAt : Nat := 0
  level : Nat := 0
  answers : Sparse (Nat × Nat) := []
  next : Sparse Nat := []
  dirLatch : List Nat := []
  deriving DecidableEq, Repr

/-- The Annealer beside its registers (chapter 09): the activity counts of the last period; the level of R274 before the
forced minimums, periods in a row below its threshold; the allowance A and the ceiling computed and not yet published;
periods of compute shortfall and of fitting demand; the class-plus-base totals of the current PMBus window, in 1/1.024e11 mW, and how
many; consecutive failed, diverging and quiet windows; M in 0.1 W and P of the last complete window; droop firings in the current window by
die, the stretched dies, whether the last window forces L2; sensors at or above 130 °C and faulty at the last conversion; AVSBus writes that
failed in a row and whether the command is held; whether STATUS_WORD is to be read, the records of the alerts that asked for it, by
number, whether one of them is the fault that the latch holds, and the words last read (R270); the energy not yet counted, in
nJ. -/
structure Anl where
  counts : Sparse Nat := []
  level : Nat := 0
  dwell : Nat := 0
  aNext : Nat := 3200
  ceilNext : Nat := 15
  shortN : Nat := 0
  fitN : Nat := 0
  winSum : Nat := 0
  winN : Nat := 0
  failed : Nat := 0
  divN : Nat := 0
  quietN : Nat := 0
  meas : Nat := 0
  model : Nat := 0
  fires : Sparse Nat := []
  stretched : List Nat := []
  droopFloor : Bool := false
  hot130 : List Nat := []
  faulty : List Nat := []
  rdHot : List Nat := []
  avsFails : Nat := 0
  avsHeld : Bool := false
  readStatus : Bool := false
  alertRecs : List Nat := []
  alertLatched : Bool := false
  statusWords : List Nat := []
  energy : Nat := 0
  deriving DecidableEq, Repr
/-- The device: everything the spec gives the machine but the queue of commands. -/
structure Dev where
  regs : Sparse Word := []
  comm : Sparse Word := []
  snap : Sparse Word := []
  latches : Sparse (Nat × Nat) := []
  holds : Sparse (Nat × Nat) := []
  ns : Nat := 0
  frac : Nat := 0
  safe : Bool := false
  resets : Nat := 0
  freeIdx : Nat := 0
  out : List Output := []
  act : Sparse Nat := []
  pmcWraps : List (Nat × Nat) := []
  otp : Otp := {}
  rst : RstSt := {}
  hif : Hif := {}
  svc : Svc := {}
  spl : Spl := {}
  bmc : Bmc := {}
  phy : Phy := {}
  tlm : Tlm := {}
  dp : Dp := {}
  tbl : Tbl := {}
  sump : Sump := {}
  gth : Gth := {}
  anl : Anl := {}
  deriving DecidableEq, Repr

/-- The machine: the commands that wait, first in first out, and the device. -/
structure State where
  pending : List Instr
  dev : Dev
  deriving DecidableEq, Repr

/-- The machine right after reset: every register at the reset value of its table (`Reg.resetWord`), nothing stored, no
command waiting. The power-up sequence of R419 has no domain left to reach, since GLB_PD_ON resets to all ones. -/
def State.reset : State := { pending := [], dev := {} }

/-- No command of this block stops the machine with a fault: every stop the spec describes is an effect on the state
(an error flag, a refused access, a status code). The type has no constructor, so no meaning can answer one. -/
inductive Fault where
  deriving DecidableEq, Repr

/-- Why a command has no meaning. -/
inductive Refusal where
  /-- Raised by `exec` alone, for a row of the table whose meaning is not written. Safe: the run ends. -/
  | notModelled (mnemonic : String)
  deriving DecidableEq, Repr

end Sys2Proof.Machine
end

