-- ==== Sys2Proof/Machine/Ops.lean ====
section
/-!
DEFINITION. The named operations over the device's state: sparse memories, the register store and its fields, counters,
free values, outputs, activity and energy counts, performance counters, and the lift of an effect on the device to an
outcome. Every meaning is written over these.
-/

namespace Sys2Proof.Machine

/-! ## Sparse memories -/

/-- The value at key `k`: the listed one, or the default. -/
def Sparse.get {α : Type} (dflt : α) (m : Sparse α) (k : Nat) : α :=
  match m with
  | [] => dflt
  | (k', v) :: t => if k = k' then v else Sparse.get dflt t k

/-- Key `k` listed with `v`, in its place: keys stay strictly rising. -/
def Sparse.insert {α : Type} (m : Sparse α) (k : Nat) (v : α) : Sparse α :=
  match m with
  | [] => [(k, v)]
  | (k', v') :: t =>
    if k < k' then (k, v) :: (k', v') :: t
    else if k = k' then (k, v) :: t
    else (k', v') :: Sparse.insert t k v

/-- Key `k` set to `some v`, or removed. -/
def Sparse.put {α : Type} (m : Sparse α) (k : Nat) (o : Option α) : Sparse α :=
  match o with
  | some v => Sparse.insert m k v
  | none => m.filter (fun e => e.1 != k)

/-- Key `k` set to `v`; the default is not listed. -/
def Sparse.set {α : Type} [DecidableEq α] (dflt : α) (m : Sparse α) (k : Nat) (v : α) : Sparse α :=
  Sparse.put m k (if v = dflt then none else some v)

/-- Every entry that does not satisfy `p` (of its key) is dropped, so that it reads as the default again. -/
def Sparse.keep {α : Type} (m : Sparse α) (p : Nat → Bool) : Sparse α := m.filter (fun e => p e.1)

/-- The canonical form: keys strictly rising, no entry equal to the default. -/
def Sparse.wf {α : Type} [DecidableEq α] (dflt : α) (m : Sparse α) : Bool :=
  match m with
  | [] => true
  | [(_, v)] => decide (v ≠ dflt)
  | (k, v) :: (k', v') :: t => decide (k < k') && decide (v ≠ dflt) && Sparse.wf dflt ((k', v') :: t)

/-! ## Small arithmetic -/

/-- Bit `i` of `v`. -/
def bitAt (v i : Nat) : Bool := v / 2 ^ i % 2 = 1

/-- A Bool as a register bit. -/
def b2n (b : Bool) : Nat := if b then 1 else 0

/-- `v` with bit `i` set to `b`. -/
def putBit (v i : Nat) (b : Bool) : Nat := setBitsOf v i i (b2n b)

/-- The quotient rounded up; 0 for a divisor of 0. -/
def ceilDiv (a b : Nat) : Nat := if b = 0 then 0 else (a + b - 1) / b

/-- The little-endian value of a byte list (R3). -/
def leVal (bs : List Byte) : Nat := bs.foldr (fun b a => b.toNat + 256 * a) 0

/-- The big-endian (network order) value of a byte list (R3). -/
def beVal (bs : List Byte) : Nat := bs.foldl (fun a b => 256 * a + b.toNat) 0

/-- `n` little-endian bytes of `v`. -/
def leBytes (n v : Nat) : List Byte := (List.range n).map (fun i => BitVec.ofNat 8 (v / 256 ^ i))

/-- `n` big-endian bytes of `v`. -/
def beBytes (n v : Nat) : List Byte := (List.range n).map (fun i => BitVec.ofNat 8 (v / 256 ^ (n - 1 - i)))

/-- The byte of a list at an offset; 0 beyond its end. -/
def byteAt (bs : List Byte) (i : Nat) : Nat := (bs.getD i 0).toNat

/-- `n` bytes from offset `i`. -/
def sliceOf (bs : List Byte) (i n : Nat) : List Byte := (bs.drop i).take n

/-- The two's-complement value of the low `w` bits of `v`. -/
def toSigned (w v : Nat) : Int :=
  let x := v % 2 ^ w
  if x < 2 ^ (w - 1) then (x : Int) else (x : Int) - (2 ^ w : Nat)

/-- The low `w` bits of an integer, as a natural number. -/
def ofSigned (w : Nat) (x : Int) : Nat := (x % (2 ^ w : Nat)).toNat

/-- The indices 0 to n − 1 that satisfy `p`. -/
def indicesWhere (n : Nat) (p : Nat → Bool) : List Nat := (List.range n).filter p

/-- Bits [n−1:0] from a predicate on bit numbers. -/
def bitsFrom (n : Nat) (p : Nat → Bool) : Nat :=
  (List.range n).foldl (fun a i => a + b2n (p i) * 2 ^ i) 0

/-- The number of set bits below bit `n`. -/
def popCount (n v : Nat) : Nat := ((List.range n).filter (fun i => bitAt v i)).length

/-- One step of the reflected CRC-32C of R453 over one bit. -/
def crcBit (r : Nat) : Nat := if r % 2 = 1 then Nat.xor (r / 2) 0x82F63B78 else r / 2

/-- CRC-32C of R453: preset, bytes from byte 0, bits least significant first, no final xor. -/
def crc32c (init : Nat) (bs : List Byte) : Nat :=
  bs.foldl (fun r b =>
    crcBit (crcBit (crcBit (crcBit (crcBit (crcBit (crcBit (crcBit (Nat.xor r b.toNat))))))))) init

/-- The check code of RFC 3720 (R453): preset all ones, final xor all ones. -/
def crcCheck (bs : List Byte) : Nat := Nat.xor (crc32c 0xFFFFFFFF bs) 0xFFFFFFFF

/-! ## Registers -/

/-- The reset value of an instance, as a stored word. -/
def Reg.resetWord (r : Reg) (ix : List Nat) : Word := BitVec.ofNat 64 (r.resetAt (flatIndex r.dims ix 0))

/-- The staged or plain value of a register instance. -/
def Dev.raw (d : Dev) (r : Reg) (ix : List Nat) : Nat :=
  (Sparse.get (r.resetWord ix) d.regs (r.key ix)).toNat

/-- A register instance set whole. -/
def Dev.setRaw (d : Dev) (r : Reg) (ix : List Nat) (v : Nat) : Dev :=
  { d with regs := Sparse.set (r.resetWord ix) d.regs (r.key ix) (BitVec.ofNat 64 v) }

/-- The committed value of a register instance (R8): the set the block acts on. -/
def Dev.rawC (d : Dev) (r : Reg) (ix : List Nat) : Nat :=
  (Sparse.get (r.resetWord ix) d.comm (r.key ix)).toNat

/-- A committed value set whole. -/
def Dev.setRawC (d : Dev) (r : Reg) (ix : List Nat) (v : Nat) : Dev :=
  { d with comm := Sparse.set (r.resetWord ix) d.comm (r.key ix) (BitVec.ofNat 64 v) }

/-- A field's staged or plain value. -/
def Dev.rd (d : Dev) (f : Fld) (ix : List Nat) : Nat := bitsOf (d.raw f.reg ix) f.hi f.lo

/-- A field's committed value. -/
def Dev.cm (d : Dev) (f : Fld) (ix : List Nat) : Nat := bitsOf (d.rawC f.reg ix) f.hi f.lo

/-- A field set. -/
def Dev.wr (d : Dev) (f : Fld) (ix : List Nat) (v : Nat) : Dev :=
  d.setRaw f.reg ix (setBitsOf (d.raw f.reg ix) f.hi f.lo v)

/-- A committed field set (used where a commit keeps an old value). -/
def Dev.wrC (d : Dev) (f : Fld) (ix : List Nat) (v : Nat) : Dev :=
  d.setRawC f.reg ix (setBitsOf (d.rawC f.reg ix) f.hi f.lo v)

/-- A one-bit field, as a Bool. -/
def Dev.on (d : Dev) (f : Fld) (ix : List Nat) : Bool := d.rd f ix != 0

/-- A one-bit committed field, as a Bool. -/
def Dev.onC (d : Dev) (f : Fld) (ix : List Nat) : Bool := d.cm f ix != 0

/-- A counter of R13 raised by `n`: 64-bit fields wrap, narrower ones saturate at all ones. -/
def Dev.addTo (d : Dev) (f : Fld) (ix : List Nat) (n : Nat) : Dev :=
  let v := d.rd f ix + n
  let w := f.hi + 1 - f.lo
  if w = 64 then d.wr f ix (v % 2 ^ 64)
  else d.wr f ix (if v < 2 ^ w then v else 2 ^ w - 1)

/-- A counter of R13 raised by one. -/
def Dev.inc (d : Dev) (f : Fld) (ix : List Nat) : Dev := d.addTo f ix 1

/-- Every register instance whose key does not satisfy `p` returns to its reset value, staged and committed. -/
def Dev.keepRegs (d : Dev) (p : Nat → Bool) : Dev :=
  { d with regs := Sparse.keep d.regs p, comm := Sparse.keep d.comm p, snap := Sparse.keep d.snap p }

/-- Window number, register number and flat index of a key. -/
def keyWin (k : Nat) : Nat := k / 4294967296
def keyId (k : Nat) : Nat := k % 4294967296 / 1048576
def keyFlat (k : Nat) : Nat := k % 1048576

/-! ## Free values and outputs -/

/-- The next free value, and the device that has used it. -/
def Dev.free (d : Dev) : Word × Dev := (Config.freeValue d.freeIdx, { d with freeIdx := d.freeIdx + 1 })

/-- Something leaves the device. -/
def Dev.emit (d : Dev) (o : Output) : Dev := { d with out := d.out ++ [o] }

/-- A bad access (R17, R20): the first is recorded, a later one sets OVF and is counted; COUNT saturates. -/
def Dev.badAccess (d : Dev) (bar kind mid off : Nat) : Dev :=
  if d.on F.GLB_BAD_ACCESS_VALID [] then (d.wr F.GLB_BAD_ACCESS_OVF [] 1).inc F.GLB_BAD_ACCESS_COUNT []
  else
    let d := (d.setRaw R.GLB_BAD_ACCESS [] 0).wr F.GLB_BAD_ACCESS_VALID [] 1
    let d := (d.wr F.GLB_BAD_ACCESS_BAR [] bar).wr F.GLB_BAD_ACCESS_KIND [] kind
    ((d.wr F.GLB_BAD_ACCESS_MID [] mid).wr F.GLB_BAD_ACCESS_COUNT [] 1).wr F.GLB_BAD_ACCESS_OFFSET [] off

/-! ## Power domains (spec/01_parts_and_paths.md R35, R37) -/

/-- Power domain `n` is on: its GLB_PD_ON bit. -/
def Dev.domOn (d : Dev) (n : Nat) : Bool := bitAt (d.rd F.GLB_PD_ON_ON [n / 32]) (n % 32)

/-! ## Performance counters (spec/10_telemetry_and_counters.md R316 to R321) -/

/-- The power domain of a PMC unit; `none` for the unswitched core region (R35, R316). -/
def pmcDomain (u : Nat) : Option Nat :=
  if u < 32 then some (128 + u)
  else if u < 64 then some (128 + (u - 32))
  else if u < 96 then none
  else if u < 104 then some (160 + (u - 96))
  else if u < 108 then none
  else if u < 112 then some (168 + (u - 108))
  else if u < 120 then some (172 + (u - 112))
  else if u = 120 then none
  else if u < 129 then some (182 + (u - 121) / 2)
  else if u = 130 then some 181
  else none

/-- Unit `u`'s domain is on. -/
def Dev.pmcOn (d : Dev) (u : Nat) : Bool :=
  match pmcDomain u with
  | some k => d.domOn k
  | none => true

/-- Counters run: neither frozen (R320) nor in the safe state (R408). -/
def Dev.pmcRuns (d : Dev) : Bool := !d.on F.PMC_GCTL_FREEZE [] && !d.safe

/-- The BAR0 offset of a register's first instance (R15). -/
def Reg.bar0 (r : Reg) : Nat := r.win * 1048576 + r.off

/-- The BAR0 offset of a register instance. -/
def Reg.at_ (r : Reg) (ix : List Nat) : Nat :=
  r.bar0 + (r.dims.zip ix).foldl (fun a x => a + x.2 * x.1.stride) 0

/-- What is left of a value read from or written to a register: dwords in error read 0 (R393). -/
def Dev.shownWord (d : Dev) (r : Reg) (ix : List Nat) (v : Nat) : Nat :=
  let v := if d.spl.dead.any (fun w => w.off == r.at_ ix) then setBitsOf v 31 0 0 else v
  if d.spl.dead.any (fun w => w.off == r.at_ ix + 4) && r.wide then setBitsOf v 63 32 0 else v

/-- `n` counts added to counter `c` of unit `u`: the wrap from 2^48 − 1 to 0, PMC_OVF, the chained upper counter, and
the overflow sample owed when SMP = 1 (R318, R319). `fuel` bounds the chain: an upper counter has no upper of its own. -/
def Dev.pmcAdd (d : Dev) (u c n : Nat) : Nat → Dev
  | 0 => d
  | fuel + 1 =>
    let v := d.rd F.PMC_CNT_COUNT [u, c] + n
    let wraps := v / 2 ^ 48
    let d := d.wr F.PMC_CNT_COUNT [u, c] (v % 2 ^ 48)
    if wraps = 0 then d
    else
      let chained := bitAt (d.rd F.PMC_UCTL_CHAIN [u]) (c / 2)
      let d := d.wr F.PMC_OVF_OVF [u] (putBit (d.rd F.PMC_OVF_OVF [u]) c true)
      let lower := chained && c % 2 == 0
      let d := if d.on F.PMC_EVSEL_SMP [u, c] && !lower then { d with pmcWraps := d.pmcWraps ++ [(u, c)] } else d
      if lower then d.pmcAdd u (c + 1) wraps fuel else d

/-- `n` events of code `code` in unit `u`: each counter that selects the code counts them (R317). -/
def Dev.pmc (d : Dev) (u code n : Nat) : Dev :=
  if d.pmcRuns && d.pmcOn u && n != 0 then
    (List.range 8).foldl (fun d c =>
      let upper := bitAt (d.rd F.PMC_UCTL_CHAIN [u]) (c / 2) && c % 2 == 1
      if d.rd F.PMC_EVSEL_EVENT [u, c] = code && !upper then d.pmcAdd u c n 2 else d) d
  else d

/-! ## Activity and energy (spec/09_annealer_power_thermal.md R262, R263, R290) -/

/-- The commanded VDD_CORE in mV that the model scales by (R263). -/
def Dev.vdd (d : Dev) : Nat :=
  if d.on F.ANL_AVS_MODE [] then d.rd F.ANL_AVS_STAT_VCMD_MV [] else d.rd F.ANL_AVS_FIXED_MV []

/-- Coefficients whose terms scale with the square of the voltage: all but 3, 4 and 14 (R263). -/
def coefCore (i : Nat) : Bool := !(i == 3 || i == 4 || i == 14)

/-- The energy of `n` events of index `i`, in units of 1/16 pJ × 800² (R263, R290). -/
def Dev.eventEnergy (d : Dev) (i n : Nat) : Nat :=
  let v := if coefCore i then d.vdd else 800
  n * d.cm F.ANL_COEF_VALUE [i] * (v * v)

/-- `n` activity events of index `i` in this period (R262). -/
def Dev.activity (d : Dev) (i n : Nat) : Dev :=
  { d with act := Sparse.set 0 d.act i (Sparse.get 0 d.act i + n) }

/-- The energy of `n` events of index `i` attributed to job `j` (R290). -/
def Dev.attribute (d : Dev) (j : Option Nat) (i n : Nat) : Dev :=
  let e := d.eventEnergy i n
  match j with
  | none => d
  | some id =>
    { d with hif := { d.hif with jobs := d.hif.jobs.map (fun x => if x.id = id then { x with energy := x.energy + e } else x) } }

/-- `n` activity events of index `i` that job `j` causes: they count in the period and in the job's energy (R290). -/
def Dev.charge (d : Dev) (j : Option Nat) (i n : Nat) : Dev := (d.activity i n).attribute j i n

/-! ## The two sets (R8) -/

/-- A stored register of window `w` that has an RWS field. -/
def stagedKey (w k : Nat) : Bool :=
  keyWin k == w && (regsOfWindow w).any (fun r => r.id == keyId k && r.fields.any (fun f => f.acc == .rws))

/-- `m` with the entries that satisfy `p` replaced by those of `s`. -/
def swapKeys (m s : Sparse Word) (p : Nat → Bool) : Sparse Word :=
  (s.filter (fun e => p e.1)).foldl (fun a e => Sparse.put a e.1 (some e.2)) (m.filter (fun e => !p e.1))

/-- The block of window `w` has RWS registers; a GO write to another block completes at once (R16). -/
def hasStaged (w : Nat) : Bool := (regsOfWindow w).any (fun r => r.fields.any (fun f => f.acc == .rws))

/-- CFG_COMMIT of a window: its BUSY field. -/
def commitBusy (w : Nat) : Fld :=
  match (regsOfWindow w).find? (fun r => r.off == 0xFF004) with
  | some r => ⟨r, 31, 31⟩
  | none => F.GLB_CFG_COMMIT_BUSY

/-- A GO write to window `w` (R8): discarded while BUSY, else the staged values are taken. -/
def Dev.commitGo (d : Dev) (w : Nat) : Dev :=
  if !hasStaged w || d.on (commitBusy w) [] then d
  else { d.wr (commitBusy w) [] 1 with snap := swapKeys d.snap d.regs (stagedKey w) }

/-! ## Words in error (R393) -/

/-- A stored set of registers in which dword `w` is 0. -/
def DeadWord.clear (w : DeadWord) (m : Sparse Word) : Sparse Word :=
  let v := (Sparse.get w.reset m w.key).toNat
  Sparse.set w.reset m w.key (BitVec.ofNat 64 (if w.high then setBitsOf v 63 32 0 else setBitsOf v 31 0 0))

/-- The words of key hash, rollback index, VMIN and trim as the OTP gives them: a word in error reads 0. -/
def Otp.keyNow (o : Otp) : List Nat :=
  o.key.zipIdx.map (fun x => if o.dead.any (fun w => match w with
    | .key i => i.val == x.2
    | _ => false) then 0 else x.1)
def Otp.index (o : Otp) : Nat :=
  (if o.dead.contains (.rollback 0) then 0 else min 32 o.rollback) + (if o.dead.contains (.rollback 1) then 0 else o.rollback - 32)
def Otp.vminNow (o : Otp) : Nat := if o.dead.contains .vmin then 0 else o.vmin
def Otp.trimOf (o : Otp) (i : Nat) : Option Nat :=
  if o.dead.any (fun w => match w with
    | .trim j => j.val == i
    | _ => false) then some 0
  else (o.trim.find? (fun x => x.1 == i)).map (fun x => x.2)

/-! ## Lifting an effect on the device to an outcome -/

/-- What no effect can undo (R389, R390, R393, R406): the count of resets never falls, the safe state ends only where a reset has
begun, and until then a word in error stays 0; the rollback index only rises, and the OTP key field, once locked, stays locked and
unchanged. -/
def Dev.latched (old new : Dev) : Dev :=
  let dead := if new.resets ≤ old.resets then old.spl.dead else []
  { new with
    regs := dead.foldl (fun m w => w.clear m) new.regs
    comm := dead.foldl (fun m w => w.clear m) new.comm
    resets := max old.resets new.resets
    safe := new.safe || (old.safe && decide (new.resets ≤ old.resets))
    otp := { new.otp with
      rollback := max old.otp.rollback new.otp.rollback
      locked := new.otp.locked || old.otp.locked
      key := if old.otp.locked then old.otp.key else new.otp.key } }

/-- An effect on a device that no reset holds: while a reset is in progress nothing else acts (R415 to R423, log 5). -/
def Dev.apply (d : Dev) (f : Dev → Dev) : Dev := if d.rst.level.isNone then Dev.latched d (f d) else d

/-- The outcome of an effect `f` on the device: the next state, with the queue untouched. -/
def State.run (s : State) (f : Dev → Dev) : Host.Outcome State Fault Refusal :=
  .next { s with dev := s.dev.apply f }

/-- The outcome of an effect that acts whether or not a reset is in progress: pins, supplies, clocks, reset itself. -/
def State.runAny (s : State) (f : Dev → Dev) : Host.Outcome State Fault Refusal :=
  .next { s with dev := Dev.latched s.dev (f s.dev) }

end Sys2Proof.Machine
end

