-- ==== Sys2Proof/Machine/Events.lean ====
section
/-!
DEFINITION. Completion rings as a shared facility (spec/11_host_rings.md): owners, indices, writing an entry, the holding
queue, interrupts, events and their backlog.
-/

namespace Sys2Proof.Machine

/-! ## Owners (R329) -/

/-- Ring pairs of VFv: the first and how many, counts above 16 acting as 16. -/
def Dev.vfRange (d : Dev) (v : Nat) : Nat × Nat :=
  (d.cm F.HIF_VF_MAP_FIRST [v], min 16 (d.cm F.HIF_VF_MAP_COUNT [v]))

/-- Ring pair `n` lies in VFv's range. -/
def Dev.vfOwns (d : Dev) (v n : Nat) : Bool :=
  let (f, c) := d.vfRange v
  f ≤ n && n < f + c

/-- The owner of ring pair `n`: the first VF whose range holds it, or PF0. -/
def Dev.owner (d : Dev) (n : Nat) : Nat :=
  ((List.range 32).find? (fun v => v != 0 && d.vfOwns v n)).getD 0

/-- The committed range of VFv overlaps another one or passes ring pair 255. -/
def Dev.vfBad (d : Dev) (v : Nat) : Bool :=
  let (f, c) := d.vfRange v
  v != 0 && c != 0 && (256 < f + c || (List.range 32).any (fun w =>
    let (g, e) := d.vfRange w
    w != 0 && w != v && e != 0 && f < g + e && g < f + c))

/-- HIF_STAT.CNFG_MISMATCH. -/
def Dev.vfMismatch (d : Dev) : Bool := (List.range 32).any (fun v => d.vfBad v)

/-! ## Ring pairs -/

def Dev.ring (d : Dev) (n : Nat) : Ring := Sparse.get {} d.hif.rings n

def Dev.setRing (d : Dev) (n : Nat) (r : Ring) : Dev :=
  { d with hif := { d.hif with rings := Sparse.set {} d.hif.rings n r } }

def Dev.sqSize (d : Dev) (n : Nat) : Nat := 2 ^ d.rd F.RING_SIZE_SQ_LOG2 [n]
def Dev.cqSize (d : Dev) (m : Nat) : Nat := 2 ^ d.rd F.RING_SIZE_CQ_LOG2 [m]

/-- `a − b` modulo 2S (R332). -/
def ringDiff (a b s : Nat) : Nat := (a + 2 * s - b % (2 * s)) % (2 * s)

/-- The configuration space of function `fn` (R324). -/
def Dev.fnCfg (d : Dev) (fn : Nat) : PcieCfg := Sparse.get {} d.hif.pcie fn

/-- Function `fn` exists: PF0, or a VF that SR-IOV enables (R324, R329). -/
def Dev.fnOn (d : Dev) (fn : Nat) : Bool :=
  fn == 0 || ((d.fnCfg 0).vfEnable && fn ≤ (d.fnCfg 0).numVfs.val)

/-- The owner's function may issue DMA (R328), the interface is not in reset (R360), the PCIe endpoint's domain is on and
its link up, and the safe state does not forbid it (R408). -/
def Dev.dmaOk (d : Dev) (fn : Nat) : Bool :=
  bitAt d.hif.busMaster fn && d.on F.HIF_STAT_LINK_UP [] && !d.on F.HIF_STAT_RST_BUSY [] && d.domOn 180 &&
    !(d.safe && (d.spl.safeBy == 54 || d.spl.safeBy == 55))

/-- Completion ring `m` is enabled, or still drains after CQ_EN = 0 (R358). -/
def Dev.cqLive (d : Dev) (m : Nat) : Bool := d.on F.RING_CTL_CQ_EN [m] || (d.ring m).stopCq

/-- Completion ring `m` has a free slot (R332). In owner mode a slot is known to be free only when it has just been read
(R338), so there is none here. -/
def Dev.cqRoom (d : Dev) (m : Nat) : Bool :=
  !d.on F.RING_CTL_OWNMODE [m] &&
    ringDiff (d.rd F.RING_CQ_PROD_INDEX [m]) (d.rd F.RING_CQ_CONS_INDEX [m]) (d.cqSize m) < d.cqSize m

/-- The device can write an entry into completion ring `m` now, given whether a slot is free. -/
def Dev.cqMay (d : Dev) (m : Nat) (room : Bool) : Bool :=
  d.cqLive m && room && d.dmaOk (d.owner m) && !d.vfBad (d.owner m)

/-! ## Interrupts (R327) -/

/-- An MSI-X message of PF0: sent, or left pending while the table masks the vector (log 20) or PF0 may issue no request
(R328). -/
def Dev.msix (d : Dev) (v : Nat) : Dev :=
  if bitAt (d.rd F.HIF_MSIX_TABLE_DATA [v, 3]) 0 || !d.dmaOk 0 then
    d.wr F.HIF_MSIX_PBA_PEND [v / 32] (putBit (d.rd F.HIF_MSIX_PBA_PEND [v / 32]) (v % 32) true)
  else d.emit (.msix v)

/-- Completion ring `m` signals its vector and starts to count afresh. -/
def Dev.signalRing (d : Dev) (m : Nat) : Dev :=
  let v := d.rd F.RING_IRQ_VECTOR [m]
  let o := d.owner m
  let d := d.setRing m { d.ring m with irqCount := 0 }
  if o = 0 then d.msix v
  else if Sparse.get 0 d.hif.msiVectors o ≤ v then d.wr F.RING_STAT_IRQ_REJ [m] 1
  else if d.dmaOk o then d.emit (.msi o v)
  else d.setRing m { d.ring m with irqOwed := true }

/-- The pending vectors of PF0's MSI-X table that it does not mask are sent. -/
def Dev.msixPending (d : Dev) : Dev :=
  (List.range 256).foldl (fun d v =>
    let pba := d.rd F.HIF_MSIX_PBA_PEND [v / 32]
    if bitAt pba (v % 32) && !bitAt (d.rd F.HIF_MSIX_TABLE_DATA [v, 3]) 0 then
      (d.wr F.HIF_MSIX_PBA_PEND [v / 32] (putBit pba (v % 32) false)).emit (.msix v)
    else d) d

/-- Messages that waited until their function may issue requests are sent (R328). -/
def Dev.sendOwed (d : Dev) : Dev :=
  let d := if d.dmaOk 0 then d.msixPending else d
  (d.hif.rings.filter (fun e => e.2.irqOwed && d.dmaOk (d.owner e.1))).foldl (fun d e =>
    (d.setRing e.1 { d.ring e.1 with irqOwed := false }).signalRing e.1) d

/-- The ring signals when COUNT entries have been written since its last signal. -/
def Dev.checkIrq (d : Dev) (m : Nat) : Dev :=
  if d.on F.RING_IRQ_EN [m] && max 1 (d.rd F.RING_IRQ_COUNT [m]) ≤ (d.ring m).irqCount then d.signalRing m else d

/-! ## Writing entries -/

/-- `n` bytes written to host memory: activity index 14, and event 0x6D of the host interface. -/
def Dev.dmaWrote (d : Dev) (j : Option Nat) (n : Nat) : Dev :=
  let t := d.hif.dmaWriteRem + n
  let d := { d with hif := { d.hif with dmaWriteRem := t % 64 } }
  (d.pmc 120 0x6D (t / 64)).charge j 14 n

/-- `n` bytes read from host memory. -/
def Dev.dmaRead (d : Dev) (j : Option Nat) (n : Nat) : Dev :=
  let t := d.hif.dmaReadRem + n
  let d := { d with hif := { d.hif with dmaReadRem := t % 64 } }
  (d.pmc 120 0x6C (t / 64)).charge j 14 n

/-- The PH bit of an entry written at index `i` (R336); in owner mode OWNER = 1 (R338). -/
def Dev.entryPh (d : Dev) (m i : Nat) : Nat :=
  if d.on F.RING_CTL_OWNMODE [m] then 1 else if i < d.cqSize m then 1 else 0

/-- A failed DMA of function `fn`, counted in HIF_DMA_ERR: AER records it, and reports it when the host has enabled it (R359). -/
def Dev.dmaErr (d : Dev) (fn : Nat) (err : AerError) : Dev :=
  let d := d.inc F.HIF_DMA_ERR_COUNT []
  let d := { d with hif := { d.hif with aer := d.hif.aer ++ [(fn, err)] } }
  if (d.fnCfg fn).aer then d.emit (.aer fn err) else d

/-- An entry written at index q of completion ring `m`: bytes 0 to 27, then bytes 28 to 31 (R336). -/
def Dev.writeEntry (d : Dev) (m : Nat) (e : RingEntry) : Dev :=
  let q := d.rd F.RING_CQ_PROD_INDEX [m]
  let s := d.cqSize m
  let a := d.rd F.RING_CQ_BASE_ADDR [m] * 32 + 32 * (q % s)
  let o := d.owner m
  let d := (d.emit (.dmaDwords o a e.body)).emit (.dmaDwords o (a + 28) [e.last + d.entryPh m q])
  let d := (d.wr F.RING_CQ_PROD_INDEX [m] ((q + 1) % (2 * s))).dmaWrote none 32
  let d := match e.sq with
    | some n => (d.inc F.RING_JOBS_COUNT [n]).pmc 120 0x69 1
    | none => d
  let d := match e.vec with
    | some v => d.msix v
    | none => d
  let d := d.setRing m { d.ring m with irqCount := (d.ring m).irqCount + 1 }
  d.checkIrq m

/-! ## Events (R353, R354) -/

/-- An event's entry: type, subkind and its seven dwords. -/
def eventEntry (ty sub : Nat) (body : List Nat) : RingEntry :=
  { body := body, last := ty * 2 ^ 24 + sub * 2 ^ 16, sq := none }

/-- The seven dwords of an event of types 0x02 to 0x06: bytes 0 to 7, TIME in bytes 8 to 15, bytes 16 to 27 (R354). -/
def Dev.eventBody (d : Dev) (w0 w1 w4 w5 w6 : Nat) : List Nat :=
  [w0, w1, d.ns % 2 ^ 32, d.ns / 2 ^ 32 % 2 ^ 32, w4, w5, w6]

/-- An event may be written into ring `m`: room, and an empty holding queue (R353). -/
def Dev.eventMay (d : Dev) (m : Nat) : Bool :=
  d.cqMay m (d.cqRoom m) && (d.ring m).hold.isEmpty && (d.ring m).late.isEmpty

/-- An event for ring `m`: written, or it waits in the backlog of 256, or it is lost and counted (R354). An event that
finds an earlier one for its ring waiting queues behind it. -/
def Dev.postEvent (d : Dev) (m : Nat) (e : RingEntry) : Dev :=
  if d.eventMay m && !d.hif.backlog.any (fun x => x.1 == m) then d.writeEntry m e
  else if d.hif.backlog.length < 256 then
    { d with hif := { d.hif with backlog := d.hif.backlog ++ [(m, e)] } }
  else
    { d.inc F.HIF_EVT_LOST_COUNT [] with hif := { d.hif with lostSince := d.hif.lostSince + 1 } }

/-- One pass over the backlog: each event whose ring can take it is written, in order. -/
def Dev.drainList (d : Dev) : List (Nat × RingEntry) → Dev
  | [] => d
  | (m, e) :: t =>
    if d.eventMay m && !d.hif.backlog.any (fun x => x.1 == m) then (d.writeEntry m e).drainList t
    else { d with hif := { d.hif with backlog := d.hif.backlog ++ [(m, e)] } }.drainList t

/-- The backlog is drained; when it has room after a loss, the events-lost event is posted (R354). -/
def Dev.drainBacklog (d : Dev) : Dev :=
  let l := d.hif.backlog
  let d := { d with hif := { d.hif with backlog := [] } }.drainList l
  if d.hif.lostSince != 0 && d.hif.backlog.length < 256 then
    let n := d.hif.lostSince
    let d := { d with hif := { d.hif with lostSince := 0 } }
    d.postEvent (d.rd F.HIF_EVQ_CFG_RING []) (eventEntry 7 0 [n % 2 ^ 32, 0, 0, 0, 0, 0, 0])
  else d

/-- A ring event of type 0x06 (R355), while HIF_EVQ_EN.RING = 1. -/
def Dev.ringEvent (d : Dev) (kind n value mid : Nat) : Dev :=
  if d.on F.HIF_EVQ_EN_RING [] then
    d.postEvent (d.rd F.HIF_EVQ_CFG_RING []) (eventEntry 6 kind (d.eventBody n value mid 0 0))
  else d

/-- A ring error: the first since RING_ERR was cleared is recorded and posted; a later one is counted by its own counter
only (RING_ERR_INFO; log 21). -/
def Dev.ringError (d : Dev) (kind n value mid : Nat) : Dev :=
  if d.on F.RING_STAT_RING_ERR [n] then d
  else
    let d := d.wr F.RING_STAT_RING_ERR [n] 1
    let d := (d.wr F.RING_ERR_INFO_KIND [n] kind).wr F.RING_ERR_INFO_VALUE [n] (value % 2 ^ 17)
    d.ringEvent kind n value mid

/-- A link event of port `p` (R55, R62): subkind 1 LINK_UP, 2 CNFG_MISMATCH. -/
def Dev.linkEvent (d : Dev) (sub p stat : Nat) : Dev :=
  if d.on F.HIF_EVQ_EN_LINK [] then
    d.postEvent (d.rd F.HIF_EVQ_CFG_LINK []) (eventEntry 2 sub (d.eventBody p stat 0 0 0))
  else d

/-- A port event of port `p` and priority `pri` (R222, R223): subkind 1 trip, 2 restore. -/
def Dev.portEvent (d : Dev) (sub p pri : Nat) : Dev :=
  if d.on F.HIF_EVQ_EN_PORT [] then
    d.postEvent (d.rd F.HIF_EVQ_CFG_PORT []) (eventEntry 3 sub (d.eventBody (p + pri * 2 ^ 16) 0 0 0 0))
  else d

/-! ## Completions and the holding queue (R352) -/

/-- Room appeared: held entries are written in order while slots are free. -/
def Dev.drainHold (d : Dev) (m : Nat) : Nat → Dev
  | 0 => d
  | fuel + 1 =>
    match (d.ring m).hold with
    | [] => d
    | e :: t =>
      if d.cqMay m (d.cqRoom m) then
        let d := d.writeEntry m e
        (d.setRing m { d.ring m with hold := t }).drainHold m fuel
      else d

/-- A ring event of kind 6 or 7 about ring `m`. The spec states no VALUE for it: it is free (log 246). -/
def Dev.stallEvent (d : Dev) (kind m : Nat) : Dev :=
  let (v, d) := d.free
  d.ringEvent kind m (v.toNat % 2 ^ 32) 0

/-- A completion that the holding queue takes; the entry that fills it begins a stall (R352). -/
def Dev.holdEntry (d : Dev) (m : Nat) (e : RingEntry) : Dev :=
  let r := d.ring m
  if r.hold.length < 64 then
    let d := d.setRing m { r with hold := r.hold ++ [e] }
    if r.hold.length = 63 then (d.inc F.HIF_CQ_STALL_CNT_COUNT []).stallEvent 6 m else d
  else d.setRing m { r with late := r.late ++ [e] }

/-- Completions that units kept enter the holding queue, in finishing order, as it has room. -/
def Dev.admitLate (d : Dev) (m : Nat) : Nat → Dev
  | 0 => d
  | fuel + 1 =>
    match (d.ring m).late with
    | [] => d
    | e :: t =>
      if (d.ring m).hold.length < 64 then
        let d := d.setRing m { d.ring m with late := t }
        (d.holdEntry m e).admitLate m fuel
      else d

/-- A finished job's completion: written, or held ahead of every later one (R352). -/
def Dev.pushCompletion (d : Dev) (m : Nat) (e : RingEntry) : Dev :=
  let r := d.ring m
  if d.cqMay m (d.cqRoom m) && r.hold.isEmpty && r.late.isEmpty then d.writeEntry m e
  else d.holdEntry m e

/-- Held entries are written and kept completions admitted, over and over while slots last. -/
def Dev.drainRounds (d : Dev) (m : Nat) : Nat → Dev
  | 0 => d
  | fuel + 1 =>
    let d := d.drainHold m 64
    (d.admitLate m ((d.ring m).late.length)).drainRounds m fuel

/-- Everything that room in completion ring `m` lets go: held entries, kept completions, waiting events. -/
def Dev.drainRing (d : Dev) (m : Nat) : Dev :=
  (d.drainRounds m ((d.ring m).late.length / 64 + 2)).drainBacklog

/-- The holding queue of completion ring `m` is full: RING_STAT.CQ_STALL (R352). -/
def Dev.cqStalled (d : Dev) (m : Nat) : Bool := (d.ring m).hold.length == 64

/-! ## Jobs that end -/

/-- The bytes that a TLM_POST job's buffer holds (R303). -/
def Dev.bytesWritten (d : Dev) (id : Nat) : Nat :=
  match d.tlm.streams.findSome? (fun e => e.2.bufs.find? (fun b => b.job == id)) with
  | some b => b.written
  | none => 0

/-- A job ends with a status and three result dwords: its completion waits for COMPLETION_WRITE in finishing order, with
the energy attributed to it, floored to µJ and saturating (R291, R350, R351). Its exact nJ go to its ring's counter. An INJECT
whose frame is wholly in the Quarry is DONE, whatever ends it (R348). -/
def Dev.finishJob (d : Dev) (id status r0 r1 r2 : Nat) : Dev :=
  match d.hif.jobs.find? (fun j => j.id == id) with
  | none => d
  | some j =>
    let (status, r0) := match j.sealed with
      | some x => (0, x.1)
      | none => (status, r0)
    let nj := j.energy / (16 * 640000 * 1000)
    let uj := min (nj / 1000) 0xFFFFFFFF
    let e : RingEntry :=
      { body := [j.sub.tag % 2 ^ 32, j.sub.tag / 2 ^ 32, uj, j.sub.slot + j.sub.ring * 2 ^ 16, r0, r1, r2]
        last := j.sub.opcode * 2 ^ 16 + status * 2 ^ 8
        sq := some j.sub.ring }
    let cq := d.rd F.RING_CTL_CQ [j.sub.ring]
    let d := d.addTo F.ANL_RING_ENERGY_COUNT [j.sub.ring] nj
    { d with hif := { d.hif with
        jobs := d.hif.jobs.filter (fun x => x.id != id)
        hints := d.hif.hints.filter (fun h => h.uid != id)
        finished := d.hif.finished ++ [(cq, e)] } }

end Sys2Proof.Machine
end

