-- ==== Sys2Proof/Machine/Spall.lean ====
section
/-!
DEFINITION. Fault collection and entry into the safe state as shared operations (spec/13_spall_faults.md R391 to R408).
-/

namespace Sys2Proof.Machine

/-- The power domain of a collector's block, where it is a single one (R391, R35). -/
def collectorDomain (k : Nat) : Option Nat :=
  if k = 6 then some 181
  else if 7 ≤ k ∧ k ≤ 38 then some (128 + (k - 7))
  else if 46 ≤ k ∧ k ≤ 49 then some (168 + (k - 46))
  else none

/-- The collector's block is powered: a source inside a domain that is off raises nothing. -/
def Dev.collectorLive (d : Dev) (k : Nat) : Bool :=
  match collectorDomain k with
  | some n => d.domOn n
  | none => true

/-- The severity that collector `k` gives source `src` in Soring mode; a hard source acts at 3 (R396). -/
def Dev.severity (d : Dev) (k src : Nat) : Nat :=
  if faultHard k src then 3
  else d.cm F.SPL_SEV_SEV [k, src / 16] / 4 ^ (src % 16) % 4

/-- The class or severity number of a fault: the index it counts under in SPL_CNT (R398). -/
def Dev.faultNum (d : Dev) (k src : Nat) : Nat :=
  if d.onC F.SPL_CFG_SORING_MODE [] then d.severity k src else faultSev k src

/-- A fault of class FT, or of severity 3: it acts whether or not it latches (R400). -/
def Dev.faultFatal (d : Dev) (k src : Nat) : Bool := d.faultNum k src == 3

/-- Masked: in normal mode, a source that is not hard and whose SPL_MASK bit is set (R395). -/
def Dev.faultMasked (d : Dev) (k src : Nat) : Bool :=
  !d.onC F.SPL_CFG_SORING_MODE [] && !faultHard k src && bitAt (d.rd F.SPL_MASK_MASK [k, src / 32]) (src % 32)

/-- Collector `k` is broken (R405). -/
def Dev.collectorBroken (d : Dev) (k : Nat) : Bool := bitAt (d.rd F.SPL_STAT2_BROKEN []) k

/-- A fault that its collector latches when it can: not masked, severity above 0, the collector not broken. -/
def Dev.faultLatches (d : Dev) (k src : Nat) : Bool :=
  d.faultNum k src != 0 && !d.faultMasked k src && !d.collectorBroken k

/-- A fault at a collector: source, syndrome, and whether it was injected. -/
structure FaultIn where
  src : Nat
  syn : Nat
  inj : Bool
  deriving DecidableEq, Repr

/-- The fault counts: SPL_CNT by class or severity, and SPL_INJ_CNT when injected (R398); a broken collector counts too, unless
the counter itself is in error (R405). -/
def Dev.countFault (d : Dev) (k : Nat) (f : FaultIn) : Dev :=
  let d := if d.spl.badCnt.contains k then d else d.inc F.SPL_CNT_COUNT [k, d.faultNum k f.src]
  if f.inj then d.inc F.SPL_INJ_CNT_COUNT [k] else d

/-- The result dwords of a job that ends before its time: a table job's, a Gather operation's, the bytes written of a TLM_POST
(R303, R351, log 293). -/
def Dev.jobProgress (d : Dev) (id : Nat) : Nat × Nat × Nat :=
  match d.tbl.jobs.find? (fun x => x.job == id) with
  | some x => (x.r0, x.r1, 0)
  | none => match d.gth.dir.findSome? (fun e => e.2.ops.find? (fun o => o.job == id && !o.aborted)) with
    | some o => (o.retired, o.partials, o.expired)
    | none => (d.bytesWritten id, 0, 0)

/-- Job `id` ends ABORTED with its progress. -/
def Dev.abortJob (d : Dev) (id : Nat) : Dev :=
  let (a, b, c) := d.jobProgress id
  d.finishJob id 1 a b c

/-- Entry into the safe state (R406, R407): SAFE, SAFE_N low, jobs in flight end ABORTED, the service cores take the safe-state
interrupt. What each block then does or refuses to do is checked where it acts (R408). -/
def Dev.enterSafe (d : Dev) (k : Nat) : Dev :=
  if d.safe then d
  else
    let d := { d with safe := true, spl := { d.spl with safeBy := k } }.emit (.safeN true)
    let d := (d.hif.jobs.map (·.id)).foldl (fun d id => d.abortJob id) d
    let d := { d with
      hif := { d.hif with rxBufs := [] }
      tlm := { d.tlm with streams := d.tlm.streams.filterMap (fun e =>
        if e.2.queue.isEmpty then none else some (e.1, { e.2 with bufs := [] })) }
      tbl := { d.tbl with jobs := [] } }
    (List.range 8).foldl (fun d c => d.emit (.coreIrq c)) d

/-- The first fatal fault of the device fills SPL_FATAL; a further one sets FATAL_OVF (R400). Then the safe state. -/
def Dev.fatal (d : Dev) (k : Nat) (f : FaultIn) : Dev :=
  let d :=
    if d.on F.SPL_FATAL_VALID [] then d.wr F.SPL_FATAL_FATAL_OVF [] 1
    else
      let d := (d.wr F.SPL_FATAL_VALID [] 1).wr F.SPL_FATAL_INJ [] (b2n f.inj)
      let d := (d.wr F.SPL_FATAL_COLLECTOR [] k).wr F.SPL_FATAL_SOURCE [] f.src
      (d.wr F.SPL_FATAL_SYNDROME [] f.syn).wr F.SPL_FATAL_TIME_NS [] d.ns
  d.enterSafe k

/-- A latch filled (R397). -/
def Dev.fillLatch (d : Dev) (k : Nat) (f : FaultIn) : Dev :=
  let d := (d.setRaw R.SPL_LATCH [k] 0).wr F.SPL_LATCH_VALID [k] 1
  let d := (d.wr F.SPL_LATCH_INJ [k] (b2n f.inj)).wr F.SPL_LATCH_SORING [k] (b2n (d.onC F.SPL_CFG_SORING_MODE []))
  let d := (d.wr F.SPL_LATCH_CLASS [k] (d.faultNum k f.src)).wr F.SPL_LATCH_SOURCE [k] f.src
  (d.wr F.SPL_LATCH_SYNDROME [k] f.syn).wr F.SPL_LATCH_TIME_NS [k] d.ns

/-- The record of a fault as it stands now (R402). -/
def Dev.faultRecord (d : Dev) (k : Nat) (f : FaultIn) (ovf injSeen : Bool) : FaultRec :=
  { ns := d.ns, collector := k, source := f.src, soring := d.onC F.SPL_CFG_SORING_MODE [], inj := f.inj
    injSeen := injSeen, cls := d.faultNum k f.src, ovf := ovf, syndrome := f.syn
    seq := d.rd F.SPL_REC_SEQ_SEQ [], lost := d.rd F.SPL_REC_LOST_COUNT [], boot := d.spl.bootLogged }

/-- The record finds a place: 2,048 in all, the last 64 for fatal faults (R402). -/
def Dev.recordRoom (d : Dev) (fatal : Bool) : Bool := d.spl.records.length < (if fatal then 2048 else 1984)

/-- Dwords in error of the buffer's place that the record of number `n` takes (R393): the places go round by number (log 328). -/
def Dev.zeroedIn (d : Dev) (n : Nat) : List Nat := (d.spl.deadRec.filter (fun x => x.1 == n % 2048)).map (fun x => x.2)

/-- A record written into the always-on buffer. -/
def Dev.storeRecord (d : Dev) (r : FaultRec) : Dev :=
  let d := { d with spl := { d.spl with records := d.spl.records ++ [{ r with zeroed := d.zeroedIn r.seq }] } }
  let d := d.wr F.SPL_REC_FILL_COUNT [] d.spl.records.length
  d.wr F.SPL_REC_SEQ_SEQ [] ((d.rd F.SPL_REC_SEQ_SEQ [] + 1) % 2 ^ 32)

/-- The fault event of a latched fault (R399, R355), with an MSI-X message for severity 2 (R396). -/
def Dev.faultEvent (d : Dev) (k : Nat) (f : FaultIn) : Dev :=
  if d.on F.HIF_EVQ_EN_FAULT [] then
    let soring := d.onC F.SPL_CFG_SORING_MODE []
    let n := d.faultNum k f.src
    let sub := if soring then 0x10 + n else n
    let w4 := d.rd F.SPL_LATCH_OVF [k] * 2 + d.rd F.SPL_LATCH_INJ_SEEN [k]
    let e := eventEntry 5 sub (d.eventBody (k + f.src * 256) f.syn w4 0 0)
    let e := if soring && n == 2 then { e with vec := some (d.rd F.SPL_CFG_VECTOR []) } else e
    d.postEvent (d.rd F.HIF_EVQ_CFG_FAULT []) e
  else d

/-- The faults of one clock in one collector, in the order in which they are considered: real ones by rising source
number, then the injected one (R398). -/
def orderFaults (fs : List FaultIn) : List FaultIn :=
  let real := fs.filter (fun f => !f.inj)
  let rec insert (f : FaultIn) : List FaultIn → List FaultIn
    | [] => [f]
    | g :: t => if f.src ≤ g.src then f :: g :: t else g :: insert f t
  real.foldr insert [] ++ fs.filter (·.inj)

/-- A record for a fault, or its loss, which the Nat counts; a loss counts in SPL_REC_LOST unless the record is that of an earlier
loss (R402; DEDUCED, log 320). -/
def Dev.recordOrLose (d : Dev × Nat) (r : FaultRec) (fatal counts : Bool) : Dev × Nat :=
  if d.1.recordRoom fatal then (d.1.storeRecord r, d.2)
  else (if counts then d.1.inc F.SPL_REC_LOST_COUNT [] else d.1, d.2 + 1)

/-- The faults `fs` of one clock at collector `k` (R395 to R400), and how many records were lost. All are counted; the first that
latches fills an empty latch, the others set OVF, and an injected one INJ_SEEN as well; then the record and the event of a fault that
latched, with the flags as they stand, the event after the safe state that a fatal fault brings, in which collectors 54 and 55 leave
no DMA (R408); every fatal fault acts and writes a record even when it did not latch, unless its source is masked, which records
nothing (R395). -/
def Dev.clockFaults (d : Dev) (k : Nat) (fs : List FaultIn) (counts : Bool) : Dev × Nat :=
  let fs := orderFaults (fs.filter (fun f => (faultClass k f.src).isSome && (f.inj || d.collectorLive k)))
  let d := fs.foldl (fun d f => d.countFault k f) d
  let latching := fs.filter (fun f => d.faultLatches k f.src)
  let empty := !d.on F.SPL_LATCH_VALID [k]
  let first := if empty then latching.head? else none
  let others := if empty then latching.tail else latching
  let d := match first with
    | some f => d.fillLatch k f
    | none => d
  let d := if others.isEmpty then d else d.wr F.SPL_LATCH_OVF [k] 1
  let d := if others.any (·.inj) then d.wr F.SPL_LATCH_INJ_SEEN [k] 1 else d
  let e := match first with
    | some f =>
      let r := d.faultRecord k f (d.on F.SPL_LATCH_OVF [k]) (d.on F.SPL_LATCH_INJ_SEEN [k])
      Dev.recordOrLose (d, 0) r (d.faultFatal k f.src) counts
    | none => (d, 0)
  let fatals := fs.filter (fun f => e.1.faultFatal k f.src)
  let e := fatals.foldl (fun e f =>
    let e := if first = some f || e.1.faultMasked k f.src then e
      else Dev.recordOrLose e (e.1.faultRecord k f true (e.1.on F.SPL_LATCH_INJ_SEEN [k])) true counts
    (e.1.fatal k f, e.2)) e
  match first with
  | some f => (e.1.faultEvent k f, e.2)
  | none => e

/-- Each lost record raises source 0x41 in collector 60, once its clock's fatal faults have acted; that fault writes no record while
the buffer is still full (R402; DEDUCED, log 320). -/
def Dev.lossFaults (d : Dev) : Nat → Dev
  | 0 => d
  | n + 1 => ((d.clockFaults 60 [⟨0x41, 0, false⟩] false).1).lossFaults n

/-- The faults of one clock at collector `k`. -/
def Dev.raiseAll (d : Dev) (k : Nat) (fs : List FaultIn) : Dev :=
  let e := d.clockFaults k fs true
  e.1.lossFaults e.2

/-- One real fault. -/
def Dev.raise (d : Dev) (k src syn : Nat) : Dev := d.raiseAll k [⟨src, syn, false⟩]

/-- Injection of `src` at collector `k` is refused (R401). -/
def Dev.injRefused (d : Dev) (k src : Nat) : Bool :=
  d.on F.SPL_CFG_INJ_LOCK [] || (faultClass k src).isNone ||
    (d.faultFatal k src && !d.on F.SPL_CFG_INJ_FT []) || d.on F.SPL_STAT_INJ_PEND []

/-- A write of SPL_INJ[k] with GO = 1, whose fields `e` holds (R401): refused, and nothing of it acts but INJ_REJ, or pending until
the next MGMT clock edge. -/
def Dev.inject (d e : Dev) (k : Nat) : Dev :=
  let src := e.rd F.SPL_INJ_SOURCE [k]
  if d.injRefused k src then d.wr F.SPL_STAT_INJ_REJ [] 1
  else
    { e.wr F.SPL_STAT_INJ_PEND [] 1 with spl := { e.spl with inj := some (k, src, e.rd F.SPL_INJ_SYN_SYNDROME [k]) } }

/-- The MGMT clock edge at which the pending injection is presented, together with the real faults `real` of that clock in
its collector. -/
def Dev.presentInjection (d : Dev) (real : List FaultIn) : Dev :=
  match d.spl.inj with
  | none => d
  | some (k, src, syn) =>
    let d := { d.wr F.SPL_STAT_INJ_PEND [] 0 with spl := { d.spl with inj := none } }
    d.raiseAll k (real ++ [⟨src, syn, true⟩])

/-- A W1C of SPL_LATCH[k].VALID: the whole latch and its time (R397). -/
def Dev.clearLatch (d : Dev) (k : Nat) : Dev := (d.setRaw R.SPL_LATCH [k] 0).setRaw R.SPL_LATCH_TIME [k] 0

/-- The 28 bytes of a record before its check code (R402). -/
def FaultRec.body (r : FaultRec) : List Byte :=
  leBytes 8 r.ns ++ leBytes 1 r.collector ++ leBytes 1 r.source ++
    leBytes 1 (b2n r.soring * 16 + b2n r.inj * 8 + b2n r.injSeen * 4 + r.cls) ++ leBytes 1 (b2n r.ovf) ++
    leBytes 4 r.syndrome ++ leBytes 4 r.seq ++ leBytes 4 r.lost ++ leBytes 4 r.boot

/-- The 32 bytes of a record as its place gives them (R402): dwords in error read 0 (R393). -/
def FaultRec.bytes (r : FaultRec) : List Byte :=
  (r.body ++ leBytes 4 (crcCheck r.body)).zipIdx.map (fun x => if r.zeroed.contains (x.2 / 4) then 0 else x.1)

/-- The record's copy in flash has a good CRC (R403). -/
def FaultRec.intact (r : FaultRec) : Bool := !r.bad && leVal (r.bytes.drop 28) == crcCheck (r.bytes.take 28)

end Sys2Proof.Machine
end

