-- ==== Sys2Proof/Machine/Rings.lean ====
section
/-!
DEFINITION. Submission rings (spec/11_host_rings.md): doorbells, fetching, polling, dispatch, and the completion of jobs.
Shutdown and the reset levels, which reach into other blocks, stand in Machine/RingEnd.lean.
-/

namespace Sys2Proof.Machine

/-! ## Conditions -/

/-- A committed size exponent lies in 4 to 16 (R330). -/
def sizeOk (l : Nat) : Bool := 4 ≤ l && l ≤ 16

/-- Submission ring `n` is held: RING_STAT.CNFG_MISMATCH (R330). -/
def Dev.sqHeld (d : Dev) (n : Nat) : Bool :=
  let cq := d.rd F.RING_CTL_CQ [n]
  d.on F.RING_CTL_SQ_EN [n] &&
    (!d.on F.RING_CTL_CQ_EN [cq] || d.owner n != d.owner cq ||
      d.rd F.RING_CTL_OWNMODE [n] != d.rd F.RING_CTL_OWNMODE [cq] ||
      !sizeOk (d.rd F.RING_SIZE_SQ_LOG2 [n]) || !sizeOk (d.rd F.RING_SIZE_CQ_LOG2 [cq]))

/-- RING_STAT.SQ_STATE: 0 DISABLED, 1 ACTIVE, 2 STOPPING, 3 ERROR (R356, R357). -/
def Dev.sqState (d : Dev) (n : Nat) : Nat :=
  let r := d.ring n
  if r.stopSq then 2 else if r.err then 3 else if d.on F.RING_CTL_SQ_EN [n] then 1 else 0

/-- RING_STAT.CQ_STATE (R358). -/
def Dev.cqState (d : Dev) (m : Nat) : Nat :=
  if (d.ring m).stopCq then 2 else if d.on F.RING_CTL_CQ_EN [m] then 1 else 0

/-- RING_STAT[n] as it reads: the stored W1C flags and the live state. -/
def Dev.ringStat (d : Dev) (n : Nat) : Nat :=
  let v := setBitsOf (d.raw R.RING_STAT [n]) 31 30 (d.sqState n)
  let v := setBitsOf v 29 28 (d.cqState n)
  let v := setBitsOf v 27 27 (b2n (d.sqHeld n))
  let v := setBitsOf v 26 26 (b2n (d.cqStalled n))
  setBitsOf v 6 0 (d.ring n).hold.length

/-- The ring engine may read entries of ring `n`: enabled or stopping, not in ERROR, not held (R330), of a function whose ranges
agree (R329), DMA permitted, and not in the safe state (R407). -/
def Dev.mayRead (d : Dev) (n : Nat) : Bool :=
  (d.on F.RING_CTL_SQ_EN [n] || (d.ring n).stopSq) && !(d.ring n).err && !d.sqHeld n && d.dmaOk (d.owner n) &&
    !d.vfBad (d.owner n) && !d.safe

/-- It may read an entry for the first time: no entry is being read again (R337). -/
def Dev.mayFetch (d : Dev) (n : Nat) : Bool := d.mayRead n && (d.ring n).phTry == 0

/-- Entries that the ring may hold ahead of dispatch (R340): 0 acts as 1, 9 to 15 act as 8. -/
def Dev.prefetch (d : Dev) : Nat := min 8 (max 1 (d.rd F.HIF_CFG_PREFETCH []))

/-! ## Doorbells (R18 to R20, R326, R333 to R335) -/

/-- The ring pair whose doorbells a page of a function's BAR2 holds; `none` for a reserved page (R326). -/
def Dev.doorbellRing (d : Dev) (m : Master) (page : Nat) : Option Nat :=
  match m with
  | .pf0 => some page
  | .vf v =>
    let (f, c) := d.vfRange (v.val + 1)
    if page < c then some (f + page) else none
  | _ => none

/-- A host function's accesses are turned away while a HIF reset runs (R360). -/
def Dev.hostBlocked (d : Dev) (m : Master) : Bool :=
  d.on F.HIF_STAT_RST_BUSY [] && (match m with
    | .pf0 => true
    | .vf _ => true
    | _ => false)

/-- A VF that SR-IOV does not enable is no function of the bus; it reaches nothing (R329). -/
def Dev.masterOn (d : Dev) (m : Master) : Bool :=
  match m with
  | .vf v => d.fnOn (v.val + 1)
  | _ => true

/-- A function whose doorbell writes the device takes: PF0 or a VF that SR-IOV enables (R329), while no HIF reset
runs (R360). -/
def Dev.doorbellLive (d : Dev) (m : Master) : Bool :=
  (match m with
    | .pf0 => true
    | .vf v => d.fnOn (v.val + 1)
    | _ => false) && !d.on F.HIF_STAT_RST_BUSY []

/-- An access with a bad size or alignment: recorded as kind 3 and completed with Unsupported Request (R17); a write is discarded
(log 288). -/
def Dev.badSize (d : Dev) (m : Master) (bar off : Nat) : Dev := (d.badAccess bar 3 m.mid off).emit (.unsupported m.mid bar off)

/-- The function of `m` has the BAR: PF0 has all three, a VF that SR-IOV enables BAR2 and BAR4; the other masters reach BAR0's map
alone (R325, R329). -/
def Dev.hasBar (d : Dev) (m : Master) (bar : Bar) : Bool :=
  match m, bar with
  | .pf0, _ => true
  | .vf _, .bar0 => false
  | .vf v, _ => d.fnOn (v.val + 1)
  | _, .bar0 => true
  | _, _ => false

/-- The cases in which a doorbell is not taken whatever its value; `none` where it goes on to the checks of its ring.
A reserved page logs kind 0x6; PF0's page of a VF's pair is a foreign doorbell; a mismatched range is discarded (R329). -/
def Dev.doorbellGate (d : Dev) (m : Master) (page off value : Nat) : Dev × Option Nat :=
  if !d.doorbellLive m then (d, none)
  else match d.doorbellRing m page with
    | none => (d.badAccess 1 6 m.mid (page * 4096 + off), none)
    | some n =>
      if d.vfBad (d.owner n) then (d, none)
      else if m = .pf0 ∧ d.owner n ≠ 0 then
        (((d.inc F.RING_DB_REJ_COUNT [n]).ringError 5 n value m.mid).pmc 120 0x6B 1, none)
      else if d.safe then (d, none)
      else (d, some n)

/-- A refused doorbell: counted, and a ring error of its kind (R333, R334). -/
def Dev.refuseDoorbell (d : Dev) (kind n value mid : Nat) : Dev :=
  ((d.inc F.RING_DB_REJ_COUNT [n]).ringError kind n value mid).pmc 120 0x6B 1

/-- A write of SQ_DB of ring `n` (R333, R335). -/
def Dev.sqDoorbell (d : Dev) (n value mid : Nat) : Dev :=
  if !d.on F.RING_CTL_SQ_EN [n] then (d.inc F.RING_DB_REJ_COUNT [n]).pmc 120 0x6B 1
  else if d.on F.RING_CTL_OWNMODE [n] then
    (d.setRing n { d.ring n with awake := true, doorbell := value }).pmc 120 0x6A 1
  else
    let s := d.sqSize n
    let c := d.rd F.RING_SQ_CONS_INDEX [n]
    let p := d.rd F.RING_SQ_PROD_INDEX [n]
    if 2 ^ 17 ≤ value || 2 * s ≤ value || s < ringDiff value c s then d.refuseDoorbell 1 n value mid
    else
      let d := d.pmc 120 0x6A 1
      if ringDiff p c s < ringDiff value c s then d.wr F.RING_SQ_PROD_INDEX [n] value else d

/-- A write of CQ_DB of ring `n` (R334, R335): an accepted value frees slots, and what waits for them goes on (R352). -/
def Dev.cqDoorbell (d : Dev) (n value mid : Nat) : Dev :=
  if !d.cqLive n then (d.inc F.RING_DB_REJ_COUNT [n]).pmc 120 0x6B 1
  else if d.on F.RING_CTL_OWNMODE [n] then d.pmc 120 0x6A 1
  else
    let s := d.cqSize n
    let h := d.rd F.RING_CQ_CONS_INDEX [n]
    let q := d.rd F.RING_CQ_PROD_INDEX [n]
    if 2 ^ 17 ≤ value || 2 * s ≤ value || ringDiff q h s < ringDiff value h s then d.refuseDoorbell 2 n value mid
    else ((d.pmc 120 0x6A 1).wr F.RING_CQ_CONS_INDEX [n] value).drainRing n

/-- The high half of an 8-byte access to a doorbell lies at a reserved offset of its page: it alone is recorded (R11, R20). -/
def Dev.doorbellHigh (d : Dev) (m : Master) (wide write : Bool) (at_ : Nat) : Dev :=
  if wide && d.doorbellLive m then d.badAccess 1 (if write then 6 else 1) m.mid (at_ + 4) else d

/-- SQ_DB: a write of the submission doorbell of a page, of 4 or 8 bytes. -/
def execSqDb (m : Master) (page : Fin 256) (v : BitVec 32) (wide : Bool) (s : State) : Host.Outcome State Fault Refusal :=
  s.run (fun d =>
    let (d, o) := d.doorbellGate m page.val 0 v.toNat
    (match o with
      | some n => d.sqDoorbell n v.toNat m.mid
      | none => d).doorbellHigh m wide true (page.val * 4096))

/-- CQ_DB: a write of the completion doorbell of a page, of 4 or 8 bytes. -/
def execCqDb (m : Master) (page : Fin 256) (v : BitVec 32) (wide : Bool) (s : State) : Host.Outcome State Fault Refusal :=
  s.run (fun d =>
    let (d, o) := d.doorbellGate m page.val 0x40 v.toNat
    (match o with
      | some n => d.cqDoorbell n v.toNat m.mid
      | none => d).doorbellHigh m wide true (page.val * 4096 + 0x40))

/-- The access lies at a reserved offset of a doorbell page (R19, R326). -/
def Dev.doorbellReserved (d : Dev) (m : Master) (page off : Nat) : Bool :=
  (d.doorbellRing m page).isNone || (off != 0 && off != 0x40)

/-- RESERVED_DOORBELL: a write is discarded as kind 0x6, a read returns 0 as kind 0x1; no ring changes (R20). While a HIF
reset runs, a write is discarded and a read returns 0 (R360). Both halves of an 8-byte access are recorded (R11). An access that is
not naturally aligned is a bad access of kind 3 (R17). -/
def execReservedDoorbell (m : Master) (page : Fin 256) (off : Fin 4096) (write wide : Bool) (s : State) :
    Host.Outcome State Fault Refusal :=
  s.run (fun d =>
    let a := page.val * 4096 + off.val
    let zero : Output := if wide then .readWide m.mid a 0 else .readData m.mid a 0
    if a % (if wide then 8 else 4) ≠ 0 then if !d.hasBar m .bar2 || d.hostBlocked m then d else d.badSize m 1 a
    else if d.doorbellLive m && d.doorbellReserved m page.val off.val then
      let d := (d.badAccess 1 (if write then 6 else 1) m.mid a).doorbellHigh m wide write a
      if write then d else d.emit zero
    else if !write && d.hostBlocked m && d.masterOn m then d.emit zero
    else d)

/-- What SQ_DB and CQ_DB of ring pair `n` read: the last index accepted, in owner mode the value last written to SQ_DB (R19,
R333, R335). -/
def Dev.doorbellValue (d : Dev) (n off : Nat) : Nat :=
  if off ≠ 0 then d.rd F.RING_CQ_CONS_INDEX [n]
  else if d.on F.RING_CTL_OWNMODE [n] then (d.ring n).doorbell
  else d.rd F.RING_SQ_PROD_INDEX [n]

/-- A read of a doorbell register of a function's BAR2, of 4 bytes, or of 8 whose high half is reserved and reads 0; the answer is
among the outputs. -/
def Dev.doorbellRead (d : Dev) (m : Master) (at_ : Nat) (wide : Bool) : Dev :=
  match d.doorbellRing m (at_ / 4096) with
  | some n =>
    if at_ / 4096 < 256 ∧ (at_ % 4096 = 0 ∨ at_ % 4096 = 0x40) ∧ d.masterOn m then
      let v := if d.hostBlocked m then 0 else d.doorbellValue n (at_ % 4096)
      (d.doorbellHigh m wide false at_).emit (if wide then .readWide m.mid at_ v else .readData m.mid at_ v)
    else d
  | none => d

/-! ## Fetching (R336 to R341, R344) -/

/-- The read brought no data. -/
def readFailed : HostRead → Bool
  | .data _ => false
  | _ => true

/-- A submission entry from its 64 bytes (R344). -/
def parseSub (n slot : Nat) (b : List Byte) : Sub :=
  let dw := fun i => leVal (sliceOf b (4 * i) 4)
  let flags := dw 5
  let last := dw 15
  { ring := n, slot := slot, tag := leVal (sliceOf b 0 8), addr := leVal (sliceOf b 8 8), len := dw 4
    indirect := bitAt flags 31, heavy := bitAt flags 30, phase := bitsOf flags 19 16, hintUs := bitsOf flags 15 0
    params := (List.range 9).map (fun i => dw (6 + i)), opcode := bitsOf last 31 24, nfragM1 := bitsOf last 15 8 }

/-- The PH or OWNER bit of a fetched entry. -/
def entryBit (b : List Byte) : Nat := byteAt b 60 % 2

/-- The PH that the entry of index `c` must carry (R336). -/
def Dev.sqPh (d : Dev) (n c : Nat) : Nat := if c < d.sqSize n then 1 else 0

/-- Entry `u` ends with a status and no job has run (R345, R356). -/
def Dev.endSub (d : Dev) (u : Sub) (status : Nat) : Dev :=
  let d := { d with hif := { d.hif with jobs := d.hif.jobs ++ [({ id := u.uid, sub := u } : Job)] } }
  d.finishJob u.uid status 0 0 0

/-- An entry has been read at index c: c moves on; the entry waits for dispatch and its hint opens (R279), or, while the
ring stops, it completes ABORTED without running (R356). -/
def Dev.takeEntry (d : Dev) (n : Nat) (b : List Byte) : Dev :=
  let s := d.sqSize n
  let c := d.rd F.RING_SQ_CONS_INDEX [n]
  let u := { parseSub n (c % s) b with uid := d.hif.jobSeq }
  let d := { d with hif := { d.hif with jobSeq := d.hif.jobSeq + 1 } }
  let d := (d.wr F.RING_SQ_CONS_INDEX [n] ((c + 1) % (2 * s))).pmc 120 0x68 1
  if (d.ring n).stopSq then d.endSub u 1
  else
    let d := d.setRing n { d.ring n with fetched := (d.ring n).fetched ++ [u] }
    if u.heavy then
      { d with hif := { d.hif with hints := d.hif.hints ++ [{ uid := u.uid, us := u.hintUs }] } }
    else d

/-- How AER names a failed read. -/
def readErr : HostRead → AerError
  | .timeout => .timeout
  | .poisoned => .poisoned
  | _ => .urOrCa

/-- A fetch ends in UR, CA, timeout or poison: the ring enters ERROR, kind 4, HIF_DMA_ERR, AER, no completion (R359). -/
def Dev.fetchFault (d : Dev) (n : Nat) (r : HostRead) : Dev :=
  let d := (d.dmaErr (d.owner n) (readErr r)).ringError 4 n (d.rd F.RING_SQ_CONS_INDEX [n]) 0
  d.setRing n { d.ring n with err := true, phTry := 0 }

/-- The ring enters ERROR on a wrong PH: kind 3, VALUE the index, no completion (R337). -/
def Dev.phaseError (d : Dev) (n : Nat) : Dev :=
  let d := d.ringError 3 n (d.rd F.RING_SQ_CONS_INDEX [n]) 0
  d.setRing n { d.ring n with err := true, phTry := 0 }

/-- The entry at c has been read in phase mode: taken with the right PH; with the wrong one it is read again up to
HIF_CFG.PH_RETRY times, `tries` of which have been made (R337). -/
def Dev.fetchedPhase (d : Dev) (n : Nat) (b : List Byte) (tries : Nat) : Dev :=
  let d := d.dmaRead none 64
  if entryBit b = d.sqPh n (d.rd F.RING_SQ_CONS_INDEX [n]) then (d.setRing n { d.ring n with phTry := 0 }).takeEntry n b
  else if tries < d.rd F.HIF_CFG_PH_RETRY [] then d.setRing n { d.ring n with phTry := tries + 1 }
  else d.phaseError n

/-- The bytes of a good read, else a fetch fault. -/
def Dev.onFetch (d : Dev) (n : Nat) (r : HostRead) (f : Dev → List Byte → Dev) : Dev :=
  match r with
  | .data b => f d b
  | r => d.fetchFault n r

/-- An announced entry of ring `n` can be fetched now (R340): announced, and room among the prefetched ones. -/
def Dev.canFetch (d : Dev) (n : Nat) : Bool :=
  d.mayFetch n && !d.on F.RING_CTL_OWNMODE [n] &&
    d.rd F.RING_SQ_PROD_INDEX [n] != d.rd F.RING_SQ_CONS_INDEX [n] && (d.ring n).fetched.length < d.prefetch

/-- SQ_FETCH: the engine reads the announced entry at c. -/
def execSqFetch (n : Fin 256) (r : HostRead) (s : State) : Host.Outcome State Fault Refusal :=
  s.run (fun d => if d.canFetch n.val then d.onFetch n.val r (fun d b => d.fetchedPhase n.val b 0) else d)

/-- SQ_POLL: in a ring with RING_POLL ≠ 0 and c = p the entry at c is read; the expected PH announces and fetches it, any
other is discarded without error (R341). -/
def execSqPoll (n : Fin 256) (r : HostRead) (s : State) : Host.Outcome State Fault Refusal :=
  s.run (fun d =>
    let n := n.val
    let c := d.rd F.RING_SQ_CONS_INDEX [n]
    if d.mayFetch n && !(d.ring n).stopSq && !d.on F.RING_CTL_OWNMODE [n] && d.rd F.RING_POLL_INTERVAL [n] != 0 &&
        d.rd F.RING_SQ_PROD_INDEX [n] == c && (d.ring n).fetched.length < d.prefetch then
      d.onFetch n r (fun d b =>
        let d := d.dmaRead none 64
        if entryBit b = d.sqPh n c then
          (d.wr F.RING_SQ_PROD_INDEX [n] ((c + 1) % (2 * d.sqSize n))).takeEntry n b
        else d)
    else d)

/-- OWNER_POLL: in owner mode the entry at c is read; with OWNER = 1 it is taken and its last dword written back with
OWNER = 0; with OWNER = 0 the reading stops (R338, R339). -/
def execOwnerPoll (n : Fin 256) (r : HostRead) (s : State) : Host.Outcome State Fault Refusal :=
  s.run (fun d =>
    let n := n.val
    if d.mayFetch n && d.on F.RING_CTL_OWNMODE [n] && ((d.ring n).awake || d.rd F.RING_POLL_INTERVAL [n] != 0) &&
        (d.ring n).fetched.length < d.prefetch then
      d.onFetch n r (fun d b =>
        let d := d.dmaRead none 64
        if entryBit b = 1 then
          let slot := d.rd F.RING_SQ_CONS_INDEX [n] % d.sqSize n
          let a := d.rd F.RING_SQ_BASE_ADDR [n] * 64 + 64 * slot + 60
          let d := (d.emit (.dmaDwords (d.owner n) a [leVal (sliceOf b 60 4) - 1])).dmaWrote none 4
          d.takeEntry n b
        else d.setRing n { d.ring n with awake := false })
    else d)

/-- PH_RETRY: 1 µs after a wrong PH the entry is read again (R337), unless the ring is held or not served. -/
def execPhRetry (n : Fin 256) (r : HostRead) (s : State) : Host.Outcome State Fault Refusal :=
  s.run (fun d =>
    let t := (d.ring n.val).phTry
    if t != 0 && d.mayRead n.val then d.onFetch n.val r (fun d b => d.fetchedPhase n.val b t) else d)

/-- FETCH_FAULT: a submission fetch of ring `n` ends without data (R359). -/
def execFetchFault (n : Fin 256) (r : HostRead) (s : State) : Host.Outcome State Fault Refusal :=
  s.run (fun d => if readFailed r && d.mayRead n.val then d.fetchFault n.val r else d)

/-! ## Dispatch (R342 to R347) -/

/-- The class bit of an opcode in HIF_FUNC_PERM; `none` for FENCE, which belongs to no class; an opcode not listed in
R346 is not defined. -/
def opcodeClass (op : Nat) : Option (Option Nat) :=
  if op = 0x01 then some (some 0)
  else if op = 0x02 then some (some 1)
  else if op = 0x10 ∨ op = 0x11 ∨ op = 0x12 then some (some 2)
  else if op = 0x20 ∨ op = 0x21 ∨ op = 0x22 then some (some 3)
  else if op = 0x30 then some (some 4)
  else if op = 0x3F then some none
  else none

/-- Opcodes whose ADDR and LEN are unused: they ignore INDIRECT (R347). -/
def opcodeNoBuffer (op : Nat) : Bool := op == 0x11 || op == 0x12 || op == 0x22 || op == 0x3F

/-- An RX_POST or TLM_POST job, which a FENCE does not wait for (R343). -/
def isPost (op : Nat) : Bool := op == 0x02 || op == 0x30

/-- A table job (R139, R343). -/
def isTable (op : Nat) : Bool := op == 0x20 || op == 0x21 || op == 0x22

/-- The opcode of a completion entry. -/
def RingEntry.opcode (e : RingEntry) : Nat := bitsOf e.last 23 16

/-- Some entry that satisfies `p` waits to be written: finished, held, or kept by its unit. -/
def Dev.anyUnwritten (d : Dev) (p : RingEntry → Bool) : Bool :=
  d.hif.finished.any (fun x => p x.2) || d.hif.rings.any (fun x => x.2.hold.any p || x.2.late.any p)

/-- A FENCE of ring `n` may be dispatched (R343): every earlier job of the ring, posts apart, has its completion written,
and with TABLES = 1 so has every table job dispatched by any ring. -/
def Dev.fenceReady (d : Dev) (n : Nat) (tables : Bool) : Bool :=
  !d.hif.jobs.any (fun j => j.sub.ring == n && !isPost j.sub.opcode) &&
    !d.anyUnwritten (fun e => e.sq == some n && !isPost e.opcode) &&
    !(tables && (d.hif.jobs.any (fun j => isTable j.sub.opcode) ||
      d.anyUnwritten (fun e => e.sq.isSome && isTable e.opcode)))

/-- The hints that are open (R279). -/
def Dev.openHints (d : Dev) : List Hint := d.hif.hints.filter (fun h => !h.expired)

/-- The dispatch of a hinted job is still held (R279). -/
def Dev.hintHolds (d : Dev) (uid : Nat) : Bool := d.hif.hints.any (fun h => h.uid == uid && h.holding)

/-- The entry's fragment table must be read from the host (R347). -/
def Sub.readsTable (u : Sub) : Bool := u.indirect && !opcodeNoBuffer u.opcode && u.addr % 16 == 0

/-- The tables of a table job, as bits by table ID (R139). -/
def Sub.tables (u : Sub) : Nat :=
  if u.opcode = 0x22 then u.params.getD 0 0 % 4 else if isTable u.opcode then 2 ^ (u.params.getD 0 0 % 8) else 0

/-- A table job in flight works on, or waits for, one of the tables of entry `u` (R139, R342). -/
def Dev.tablesTaken (d : Dev) (u : Sub) : Bool := d.hif.jobs.any (fun j => Nat.land j.sub.tables u.tables != 0)

/-- The head entry of ring `n` can be dispatched now (R328, R330, R342, R343, R352). -/
def Dev.dispatchable (d : Dev) (n : Nat) : Bool :=
  match (d.ring n).fetched with
  | [] => false
  | u :: _ =>
    d.on F.RING_CTL_SQ_EN [n] && !d.sqHeld n && !d.vfBad (d.owner n) && !d.safe &&
      !d.cqStalled (d.rd F.RING_CTL_CQ [n]) && !d.hintHolds u.uid && (!u.readsTable || d.dmaOk (d.owner n)) &&
      !d.hif.jobs.any (fun j => j.sub.ring == n && j.sub.opcode == 0x3F) && !d.tablesTaken u &&
      !(u.opcode == 0x3F && !d.fenceReady n (bitAt (u.params.getD 0 0) 0))

/-- The ring whose turn it is: the first dispatchable one in round robin (R342). -/
def Dev.nextRing (d : Dev) : Option Nat :=
  ((List.range 256).map (fun i => (d.hif.rrNext + i) % 256)).find? (fun n => d.dispatchable n)

/-- The fragments of a table of `k` entries of 16 bytes (R347). -/
def parseFrags (b : List Byte) : Nat → List (Nat × Nat)
  | 0 => []
  | k + 1 => (leVal (sliceOf b 0 8), leVal (sliceOf b 8 4)) :: parseFrags (b.drop 16) k

/-- The fragments keep the rules of R347: none empty or above 16 MiB, and their lengths sum to LEN. -/
def fragsOk (l : List (Nat × Nat)) (len : Nat) : Bool :=
  l.all (fun f => f.2 != 0 && f.2 ≤ 16777216) && l.foldl (fun a f => a + f.2) 0 == len

/-- The status of a failed read of host data (R347, R359). -/
def readStatus : HostRead → Nat
  | .data _ => 0
  | .urOrCa => 3
  | .timeout => 7
  | .poisoned => 8

/-- The buffer's fragments, or the status with which the entry ends (R345, R347). The bytes of the table are charged to no job
(no row of R290 lists them); a failed read of it counts in HIF_DMA_ERR. -/
def Dev.readFrags (d : Dev) (u : Sub) (frags : HostRead) : Dev × (Nat ⊕ List (Nat × Nat)) :=
  if !u.indirect || opcodeNoBuffer u.opcode then (d, .inr [(u.addr, u.len)])
  else if u.addr % 16 ≠ 0 then (d, .inl 4)
  else match frags with
    | .data b =>
      let l := parseFrags b (u.nfragM1 + 1)
      let d := d.dmaRead none (16 * (u.nfragM1 + 1))
      if fragsOk l u.len then (d, .inr l) else (d, .inl 4)
    | r => (d.dmaErr (d.owner u.ring) (readErr r), .inl (readStatus r))

/-- The head entry of ring `n` is dispatched: the checks of R345 in order, then it is a job in flight that its opcode's
own command begins. -/
def Dev.dispatch (d : Dev) (n : Nat) (frags : HostRead) : Dev :=
  match (d.ring n).fetched with
  | [] => d
  | u :: t =>
    let d := d.setRing n { d.ring n with fetched := t, lastPhase := u.phase }
    let d := { d with hif := { d.hif with rrNext := (n + 1) % 256 } }
    match opcodeClass u.opcode with
    | none => d.endSub u 2
    | some cls =>
      if (match cls with
          | some k => !bitAt (d.rd F.HIF_FUNC_PERM_CLASS [d.owner n]) k
          | none => false) then d.endSub u 6
      else
        let d := { d with hif := { d.hif with jobs := d.hif.jobs ++ [({ id := u.uid, sub := u } : Job)] } }
        let (d, r) := d.readFrags u frags
        match r with
        | .inl st => d.finishJob u.uid st 0 0 0
        | .inr l =>
          let js := d.hif.jobs.map (fun j => if j.id = u.uid then { j with frags := l } else j)
          { d with hif := { d.hif with jobs := js } }

/-- JOB_DISPATCH: the engine dispatches the head entry of the ring whose turn it is. -/
def execJobDispatch (frags : HostRead) (s : State) : Host.Outcome State Fault Refusal :=
  s.run (fun d =>
    match d.nextRing with
    | some n => d.dispatch n frags
    | none => d)

/-- The oldest dispatched job of ring `n` with opcode `op` that its own command has not begun. -/
def Dev.newJob (d : Dev) (n op : Nat) : Option Job :=
  d.hif.jobs.find? (fun j => j.sub.ring == n && j.sub.opcode == op && !j.started)

/-- The engine may issue requests for the ring of job `id`; a job that may not waits (R328, log 274). -/
def Dev.jobDma (d : Dev) (id : Nat) : Bool :=
  match d.hif.jobs.find? (fun j => j.id == id) with
  | some j => d.dmaOk (d.owner j.sub.ring)
  | none => false

/-- Job `id` has begun. -/
def Dev.startJob (d : Dev) (id : Nat) : Dev :=
  { d with hif := { d.hif with jobs := d.hif.jobs.map (fun j => if j.id = id then { j with started := true } else j) } }

/-- A failed read of host memory by job `id`: counted, and recorded under its ring's owner (R359). -/
def Dev.jobErr (d : Dev) (id : Nat) (r : HostRead) : Dev :=
  match d.hif.jobs.find? (fun j => j.id == id) with
  | some j => d.dmaErr (d.owner j.sub.ring) (readErr r)
  | none => d

/-- A data read of a job failed: the job ends with the read's status, counted in HIF_DMA_ERR (R359). -/
def Dev.dataFault (d : Dev) (id : Nat) (r : HostRead) : Dev :=
  (d.jobErr id r).finishJob id (readStatus r) 0 0 0

/-- Parameter dword `i` of a job. -/
def Job.p (j : Job) (i : Nat) : Nat := j.sub.params.getD i 0

/-- FENCE: a dispatched FENCE completes DONE (R343). -/
def execFence (n : Fin 256) (s : State) : Host.Outcome State Fault Refusal :=
  s.run (fun d =>
    match d.newJob n.val 0x3F with
    | some j => d.finishJob j.id 0 0 0 0
    | none => d)

/-! ## Completions (R350, R352) -/

/-- COMPLETION_WRITE: the oldest finished job's completion is written into its ring or enters the holding queue. In owner
mode `slotFree` is what the engine reads in slot q: OWNER = 0 (R338). -/
def execCompletionWrite (slotFree : Bool) (s : State) : Host.Outcome State Fault Refusal :=
  s.run (fun d =>
    match d.hif.finished with
    | [] => d
    | (m, e) :: t =>
      let d := { d with hif := { d.hif with finished := t } }
      let r := d.ring m
      if d.on F.RING_CTL_OWNMODE [m] && d.cqMay m slotFree && r.hold.isEmpty && r.late.isEmpty then
        d.writeEntry m e
      else d.pushCompletion m e)

/-- CQ_OWNER_POLL: in owner mode the last dword of slot q is read again; with OWNER = 0 the oldest held entry, or else the
oldest waiting event of the ring, is written (R338). -/
def execCqOwnerPoll (m : Fin 256) (free : Bool) (s : State) : Host.Outcome State Fault Refusal :=
  s.run (fun d =>
    let m := m.val
    if d.on F.RING_CTL_OWNMODE [m] && d.cqMay m free then
      match (d.ring m).hold with
      | e :: t =>
        let d := d.writeEntry m e
        let d := d.setRing m { d.ring m with hold := t }
        (d.admitLate m ((d.ring m).late.length)).drainBacklog
      | [] =>
        match d.hif.backlog.find? (fun x => x.1 == m) with
        | some (_, e) =>
          let d := { d with hif := { d.hif with backlog := d.hif.backlog.erase (m, e) } }
          (d.writeEntry m e).drainBacklog
        | none => d
    else d)

/-- CQ_STALL_TIMEOUT: a stall has lasted HIF_CQ_STALL_TMO ms: one UC fault and a ring event of kind 7 (R352). -/
def execCqStallTimeout (m : Fin 256) (s : State) : Host.Outcome State Fault Refusal :=
  s.run (fun d => if d.cqStalled m.val then (d.raise 54 0x40 m.val).stallEvent 7 m.val else d)

/-- IRQ_TIMER: TIMER_US after the first entry since the last signal the ring signals (R327). -/
def execIrqTimer (m : Fin 256) (s : State) : Host.Outcome State Fault Refusal :=
  s.run (fun d =>
    if d.on F.RING_IRQ_EN [m.val] && d.rd F.RING_IRQ_TIMER_US [m.val] != 0 && (d.ring m.val).irqCount != 0 then
      d.signalRing m.val
    else d)

/-- Every entry of a stopping ring has been completed and every completion has entered its completion ring or the holding
queue (R356). -/
def Dev.sqQuiet (d : Dev) (n : Nat) : Bool :=
  let r := d.ring n
  r.stopSq && r.fetched.isEmpty && (r.err || (if d.on F.RING_CTL_OWNMODE [n] then !r.awake
      else d.rd F.RING_SQ_PROD_INDEX [n] == d.rd F.RING_SQ_CONS_INDEX [n])) &&
    !d.hif.jobs.any (fun j => j.sub.ring == n) &&
    !d.hif.finished.any (fun x => x.2.sq == some n) &&
    !d.hif.rings.any (fun x => x.2.late.any (fun e => e.sq == some n))

/-- SQ_SHUTDOWN_END: the shutdown ends, and SQ_STATE reads DISABLED. -/
def execSqShutdownEnd (n : Fin 256) (s : State) : Host.Outcome State Fault Refusal :=
  s.run (fun d =>
    if d.sqQuiet n.val then d.setRing n.val { d.ring n.val with stopSq := false, err := false } else d)

/-- A write of CQ_EN = 0: the ring stays STOPPING until CQ_DISABLE_EFFECT (R358). -/
def Dev.cqStop (d : Dev) (m : Nat) : Dev :=
  if d.on F.RING_CTL_CQ_EN [m] then
    (d.wr F.RING_CTL_CQ_EN [m] 0).setRing m { d.ring m with stopCq := true }
  else d

/-- PF0 and S0 to S7, the usual writers (R14, R362). -/
def isPfSvc : Master → Bool
  | .pf0 => true
  | .svc _ => true
  | _ => false

/-- A VF has no register window (R325). -/
def hasWindow : Master → Bool
  | .vf _ => false
  | _ => true

/-- Windows of the blocks whose memories the initialisation of R420 prepares: TBL, MTR, QRY, LEHR, SPL (log 32). -/
def initWindow (w : Nat) : Bool :=
  w == R.TBL_CFG.win || w == R.MTR_CMD.win || w == R.QRY_STAT.win || w == R.LEHR_NOW.win || w == R.SPL_CTL.win

/-- A write by a master at a BAR0 offset: not taken from a function in a HIF reset (R360), kept until INIT_DONE where the
block is still being initialised (R420), else with its effect `f`. -/
def Dev.access (d : Dev) (m : Master) (off v : Nat) (f : Dev → Dev) : Dev :=
  if d.hostBlocked m then d
  else if initWindow (off / 1048576) && !d.on F.RST_STAT_INIT_DONE [] then
    { d with rst := { d.rst with waiting := d.rst.waiting ++
      [{ mid := m.mid, off := off, write := true, wide := false, val := v }] } }
  else f d

/-- CQ_DISABLE: a write of CQ_EN = 0 by a master that may write RING_ registers (R362). -/
def execCqDisable (m : Master) (n : Fin 256) (s : State) : Host.Outcome State Fault Refusal :=
  s.run (fun d => if isPfSvc m && !d.hostBlocked m then d.cqStop n.val else d)

/-- CQ_DISABLE_EFFECT: every submission ring that names the ring reads DISABLED and its holding queue is empty (R358). -/
def execCqDisableEffect (n : Fin 256) (s : State) : Host.Outcome State Fault Refusal :=
  s.run (fun d =>
    let m := n.val
    let r := d.ring m
    if r.stopCq && r.hold.isEmpty && r.late.isEmpty &&
        (List.range 256).all (fun k => d.rd F.RING_CTL_CQ [k] != m || d.sqState k == 0) then
      d.setRing m { r with stopCq := false }
    else d)

/-- POISONED_TLP: a poisoned TLP written to a BAR of a function is discarded, counted, and recorded by AER (R359). -/
def execPoisonedTlp (fn : Fin 32) (s : State) : Host.Outcome State Fault Refusal :=
  s.run (fun d => if d.fnOn fn.val then d.dmaErr fn.val .poisoned else d)

end Sys2Proof.Machine
end

