-- ==== Sys2Proof/Machine/Mailbox.lean ====
section
/-!
DEFINITION. Mailbox channels, their bindings and the lock registers (spec/12_mailboxes_and_service_cores.md R363 to R377),
and the signals they raise (R370, R439).
-/

namespace Sys2Proof.Machine

/-! ## Bindings (R364, R365) -/

def Dev.bindEn (d : Dev) (c : Nat) : Bool := d.on F.SVC_MBX_BIND_EN [c]
def Dev.sender (d : Dev) (c : Nat) : Nat := d.rd F.SVC_MBX_BIND_SENDER [c]
def Dev.receiver (d : Dev) (c : Nat) : Nat := d.rd F.SVC_MBX_BIND_RECEIVER [c]

/-- The other channel of a pair. -/
def partner (c : Nat) : Nat := if c % 2 = 0 then c + 1 else c - 1

/-- A MID that a mailbox can be bound to: assigned, and no VF (R365). -/
def bindable (mid : Nat) : Bool := mid == 0 || (0x40 ≤ mid && mid ≤ 0x47) || mid == 0x50 || mid == 0x51

/-- Channel c has never been given a binding: its register reads 0. -/
def Dev.unbound (d : Dev) (c : Nat) : Bool := d.raw R.SVC_MBX_BIND [c] == 0

/-- MBX_STAT[c].CNFG_MISMATCH: both channels of the pair are held (R365), whatever their EN. A pair of which neither channel is
bound is not held: the reset table has such pairs, and MBX_STAT's reset value is 0 (DEDUCED, log 294). -/
def Dev.mbxHeld (d : Dev) (c : Nat) : Bool :=
  let a := 2 * (c / 2)
  let b := a + 1
  d.bindEn a != d.bindEn b ||
    (!(d.unbound a && d.unbound b) && (d.sender a != d.receiver b || d.receiver a != d.sender b || d.sender a == d.receiver a ||
      d.sender b == d.receiver b || !bindable (d.sender a) || !bindable (d.receiver a) ||
      !bindable (d.sender b) || !bindable (d.receiver b)))

/-- MBX_STAT[c] as it reads. -/
def Dev.mbxStat (d : Dev) (c : Nat) : Nat := setBitsOf (d.raw R.MBX_STAT [c]) 29 29 (b2n (d.mbxHeld c))

/-- A register access that the mailboxes turn away: no register window (a VF), or a HIF reset runs (R325, R372). -/
def Dev.mbxDeaf (d : Dev) (m : Master) : Bool :=
  d.on F.HIF_STAT_RST_BUSY [] || (match m with
    | .vf _ => true
    | _ => false)

def Dev.mbxReject (d : Dev) (c : Nat) : Dev := d.inc F.MBX_REJ_COUNT [c]

/-! ## Signals (R370, R439) -/

/-- A signal to the BMC port: PEND; in I3C mode with ENEC a rise raises one in-band interrupt. -/
def Dev.bmcPend (d : Dev) : Dev :=
  let rises := !d.on F.PIN_BMC_PEND []
  let d := d.wr F.PIN_BMC_PEND [] 1
  if rises && d.on F.PIN_BMC_I3C [] && d.bmc.ibiEn then d.emit (.ibi 1) else d

/-- BMC_ALERT_N is driven low: PEND = 1 outside I3C mode (R439). -/
def Dev.bmcAlertLow (d : Dev) : Bool := d.on F.PIN_BMC_PEND [] && !d.on F.PIN_BMC_I3C []

/-- The signal to a MID with a vector (R370). -/
def Dev.signalMid (d : Dev) (mid vec : Nat) : Dev :=
  if mid = 0 then d.msix vec
  else if 0x40 ≤ mid && mid ≤ 0x47 then d.emit (.coreIrq (mid - 0x40))
  else if mid = 0x51 then d.bmcPend
  else d

/-! ## Sending, receiving, resetting (R367 to R371) -/

/-- A write of MBX_SEND[c] by `mid`. -/
def Dev.mbxSend (d : Dev) (mid c len : Nat) : Dev :=
  if !d.bindEn c || d.mbxHeld c || d.sender c != mid then d.mbxReject c
  else if d.on F.MBX_STAT_FULL [c] || len = 0 || 64 < len then (d.wr F.MBX_STAT_SEND_REJ [c] 1).mbxReject c
  else
    let d := (d.wr F.MBX_STAT_FULL [c] 1).wr F.MBX_STAT_LEN [c] len
    let d := d.wr F.MBX_STAT_SEQ [c] ((d.rd F.MBX_STAT_SEQ [c] + 1) % 65536)
    if d.on F.MBX_CFG_RX_IRQ [c] then d.signalMid (d.receiver c) (d.rd F.MBX_CFG_VECTOR [c]) else d

/-- A write of MBX_ACK[c] by `mid`. The sender is signalled on the vector of the partner channel. -/
def Dev.mbxAck (d : Dev) (mid c seq : Nat) : Dev :=
  if !d.bindEn c || d.mbxHeld c || d.receiver c != mid then d.mbxReject c
  else if d.on F.MBX_STAT_FULL [c] && d.rd F.MBX_STAT_SEQ [c] == seq then
    let d := (d.wr F.MBX_STAT_FULL [c] 0).wr F.MBX_STAT_TIMEOUT [c] 0
    if d.on F.MBX_CFG_ACK_IRQ [c] then d.signalMid (d.sender c) (d.rd F.MBX_CFG_VECTOR [partner c]) else d
  else d.mbxReject c

/-- A channel reset: FULL, TIMEOUT, SEND_REJ and LEN; SEQ and the data stay (R371). -/
def Dev.mbxClear (d : Dev) (c : Nat) : Dev :=
  let d := (d.wr F.MBX_STAT_FULL [c] 0).wr F.MBX_STAT_TIMEOUT [c] 0
  (d.wr F.MBX_STAT_SEND_REJ [c] 0).wr F.MBX_STAT_LEN [c] 0

/-- `mid` may reset channel `c`: its sender or receiver, S0, JTAG (R371). -/
def Dev.mayResetMbx (d : Dev) (mid c : Nat) : Bool :=
  (d.bindEn c && (d.sender c == mid || d.receiver c == mid)) || mid == 0x40 || mid == 0x50

/-- A write of MBX_CTL[c].RESET by `mid`. -/
def Dev.mbxCtlReset (d : Dev) (mid c : Nat) : Dev := if d.mayResetMbx mid c then d.mbxClear c else d.mbxReject c

/-- A write of MBX_DATA[c][k] by `mid` (R367, R371). -/
def Dev.mbxData (d : Dev) (mid c k v : Nat) : Dev :=
  if !d.bindEn c || d.mbxHeld c || d.sender c != mid then d.mbxReject c
  else if d.on F.MBX_STAT_FULL [c] then (d.wr F.MBX_STAT_SEND_REJ [c] 1).mbxReject c
  else d.setRaw R.MBX_DATA [c, k] v

/-- MBX_SEND. -/
def execMbxSend (m : Master) (c : Fin 64) (len : BitVec 7) (s : State) : Host.Outcome State Fault Refusal :=
  s.run (fun d => if d.mbxDeaf m then d else d.mbxSend m.mid c.val len.toNat)

/-- MBX_ACK. -/
def execMbxAck (m : Master) (c : Fin 64) (seq : BitVec 16) (s : State) : Host.Outcome State Fault Refusal :=
  s.run (fun d => if d.mbxDeaf m then d else d.mbxAck m.mid c.val seq.toNat)

/-- MBX_RESET. -/
def execMbxReset (m : Master) (c : Fin 64) (s : State) : Host.Outcome State Fault Refusal :=
  s.run (fun d => if d.mbxDeaf m then d else d.mbxCtlReset m.mid c.val)

/-- MBX_TIMEOUT: FULL has stayed 1 for TMO_US since the SEND (R369); a TMO_US of 0 disables the timer. -/
def execMbxTimeout (c : Fin 64) (s : State) : Host.Outcome State Fault Refusal :=
  s.run (fun d =>
    if d.on F.MBX_STAT_FULL [c.val] && d.rd F.MBX_CFG_TMO_US [c.val] != 0 then d.wr F.MBX_STAT_TIMEOUT [c.val] 1 else d)

/-- A write of SVC_MBX_BIND[c] by PF0 or S0 (R364): refused as kind 0x4 once locked (R12); a change clears the channel
(R366). -/
def Dev.bindWrite (d : Dev) (mid c v : Nat) : Dev :=
  if mid ≠ 0 ∧ mid ≠ 0x40 then d
  else if d.on F.SVC_MBX_BIND_LOCK_LOCK [] then d.badAccess 0 4 mid (24 * 0x100000 + 0x200 + 4 * c)
  else
    let keep := setBitsOf (v % 2 ^ 32) 30 16 0
    if d.raw R.SVC_MBX_BIND [c] = keep then d else (d.setRaw R.SVC_MBX_BIND [c] keep).mbxClear c

/-- MBX_BIND_CHANGE: a write of a channel's binding. -/
def execMbxBindChange (m : Master) (c : Fin 64) (enable : Bool) (sender receiver : BitVec 8) (s : State) :
    Host.Outcome State Fault Refusal :=
  s.run (fun d => if d.hostBlocked m then d
    else d.bindWrite m.mid c.val (b2n enable * 2 ^ 31 + sender.toNat * 2 ^ 8 + receiver.toNat))

/-! ## Locks (R374, R375) -/

/-- A read of MBX_LOCK[k] by `mid`: a free lock is acquired. -/
def Dev.lockRead (d : Dev) (mid k : Nat) : Dev :=
  let off := 23 * 0x100000 + 0x8000 + 4 * k
  if d.on F.MBX_LOCK_HELD [k] then d.emit (.readData mid off (d.raw R.MBX_LOCK [k]))
  else
    let d := (d.wr F.MBX_LOCK_HELD [k] 1).wr F.MBX_LOCK_OWNER [k] mid
    d.emit (.readData mid off (d.raw R.MBX_LOCK [k] + 2 ^ 31))

/-- RELEASE = 1 by `mid`: the owner frees the lock; any other write is discarded. -/
def Dev.lockRelease (d : Dev) (mid k : Nat) : Dev :=
  if d.on F.MBX_LOCK_HELD [k] && d.rd F.MBX_LOCK_OWNER [k] == mid then d.setRaw R.MBX_LOCK [k] 0 else d

/-- FORCE = 1 by `mid`: a service core or JTAG frees the lock, and MBX_LOCK_FORCED counts. -/
def Dev.lockForce (d : Dev) (mid k : Nat) : Dev :=
  if (0x40 ≤ mid && mid ≤ 0x47) || mid == 0x50 then (d.setRaw R.MBX_LOCK [k] 0).inc F.MBX_LOCK_FORCED_COUNT [] else d

/-- MBX_LOCK_ACQUIRE. During a HIF reset the read returns 0 and acquires nothing (R372). -/
def execMbxLockAcquire (m : Master) (k : Fin 16) (s : State) : Host.Outcome State Fault Refusal :=
  s.run (fun d =>
    if d.mbxDeaf m then d.emit (.readData m.mid (23 * 0x100000 + 0x8000 + 4 * k.val) 0) else d.lockRead m.mid k.val)

/-- MBX_LOCK_RELEASE. -/
def execMbxLockRelease (m : Master) (k : Fin 16) (s : State) : Host.Outcome State Fault Refusal :=
  s.run (fun d => if d.mbxDeaf m then d else d.lockRelease m.mid k.val)

/-- MBX_LOCK_FORCE. -/
def execMbxLockForce (m : Master) (k : Fin 16) (s : State) : Host.Outcome State Fault Refusal :=
  s.run (fun d => if d.mbxDeaf m then d else d.lockForce m.mid k.val)

end Sys2Proof.Machine
end

