-- ==== Sys2Proof/Machine/Lanes.lean ====
section
/-!
DEFINITION. Lanes, port shapes, PCS and RS-FEC, link bring-up (spec/02_lanes_and_ports.md R48 to R68) and the cores of
the LINK service (spec/12_mailboxes_and_service_cores.md R382).
-/

namespace Sys2Proof.Machine

/-! ## Shapes (R51, R52) -/

/-- A shape code: lane rate (0 200G, 1 100G, 2 50G, 3 25G) and lanes per port; none for an unused macro. -/
def shapeOf (code : Nat) : Option (Nat × Nat) :=
  match code with
  | 1 => some (0, 1)
  | 2 => some (0, 2)
  | 3 => some (0, 4)
  | 4 => some (0, 8)
  | 5 => some (1, 1)
  | 6 => some (1, 2)
  | 7 => some (1, 4)
  | 8 => some (1, 8)
  | 9 => some (2, 1)
  | 10 => some (2, 2)
  | 11 => some (2, 4)
  | 12 => some (3, 1)
  | 13 => some (3, 4)
  | _ => none

/-- The shape field of macro `m`. -/
def shapeFld (m : Nat) : Fld := ⟨R.PCS_SHAPE, 4 * (m % 4) + 3, 4 * (m % 4)⟩

/-- The committed shape of macro `m`. -/
def Dev.shape (d : Dev) (m : Nat) : Option (Nat × Nat) := shapeOf (d.cm (shapeFld m) [m / 4])

/-- The lane rate and lane count of port `p`; none for an absent port (R52). -/
def Dev.portShape (d : Dev) (p : Nat) : Option (Nat × Nat) :=
  match d.shape (p / 8) with
  | some (r, k) => if p % 8 % k = 0 then some (r, k) else none
  | none => none

def Dev.absent (d : Dev) (p : Nat) : Bool := (d.portShape p).isNone

/-- The lanes of port `p`. -/
def Dev.portLanes (d : Dev) (p : Nat) : List Nat :=
  match d.portShape p with
  | some (_, k) => (List.range k).map (· + p)
  | none => []

/-- Lane speed in Gbit/s by rate. -/
def rateGbps (r : Nat) : Nat := match r with
  | 0 => 200
  | 1 => 100
  | 2 => 50
  | _ => 25

/-- The speed of port `p` in Gbit/s; 0 for an absent port. -/
def Dev.portSpeed (d : Dev) (p : Nat) : Nat :=
  match d.portShape p with
  | some (r, k) => rateGbps r * k
  | none => 0

/-- The port that lane `n` belongs to under the committed shapes. -/
def Dev.laneOwner (d : Dev) (n : Nat) : Option Nat :=
  match d.shape (n / 8) with
  | some (_, k) => some (n - n % 8 % k)
  | none => none

/-! ## Port state -/

/-- Port register address: cluster and number in the cluster. -/
def pix (p : Nat) : List Nat := [p / 32, p % 32]

def Dev.port (d : Dev) (p : Nat) : PortSt := Sparse.get {} d.phy.ports p

def Dev.setPort (d : Dev) (p : Nat) (x : PortSt) : Dev :=
  { d with phy := { d.phy with ports := Sparse.set {} d.phy.ports p x } }

def Dev.lane (d : Dev) (n : Nat) : LaneSt := Sparse.get {} d.phy.lanes n

def Dev.setLane (d : Dev) (n : Nat) (x : LaneSt) : Dev :=
  { d with phy := { d.phy with lanes := Sparse.set {} d.phy.lanes n x } }

/-- Committed port enable. -/
def Dev.portEn (d : Dev) (p : Nat) : Bool := d.onC F.PCS_PORT_CTL_EN (pix p)

/-- FEC is allowed for a lane rate (R48). -/
def fecAllowed (rate fec : Nat) : Bool := if rate = 3 then fec == 0 || fec == 1 else fec == 2

/-- PCS_PORT_STAT[p].CNFG_MISMATCH (R55). -/
def Dev.portMismatch (d : Dev) (p : Nat) : Bool :=
  d.portEn p && (match d.portShape p with
    | none => true
    | some (r, _) =>
      !fecAllowed r (d.cm F.PCS_PORT_CTL_FEC (pix p)) ||
        (d.onC F.PCS_PORT_CTL_MEDIA (pix p) &&
          (d.onC F.PCS_PORT_CTL_AN_EN (pix p) || d.onC F.PCS_PORT_CTL_LT_EN (pix p))) ||
        (d.portLanes p).any (fun n => !d.on F.LANE_CTL_EN [n]))

/-- The port is enabled and not held. -/
def Dev.portLive (d : Dev) (p : Nat) : Bool := d.portEn p && !d.portMismatch p

/-- A lane's partner lies outside ±100 ppm: LANE_STAT.PPM in 0.1 ppm (R49). -/
def Dev.ppmBad (d : Dev) (n : Nat) : Bool :=
  let x := toSigned 12 (d.rd F.LANE_STAT_PPM [n])
  decide (x < -1000) || decide (1000 < x)

/-- PCS_PORT_STAT[p] as it reads (R49, R52, R55). -/
def Dev.portStat (d : Dev) (p : Nat) : Nat :=
  let mm := b2n (d.portMismatch p)
  match d.portShape p with
  | none => setBitsOf (R.PCS_PORT_STAT.resetAt 0) 15 15 mm
  | some _ =>
    let v := setBitsOf (d.raw R.PCS_PORT_STAT (pix p)) 15 15 mm
    let v := setBitsOf v 14 14 0
    setBitsOf v 13 13 (b2n ((d.portLanes p).any (fun n => d.ppmBad n)))

def Dev.linkUp (d : Dev) (p : Nat) : Bool := d.on F.PCS_PORT_STAT_LINK_UP (pix p)
def Dev.alignLocked (d : Dev) (p : Nat) : Bool := d.on F.PCS_PORT_STAT_ALIGN_LOCK (pix p)

/-- LOC_FAULT: enabled without ALIGN_LOCK, HI_SER, or local fault received (R62). -/
def Dev.locFault (d : Dev) (p : Nat) : Bool :=
  (d.portLive p && !d.alignLocked p) || d.on F.PCS_PORT_STAT_HI_SER (pix p) || (d.port p).locRx

/-- LINK_UP has risen: a flush for the link's sake stops (R224), and a port with a priority in XOFF owes a PFC frame (R166). -/
def Dev.linkRose (d : Dev) (p : Nat) : Dev :=
  let e : EgrPort := Sparse.get {} d.dp.egr p
  let e := { e with flush := none, pfcDue := e.pfcDue || d.rd F.QRY_PFC_STAT_XOFF [p] != 0 }
  { d with dp := { d.dp with egr := Sparse.set {} d.dp.egr p e } }

/-- A signal of port `p` to its partner, sent when it changes (R59, R62, R63); in the safe state the lanes transmit electrical idle
and nothing else (R407, R408). -/
def Dev.portSignal (d : Dev) (p : Nat) (s : PortSignal) (was now : Bool) : Dev :=
  if was = now || d.safe then d else d.emit (.portSignal p s now)

/-- The port transmits remote fault: LOC_FAULT is 1, and neither auto-negotiation nor link training runs (R62). A port that is
not enabled transmits nothing (R64). -/
def Dev.sendsFault (d : Dev) (p : Nat) : Bool :=
  d.portLive p && d.on F.PCS_PORT_STAT_LOC_FAULT (pix p) && (d.port p).phase != 2 && (d.port p).phase != 3

/-- What the port sends follows that. -/
def Dev.settleFault (d : Dev) (p : Nat) : Dev :=
  (d.portSignal p .remoteFault (d.port p).txFault (d.sendsFault p)).setPort p { d.port p with txFault := d.sendsFault p }

/-- FEC_DEG_LOC, which the device signals to the partner (R59). -/
def Dev.setDegraded (d : Dev) (p : Nat) (b : Bool) : Dev :=
  (d.portSignal p .fecDegraded (d.on F.PCS_PORT_STAT_FEC_DEG_LOC (pix p)) b).wr F.PCS_PORT_STAT_FEC_DEG_LOC (pix p) (b2n b)

/-- The transmit PCS sends LPI, or idles again (R63). -/
def Dev.setTxLpi (d : Dev) (p : Nat) (b : Bool) : Dev :=
  (d.portSignal p .lpi (d.port p).txLpi b).setPort p { d.port p with txLpi := b }

/-- A frame waits at port p: a port that sends LPI sends idles again, and holds the frame for the wake time (R63). -/
def Dev.wakeLpi (d : Dev) (p : Nat) : Dev :=
  if (d.port p).txLpi then (d.setTxLpi p false).setPort p { (d.setTxLpi p false).port p with waking := true } else d

/-- Frames arrive only while the link is up: the PCS's marks for frames to come go with it (R58, R61). -/
def Dev.dropMarks (d : Dev) (p : Nat) : Dev := d.setPort p { d.port p with marks := [] }

/-- LOC_FAULT and LINK_UP follow their conditions; a fall of LINK_UP is counted and flagged, and every change posts a link
event (R62). -/
def Dev.updateLink (d : Dev) (p : Nat) : Dev :=
  let d := d.wr F.PCS_PORT_STAT_LOC_FAULT (pix p) (b2n (d.locFault p))
  let up := d.portLive p && d.alignLocked p && !d.on F.PCS_PORT_STAT_HI_SER (pix p) && !d.locFault p &&
    !d.on F.PCS_PORT_STAT_REM_FAULT (pix p)
  let was := d.linkUp p
  let d := d.wr F.PCS_PORT_STAT_LINK_UP (pix p) (b2n up)
  let d := if was && !up then (d.inc F.PCS_LINK_FLAP_COUNT (pix p)).wr F.PCS_PORT_STAT_LINK_DOWN_EVT (pix p) 1 else d
  let d := (if up && !was then d.linkRose p else d).settleFault p
  let d := if up && was then d else d.dropMarks p
  if was = up then d else d.linkEvent 1 p (d.portStat p)

/-! ## Adaptation (R67, R68) -/

/-- The freeze reason shown: software 3, then quiet 1, then idle-only 2; 0 when none holds. -/
def Dev.freezeWhy (d : Dev) (n : Nat) : Nat :=
  if d.on F.LANE_ADAPT_FORCE_FRZ [n] then 3
  else if (d.lane n).quiet then 1
  else if (d.lane n).idle && d.on F.LANE_ADAPT_IDLE_FRZ [n] then 2
  else 0

/-- An acquiring or tracking lane freezes, and LANE_FRZ_CNT counts the entry from tracking; a frozen one shows its reason, or tracks
again; one that froze before it had tracked acquires then (DESIGN CHOICE, log 305). Training overrides every reason (R68). -/
def Dev.evalFreeze (d : Dev) (n : Nat) : Dev :=
  let a := d.rd F.LANE_STAT_ADAPT [n]
  let why := d.freezeWhy n
  if (d.lane n).training then d
  else if a = 2 && why != 0 then
    ((d.wr F.LANE_STAT_ADAPT [n] 3).wr F.LANE_STAT_FRZ_WHY [n] why).inc F.LANE_FRZ_CNT_COUNT [n]
  else if a = 1 && why != 0 then
    ((d.wr F.LANE_STAT_ADAPT [n] 3).wr F.LANE_STAT_FRZ_WHY [n] why).setLane n { d.lane n with fresh := true }
  else if a = 3 && why = 0 then
    ((d.wr F.LANE_STAT_ADAPT [n] (if (d.lane n).fresh then 1 else 2)).wr F.LANE_STAT_FRZ_WHY [n] 0).setLane n
      { d.lane n with fresh := false }
  else if a = 3 then d.wr F.LANE_STAT_FRZ_WHY [n] why
  else d

/-- A lane stops: adaptation off, and the time at which it left tracking, frozen or not, is kept for R66. PPM keeps its last
measurement (log 276). -/
def Dev.laneOff (d : Dev) (n : Nat) : Dev :=
  let a := d.rd F.LANE_STAT_ADAPT [n]
  let d := if a = 2 || (a = 3 && !(d.lane n).fresh) then d.setLane n { d.lane n with left := some d.rst.mono } else d
  let d := (d.wr F.LANE_STAT_ADAPT [n] 0).wr F.LANE_STAT_FRZ_WHY [n] 0
  (d.wr F.LANE_STAT_LT_STATE [n] 0).setLane n { d.lane n with training := false, fresh := false }

/-! ## Bring-up (R64) -/

/-- A bring-up takes the lane's REACH (R50). -/
def Dev.takeReach (d : Dev) (n : Nat) : Dev := d.setLane n { d.lane n with reach := min 2 (d.rd F.LANE_CTL_REACH [n]) }

/-- The port goes down: alignment lost, HI_SER 0, lanes off; `phase` is where bring-up goes on, and one that starts, at phase 1,
takes the lanes' REACH (R50). REM_FAULT and FEC_DEG_REM keep what was last received, RX_LPI and FEC_DEG_LOC read 0 (log 276). The
corrected symbols counted so far stay in the interval of 8,192 codewords, which goes on when the port locks again (DESIGN CHOICE, log
322). -/
def Dev.portDown (d : Dev) (p phase : Nat) : Dev :=
  let d := (d.wr F.PCS_PORT_STAT_ALIGN_LOCK (pix p) 0).wr F.PCS_PORT_STAT_HI_SER (pix p) 0
  let d := (d.wr F.PCS_PORT_STAT_RX_LPI (pix p) 0).setDegraded p false
  let d := (d.portLanes p).foldl Dev.laneOff d
  let d := if phase = 1 then (d.portLanes p).foldl Dev.takeReach d else d
  let d := (d.setTxLpi p false)
  (d.setPort p { d.port p with phase := phase, locRx := false, waking := false }).updateLink p

/-- CNFG_MISMATCH is looked at again: a change posts a link event; a port that comes to be held goes down, and one that is
released starts bring-up from the beginning (R55). -/
def Dev.checkMismatch (d : Dev) (p : Nat) : Dev :=
  let m := d.portMismatch p
  if m = (d.port p).mismatch then d
  else
    let d := d.setPort p { d.port p with mismatch := m }
    let d := d.portDown p (if m then 0 else if d.portEn p then 1 else 0)
    d.linkEvent 2 p (d.portStat p)

/-- Core `k` executes firmware: powered, its pair's memory loaded, not halted, and the boot has ended in running (R379, R388). -/
def Dev.coreRuns (d : Dev) (k : Nat) : Bool :=
  d.domOn (182 + k / 2) && !d.svc.unloaded.contains (182 + k / 2) && !d.on F.SVC_CTL_HALT [k] && d.rd F.SVC_BOOT_STATE [] == 3 &&
    !(d.safe && d.spl.safeBy == 56 && k != 0 && k != 7)

/-- Firmware can run bring-up: the cores that serve LINK execute it (R387, R388), no hand-over is under way (R382), and the device is
not in the safe state, which stops the service (R408). -/
def Dev.linkService (d : Dev) : Bool :=
  !d.svc.handover && !d.svc.linkCores.isEmpty && d.svc.linkCores.all (fun k => d.coreRuns k) && !d.safe

/-- The port of lane `n`, if any, is looked at again (R55). -/
def Dev.laneChanged (d : Dev) (n : Nat) : Dev :=
  match d.laneOwner n with
  | some p => d.checkMismatch p
  | none => d

/-- The phase after `k` for port `p`: phases 2 and 3 run only when enabled. -/
def Dev.nextPhase (d : Dev) (p k : Nat) : Nat :=
  if k < 2 && d.onC F.PCS_PORT_CTL_AN_EN (pix p) then 2
  else if k < 3 && d.onC F.PCS_PORT_CTL_LT_EN (pix p) then 3
  else 4

/-- The transmit taps of LANE_TXEQ, bits [29:0]. -/
def Dev.txTaps (d : Dev) (n : Nat) : Nat := d.raw R.LANE_TXEQ [n] % 2 ^ 30

/-- The magnitudes of the taps of LANE_TXEQ sum above 63: LANE_STAT.TXEQ_REJ. -/
def Dev.tapsRejected (d : Dev) (n : Nat) : Bool :=
  let mag := fun f => (toSigned 6 (d.rd f [n])).natAbs
  63 < mag F.LANE_TXEQ_PRE3 + mag F.LANE_TXEQ_PRE2 + mag F.LANE_TXEQ_PRE1 + d.rd F.LANE_TXEQ_MAIN [n] +
    mag F.LANE_TXEQ_POST1

/-- The lane drives the coefficients of LANE_TXEQ unless their magnitudes sum above 63 (R65, TXEQ_REJ). -/
def Dev.useTaps (d : Dev) (n : Nat) : Dev :=
  if d.tapsRejected n then d else d.setLane n { d.lane n with taps := d.txTaps n }

/-- Training starts from the held coefficients when the lane has been out of tracking for less than REUSE_MS, otherwise
from the standard's initial preset: main tap 63, the others 0 (R66; log 30). -/
def Dev.startTraining (d : Dev) (n : Nat) : Dev :=
  let ms := d.rd F.LANE_ADAPT_REUSE_MS [n]
  let held := match (d.lane n).left with
    | some t => ms != 0 && d.rst.mono - t < ms * 1000000
    | none => false
  let taps := if held then (d.lane n).taps else 0x00000FC0
  let d := d.setLane n { d.lane n with training := true, taps := taps, trained := none }
  d.wr F.LANE_STAT_LT_STATE [n] 2

/-- The port enters phase `k`. Auto-negotiation runs on the first lane alone (R53). A lane whose adaptation begins under a freeze
reason freezes at once, at the end of training or without it (R67, R68). -/
def Dev.enterPhase (d : Dev) (p k : Nat) : Dev :=
  let d := (d.setPort p { d.port p with phase := k }).settleFault p
  let ls := d.portLanes p
  match k with
  | 2 => (ls.take 1).foldl (fun d n => d.wr F.LANE_STAT_LT_STATE [n] 1) d
  | 3 => ls.foldl Dev.startTraining d
  | 4 => ls.foldl (fun d n =>
      let d := if d.onC F.PCS_PORT_CTL_LT_EN (pix p) then d else d.useTaps n
      (d.wr F.LANE_STAT_ADAPT [n] 1).evalFreeze n) d
  | _ => d

/-- Port `p` is in phase `k` of a bring-up that may proceed. -/
def Dev.inPhase (d : Dev) (p k : Nat) : Bool :=
  d.portLive p && (d.port p).phase == k && d.linkService

/-- BRINGUP_START: firmware starts at phase 1; a change of REACH takes effect now (R50). -/
def execBringupStart (p : Fin 1024) (s : State) : Host.Outcome State Fault Refusal :=
  s.run (fun d => if d.inPhase p.val 0 then d.portDown p.val 1 else d)

/-- The lanes of the port can be ready: macro powered, its PLL locked, the cluster's reference in range (R62, REF_OK). -/
def Dev.canBeReady (d : Dev) (p : Nat) : Bool :=
  d.domOn (p / 8) && d.on F.LANE_MACRO_STAT_PLL_LOCK [p / 8] && d.on F.PCS_CL_STAT_REF_OK [p / 32]

/-- LANE_READY: READY = 1 on every lane ends phase 1. -/
def execLaneReady (p : Fin 1024) (s : State) : Host.Outcome State Fault Refusal :=
  s.run (fun d =>
    let p := p.val
    if d.inPhase p 1 && d.canBeReady p then
      let d := (d.portLanes p).foldl (fun d n => d.wr F.LANE_STAT_READY [n] 1) d
      (d.wr F.LANE_MACRO_STAT_CAL_DONE [p / 8] 1).enterPhase p (d.nextPhase p 1)
    else d)

/-- AN_RESOLVE: resolution to the configured speed and FEC ends phase 2. -/
def execAnResolve (p : Fin 1024) (s : State) : Host.Outcome State Fault Refusal :=
  s.run (fun d =>
    let p := p.val
    if d.inPhase p 2 then
      let d := (d.portLanes p).foldl (fun d n => d.wr F.LANE_STAT_LT_STATE [n] 0) d
      d.enterPhase p (d.nextPhase p 2)
    else d)

/-- Lane `n` is trained with the result `t`: with OVR = 0 it transmits with it, and LANE_TXEQ then reads it; with OVR = 1 it
transmits with LANE_TXEQ (R65). -/
def Dev.laneTrained (d : Dev) (n t : Nat) : Dev :=
  let d := (d.wr F.LANE_STAT_LT_STATE [n] 3).setLane n { d.lane n with training := false, trained := some t }
  if d.on F.LANE_TXEQ_OVR [n] then d.useTaps n else (d.setRaw R.LANE_TXEQ [n] t).setLane n { d.lane n with taps := t }

/-- LT_COMPLETE: every lane is trained, and acquires, or freezes for a reason that still holds (R65, R68). -/
def execLtComplete (p : Fin 1024) (taps : List (BitVec 30)) (s : State) : Host.Outcome State Fault Refusal :=
  s.run (fun d =>
    let p := p.val
    if d.inPhase p 3 then
      let ls := d.portLanes p
      ((ls.zipIdx).foldl (fun d e => d.laneTrained e.1 ((taps.getD e.2 0).toNat)) d).enterPhase p 4
    else d)

/-- One lane tracks, with what it measures. -/
def Dev.laneTracks (d : Dev) (n : Nat) (m : LaneMeas) : Dev :=
  let d := (d.wr F.LANE_STAT_ADAPT [n] 2).wr F.LANE_STAT_PPM [n] m.ppm.toNat
  let d := (d.wr F.LANE_STAT_SIG_DET [n] 1).wr F.LANE_STAT_CDR_LOCK [n] 1
  let d := (d.wr F.LANE_RXEQ_CTLE [n] m.ctle.toNat).wr F.LANE_RXEQ_VGA [n] m.vga.toNat
  let d := (d.wr F.LANE_RXEQ_DFE1 [n] m.dfe1.toNat).wr F.LANE_SNR_SNR [n] m.snr.toNat
  (d.setLane n { d.lane n with left := none, quiet := false }).evalFreeze n

/-- ADAPT_TRACKING: every lane reaches tracking, which ends phase 4; a lane that is frozen does not (R68). Lanes that restarted
adaptation on a running port track again (R68). -/
def execAdaptTracking (p : Fin 1024) (meas : List LaneMeas) (s : State) : Host.Outcome State Fault Refusal :=
  s.run (fun d =>
    let p := p.val
    let ls := d.portLanes p
    if d.inPhase p 4 && ls.any (fun n => d.rd F.LANE_STAT_ADAPT [n] == 3) then d
    else if d.inPhase p 4 then
      let d := (ls.zip meas).foldl (fun d (n, m) => d.laneTracks n m) d
      d.enterPhase p 5
    else if d.inPhase p 6 then
      (ls.zip meas).foldl (fun d (n, m) => if d.rd F.LANE_STAT_ADAPT [n] = 1 then d.laneTracks n m else d) d
    else d)

/-- ALIGN_LOCK: markers locked and lanes deskewed, with at most 200 ns of skew (R57), ends phase 5. -/
def execAlignLock (p : Fin 1024) (skew : Fin 201) (s : State) : Host.Outcome State Fault Refusal :=
  s.run (fun d =>
    let p := p.val
    if d.inPhase p 5 then
      let d := (d.wr F.PCS_PORT_STAT_ALIGN_LOCK (pix p) 1).wr F.PCS_PORT_STAT_SKEW (pix p) skew.val
      (d.enterPhase p 6).updateLink p
    else d)

/-- BRINGUP_TIMEOUT: the phase overran its limit; LT_STATE reads failed on the port's lanes, every one of which the model takes as
concerned (log 276), and the 1 s wait starts. -/
def execBringupTimeout (p : Fin 1024) (s : State) : Host.Outcome State Fault Refusal :=
  s.run (fun d =>
    let p := p.val
    let k := (d.port p).phase
    if 1 ≤ k && k ≤ 5 && d.inPhase p k then
      let d := d.portDown p 7
      (d.portLanes p).foldl (fun d n => d.wr F.LANE_STAT_LT_STATE [n] 4) d
    else d)

/-- BRINGUP_RETRY: the wait ends and bring-up restarts at phase 1. -/
def execBringupRetry (p : Fin 1024) (s : State) : Host.Outcome State Fault Refusal :=
  s.run (fun d => if d.inPhase p.val 7 then d.portDown p.val 1 else d)

/-! ## Running ports (R58 to R63) -/

/-- SIGNAL_LOSS: the partner disappears (R62); firmware restarts bring-up at phase 1. -/
def execSignalLoss (p : Fin 1024) (s : State) : Host.Outcome State Fault Refusal :=
  s.run (fun d =>
    let p := p.val
    let d := (d.portLanes p).foldl (fun d n =>
      (d.wr F.LANE_STAT_SIG_DET [n] 0).wr F.LANE_STAT_CDR_LOCK [n] 0) d
    if d.absent p then d else d.portDown p (if d.portLive p then 1 else 0))

/-- LINK_UP_CHANGE: the fault ordered sets that the PCS receives change, and LINK_UP follows (R62). A link that falls with
ALIGN_LOCK kept stays in phase 6 and rises when its cause ends: no bring-up restarts (DESIGN CHOICE, log 303). -/
def execLinkUpChange (p : Fin 1024) (localFault remoteFault : Bool) (s : State) : Host.Outcome State Fault Refusal :=
  s.run (fun d =>
    let p := p.val
    if d.absent p then d
    else
      let d := d.setPort p { d.port p with locRx := localFault && d.alignLocked p }
      (d.wr F.PCS_PORT_STAT_REM_FAULT (pix p) (b2n remoteFault)).updateLink p)

/-- The worse of two marks: truncation before error, in the order of R152. -/
def joinMark (a b : FrameMark) : FrameMark :=
  if a = .truncated ∨ b = .truncated then .truncated else if a = .errored ∨ b = .errored then .errored else .ok

/-- The frame that arrives at port `p`, its header window taken: marked, and with `cut` at its end (R58, R61). -/
def Dev.markArriving (d : Dev) (p : Nat) (m : FrameMark) (cut : Bool) : Dev :=
  { d with dp := { d.dp with pkts := d.dp.pkts.map (fun f =>
      if f.port = p && f.kind == .frame && f.job.isNone && !f.ended then
        { f with mark := joinMark f.mark m, ended := cut } else f) } }

/-- The next `k` frames of port `p`, whose header windows have not come, are marked. -/
def Dev.markNext (d : Dev) (p k : Nat) (m : FrameMark) : Dev :=
  let l := (d.port p).marks
  d.setPort p { d.port p with marks :=
    (List.range (max k l.length)).map (fun i => if i < k then joinMark (l.getD i .ok) m else l.getD i .ok) }

/-- A header window of port `p` has come: the mark of its frame. -/
def Dev.takeMark (d : Dev) (p : Nat) : Dev × FrameMark :=
  (d.setPort p { d.port p with marks := (d.port p).marks.tail }, (d.port p).marks.headD .ok)

/-- The blocks of an error codeword, or a bad block, err the frames that hold them (R58). -/
def Dev.errFrames (d : Dev) (p : Nat) (cur : Bool) (next : Nat) : Dev :=
  (if cur then d.markArriving p .errored false else d).markNext p next .errored

/-- FEC_CODEWORD: one codeword or block, with the high-SER verdict, the partner's LPI, its degraded signal and the lane skew
measured (R57 to R59, R62, R63). A skew above 200 ns that is measured while locked is shown and keeps the lock (DESIGN CHOICE,
log 304). -/
def execFecCodeword (p : Fin 1024) (r : Codeword) (hiSer rxLpi degRem : Bool) (skew : Fin 256) (s : State) :
    Host.Outcome State Fault Refusal :=
  s.run (fun d =>
    let p := p.val
    if !d.alignLocked p then d
    else
      let u := 64 + p / 32
      let d := match r with
        | .clean => d
        | .corrected k =>
          let n := k.val + 1
          let d := (d.inc F.PCS_FEC_CORR_COUNT (pix p)).addTo F.PCS_FEC_SYM_COUNT (pix p) n
          let d := (d.inc F.PCS_FEC_BIN_COUNT (pix p ++ [n])).pmc u 0x22 1
          d.setPort p { d.port p with syms := (d.port p).syms + n }
        | .uncorrectable cur next => ((d.inc F.PCS_FEC_UNCORR_COUNT (pix p)).pmc u 0x23 1).errFrames p cur next.val
        | .badBlock cur next => (d.inc F.PCS_BAD_BLK_COUNT (pix p)).errFrames p cur next.val
      let d := d.wr F.PCS_PORT_STAT_SKEW (pix p) (max (d.rd F.PCS_PORT_STAT_SKEW (pix p)) skew.val)
      let d := (d.wr F.PCS_PORT_STAT_HI_SER (pix p) (b2n hiSer)).wr F.PCS_PORT_STAT_RX_LPI (pix p) (b2n rxLpi)
      (d.wr F.PCS_PORT_STAT_FEC_DEG_REM (pix p) (b2n degRem)).updateLink p)

/-- FEC_DEG_INTERVAL: FEC_DEG_LOC after 8,192 codewords (R59). -/
def execFecDegInterval (p : Fin 1024) (s : State) : Host.Outcome State Fault Refusal :=
  s.run (fun d =>
    let p := p.val
    let n := (d.port p).syms
    let act := d.rd F.PCS_FEC_DEG_ACT_THR (pix p)
    let deact := d.rd F.PCS_FEC_DEG_DEACT_THR (pix p)
    let d := d.setPort p { d.port p with syms := 0 }
    if act ≤ deact then d.setDegraded p false
    else if act < n then d.setDegraded p true
    else if n < deact then d.setDegraded p false
    else d)

/-- A write of PCS_FEC_DEG[p]: a pair with ACT_THR ≤ DEACT_THR disables detection, and FEC_DEG_LOC then reads 0 (R59). -/
def Dev.degStored (d : Dev) (p : Nat) : Dev :=
  if d.rd F.PCS_FEC_DEG_ACT_THR (pix p) ≤ d.rd F.PCS_FEC_DEG_DEACT_THR (pix p) then d.setDegraded p false else d

/-- A frame of port `p` whose header window has come still arrives. -/
def Dev.wireArriving (d : Dev) (p : Nat) : Bool :=
  d.dp.pkts.any (fun f => f.port == p && f.kind == .frame && f.job.isNone && !f.ended)

/-- The partner sends ordered sets, LPI or faults, and no idles. -/
def Dev.setsOnly (d : Dev) (p : Nat) : Bool :=
  d.on F.PCS_PORT_STAT_RX_LPI (pix p) || (d.port p).locRx || d.on F.PCS_PORT_STAT_REM_FAULT (pix p)

/-- RATE_MATCH: one idle block inserted or deleted between frames; an ordered set is never removed (R60). -/
def execRateMatch (p : Fin 1024) (insert : Bool) (s : State) : Host.Outcome State Fault Refusal :=
  s.run (fun d =>
    let p := p.val
    if !d.alignLocked p || d.wireArriving p || (!insert && d.setsOnly p) then d
    else if insert then (d.inc F.PCS_RM_INS_COUNT (pix p)).pmc (64 + p / 32) 0x25 1
    else (d.inc F.PCS_RM_DEL_COUNT (pix p)).pmc (64 + p / 32) 0x24 1)

/-- RM_OVF: the dual-clock queue is full; the arriving frame is truncated and ends errored: the one whose header window has come,
or else the next, if the link is up (R61). -/
def execRmOvf (p : Fin 1024) (s : State) : Host.Outcome State Fault Refusal :=
  s.run (fun d =>
    let p := p.val
    if d.absent p then d
    else
      let d := (d.inc F.PCS_RM_OVF_COUNT (pix p)).wr F.PCS_PORT_STAT_RM_OVF (pix p) 1
      if d.wireArriving p then d.markArriving p .truncated true
      else if d.linkUp p then d.markNext p 1 .truncated
      else d)

/-- Port `p` has a frame to send: a copy on its queues or in its egress pipeline, or a PFC frame that is due (R63, R166). -/
def Dev.hasFrame (d : Dev) (p : Nat) : Bool :=
  d.dp.copies.any (fun c => c.queue < 393216 && c.queue % 12288 / 12 == p && !c.released) ||
    (Sparse.get {} d.dp.egr p : EgrPort).pfcDue

/-- LPI_ENTER: LPI_US µs without a frame to send (R63). -/
def execLpiEnter (p : Fin 1024) (s : State) : Host.Outcome State Fault Refusal :=
  s.run (fun d =>
    if d.onC F.PCS_PORT_CTL_LPI_EN (pix p.val) && d.linkUp p.val && !d.hasFrame p.val && !(d.port p.val).waking then
      d.setTxLpi p.val true
    else d)

/-- LPI_WAKE: the 1.0 µs wake time since a frame came to wait has passed; the held frame may go (R63). -/
def execLpiWake (p : Fin 1024) (s : State) : Host.Outcome State Fault Refusal :=
  s.run (fun d => if (d.port p.val).waking then d.setPort p.val { d.port p.val with waking := false } else d)

/-! ## Freezing (R67, R68) -/

/-- ADAPT_FREEZE: a reason comes to hold on a lane. The quiet reason means SIG_DET = 0. -/
def execAdaptFreeze (n : Fin 1024) (why : FreezeWhy) (s : State) : Host.Outcome State Fault Refusal :=
  s.run (fun d =>
    let n := n.val
    let d := match why with
      | .quiet => (d.wr F.LANE_STAT_SIG_DET [n] 0).setLane n { d.lane n with quiet := true }
      | .idleOnly => d.setLane n { d.lane n with idle := true }
    d.evalFreeze n)

/-- ADAPT_UNFREEZE: a reason no longer holds. -/
def execAdaptUnfreeze (n : Fin 1024) (why : FreezeWhy) (s : State) : Host.Outcome State Fault Refusal :=
  s.run (fun d =>
    let n := n.val
    let d := match why with
      | .quiet => (d.wr F.LANE_STAT_SIG_DET [n] 1).setLane n { d.lane n with quiet := false }
      | .idleOnly => d.setLane n { d.lane n with idle := false }
    d.evalFreeze n)

/-- RESTART on lane `n`: a tracking lane acquires again from its coefficients, out of tracking from now on (R66); discarded while
FORCE_FRZ = 1 or during training. -/
def Dev.adaptRestart (d : Dev) (n : Nat) : Dev :=
  if d.rd F.LANE_STAT_ADAPT [n] = 2 && !d.on F.LANE_ADAPT_FORCE_FRZ [n] && !(d.lane n).training then
    (d.wr F.LANE_STAT_ADAPT [n] 1).setLane n { d.lane n with left := some d.rst.mono }
  else d

/-- ADAPT_RESTART: a write of LANE_ADAPT[n].RESTART (R14, R56). -/
def execAdaptRestart (m : Master) (n : Fin 1024) (s : State) : Host.Outcome State Fault Refusal :=
  s.run (fun d => if isPfSvc m && !d.hostBlocked m && d.domOn (n.val / 8) then d.adaptRestart n.val else d)

/-! ## References and PLLs (R394, R412, R445) -/

/-- The ports of cluster `c` that are enabled. -/
def Dev.clusterPorts (d : Dev) (c : Nat) : List Nat := (List.range 32).map (32 * c + ·) |>.filter (fun p => d.portEn p)

/-- The lanes of a list of ports lose READY and the ports go down; bring-up starts again at phase 1. -/
def Dev.portsLoseReady (d : Dev) (ps : List Nat) : Dev :=
  ps.foldl (fun d p =>
    let d := (d.portLanes p).foldl (fun d n => d.wr F.LANE_STAT_READY [n] 0) d
    d.portDown p (if d.portLive p then 1 else 0)) d

/-- The clusters that REFCLK_(B + i) serves (R24). -/
def refClusters (i : Nat) : List Nat := (List.range 4).map (fun j => 4 * (i + 1) + j)

/-- Whether input REFCLK_(B + i) is out of range. -/
def Dev.refclk (d : Dev) (i : Nat) (bad : Bool) : Dev := { d with rst := { d.rst with refclk := putBit d.rst.refclk i bad } }

/-- REFCLK_OUT_OF_RANGE: input REFCLK_(B + i) is absent or beyond 1,000 ppm. -/
def execRefclkOutOfRange (b : Fin 7) (s : State) : Host.Outcome State Fault Refusal :=
  s.runAny (fun d => (d.refclk b.val true).apply (fun d =>
    (refClusters b.val).foldl (fun d c => (d.wr F.PCS_CL_STAT_REF_OK [c] 0).portsLoseReady (d.clusterPorts c)) d))

/-- REF_OK_RESTORE: the input is back within range. -/
def execRefOkRestore (b : Fin 7) (s : State) : Host.Outcome State Fault Refusal :=
  s.runAny (fun d => (d.refclk b.val false).apply (fun d =>
    (refClusters b.val).foldl (fun d c => d.wr F.PCS_CL_STAT_REF_OK [c] 1) d))

/-- A macro's transmit PLL loses lock: its ports go down (R394). -/
def Dev.macroPllLost (d : Dev) (m : Nat) : Dev :=
  (d.wr F.LANE_MACRO_STAT_PLL_LOCK [m] 0).portsLoseReady
    (((List.range 8).map (8 * m + ·)).filter (fun p => d.portEn p && !d.absent p))

/-- MACRO_PLL_RELOCK. -/
def execMacroPllRelock (m : Fin 128) (s : State) : Host.Outcome State Fault Refusal :=
  s.run (fun d => if d.domOn m.val then d.wr F.LANE_MACRO_STAT_PLL_LOCK [m.val] 1 else d)

/-! ## The LINK service (R379, R382) -/

/-- The cores that run bring-up: S1 and S2, the one of them that can, else S0 (R382). -/
def Dev.linkCoresNow (d : Dev) : List Nat :=
  match d.coreRuns 1, d.coreRuns 2 with
  | true, true => [1, 2]
  | true, false => [1]
  | false, true => [2]
  | false, false => [0]

/-- A core of the LINK service stopped or came back: a hand-over begins when the serving cores change. -/
def Dev.checkHandover (d : Dev) : Dev :=
  if d.svc.linkCores = d.linkCoresNow then d else { d with svc := { d.svc with handover := true } }

/-! ## The commit of PCS_ (R54) -/

/-- Keys of committed or staged PCS_PORT_CTL registers, as port numbers. -/
def portsOfKeys (m : Sparse Word) : List Nat :=
  (m.filter (fun e => keyWin e.1 == 4 && keyId e.1 == R.PCS_PORT_CTL.id)).map (fun e => keyFlat e.1)

/-- Every port number of macro `m` has EN = 0, committed before and after. -/
def macroQuiet (old new : Dev) (m : Nat) : Bool :=
  (List.range 8).all (fun i => !old.portEn (8 * m + i) && !new.portEn (8 * m + i))

/-- A shape change of a macro with an enabled port is refused: the old shape stays committed and SHAPE_REJ sets. -/
def Dev.shapeReject (new old : Dev) (m : Nat) : Dev :=
  if new.cm (shapeFld m) [m / 4] = old.cm (shapeFld m) [m / 4] || macroQuiet old new m then new
  else
    let d := new.wrC (shapeFld m) [m / 4] (old.cm (shapeFld m) [m / 4])
    d.wr F.PCS_CL_STAT_SHAPE_REJ [m / 4] (putBit (d.rd F.PCS_CL_STAT_SHAPE_REJ [m / 4]) (m % 4) true)

/-- The fields whose change takes a running port down: FEC, MEDIA, AN_EN, LT_EN. -/
def Dev.linkFields (d : Dev) (p : Nat) : Nat := bitsOf (d.rawC R.PCS_PORT_CTL (pix p)) 6 2

/-- One port after a commit of PCS_: LPI that is no longer enabled ends, a mismatch that changed, a port that was enabled or
disabled, a running port whose link fields changed (R54). -/
def Dev.portCommitted (new old : Dev) (p : Nat) : Dev :=
  let d := (if new.onC F.PCS_PORT_CTL_LPI_EN (pix p) then new else new.setTxLpi p false).checkMismatch p
  if old.portEn p && !new.portEn p then d.portDown p 0
  else if old.portEn p && new.portEn p && old.linkFields p != new.linkFields p then
    d.portDown p (if d.portLive p then 1 else 0)
  else d.updateLink p

/-- The commit of PCS_: shapes first, then every port whose registers are not at reset. -/
def pcsCommit (old new : Dev) : Dev :=
  let d := (List.range 128).foldl (fun d m => d.shapeReject old m) new
  let ps := (portsOfKeys old.comm ++ portsOfKeys new.comm).eraseDups
  ps.foldl (fun d p => d.portCommitted old p) d

end Sys2Proof.Machine
end

