-- ==== Sys2Proof/Machine/Stream.lean ====
section
/-!
DEFINITION. Telemetry streams and the buffers of TLM_POST, timestamps in the format of R86, and Cullet records
(spec/10_telemetry_and_counters.md R300 to R304, R313 to R315).
-/

namespace Sys2Proof.Machine

/-! ## Time -/

/-- TIME in the 40-bit format of R86: 32 bits of ns, then 1/256 ns. -/
def Dev.ts40 (d : Dev) : Nat := d.ns % 2 ^ 32 * 256 + d.frac / 2 ^ 24

/-- The low 32 bits of ns of a 40-bit timestamp. -/
def tsNs (t : Nat) : Nat := t / 256 % 2 ^ 32

/-- A timestamp plus a signed adjustment in 1/256 ns (R297). -/
def tsAdjust (t adj : Nat) : Nat := ofSigned 40 ((t : Int) + toSigned 16 adj)

/-- The difference of two times in ns, modulo 2^32 (R300). -/
def nsDiff (a b : Nat) : Nat := (a % 2 ^ 32 + 2 ^ 32 - b % 2 ^ 32) % 2 ^ 32

/-! ## Writing into a job's buffer -/

/-- `bytes` placed at offset `off` of a buffer made of fragments: one posted write per fragment touched. -/
def Dev.scatter (d : Dev) (fn : Nat) (frags : List (Nat × Nat)) (off : Nat) (bytes : List Byte) : Dev :=
  match frags with
  | [] => d
  | (a, l) :: t =>
    if l ≤ off then d.scatter fn t (off - l) bytes
    else
      let now := bytes.take (l - off)
      let d := if now.isEmpty then d else d.emit (.dmaBytes fn (a + off) now)
      d.scatter fn t 0 (bytes.drop (l - off))

/-! ## Streams (R302 to R304) -/

def Dev.stream (d : Dev) (s : Nat) : Stream := Sparse.get {} d.tlm.streams s

def Dev.setStream (d : Dev) (s : Nat) (x : Stream) : Dev :=
  { d with tlm := { d.tlm with streams := Sparse.set {} d.tlm.streams s x } }

/-- Buffers that are full complete DONE with the bytes written (R303). -/
def Dev.streamFull (d : Dev) (s : Nat) : Dev :=
  match (d.stream s).bufs with
  | [] => d
  | b :: t =>
    if b.written = b.len then (d.setStream s { d.stream s with bufs := t }).finishJob b.job 0 b.written 0 0 else d

/-- The IPFIX service keeps a queue sample that reaches the cores until it is exported, while its enterprise number is not 0
(R312). -/
def Dev.keepSample (d : Dev) (s : Nat) (r : List Byte) : Dev :=
  if s = 0 ∧ d.svc.ipfix.getD 3 0 ≠ 0 then { d with svc := { d.svc with queueRecs := d.svc.queueRecs ++ [r] } } else d

/-- The oldest waiting record goes into the oldest buffer, or to the service cores. -/
def Dev.streamWrite (d : Dev) (s : Nat) : Dev :=
  let x := d.stream s
  match x.queue with
  | [] => d
  | r :: q =>
    if !d.on F.TLM_STREAM_CFG_EN [s] || d.safe then d
    else if d.on F.TLM_STREAM_CFG_DEST [s] then ((d.setStream s { x with queue := q }).emit (.coreRecord s r)).keepSample s r
    else match x.bufs with
      | [] => d
      | b :: t =>
        let fn := d.owner b.ring
        if !d.dmaOk fn then d
        else
          let d := (d.scatter fn b.frags b.written r).dmaWrote (some b.job) 32
          (d.setStream s { queue := q, bufs := { b with written := b.written + 32 } :: t }).streamFull s

/-- Records are written in order while there is room for them. -/
def Dev.streamPump (d : Dev) (s : Nat) : Nat → Dev
  | 0 => d
  | fuel + 1 => (d.streamWrite s).streamPump s fuel

/-- A record of stream `s` is produced: `body` is its bytes 1 to 27; SEQ rises whether or not the queue takes it (R302). -/
def Dev.record (d : Dev) (s : Nat) (body : List Byte) : Dev :=
  if !d.on F.TLM_STREAM_CFG_EN [s] || d.safe then d
  else
    let seq := d.rd F.TLM_STREAM_SEQ_SEQ [s]
    let r := BitVec.ofNat 8 (16 * s + 1) :: sliceOf (body ++ List.replicate 27 0) 0 27 ++ leBytes 4 seq
    let d := d.wr F.TLM_STREAM_SEQ_SEQ [s] ((seq + 1) % 2 ^ 32)
    let x := d.stream s
    if 1024 ≤ x.queue.length then d.inc F.TLM_STREAM_DROP_COUNT [s]
    else (d.setStream s { x with queue := x.queue ++ [r] }).streamPump s (x.queue.length + 1)

/-- A stream's EN changes from 0 to 1: SEQ returns to 0 (R302). -/
def Dev.streamEnabled (d : Dev) (s : Nat) : Dev := d.wr F.TLM_STREAM_SEQ_SEQ [s] 0

/-- A stream's EN is cleared: every buffer completes DONE with the bytes written into it (R303). -/
def Dev.streamDisabled (d : Dev) (s : Nat) : Dev :=
  let bufs := (d.stream s).bufs
  bufs.foldl (fun d b => d.finishJob b.job 0 b.written 0 0) (d.setStream s { d.stream s with bufs := [] })

/-- TLM_POST: a dispatched job supplies a buffer for its stream, or ends at once (R303). -/
def execTlmPost (n : Fin 256) (s : State) : Host.Outcome State Fault Refusal :=
  s.run (fun d =>
    match d.newJob n.val 0x30 with
    | none => d
    | some j =>
      let k := j.p 0 % 4
      let d := d.startJob j.id
      if !d.on F.TLM_STREAM_CFG_EN [k] || d.on F.TLM_STREAM_CFG_DEST [k] || d.rd F.TLM_STREAM_CFG_RING [k] != n.val then
        d.finishJob j.id 6 0 0 0
      else if j.sub.len = 0 || j.sub.len % 32 ≠ 0 || 16777216 < j.sub.len then d.finishJob j.id 5 0 0 0
      else
        let x := d.stream k
        let b : StreamBuf := { job := j.id, ring := n.val, frags := j.frags, len := j.sub.len }
        (d.setStream k { x with bufs := x.bufs ++ [b] }).streamPump k x.queue.length)

/-- TLM_FLUSH: FLUSH_US µs after the first record of the buffer being filled, its job completes DONE (R303). -/
def execTlmFlush (k : Fin 4) (s : State) : Host.Outcome State Fault Refusal :=
  s.run (fun d =>
    match (d.stream k.val).bufs with
    | [] => d
    | b :: t =>
      if d.rd F.TLM_STREAM_CFG_FLUSH_US [k.val] = 0 || b.written = 0 then d
      else (d.setStream k.val { d.stream k.val with bufs := t }).finishJob b.job 0 b.written 0 0)

/-! ## Cullet records (R314, R315) -/

/-- A Cullet record of a trace at a checkpoint: `bit` is its group in CUL_CFG.MASK, none for a final record; `port` the
egress port of the copy that it describes. -/
def Dev.cullet (d : Dev) (trace : Option Nat) (cp : Nat) (bit : Option Nat) (port : Option Nat) (data : List Byte) : Dev :=
  match trace with
  | none => d
  | some id =>
    if (match bit with
        | some b => !bitAt (d.rd F.CUL_CFG_MASK []) b
        | none => false) then d
    else
      let flags := b2n bit.isNone * 2 ^ 15 + b2n port.isSome * 2 ^ 14 + port.getD 0
      d.record 1 (BitVec.ofNat 8 cp :: leBytes 2 id ++ leBytes 2 flags ++ leBytes 5 d.ts40 ++ [0] ++ data)

/-- A trace ends: its ID is free again. -/
def Dev.freeTrace (d : Dev) (trace : Option Nat) : Dev :=
  match trace with
  | none => d
  | some id =>
    let t := d.tlm.traces.filter (fun x => x != id)
    { d with tlm := { d.tlm with traces := t } }

end Sys2Proof.Machine
end

