-- ==== Sys2Proof/Machine/Operands.lean ====
section
/-!
DEFINITION. The operands of the pipeline instructions (spec/03_parser_and_pipelines.md): metadata fields by field ID (R86,
R87, R454), selectors (R93), sources (R92), the header window, and the bytes of a key profile (R91).
-/

namespace Sys2Proof.Machine

/-! ## Metadata fields (R86) -/

def mdIngTs : Nat := 0x00
def mdEgrQTs : Nat := 0x01
def mdFlowHash : Nat := 0x02
def mdHdrValid : Nat := 0x03
def mdMcGroup : Nat := 0x04
def mdPktLen : Nat := 0x05
def mdBd : Nat := 0x06
def mdVrf : Nat := 0x07
def mdIngPort : Nat := 0x08
def mdEgrPort : Nat := 0x09
def mdL4Off : Nat := 0x0A
def mdTrapCode : Nat := 0x0B
def mdDropCode : Nat := 0x0C
def mdPipeId : Nat := 0x0D
def mdQueue : Nat := 0x0E
def mdMirrorSess : Nat := 0x0F
def mdDestType : Nat := 0x10
def mdGthEngine : Nat := 0x11
def mdColour : Nat := 0x12
def mdCopyHost : Nat := 0x13
def mdCullet : Nat := 0x14
def mdIoam : Nat := 0x15
def mdLenchg : Nat := 0x16
def mdPayloadOut : Nat := 0x17
/-- U0; Uk follows at 0x20 + k. -/
def mdU0 : Nat := 0x20

/-- The width in bits of a field; 0 for a reserved field ID (R454). -/
def mdWidth (id : Nat) : Nat :=
  match id with
  | 0x00 => 40
  | 0x01 => 40
  | 0x02 => 32
  | 0x03 => 32
  | 0x04 => 16
  | 0x05 => 15
  | 0x06 => 14
  | 0x07 => 12
  | 0x08 => 10
  | 0x09 => 10
  | 0x0A => 8
  | 0x0B => 8
  | 0x0C => 6
  | 0x0D => 6
  | 0x0E => 4
  | 0x0F => 4
  | 0x10 => 3
  | 0x11 => 3
  | 0x12 => 2
  | 0x13 => 1
  | 0x14 => 1
  | 0x15 => 1
  | 0x16 => 1
  | 0x17 => 1
  | _ => if 0x20 ≤ id && id ≤ 0x27 then 32 else 0

/-- A program may write the field in an ingress pipeline: RW. -/
def mdRw (id : Nat) : Bool :=
  id == 0x02 || id == 0x04 || id == 0x06 || id == 0x07 || id == 0x09 || id == 0x0B || id == 0x0E || id == 0x0F ||
    id == 0x12 || id == 0x13 || id == 0x15 || (0x20 ≤ id && id ≤ 0x27)

/-- A program may write the field in an egress pipeline: EW. -/
def mdEw (id : Nat) : Bool := mdRw id && id != 0x02 && id != 0x04 && id != 0x09 && id != 0x0E

/-- A field of metadata. -/
def mdGet (m : Sparse Nat) (id : Nat) : Nat := Sparse.get 0 m id

/-- A field of metadata set to the low bits of `v`; COLOUR 3 is written as 2 (R86). -/
def mdSet (m : Sparse Nat) (id v : Nat) : Sparse Nat :=
  let x := v % 2 ^ mdWidth id
  Sparse.set 0 m id (if id = mdColour && x = 3 then 2 else x)

def Pass.md' (p : Pass) (id : Nat) : Nat := mdGet p.md id
def Pass.setMd (p : Pass) (id v : Nat) : Pass := { p with md := mdSet p.md id v }

/-- The pass runs in an egress pipeline. -/
def Pass.egress (p : Pass) : Bool := 32 ≤ p.pipe

/-- Stages of the pass's direction. -/
def Pass.stages (p : Pass) : Nat := if p.egress then 12 else 16

/-- The lowest drop code raised is kept (R104, R106). -/
def Pass.raise (p : Pass) (code : Nat) : Pass :=
  let c := p.md' mdDropCode
  if c = 0 || code < c then p.setMd mdDropCode code else p

/-! ## The header window (R77, R93) -/

/-- The header window of a frame. -/
def windowOf (bytes : List Byte) : List Byte := bytes.take 256

/-- Bit `b` of the window, counted from the msb of byte 0; 0 beyond it. -/
def winBit (w : List Byte) (b : Nat) : Bool := bitAt (byteAt w (b / 8)) (7 - b % 8)

/-- `n` bits from bit `b`, the first the most significant. -/
def winBits (w : List Byte) (b n : Nat) : Nat :=
  (List.range n).foldl (fun a i => 2 * a + b2n (winBit w (b + i))) 0

/-- The low `n` bits of `v` put at bit `b`; bits beyond the window are discarded. -/
def winPut (w : List Byte) (b n v : Nat) : List Byte :=
  (List.range n).foldl (fun w i =>
    let j := b + i
    w.set (j / 8) (BitVec.ofNat 8 (putBit (byteAt w (j / 8)) (7 - j % 8) (bitAt v (n - 1 - i))))) w

/-- Header writes applied in order to the first 256 bytes. -/
def applyWrites (w : List Byte) (l : List HWrite) : List Byte :=
  l.foldl (fun w x => winPut w x.bit x.width x.val) w

/-- The class and offset of the header in a slot; none for a slot that no header has written (R83). -/
def Pass.slot (p : Pass) (k : Nat) : Option (Nat × Nat) :=
  (p.slots.find? (fun e => e.1 == k)).map (fun e => e.2)

/-! ## Selectors (R93) -/

def selHeader (sel : Nat) : Bool := bitAt sel 23
def selSlot (sel : Nat) : Nat := bitsOf sel 22 20
def selField (sel : Nat) : Nat := bitsOf sel 7 0

/-- The width that a selector names: a reserved field reads as one of 32 bits. -/
def selWidth (sel : Nat) : Nat :=
  if selHeader sel then bitsOf sel 8 4 + 1
  else if mdWidth (selField sel) = 0 then 32 else mdWidth (selField sel)

/-- The first bit, in the window, of a header selector whose header starts at byte `off`. -/
def selBit (sel off : Nat) : Nat := (off + bitsOf sel 19 12) * 8 + bitsOf sel 11 9

/-- The byte of the frame that an INSERT4 or REMOVE names. -/
def selByte (sel off : Nat) : Nat := off + bitsOf sel 19 12

/-- What a selector reads: 0 for an invalid slot, a reserved field or bits beyond the window. -/
def Pass.readSel (p : Pass) (sel : Nat) : Nat :=
  if selHeader sel then
    match p.slot (selSlot sel) with
    | some (_, off) => winBits p.win (selBit sel off) (selWidth sel)
    | none => 0
  else p.md' (selField sel)

/-- An instruction may write through the selector (R96): every header selector, a field that the direction may write. -/
def Pass.mayWrite (p : Pass) (sel : Nat) : Bool :=
  selHeader sel || (if p.egress then mdEw (selField sel) else mdRw (selField sel))

/-- A write through a selector: a header write travels with the packet; one through an invalid slot is discarded (R83). -/
def Pass.writeSel (p : Pass) (sel v : Nat) : Pass :=
  if selHeader sel then
    match p.slot (selSlot sel) with
    | some (_, off) =>
      let w : HWrite := { bit := selBit sel off, width := selWidth sel, val := v % 2 ^ selWidth sel }
      { p with win := winPut p.win w.bit w.width w.val, writes := p.writes ++ [w] }
    | none => p
  else p.setMd (selField sel) v

/-! ## Instructions (R92) -/

def insnOp (w : Nat) : Nat := bitsOf w 63 58
def insnSrc (w : Nat) : Nat := bitsOf w 57 56
def insnDst (w : Nat) : Nat := bitsOf w 55 32
def insnArg (w : Nat) : Nat := bitsOf w 31 0

/-- The source of an instruction: immediate, action data, or a selector. SRC = 3 is reserved. -/
def Pass.source (p : Pass) (w : Nat) : Nat :=
  let a := insnArg w
  match insnSrc w with
  | 0 => a
  | 1 => p.adata / 2 ^ bitsOf a 5 0 % 2 ^ (bitsOf a 12 8 + 1)
  | 2 => p.readSel (bitsOf a 23 0)
  | _ => 0

/-! ## Keys (R91) -/

/-- Where the words of a program bank lie in `Pass.prog`: action words, stage configurations, key profiles. -/
def progAction (stage idx : Nat) : Nat := stage * 2048 + idx
def progConfig (stage : Nat) : Nat := 32768 + stage
def progProfile (k : Nat) : Nat := 32784 + k

/-- The bytes of one segment of a key profile. -/
def Pass.segment (p : Pass) (seg : Nat) : List Byte :=
  if !bitAt seg 31 then []
  else if bitAt seg 30 then
    let id := bitsOf seg 26 19
    let w := mdWidth id
    if w = 0 then List.replicate 4 0 else beBytes ((w + 7) / 8) (p.md' id)
  else
    (List.range (bitsOf seg 18 13)).map (fun i =>
      match p.slot (bitsOf seg 29 27) with
      | some (_, off) => p.win.getD (off + bitsOf seg 26 19 + i) 0
      | none => 0)

/-- The key bytes that profile `k` produces: its used segments in order, cut at 40 bytes. -/
def Pass.key (p : Pass) (k : Nat) : List Byte :=
  let prof := Sparse.get 0 p.prog (progProfile k)
  (((List.range 8).map (fun i => p.segment (prof / 2 ^ (32 * i) % 2 ^ 32))).flatten).take 40

/-- A key padded with zero bytes to `n`, or cut there. -/
def padKey (n : Nat) (b : List Byte) : List Byte := sliceOf (b ++ List.replicate n 0) 0 n

end Sys2Proof.Machine
end

