-- ==== Sys2Proof/Machine/Flags.lean ====
section
/-!
DEFINITION. The conditions that set a packet's drop code at its headers (spec/03_parser_and_pipelines.md R84, R105), and the
lengths that the first IP header gives (R80).
-/

namespace Sys2Proof.Machine

/-- `n` bytes of the window from byte `i`, as a big-endian value; bytes beyond the window read 0. -/
def winVal (w : List Byte) (i n : Nat) : Nat := winBits w (8 * i) (8 * n)

/-- The ones' complement sum of 16-bit words. -/
def sum16 : List Byte → Nat
  | a :: b :: t => a.toNat * 256 + b.toNat + sum16 t
  | [a] => a.toNat * 256
  | [] => 0

/-- The sum folded to 16 bits. -/
def fold16 (n : Nat) : Nat :=
  let a := n % 65536 + n / 65536
  a % 65536 + a / 65536

/-- An IPv4 header's checksum is right: the words sum to all ones. -/
def ipv4Good (hdr : List Byte) : Bool := fold16 (sum16 hdr) == 65535

/-- The checks of an ETH header. -/
def ethChecks (w : List Byte) (pos : Nat) : List Nat :=
  let sa := winVal w (pos + 6) 6
  (if bitAt sa 40 || sa = 0 then [0x06] else []) ++ (if winVal w pos 6 = 0 then [0x07] else [])

/-- The checks of an IPv4 header in a frame of `flen` bytes received so far. -/
def ipv4Checks (w : List Byte) (flen pos : Nat) : List Nat :=
  let ver := winVal w pos 1 / 16
  let ihl := winVal w pos 1 % 16
  let src := winVal w (pos + 12) 4
  let inside := 5 ≤ ihl && pos + 4 * ihl ≤ 256 && pos + 4 * ihl ≤ flen
  (if ver ≠ 4 then [0x08] else []) ++ (if ihl < 5 then [0x09] else []) ++
  (if inside && !ipv4Good (sliceOf w pos (4 * ihl)) then [0x0A] else []) ++
  (if winVal w (pos + 2) 2 < 4 * ihl then [0x0B] else []) ++
  (if src / 2 ^ 28 = 14 || src / 2 ^ 24 = 127 || src = 0xFFFFFFFF then [0x0C] else [])

/-- The checks of an IPv6 header. -/
def ipv6Checks (w : List Byte) (pos : Nat) : List Nat :=
  let src := winVal w (pos + 8) 16
  (if winVal w pos 1 / 16 ≠ 6 then [0x0D] else []) ++ (if src / 2 ^ 120 = 255 || src = 1 then [0x0E] else [])

/-- The check of a TCP header. -/
def tcpChecks (w : List Byte) (pos : Nat) : List Nat :=
  let fl := winVal w (pos + 13) 1
  if (bitAt fl 1 && bitAt fl 0) || winVal w (pos + 12) 1 / 16 < 5 then [0x10] else []

/-- The codes that the checks of a header's class find (R84). -/
def headerChecks (w : List Byte) (flen cls pos : Nat) : List Nat :=
  match cls with
  | 1 => ethChecks w pos
  | 3 => ipv4Checks w flen pos
  | 4 => ipv6Checks w pos
  | 6 => if winVal w (pos + 4) 2 < 8 then [0x0F] else []
  | 7 => tcpChecks w pos
  | _ => []

/-- The first IP header that the parser passed. -/
def firstIp (hdrs : List (Nat × Nat)) : Option (Nat × Nat) := hdrs.find? (fun h => h.1 == 3 || h.1 == 4)

/-- L_IP (R80): the length that the first IP header gives, held in full. -/
def ipLength (w : List Byte) (hdrs : List (Nat × Nat)) : Option Nat :=
  match firstIp hdrs with
  | some (3, pos) => some (pos + winVal w (pos + 2) 2 + 4)
  | some (_, pos) =>
    let l := winVal w (pos + 4) 2
    if l = 0 then none else some (pos + 40 + l + 4)
  | none => none

/-- PKT_LEN at header time (R80): saturated at 32,767. -/
def pktLenOf (ended : Bool) (flen : Nat) (lip : Option Nat) (dflt : Nat) : Nat :=
  min 32767 (if ended then flen else lip.getD dflt)

end Sys2Proof.Machine
end

