-- ==== Sys2Proof/Machine/Tables.lean ====
section
/-!
DEFINITION. The forwarding tables: entries, placement and lookups (spec/04_forwarding_tables.md R109 to R121), the insert
engine with its relocation paths (R114, R115), and the repeats on the inactive bank (R142, R143).
-/

namespace Sys2Proof.Machine

/-- The value at a key, or none. -/
def Sparse.find? {α : Type} (m : Sparse α) (k : Nat) : Option α := (List.find? (fun e => e.1 == k) m).map (fun e => e.2)

/-! ## Exact-match entries (R110, R112) -/

def emValid (e : Nat) : Bool := bitAt e 255
def emHit (e : Nat) : Bool := bitAt e 254
def emStatic (e : Nat) : Bool := bitAt e 253
def emLearned (e : Nat) : Bool := bitAt e 252
def emTag (e : Nat) : Nat := bitsOf e 251 248
def emStamp (e : Nat) : Nat := bitsOf e 247 232
def emActIdx (e : Nat) : Nat := bitsOf e 218 208
def emActData (e : Nat) : Nat := bitsOf e 207 144
def emKey (e : Nat) : Nat := bitsOf e 143 0

def emSetHit (e : Nat) (h : Bool) : Nat := putBit e 254 h
def emClear (e : Nat) : Nat := putBit e 255 false

/-- Slots per bank; the key of slot `i` of bank `b` in the sparse table. -/
def emSlots : Nat := 2097152
def emAt (b i : Nat) : Nat := b * 2097152 + i

def Dev.em (d : Dev) (b i : Nat) : Nat := Sparse.get 0 d.tbl.em (emAt b i)

/-- Slot `i` holds `e`; a slot write is an activity event of index 1 (R263), the mark of a hit is not. -/
def Dev.putEm (d : Dev) (b i e : Nat) : Dev :=
  { d with tbl := { d.tbl with em := Sparse.set 0 d.tbl.em (emAt b i) e } }

def Dev.setEm (d : Dev) (b i e : Nat) : Dev := (d.putEm b i e).activity 1 1

/-- The bucket of a tag and key in half `h` of bank `b` (R112). -/
def Dev.emBucket (d : Dev) (b h tag key : Nat) : Nat :=
  crc32c (d.rd F.TBL_EM_SEED_SEED [b, h]) (BitVec.ofNat 8 (tag % 16) :: beBytes 18 key) % 2 ^ 18

/-- The four slots of the bucket in half `h`. -/
def Dev.emWays (d : Dev) (b h tag key : Nat) : List Nat :=
  (List.range 4).map (fun w => h * 1048576 + d.emBucket b h tag key * 4 + w)

/-- The eight candidate slots in the order of R112. -/
def Dev.emCands (d : Dev) (b tag key : Nat) : List Nat := d.emWays b 0 tag key ++ d.emWays b 1 tag key

/-- Candidate slots that hold a valid entry of the tag and key. -/
def Dev.emMatches (d : Dev) (b tag key : Nat) : List Nat :=
  (d.emCands b tag key).filter (fun i => emValid (d.em b i) && emTag (d.em b i) == tag && emKey (d.em b i) == key)

/-- The active banks (R137). -/
def Dev.activeEm (d : Dev) : Nat := d.rd F.TBL_STAT_ACTIVE_EM []
def Dev.activeLpm (d : Dev) : Nat := d.rd F.TBL_STAT_ACTIVE_LPM []

/-- Valid slots of a bank: TBL_EM_USED. -/
def Dev.emUsed (d : Dev) (b : Nat) : Nat := (d.tbl.em.filter (fun e => e.1 / emSlots == b && emValid e.2)).length

/-- An EM lookup in bank `b` (R113): the hit slot's action index and data, HIT set there. Where duplicates written by
index hit, either copy may answer: a free value chooses (R116, log 2). -/
def Dev.emLookup (d : Dev) (b tag key : Nat) : Dev × Option (Nat × Nat) :=
  let d := d.pmc 105 0x40 1
  match d.emMatches b tag key with
  | [] => (d, none)
  | [i] => (d.putEm b i (emSetHit (d.em b i) true), some (emActIdx (d.em b i), emActData (d.em b i)))
  | i :: t =>
    let (v, d) := d.free
    let k := (i :: t).getD (v.toNat % (t.length + 1)) i
    (d.putEm b k (emSetHit (d.em b k) true), some (emActIdx (d.em b k), emActData (d.em b k)))

/-! ## LPM (R117, R118) -/

def lpmValid (e : Nat) : Bool := bitAt e 255
def lpmFam (e : Nat) : Nat := bitsOf e 254 254
def lpmPlen (e : Nat) : Nat := bitsOf e 247 240
def lpmVrf (e : Nat) : Nat := bitsOf e 239 228
def lpmActIdx (e : Nat) : Nat := bitsOf e 218 208
def lpmActData (e : Nat) : Nat := bitsOf e 207 144
def lpmAddr (e : Nat) : Nat := bitsOf e 127 0

/-- The longest prefix of a family. -/
def famBits (fam : Nat) : Nat := if fam = 0 then 32 else 128

/-- The first `n` of 128 address bits, the others 0. -/
def topBits (a n : Nat) : Nat := a / 2 ^ (128 - n) * 2 ^ (128 - n)

/-- An entry as stored: VALID set, reserved bits and address bits below PLEN 0. -/
def lpmStored (e : Nat) : Nat :=
  2 ^ 255 + lpmFam e * 2 ^ 254 + lpmPlen e * 2 ^ 240 + lpmVrf e * 2 ^ 228 + lpmActIdx e * 2 ^ 208 +
    lpmActData e * 2 ^ 144 + topBits (lpmAddr e) (lpmPlen e)

/-- What names an entry: family, VRF, length and prefix. -/
def lpmName (e : Nat) : Nat × Nat × Nat × Nat := (lpmFam e, lpmVrf e, lpmPlen e, topBits (lpmAddr e) (lpmPlen e))

/-- Units that an entry takes. -/
def lpmUnits (e : Nat) : Nat := if lpmFam e = 0 then 1 else 2

def lpmMax : Nat := 1572864

def Dev.lpm (d : Dev) (b h : Nat) : Nat := Sparse.get 0 d.tbl.lpm (emAt b h)

def Dev.setLpm (d : Dev) (b h e : Nat) : Dev :=
  { d with tbl := { d.tbl with lpm := Sparse.set 0 d.tbl.lpm (emAt b h) e } }.activity 1 1

/-- The valid entries of a bank with their handles. -/
def Dev.lpmBank (d : Dev) (b : Nat) : List (Nat × Nat) :=
  (d.tbl.lpm.filter (fun e => e.1 / emSlots == b && lpmValid e.2)).map (fun e => (e.1 % emSlots, e.2))

/-- A delete clears VALID alone (R125). -/
def Dev.clearLpm (d : Dev) (b h : Nat) : Dev := d.setLpm b h (putBit (d.lpm b h) 255 false)

/-- TBL_LPM_USED. -/
def Dev.lpmUsed (d : Dev) (b : Nat) : Nat := (d.lpmBank b).foldl (fun a e => a + lpmUnits e.2) 0

/-- The handle of the entry with this name. -/
def Dev.lpmFind (d : Dev) (b : Nat) (name : Nat × Nat × Nat × Nat) : Option Nat :=
  ((d.lpmBank b).find? (fun e => lpmName e.2 == name)).map (fun e => e.1)

/-- The longest match of an address (left-aligned in 128 bits) (R118). -/
def Dev.lpmLookup (d : Dev) (b fam vrf addr : Nat) : Dev × Option (Nat × Nat) :=
  let hit := (d.lpmBank b).foldl (fun (best : Option Nat) e =>
    if lpmFam e.2 = fam && lpmVrf e.2 = vrf && topBits addr (lpmPlen e.2) = lpmAddr e.2 &&
        (match best with
          | some x => decide (lpmPlen x < lpmPlen e.2)
          | none => true) then some e.2 else best) none
  (d.pmc 105 0x41 1, hit.map (fun e => (lpmActIdx e, lpmActData e)))

/-- A handle that no entry of the bank has; the device chooses it (R118): a free value says where the search begins. -/
def Dev.lpmHandle (d : Dev) (b : Nat) : Dev × Nat :=
  let (v, d) := d.free
  let used := (d.lpmBank b).map (fun e => e.1)
  (d, (((List.range lpmMax).map (fun i => (v.toNat + i) % lpmMax)).find? (fun h => !used.contains h)).getD 0)

/-- An LPM insertion: an entry of the same name is replaced; another takes a new handle while units last. The handle and
whether it replaced; none when the bank is full. -/
def Dev.lpmInsert (d : Dev) (b e : Nat) : Dev × Option (Nat × Bool) :=
  let e := lpmStored e
  match d.lpmFind b (lpmName e) with
  | some h => (d.setLpm b h e, some (h, true))
  | none =>
    if d.lpmUsed b + lpmUnits e ≤ lpmMax then
      let (d, h) := d.lpmHandle b
      (d.setLpm b h e, some (h, false))
    else (d, none)

/-! ## TCAM (R90, R119) -/

/-- Entry `i` holds key, mask, action data and the VALID dword. -/
def tcamKey (e : Nat) : Nat := bitsOf e 319 0
def tcamMask (e : Nat) : Nat := bitsOf e 639 320
def tcamActData (e : Nat) : Nat := bitsOf e 703 640
def tcamActIdx (e : Nat) : Nat := bitsOf e 714 704
def tcamValid (e : Nat) : Bool := bitAt e 735

/-- The quadrant of an index is powered (R35, R119). -/
def Dev.tcamOn (d : Dev) (i : Nat) : Bool := d.domOn (186 + i / 12288)

/-- Block `k` serves the stage in the direction (0 ingress, 1 egress) (R90). -/
def Dev.tcamBound (d : Dev) (k dir stage : Nat) : Bool :=
  d.onC F.PIPE_TCAM_BIND_EN [k] && d.cm F.PIPE_TCAM_BIND_DIR [k] == dir && d.cm F.PIPE_TCAM_BIND_STAGE [k] == stage &&
    d.domOn (186 + k / 4)

/-- A TCAM lookup of a 320-bit key: the valid matching entry of the lowest block and index; and the blocks searched. -/
def Dev.tcamLookup (d : Dev) (dir stage key : Nat) : Dev × Nat × Option (Nat × Nat) :=
  let blocks := indicesWhere 16 (fun k => d.tcamBound k dir stage)
  let hit := List.find? (fun (e : Nat × Nat) => blocks.contains (e.1 / 3072) && tcamValid e.2 &&
    Nat.land key (tcamMask e.2) == Nat.land (tcamKey e.2) (tcamMask e.2)) d.tbl.tcam
  (d.pmc 105 0x42 blocks.length, blocks.length, hit.map (fun e => (tcamActIdx e.2, tcamActData e.2)))

/-! ## Flow counters (R99, R121) -/

/-- A packet of `len` bytes counted; both counts wrap at 64 bits. A pair in error reads 0 from an update on, until software writes
it (R393, DEDUCED, log 295). -/
def Dev.countFlow (d : Dev) (i len : Nat) : Dev :=
  if d.tbl.ctrBad.contains i then { d with tbl := { d.tbl with ctr := Sparse.put d.tbl.ctr i none } }
  else
  let (p, b) := Sparse.get (0, 0) d.tbl.ctr i
  { d with tbl := { d.tbl with ctr := Sparse.set (0, 0) d.tbl.ctr i ((p + 1) % 2 ^ 64, (b + len) % 2 ^ 64) } }

/-! ## The insert engine (R114) -/

/-- The relocation path in progress in bank `b`. -/
def Dev.path (d : Dev) (b : Nat) : Option Path := Sparse.find? d.tbl.paths b

def Dev.setPath (d : Dev) (b : Nat) (p : Option Path) : Dev :=
  { d with tbl := { d.tbl with paths := Sparse.put d.tbl.paths b p } }

/-- Slot `i` of bank `b` is a path slot of a path in progress. -/
def Dev.onPath (d : Dev) (b i : Nat) : Bool :=
  match d.path b with
  | some p => p.slots.contains i
  | none => false

/-- The slots of the occupant's other bucket; none for an empty slot, and for an occupant in neither of its buckets. -/
def Dev.emOther (d : Dev) (b i : Nat) : List Nat :=
  let e := d.em b i
  let w0 := d.emWays b 0 (emTag e) (emKey e)
  let w1 := d.emWays b 1 (emTag e) (emKey e)
  if !emValid e then [] else if w0.contains i then w1 else if w1.contains i then w0 else []

/-- One level of the breadth-first search: paths as their slots, last first. A path whose last occupant can move into an
empty slot ends the search; otherwise its continuations go to the next level. R114 compares paths "in the order of the moves" and
makes them from the end backwards: the model counts the moves from the new key's candidate slot outwards (DESIGN CHOICE, log 160). -/
def Dev.searchLevel (d : Dev) (b : Nat) : List (List Nat) → List (List Nat) → List Nat →
    Option (List Nat × Nat) × List (List Nat) × List Nat
  | [], next, seen => (none, next, seen)
  | p :: t, next, seen =>
    let ways := d.emOther b (p.headD 0)
    match ways.find? (fun i => !emValid (d.em b i)) with
    | some i => (some (p, i), next, seen ++ ways)
    | none =>
      let fresh := ways.filter (fun i => !seen.contains i)
      d.searchLevel b t (next ++ fresh.map (fun i => i :: p)) (seen ++ fresh)

/-- Breadth-first search to a depth: the path (last slot first) with the empty slot it ends in, and every slot examined. -/
def Dev.searchPath (d : Dev) (b : Nat) : Nat → List (List Nat) → List Nat → Option (List Nat × Nat) × List Nat
  | 0, _, seen => (none, seen)
  | depth + 1, level, seen =>
    match d.searchLevel b level [] seen with
    | (some r, _, seen) => (some r, seen)
    | (none, next, seen) => if next.isEmpty then (none, seen) else d.searchPath b depth next seen

/-- The moves of a path (last slot first) that ends in slot `e`, in the order in which they are made. -/
def pathMoves : List Nat → Nat → List (Nat × Nat)
  | [], _ => []
  | s :: t, e => (s, e) :: pathMoves t s

/-- Where an insertion goes (R114, steps 1 to 3). -/
inductive Place where
  | update (i : Nat)
  | empty (i : Nat)
  | path (p : Path)
  | none_

/-- MAXDEPTH of TBL_CFG: 9 to 15 act as 8. -/
def Dev.maxDepth (d : Dev) : Nat := min 8 (d.rd F.TBL_CFG_MAXDEPTH [])

/-- The first of R114's ways 1 to 3 that succeeds for an entry in bank `b`. -/
def Dev.emPlace (d : Dev) (b e : Nat) (by_ : InsBy) : Place :=
  let c := d.emCands b (emTag e) (emKey e)
  match d.emMatches b (emTag e) (emKey e) with
  | i :: _ => .update i
  | [] =>
    match c.find? (fun i => !emValid (d.em b i)) with
    | some i => .empty i
    | none =>
      match d.searchPath b d.maxDepth (c.map (fun i => [i])) c with
      | (some (p, i), seen) =>
        let moves := pathMoves p i
        .path { bank := b, moves := moves, total := moves.length, slots := seen, target := p.getLastD 0, entry := e
                by_ := by_ }
      | (none, _) => .none_

/-- One move (R115): the destination takes the whole entry, the source is invalidated. -/
def Dev.emMove (d : Dev) (b : Nat) (m : Nat × Nat) : Dev :=
  let e := d.em b m.1
  if emValid e then ((d.setEm b m.2 e).setEm b m.1 (emClear e)).pmc 105 0x44 1 else d

/-- The victim among the candidates that `ok` admits, under a policy (R133): random by a free value, or the oldest with
ties to the lowest index. -/
def Dev.victim (d : Dev) (b e policy : Nat) (ok : Nat → Bool) : Dev × Option Nat :=
  let c := (d.emCands b (emTag e) (emKey e)).filter (fun i => ok (d.em b i))
  let age := fun i => (d.rd F.TBL_STAMP_NOW [] + 65536 - emStamp (d.em b i)) % 65536
  if c.isEmpty then (d, none)
  else if policy = 2 then
    (d, c.foldl (fun best i => match best with
      | some x => if age x < age i then some i else some x
      | none => some i) none)
  else
    let (v, d) := d.free
    (d, some (c.getD (v.toNat % c.length) 0))

/-! ## Repeats on the inactive bank (R142, R143) -/

/-- A deleted key enters the delete log, or the full log sets DLOG_OVF. -/
def Dev.logDelete (d : Dev) (lpm : Bool) (k : Nat) : Dev :=
  if 8192 ≤ d.tbl.dlog.length + d.tbl.dlogLpm.length then d.wr F.TBL_STAT_DLOG_OVF [] 1
  else if lpm then { d with tbl := { d.tbl with dlogLpm := d.tbl.dlogLpm ++ [k] } }
  else { d with tbl := { d.tbl with dlog := d.tbl.dlog ++ [k] } }

/-- The key of an EM entry in the log: tag and key. -/
def emLogKey (e : Nat) : Nat := emTag e * 2 ^ 144 + emKey e

/-- The key of an LPM entry in the log: its name as one number. -/
def lpmLogKey (e : Nat) : Nat :=
  lpmFam e * 2 ^ 254 + lpmPlen e * 2 ^ 240 + lpmVrf e * 2 ^ 228 + topBits (lpmAddr e) (lpmPlen e)

/-- A repeat that found no room. -/
def Dev.dualFail (d : Dev) : Dev := (d.inc F.TBL_DUAL_FAIL_COUNT []).wr F.TBL_STAT_DUAL_ERR [] 1

/-- A repeat wrote slot `i` of bank `b`: a load's clear keeps it (R140). -/
def Dev.noteEm (d : Dev) (b i : Nat) : Dev := { d with tbl := { d.tbl with repEm := emAt b i :: d.tbl.repEm } }
def Dev.noteLpm (d : Dev) (b h : Nat) : Dev := { d with tbl := { d.tbl with repLpm := emAt b h :: d.tbl.repLpm } }

/-- The insertion of entry `e` has written slot `i`: counted. -/
def Dev.emPlaced (d : Dev) (b i e : Nat) : Dev := (d.setEm b i e).pmc 105 0x43 1

/-- The EM load that a bulk path of bank `b` belongs to. -/
def Dev.bulkLoad (d : Dev) (b : Nat) : Option TblJob :=
  d.tbl.jobs.find? (fun j => j.load && j.table == 0 && j.bank == b && !j.image)

/-- `n` index-1 events of a bulk path of bank `b`, charged to its load (R290). -/
def Dev.bulkCharge (d : Dev) (b n : Nat) : Dev := d.attribute ((d.bulkLoad b).map (fun j => j.job)) 1 n

/-- One move of a bulk path: two slots written and one read, for its load (R290). -/
def Dev.bulkMove (d : Dev) (b : Nat) (m : Nat × Nat) : Dev :=
  (if emValid (d.em b m.1) then d.bulkCharge b 3 else d).emMove b m

/-- The record whose path in bank `b` is made is placed, unless a repeat has inserted its key meanwhile, or logged its delete
(R140, R144). -/
def Dev.bulkPlaced (d : Dev) (b : Nat) (p : Path) : Dev :=
  if d.tbl.dlog.contains (emLogKey p.entry) || !(d.emMatches b (emTag p.entry) (emKey p.entry)).isEmpty then d
  else
    let d := (d.emPlaced b p.target p.entry).bulkCharge b 1
    match d.bulkLoad b with
    | none => d
    | some x =>
      { d with tbl := { d.tbl with jobs := d.tbl.jobs.map (fun j => if j.job = x.job then { j with r0 := j.r0 + 1 } else j) } }

/-- A repeat runs between two records of a load: a record whose relocation path is in progress in bank `b` is placed first, its
remaining moves made (R144; log 286). -/
def Dev.finishBulk (d : Dev) (b : Nat) : Dev :=
  match d.path b with
  | some p => if p.by_ = .bulk then (p.moves.foldl (fun d m => d.bulkMove b m) (d.setPath b none)).bulkPlaced b p else d
  | none => d

/-- Slots that bank `b`'s path in progress has still to write: a repeat places nothing there (DESIGN CHOICE, log 286). -/
def Dev.pathHolds (d : Dev) (b i : Nat) : Bool :=
  match d.path b with
  | some p => i == p.target || p.moves.any (fun m => m.1 == i || m.2 == i)
  | none => false

/-- A repeat writes slot `i` of bank `b`. -/
def Dev.repeatAt (d : Dev) (b i e : Nat) : Dev := (d.emPlaced b i e).noteEm b i

/-- An insertion repeated on bank `b`: it never evicts, and never relocates while a command's path is in progress there; HIT stays
0. The Bool says that it failed. -/
def Dev.repeatEm (d : Dev) (b e : Nat) : Dev × Bool :=
  let e := emSetHit e false
  match d.path b with
  | some _ =>
    let free := (d.emCands b (emTag e) (emKey e)).find? (fun i => !emValid (d.em b i) && !d.pathHolds b i)
    match d.emMatches b (emTag e) (emKey e) ++ free.toList with
    | i :: _ => (d.repeatAt b i e, false)
    | [] => (d.dualFail, true)
  | none =>
    match d.emPlace b e .cmd with
    | .update i => (d.repeatAt b i e, false)
    | .empty i => (d.repeatAt b i e, false)
    | .path p => ((p.moves.foldl (fun d m => (d.emMove b m).noteEm b m.2) d).repeatAt b p.target e, false)
    | .none_ => (d.dualFail, true)

/-- What learning makes of a present entry `x` when an offer brings data and stamp of `e` (R132): ACT_DATA and STAMP
replaced in one write, HIT kept; none where the offer changes nothing. -/
def Dev.stationMove (d : Dev) (x e : Nat) : Option Nat :=
  if emStatic x || emActData x = emActData e || !d.on F.TBL_TAG_CFG_MOVE_UPD [emTag e] then none
  else some (setBitsOf (setBitsOf x 207 144 (emActData e)) 247 232 (emStamp e))

/-- A change of learning repeated on bank `b` as the same operation: a key present there follows R132, an absent one is
inserted (log 286). -/
def Dev.repeatLearn (d : Dev) (b e : Nat) : Dev × Bool :=
  match d.emMatches b (emTag e) (emKey e) with
  | i :: _ =>
    match d.stationMove (d.em b i) e with
    | some x => ((d.setEm b i x).noteEm b i, false)
    | none => (d, false)
  | [] => d.repeatEm b e

/-- The repeat of an insertion into the active bank while DUALWR = 1; `learn`: it is a change of the learning logic. -/
def Dev.dualInsert (d : Dev) (b e : Nat) (learn : Bool) : Dev × Bool :=
  if d.on F.TBL_CFG_DUALWR [] && b = d.activeEm then
    let d := d.finishBulk (1 - b)
    if learn then d.repeatLearn (1 - b) e else d.repeatEm (1 - b) e
  else (d, false)

/-- The repeat of a delete of entry `e` in the active bank, which is logged. With `keepStatic`, which DELETE_IF_IDLE asks for, a
STATIC copy of the key stays; a flush's and an eviction's delete take it (DESIGN CHOICE, log 309). -/
def Dev.dualDelete (d : Dev) (b e : Nat) (keepStatic : Bool) : Dev :=
  if d.on F.TBL_CFG_DUALWR [] && b = d.activeEm then
    let c := 1 - b
    let d := d.finishBulk c
    let d := (d.emMatches c (emTag e) (emKey e)).foldl (fun d i =>
      if keepStatic && emStatic (d.em c i) then d else d.setEm c i (emClear (d.em c i))) d
    d.logDelete false (emLogKey e)
  else d

/-- The repeat of an LPM insertion into the active bank. -/
def Dev.dualLpmInsert (d : Dev) (b e : Nat) : Dev × Bool :=
  if d.on F.TBL_CFG_DUALWR [] && b = d.activeLpm then
    match d.lpmInsert (1 - b) e with
    | (d, some (h, _)) => ((d.pmc 105 0x43 1).noteLpm (1 - b) h, false)
    | (d, none) => (d.dualFail, true)
  else (d, false)

/-- The repeat of an LPM delete in the active bank, which is logged. -/
def Dev.dualLpmDelete (d : Dev) (b e : Nat) : Dev :=
  if d.on F.TBL_CFG_DUALWR [] && b = d.activeLpm then
    let d := match d.lpmFind (1 - b) (lpmName e) with
      | some h => d.clearLpm (1 - b) h
      | none => d
    d.logDelete true (lpmLogKey e)
  else d

/-! ## Learn events (R135, R136) -/

/-- A learn event's entry. `table` 0 EM, 1 LPM. -/
def learnEvent (kind tag bank table fam idx plen data : Nat) (key : List Byte) : RingEntry :=
  let b := padKey 18 key ++ [BitVec.ofNat 8 (kind * 16 + tag), BitVec.ofNat 8 plen] ++
    leBytes 4 (bank * 2 ^ 31 + table * 2 ^ 30 + fam * 2 ^ 29 + idx) ++ leBytes 4 data
  eventEntry 1 0 ((List.range 7).map (fun i => leVal (sliceOf b (4 * i) 4)))

/-- The event of an EM entry in slot `i`. -/
def emEvent (kind bank i e : Nat) : RingEntry :=
  learnEvent kind (emTag e) bank 0 0 i 0 (emActData e) (beBytes 18 (emKey e))

/-- The event of an LPM entry: its key is the VRF, then the address (R135). -/
def lpmEvent (kind bank h e : Nat) : RingEntry :=
  let addr := if lpmFam e = 0 then beBytes 4 (lpmAddr e / 2 ^ 96) else beBytes 16 (lpmAddr e)
  learnEvent kind 0 bank 1 (lpmFam e) h (lpmPlen e) (lpmActData e) (beBytes 2 (lpmVrf e) ++ addr)

/-- The learn event ring can take `n` events now; `slots` are the slots just read as free, in owner mode (R338). -/
def Dev.learnMay (d : Dev) (n slots : Nat) : Bool :=
  let m := d.rd F.TBL_LEARN_CFG_EVQ []
  let room := if d.on F.RING_CTL_OWNMODE [m] then slots
    else d.cqSize m - ringDiff (d.rd F.RING_CQ_PROD_INDEX [m]) (d.rd F.RING_CQ_CONS_INDEX [m]) (d.cqSize m)
  !d.on F.TBL_LEARN_CFG_EVT_EN [] ||
    (d.cqMay m (n ≤ room) && (d.ring m).hold.isEmpty && (d.ring m).late.isEmpty)

/-- Learn events are written, in order, while EVT_EN = 1. The spec states no SUBKIND for them: it is free (log 246). -/
def Dev.postLearn (d : Dev) (l : List RingEntry) : Dev :=
  if d.on F.TBL_LEARN_CFG_EVT_EN [] then
    l.foldl (fun d e =>
      let (v, d) := d.free
      d.writeEntry (d.rd F.TBL_LEARN_CFG_EVQ []) { e with last := e.last + v.toNat % 256 * 2 ^ 16 }) d
  else d

/-- A change waits for room in the event ring: EVQ_STALL. -/
def Dev.stall (d : Dev) (x : Stalled) : Dev :=
  { d with tbl := { d.tbl with stalled := d.tbl.stalled ++ [x] } }.wr F.TBL_STAT_EVQ_STALL [] 1

/-- The oldest waiting change is taken up again. -/
def Dev.unstall (d : Dev) : Dev :=
  let l := d.tbl.stalled.tail
  { d with tbl := { d.tbl with stalled := l } }.wr F.TBL_STAT_EVQ_STALL [] (b2n (!l.isEmpty))

end Sys2Proof.Machine
end

