-- ==== Sys2Proof/Machine/Meter.lean ====
section
/-!
DEFINITION. Meters (spec/07_egress_scheduling.md R226 to R230): buckets in 1/256 byte, their refill, the two algorithms,
and the commands of MTR_CMD.
-/

namespace Sys2Proof.Machine

/-- A committed profile's algorithm: 0 srTCM, 1 trTCM, 2 pass; 3 acts as 2 (R226). -/
def Dev.mtrMode (d : Dev) (k : Nat) : Nat := min 2 (d.cm F.MTR_PROF_MODE_MODE [k])

/-- 1/256 bytes that a rate in kbit/s fills in `ns`: rate × 125 bytes/s (R228); the fraction is dropped (log 40). -/
def fillOf (kbps ns : Nat) : Nat := kbps * 32 * ns / 1000000

def Dev.meter (d : Dev) (i : Nat) : Meter := Sparse.get {} d.dp.meters i

def Dev.setMeter (d : Dev) (i : Nat) (m : Meter) : Dev :=
  { d with dp := { d.dp with meters := Sparse.set {} d.dp.meters i m } }

/-- Burst sizes of a profile in 1/256 byte. -/
def Dev.mtrCbs (d : Dev) (k : Nat) : Nat := d.cm F.MTR_PROF_CBS_CBS [k] * 256
def Dev.mtrEbs (d : Dev) (k : Nat) : Nat := d.cm F.MTR_PROF_EBS_EBS [k] * 256

/-- The buckets refilled for the time since the last update, and clamped to the bursts in force (R226, R228, R229). -/
def Dev.refill (d : Dev) (m : Meter) : Meter :=
  let k := m.profile
  let t := d.rst.mono - m.at_
  let cir := d.cm F.MTR_PROF_CIR_CIR [k]
  let eir := max cir (d.cm F.MTR_PROF_EIR_EIR [k])
  let cbs := d.mtrCbs k
  let ebs := d.mtrEbs k
  let tc := min cbs m.tc
  let te := min ebs m.te
  let c := tc + fillOf cir t
  match d.mtrMode k with
  | 0 => { m with at_ := d.rst.mono, tc := min cbs c, te := min ebs (te + (c - cbs)) }
  | 1 => { m with at_ := d.rst.mono, tc := min cbs c, te := min ebs (te + fillOf eir t) }
  | _ => { m with at_ := d.rst.mono, tc := tc, te := te }

/-- The colour of a packet of `b` bytes of input colour `c`, and the buckets after it (R227). -/
def Dev.police (d : Dev) (m : Meter) (b c : Nat) : Meter × Nat :=
  let n := b * 256
  match d.mtrMode m.profile with
  | 0 =>
    if c = 0 && n ≤ m.tc then ({ m with tc := m.tc - n }, 0)
    else if c ≠ 2 && n ≤ m.te then ({ m with te := m.te - n }, 1)
    else (m, 2)
  | 1 =>
    if c = 2 || m.te < n then (m, 2)
    else if c = 0 && n ≤ m.tc then ({ m with tc := m.tc - n, te := m.te - n }, 0)
    else ({ m with te := m.te - n }, 1)
  | _ => (m, c)

/-- A packet of `b` bytes of colour `colour` charged to meter `i`: the result colour (R97, R226, R227). -/
def Dev.meterPacket (d : Dev) (i b colour : Nat) : Dev × Nat :=
  let m := d.meter i
  let c := if d.onC F.MTR_PROF_MODE_AWARE [m.profile] then colour else 0
  let (m, r) := d.police (d.refill m) b c
  let m := match r with
    | 0 => { m with green := (m.green + b) % 2 ^ 64 }
    | 1 => { m with yellow := (m.yellow + b) % 2 ^ 64 }
    | _ => { m with red := (m.red + b) % 2 ^ 64 }
  (d.setMeter i m, r)

/-- PF0 or a service core. -/
def pfOrSvc (mid : Nat) : Bool := mid == 0 || (0x40 ≤ mid && mid ≤ 0x47)

/-- MTR_CMD's command of OP 0: the meter's profile, bucket levels in bytes and byte counts in MTR_DATA. -/
def Dev.mtrRead (d : Dev) (i : Nat) : Dev :=
  let m := d.refill (d.meter i)
  let d := d.wr F.MTR_DATA_PROFILE_PROFILE [] m.profile
  let d := (d.wr F.MTR_DATA_LEVEL_LEVEL [1] (m.tc / 256)).wr F.MTR_DATA_LEVEL_LEVEL [2] (m.te / 256)
  [(3, m.green), (5, m.yellow), (7, m.red)].foldl (fun d x =>
    (d.wr F.MTR_DATA_BYTES_BYTES [x.1] (x.2 % 2 ^ 32)).wr F.MTR_DATA_BYTES_BYTES [x.1 + 1] (x.2 / 2 ^ 32)) d

/-- OP 1: the profile replaced, the buckets filled to its bursts or kept and clamped; the time of the last update stands
(R228, R229). -/
def Dev.mtrWrite (d : Dev) (i : Nat) (fill : Bool) : Dev :=
  let k := d.rd F.MTR_DATA_PROFILE_PROFILE []
  let m := d.meter i
  let cbs := d.mtrCbs k
  let ebs := d.mtrEbs k
  d.setMeter i { m with profile := k, tc := if fill then cbs else min cbs m.tc, te := if fill then ebs else min ebs m.te }

/-- OP 2: the byte counts cleared. -/
def Dev.mtrClear (d : Dev) (i : Nat) : Dev := d.setMeter i { d.meter i with green := 0, yellow := 0, red := 0 }

/-- A write of MTR_CMD (R230): discarded while BUSY = 1. BUSY, 1 for at most 40 ns, lasts until the next TIME clock (log 41). -/
def Dev.mtrCmd (d : Dev) (mid v : Nat) : Dev :=
  if !pfOrSvc mid || d.dp.mtrBusy then d
  else
    let d := d.setRaw R.MTR_CMD [] (setBitsOf (setBitsOf (v % 2 ^ 32) 31 30 0) 26 18 0)
    let i := bitsOf v 17 0
    let d := if bitAt v 30 then { d with dp := { d.dp with mtrBusy := true } } else d
    if !bitAt v 30 then d
    else match bitsOf v 29 28 with
      | 0 => d.mtrRead i
      | 1 => d.mtrWrite i (bitAt v 27)
      | 2 => d.mtrClear i
      | _ => d

/-- The word starts the command of this OP. -/
def mtrNames (v op : Nat) : Bool := bitAt v 30 && bitsOf v 29 28 == op

/-- MTR_READ: a write of MTR_CMD that starts a READ. -/
def execMtrRead (m : Master) (v : BitVec 32) (s : State) : Host.Outcome State Fault Refusal :=
  s.run (fun d => if mtrNames v.toNat 0 then d.access m R.MTR_CMD.bar0 v.toNat (fun d => d.mtrCmd m.mid v.toNat) else d)

/-- MTR_WRITE: a write of MTR_CMD that starts a WRITE. -/
def execMtrWrite (m : Master) (v : BitVec 32) (s : State) : Host.Outcome State Fault Refusal :=
  s.run (fun d => if mtrNames v.toNat 1 then d.access m R.MTR_CMD.bar0 v.toNat (fun d => d.mtrCmd m.mid v.toNat) else d)

/-- MTR_CLEAR: a write of MTR_CMD that starts a CLEAR. -/
def execMtrClear (m : Master) (v : BitVec 32) (s : State) : Host.Outcome State Fault Refusal :=
  s.run (fun d => if mtrNames v.toNat 2 then d.access m R.MTR_CMD.bar0 v.toNat (fun d => d.mtrCmd m.mid v.toNat) else d)

end Sys2Proof.Machine
end

