-- ==== Sys2Proof/Machine/Quarry.lean ====
section
/-!
DEFINITION. The Quarry's store and its accounting (spec/05_quarry_central_store.md R146 to R158, R165, R168): cells, frames,
copies, pool sizes, charges, XOFF, and the release of a copy.
-/

namespace Sys2Proof.Machine

/-! ## Frames and copies -/

/-- The number of the next frame, copy or packet. -/
def Dev.newUid (d : Dev) : Nat × Dev := (d.dp.seq, { d with dp := { d.dp with seq := d.dp.seq + 1 } })

def Dev.pkt (d : Dev) (u : Nat) : Option Pkt := d.dp.pkts.find? (fun p => p.uid == u)
def Dev.copy (d : Dev) (u : Nat) : Option Copy := d.dp.copies.find? (fun c => c.uid == u)
def Dev.pass (d : Dev) (u : Nat) : Option Pass := d.dp.passes.find? (fun p => p.uid == u)

def Dev.addPkt (d : Dev) (p : Pkt) : Dev := { d with dp := { d.dp with pkts := d.dp.pkts ++ [p] } }

/-- A copy comes to its queue; its port's LPI ends (R63). -/
def Dev.addCopy (d : Dev) (c : Copy) : Dev :=
  let d := { d with dp := { d.dp with copies := d.dp.copies ++ [c] } }
  if c.queue < 393216 then d.wakeLpi (c.queue % 12288 / 12) else d

def Dev.addPass (d : Dev) (p : Pass) : Dev := { d with dp := { d.dp with passes := d.dp.passes ++ [p] } }

/-- The bank group of the first cell of pipeline n's next frame, which rotates from frame to frame (R147). -/
def Dev.firstGroup (d : Dev) (n : Nat) : Nat × Dev :=
  let g := Sparse.get 0 d.dp.rotate n
  (g, { d with dp := { d.dp with rotate := Sparse.set 0 d.dp.rotate n ((g + 1) % 8) } })

/-- Frame `u` changed. -/
def Dev.modPkt (d : Dev) (u : Nat) (f : Pkt → Pkt) : Dev :=
  { d with dp := { d.dp with pkts := d.dp.pkts.map (fun p => if p.uid = u then f p else p) } }

/-- Copy `u` changed. -/
def Dev.modCopy (d : Dev) (u : Nat) (f : Copy → Copy) : Dev :=
  { d with dp := { d.dp with copies := d.dp.copies.map (fun c => if c.uid = u then f c else c) } }

/-- Packet `u` replaced. -/
def Dev.setPass (d : Dev) (x : Pass) : Dev :=
  { d with dp := { d.dp with passes := d.dp.passes.map (fun p => if p.uid = x.uid then x else p) } }

def Dev.dropPass (d : Dev) (u : Nat) : Dev :=
  { d with dp := { d.dp with passes := d.dp.passes.filter (fun p => p.uid != u) } }

/-! ## Queue numbers (R149) -/

def voqOf (n p q : Nat) : Nat := 12288 * n + 12 * p + q
def intOf (n k : Nat) : Nat := 393216 + 9 * n + k
def isVoq (v : Nat) : Bool := v < 393216
def voqPipe (v : Nat) : Nat := v / 12288
def voqPort (v : Nat) : Nat := v % 12288 / 12
def voqQueue (v : Nat) : Nat := v % 12
def intPipe (v : Nat) : Nat := (v - 393216) / 9
def intDest (v : Nat) : Nat := (v - 393216) % 9

/-- The egress queue (p, q) of a VOQ as one number. -/
def eqOf (v : Nat) : Nat := v % 12288

/-! ## Depths -/

/-- Cells of a copy that stand in the Quarry part of its queue. -/
def Copy.quarryCells (c : Copy) : Nat := if c.released then 0 else if c.loc = .sump then c.linked else c.cells

def sumBy {α : Type} (l : List α) (f : α → Nat) : Nat := l.foldl (fun a x => a + f x) 0

/-- Quarry cells of the queues that satisfy `p`. -/
def Dev.cellsWhere (d : Dev) (p : Nat → Bool) : Nat :=
  sumBy d.dp.copies (fun c => if p c.queue then c.quarryCells else 0)

/-- QRY_Q_DEPTH[p][q], QRY_VOQ_DATA0.CELLS and QRY_INT_DEPTH. -/
def Dev.queueDepth (d : Dev) (p q : Nat) : Nat := d.cellsWhere (fun v => isVoq v && eqOf v == 12 * p + q)
def Dev.voqDepth (d : Dev) (v : Nat) : Nat := d.cellsWhere (fun w => w == v)

/-- Cells of unreleased copies that satisfy `p`. -/
def Dev.charged (d : Dev) (p : Copy → Bool) : Nat :=
  sumBy d.dp.copies (fun c => if !c.released && p c then c.cells else 0)

/-- The charge of an egress queue or internal queue to a part. -/
def Dev.queueCharge (d : Dev) (v : Nat) (ch : Charge) : Nat :=
  d.charged (fun c => c.charge == ch && (if isVoq v then isVoq c.queue && eqOf c.queue == eqOf v else c.queue == v))

/-- Headroom charge of ingress port i and priority g (R160). -/
def Dev.hdrmCharge (d : Dev) (i g : Nat) : Nat := d.charged (fun c => c.charge == .headroom && c.ig == some (i, g))
def Dev.hdrmTotal (d : Dev) : Nat := d.charged (fun c => c.charge == .headroom)

/-- ing(i, g): shared cells charged by lossless copies from i at g (R165). -/
def Dev.ingCharge (d : Dev) (i g : Nat) : Nat := d.charged (fun c => c.charge == .shared && c.ig == some (i, g))

/-! ## Pools (R154 to R156) -/

/-- Bank group g is on and not draining. -/
def Dev.groupLive (d : Dev) (g : Nat) : Bool := d.domOn (160 + g) && !bitAt d.rst.drain g

/-- C_alloc. -/
def Dev.cAlloc (d : Dev) : Nat := 196608 * (indicesWhere 8 d.groupLive).length

/-- The sum of a field of the committed set over the instances that `p` (of the flat index) admits; unlisted instances hold
the reset value 0. -/
def Dev.sumCommitted (d : Dev) (f : Fld) (p : Nat → Bool) : Nat :=
  sumBy d.comm (fun e =>
    if keyWin e.1 = f.reg.win && keyId e.1 = f.reg.id && p (keyFlat e.1) then bitsOf e.2.toNat f.hi f.lo else 0)

/-- The parts other than the shared pool. -/
def Dev.poolOther (d : Dev) : Nat :=
  73728 + d.sumCommitted F.QRY_Q_CFG_RSV (fun i => i % 12 < 8) + 32 * d.sumCommitted F.QRY_INT_CFG_RSV (fun _ => true) +
    d.cm F.QRY_HDRM_POOL_CELLS [] + d.cm F.QRY_STAGE_CELLS []

/-- S, and OVERCOMMIT. -/
def Dev.poolS (d : Dev) : Nat := d.cAlloc - d.poolOther
def Dev.overcommit (d : Dev) : Bool := d.cAlloc < d.poolOther

/-- The pointer of cell c of bank b of group g, and the group and the bank (over all groups, 32 a group) of a pointer (R146). -/
def cellPtr (g b c : Nat) : Nat := g * 2 ^ 18 + b * 2 ^ 13 + c
def ptrGroup (x : Nat) : Nat := x / 2 ^ 18
def ptrBank (x : Nat) : Nat := x / 2 ^ 13

/-- U: shared-pool cells held by admitted frames and by copies. -/
def Dev.poolU (d : Dev) : Nat := sumBy d.dp.pkts (fun p => p.uHeld)

/-- Cells held in bank group g, and free cells. -/
def Dev.groupHeld (d : Dev) (g : Nat) : Nat :=
  sumBy d.dp.pkts (fun p => (p.chain.filter (fun x => ptrGroup x.2 == g)).length)
def Dev.groupFree (d : Dev) (g : Nat) : Nat := if d.groupLive g then 196608 - d.groupHeld g else 0
def Dev.poolFree (d : Dev) : Nat := sumBy (List.range 8) d.groupFree

/-- floor((S − U) × 2^(alpha − 7)), with alpha above 10 acting as 10 and 15 giving 0 (R158, R165). -/
def scaled (s u alpha : Nat) : Nat := if alpha = 15 then 0 else (s - u) * 2 ^ min alpha 10 / 128

/-- The dynamic threshold T of a queue (R158). -/
def Dev.threshold (d : Dev) (v : Nat) : Nat :=
  let a := if isVoq v then d.cm F.QRY_Q_CFG_ALPHA [voqPort v, voqQueue v] else d.cm F.QRY_INT_CFG_ALPHA [intDest v]
  scaled d.poolS d.poolU a

/-! ## Cells (R147, R151) -/

/-- Cells held in bank b of group g, and whether a frame holds the cell of a pointer. -/
def Dev.bankHeld (d : Dev) (g b : Nat) : Nat :=
  sumBy d.dp.pkts (fun p => (p.chain.filter (fun x => ptrBank x.2 == 32 * g + b)).length)
def Dev.cellHeld (d : Dev) (x : Nat) : Bool := d.dp.pkts.any (fun p => p.chain.any (fun e => e.2 == x))

/-- The bank of group g with the most free cells; of several the lowest (DESIGN CHOICE, log 279). -/
def Dev.pickBank (d : Dev) (g : Nat) : Nat :=
  ((List.range 24).foldl (fun (best : Nat × Nat) b =>
    if d.bankHeld g b < best.2 then (b, d.bankHeld g b) else best) (0, 8193)).1

/-- The cell that group g gives: the lowest free one of that bank (DESIGN CHOICE, log 279). -/
def Dev.pickCell (d : Dev) (g : Nat) : Nat :=
  let b := d.pickBank g
  cellPtr g b (((List.range (d.bankHeld g b + 1)).find? (fun c => !d.cellHeld (cellPtr g b c))).getD 0)

/-- The bank group of cell j of a frame that starts at group g0: the next live group in turn that has a free cell. R147 skips a
group that is off or draining; that a live group with no free cell is passed over too is the model's choice (DESIGN CHOICE,
log 279). -/
def Dev.pickGroup (d : Dev) (g0 j : Nat) : Option Nat :=
  ((List.range 8).map (fun i => (g0 + j + i) % 8)).find? (fun g => d.groupFree g != 0)

/-- Cell j of frame `u` is written, for event `code` of its bank group (R317); the frame is marked where no cell is free. -/
def Dev.writeCell (d : Dev) (u j code : Nat) (job : Option Nat) : Dev :=
  match d.pkt u with
  | none => d
  | some p =>
    match d.pickGroup p.g0 j with
    | none => d.modPkt u (fun p => { p with noCell := true })
    | some g =>
      let x := d.pickCell g
      ((d.modPkt u (fun p => { p with chain := Sparse.put p.chain j (some x) })).pmc (96 + g) code 1).charge job 3 1

/-- `n` further cells of frame `u`, as far as free cells last. -/
def Dev.writeCells (d : Dev) (u : Nat) : Nat → Dev
  | 0 => d
  | n + 1 =>
    match d.pkt u with
    | none => d
    | some p =>
      let e := d.writeCell u p.chain.length 0x30 p.job
      if (e.pkt u).any (fun p => p.noCell) then e else e.writeCells u n

/-- Cells of frame `u` come back from the Sump and are written again, each in the bank group of its number (R147, R191, R317). -/
def Dev.rewriteCells (d : Dev) (u : Nat) (js : List Nat) : Dev := js.foldl (fun d j => d.writeCell u j 0x32 none) d

/-- Cells that `len` bytes occupy. -/
def cellsOf (len : Nat) : Nat := (len + 255) / 256

/-- The cells of copy `c`, by number, that the Sump alone holds: those of batches written, or being read back (R189, R192). The cells
of the batches that have been linked and left come before those of the context's batches. -/
def Dev.spilledCells (d : Dev) (c : Copy) : List Nat :=
  d.sump.ctxs.flatMap (fun x =>
    let segs := x.batches.flatMap (fun b => (b.segs.filter (fun s => s.copy == c.uid)).map (fun s => (b.at_, s.cells)))
    (segs.foldl (fun (a : Nat × List Nat) s =>
      (a.1 + s.2, if s.1 = .written || s.1 = .reading then a.2 ++ (List.range s.2).map (a.1 + ·) else a.2))
      (c.cells - sumBy segs (fun s => s.2), [])).2)

/-- The cells of frame `u` that stand in the Quarry follow the copies that need them there: cells that only the Sump holds are freed,
cells that came back are written again. -/
def Dev.refit (d : Dev) (u : Nat) : Dev :=
  match d.pkt u with
  | none => d
  | some p =>
    if !p.ended then d
    else
      let cs := (d.dp.copies.filter (fun c => c.pkt == u && !c.released)).map (fun c => (c.cells, d.spilledCells c))
      let need := (List.range (cs.foldl (fun a c => Nat.max a c.1) 0)).filter (fun j => cs.any (fun c => j < c.1 && !c.2.contains j))
      let d := d.modPkt u (fun p => { p with chain := Sparse.keep p.chain (fun j => need.contains j) })
      d.rewriteCells u (need.filter (fun j => (Sparse.find? p.chain j).isNone))

/-- The cells of a copy are read for transmission to an egress pipeline, each from its bank group, if they have not been (R168,
R317). -/
def Dev.readForSend (d : Dev) (c : Copy) : Dev :=
  match d.pkt c.pkt with
  | some f =>
    if c.released then d
    else (f.chain.foldl (fun d x => d.pmc (96 + ptrGroup x.2) 0x31 1) d).charge none 3 f.chain.length
  | none => d

/-! ## XOFF (R165, R166) -/

def Dev.egrPort (d : Dev) (p : Nat) : EgrPort := Sparse.get {} d.dp.egr p

def Dev.setEgrPort (d : Dev) (p : Nat) (x : EgrPort) : Dev :=
  { d with dp := { d.dp with egr := Sparse.set {} d.dp.egr p x } }

/-- Priority g of ingress port i is lossless. -/
def Dev.pfcEn (d : Dev) (i g : Nat) : Bool := bitAt (d.cm F.QRY_PFC_CFG_EN [i]) g

def Dev.xoff (d : Dev) (i g : Nat) : Bool := bitAt (d.rd F.QRY_PFC_STAT_XOFF [i]) g

/-- XOFF of (i, g) set or cleared: a change makes the port owe a PFC frame (R166). -/
def Dev.setXoff (d : Dev) (i g : Nat) (b : Bool) : Dev :=
  if d.xoff i g = b then d
  else
    let d := d.wr F.QRY_PFC_STAT_XOFF [i] (putBit (d.rd F.QRY_PFC_STAT_XOFF [i]) g b)
    let e := d.egrPort i
    (d.setEgrPort i { e with pfcDue := true, pfcFell := if b then e.pfcFell else putBit e.pfcFell g true }).wakeLpi i

/-- XOFF of (i, g) evaluated against the conditions of R165; a priority that is not enabled has XOFF 0. -/
def Dev.evalXoff (d : Dev) (i g : Nat) : Dev :=
  if !d.pfcEn i g then d.setXoff i g false
  else
    let x := scaled d.poolS d.poolU (d.cm F.QRY_PFC_CFG_PFC_ALPHA [i])
    let ing := d.ingCharge i g
    let h := d.hdrmCharge i g
    if x ≤ ing || h ≠ 0 then d.setXoff i g true
    else if ing + d.cm F.QRY_HDRM_XON_DELTA [i, g] ≤ x && h = 0 then d.setXoff i g false
    else d

/-- XOFF evaluated for the ingress priority of a lossless copy. -/
def Dev.evalCopy (d : Dev) (ig : Option (Nat × Nat)) : Dev :=
  match ig with
  | some (i, g) => d.evalXoff i g
  | none => d

/-! ## Releasing a copy (R168) -/

/-- The frame's cells are freed, U falls, and the frame's record goes once no copy needs its bytes; a frame is counted as freed
once (R317). -/
def Dev.freeFrame (d : Dev) (u : Nat) : Dev :=
  (d.modPkt u (fun p => { p with chain := [], uHeld := 0, refs := 0, freed := true })).pmc 104 0x3A
    (b2n ((d.pkt u).any (fun p => !p.freed)))

/-- Frames of which nothing is left: no copy, no packet in a pipeline, no cell, and not still arriving. -/
def Dev.sweepFrames (d : Dev) : Dev :=
  let live := fun (p : Pkt) => !p.chain.isEmpty || p.open_ || d.dp.copies.any (fun c => c.pkt == p.uid) ||
    d.dp.passes.any (fun x => x.pkt == p.uid) || d.dp.pkts.any (fun x => x.src == p.uid && x.open_)
  { d with dp := { d.dp with pkts := d.dp.pkts.filter live } }

/-- Egress queue (p, q) holds no unreleased copy in the Quarry: its deficit returns to 0 (R206). -/
def Dev.resetDeficit (d : Dev) (v : Nat) : Dev :=
  if isVoq v && d.queueDepth (voqPort v) (voqQueue v) = 0 then
    let e := d.egrPort (voqPort v)
    d.setEgrPort (voqPort v) { e with deficit := Sparse.set 0 e.deficit (voqQueue v) 0 }
  else d

/-- A copy leaves: its queue charge is released, the reference count falls, and at 0 the cells are freed. -/
def Dev.releaseCopy (d : Dev) (u : Nat) : Dev :=
  match d.copy u with
  | none => d
  | some c =>
    if c.released then d
    else
      let d := d.modCopy u (fun c => { c with released := true, linked := 0 })
      let d := d.modPkt c.pkt (fun p => { p with refs := p.refs - 1 })
      let d := match d.pkt c.pkt with
        | some p =>
          if p.refs = 0 then d.freeFrame c.pkt else if d.sump.ctxs.isEmpty then d else d.refit c.pkt
        | none => d
      (d.evalCopy c.ig).resetDeficit c.queue

/-! ## Candidates and the arbitration of R204 -/

/-- The head copy of a VOQ, when its Quarry part holds it and it is complete, or enqueued by cut-through with enough cells
(R202). -/
def Dev.voqHead (d : Dev) (v : Nat) : Option Copy :=
  match d.dp.copies.find? (fun c => c.queue == v && (c.loc == .voq || c.loc == .sump)) with
  | some c => if c.loc = .voq && c.ready then some c else none
  | none => none

/-- The candidate of egress queue (p, q): the head of the first VOQ at or after the queue's pointer that has one (R202, R208). -/
def Dev.candidate (d : Dev) (p q : Nat) : Option Copy :=
  let r := Sparse.get 0 (d.egrPort p).rr q
  ((List.range 32).map (fun i => (r + i) % 32)).findSome? (fun n => d.voqHead (voqOf n p q))

/-- The chosen copy of port p that EPn takes first: of several the one whose queue took it in first (DESIGN CHOICE, log 176). -/
def Dev.chosen (d : Dev) (p : Nat) : Option Copy :=
  d.dp.copies.find? (fun c => c.loc == .chosen && isVoq c.queue && voqPort c.queue == p)

/-- One grant of the weighted arbitration of R204 over the sources `ready`, in ascending order: the source granted, and the
credits of those that took part. -/
def arbitrate (ready : List Nat) (w : Nat → Nat) (credit : Nat → Int) : Option (Nat × List (Nat × Int)) :=
  let c := fun p => credit p + w p
  let best := ready.foldl (fun (b : Option Nat) p => match b with
    | some x => if c x < c p then some p else some x
    | none => some p) none
  best.map (fun b => (b, ready.map (fun p => (p, if p = b then c p - sumBy ready w else c p))))

/-- A copy has left egress queue v, or a frame its port's turn: a port without a chosen frame has credit 0 (R204), and a queue
without a candidate has not held one for the whole watchdog period (R222). -/
def Dev.queueLost (d : Dev) (v : Nat) : Dev :=
  if !isVoq v then d
  else
    let e := d.egrPort (voqPort v)
    let e := if (d.chosen (voqPort v)).isNone then { e with credit := 0 } else e
    let e := if (d.candidate (voqPort v) (voqQueue v)).isNone then { e with heldQ := putBit e.heldQ (voqQueue v) false } else e
    d.setEgrPort (voqPort v) e

/-- A copy is gone: released if it was not, and no longer listed. -/
def Dev.removeCopy (d : Dev) (u : Nat) : Dev :=
  let e := d.releaseCopy u
  let e := { e with dp := { e.dp with copies := e.dp.copies.filter (fun c => c.uid != u) } }.sweepFrames
  match d.copy u with
  | some c => e.queueLost c.queue
  | none => e

/-- The trace of a frame, for records about its copies. -/
def Dev.traceOf (d : Dev) (u : Nat) : Option Nat :=
  match d.pkt u with
  | some p => p.trace
  | none => none

/-- A final record of a copy, and the end of the trace when no other copy of the frame is listed (R314). Copies to the
host and mirror copies make no records. -/
def Dev.finalRecord (d : Dev) (c : Copy) (cp : Nat) (data : List Byte) : Dev :=
  match d.pkt c.pkt with
  | none => d
  | some p =>
    if p.kind != .frame && p.kind != .result then d
    else
      let d := d.cullet p.trace cp none (if isVoq c.queue then some (voqPort c.queue) else none) data
      if d.dp.copies.any (fun x => x.pkt == c.pkt && x.uid != c.uid) then d
      else (d.freeTrace p.trace).modPkt c.pkt (fun p => { p with trace := none })

end Sys2Proof.Machine
end

