-- ==== Sys2Proof/Machine/Sump.lean ====
section
/-!
DEFINITION. The Sump controller (spec/06_sump_deep_store.md R180 to R198): the region map, extents, spill contexts, the
tails that copies join, batches out and back.
-/

namespace Sys2Proof.Machine

/-! ## Regions and extents (R180 to R182, R185) -/

def Dev.partBase (d : Dev) (k r : Nat) : Nat := d.cm F.SMP_REGION_BASE [k, r]
def Dev.partSize (d : Dev) (k r : Nat) : Nat := d.cm F.SMP_REGION_SIZE [k, r]

/-- The committed map is in conflict (R181): two parts of a port overlap, or a part ends above 512. -/
def Dev.mapConflict (d : Dev) : Bool :=
  (List.range 4).any (fun k => (List.range 3).any (fun r =>
    let b := d.partBase k r
    let s := d.partSize k r
    s != 0 && (512 < b + s || (List.range 3).any (fun t =>
      t != r && d.partSize k t != 0 && b < d.partBase k t + d.partSize k t && d.partBase k t < b + s))))

/-- CXL.mem of port k is ready. -/
def Dev.memReady (d : Dev) (k : Nat) : Bool := d.on F.CXL_STAT_MEM_READY [k]

/-- Part (k, r) can be used (R181): present, its port ready, within the capacity. In a conflict the parts of TABLE_IMAGE and
ARCHIVE act as absent; those of SPILL stay, for VOQs already spilled keep joining (R195). -/
def Dev.partUsable (d : Dev) (k r : Nat) : Bool :=
  d.partSize k r != 0 && d.memReady k && d.partBase k r + d.partSize k r ≤ d.rd F.CXL_STAT_CAP [k] && (r == 0 || !d.mapConflict)

/-- Extents that the SPILL part of port k holds, and those of the ports below it (R185). -/
def Dev.partExtents (d : Dev) (k : Nat) : Nat := d.partSize k 0 * 512 / 3
def Dev.firstExtent (d : Dev) (k : Nat) : Nat := sumBy (List.range k) d.partExtents

/-- The port of extent e. -/
def Dev.extentPort (d : Dev) (e : Nat) : Nat :=
  ((List.range 4).find? (fun k => e < d.firstExtent k + d.partExtents k)).getD 3

/-- Extents that contexts own. -/
def Dev.ownedExtents (d : Dev) : List Nat := (d.sump.ctxs.map (fun c => c.chain.map (fun x => x.2))).flatten

/-- SMP_EXT_TOTAL and SMP_EXT_FREE. -/
def Dev.extTotal (d : Dev) : Nat := sumBy (List.range 4) (fun k => if d.partUsable k 0 then d.partExtents k else 0)
def Dev.extFree (d : Dev) : Nat :=
  d.extTotal - (d.ownedExtents.filter (fun e => d.partUsable (d.extentPort e) 0)).length

/-- The free extent of port k that a batch takes: R189 names the port alone, and the model takes the lowest-numbered (DESIGN CHOICE,
log 281). -/
def Dev.freeExtent (d : Dev) (k : Nat) : Option Nat :=
  if d.partUsable k 0 then
    ((List.range (d.partExtents k)).map (fun i => d.firstExtent k + i)).find? (fun e => !d.ownedExtents.contains e)
  else none

/-- The next free extent, in rotation over the ports (R189), and the port after the one that gave it. The rotation starts at port 0
after reset (DESIGN CHOICE, log 324). -/
def Dev.nextExtent (d : Dev) : Option (Nat × Nat) :=
  ((List.range 4).map (fun i => (d.sump.nextPort + i) % 4)).findSome? (fun k =>
    (d.freeExtent k).map (fun e => (e, (k + 1) % 4)))

/-! ## Contexts -/

def Dev.ctx (d : Dev) (n : Nat) : Option Ctx := d.sump.ctxs.find? (fun c => c.num == n)
def Dev.ctxOfVoq (d : Dev) (v : Nat) : Option Ctx := d.sump.ctxs.find? (fun c => c.voq == v)

/-- QRY_VOQ_DATA1.SPILLED. -/
def Dev.spilled (d : Dev) (v : Nat) : Bool := (d.ctxOfVoq v).isSome

def Dev.setCtx (d : Dev) (x : Ctx) : Dev :=
  { d with sump := { d.sump with ctxs := d.sump.ctxs.map (fun c => if c.num = x.num then x else c) } }

def Batch.cells (b : Batch) : Nat := sumBy b.segs (fun s => s.cells)

/-- The cells of a batch whose frames have not been lost. -/
def Batch.liveCells (b : Batch) : Nat := sumBy b.segs (fun s => if s.lost then 0 else s.cells)

/-- Bytes that a write or read of a batch moves (R186): cells, header, records of the frames that start in it. -/
def Batch.bytes (b : Batch) : Nat := b.cells * 256 + 128 + 96 * (b.segs.filter (fun s => s.first)).length

/-- Staging in use: batches held in the Quarry, 64 cells for each read in flight, and cells that came back and whose
frames have not left (R188, R191, R192). -/
def Dev.stageUsed (d : Dev) : Nat :=
  sumBy d.sump.ctxs (fun c => sumBy c.batches (fun b => match b.at_ with
    | .reading => 64
    | .written => 0
    | _ => b.liveCells)) +
  sumBy d.dp.copies (fun c => if c.released then 0 else c.linked)

/-- Batch group of a sequence number. -/
def groupOf (seq : Nat) : Nat := seq / 64

/-- A chain with an extent for one more group: its groups stay in ascending order (R185). -/
def chainIn (chain : List (Nat × Nat)) (g e : Nat) : List (Nat × Nat) :=
  chain.filter (fun x => x.1 < g) ++ (g, e) :: chain.filter (fun x => g ≤ x.1)

/-- The context's chain gets an extent for the group, when it has none (R185); the Bool says that one was found. -/
def Dev.takeExtent (d : Dev) (x : Ctx) (g : Nat) : Dev × Ctx × Bool :=
  if x.chain.any (fun e => e.1 == g) then (d, x, true)
  else match d.nextExtent with
    | some (e, k) => ({ d with sump := { d.sump with nextPort := k } }, { x with chain := chainIn x.chain g e }, true)
    | none => (d, x, false)

/-- Extents of the chain that hold no batch leave it (R192). -/
def Ctx.trim (x : Ctx) : Ctx :=
  { x with chain := x.chain.filter (fun e => x.batches.any (fun b => groupOf b.seq == e.1)) }

/-! ## Joining a tail (R187 to R189) -/

/-- The controller takes new spills: EN, no conflict (R181, R195). -/
def Dev.smpOn (d : Dev) : Bool := d.on F.SMP_CFG_EN [] && !d.mapConflict

/-- VOQ v is spill-eligible (R187). -/
def Dev.spillEligible (d : Dev) (v : Nat) : Bool :=
  let q := voqQueue v
  d.smpOn && q < 8 && d.onC F.SMP_CLS_THR_EN [q] && (List.range 4).any (fun k => d.partUsable k 0)

/-- ST of queue class q (R187). -/
def Dev.spillThreshold (d : Dev) (q : Nat) : Nat :=
  max (d.cm F.SMP_CLS_THR_FLOOR [q]) (scaled d.poolS d.poolU (d.cm F.SMP_CLS_THR_SALPHA [q]))

/-- The Sump takes this copy of k cells: its VOQ is spilled, or crosses its threshold with it. -/
def Dev.spillTakes (d : Dev) (v k : Nat) : Bool :=
  d.spilled v || (d.spillEligible v && d.spillThreshold (voqQueue v) < d.voqDepth v + k)

/-- The cells that the open batch can still take. -/
def Ctx.openRoom (x : Ctx) : Nat :=
  match x.batches.getLast? with
  | some b => if b.at_ = .open_ then 64 - b.cells else 0
  | none => 0

/-- A copy of k cells needs a new batch, whose group has no extent yet. -/
def Ctx.needsExtent (x : Ctx) (k : Nat) : Bool :=
  x.openRoom < k && !x.chain.any (fun e => e.1 == groupOf x.nextSeq)

/-- The sub-reason with which a copy of k cells is refused (R188); none when it is taken. `x` is the VOQ's context, or a
blank one for a new spill. -/
def Dev.spillRefusal (d : Dev) (v k : Nat) (x : Ctx) (isNew : Bool) : Option Nat :=
  let quota := d.cm F.SMP_CLS_LIM_QUOTA [voqQueue v]
  if x.needsExtent k && quota != 0 && quota ≤ x.chain.length then some 0
  else if d.cm F.QRY_STAGE_CELLS [] - d.cm F.SMP_RB_RSV_CELLS [] < d.stageUsed + k then some 1
  else if x.needsExtent k && d.nextExtent.isNone then some 2
  else if isNew && 65536 ≤ d.sump.ctxs.length then some 3
  else none

/-- A batch closes: it waits in the one write queue (R189). -/
def Dev.closeBatch (d : Dev) (n seq : Nat) : Dev :=
  match d.ctx n with
  | none => d
  | some x =>
    let d := d.setCtx { x with batches := x.batches.map (fun b => if b.seq = seq then { b with at_ := .waiting } else b) }
    { d with sump := { d.sump with queue := d.sump.queue ++ [(n, seq)] } }

/-- `k` cells of copy `u` go into the context's open batch, and from a full one into the next. -/
def Dev.appendCells (d : Dev) (n u k : Nat) (first : Bool) : Nat → Dev
  | 0 => d
  | fuel + 1 =>
    match d.ctx n with
    | none => d
    | some x =>
      if k = 0 then d
      else if x.openRoom = 0 then
        let (d, x, _) := d.takeExtent x (groupOf x.nextSeq)
        let b : Batch := { seq := x.nextSeq, slot := x.nextSeq % 64 }
        (d.setCtx { x with batches := x.batches ++ [b], nextSeq := x.nextSeq + 1 }).appendCells n u k first fuel
      else
        let m := min k x.openRoom
        let seq := x.nextSeq - 1
        let full := m == x.openRoom
        let d := d.setCtx { x with batches := x.batches.map (fun b =>
          if b.seq = seq then { b with segs := b.segs ++ [{ copy := u, cells := m, first := first }] } else b) }
        let d := if full then d.closeBatch n seq else d
        d.appendCells n u (k - m) false fuel

/-- A free context number: a free value says where the search begins (R187; log 2). -/
def Dev.freeCtx (d : Dev) : Dev × Nat :=
  let (v, d) := d.free
  (d, (((List.range 65536).map (fun i => (v.toNat + i) % 65536)).find? (fun n => (d.ctx n).isNone)).getD 0)

/-- Copy `u` of k cells joins the tail of its VOQ, or is refused with a sub-reason, which is counted (R188). -/
def Dev.spillCopy (d : Dev) (u v k : Nat) : Dev × Bool :=
  let o := d.ctxOfVoq v
  match d.spillRefusal v k (o.getD ({} : Ctx)) o.isNone with
  | some r => ((d.inc F.SMP_REFUSE_COUNT [r]).pmc 107 0x53 1, false)
  | none =>
    let (d, n) := match o with
      | some x => (d, x.num)
      | none =>
        let (d, n) := d.freeCtx
        ({ d with sump := { d.sump with ctxs := d.sump.ctxs ++ [({ num := n, voq := v } : Ctx)] } }, n)
    ((d.modCopy u (fun c => { c with loc := .sump, charge := .staging })).appendCells n u k true 4, true)

/-! ## Buckets (R196, R197) -/

/-- Poison in lines that a CXL.mem read of port k returned, for whatever reader (R178, R317). -/
def Dev.cxlPoison (d : Dev) (k lines : Nat) : Dev :=
  if lines = 0 then d else ((d.wr F.CXL_ERR_POISON [k] 1).addTo F.CXL_POISON_CNT_COUNT [k] lines).pmc (108 + k) 0x5B lines

/-- Both buckets, full at reset (DESIGN CHOICE, log 324), filled for the time since they were last looked at: 96 KiB at most, in thousandths of a byte; a rate of r
Gbit/s is 125 r thousandths of a byte in a nanosecond. -/
def Dev.fillBuckets (d : Dev) : Dev :=
  let t := d.rst.mono - d.sump.at_
  let f := fun b r => min 98304000 (b + t * r * 125)
  { d with sump := { d.sump with
      at_ := d.rst.mono
      wrBucket := f d.sump.wrBucket (d.rd F.SMP_BW_STAT_WR_CAP [])
      rdBucket := f d.sump.rdBucket (d.rd F.SMP_BW_STAT_RB_RATE []) } }

/-- The rates in force: the write cap of the level in force, the floor or the allowance in force for read-back (R196, R197). -/
def Dev.smpRates (d : Dev) : Dev :=
  let w := min 3200 (d.rd F.SMP_LVL_WR_CAP [d.sump.levelNow])
  let r := max (min 3200 (d.rd F.SMP_CFG_RB_FLOOR [])) (min 3200 d.sump.allowNow)
  (d.wr F.SMP_BW_STAT_WR_CAP [] w).wr F.SMP_BW_STAT_RB_RATE [] r

/-- A batch boundary, which every look at the write queue or the readers is: the level and the allowance last published come into
force (R44). -/
def Dev.batchBoundary (d : Dev) : Dev :=
  ({ d with sump := { d.sump with levelNow := d.sump.level, allowNow := d.sump.allowance } }).smpRates

/-! ## Losing frames (R199) -/

/-- Copy `u` leaves a batch that has not been issued; the slot of one that has been keeps its cells, which are lost. -/
def Batch.unload (b : Batch) (u : Nat) : Batch :=
  if b.at_ = .open_ ∨ b.at_ = .waiting then { b with segs := b.segs.filter (fun s => s.copy != u) }
  else { b with segs := b.segs.map (fun s => if s.copy = u then { s with lost := true } else s) }

/-- Copy `u` leaves every batch of its context. -/
def Dev.unbatch (d : Dev) (u : Nat) : Dev :=
  { d with sump := { d.sump with ctxs := d.sump.ctxs.map (fun x =>
      { x with batches := x.batches.map (fun b => b.unload u) }) } }

/-! ## A length corrected (R171) -/

/-- The cells of copy `u` in the batches of a context from sequence `s` on. -/
def Ctx.cellsFrom (x : Ctx) (s u : Nat) : Nat :=
  sumBy x.batches (fun b => if s ≤ b.seq then sumBy b.segs (fun g => if g.copy = u then g.cells else 0) else 0)

/-- Segments with copy `u` cut to `k` cells in all, and the cells left over. -/
def cutSegs (u : Nat) : List Seg → Nat → List Seg × Nat
  | [], k => ([], k)
  | s :: t, k =>
    if s.copy = u then
      let m := min s.cells k
      let (t, r) := cutSegs u t (k - m)
      (if m = 0 then t else { s with cells := m } :: t, r)
    else
      let (t, r) := cutSegs u t k
      (s :: t, r)

/-- The same over batches. -/
def cutBatches (u : Nat) : List Batch → Nat → List Batch
  | [], _ => []
  | b :: t, k => { b with segs := (cutSegs u b.segs k).1 } :: cutBatches u t (cutSegs u b.segs k).2

/-- A copy that joined a tail at header time turns out to have `k` cells: the correction never refuses. -/
def Dev.refitSegs (d : Dev) (c : Copy) (k : Nat) : Dev :=
  match d.ctxOfVoq c.queue with
  | some x =>
    if c.charge ≠ .staging then d
    else if k ≤ x.cellsFrom 0 c.uid then d.setCtx { x with batches := cutBatches c.uid x.batches k }
    else d.appendCells x.num c.uid (k - x.cellsFrom 0 c.uid) false 5
  | none => d

/-- A frame with cells in the batch still arrives. -/
def Dev.batchArriving (d : Dev) (b : Batch) : Bool :=
  b.segs.any (fun s => match d.copy s.copy with
    | some c => (d.pkt c.pkt).any (fun p => !p.ended)
    | none => false)

/-- A frame lost in the Sump, counted under r: its charges are released as if it had left (R199). In the safe state stored frames are
not freed and the Sump keeps its contents (R408), so none is lost. -/
def Dev.loseCopy (d : Dev) (r u : Nat) : Dev :=
  if d.safe then d
  else match d.copy u with
  | none => d
  | some c =>
    let d := (d.inc F.SMP_DROP_COUNT [r]).finalRecord c 0x51 [4, BitVec.ofNat 8 r]
    (d.unbatch u).removeCopy u

/-! ## Linking back (R192, R194) -/

/-- One segment of a returned batch is linked: its cells stand in the Quarry again, and a frame whose last cell has been
linked is visible to the scheduler. -/
def Dev.linkSeg (d : Dev) (s : Seg) : Dev :=
  let d := d.modCopy s.copy (fun c =>
    let l := c.linked + s.cells
    { c with linked := l, loc := if c.cells ≤ l then .voq else c.loc })
  d

/-- A Cullet record of a copy about its batch (R314). -/
def Dev.batchRecord (d : Dev) (u cp n seq : Nat) (rest : List Byte) : Dev :=
  match d.copy u with
  | some c => d.cullet (d.traceOf c.pkt) cp (some 4) (some (voqPort c.queue)) (leBytes 2 n ++ [0, 0] ++ leBytes 4 seq ++ rest)
  | none => d

/-- The first batches of a context that have returned are linked in order and leave it. -/
def Dev.linkBatches (d : Dev) (n : Nat) : Nat → Dev
  | 0 => d
  | fuel + 1 =>
    match d.ctx n with
    | none => d
    | some x =>
      match x.batches with
      | [] => d
      | b :: t =>
        if b.at_ = .returned then
          let d := b.segs.foldl (fun d s => (d.linkSeg s).batchRecord s.copy 0x24 n b.seq []) d
          (d.setCtx ({ x with batches := t }).trim).linkBatches n fuel
        else d

/-- The Quarry part of the VOQ is empty. -/
def Dev.quarryEmpty (d : Dev) (v : Nat) : Bool := d.voqDepth v == 0

end Sys2Proof.Machine
end

