-- ==== Sys2Proof/Machine/Admit.lean ====
section
/-!
DEFINITION. Admission of the copies of a frame (spec/05_quarry_central_store.md R157 to R164, R167, R169).
-/

namespace Sys2Proof.Machine

/-- A copy that admission decides: the frame, its queue, its cells and length, whether the frame is multicast, its ingress
port and priority when it is lossless (R160), the shared cells that it holds already (a copy of R169), its colour, whether
its first IP header can carry a mark, whether it is enqueued by cut-through, its metadata. -/
structure Ask where
  pkt : Nat
  queue : Nat
  k : Nat
  len : Nat
  mc : Bool := false
  ig : Option (Nat × Nat) := none
  own : Nat := 0
  colour : Nat := 0
  ecnOk : Bool := false
  ct : Bool := false
  md : Sparse Nat := []

/-- What admission answers: the deciding step of R157, and the part charged, or the reason. -/
inductive Verdict where
  | accept (step : Nat) (c : Charge)
  | refuse (step r : Nat)
  deriving DecidableEq, Repr

/-- Whether a profile acts on a copy (R164). -/
inductive Wred where
  | pass | mark | drop
  deriving DecidableEq, Repr

/-! ## WRED and ECN (R162 to R164) -/

/-- The average depth that admission uses: with W = 0 the instantaneous one. -/
def Dev.wredAvg (d : Dev) (p q : Nat) : Nat :=
  if d.cm F.QRY_Q_CFG_AVG_W [p, q] = 0 then d.queueDepth p q else d.rd F.QRY_Q_AVG_CELLS [p, q]

/-- q16 of an enabled profile at an average depth (R163). -/
def Dev.q16 (d : Dev) (c k avg : Nat) : Nat :=
  let lo := d.cm F.QRY_WRED_MIN_MIN [c, k]
  let hi := d.cm F.QRY_WRED_MAX_MAX [c, k]
  let mp := min 256 (d.cm F.QRY_WRED_CTL_MAXP [c, k])
  if hi ≤ lo then (if avg < lo then 0 else 65536)
  else if avg < lo then 0
  else if avg < hi then mp * 256 * (avg - lo) / (hi - lo)
  else 65536

/-- WRED decides a copy to a VOQ. The pipeline's uniform number x is a free value, drawn where it matters (log 2). -/
def Dev.wred (d : Dev) (a : Ask) : Dev × Wred :=
  if !isVoq a.queue then (d, .pass)
  else
    let p := voqPort a.queue
    let q := voqQueue a.queue
    let k := d.cm F.QRY_Q_CFG_WRED_PROF [p, q]
    let q16 := if d.onC F.QRY_WRED_CTL_EN [a.colour, k] then d.q16 a.colour k (d.wredAvg p q) else 0
    let (x, d) := if q16 = 0 || 65536 ≤ q16 then (0, d) else ((d.free).1.toNat % 65536, (d.free).2)
    if q16 ≤ x then (d, .pass)
    else if d.onC F.QRY_WRED_CTL_ECN [a.colour, k] && a.ecnOk then (d, .mark)
    else if a.ig.isSome then (d, .pass)
    else (d, .drop)

/-! ## Reserve, shared pool, headroom (R157, R158, R160) -/

/-- The reserve of a queue; queues 8 to 11 and multicast copies have none. -/
def Dev.reserveOf (d : Dev) (a : Ask) : Nat :=
  if a.mc then 0
  else if isVoq a.queue then
    (if voqQueue a.queue < 8 then d.cm F.QRY_Q_CFG_RSV [voqPort a.queue, voqQueue a.queue] else 0)
  else d.cm F.QRY_INT_CFG_RSV [intDest a.queue]

/-- ALPHA of a queue. -/
def Dev.alphaOf (d : Dev) (v : Nat) : Nat :=
  if isVoq v then d.cm F.QRY_Q_CFG_ALPHA [voqPort v, voqQueue v] else d.cm F.QRY_INT_CFG_ALPHA [intDest v]

/-- The shared step, against U without the copy's own cells. -/
def Dev.sharedFits (d : Dev) (a : Ask) (u : Nat) : Bool :=
  let u := u - a.own
  d.queueCharge a.queue .shared + a.k ≤ scaled d.poolS u (d.alphaOf a.queue) && u + a.k ≤ d.poolS

/-- The headroom step of a lossless copy (R160). -/
def Dev.headroomFits (d : Dev) (i g k : Nat) : Bool :=
  d.hdrmCharge i g + k ≤ d.cm F.QRY_HDRM_HDRM [i, g] && d.hdrmTotal + k ≤ d.cm F.QRY_HDRM_POOL_CELLS []

/-- Steps 3 to 6 of R157. -/
def Dev.verdict (d : Dev) (a : Ask) (u : Nat) : Verdict :=
  if d.reserveOf a ≠ 0 && d.queueCharge a.queue .reserve + a.k ≤ d.reserveOf a then .accept 3 .reserve
  else if d.sharedFits a u then .accept 4 .shared
  else match a.ig with
    | some (i, g) => if d.headroomFits i g a.k then .accept 5 .headroom else .refuse 6 3
    | none => .refuse 6 2

/-! ## The decision -/

/-- Number of the charge in the admission record of R314. -/
def Charge.num : Charge → Nat
  | .reserve => 0
  | .headroom => 2
  | .staging => 3
  | _ => 1

/-- The admission record of a copy; only a frame's own copies have one. -/
def Dev.admitRecord (d : Dev) (a : Ask) (step charge : Nat) (ok : Bool) : Dev :=
  d.cullet (d.traceOf a.pkt) 0x22 (some 3) (if isVoq a.queue then some (voqPort a.queue) else none)
    [BitVec.ofNat 8 step, BitVec.ofNat 8 (b2n ok), BitVec.ofNat 8 charge]

/-- A new copy of what was asked. -/
def Ask.copy (a : Ask) (u : Nat) (charge : Charge) (ecn : Bool) (loc : Loc) : Copy :=
  { uid := u, pkt := a.pkt, queue := a.queue, cells := a.k, len := a.len, charge := charge, ig := a.ig, mc := a.mc,
    ecn := ecn, ct := a.ct, ready := !a.ct, loc := loc, md := a.md }

/-- An accepted copy is counted; a mark counts with it. -/
def Dev.accepted (d : Dev) (a : Ask) (step : Nat) (c : Charge) (ecn : Bool) : Dev :=
  let d := d.pmc 104 0x38 1
  let d := if ecn then (d.inc F.QRY_ECN_MARK_COUNT [voqPort a.queue, voqQueue a.queue]).pmc 104 0x3B 1 else d
  let d := d.modPkt a.pkt (fun p => { p with refs := p.refs + 1, uHeld := if c = .shared then a.k else if a.mc then p.uHeld else 0 })
  (d.admitRecord a step c.num true).evalCopy a.ig

/-- Whether an egress queue changes from empty to holding a candidate is for the scheduler to see; what admission answers
is the copy, none when it was refused, and the reason. -/
def Dev.admission (d : Dev) (a : Ask) (u : Nat) : Dev × (Nat ⊕ Nat) :=
  let refuse := fun (d : Dev) step r => ((d.pmc 104 0x39 1).admitRecord a step 0 false, (Sum.inr r : Nat ⊕ Nat))
  let (d, w) := d.wred a
  let ecn := w == .mark
  if w = .drop then refuse d 1 1
  else
    let (n, d) := d.newUid
    if !a.mc && isVoq a.queue && voqQueue a.queue < 8 && d.spillTakes a.queue a.k then
      let (e, ok) := (d.addCopy ({ a with ct := false }.copy n .staging ecn .sump)).spillCopy n a.queue a.k
      if ok then (e.accepted a 2 .staging ecn, .inl n)
      else refuse { e with dp := { e.dp with copies := e.dp.copies.filter (fun c => c.uid != n) } } 2 4
    else match d.verdict a u with
      | .accept step c => ((d.addCopy (a.copy n c ecn .voq)).accepted a step c ecn, .inl n)
      | .refuse step r => refuse d step r

/-- A refused copy of a frame is counted in its queue's counter, and its trace record is final (R177, R314). -/
def Dev.refused (d : Dev) (a : Ask) (r : Nat) : Dev :=
  if isVoq a.queue then d.inc F.QRY_ADM_DROP_COUNT [voqPort a.queue, voqQueue a.queue, r]
  else d.inc F.QRY_INT_DROP_COUNT [intPipe a.queue, intDest a.queue]

/-- The final record of a refused copy. -/
def Dev.refusedRecord (d : Dev) (a : Ask) (r : Nat) : Dev :=
  d.cullet (d.traceOf a.pkt) 0x51 none (if isVoq a.queue then some (voqPort a.queue) else none)
    [3, BitVec.ofNat 8 r]

/-- One copy of a frame is decided against U, and counted when it is refused. -/
def Dev.admitCopy (d : Dev) (a : Ask) (u : Nat) : Dev × Option Nat :=
  match d.admission a u with
  | (d, .inl n) => (d, some n)
  | (d, .inr r) => ((d.refused a r).refusedRecord a r, none)

/-- The copies of a multicast frame are decided together, against the pool as it stood before the frame (R167); the numbers
of the accepted ones. -/
def Dev.admitAll (d : Dev) (l : List Ask) (u : Nat) : Dev × List Nat :=
  match l with
  | [] => (d, [])
  | a :: t =>
    let (d, o) := d.admitCopy a u
    let (d, ns) := d.admitAll t u
    (d, o.toList ++ ns)

/-! ## What is asked -/

/-- The PFC priority of a unicast copy to queue q from ingress port i, when it is lossless (R160). -/
def Dev.losslessOf (d : Dev) (i q : Nat) : Option (Nat × Nat) :=
  let g := d.cm F.QRY_PG_MAP_Q [i] / 2 ^ (3 * q) % 8
  if q < 8 && d.pfcEn i g then some (i, g) else none

/-- The first IP header that the parser passed carries ECT(0), ECT(1) or CE (R164). -/
def ecnCapable (w : List Byte) (hdrs : List (Nat × Nat)) : Bool :=
  match firstIp hdrs with
  | some (3, pos) => byteAt w (pos + 1) % 4 != 0
  | some (_, pos) => byteAt w (pos + 1) / 16 % 4 != 0
  | none => false

/-- The copies that a resolved frame of length `len` asks for: by DEST_TYPE a unicast port, the ports of a multicast group,
the host, or a Gather engine (R25, R103, R167). -/
def Dev.asksOf (d : Dev) (p : Pkt) (len : Nat) (ct : Bool) : List Ask :=
  let base : Ask := { pkt := p.uid, queue := 0, k := cellsOf len, len := len, colour := mdGet p.md mdColour
                      ecnOk := ecnCapable (windowOf p.bytes) p.hdrs, ct := ct, md := p.md }
  let q := mdGet p.md mdQueue
  match mdGet p.md mdDestType with
  | 1 =>
    let e := mdGet p.md mdEgrPort
    [{ base with queue := voqOf p.pipe e q, ig := d.losslessOf p.port q }]
  | 2 =>
    (indicesWhere 1024 (fun i => bitAt (Sparse.get 0 d.tbl.mcg (mdGet p.md mdMcGroup)) i)).map (fun e =>
      { base with queue := voqOf p.pipe e q, mc := true, md := mdSet p.md mdEgrPort e })
  | 3 => [{ base with queue := intOf p.pipe 0 }]
  | 4 => [{ base with queue := intOf p.pipe (1 + mdGet p.md mdGthEngine) }]
  | _ => []

end Sys2Proof.Machine
end

