-- ==== Sys2Proof/Machine/SidePort.lean ====
section
/-!
DEFINITION. The side port: four 8b/10b lanes, one 10GBASE-X4 port or up to four single-lane ports
(spec/02_lanes_and_ports.md R69 to R75).
-/

namespace Sys2Proof.Machine

/-! ## Configuration (R69, R70) -/

/-- AUX_MODE.MODE, the reserved value 3 treated as 0 (R69). -/
def Dev.auxMode (d : Dev) : Nat := let m := d.rd F.AUX_MODE_MODE []; if m = 3 then 0 else m

/-- Port `p` is an SGMII port by its TYPE, on the MAC side or the PHY side. -/
def Dev.auxSgmii (d : Dev) (p : Nat) : Bool :=
  d.rd F.AUX_PORT_CTL_TYPE [p] == 1 || d.rd F.AUX_PORT_CTL_TYPE [p] == 2

/-- AUX_STAT.CNFG_MISMATCH (R70). -/
def Dev.auxMismatch (d : Dev) : Bool :=
  let en := fun p => d.on F.AUX_PORT_CTL_EN [p]
  match d.auxMode with
  | 1 => en 1 || en 2 || en 3
  | 2 => (List.range 4).any (fun p =>
      (en p && d.rd F.AUX_PORT_CTL_TYPE [p] == 3) ||
        (d.auxSgmii p && !d.on F.AUX_PORT_CTL_AN_EN [p] && d.rd F.AUX_PORT_CTL_SPEED [p] == 3))
  | _ => en 0 || en 1 || en 2 || en 3

/-- The port of lane `l` in the mode in use, enabled and not held (R69, R70). -/
def Dev.auxPortOf (d : Dev) (l : Nat) : Option Nat :=
  if d.auxMismatch || !d.domOn 181 then none
  else match d.auxMode with
    | 1 => if d.on F.AUX_PORT_CTL_EN [0] then some 0 else none
    | 2 => if d.on F.AUX_PORT_CTL_EN [l] then some l else none
    | _ => none

/-- The lanes of side-port port `p`. -/
def Dev.auxLanesOf (d : Dev) (p : Nat) : List Nat := if d.auxMode = 1 then [0, 1, 2, 3] else [p]

def Dev.auxLane (d : Dev) (l : Nat) : AuxLane := Sparse.get {} d.phy.auxLanes l

def Dev.setAuxLane (d : Dev) (l : Nat) (x : AuxLane) : Dev :=
  { d with phy := { d.phy with auxLanes := Sparse.set {} d.phy.auxLanes l x } }

def Dev.auxRx (d : Dev) (p : Nat) : AuxRx := Sparse.get {} d.phy.auxRx p

def Dev.setAuxRx (d : Dev) (p : Nat) (x : AuxRx) : Dev :=
  { d with phy := { d.phy with auxRx := Sparse.set {} d.phy.auxRx p x } }

def Dev.auxAn (d : Dev) (p : Nat) : AuxAn := Sparse.get {} d.phy.auxAn p

def Dev.setAuxAn (d : Dev) (p : Nat) (x : AuxAn) : Dev :=
  { d with phy := { d.phy with auxAn := Sparse.set {} d.phy.auxAn p x } }

/-- AUX_PORT_STAT[p] at the start of bring-up: the resolved speed is SPEED on an SGMII port that does not negotiate, and on the PHY
side, which announces the speed itself (R69; log 31). -/
def Dev.auxStatInit (d : Dev) (p : Nat) : Dev :=
  let d := d.setRaw R.AUX_PORT_STAT [p] 0
  if d.auxMode = 2 && d.auxSgmii p && (!d.on F.AUX_PORT_CTL_AN_EN [p] || d.rd F.AUX_PORT_CTL_TYPE [p] == 2) then
    d.wr F.AUX_PORT_STAT_SPEED_RES [p] (d.rd F.AUX_PORT_CTL_SPEED [p])
  else d

/-- The receiver of lane `l` begins anew; the transmitter's disparity goes on (R71). -/
def Dev.auxLaneNew (d : Dev) (l : Nat) : Dev := d.setAuxLane l { txPos := (d.auxLane l).txPos }

/-- The negotiation of port p begins anew: configuration words of 0 until its link timer has passed (R69; log 31). The transmitter
goes on. -/
def Dev.auxAnNew (d : Dev) (p : Nat) : Dev :=
  d.setAuxAn p { since := d.rst.mono, sent := (d.auxAn p).sent, second := (d.auxAn p).second }

/-- Port p of the side port starts anew: its lane at negative receive disparity and out of synchronisation, no frame, link down. -/
def Dev.auxPortRestart (d : Dev) (p : Nat) : Dev := (((d.auxLaneNew p).setAuxRx p {}).auxStatInit p).auxAnNew p

/-- The side port (re)starts, with every port. -/
def Dev.auxRestart (d : Dev) : Dev :=
  (List.range 4).foldl Dev.auxPortRestart { d with phy := { d.phy with auxAlign := {} } }

/-- How often each byte is sent on port `p`: 100 or 10 times at 10 or 100 Mbit/s of SGMII, else once (R69). -/
def Dev.auxCopies (d : Dev) (p : Nat) : Nat :=
  if d.auxMode = 2 && d.auxSgmii p then
    match d.rd F.AUX_PORT_STAT_SPEED_RES [p] with
    | 0 => 100
    | 1 => 10
    | _ => 1
  else 1

/-! ## Reception (R71 to R73) -/

/-- Port p negotiates: mode 2 with AN_EN = 1 (R69). -/
def Dev.auxNegotiates (d : Dev) (p : Nat) : Bool := d.auxMode == 2 && d.on F.AUX_PORT_CTL_AN_EN [p]

/-- The port may take frames: its negotiation is complete, and the PHY of an SGMII MAC has reported its link (log 31). -/
def Dev.auxAnDone (d : Dev) (p : Nat) : Bool :=
  !d.auxNegotiates p || ((d.auxAn p).phase == 5 && (d.rd F.AUX_PORT_CTL_TYPE [p] != 1 || bitAt (d.auxAn p).word 15))

/-- The lanes of mode 1 are deskewed (R73). -/
def Dev.auxAligned (d : Dev) : Bool := d.phy.auxAlign.good == 4

/-- SYNC, ALIGN and LINK_UP of port `p`: its lanes synchronised; in mode 1 deskewed and no fault received; in mode 2 the
negotiation complete. A port comes up only while the LINK service runs its bring-up; one that is up stays up without it (R382). -/
def Dev.auxLink (d : Dev) (p : Nat) : Dev :=
  let sync := (d.auxLanesOf p).all (fun l => (d.auxLane l).synced)
  let align := d.auxMode == 1 && sync && d.auxAligned
  let fault := d.auxMode == 1 && d.on F.AUX_PORT_STAT_RX_FAULT [p]
  let d := (d.wr F.AUX_PORT_STAT_SYNC [p] (b2n sync)).wr F.AUX_PORT_STAT_ALIGN [p] (b2n align)
  d.wr F.AUX_PORT_STAT_LINK_UP [p] (b2n (sync && (d.auxMode != 1 || align) && !fault && d.auxAnDone p &&
    (d.linkService || d.on F.AUX_PORT_STAT_LINK_UP [p])))

/-- Synchronisation of a lane by comma detection: it is acquired after 3 commas without an error (4 in mode 1) and lost at
the fourth error that 4 good code-groups in a row have not made up for (IEEE 802.3 Clauses 36 and 48; log 31). -/
def auxSync (mode : Nat) (x : AuxLane) (err comma : Bool) : AuxLane :=
  let need := if mode = 1 then 4 else 3
  if !x.synced then
    if err then { x with commas := 0 }
    else if comma then
      let c := x.commas + 1
      if need ≤ c then { x with synced := true, commas := 0, bad := 0, good := 0 } else { x with commas := c }
    else x
  else if err then
    if 3 ≤ x.bad then { x with synced := false, commas := 0, bad := 0, good := 0 }
    else { x with bad := x.bad + 1, good := 0 }
  else if x.bad = 0 then x
  else if x.good = 3 then { x with bad := x.bad - 1, good := 0 }
  else { x with good := x.good + 1 }

/-- One step of the reflected CRC-32 of IEEE 802.3 over one bit. -/
def fcsBit (r : Nat) : Nat := if r % 2 = 1 then Nat.xor (r / 2) 0xEDB88320 else r / 2

/-- The Ethernet CRC-32 register after a byte list. -/
def crc32 (bs : List Byte) : Nat :=
  Nat.xor (bs.foldl (fun r b =>
    fcsBit (fcsBit (fcsBit (fcsBit (fcsBit (fcsBit (fcsBit (fcsBit (Nat.xor r b.toNat))))))))) 0xFFFFFFFF) 0xFFFFFFFF

/-- The FCS of a frame's bytes, in the order in which they are sent. -/
def fcsBytes (bs : List Byte) : List Byte := leBytes 4 (crc32 bs)

/-- The last four bytes of a frame are the FCS of the others. -/
def fcsGood (frame : List Byte) : Bool :=
  4 ≤ frame.length && frame.drop (frame.length - 4) == fcsBytes (frame.take (frame.length - 4))

/-- The frame in what was received between /S/ and /T/: what follows the start-of-frame delimiter 0xD5. -/
def afterSfd : List Byte → List Byte
  | [] => []
  | b :: t => if b = 0xD5 then t else afterSfd t

/-- Every `k`-th byte of a list, the first one after `skip` others. -/
def everyNth (k : Nat) : Nat → List Byte → List Byte
  | _, [] => []
  | 0, b :: t => b :: everyNth k (k - 1) t
  | skip + 1, _ :: t => everyNth k skip t

/-- The end of a frame on port `p`: delivered to the service cores when it met no error, is 64 to 16,384 bytes long and
its FCS is good (R71). -/
def Dev.auxFrameEnd (d : Dev) (p : Nat) : Dev :=
  let x := d.auxRx p
  let f := afterSfd (everyNth (d.auxCopies p) (d.auxCopies p - 1) x.bytes)
  let d := d.setAuxRx p {}
  if x.active && !x.bad && 64 ≤ f.length && f.length ≤ 16384 && fcsGood f then
    ({ d with phy := { d.phy with delivered := d.phy.delivered ++ [(p, f)] } }).pmc 130 0x7C 1
  else d

/-- /S/: a frame begins, and the idle run ends: adaptation resumes (R75). -/
def Dev.auxStart (d : Dev) (p : Nat) : Dev :=
  let d := (d.auxLanesOf p).foldl (fun d i => d.wr F.AUX_LANE_STAT_FROZEN [i] 0) d
  d.setAuxRx p { bytes := [], active := d.auxAnDone p, bad := false }

/-- A symbol of port p's stream: a byte, a special plus 256, or one in error, 512 and more: /S/ begins a frame, /T/ ends it, /E/, /V/
and an error inside it err it, a byte belongs to it (R71, R72). -/
def Dev.auxSymbol (d : Dev) (p v : Nat) : Dev :=
  let r := d.auxRx p
  if 512 ≤ v then if r.active then d.setAuxRx p { r with bad := true } else d
  else if v = 0x1FB then d.auxStart p
  else if v = 0x1FD then d.auxFrameEnd p
  else if v = 0x1FE then d.setAuxRx p { r with bad := true }
  else if v < 256 && r.active then d.setAuxRx p { r with bytes := r.bytes ++ [BitVec.ofNat 8 v] }
  else d

/-! ### Mode 1: deskew and columns (R73) -/

/-- The lanes of mode 1 are not aligned: each waits for its next ‖A‖. -/
def Dev.auxUnalign (d : Dev) : Dev :=
  (List.range 4).foldl (fun d l => d.setAuxLane l { d.auxLane l with held := none })
    { d with phy := { d.phy with auxAlign := { d.phy.auxAlign with good := 0, bad := 0 } } }

/-- A column with ‖A‖ on every lane is good; ‖A‖ on some lanes alone is an error of deskew, the fourth of which, of those that good
columns have not made up for, ends it (IEEE 802.3 Clause 48; log 31). -/
def Dev.auxDeskew (d : Dev) (col : List Nat) : Dev :=
  let n := (col.filter (fun v => v == 0x17C)).length
  let x := d.phy.auxAlign
  if n = 0 then d
  else if n = 4 then
    { d with phy := { d.phy with auxAlign :=
      if x.good < 4 then { x with good := x.good + 1 } else { x with bad := x.bad - 1 } } }
  else if x.good < 4 || x.bad == 3 then d.auxUnalign
  else { d with phy := { d.phy with auxAlign := { x with bad := x.bad + 1 } } }

/-- The fault that ‖Q‖ columns report stands until 128 columns have come without one (IEEE 802.3 Clause 46; log 132). -/
def Dev.auxFaultRx (d : Dev) (col : List Nat) : Dev :=
  let x := d.phy.auxAlign
  let put := fun (f q : Nat) => { d with phy := { d.phy with auxAlign := { x with fault := f, quiet := q } } }
  if col.headD 0 = 0x19C then (put (if col.getD 3 0 = 1 then 1 else 2) 0).wr F.AUX_PORT_STAT_RX_FAULT [0] 1
  else if x.fault = 0 then d
  else if x.quiet < 127 then put x.fault (x.quiet + 1)
  else (put 0 0).wr F.AUX_PORT_STAT_RX_FAULT [0] 0

/-- A column of four symbols, lane 0 first. -/
def Dev.auxColumnIn (d : Dev) (col : List Nat) : Dev :=
  let d := d.auxDeskew col
  if d.auxAligned then col.foldl (fun d v => d.auxSymbol 0 v) (d.auxFaultRx col) else d

/-- The columns that all four lanes have in full. -/
def Dev.auxColumns (d : Dev) : Nat → Dev
  | 0 => d
  | fuel + 1 =>
    let held := (List.range 4).map (fun l => (d.auxLane l).held.getD [])
    if held.any List.isEmpty then d
    else
      let d := (List.range 4).foldl (fun d l => d.setAuxLane l { d.auxLane l with held := (d.auxLane l).held.map List.tail }) d
      (d.auxColumnIn (held.map (fun h => h.headD 0))).auxColumns fuel

/-- A symbol of lane `l` in mode 1: a lane holds its symbols from an ‖A‖ on until those of the other lanes have come, 16 code-groups
later at most; a lane that waits for longer gives up (R73). -/
def Dev.auxHold (d : Dev) (l v : Nat) : Dev :=
  if !(List.range 4).all (fun i => (d.auxLane i).synced) then d.auxUnalign
  else
    let x := d.auxLane l
    let d := match x.held with
      | some h => d.setAuxLane l { x with held := some (h ++ [v]) }
      | none => if v = 0x17C then d.setAuxLane l { x with held := some [v] } else d
    if (List.range 4).all (fun i => (d.auxLane i).held.isSome) then
      if (List.range 4).any (fun i => 17 < ((d.auxLane i).held.getD []).length) then d.auxUnalign else d.auxColumns 18
    else if 17 < ((d.auxLane l).held.getD []).length then d.setAuxLane l { d.auxLane l with held := none }
    else d

/-- A special code-group that the mode does not use there: one that R72 does not give the mode, /S/ off lane 0 in mode 1, /R/ in
mode 2 where no end of packet came before it. -/
def auxMisplaced (mode l k : Nat) (before : Nat) : Bool :=
  if mode = 1 then !([0xBC, 0x7C, 0x1C, 0x9C, 0xFB, 0xFD, 0xFE].contains k) || (k == 0xFB && l != 0)
  else !([0xBC, 0xFB, 0xFD, 0xF7, 0xFE].contains k) || (k == 0xF7 && before != 0x1FD && before != 0x1F7)

/-! ### Mode 2: auto-negotiation (R69; IEEE 802.3 Clause 37 and SGMII, log 31) -/

/-- The link timer: 10 ms, for SGMII 1.6 ms. -/
def Dev.linkTimer (d : Dev) (p : Nat) : Nat := if d.auxSgmii p then 1600000 else 10000000

/-- What the acknowledged word says: the remote fault of a 1000BASE-X partner, the speed that a PHY gives its MAC. -/
def Dev.auxResolve (d : Dev) (p : Nat) : Dev :=
  let w := (d.auxAn p).word
  match d.rd F.AUX_PORT_CTL_TYPE [p] with
  | 0 => d.wr F.AUX_PORT_STAT_RX_FAULT [p] (b2n (bitsOf w 13 12 != 0))
  | 1 => d.wr F.AUX_PORT_STAT_SPEED_RES [p] (bitsOf w 11 10)
  | _ => d

/-- The negotiation of port p goes on as far as what has been received and the time allow, with a core that runs the bring-up
(R382). -/
def Dev.auxNegotiate (d : Dev) (p : Nat) : Dev :=
  let x := d.auxAn p
  let go := fun k => if d.linkService then d.setAuxAn p { x with phase := k, since := d.rst.mono } else d
  let past := decide (d.linkTimer p ≤ d.rst.mono - x.since)
  let again := decide (3 ≤ x.same) && x.word == 0
  if !d.auxNegotiates p then d
  else if !(d.auxLane p).synced then d.auxAnNew p
  else match x.phase with
    | 0 => if past then go 1 else d
    | 1 => if 3 ≤ x.same && x.word != 0 then go 2 else d
    | 2 => if again then d.auxAnNew p else if 3 ≤ x.acks then (go 3).auxResolve p else d
    | 3 => if again then d.auxAnNew p else if past then go 4 else d
    | 4 => if again then d.auxAnNew p else if past && 3 ≤ x.idles then go 5 else d
    | _ => if 3 ≤ x.same then d.auxAnNew p else d

/-- The last code-groups of port p in mode 2 end an ordered set: a configuration word of /C/ (K28.5, D21.5 or D2.2, two bytes), or
an idle /I/ (K28.5, D5.6 or D16.2). -/
def Dev.auxOrderedSet (d : Dev) (p : Nat) (last : List Nat) : Dev :=
  let x := d.auxAn p
  match last with
  | dd :: 0x1BC :: _ =>
    if dd == 0xC5 || dd == 0x50 then d.setAuxAn p { x with same := 0, acks := 0, idles := min 3 (x.idles + 1) } else d
  | [hi, lo, dd, 0x1BC] =>
    if (dd == 0xB5 || dd == 0x42) && hi < 256 && lo < 256 then
      let w := putBit (hi * 256 + lo) 14 false
      let acks := if bitAt hi 6 then (if x.word = w then min 3 (x.acks + 1) else 1) else 0
      d.setAuxAn p { x with word := w, same := if x.word = w then min 3 (x.same + 1) else 1, acks := acks, idles := 0 }
    else d
  | _ => d

/-- AUX_CODE_GROUP: lane `l` receives one code-group. The wrong disparity is counted and its ending disparity adopted; a
group in no column, or a special where the standard allows none, is a code error; either errors a frame (R71, R72). -/
def execAuxCodeGroup (l : Fin 4) (cg : AuxCodeGroup) (s : State) : Host.Outcome State Fault Refusal :=
  s.run (fun d =>
    let l := l.val
    match d.auxPortOf l with
    | none => d
    | some p =>
      let x := d.auxLane l
      let known := cg.inNeg || cg.inPos
      let right := if x.rdPos then cg.inPos else cg.inNeg
      let wrong := cg.misplaced || auxMisplaced d.auxMode l cg.byte.toNat (x.last.headD 0)
      let codeErr := !known || (cg.special && wrong)
      let dispErr := known && !right
      let err := codeErr || dispErr
      let sym := cg.byte.toNat + (if cg.special then 256 else 0)
      let x := { x with rdPos := if known then cg.endsPos else x.rdPos, last := (sym :: x.last).take 4 }
      let x := auxSync d.auxMode x err (cg.special && cg.byte == 0xBC)
      let d := (d.setAuxLane l x).wr F.AUX_LANE_STAT_SIG_DET [l] 1
      let d := d.wr F.AUX_LANE_STAT_CDR_LOCK [l] 1
      let d := if dispErr then d.inc F.AUX_DISP_ERR_COUNT [p] else d
      let d := if codeErr then (d.inc F.AUX_CODE_ERR_COUNT [p]).pmc 130 0x7E 1 else d
      let v := if err then sym + 512 else sym
      let d :=
        if d.auxMode = 1 then d.auxHold l v
        else (if err then d.auxSymbol p v else (d.auxSymbol p v).auxOrderedSet p x.last).auxNegotiate p
      d.auxLink p)

/-! ## Transmission (R71 to R73) -/

/-- The 5b/6b code of IEEE 802.3 Clause 36 for the low five bits at negative running disparity, bit a first (log 277). -/
def code6 : List Nat :=
  [0b100111, 0b011101, 0b101101, 0b110001, 0b110101, 0b101001, 0b011001, 0b111000, 0b111001, 0b100101, 0b010101, 0b110100,
    0b001101, 0b101100, 0b011100, 0b010111] ++
  [0b011011, 0b100011, 0b010011, 0b110010, 0b001011, 0b101010, 0b011010, 0b111010, 0b110011, 0b100110, 0b010110, 0b110110,
    0b001110, 0b101110, 0b011110, 0b101011]

/-- The 3b/4b code for the high three bits at negative running disparity, of data and of K28. -/
def code4 : List Nat := [0b1011, 0b1001, 0b0101, 0b1100, 0b1101, 0b1010, 0b0110, 0b1110]
def code4K : List Nat := [0b1011, 0b0110, 0b1010, 0b1100, 0b1101, 0b0101, 0b1001, 0b0111]

/-- A sub-block of `n` bits at running disparity `pos`, from its negative column: the complement where the columns differ, and the
disparity at its end. `alt`: the columns differ although the sub-block is balanced. -/
def subBlock (n v : Nat) (alt pos : Bool) : Nat × Bool :=
  let ones := popCount n v
  let v' := if pos && (2 * ones != n || alt) then 2 ^ n - 1 - v else v
  (v', if 2 * ones = n then pos else !pos)

/-- The code-group of a symbol, a byte or (plus 256) a special, at a running disparity, and the disparity at its end. -/
def encode8b (pos : Bool) (sym : Nat) : Nat × Bool :=
  let x := sym % 32
  let y := sym / 32 % 8
  let k := 256 ≤ sym
  let (a, p1) := subBlock 6 (if k && x == 28 then 0b001111 else code6.getD x 0) (x == 7) pos
  let k28 := k && x == 28
  let a7 := k || (!p1 && (x == 17 || x == 18 || x == 20)) || (p1 && (x == 11 || x == 13 || x == 14))
  let v := if k28 then code4K.getD y 0 else if y = 7 && a7 then 0b0111 else code4.getD y 0
  let (b, p2) := subBlock 4 v (y == 3 || (k28 && y != 0 && y != 4 && y != 7)) p1
  (a * 16 + b, p2)

/-- The code-groups of a list of symbols. -/
def encodeAll : Bool → List Nat → List Nat × Bool
  | pos, [] => ([], pos)
  | pos, s :: t =>
    let (g, pos) := encode8b pos s
    let (l, pos) := encodeAll pos t
    (g :: l, pos)

/-- Lane `l` sends symbols. -/
def Dev.auxSend (d : Dev) (l : Nat) (syms : List Nat) : Dev :=
  let (g, pos) := encodeAll (d.auxLane l).txPos syms
  (d.setAuxLane l { d.auxLane l with txPos := pos }).emit (.sideGroups l g)

/-- The symbols of a frame in the order of transmission: /S/ in place of the first byte of preamble, the bytes each `k` times, /T/,
and what fills the end (Clauses 36 and 48). -/
def auxSymbols (mode k : Nat) (frame : List Byte) : List Nat :=
  let b := ((List.replicate 7 (0x55 : Byte) ++ [0xD5] ++ frame).map (fun (x : Byte) => List.replicate k x.toNat)).flatten
  let s := 0x1FB :: b.tail ++ [0x1FD]
  if mode = 1 then s ++ List.replicate ((4 - s.length % 4) % 4) 0x1BC
  else if s.length % 2 = 1 then s ++ [0x1F7] else s ++ [0x1F7, 0x1F7]

/-- The symbols of lane `l` of four. -/
def laneOf (l : Nat) (s : List Nat) : List Nat :=
  (s.zipIdx.filter (fun e => e.2 % 4 == l)).map (fun e => e.1)

/-- Code-groups of mode 2 that port p has sent. -/
def Dev.auxSent (d : Dev) (p n : Nat) : Dev := d.setAuxAn p { d.auxAn p with sent := (d.auxAn p).sent + n }

/-- The service cores send a frame on port `p`, padded to 64 bytes and with its FCS (R32, R69); none leaves while the link is down. -/
def Dev.sideSend (d : Dev) (p : Nat) (body : List Byte) : Dev :=
  if !d.on F.AUX_PORT_STAT_LINK_UP [p] || d.safe then d
  else
    let b := body ++ List.replicate (60 - body.length) 0
    let f := b ++ fcsBytes b
    let s := auxSymbols d.auxMode (d.auxCopies p) f
    let d := (d.emit (.sideFrame p f)).pmc 130 0x7D 1
    if d.auxMode = 1 then
      let d := { d with phy := { d.phy with auxCol := d.phy.auxCol + s.length / 4 } }
      (List.range 4).foldl (fun d l => d.auxSend l (laneOf l s)) d
    else (d.auxSend p s).auxSent p s.length

/-- A column of mode 1: the same special on every lane. -/
def Dev.auxColumn (d : Dev) (k : Nat) : Dev := (List.range 4).foldl (fun d l => d.auxSend l [256 + k]) d

/-- The ‖Q‖ column that follows an ‖A‖ column: remote fault while the receiver has no aligned signal or receives local fault, local
fault while the side port's own PLL is unlocked (R73; log 277). -/
def Dev.auxFault (d : Dev) : Dev :=
  let q := if !d.on F.AUX_STAT_PLL_LOCK [] then 1 else if !d.on F.AUX_PORT_STAT_ALIGN [0] || d.phy.auxAlign.fault == 1 then 2 else 0
  if q = 0 then d
  else
    let d := (((d.auxSend 0 [0x19C]).auxSend 1 [0]).auxSend 2 [0]).auxSend 3 [q]
    { d with phy := { d.phy with auxCol := d.phy.auxCol + 1 } }

/-- One idle column: ‖A‖ when it is due, the next one 16 to 31 columns later, with the ‖Q‖ column that may follow it counted among
them; else ‖K‖ or ‖R‖ at random, by a free value (R73). -/
def Dev.auxIdle (d : Dev) : Dev :=
  let (v, d) := d.free
  let c := d.phy.auxCol
  if d.phy.auxNextA ≤ c then
    let d := (d.auxColumn 0x7C).auxFault
    { d with phy := { d.phy with auxCol := d.phy.auxCol + 1, auxNextA := c + 16 + v.toNat % 16 } }
  else
    let d := d.auxColumn (if bitAt v.toNat 0 then 0xBC else 0x1C)
    { d with phy := { d.phy with auxCol := c + 1 } }

/-- The configuration word that port p sends in its state: 0 at a restart; then full duplex of 1000BASE-X, the word of an SGMII MAC,
or the link and the speed of an SGMII PHY; with ACK once the partner's word has been taken (R69; log 31). -/
def Dev.auxWord (d : Dev) (p : Nat) : Nat :=
  let w := match d.rd F.AUX_PORT_CTL_TYPE [p] with
    | 1 => 0x0001
    | 2 => 0x9001 + 1024 * d.rd F.AUX_PORT_CTL_SPEED [p]
    | _ => 0x0020
  match (d.auxAn p).phase with
  | 0 => 0
  | 1 => w
  | _ => w + 0x4000

/-- One ordered set of a port of mode 2 that has no frame to send, if the `room` in code-groups holds it: /C/ while it negotiates,
else /I1/ where the disparity is positive and /I2/ where it is not. -/
def Dev.auxFill (d : Dev) (p room : Nat) : Dev :=
  let x := d.auxAn p
  if d.auxNegotiates p && x.phase < 4 then
    if room < 4 then d
    else
      let w := d.auxWord p
      ((d.setAuxAn p { x with second := !x.second }).auxSend p [0x1BC, if x.second then 0x42 else 0xB5, w % 256, w / 256]).auxSent p 4
  else if room < 2 then d
  else (d.auxSend p [0x1BC, if (d.auxLane p).txPos then 0xC5 else 0x50]).auxSent p 2

/-- The ordered sets of port p that the time now past has room for, a code-group in 8 ns; a port that is not in use sends none, nor
does one in the safe state (R407). -/
def Dev.auxFillAll (d : Dev) (p : Nat) : Dev :=
  let due := d.rst.mono / 8
  if d.auxMode = 2 && (d.auxPortOf p).isSome && !d.safe then
    let d := d.auxNegotiate p
    ((List.range ((due - (d.auxAn p).sent) / 2)).foldl (fun d _ => d.auxFill p (due - (d.auxAn p).sent)) d).auxLink p
  else d.setAuxAn p { d.auxAn p with sent := due }

/-- The idle columns that the time now past has room for: columns of 3.2 ns, in mode 1 alone; in mode 2 the ordered sets of the four
ports. The side port's PLL, which follows REFCLK_A as TIME does, has locked with the first TIME clock of a powered side port (log
277). -/
def Dev.auxTick (d : Dev) : Dev :=
  let d := if d.domOn 181 then d.wr F.AUX_STAT_PLL_LOCK [] 1 else d
  let due := d.rst.mono * 5 / 16
  let d := if d.auxMode = 1 && (d.auxPortOf 0).isSome && !d.safe then
      (List.range (due - d.phy.auxCol)).foldl (fun d _ => if d.phy.auxCol < due then d.auxIdle else d) d
    else { d with phy := { d.phy with auxCol := due } }
  (List.range 4).foldl Dev.auxFillAll d

/-- AUX_SIGNAL_LOSS: the partner disappears: its lanes lose synchronisation, the frame in reception and the negotiation are gone. -/
def execAuxSignalLoss (p : Fin 4) (s : State) : Host.Outcome State Fault Refusal :=
  s.run (fun d =>
    let p := p.val
    let d := (d.auxLanesOf p).foldl (fun d l =>
      ((d.wr F.AUX_LANE_STAT_SIG_DET [l] 0).wr F.AUX_LANE_STAT_CDR_LOCK [l] 0).auxLaneNew l) d
    let d := (d.setAuxRx p {}).auxAnNew p
    let d := if d.auxMode = 1 then { d.auxUnalign with phy := { d.auxUnalign.phy with auxAlign := {} } } else d
    (d.wr F.AUX_PORT_STAT_RX_FAULT [p] 0).auxLink p)

/-- AUX_RATE_MATCH: one ‖R‖ column or /I2/ ordered set inserted or deleted between frames (R74). -/
def execAuxRateMatch (p : Fin 4) (insert : Bool) (s : State) : Host.Outcome State Fault Refusal :=
  s.run (fun d =>
    let p := p.val
    if !d.on F.AUX_PORT_STAT_SYNC [p] || (d.auxRx p).active then d
    else if insert then d.inc F.AUX_RM_INS_COUNT [p] else d.inc F.AUX_RM_DEL_COUNT [p])

/-- AUX_TDENS_WINDOW: a 1,024-UI window ends with a transition count. In an idle run adaptation freezes below TDENS_MIN;
it resumes at TDENS_MIN + 32 (R75). -/
def execAuxTdensWindow (l : Fin 4) (transitions : Fin 1025) (s : State) : Host.Outcome State Fault Refusal :=
  s.run (fun d =>
    let l := l.val
    let t := transitions.val
    let d := d.wr F.AUX_LANE_STAT_TDENS [l] t
    let min := d.rd F.AUX_LANE_CTL_TDENS_MIN [l]
    let inFrame := match d.auxPortOf l with
      | some p => (d.auxRx p).active
      | none => false
    if d.on F.AUX_LANE_STAT_FROZEN [l] then
      if min + 32 ≤ t then d.wr F.AUX_LANE_STAT_FROZEN [l] 0 else d
    else if !inFrame && d.on F.AUX_LANE_CTL_FRZ_EN [l] && t < min then
      (d.wr F.AUX_LANE_STAT_FROZEN [l] 1).inc F.AUX_LANE_FRZ_CNT_COUNT [l]
    else d)

/-! ## The hand-over of the LINK service (R382) -/

/-- The ports of the side port whose bring-up is not done start anew: in mode 1 the one port with its lanes. -/
def Dev.auxHandover (d : Dev) : Dev :=
  let busy := (List.range 4).filter (fun p => d.auxPortOf p == some p && !d.on F.AUX_PORT_STAT_LINK_UP [p])
  if d.auxMode = 1 then (if busy.isEmpty then d else d.auxRestart) else busy.foldl Dev.auxPortRestart d

/-- LINK_HANDOVER: the hand-over completes. A port in a bring-up phase, of the side port too, restarts at its start on the new core;
a port that is up stays up. -/
def execLinkHandover (s : State) : Host.Outcome State Fault Refusal :=
  s.run (fun d =>
    if d.svc.handover then
      let d := { d with svc := { d.svc with handover := false, linkCores := d.linkCoresNow } }
      ((d.phy.ports.map (·.1)).foldl (fun d p =>
        let k := (d.port p).phase
        if 1 ≤ k && k ≤ 5 then d.portDown p 1 else d) d).auxHandover
    else d)

end Sys2Proof.Machine
end

