-- ==== Sys2Proof/Machine/Header.lean ====
section
/-!
DEFINITION. A frame's arrival (spec/05_quarry_central_store.md R151), the copies of R169 as they are written, the Punty
sampler (R174, R175), the Cullet tag (spec/10_telemetry_and_counters.md R313), the parser (spec/03_parser_and_pipelines.md
R80 to R85) and the ingress slot.
-/

namespace Sys2Proof.Machine

/-! ## Copies of R169 -/

/-- A frame forwarded as itself, or one made of another frame. -/
def PktKind.isCopy (k : PktKind) : Bool := k != .frame && k != .result

/-- The bytes that a copy keeps of `n` bytes received. -/
def Pkt.kept (p : Pkt) (n : Nat) : Nat := if p.keep = 0 then n else min p.keep n

/-- A copy that found no room is counted (R169, R177). -/
def Dev.copyDrop (d : Dev) (p : Pkt) : Dev :=
  match p.kind with
  | .sample => d.inc F.PNT_DROP_SPACE_COUNT [p.port]
  | .hostCopy => d.inc F.QRY_COPY_DROP_COUNT [p.port, 0]
  | .mirror => d.inc F.QRY_COPY_DROP_COUNT [p.port, 1]
  | .egrMirror => d.inc F.QRY_COPY_DROP_COUNT [mdGet p.md mdEgrPort, 2]
  | .egrHostCopy => d.inc F.QRY_COPY_DROP_COUNT [mdGet p.md mdEgrPort, 3]
  | _ => d

/-- A stored copy is gone: its cells are free, and its record too. -/
def Dev.dropPkt (d : Dev) (u : Nat) : Dev :=
  let d := d.freeFrame u
  { d with dp := { d.dp with pkts := d.dp.pkts.filter (fun p => p.uid != u) } }

/-- A copy that is being written is abandoned. -/
def Dev.abandon (d : Dev) (p : Pkt) : Dev := (d.copyDrop p).dropPkt p.uid

/-- The cells of a copy up to `target` are written, each charged to U; the copy is abandoned when the shared pool has no
room for one. -/
def Dev.growCopy (d : Dev) (u target : Nat) : Nat → Dev
  | 0 => d
  | fuel + 1 =>
    match d.pkt u with
    | none => d
    | some p =>
      if target ≤ p.chain.length then d
      else if d.poolS < d.poolU + 1 then d.abandon p
      else
        let e := d.writeCells u 1
        match e.pkt u with
        | none => e
        | some q =>
          if q.noCell then e.abandon q
          else (e.modPkt u (fun p => { p with uHeld := p.uHeld + 1 })).growCopy u target fuel

/-- A copy of frame `u` takes the cells of the bytes received so far. -/
def Dev.growTo (d : Dev) (c : Pkt) (n : Nat) : Dev := d.growCopy c.uid (min 64 (cellsOf (c.kept n))) 65

/-- A new copy of a frame begins: it takes the frame's bytes received so far. Its own cells start at its frame's bank group: R147 is
silent on copies (DESIGN CHOICE, log 279). -/
def Dev.beginCopy (d : Dev) (src : Pkt) (c : Pkt) : Dev :=
  let (u, d) := d.newUid
  let c := { c with uid := u, src := src.uid, pipe := src.pipe, port := src.port, g0 := src.g0, open_ := true
                    slots := src.slots, hdrs := src.hdrs, bytes := [] }
  (d.addPkt c).growTo c src.bytes.length

/-- COPY_ABANDON: a copy that is still being written finds U + 1 > S (R169); in the safe state nothing that is stored is freed
(R408). -/
def execCopyAbandon (copy : Nat) (s : State) : Host.Outcome State Fault Refusal :=
  s.run (fun d =>
    match d.pkt copy with
    | some p => if p.kind.isCopy && p.open_ && d.poolS < d.poolU + 1 && !d.safe then d.abandon p else d
    | none => d)

/-! ## Arrival (R151) -/

/-- Further bytes of frame `u` arrive: cells are written for them, 64 at most, and the frame's copies grow. -/
def Dev.arrive (d : Dev) (u : Nat) (more : List Byte) (ended : Bool) : Dev :=
  let d := d.modPkt u (fun p => { p with bytes := p.bytes ++ more, ended := ended })
  match d.pkt u with
  | none => d
  | some p =>
    let n := p.bytes.length
    let d := if p.noCell || (p.ct && p.refs = 0) then d else d.writeCells u (min 64 (cellsOf n) - p.chain.length)
    (d.dp.pkts.filter (fun c => c.src == u && c.open_)).foldl (fun d c => d.growTo c n) d

/-- A frame begins to be stored: its first bank group rotates per ingress pipeline (R147). -/
def Dev.newFrame (d : Dev) (p : Nat) (bytes : List Byte) (ended : Bool) (job : Option Nat) : Dev × Nat :=
  let n := p / 32
  let (g, d) := d.firstGroup n
  let (u, d) := d.newUid
  ((d.addPkt { uid := u, pipe := n, port := p, g0 := g, job := job, open_ := true }).arrive u bytes ended, u)

/-! ## The Punty sampler (R174, R175) -/

/-- The gap to the next selection at port p: N, or uniform from 1 to 2N − 1 by a free value (log 2). -/
def Dev.pntGapOf (d : Dev) (p : Nat) : Dev × Nat :=
  let n := d.rd F.PNT_PORT_CFG_N_M1 [p] + 1
  if d.on F.PNT_PORT_CFG_RAND [p] then ((d.free).2, 1 + (d.free).1.toNat % (2 * n - 1)) else (d, n)

/-- A token of the global bucket of 64, in millionths; none is needed while KSPS = 0. -/
def Dev.pntToken (d : Dev) : Dev × Bool :=
  let k := d.rd F.PNT_RATE_KSPS []
  let t := min 64000000 (d.dp.pntTokens + (d.rst.mono - d.dp.pntAt) * k)
  let d := { d with dp := { d.dp with pntTokens := t, pntAt := d.rst.mono } }
  if k = 0 then (d, true)
  else if 1000000 ≤ t then ({ d with dp := { d.dp with pntTokens := t - 1000000 } }, true)
  else (d, false)

/-- Port p counts a frame that takes a slot; the Bool says that it is selected. -/
def Dev.pntCount (d : Dev) (p : Nat) : Dev × Bool :=
  if d.on F.PNT_CFG_EN [] && d.on F.PNT_PORT_CFG_EN [p] then
    let r := Sparse.get 0 d.dp.pntGap p
    let (d, r) := if r = 0 then d.pntGapOf p else (d, r)
    ({ d with dp := { d.dp with pntGap := Sparse.set 0 d.dp.pntGap p (r - 1) } }, r == 1)
  else (d, false)

/-- The sampler at frame `u`'s slot: a selection counts, takes a token, and begins the sample. -/
def Dev.punty (d : Dev) (u : Nat) : Dev :=
  match d.pkt u with
  | none => d
  | some f =>
    let (d, sel) := d.pntCount f.port
    if !sel then d
    else
      let seq := d.rd F.PNT_SEQ_COUNT [f.port]
      let d := (d.inc F.PNT_SEL_COUNT [f.port]).wr F.PNT_SEQ_COUNT [f.port] ((seq + 1) % 2 ^ 32)
      let d := d.modPkt u (fun p => { p with selected := true })
      let (d, ok) := d.pntToken
      if !ok then d.inc F.PNT_RATE_DROP_COUNT []
      else
        let len := max 128 (min 4096 (d.rd F.PNT_PORT_LEN_LEN [f.port]))
        d.beginCopy f { kind := .sample, keep := len, seq := seq }

/-! ## The Cullet tag (R313) -/

/-- A free trace ID; a free value says where the search begins (log 2). -/
def Dev.newTrace (d : Dev) : Dev × Option Nat :=
  let (v, d) := d.free
  match ((List.range 4096).map (fun i => (v.toNat + i) % 4096)).find? (fun t => !d.tlm.traces.contains t) with
  | some t => ({ d with tlm := { d.tlm with traces := d.tlm.traces ++ [t] } }, some t)
  | none => (d, none)

/-- Pipeline n counts a frame from a port whose bit is set; a tag that finds no free ID is not applied. -/
def Dev.culTag (d : Dev) (n p : Nat) : Dev × Option Nat :=
  if d.on F.CUL_CFG_EN [] && d.on F.CUL_RATE_EN [n] && bitAt (d.rd F.CUL_PORTS_PORTS [n]) (p % 32) then
    let r := Sparse.get 0 d.tlm.gaps n
    let m := d.rd F.CUL_RATE_N_M1 [n] + 1
    let (d, r) := if r = 0 then ((d.free).2, 1 + (d.free).1.toNat % (2 * m - 1)) else (d, r)
    let d := { d with tlm := { d.tlm with gaps := Sparse.set 0 d.tlm.gaps n (r - 1) } }
    if r ≠ 1 then (d, none)
    else match d.newTrace with
      | (d, some t) => ((d.inc F.CUL_TAGGED_COUNT []).pmc n 0x17 1, some t)
      | (d, none) => (d.inc F.CUL_NO_ID_COUNT [], none)
  else (d, none)

/-! ## The parser (R81 to R84) -/

/-- What a walk leaves: the header map, the headers passed in order, HDR_VALID, the drop codes found, L4_OFF, PAYLOAD_OUT,
the transitions made, and the source of an error of an entry that it used (R393). -/
structure Walk where
  slots : Sparse (Nat × Nat) := []
  hdrs : List (Nat × Nat) := []
  valid : Nat := 0
  codes : List Nat := []
  l4 : Nat := 0
  out : Bool := false
  trans : Nat := 0
  bad : Nat := 0
  deriving DecidableEq, Repr

def Walk.drop (r : Walk) (c : Nat) : Walk := { r with codes := r.codes ++ [c] }

/-- Key of entry `i` of bank `b` of parser `n`. -/
def prsAt (n b i : Nat) : Nat := (2 * n + b) * 512 + i

/-- The valid entries of a bank, in index order; above bit 127, the source of an error of the entry (R393). -/
def Dev.prsBank (d : Dev) (n b : Nat) : List Nat :=
  ((d.dp.prs.filter (fun e => e.1 / 512 == 2 * n + b && bitAt e.2 127))).map (fun e =>
    e.2 % 2 ^ 128 + Sparse.get 0 d.dp.badPrs e.1 * 2 ^ 128)

/-- An entry matches a state and a lookahead. -/
def prsMatch (e state la : Nat) : Bool :=
  bitsOf e 126 119 == state && Nat.land la (bitsOf e 86 55) == Nat.land (bitsOf e 118 87) (bitsOf e 86 55)

/-- A header's length by its entry, given the byte at LEN_FOFF. -/
def prsLen (e byte : Nat) : Nat :=
  bitsOf e 45 38 +
    if bitAt e 37 then (Nat.land byte (bitsOf e 30 23) + bitsOf e 19 18) * 2 ^ bitsOf e 22 20 else 0

/-- A header passed: recorded in its slot, its fixed checks run. -/
def Walk.pass (r : Walk) (w : List Byte) (flen e pos : Nat) : Walk :=
  let cls := bitsOf e 54 50
  let r := { r with hdrs := r.hdrs ++ [(cls, pos)], codes := r.codes ++ headerChecks w flen cls pos }
  if bitAt e 49 && cls ≠ 0 then
    { r with slots := Sparse.put r.slots (bitsOf e 48 46) (some (cls, pos)), valid := putBit r.valid cls true }
  else r

/-- The walk of R81 over the entries of a bank; the fuel is the number of transitions left. -/
def walk (es : List Nat) (w : List Byte) (flen : Nat) (missErr : Bool) : Nat → Nat → Nat → Nat → Walk → Walk
  | 0, _, _, _, r => r.drop 0x03
  | fuel + 1, state, pos, lo, r =>
    if 256 < pos + lo + 4 then r.drop 0x03
    else if flen < pos + lo + 4 then r.drop 0x04
    else match es.find? (fun e => prsMatch e state (winVal w (pos + lo) 4)) with
      | none => if missErr then r.drop 0x05 else { r with l4 := pos }
      | some e =>
        let r := { r with bad := max r.bad (e / 2 ^ 128) }
        let at_ := pos + bitsOf e 36 31
        if bitAt e 37 && 256 ≤ at_ then r.drop 0x03
        else if bitAt e 37 && flen ≤ at_ then r.drop 0x04
        else
          let len := prsLen e (byteAt w at_)
          if 256 < pos + len then r.drop 0x03
          else if flen < pos + len then r.drop 0x04
          else
            let r := r.pass w flen e pos
            let r := { r with trans := r.trans + if bitAt e 2 then 0 else 1 }
            if bitAt e 2 then r.drop 0x05
            else if bitAt e 3 then
              { r with l4 := if pos + len = 256 then 0 else pos + len, out := pos + len == 256 }
            else walk es w flen missErr fuel (bitsOf e 17 10) (pos + len) (bitsOf e 9 4) r

/-- Parser n walks a window from the port's start (R81, R85). -/
def Dev.parse (d : Dev) (p : Nat) (w : List Byte) (flen : Nat) : Walk :=
  let n := p / 32
  walk (d.prsBank n (d.cm F.PRS_CFG_BANK [n])) w flen (d.onC F.PRS_CFG_MISS_ERR [n]) 24
    (d.cm F.PRS_PORT_CFG_START_STATE [n, p % 32]) 0 (d.cm F.PRS_PORT_CFG_START_LA_OFF [n, p % 32]) {}

/-- The codes that stand: parser codes always, a check's code while PIPE_CHK_EN enables it (R105). -/
def Dev.standing (d : Dev) (n : Nat) (codes : List Nat) : List Nat :=
  codes.filter (fun c => c < 6 || bitAt (d.rd F.PIPE_CHK_EN_EN [n]) (c - 6))

/-! ## Words in error (R393) -/

/-- A packet of instance n has used a word in error: the error is found again, in the pair's collector alone. The spec does not say
at which address: the syndrome is free (log 297). -/
def Dev.badUse (d : Dev) (n src : Nat) : Dev :=
  let (v, d) := d.free
  d.raise (7 + n % 32) src (v.toNat % 2 ^ 32)

/-! ## Programs (R88, R89) -/

/-- The words of a bank of instance `n`, by their place in `Pass.prog`. -/
def Dev.progOf (d : Dev) (n b : Nat) : Sparse Nat :=
  (d.dp.prog.filter (fun e => e.1 / 65536 == 2 * n + b)).map (fun e => (e.1 % 65536, e.2))

/-- KIND of a stage's configuration word; 4 to 7 are treated as 0. -/
def kindOf (c : Nat) : Nat := if 4 ≤ bitsOf c 31 29 then 0 else bitsOf c 31 29

/-- Stages of a kind that a program may use (R89). -/
def kindLimit (egress : Bool) (k : Nat) : Nat :=
  match k with
  | 1 => if egress then 2 else 4
  | 2 => if egress then 0 else 2
  | _ => 16

/-- LKUP_REJ of a program: the stages of each kind beyond its limit. -/
def lkupRej (prog : Sparse Nat) (egress : Bool) : Nat :=
  let kind := fun k => kindOf (Sparse.get 0 prog (progConfig k))
  bitsFrom (if egress then 12 else 16) (fun k =>
    kind k != 0 && kindLimit egress (kind k) ≤ ((List.range k).filter (fun j => kind j == kind k)).length)

/-- The program bank in force in instance n, and its LKUP_REJ: PIPE_STAT[n]. -/
def Dev.progNow (d : Dev) (n : Nat) : Sparse Nat := d.progOf n (d.cm F.PIPE_CFG_PROG_BANK [n])

/-- The words of that bank that are in error. -/
def Dev.badNow (d : Dev) (n : Nat) : Sparse Nat :=
  (d.dp.badProg.filter (fun e => e.1 / 65536 == 2 * n + d.cm F.PIPE_CFG_PROG_BANK [n])).map (fun e => (e.1 % 65536, e.2))

def Dev.rejNow (d : Dev) (n : Nat) : Nat := lkupRej (d.progNow n) (32 ≤ n)

/-! ## Stages (R88, R101, R111) -/

/-- The four instructions of an action word. -/
def insnsOf (w : Nat) : List Nat := (List.range 4).map (fun k => bitsOf w (64 * k + 63) (64 * k))

/-- A new packet in instance `pipe`, with the program and the table banks of this moment (R85, R138). -/
def Dev.newPass (d : Dev) (pipe : Nat) (x : Pass) : Dev × Pass :=
  let (u, d) := d.newUid
  let d := (d.pmc pipe 0x10 1).pmc pipe 0x11 (b2n x.empty)
  let x := { x with uid := u, pipe := pipe, prog := d.progNow pipe, badAt := d.badNow pipe, rej := d.rejNow pipe }
  (d, { x with em := d.activeEm, lpm := d.activeLpm })

/-- The packet uses a word of its program: one in error is found, and the packet is freed at the end of its pipeline (R393). -/
def Dev.useWord (d : Dev) (x : Pass) (at_ : Nat) : Dev × Pass :=
  let s := Sparse.get 0 x.badAt at_
  if s = 0 then (d, x) else (d.badUse x.pipe s, { x with bad := true })

/-- The action word of the stage is used. -/
def Dev.takeAction (d : Dev) (x : Pass) (hit : Bool) (a v : Nat) : Dev × Pass :=
  let at_ := progAction x.stage a
  let (d, x) := d.useWord x at_
  (d, { x with hit := hit, act := a, adata := v, todo := insnsOf (Sparse.get 0 x.prog at_) })

/-- The job that a packet's frame came from (R290). -/
def Dev.jobOf (d : Dev) (u : Nat) : Option Nat :=
  match d.pkt u with
  | some p => p.job
  | none => none

/-- The stage's lookup by its kind: the hit's action index and data. Egress passes are charged to no job (R260, R290). -/
def Dev.stageLookup (d : Dev) (x : Pass) (kind prof : Nat) : Dev × Option (Nat × Nat) :=
  let dir := b2n x.egress
  let key := x.key prof
  let job := if x.egress then none else d.jobOf x.pkt
  match kind with
  | 1 => (d.charge job 1 1).emLookup x.em (d.cm F.TBL_STAGE_CFG_TAG [dir, x.stage]) (beVal (padKey 18 key))
  | 2 =>
    let fam := d.cm F.TBL_STAGE_CFG_FAM [dir, x.stage]
    let k := padKey 18 key
    let addr := if fam = 0 then beVal (sliceOf k 2 4) * 2 ^ 96 else beVal (sliceOf k 2 16)
    (d.charge job 1 1).lpmLookup x.lpm fam (beVal (sliceOf k 0 2) % 4096) addr
  | 3 =>
    let (d, n, h) := d.tcamLookup dir x.stage (beVal (padKey 40 key))
    (d.charge job 2 n, h)
  | _ => (d, none)

/-- The packet begins its stage: lookup, action word (R88); an empty slot does neither (R101, R106). -/
def Dev.enterStage (d : Dev) (x : Pass) : Dev × Pass :=
  let x := { x with next := x.stage + 1, hit := false, act := 0, adata := 0, todo := [] }
  if x.empty then (d, x)
  else
    let c := Sparse.get 0 x.prog (progConfig x.stage)
    let kind := if bitAt x.rej x.stage then 0 else kindOf c
    let (d, x) := d.useWord x (progConfig x.stage)
    let (d, x) := if kind = 0 then (d, x) else d.useWord x (progProfile (bitsOf c 28 24))
    let (d, h) := d.stageLookup x kind (bitsOf c 28 24)
    let d := if kind = 0 then d else d.pmc x.pipe (if h.isSome then 0x13 else 0x14) 1
    match h with
    | some (a, v) => d.takeAction x true a v
    | none => if bitAt c 12 then d.takeAction x false (bitsOf c 23 13) 0 else (d, x)

/-- The packet leaves its stage: the record of R314, and the stage that follows. -/
def Dev.leaveStage (d : Dev) (x : Pass) : Dev × Pass :=
  let c := Sparse.get 0 x.prog (progConfig x.stage)
  let kind := if x.empty || bitAt x.rej x.stage then 0 else kindOf c
  let port := if x.egress then some (x.md' mdEgrPort) else none
  let d := d.cullet (d.traceOf x.pkt) ((if x.egress then 0x40 else 0x10) + x.stage) (some (if x.egress then 6 else 1)) port
    ([BitVec.ofNat 8 kind, BitVec.ofNat 8 (b2n x.hit)] ++ leBytes 2 x.act ++
      [BitVec.ofNat 8 (x.md' mdDropCode), BitVec.ofNat 8 (x.md' mdDestType)])
  (d, { x with stage := x.next })

/-- Stages whose instructions have all run are left, until one has an instruction or the last stage is over. -/
def Dev.advance (d : Dev) (x : Pass) : Nat → Dev × Pass
  | 0 => (d, x)
  | fuel + 1 =>
    if !x.todo.isEmpty || x.stages ≤ x.stage then (d, x)
    else
      let (d, x) := d.leaveStage x
      if x.stages ≤ x.stage then (d, x)
      else
        let (d, x) := d.enterStage x
        d.advance x fuel

/-- A packet starts at stage 0. -/
def Dev.startPass (d : Dev) (pipe : Nat) (x : Pass) : Dev :=
  let (d, x) := d.newPass pipe x
  let (d, x) := d.enterStage x
  let (d, x) := d.advance x 17
  d.addPass x

/-! ## The ingress slot (R77, R79, R80, R86, R87) -/

/-- Metadata at the ingress slot. -/
def slotMd (p ts plen : Nat) (r : Walk) (codes : List Nat) (tagged : Bool) : Sparse Nat :=
  let md := mdSet [] mdIngTs ts
  let md := mdSet (mdSet md mdPktLen plen) mdIngPort p
  let md := mdSet (mdSet md mdPipeId (p / 32)) mdHdrValid r.valid
  let md := mdSet (mdSet md mdL4Off r.l4) mdPayloadOut (b2n r.out)
  let md := mdSet md mdCullet (b2n tagged)
  match codes.min? with
  | some c => mdSet md mdDropCode c
  | none => md

/-- The frame's packet takes its slot: sampled, tagged, parsed, checked, and sent into the stages. -/
def Dev.takeSlot (d : Dev) (u p ts : Nat) : Dev :=
  let n := p / 32
  let d := d.punty u
  let (d, trace) := d.culTag n p
  match d.pkt u with
  | none => d
  | some f =>
    let w := windowOf f.bytes
    let inWin := f.ended && f.bytes.length ≤ 256
    let r := d.parse p w f.bytes.length
    let codes := d.standing n ((if inWin && f.bytes.length < 64 then [0x02] else []) ++ r.codes)
    let lip := ipLength w r.hdrs
    let plen := pktLenOf inWin f.bytes.length lip (d.rd F.PIPE_PORT_CFG_DEF_LEN [n, p % 32])
    let md := slotMd p ts plen r codes trace.isSome
    let d := d.modPkt u (fun f => { f with lip := lip, slots := r.slots, hdrs := r.hdrs, trace := trace, md := md })
    let d := d.cullet trace 0x01 (some 0) none (leBytes 2 p ++ leBytes 2 plen ++ leBytes 4 r.valid)
    let d := d.cullet trace 0x02 (some 0) none
      [BitVec.ofNat 8 r.l4, BitVec.ofNat 8 r.trans, BitVec.ofNat 8 (mdGet md mdDropCode)]
    let d := if r.bad = 0 then d else d.badUse n r.bad
    (d.charge f.job 0 1).startPass n { pkt := u, md := md, slots := r.slots, hdrs := r.hdrs, win := w, empty := !codes.isEmpty
                                       bad := r.bad != 0 }

/-! ## The entry buffer and its arbiter (R79, R204, R348) -/

/-- A header that finds its port's entries full (R79). -/
def Dev.entryOvr (d : Dev) (u p : Nat) : Dev :=
  let d := ((d.inc F.PIPE_IN_OVR_COUNT [p / 32, p % 32]).inc F.PIPE_DROP_COUNT [p / 32, 1]).pmc (p / 32) 0x18 1
  d.modPkt u (fun f => { f with dropped := true, md := mdSet f.md mdDropCode 1 })

/-- The injected frame that the entry arbiter serves next in pipeline n. -/
def Dev.nextInject (d : Dev) (n : Nat) : Option Injected := d.dp.inject.find? (fun x => x.port / 32 == n)

/-- Headers of port p that wait, and the entries that the port owns. -/
def Dev.entriesOf (d : Dev) (p : Nat) : List Entry := d.dp.entries.filter (fun e => e.port == p)
def Dev.entryRoom (d : Dev) (p : Nat) : Nat := 64 * (d.portLanes p).length

/-- A MAC control frame, by its EtherType directly after the source address (R78). -/
def isControl (frame : List Byte) : Bool := sliceOf frame 12 2 == [0x88, 0x08]

/-- The header window of a frame arrives at port p: the frame begins to be stored with the PCS's mark on it, one that the PCS cuts
off at its end (R58, R61). -/
def Dev.wireFrame (d : Dev) (p : Nat) (w : List Byte) (ended : Bool) : Dev × Nat :=
  let (d, m) := (d.pmc (64 + p / 32) 0x20 1).takeMark p
  let (d, u) := d.newFrame p w (ended || m == .truncated) none
  (d.modPkt u (fun f => { f with mark := m }), u)

/-- A header from the wire enters its port's entries, or is dropped because they are full. -/
def Dev.headerIn (d : Dev) (p : Nat) (w : List Byte) (ended : Bool) (sfd : Nat) : Dev :=
  let (d, u) := d.wireFrame p w ended
  if d.entryRoom p ≤ (d.entriesOf p).length then d.entryOvr u p
  else { d with dp := { d.dp with entries := d.dp.entries ++ [{ port := p, pkt := u, ts := tsAdjust sfd (d.rd F.TLM_TS_ADJ_RX_ADJ [p]) }] } }

/-- The sources of pipeline n with a header that waits: its ports, and at 1024 + n its injection entries, which rank behind the
ports on a tie (DESIGN CHOICE, log 278). -/
def Dev.entryReady (d : Dev) (n : Nat) : List Nat :=
  ((List.range 32).map (fun i => 32 * n + i)).filter (fun p => !(d.entriesOf p).isEmpty) ++
    if (d.nextInject n).isSome then [1024 + n] else []

/-- The weight of a source: its port's lanes, one for the injection entries. -/
def Dev.entryWeight (d : Dev) (x : Nat) : Nat := if x < 1024 then (d.portLanes x).length else 1

/-- A source without a waiting header has credit 0 (R204). -/
def Dev.settleEntries (d : Dev) : Dev :=
  { d with dp := { d.dp with entryCredit := Sparse.keep d.dp.entryCredit (fun x =>
      if x < 1024 then !(d.entriesOf x).isEmpty else (d.nextInject (x - 1024)).isSome) } }

/-- The oldest header of port p takes its slot. -/
def Dev.serveEntry (d : Dev) (p : Nat) : Dev :=
  match d.entriesOf p with
  | [] => d
  | e :: _ => ({ d with dp := { d.dp with entries := d.dp.entries.erase e } }).takeSlot e.pkt p e.ts

/-- The job of the frame in ingress pass `u` is DONE, and ends when the energy of the pass is known (R290, R348). -/
def Dev.sealJob (d : Dev) (job len u : Nat) : Dev :=
  { d with hif := { d.hif with jobs := d.hif.jobs.map (fun j => if j.id = job then { j with sealed := some (len, u) } else j) } }

/-- An injected frame's last cell is written: it counts, and its job is done (R348); the completion carries the energy of the
frame's ingress pass, so it is written when that pass has ended (DEDUCED, log 312). -/
def Dev.injectDone (d : Dev) (u : Nat) : Dev :=
  let d := d.inc F.HIF_INJ_FRAMES_COUNT []
  match d.pkt u, d.dp.passes.find? (fun x => x.pkt == u && x.copy.isNone) with
  | some p, some x => (match p.job with
    | some j => d.sealJob j p.bytes.length x.uid
    | none => d)
  | _, _ => d

/-- Ingress passes have ended: the jobs that wait for one of them end. -/
def Dev.sealedEnd (d : Dev) (ended : Nat → Bool) : Dev :=
  (d.hif.jobs.filter (fun j => j.sealed.any (fun x => ended x.2))).foldl (fun d j => d.finishJob j.id 0 0 0 0) d

/-- Ingress pass `u` is over. -/
def Dev.passOver (d : Dev) (u : Nat) : Dev := (d.dropPass u).sealedEnd (fun v => v == u)

/-- The oldest injected frame of pipeline n takes its slot, with the time of its slot (R298), and its cells are written. -/
def Dev.serveInject (d : Dev) (n : Nat) : Dev :=
  match d.nextInject n with
  | none => d
  | some x =>
    let d := { d with dp := { d.dp with inject := d.dp.inject.erase x } }
    let (d, u) := d.newFrame x.port x.bytes true x.job
    (d.takeSlot u x.port d.ts40).injectDone u

/-- One grant of the entry arbiter of pipeline n, of 4 at most in a clock; without `sameClock` a clock begins. -/
def Dev.entryGrant (d : Dev) (n : Nat) (sameClock : Bool) : Dev :=
  let took := if sameClock then Sparse.get [] d.dp.entryTook n else []
  let d := { d with dp := { d.dp with entryTook := Sparse.set [] d.dp.entryTook n took } }
  if 4 ≤ took.length then d
  else match arbitrate ((d.entryReady n).filter (fun x => !took.contains x)) d.entryWeight (fun x => Sparse.get 0 d.dp.entryCredit x) with
    | none => d
    | some (x, credits) =>
      let d := { d with dp := { d.dp with
        entryTook := Sparse.set [] d.dp.entryTook n (took ++ [x])
        entryCredit := credits.foldl (fun m (c : Nat × Int) => Sparse.set 0 m c.1 c.2) d.dp.entryCredit } }
      (if x < 1024 then d.serveEntry x else d.serveInject n).settleEntries

/-- HEADER_SLOT: a header window arrives at port p and enters its entries, or is dropped because they are full; then, and for
`waiting` alone, the entry arbiter of the port's pipeline gives a slot. A MAC control frame enters no entries (R78), and nothing
enters in the safe state (R407). -/
def execHeaderSlot (p : Fin 1024) (src : SlotSrc) (sameClock : Bool) (s : State) : Host.Outcome State Fault Refusal :=
  s.run (fun d =>
    let n := p.val / 32
    if !d.domOn (128 + n) || d.safe then d
    else match src with
      | .wire w ended sfd =>
        if d.linkUp p.val && w.length ≤ 256 && (ended || w.length == 256) && !isControl w then
          (d.headerIn p.val w ended sfd.toNat).entryGrant n sameClock
        else d
      | .waiting => d.entryGrant n sameClock)

/-- MAC_CONTROL_TERMINATE: a MAC control frame is kept by its port and enters no pipeline (R78). -/
def execMacControlTerminate (p : Fin 1024) (frame : List Byte) (s : State) : Host.Outcome State Fault Refusal :=
  s.run (fun d =>
    if d.linkUp p.val && isControl frame then
      let (d, m) := (d.pmc (64 + p.val / 32) 0x20 1).takeMark p.val
      { d with dp := { d.dp with control := d.dp.control ++ [{ port := p.val, bytes := frame, bad := m != .ok }] } }
    else d)

end Sys2Proof.Machine
end

