-- ==== Sys2Proof/Machine/Pipe.lean ====
section
/-!
DEFINITION. The pipeline instructions (spec/03_parser_and_pipelines.md R92 to R100, R454): one definition per operation, each
executing the next instruction of a packet.
-/

namespace Sys2Proof.Machine

/-- An instruction that executes as NOP is counted (R96). -/
def Dev.badInsn (d : Dev) (x : Pass) : Dev × Pass := ((d.inc F.PIPE_BAD_INSN_COUNT [x.pipe]).pmc x.pipe 0x15 1, x)

/-- Packet `u` executes its next instruction `w`, when `names` admits its operation: `f`, or NOP for a reserved SRC, which is looked at
before R101 skips a METER or LEARN for the packet's drop code (DESIGN CHOICE, log 308). The stage ends with its last instruction. -/
def Dev.insn (d : Dev) (u : Nat) (names : Nat → Bool) (f : Dev → Pass → Nat → Dev × Pass) : Dev :=
  match d.pass u with
  | none => d
  | some x =>
    match x.todo with
    | [] => d
    | w :: t =>
      if names (insnOp w) then
        let x := { x with todo := t }
        let (d, x) := if insnSrc w = 3 then d.badInsn x else f d x w
        let (d, x) := d.advance x 17
        d.setPass x
      else d

/-- Operation codes of R94. -/
def opDefined (op : Nat) : Bool := op ≤ 0x11 || (0x20 ≤ op && op ≤ 0x23)

/-- NOP, and every reserved operation, which executes as NOP and is counted. -/
def execNop (pass : Nat) (s : State) : Host.Outcome State Fault Refusal :=
  s.run (fun d => d.insn pass (fun op => op == 0 || !opDefined op) (fun d x w => if insnOp w = 0 then (d, x) else d.badInsn x))

/-! ## Writes of the destination (R93 to R95) -/

/-- DST ← g(DST, source), cut to the destination's width. -/
def Dev.alu (d : Dev) (x : Pass) (w : Nat) (g : Nat → Nat → Nat → Nat) : Dev × Pass :=
  let sel := insnDst w
  let n := 2 ^ selWidth sel
  if x.mayWrite sel then (d, x.writeSel sel (g n (x.readSel sel % n) (x.source w % n) % n)) else d.badInsn x

/-- SET. -/
def execSet (pass : Nat) (s : State) : Host.Outcome State Fault Refusal :=
  s.run (fun d => d.insn pass (· == 0x01) (fun d x w => d.alu x w (fun _ _ b => b)))

/-- ADD: modulo 2^width. -/
def execAdd (pass : Nat) (s : State) : Host.Outcome State Fault Refusal :=
  s.run (fun d => d.insn pass (· == 0x02) (fun d x w => d.alu x w (fun _ a b => a + b)))

/-- SUB: modulo 2^width. -/
def execSub (pass : Nat) (s : State) : Host.Outcome State Fault Refusal :=
  s.run (fun d => d.insn pass (· == 0x03) (fun d x w => d.alu x w (fun n a b => a + n - b)))

/-- AND. -/
def execAnd (pass : Nat) (s : State) : Host.Outcome State Fault Refusal :=
  s.run (fun d => d.insn pass (· == 0x04) (fun d x w => d.alu x w (fun _ a b => Nat.land a b)))

/-- OR. -/
def execOr (pass : Nat) (s : State) : Host.Outcome State Fault Refusal :=
  s.run (fun d => d.insn pass (· == 0x05) (fun d x w => d.alu x w (fun _ a b => Nat.lor a b)))

/-- XOR. -/
def execXor (pass : Nat) (s : State) : Host.Outcome State Fault Refusal :=
  s.run (fun d => d.insn pass (· == 0x06) (fun d x w => d.alu x w (fun _ a b => Nat.xor a b)))

/-! ## Destinations (R94, R95) -/

/-- An operation of the ingress pipelines alone. -/
def Dev.ingressOnly (d : Dev) (x : Pass) (g : Pass → Pass) : Dev × Pass := if x.egress then d.badInsn x else (d, g x)

/-- FWD_PORT: DEST_TYPE ← 1, EGR_PORT ← source[9:0]. -/
def execFwdPort (pass : Nat) (s : State) : Host.Outcome State Fault Refusal :=
  s.run (fun d => d.insn pass (· == 0x07) (fun d x w =>
    d.ingressOnly x (fun x => (x.setMd mdDestType 1).setMd mdEgrPort (x.source w))))

/-- FWD_MC: DEST_TYPE ← 2, MC_GROUP ← source[15:0]. -/
def execFwdMc (pass : Nat) (s : State) : Host.Outcome State Fault Refusal :=
  s.run (fun d => d.insn pass (· == 0x08) (fun d x w =>
    d.ingressOnly x (fun x => (x.setMd mdDestType 2).setMd mdMcGroup (x.source w))))

/-- FWD_HOST: DEST_TYPE ← 3, TRAP_CODE ← source[7:0]. -/
def execFwdHost (pass : Nat) (s : State) : Host.Outcome State Fault Refusal :=
  s.run (fun d => d.insn pass (· == 0x09) (fun d x w =>
    d.ingressOnly x (fun x => (x.setMd mdDestType 3).setMd mdTrapCode (x.source w))))

/-- COPY_HOST: COPY_HOST ← 1, TRAP_CODE ← source[7:0] (R102). -/
def execCopyHost (pass : Nat) (s : State) : Host.Outcome State Fault Refusal :=
  s.run (fun d => d.insn pass (· == 0x0A) (fun d x w =>
    (d, (x.setMd mdCopyHost 1).setMd mdTrapCode (x.source w))))

/-- DROP: drop code 0x20 + source[3:0] (R104). -/
def execDrop (pass : Nat) (s : State) : Host.Outcome State Fault Refusal :=
  s.run (fun d => d.insn pass (· == 0x0B) (fun d x w => (d, x.raise (0x20 + x.source w % 16))))

/-- MIRROR: MIRROR_SESS ← source[3:0] (R102). -/
def execMirror (pass : Nat) (s : State) : Host.Outcome State Fault Refusal :=
  s.run (fun d => d.insn pass (· == 0x0E) (fun d x w => (d, x.setMd mdMirrorSess (x.source w))))

/-! ## Meters and counters (R97, R99) -/

/-- A METER that a packet without a drop code runs; one that is skipped for its drop code is not looked at for a bad index or a
third METER (DESIGN CHOICE, log 308). -/
def Dev.runMeter (d : Dev) (x : Pass) (w : Nat) : Dev × Pass :=
  let i := x.source w
  if x.md' mdDropCode ≠ 0 then (d, x)
  else if 262144 ≤ i || 2 ≤ x.meters then d.badInsn x
  else
    let (d, c) := d.meterPacket i (x.md' mdPktLen) (x.md' mdColour)
    let x := { x with meters := x.meters + 1 }.setMd mdColour c
    (d, if c = 2 && bitAt (insnDst w) 0 then x.raise (if x.egress then 0x05 else 0x12) else x)

/-- METER: PKT_LEN is charged to a meter, whose result becomes COLOUR. -/
def execMeter (pass : Nat) (s : State) : Host.Outcome State Fault Refusal :=
  s.run (fun d => d.insn pass (· == 0x0C) Dev.runMeter)

/-- COUNT: one packet and PKT_LEN bytes to a flow counter. -/
def execCount (pass : Nat) (s : State) : Host.Outcome State Fault Refusal :=
  s.run (fun d => d.insn pass (· == 0x0D) (fun d x w =>
    let i := x.source w
    if 1048576 ≤ i then d.badInsn x else (d.countFlow i (x.md' mdPktLen), x)))

/-! ## Learning and hashing (R94, R100, R131) -/

/-- A LEARN offers an entry, the first of its packet, while the packet carries no drop code (R101). -/
def Dev.runLearn (d : Dev) (x : Pass) (w : Nat) : Dev × Pass :=
  if x.egress then d.badInsn x
  else if x.md' mdDropCode ≠ 0 || x.learn.isSome then (d, x)
  else
    let dst := insnDst w
    (d.pmc x.pipe 0x16 1, { x with learn := some { tag := bitsOf dst 11 8, key := beVal (padKey 18 (x.key (bitsOf dst 4 0))), data := x.source w % 2 ^ 32 } })

/-- LEARN. -/
def execLearn (pass : Nat) (s : State) : Host.Outcome State Fault Refusal :=
  s.run (fun d => d.insn pass (· == 0x0F) Dev.runLearn)

/-- HASH: FLOW_HASH ← the CRC-32C of a profile's key bytes, preset with the source (R94). -/
def execHash (pass : Nat) (s : State) : Host.Outcome State Fault Refusal :=
  s.run (fun d => d.insn pass (· == 0x10) (fun d x w =>
    (d, x.setMd mdFlowHash (crc32c (x.source w % 2 ^ 32) (x.key (bitsOf (insnDst w) 4 0))))))

/-- SKIP: the next stage is source[4:0], when that is higher than the current one (R95). -/
def execSkip (pass : Nat) (s : State) : Host.Outcome State Fault Refusal :=
  s.run (fun d => d.insn pass (· == 0x11) (fun d x w =>
    let k := x.source w % 32
    (d, if x.stage < k then { x with next := min k x.stages } else x)))

/-! ## Edits of the frame (R94, R96, R106, R107) -/

/-- An edit is made: LENCHG rises; a frame that still arrives then waits for its end (R172). -/
def Dev.edited (d : Dev) (x : Pass) (e : Edit) : Dev × Pass :=
  let d := if x.md' mdLenchg = 0 then d.pmc x.pipe 0x19 1 else d
  let arrives := (d.pkt x.pkt).any (fun f => !f.ended)
  (d, { x with edits := x.edits ++ [e], waits := x.waits || arrives }.setMd mdLenchg 1)

/-- An INSERT4 or REMOVE at the byte that DST names; nothing happens in a slot that no header has written. -/
def Dev.editAt (d : Dev) (x : Pass) (w : Nat) (e : Nat → Edit) : Dev × Pass :=
  let sel := insnDst w
  if !x.egress || !selHeader sel then d.badInsn x
  else match x.slot (selSlot sel) with
    | none => (d, x)
    | some (_, off) => d.edited x (e (selByte sel off))

/-- INSERT4: the 32-bit source before the byte that DST names. -/
def execInsert4 (pass : Nat) (s : State) : Host.Outcome State Fault Refusal :=
  s.run (fun d => d.insn pass (· == 0x20) (fun d x w => d.editAt x w (fun i => .insert i (beBytes 4 (x.source w)))))

/-- REMOVE: source bytes, 1 to 64, from the byte that DST names. A bad byte count whose slot no header has written falls under two
sentences of R96: it is counted as NOP (DESIGN CHOICE, log 289). -/
def execRemove (pass : Nat) (s : State) : Host.Outcome State Fault Refusal :=
  s.run (fun d => d.insn pass (· == 0x21) (fun d x w =>
    let n := x.source w
    if n = 0 || 64 < n then d.badInsn x else d.editAt x w (fun i => .remove i n)))

/-- A write of `n` bits at window bit `b`. -/
def Pass.putBits (x : Pass) (b n v : Nat) : Pass :=
  let v := v % 2 ^ n
  { x with win := winPut x.win b n v, writes := x.writes ++ [{ bit := b, width := n, val := v }] }

/-- DEC_TTL on the IPv4 or IPv6 header of a slot: TTL_ZERO at 1 or less. -/
def Dev.runDecTtl (d : Dev) (x : Pass) (w : Nat) : Dev × Pass :=
  if !x.egress then d.badInsn x
  else match x.slot (selSlot (insnDst w)) with
    | none => (d, x)
    | some (cls, off) =>
      if cls ≠ 3 && cls ≠ 4 then d.badInsn x
      else
        let b := 8 * (off + if cls = 3 then 8 else 7)
        let ttl := winBits x.win b 8
        (d, if ttl ≤ 1 then x.raise 0x03 else x.putBits b 8 (ttl - 1))

/-- DEC_TTL. -/
def execDecTtl (pass : Nat) (s : State) : Host.Outcome State Fault Refusal :=
  s.run (fun d => d.insn pass (· == 0x22) Dev.runDecTtl)

/-! ## IOAM (spec/10_telemetry_and_counters.md R309 to R311) -/

/-- The slot of a class at the greatest offset below `off`. -/
def Pass.below (x : Pass) (cls off : Nat) : Option Nat :=
  x.slots.foldl (fun best e => if e.2.1 = cls && e.2.2 < off && best.getD 0 ≤ e.2.2 then some e.2.2 else best) none

/-- What an IOAM option holds: its byte, its IPv6 and Hop-by-Hop headers, and the fields of the trace option header. -/
structure IoamOpt where
  off : Nat
  ip : Nat
  hbh : Nat
  inc : Bool
  ns : Nat
  nodeLen : Nat
  room : Nat
  types : Nat
  optLen : Nat
  deriving DecidableEq, Repr

/-- The option in a slot, when R309's conditions hold. The option type 0x31 is that of RFC 9486 for trace options (PRESUMED,
log 50). -/
def Pass.ioamOpt (x : Pass) (slot : Nat) : Option IoamOpt :=
  match x.slot slot with
  | some (13, off) =>
    match x.below 4 off, x.below 5 off with
    | some ip, some hbh =>
      let ty := winVal x.win (off + 3) 1
      let h := winVal x.win (off + 6) 2
      if winVal x.win off 1 = 0x31 && ty ≤ 1 then
        some { off := off, ip := ip, hbh := hbh, inc := ty == 1, ns := winVal x.win (off + 4) 2, nodeLen := bitsOf h 15 11
               room := bitsOf h 6 0, types := winVal x.win (off + 8) 3, optLen := winVal x.win (off + 1) 1 }
      else none
    | _, _ => none
  | _ => none

/-- Trace-Type bit `i`, bit 0 the most significant (R310). -/
def IoamOpt.has (o : IoamOpt) (i : Nat) : Bool := bitAt o.types (23 - i)

/-- The namespace entry that serves an option. -/
def Dev.ioamNs (d : Dev) (ns : Nat) : Option Nat :=
  if ns = 0 then some 0
  else (List.range 4).find? (fun k => d.on F.TLM_IOAM_NS_ID_EN [k] && d.rd F.TLM_IOAM_NS_ID_NS_ID [k] == ns)

/-- The full ingress time of a packet in ns, from its ING_TS and the time now (R299). -/
def Dev.fullTime (d : Dev) (ts : Nat) : Nat := (d.ns + 2 ^ 64 - nsDiff d.ns (tsNs ts)) % 2 ^ 64

/-- Node data of Trace-Type bit `i`, 0 to 11 (R310). -/
def Dev.ioamData (d : Dev) (x : Pass) (hop k i : Nat) : List Byte :=
  let t := d.fullTime (x.md' mdIngTs)
  let port := x.md' mdIngPort
  let egr := x.md' mdEgrPort
  match i with
  | 0 => beBytes 1 hop ++ beBytes 3 (d.rd F.TLM_IOAM_NS_NODE_S_NODE_S [k])
  | 1 => beBytes 2 port ++ beBytes 2 egr
  | 2 => beBytes 4 (t / 1000000000 % 2 ^ 32)
  | 3 => beBytes 4 (t % 1000000000)
  | 4 =>
    let y := nsDiff (tsNs (x.md' mdEgrQTs)) (tsNs (x.md' mdIngTs)) + 185
    beBytes 4 (if 2 ^ 31 ≤ y then 0x80000000 else y)
  | 5 => beBytes 4 (d.rd F.TLM_IOAM_NS_DATA_S_DATA_S [k])
  | 6 => beBytes 4 x.depth
  | 8 => beBytes 1 hop ++ beBytes 3 (d.rd F.TLM_IOAM_NS_NODE_W_HI_NODE_W_HI [k]) ++
      beBytes 4 (d.rd F.TLM_IOAM_NS_NODE_W_LO_NODE_W_LO [k])
  | 9 => beBytes 4 port ++ beBytes 4 egr
  | 10 => beBytes 4 (d.rd F.TLM_IOAM_NS_DATA_W_HI_DATA_W_HI [k]) ++ beBytes 4 (d.rd F.TLM_IOAM_NS_DATA_W_LO_DATA_W_LO [k])
  | 11 => beBytes 4 x.used
  | _ => beBytes 4 0xFFFFFFFF

/-- L: the words of the data for bits 0 to 11. -/
def IoamOpt.words (o : IoamOpt) : Nat :=
  sumBy (List.range 12) (fun i => if o.has i then (if 8 ≤ i && i ≤ 10 then 2 else 1) else 0)

/-- Some bit of 12 to 21 is set. -/
def IoamOpt.undef (o : IoamOpt) : Bool := (List.range 10).any (fun i => o.has (12 + i))

/-- N: the words of node data. -/
def IoamOpt.n (o : IoamOpt) : Nat := o.nodeLen + b2n (o.has 22)

/-- The node data. -/
def Dev.ioamNode (d : Dev) (x : Pass) (o : IoamOpt) (k : Nat) : List Byte :=
  let hop := match d.pkt x.pkt with
    | some p => byteAt p.bytes (o.ip + 7)
    | none => 0
  let body := ((List.range 12).map (fun i => if o.has i then d.ioamData x hop k i else [])).flatten
  let fill := List.replicate (4 * (o.nodeLen - o.words)) 0xFF
  body ++ (if o.undef then fill else []) ++ (if o.has 22 then [0x00, 0xFF, 0xFF, 0xFF] else [])

/-- The case of R311 in which an option is left unchanged. -/
def Dev.ioamCase (d : Dev) (o : IoamOpt) : Nat ⊕ Nat :=
  match d.ioamNs o.ns with
  | none => .inl 2
  | some k =>
    if o.has 23 then .inl 3
    else if o.nodeLen < o.words || (o.words ≠ o.nodeLen && !o.undef) then .inl 4
    else if o.inc && (4 * o.n % 8 ≠ 0 || 255 < o.optLen + 4 * o.n) then .inl 5
    else .inr k

/-- Bytes written into the window one after another. -/
def Pass.putBytes (x : Pass) (i : Nat) (bs : List Byte) : Pass :=
  (bs.zipIdx).foldl (fun x b => x.putBits (8 * (i + b.2)) 8 b.1.toNat) x

/-- The option is served: written, inserted, or its O flag set. -/
def Dev.ioamServe (d : Dev) (x : Pass) (o : IoamOpt) (k : Nat) : Dev × Pass :=
  if o.room < o.n then (d.inc F.TLM_IOAM_CNT_COUNT [6], x.putBits (8 * (o.off + 6) + 5) 1 1)
  else
    let node := d.ioamNode x o k
    let d := (d.inc F.TLM_IOAM_CNT_COUNT [0]).pmc x.pipe 0x1A 1
    let y := x.putBits (8 * (o.off + 6) + 9) 7 (o.room - o.n)
    if o.inc then
      let y := y.putBits (8 * (o.off + 1)) 8 (o.optLen + 4 * o.n)
      let y := y.putBits (8 * (o.hbh + 1)) 8 (winVal x.win (o.hbh + 1) 1 + 4 * o.n / 8)
      let y := y.putBits (8 * (o.ip + 4)) 16 (winVal x.win (o.ip + 4) 2 + 4 * o.n)
      d.edited y (.insert (o.off + 12) node)
    else (d, y.putBytes (o.off + 12 + 4 * (o.room - o.n)) node)

/-- INSERT_IOAM. -/
def Dev.runIoam (d : Dev) (x : Pass) (w : Nat) : Dev × Pass :=
  if !x.egress then d.badInsn x
  else if x.md' mdIoam = 0 then (d, x)
  else match x.ioamOpt (selSlot (insnDst w)) with
    | none => (d.inc F.TLM_IOAM_CNT_COUNT [1], x)
    | some o => match d.ioamCase o with
      | .inl r => (d.inc F.TLM_IOAM_CNT_COUNT [r], x)
      | .inr k => d.ioamServe x o k

/-- INSERT_IOAM: trace data after the header in a slot. -/
def execInsertIoam (pass : Nat) (s : State) : Host.Outcome State Fault Refusal :=
  s.run (fun d => d.insn pass (· == 0x23) Dev.runIoam)

end Sys2Proof.Machine
end

