-- ==== Sys2Proof/Machine/Sched.lean ====
section
/-!
DEFINITION. What the egress schedulers decide by (spec/07_egress_scheduling.md): charges (R203), pauses (R220), time
gates (R209 to R213) and the Lehr (R215 to R219).
-/

namespace Sys2Proof.Machine

/-! ## Charges (R203) -/

/-- L (R203). -/
def Dev.chargeLen (d : Dev) (p : Nat) (c : Copy) : Nat := c.len + d.rd F.EGR_PORT_CFG_OVHD [p]

/-! ## Pauses (R220, R222) -/

/-- The priority of a queue; 8 to 15 name none. -/
def Dev.pfcPri (d : Dev) (p q : Nat) : Nat := d.cm F.EGR_Q_CFG_PFC_PRI [p, q]

/-- The watchdog has tripped for priority g. -/
def Dev.wdTripped (d : Dev) (p g : Nat) : Bool := g < 8 && bitAt (d.rd F.EGR_PORT_STAT_WD_TRIP [p]) g

/-- The timer of priority g runs. -/
def Dev.priPaused (d : Dev) (p g : Nat) : Bool := g < 8 && bitAt (d.rd F.EGR_PORT_STAT_PAUSED [p]) g

/-- Queue q is held by a pause: its priority's or the port's, unless the watchdog has tripped for the priority (R202). -/
def Dev.queuePaused (d : Dev) (p q : Nat) : Bool :=
  let g := d.pfcPri p q
  !d.wdTripped p g && (d.priPaused p g || d.on F.EGR_PORT_STAT_PAUSE_ALL [p])

/-- Queue q is flushed by the watchdog: tripped, ACTION 0 (R222). -/
def Dev.wdFlushes (d : Dev) (p q : Nat) : Bool := d.wdTripped p (d.pfcPri p q) && !d.on F.EGR_PFCWD_ACTION [p]

/-! ## Time gates (R209 to R212) -/

/-- Where the header (0) and entry i (1 + i) of a port's gate list bank lie. -/
def gclAt (p b i : Nat) : Nat := (2 * p + b) * 65 + i

/-- A gate list bank: BASE, CYCLE, LEN, and its entries as interval and gates. -/
structure GateList where
  base : Nat
  cycle : Nat
  len : Nat
  entries : List (Nat × Nat)
  deriving DecidableEq, Repr

def Dev.gateList (d : Dev) (p b : Nat) : GateList :=
  let h := Sparse.get 0 d.dp.gcl (gclAt p b 0)
  let n := bitsOf h 102 96
  { base := bitsOf h 63 0, cycle := bitsOf h 95 64, len := n
    entries := (List.range n).map (fun i =>
      let e := Sparse.get 0 d.dp.gcl (gclAt p b (1 + i))
      (max 1 (bitsOf e 23 0), bitsOf e 43 32)) }

def GateList.valid (g : GateList) : Bool := g.cycle != 0 && 1 ≤ g.len && g.len ≤ 64

/-- The entries of one cycle, cut at its end, the last one lasting to it. -/
def cutCycle : List (Nat × Nat) → Nat → List (Nat × Nat)
  | [], _ => []
  | [(_, g)], left => [(left, g)]
  | (n, g) :: t, left => if left ≤ n then [(left, g)] else (n, g) :: cutCycle t (left - n)

def GateList.cycle' (g : GateList) : List (Nat × Nat) := cutCycle g.entries g.cycle

/-- The gates at an offset of a cycle, and how long they still hold there. -/
def atOffset : List (Nat × Nat) → Nat → Nat × Nat
  | [], _ => (0xFFF, 1)
  | (n, g) :: t, off => if off < n then (g, n - off) else atOffset t (off - n)

/-- The gates at time `t` under a list, and for how long: every gate is open before BASE and under an invalid list. -/
def GateList.at_ (g : GateList) (t : Nat) : Nat × Nat :=
  if !g.valid then (0xFFF, 2 ^ 64)
  else if t < g.base then (0xFFF, g.base - t)
  else atOffset g.cycle' ((t - g.base) % g.cycle)

/-- The gates of port p at time `t`, with a pending switch. -/
def Dev.gatesAt (d : Dev) (p t : Nat) : Nat × Nat :=
  let b := d.rd F.EGR_PORT_STAT_OPER_BANK [p]
  if d.on F.EGR_PORT_STAT_PEND [p] then
    let sw := (d.egrPort p).tsw
    if sw ≤ t then (d.gateList p (1 - b)).at_ t
    else
      let (g, n) := (d.gateList p b).at_ t
      (g, min n (sw - t))
  else (d.gateList p b).at_ t

/-- Gate q stays open from `t` for `need` ns at least; each step ends at a change of the list. -/
def Dev.openFor (d : Dev) (p q t need : Nat) : Nat → Bool
  | 0 => false
  | fuel + 1 =>
    let (g, n) := d.gatesAt p t
    bitAt g q && (need ≤ n || d.openFor p q (t + n) (need - n) fuel)

/-- The longest run of open time in a list of intervals. -/
def longestRun (q : Nat) : List (Nat × Nat) → Nat → Nat → Nat
  | [], run, best => max run best
  | (n, g) :: t, run, best => if bitAt g q then longestRun q t (run + n) best else longestRun q t 0 (max run best)

/-- MAXWIN of queue q under a list; none when its gate never closes (R212). -/
def GateList.maxWin (g : GateList) (q : Nat) : Option Nat :=
  let c := g.cycle'
  if !g.valid || c.all (fun e => bitAt e.2 q) then none else some (longestRun q (c ++ c) 0 0)

/-- The bits that a frame needs in its window: L + GROW bytes, GROW at most 64 (R211). -/
def Dev.windowBits (d : Dev) (p : Nat) (c : Copy) : Nat :=
  (d.chargeLen p c + min 64 (d.rd F.EGR_PORT_CFG_GROW [p])) * 8

/-- A candidate could never fit its queue's gate (R212). -/
def Dev.gateOversize (d : Dev) (p q : Nat) (c : Copy) : Bool :=
  d.on F.EGR_PORT_CFG_GATE_EN [p] &&
    match (d.gateList p (d.rd F.EGR_PORT_STAT_OPER_BANK [p])).maxWin q with
    | some w => w * d.portSpeed p < d.windowBits p c
    | none => false

/-- A frame enqueued by cut-through still arrives. -/
def Dev.arriving (d : Dev) (c : Copy) : Bool :=
  c.ct && (match d.pkt c.pkt with
    | some p => !p.ended
    | none => false)

/-- The frame-end checks of a frame enqueued by cut-through have not run yet. -/
def Dev.uncheckedCt (d : Dev) (c : Copy) : Bool :=
  c.ct && (match d.pkt c.pkt with
    | some p => !p.checked
    | none => false)

/-- The gate of queue q is open for the candidate, which fits (R210, R211): the list changes at whole ns, so the window from
t_sfd, of which d.frac is the fraction in units of 2^-32 ns, fits when the whole ns up to its end are open. -/
def Dev.gateFits (d : Dev) (p q : Nat) (c : Copy) : Bool :=
  !d.on F.EGR_PORT_CFG_GATE_EN [p] ||
    (let t := d.ns + if c.ct then 205 else 285
     let need := ceilDiv (d.windowBits p c * 2 ^ 32 + d.frac * d.portSpeed p) (d.portSpeed p * 2 ^ 32)
     d.openFor p q t need (need + 1))

/-- Gate q of a port with gates closes between `t` and `t + n` (R214). -/
def Dev.gateShuts (d : Dev) (p q t n : Nat) : Bool := d.on F.EGR_PORT_CFG_GATE_EN [p] && !d.openFor p q t n (n + 1)

/-! ## The Lehr (R215 to R219) -/

def eq_ (p q : Nat) : Nat := 12 * p + q

def Dev.lehrQ (d : Dev) (p q : Nat) : LehrQ := Sparse.get {} d.dp.lehr (eq_ p q)

def Dev.setLehrQ (d : Dev) (p q : Nat) (x : LehrQ) : Dev :=
  { d with dp := { d.dp with lehr := Sparse.set {} d.dp.lehr (eq_ p q) x } }

/-- The effective rate R in 1/256 Mbit/s; 0 is unshaped (R219). -/
def Dev.lehrRate (d : Dev) (p q : Nat) : Nat :=
  let rate := d.rd F.LEHR_Q_RATE_RATE [p, q]
  let f := max 1 (min 256 (d.rd F.LEHR_SCALE_FACTOR [d.rd F.LEHR_STAT_LEVEL []]))
  if !d.onC F.EGR_Q_CFG_DEFER [p, q] then rate * 256
  else if rate ≠ 0 then max 1 (rate * f / 256) * 256
  else if f = 256 then 0
  else d.portSpeed p * 1000 * f

/-- The time in 1/256 ns that `bytes` take at `r` / 256 Mbit/s, the fraction dropped (log 42). -/
def lehrTime (bytes r : Nat) : Nat := bytes * 8 * 1000 * 256 * 256 / r

/-- V in 1/256 ns. -/
def Dev.lehrNow (d : Dev) : Nat := d.dp.lehrV * 2048

/-- Queue (p, q) is eligible on the Lehr: it is on no wheel. -/
def Dev.lehrEligible (d : Dev) (p q : Nat) : Bool := (d.lehrQ p q).wheel.isNone

/-- An update of R216 by a charge of `l` bytes, 0 for a wake-up; then the wheel (R217). -/
def Dev.lehrUpdate (d : Dev) (p q l : Nat) : Dev :=
  let r := d.lehrRate p q
  if r = 0 then d
  else
    let v := d.lehrNow
    let e := max (d.lehrQ p q).e v + lehrTime l r
    let x := e - lehrTime (d.rd F.LEHR_Q_BURST_BYTES [p, q]) r
    if x ≤ v then d.setLehrQ p q { e := e, wheel := none, x := 0 }
    else if x - v < 32768 * 256 then
      (d.setLehrQ p q { e := e, wheel := some (false, ceilDiv x 2048 % 4096), x := x }).pmc 106 0x49 1
    else (d.setLehrQ p q { e := e, wheel := some (true, x / (32000 * 256) % 8192), x := x }).pmc 106 0x4A 1

/-- Queues of `l` (as 12p + q) that held no candidate in `old` and hold one now wake up (R216). -/
def wakeQueues (old new : Dev) (l : List Nat) : Dev :=
  l.foldl (fun d e =>
    if (old.candidate (e / 12) (e % 12)).isNone && (d.candidate (e / 12) (e % 12)).isSome then
      (if (d.lehrQ (e / 12) (e % 12)).wheel.isSome then d else d.lehrUpdate (e / 12) (e % 12) 0)
    else d) new

end Sys2Proof.Machine
end

