-- ==== Sys2Proof/Machine/Ingress.lean ====
section
/-!
DEFINITION. The end of the ingress pipeline (spec/03_parser_and_pipelines.md R100 to R105), the frame-end checks and what
follows them (spec/05_quarry_central_store.md R152, R157, R169 to R173), and INJECT (spec/11_host_rings.md R348).
-/

namespace Sys2Proof.Machine

/-! ## The deparser's work on bytes (R107) -/

/-- Byte `i` is removed; the bytes inserted before it. -/
def removedAt (l : List Edit) (i : Nat) : Bool :=
  l.any (fun e => match e with
    | .remove a n => a ≤ i && i < a + n
    | .insert _ _ => false)

def insertedAt (l : List Edit) (i : Nat) : List Byte :=
  (l.map (fun e => match e with
    | .insert a b => if a = i then b else []
    | .remove _ _ => [])).flatten

/-- Insertions that name a byte at or beyond the end. -/
def insertedEnd (l : List Edit) (n : Nat) : List Byte :=
  (l.map (fun e => match e with
    | .insert a b => if n ≤ a then b else []
    | .remove _ _ => [])).flatten

/-- Removals, then insertions, each naming bytes of the frame as received. Where R107 is silent (DESIGN CHOICE, log 141): a byte
that two REMOVEs name goes once; a REMOVE that reaches past the end removes up to the end; an INSERT4 at a removed byte stands
where the byte stood, one at or after the end at the end. -/
def applyEdits (body : List Byte) (l : List Edit) : List Byte :=
  if l.isEmpty then body
  else (body.zipIdx.map (fun b => insertedAt l b.2 ++ if removedAt l b.2 then [] else [b.1])).flatten ++
    insertedEnd l body.length

/-- A write touches bytes `off` to `off + n - 1`. -/
def HWrite.touches (x : HWrite) (off n : Nat) : Bool := x.bit < 8 * (off + n) && 8 * off < x.bit + x.width

/-- The checksum of the IPv4 header at `off` recomputed. -/
def fixIpv4 (w : List Byte) (off : Nat) : List Byte :=
  let n := 4 * (byteAt w off % 16)
  let w := winPut w (8 * (off + 10)) 16 0
  winPut w (8 * (off + 10)) 16 (65535 - fold16 (sum16 (sliceOf w off n)))

/-- Where byte `i` of the body stands after the edits. -/
def editedPos (l : List Edit) (i : Nat) : Nat :=
  sumBy (List.range i) (fun j => (insertedAt l j).length + if removedAt l j then 0 else 1) + (insertedAt l i).length

/-- A body after the writes, the removals and the insertions, in this order, with the checksum of every IPv4 header passed that a
write touches, over the header as it is sent (R107). A header whose first byte goes is none any more (DESIGN CHOICE, log 141). -/
def rewrite (body : List Byte) (l : List HWrite) (edits : List Edit) (hdrs : List (Nat × Nat)) : List Byte :=
  let w := applyWrites (body.take 256) l
  hdrs.foldl (fun v h =>
    if h.1 = 3 && l.any (fun x => x.touches h.2 (4 * (byteAt w h.2 % 16))) && !removedAt edits h.2 then fixIpv4 v (editedPos edits h.2)
    else v) (applyEdits (w ++ body.drop 256) edits)

/-- The length of a body of `n` bytes after the edits. -/
def editedLen (n : Nat) (l : List Edit) : Nat := (applyEdits (List.replicate n 0) l).length

/-- The frame that a copy starts from: its own for a Gather frame, else the frame as stored. -/
def Dev.copySource (d : Dev) (c : Copy) : List Byte :=
  match d.pkt c.pkt with
  | some p => (Sparse.find? p.perPort (voqPort c.queue)).getD p.bytes
  | none => []

/-- The body of a copy as it leaves, without padding and FCS. -/
def Dev.copyBody (d : Dev) (c : Copy) (body : List Byte) : List Byte :=
  let hdrs := match d.pkt c.pkt with
    | some p => p.hdrs
    | none => []
  rewrite body c.writes c.edits hdrs

/-- The frame keeps its FCS only when nothing has changed it; a truncated copy has none (log 51). -/
def Dev.copyChanged (d : Dev) (c : Copy) : Bool :=
  !c.writes.isEmpty || !c.edits.isEmpty ||
    (match d.pkt c.pkt with
      | some p => p.kind == .result || (p.kind.isCopy && p.bytes.length < p.frameLen)
      | none => false)

/-- A copy's frame as it is sent: changed as R107 gives, padded to 64 bytes, with an FCS over what is sent. -/
def Dev.frameOut (d : Dev) (c : Copy) : List Byte :=
  let src := d.copySource c
  if d.copyChanged c then
    let b := d.copyBody c (src.take (src.length - 4))
    let b := b ++ List.replicate (60 - b.length) 0
    b ++ fcsBytes b
  else src

/-- A stomped frame: what has been received, with the complement of its FCS (R173). Of a frame that has ended the last four received
bytes, its own FCS, are not sent again before it (DESIGN CHOICE, log 171). -/
def Dev.stompOut (d : Dev) (c : Copy) (ended : Bool) : List Byte :=
  let src := d.copySource c
  let b := d.copyBody c (if ended then src.take (src.length - 4) else src)
  b ++ (fcsBytes b).map (fun x => ~~~x)

/-! ## Copies (R102, R169) -/

/-- The queue of mirror session s: its port's VOQ under the frame's ingress pipeline, or the host. -/
def Dev.mirrorDest (d : Dev) (n s : Nat) : Nat :=
  if d.rd F.PIPE_MIRROR_DEST [s] = 0 then
    let q := d.rd F.PIPE_MIRROR_QUEUE [s]
    voqOf n (d.rd F.PIPE_MIRROR_PORT [s]) (if q < 12 then q else 0)
  else intOf n 0

/-- The bytes that session s keeps: 0 for all. -/
def Dev.mirrorKeep (d : Dev) (s : Nat) : Nat :=
  let t := d.rd F.PIPE_MIRROR_TRUNC [s]
  if t = 0 then 0 else max 64 t

/-- Session s copies a packet with this drop code; `fwd`: it is forwarded. -/
def Dev.mirrorTakes (d : Dev) (s code : Nat) (fwd : Bool) : Bool :=
  s != 0 && d.on F.PIPE_MIRROR_EN [s] && (if d.on F.PIPE_MIRROR_ON_DROP [s] then 0x12 ≤ code else fwd)

/-- A copy of R169 is complete: it is admitted to its queue, or counted. -/
def Dev.finishCopy (d : Dev) (c f : Pkt) : Dev :=
  let d := d.growTo c f.bytes.length
  match d.pkt c.uid with
  | none => d
  | some c =>
    let n := min 16384 (c.kept f.bytes.length)
    let d := d.modPkt c.uid (fun c => { c with
      bytes := f.bytes.take n, frameLen := f.bytes.length, ended := true, open_ := false, checked := true })
    let a : Ask := { pkt := c.uid, queue := c.dest, k := cellsOf n, len := n, own := c.uHeld
                     colour := mdGet c.md mdColour, ecnOk := ecnCapable (windowOf f.bytes) c.hdrs, md := c.md }
    match d.admission a d.poolU with
    | (e, .inl _) => if isVoq c.dest then wakeQueues d e [eqOf c.dest] else e
    | (e, .inr _) => (e.copyDrop c).dropPkt c.uid

/-- The open copies of a frame. -/
def Dev.openCopies (d : Dev) (u : Nat) : List Pkt := d.dp.pkts.filter (fun c => c.src == u && c.open_)

/-- The copies that the end of ingress makes of a packet (R102). -/
def Dev.ingressCopies (d : Dev) (f : Pkt) (x : Pass) (fwd : Bool) : Dev :=
  if x.empty then d
  else
    let s := x.md' mdMirrorSess
    let d := if x.md' mdCopyHost = 1 then d.beginCopy f { kind := .hostCopy, dest := intOf f.pipe 0, md := x.md } else d
    if d.mirrorTakes s (x.md' mdDropCode) fwd then
      d.beginCopy f { kind := .mirror, dest := d.mirrorDest f.pipe s, keep := d.mirrorKeep s, md := x.md }
    else d

/-! ## The end of ingress (R103) -/

/-- The first UDP header passed, with the IP header before it. -/
def udpHeader : List (Nat × Nat) → Option (Nat × Nat) → Option ((Nat × Nat) × Nat)
  | [], _ => none
  | (cls, pos) :: t, ip =>
    if cls = 6 then ip.map (fun h => (h, pos))
    else udpHeader t (if cls = 3 || cls = 4 then some (cls, pos) else ip)

/-- The address of endpoint e: family and value. -/
def Dev.epAddr (d : Dev) (e : Nat) : Bool × Nat :=
  let w := fun i => d.rd F.GTH_EP_ADDR_ADDR [e, i]
  if d.on F.GTH_EP_CTL_FAM [e] then (true, w 0 * 2 ^ 96 + w 1 * 2 ^ 64 + w 2 * 2 ^ 32 + w 3) else (false, w 0)

/-- The destination of an IP header is an enabled Gather endpoint's address (R231). -/
def Dev.toEndpoint (d : Dev) (w : List Byte) (ip : Nat × Nat) : Bool :=
  let a := if ip.1 = 3 then (false, winVal w (ip.2 + 16) 4) else (true, winVal w (ip.2 + 24) 16)
  (List.range 4).any (fun e => d.on F.GTH_EP_CTL_EN [e] && d.epAddr e == a)

/-- The byte of the Gather header of a packet that is a Gather frame (R29, R103). -/
def Dev.gatherAt (d : Dev) (w : List Byte) (hdrs : List (Nat × Nat)) : Option Nat :=
  let port := d.rd F.GTH_UDP_PORT_PORT []
  match udpHeader hdrs none with
  | some (ip, pos) =>
    if port ≠ 0 && winVal w (pos + 2) 2 == port && d.toEndpoint w ip && pos + 40 ≤ w.length then some (pos + 8) else none
  | none => none

/-- The engine that serves a Gather header (R232). -/
def Dev.gatherEngine (d : Dev) (w : List Byte) (at_ : Nat) : Nat :=
  let g := winVal w (at_ + 2) 3 % 2 ^ 20
  let seq := winVal w (at_ + 12) 2
  match Sparse.find? d.gth.dir (g % 4096) with
  | some grp =>
    if grp.id = g then
      let l := indicesWhere 8 (fun k => bitAt grp.engines k)
      l.getD (seq % l.length) 0
    else d.rd F.GTH_CFG_DEF_ENG []
  | none => d.rd F.GTH_CFG_DEF_ENG []

/-- Engine k is enabled and powered. -/
def Dev.engineOn (d : Dev) (k : Nat) : Bool := bitAt (d.rd F.GTH_CFG_ENG_EN []) k && d.domOn (172 + k)

/-- Steps 1 to 4 of R103. -/
def Dev.resolve (d : Dev) (f : Pkt) (x : Pass) : Pass :=
  let x := match (if x.md' mdDropCode = 0 then d.gatherAt (windowOf f.bytes) x.hdrs else none) with
    | some at_ => (x.setMd mdDestType 4).setMd mdGthEngine (d.gatherEngine (windowOf f.bytes) at_)
    | none => x
  let x := if x.md' mdDestType = 0 then x.raise 0x13 else x
  let x := if x.md' mdDestType = 1 && x.md' mdEgrPort = f.port && !d.on F.PIPE_PORT_CFG_HAIRPIN [f.pipe, f.port % 32] then
    x.raise 0x14 else x
  if 12 ≤ x.md' mdQueue then x.setMd mdQueue 0 else x

/-- A frame enqueued by cut-through that is still arriving, in some VOQ that `p` admits. -/
def Dev.ctPending (d : Dev) (p : Nat → Bool) : Bool :=
  d.dp.copies.any (fun c => c.ct && c.loc == .voq && isVoq c.queue && p c.queue && d.arriving c)

/-- A resolved packet is a cut-through candidate (R170). -/
def Dev.ctEligible (d : Dev) (f : Pkt) (x : Pass) : Bool :=
  let e := x.md' mdEgrPort
  let q := x.md' mdQueue
  x.md' mdDestType == 1 && !f.ended && d.on F.QRY_PORT_CFG_CT_EN [e] && d.portSpeed f.port == d.portSpeed e &&
    d.queueDepth e q == 0 && !d.ctPending (fun v => eqOf v == 12 * e + q) && !d.spilled (voqOf f.pipe e q)

/-- Enough cells of a cut-through frame are in the Quarry: two, or all (R171). -/
def ctReady (p : Pkt) : Bool := 2 ≤ p.chain.length || p.ended

/-- A cut-through candidate is decided at header time under R157, the Sump's step included; a refused one waits for its frame's
end (R171). -/
def Dev.ctAdmit (d : Dev) (u : Nat) : Dev :=
  match d.pkt u with
  | none => d
  | some f =>
    match d.asksOf f (mdGet f.md mdPktLen) true with
    | [a] =>
      match d.admission a d.poolU with
        | (e, .inl n) =>
          let e := e.modPkt u (fun p => { p with ct := true })
          let e := e.pmc 104 0x3C (b2n ((e.copy n).any (fun c => c.ct)))
          wakeQueues d (e.modCopy n (fun c => { c with ready := !c.ct || ctReady f })) [eqOf a.queue]
        | (e, .inr _) => { d with freeIdx := e.freeIdx }
    | _ => d

/-- The packet's results stay with its frame; its copies' requests are cleared, and a sample takes the metadata. -/
def Dev.storeResult (d : Dev) (x : Pass) (fwd : Bool) : Dev :=
  let md := mdSet (mdSet x.md mdCopyHost 0) mdMirrorSess 0
  let d := d.modPkt x.pkt (fun p => { p with
    md := md, slots := x.slots, hdrs := x.hdrs, writes := x.writes, resolved := fwd, dropped := !fwd
    learn := if fwd then x.learn else none })
  { d with dp := { d.dp with pkts := d.dp.pkts.map (fun c =>
      if c.src = x.pkt && c.kind = .sample && c.open_ then { c with md := x.md, dest := intOf c.pipe 0 } else c) } }

/-- A packet that goes no further: its final record, and the end of its trace. -/
def Dev.ingressDropped (d : Dev) (x : Pass) (code : Nat) : Dev :=
  let t := d.traceOf x.pkt
  ((d.cullet t 0x51 none none [1, BitVec.ofNat 8 code]).freeTrace t).modPkt x.pkt (fun p => { p with trace := none })

/-- A packet hit by an error of its pipeline's structures, or of its frame's cells, is freed at the end of its pipeline
without a drop code (R393); the spec names no place of the drop for its record (log 2). -/
def Dev.ingressBad (d : Dev) (x : Pass) : Dev :=
  let t := d.traceOf x.pkt
  let (v, d) := d.free
  let d := (d.cullet t 0x51 none none (leBytes 2 v.toNat)).freeTrace t
  ((d.modPkt x.pkt (fun p => { p with trace := none })).storeResult x false).passOver x.uid

/-- The end of ingress of packet `x` of frame `f`. -/
def Dev.ingressEnd (d : Dev) (x : Pass) (f : Pkt) : Dev :=
  if x.bad || f.bad then d.ingressBad x
  else
  let x := d.resolve f x
  let code := x.md' mdDropCode
  let t := d.traceOf x.pkt
  let dest := if x.md' mdDestType = 2 then x.md' mdMcGroup else x.md' mdEgrPort
  let d := d.cullet t 0x20 (some 2) none ([BitVec.ofNat 8 (x.md' mdDestType), 0] ++ leBytes 2 dest ++
    [BitVec.ofNat 8 (x.md' mdQueue), BitVec.ofNat 8 (x.md' mdColour), BitVec.ofNat 8 code])
  let unserved := code == 0 && x.md' mdDestType == 4 && !d.engineOn (x.md' mdGthEngine)
  let fwd := code == 0 && !unserved
  let d := if code = 0 then d else (d.inc F.PIPE_DROP_COUNT [x.pipe, code]).pmc x.pipe 0x12 1
  let d := if unserved then d.inc F.GTH_UNSERVED_COUNT [] else d
  let d := (d.ingressCopies f x fwd).storeResult x fwd
  let d := if fwd then d else d.ingressDropped x code
  let d := if fwd && d.ctEligible f x then d.ctAdmit x.pkt else d
  d.passOver x.uid

/-- INGRESS_END: a packet that has passed its last stage is resolved, counted if it carries a drop code, and copied. In the safe
state it stays where it is: no frame is admitted or freed (R408). -/
def execIngressEnd (pass : Nat) (s : State) : Host.Outcome State Fault Refusal :=
  s.run (fun d =>
    match d.pass pass with
    | none => d
    | some x =>
      if x.egress || !x.todo.isEmpty || x.stage < x.stages || d.safe then d
      else match d.pkt x.pkt with
        | some f => d.ingressEnd x f
        | none => d.passOver pass)

/-! ## The frame-end checks (R152) -/

/-- The failing reason of lowest code; 0 for a frame that passes. -/
def frameReason (p : Pkt) (mark : FrameMark) : Nat :=
  if mark = .truncated then 1
  else if mark = .errored then 2
  else if 16384 < p.bytes.length then 3
  else if p.noCell then 4
  else if !fcsGood p.bytes then 5
  else if p.bytes.length < p.lip.getD 0 then 6
  else 0

/-- An offer reaches the learn queue: dropped as a duplicate, or by a full queue (R131). -/
def Dev.learnOffer (d : Dev) (o : Offer) : Dev :=
  if d.tbl.queue.any (fun x => x.tag == o.tag && x.key == o.key) then d.inc F.TBL_LEARN_DROP_COUNT [1]
  else if 4096 ≤ d.tbl.queue.length then d.inc F.TBL_LEARN_DROP_COUNT [0]
  else { d with tbl := { d.tbl with queue := d.tbl.queue ++ [o] } }

/-- The frame is freed: no copy of it is left. -/
def Dev.endFrame (d : Dev) (u : Nat) : Dev :=
  let t := d.traceOf u
  ((d.freeTrace t).modPkt u (fun p => { p with trace := none, open_ := false })).freeFrame u |>.sweepFrames

/-- The copies of a stored frame are decided (R157, R167); a group without ports makes none (R120). -/
def Dev.admitFrame (d : Dev) (p : Pkt) : Dev :=
  let asks := d.asksOf p p.bytes.length false
  let (e, ns) := d.admitAll asks d.poolU
  let e := wakeQueues d e ((asks.filter (fun a => isVoq a.queue)).map (fun a => eqOf a.queue))
  let e := if mdGet p.md mdDestType = 2 && asks.isEmpty then e.inc F.TBL_MC_EMPTY_COUNT [] else e
  if ns.isEmpty then e.endFrame p.uid else e

/-- The frame of a copy enqueued by cut-through is longer than its ingress PKT_LEN (R214). -/
def Dev.pastLen (d : Dev) (c : Copy) : Bool :=
  c.ct && (match d.pkt c.pkt with
    | some f => mdGet f.md mdPktLen < f.bytes.length
    | none => false)

/-- A cut-through copy ends in transmission: the frame leaves whole or stomped. -/
def Dev.ctSent (d : Dev) (c : Copy) (ok ended : Bool) : Dev :=
  let p := voqPort c.queue
  let d := if ok then d.emit (.frame p (d.frameOut c) false)
    else (d.emit (.frame p (d.stompOut c ended) true)).inc F.QRY_STOMP_COUNT [p]
  let late := d.pastLen c && (c.gateLate || d.gateShuts p (voqQueue c.queue) c.gateFrom (d.ns - c.gateFrom))
  let d := if late then d.inc F.EGR_GATE_OVERRUN_COUNT [p] else d
  let d := (d.readForSend c).finalRecord c 0x50 (leBytes 8 c.txNs ++ [BitVec.ofNat 8 (b2n (!ok))])
  d.removeCopy c.uid

/-- A copy leaves its egress pipeline without a frame: the packet in the stages, if any, goes with it. -/
def Dev.dropCopy (d : Dev) (u : Nat) : Dev :=
  ({ d with dp := { d.dp with passes := d.dp.passes.filter (fun x => x.copy != some u) } }).removeCopy u

/-- The frame of a copy enqueued by cut-through has ended with reason `r`: its charge is corrected, or it is freed, or its
transmission ends (R171 to R173). -/
def Dev.ctEnd (d : Dev) (p : Pkt) (r : Nat) : Dev :=
  match d.dp.copies.find? (fun c => c.pkt == p.uid) with
  | none => d.endFrame p.uid
  | some c =>
    if c.loc = .sending then d.ctSent c (r == 0) true
    else if r ≠ 0 then ((d.finalRecord c 0x51 [2, BitVec.ofNat 8 r]).unbatch c.uid).dropCopy c.uid
    else
      let k := cellsOf p.bytes.length
      let e := (d.refitSegs c k).modCopy c.uid (fun c => { c with cells := k, len := p.bytes.length, ready := true })
      let e := if c.loc = .held || c.loc = .ready then
        e.modCopy c.uid (fun c => { c with md := mdSet c.md mdPktLen (e.frameOut c).length }) else e
      let e := e.modPkt p.uid (fun p => { p with uHeld := if c.charge = .shared then k else p.uHeld })
      wakeQueues d (e.evalCopy c.ig) [eqOf c.queue]

/-- A frame that fails: freed and counted once, its copies freed and counted nowhere (R152, R169). -/
def Dev.frameFails (d : Dev) (p : Pkt) (r : Nat) : Dev :=
  let d := d.inc F.QRY_FE_DROP_COUNT [p.port, r]
  let d := if p.selected then d.inc F.PNT_SEL_FAIL_COUNT [p.port] else d
  let d := (d.openCopies p.uid).foldl (fun d c => d.dropPkt c.uid) d
  if p.ct then d.ctEnd p r else (d.cullet p.trace 0x51 none none [2, BitVec.ofNat 8 r]).endFrame p.uid

/-- A frame that passes: its copies are decided, its offer goes to the learn queue. -/
def Dev.framePasses (d : Dev) (p : Pkt) : Dev :=
  let d := if p.ct then d.ctEnd p 0 else d.admitFrame p
  let d := (d.openCopies p.uid).foldl (fun d c => d.finishCopy c p) d
  match p.learn with
  | some o => d.learnOffer o
  | none => d

/-- A frame with a cell in error is freed at its end; the spec names no place of the drop for its final record (log 2). -/
def Dev.badEnd (d : Dev) (p : Pkt) : Dev :=
  ((d.free).2.cullet p.trace 0x51 none none (leBytes 2 (d.free).1.toNat)).endFrame p.uid

/-- The frame's last byte has been written, and its ingress pipeline has ended. -/
def Dev.frameEnd (d : Dev) (p : Pkt) (mark : FrameMark) : Dev :=
  let d := d.modPkt p.uid (fun p => { p with checked := true, open_ := false })
  if p.resolved && p.bad then
    let d := (d.openCopies p.uid).foldl (fun d c => d.dropPkt c.uid) d
    (if p.ct then d.ctEnd p 2 else d.badEnd p).sweepFrames
  else if p.resolved then
    let r := frameReason p (joinMark p.mark mark)
    let d := d.cullet p.trace 0x21 (some 2) none ([BitVec.ofNat 8 r, 0] ++ leBytes 2 p.bytes.length)
    (if r = 0 then d.framePasses p else d.frameFails p r).sweepFrames
  else
    ((d.openCopies p.uid).foldl (fun d c => d.finishCopy c p) d).endFrame p.uid

/-- In the safe state a frame in transmission ends with the complement of its FCS; nothing else is sent, admitted or freed
(R407, R408). -/
def Dev.safeEnd (d : Dev) (p : Pkt) : Dev :=
  match d.dp.copies.find? (fun c => c.pkt == p.uid && c.loc == .sending) with
  | some c => d.ctSent c false p.ended
  | none => d

/-- FRAME_END_CHECKS: the rest of a frame arrives with the PCS's mark, and once its ingress pipeline has ended it is checked,
admitted or freed (R77, R152). -/
def execFrameEndChecks (pkt : Nat) (tail : List Byte) (mark : FrameMark) (s : State) : Host.Outcome State Fault Refusal :=
  s.run (fun d =>
    match d.pkt pkt with
    | none => d
    | some p =>
      if p.kind != .frame || p.checked then d
      else if d.safe then d.safeEnd p
      else
        let d := if p.ended then d else d.arrive pkt tail true
        match d.pkt pkt with
        | some p =>
          if p.resolved || p.dropped then d.frameEnd p mark else d.modPkt pkt (fun p => { p with mark := joinMark p.mark mark })
        | none => d)

/-! ## Cut-through (R171, R173) -/

/-- CT_CANDIDATE: more of a frame arrives; one enqueued by cut-through is a candidate with two cells in the Quarry (R77, R171). -/
def execCtCandidate (pkt : Nat) (more : List Byte) (s : State) : Host.Outcome State Fault Refusal :=
  s.run (fun d =>
    match d.pkt pkt with
    | none => d
    | some p =>
      if p.kind != .frame || p.ended || d.safe then d
      else
        let e := d.arrive pkt more false
        match e.pkt pkt, e.dp.copies.find? (fun c => c.pkt == pkt) with
        | some q, some c =>
          if p.ct && ctReady q then wakeQueues d (e.modCopy c.uid (fun c => { c with ready := true })) [eqOf c.queue] else e
        | _, _ => e)

/-- CT_STOMP: arrival falls behind transmission, and the port ends the frame at once. -/
def execCtStomp (copy : Nat) (s : State) : Host.Outcome State Fault Refusal :=
  s.run (fun d =>
    match d.copy copy with
    | some c => if c.loc = .sending && d.arriving c then d.ctSent c false false else d
    | none => d)

/-! ## Periodic evaluations (R162, R165) -/

/-- WRED_AVG_UPDATE: avg ← avg + floor((depth − avg) / 2^W) in every egress queue; a queue whose depth and average are 0
keeps 0. -/
def execWredAvgUpdate (s : State) : Host.Outcome State Fault Refusal :=
  s.run (fun d =>
    let busy := (d.dp.copies.filter (fun c => isVoq c.queue)).map (fun c => eqOf c.queue)
    let avg := (d.regs.filter (fun e => keyWin e.1 == R.QRY_Q_AVG.win && keyId e.1 == R.QRY_Q_AVG.id)).map (fun e => keyFlat e.1)
    ((busy ++ avg).eraseDups).foldl (fun d e =>
      let a : Int := d.rd F.QRY_Q_AVG_CELLS [e / 12, e % 12]
      let w := d.cm F.QRY_Q_CFG_AVG_W [e / 12, e % 12]
      let x := a + ((d.queueDepth (e / 12) (e % 12) : Int) - a) / (2 ^ w : Nat)
      d.wr F.QRY_Q_AVG_CELLS [e / 12, e % 12] x.toNat) d)

/-- PFC_EVAL: XOFF of every lossless ingress priority, every 1 µs. -/
def execPfcEval (s : State) : Host.Outcome State Fault Refusal :=
  s.run (fun d =>
    let ports := (d.comm.filter (fun e => keyWin e.1 == R.QRY_PFC_CFG.win && keyId e.1 == R.QRY_PFC_CFG.id)).map (fun e => keyFlat e.1)
    ports.foldl (fun d i => (List.range 8).foldl (fun d g => if d.pfcEn i g then d.evalXoff i g else d) d) d)

/-! ## Injection (R348) -/

/-- Pipeline k has an injection entry free. -/
def Dev.injectRoom (d : Dev) (k : Nat) : Bool := (d.dp.inject.filter (fun x => x.port / 32 == k)).length < 64

/-- A frame enters an injection entry of its port's pipeline, with the FCS that CALC_FCS asks for. -/
def Dev.putInject (d : Dev) (mid : Nat) (job : Option Nat) (port : Nat) (fcs : Bool) (b : List Byte) : Dev :=
  let body := b.take (b.length - 4)
  let f := if fcs then body ++ fcsBytes body else b
  { d with dp := { d.dp with inject := d.dp.inject ++ [{ mid := mid, job := job, port := port, bytes := f }] } }

/-- The next INJECT job of ring `n` begins: its frame is read from host memory. -/
def Dev.injectJob (d : Dev) (n : Nat) (r : HostRead) : Dev :=
  match d.newJob n 0x01 with
  | none => d
  | some j =>
    let port := j.p 0 % 1024
    if !d.injectRoom (port / 32) then d
    else if j.sub.len < 64 || 16384 < j.sub.len then (d.startJob j.id).finishJob j.id 5 0 0 0
    else if !d.domOn (128 + port / 32) then (d.startJob j.id).finishJob j.id 6 0 0 0
    else if !d.jobDma j.id then d
    else
      let d := d.startJob j.id
      match r with
        | .data b =>
          let b := sliceOf (b ++ List.replicate j.sub.len 0) 0 j.sub.len
          (d.dmaRead (some j.id) j.sub.len).putInject (d.owner n) (some j.id) port (bitAt (j.p 0) 16) b
        | _ => d.dataFault j.id r

/-- INJECT: a frame of a host's job, or of a service core that runs (R380), waits in an injection entry of its port's pipeline. A
core's frame has the limits of a host's; one that finds no entry, or its pipeline off, is not taken (DESIGN CHOICE, log 151). -/
def execInject (src : InjectSrc) (s : State) : Host.Outcome State Fault Refusal :=
  s.run (fun d =>
    match src with
    | .host n r => d.injectJob n.val r
    | .core k port fcs b =>
      if d.coreRuns k.val && 64 ≤ b.length && b.length ≤ 16384 && d.injectRoom (port.val / 32) &&
          d.domOn (128 + port.val / 32) then
        d.putInject (0x40 + k.val) none port.val fcs b
      else d)

end Sys2Proof.Machine
end

