-- ==== Sys2Proof/Machine/Indirect.lean ====
section
/-!
DEFINITION. The memories that software reaches through an address and data registers: parser state tables, pipeline programs
and gate lists (R85, R213, R455).
-/

namespace Sys2Proof.Machine

/-- A write by PF0 or a service core, the only writers of a register whose chapter names none (R14). -/
def Dev.accessPf (d : Dev) (m : Master) (off v : Nat) (f : Dev → Dev) : Dev := if isPfSvc m then d.access m off v f else d

/-- `n` data dwords of an array of registers as one number, and back. -/
def Dev.dwords (d : Dev) (f : Fld) (ix : List Nat) (n : Nat) : Nat :=
  sumBy (List.range n) (fun k => d.rd f (ix ++ [k]) * 2 ^ (32 * k))
def Dev.setDwords (d : Dev) (f : Fld) (ix : List Nat) (n v : Nat) : Dev :=
  (List.range n).foldl (fun d k => d.wr f (ix ++ [k]) (v / 2 ^ (32 * k) % 2 ^ 32)) d

/-- The BAR0 offset of instance `n` of a register. -/
def Reg.bar0At (r : Reg) (n : Nat) : Nat :=
  r.bar0 + (match r.dims with
    | x :: _ => n * x.stride
    | [] => 0)

/-! ## Parser state tables -/

/-- A write of PRS_ST_ADDR[n]: WR writes the entry, RD reads it back, in that order. -/
def Dev.prsAddr (d : Dev) (n v : Nat) : Dev :=
  let b := bitsOf v 29 29
  let i := bitsOf v 8 0
  let d := (d.wr F.PRS_ST_ADDR_BANK [n] b).wr F.PRS_ST_ADDR_INDEX [n] i
  let k := prsAt n b i
  let d := if bitAt v 31 then
    { d with dp := { d.dp with
      prs := Sparse.set 0 d.dp.prs k (d.dwords F.PRS_ST_DATA_DATA [n] 4), badPrs := Sparse.set 0 d.dp.badPrs k 0 } } else d
  if bitAt v 30 then d.setDwords F.PRS_ST_DATA_DATA [n] 4 (Sparse.get 0 d.dp.prs k) else d

/-- PRS_ST_WR: a write of PRS_ST_ADDR with WR = 1; the registers lie in the pair's domain. -/
def execPrsStWr (m : Master) (n : Fin 32) (v : BitVec 32) (s : State) : Host.Outcome State Fault Refusal :=
  s.run (fun d =>
    if bitAt v.toNat 31 && d.domOn (128 + n.val) then
      d.accessPf m (R.PRS_ST_ADDR.bar0At n.val) v.toNat (fun d => d.prsAddr n.val v.toNat)
    else d)

/-- PRS_ST_RD: a write of PRS_ST_ADDR with RD = 1 and WR = 0. -/
def execPrsStRd (m : Master) (n : Fin 32) (v : BitVec 32) (s : State) : Host.Outcome State Fault Refusal :=
  s.run (fun d =>
    if bitAt v.toNat 30 && !bitAt v.toNat 31 && d.domOn (128 + n.val) then
      d.accessPf m (R.PRS_ST_ADDR.bar0At n.val) v.toNat (fun d => d.prsAddr n.val v.toNat)
    else d)

/-! ## Pipeline programs -/

/-- The place in a program bank of instance n of a target, stage and index, and its size in dwords; none where there is none (R455). -/
def progTarget (n target stage i : Nat) : Option (Nat × Nat) :=
  let beyond := 32 ≤ n && 12 ≤ stage
  match target with
  | 0 => if beyond then none else some (progAction stage i, 8)
  | 1 => if beyond || i ≠ 0 then none else some (progConfig stage, 1)
  | 2 => if 31 < i then none else some (progProfile i, 8)
  | _ => none

/-- The place that an address names; none where the access is ignored. -/
def idxTarget (n v : Nat) : Option (Nat × Nat) := progTarget n (bitsOf v 27 24) (bitsOf v 23 20) (bitsOf v 10 0)

/-- A write of PIPE_IDX_ADDR[n]. A configuration word fills PIPE_IDX_DATA[0] alone (log 43). -/
def Dev.pipeAddr (d : Dev) (n v : Nat) : Dev :=
  let d := (d.wr F.PIPE_IDX_ADDR_BANK [n] (bitsOf v 29 29)).wr F.PIPE_IDX_ADDR_TARGET [n] (bitsOf v 27 24)
  let d := (d.wr F.PIPE_IDX_ADDR_STAGE [n] (bitsOf v 23 20)).wr F.PIPE_IDX_ADDR_INDEX [n] (bitsOf v 10 0)
  match idxTarget n v with
  | none => d
  | some (off, w) =>
    let k := (2 * n + bitsOf v 29 29) * 65536 + off
    let d := if bitAt v 31 then
      { d with dp := { d.dp with
        prog := Sparse.set 0 d.dp.prog k (d.dwords F.PIPE_IDX_DATA_DATA [n] w), badProg := Sparse.set 0 d.dp.badProg k 0 } } else d
    if bitAt v 30 then d.setDwords F.PIPE_IDX_DATA_DATA [n] w (Sparse.get 0 d.dp.prog k) else d

/-- PIPE_IDX_WR: a write of PIPE_IDX_ADDR with WR = 1. -/
def execPipeIdxWr (m : Master) (n : Fin 64) (v : BitVec 32) (s : State) : Host.Outcome State Fault Refusal :=
  s.run (fun d =>
    if bitAt v.toNat 31 && d.domOn (128 + n.val % 32) then
      d.accessPf m (R.PIPE_IDX_ADDR.bar0At n.val) v.toNat (fun d => d.pipeAddr n.val v.toNat)
    else d)

/-- PIPE_IDX_RD: a write of PIPE_IDX_ADDR with RD = 1 and WR = 0. -/
def execPipeIdxRd (m : Master) (n : Fin 64) (v : BitVec 32) (s : State) : Host.Outcome State Fault Refusal :=
  s.run (fun d =>
    if bitAt v.toNat 30 && !bitAt v.toNat 31 && d.domOn (128 + n.val % 32) then
      d.accessPf m (R.PIPE_IDX_ADDR.bar0At n.val) v.toNat (fun d => d.pipeAddr n.val v.toNat)
    else d)

/-! ## Gate lists (R213) -/

/-- The operating bank of port p cannot be written, nor either bank while a switch is pending. -/
def Dev.gclLocked (d : Dev) (p b : Nat) : Bool :=
  d.on F.EGR_PORT_STAT_PEND [p] || d.rd F.EGR_PORT_STAT_OPER_BANK [p] == b

/-- The data registers as a list entry or a bank header. -/
def Dev.gclData (d : Dev) (header : Bool) : Nat :=
  let x := d.dwords F.EGR_GCL_DATA_DATA [] 4
  if header then x % 2 ^ 103 else setBitsOf (bitsOf x 23 0) 43 32 (bitsOf x 43 32)

/-- A write of EGR_GCL_ADDR: WR writes the target or is discarded, RD reads it back. -/
def Dev.gclAddr (d : Dev) (v : Nat) : Dev :=
  let b := bitsOf v 29 29
  let header := bitAt v 28
  let p := bitsOf v 25 16
  let i := bitsOf v 5 0
  let d := (d.wr F.EGR_GCL_ADDR_BANK [] b).wr F.EGR_GCL_ADDR_TARGET [] (b2n header)
  let d := (d.wr F.EGR_GCL_ADDR_PORT [] p).wr F.EGR_GCL_ADDR_ENTRY [] i
  let k := gclAt p b (if header then 0 else 1 + i)
  let d := if !bitAt v 31 then d
    else if d.gclLocked p b then d.wr F.EGR_STAT_GCL_WR_REJ [] 1
    else { d with dp := { d.dp with gcl := Sparse.set 0 d.dp.gcl k (d.gclData header) } }
  if bitAt v 30 then d.setDwords F.EGR_GCL_DATA_DATA [] 4 (Sparse.get 0 d.dp.gcl k) else d

/-- GCL_WR: a write of EGR_GCL_ADDR with WR = 1. -/
def execGclWr (m : Master) (v : BitVec 32) (s : State) : Host.Outcome State Fault Refusal :=
  s.run (fun d =>
    if bitAt v.toNat 31 then d.accessPf m R.EGR_GCL_ADDR.bar0 v.toNat (fun d => d.gclAddr v.toNat) else d)

/-- GCL_RD: a write of EGR_GCL_ADDR with RD = 1 and WR = 0. -/
def execGclRd (m : Master) (v : BitVec 32) (s : State) : Host.Outcome State Fault Refusal :=
  s.run (fun d =>
    if bitAt v.toNat 30 && !bitAt v.toNat 31 then d.accessPf m R.EGR_GCL_ADDR.bar0 v.toNat (fun d => d.gclAddr v.toNat)
    else d)

/-- A write of EGR_GCL_CTL[p]. -/
def Dev.gclCtl (d : Dev) (p v : Nat) : Dev :=
  let b := bitsOf v 30 30
  if !bitAt v 31 then d.wr F.EGR_GCL_CTL_NEW_BANK [p] b
  else if d.on F.EGR_PORT_STAT_PEND [p] then d.wr F.EGR_STAT_GCL_WR_REJ [] 1
  else
    let d := d.wr F.EGR_GCL_CTL_NEW_BANK [p] b
    let g := d.gateList p b
    if d.rd F.EGR_PORT_STAT_OPER_BANK [p] = b || !g.valid then d.wr F.EGR_PORT_STAT_GCL_REJ [p] 1
    else
      let t := d.ns + 2000 + b2n (d.frac != 0)
      let sw := if t ≤ g.base then g.base else g.base + ceilDiv (t - g.base) g.cycle * g.cycle
      (d.wr F.EGR_PORT_STAT_PEND [p] 1).setEgrPort p { d.egrPort p with tsw := sw }

/-- GCL_SWITCH_REQ: a write of EGR_GCL_CTL with GO = 1. -/
def execGclSwitchReq (m : Master) (p : Fin 1024) (v : BitVec 32) (s : State) : Host.Outcome State Fault Refusal :=
  s.run (fun d =>
    if bitAt v.toNat 31 then d.accessPf m (R.EGR_GCL_CTL.bar0At p.val) v.toNat (fun d => d.gclCtl p.val v.toNat) else d)

end Sys2Proof.Machine
end

