-- ==== Sys2Proof/Machine/Egress.lean ====
section
/-!
DEFINITION. From the scheduler's decision to the wire: the decision (spec/07_egress_scheduling.md R201 to R208), the egress
grant (R204), the egress pipeline's entry and end (spec/03_parser_and_pipelines.md R87, R106, R107), transmission
(spec/10_telemetry_and_counters.md R299 to R307) and the last cell's read (spec/05_quarry_central_store.md R168, R172).
-/

namespace Sys2Proof.Machine

/-! ## The scheduler (R201, R205, R206, R212) -/

/-- The scheduler drops a copy with reason r: it passes no egress pipeline and makes no copy (R225). -/
def Dev.schedDrop (d : Dev) (r : Nat) (c : Copy) : Dev :=
  let p := voqPort c.queue
  ((d.inc F.EGR_DROP_COUNT [p, r]).finalRecord c 0x51 [5, BitVec.ofNat 8 r]).removeCopy c.uid

/-- The queue's pointer moves to the pipeline after the copy's (R208). -/
def Dev.nextVoq (d : Dev) (c : Copy) : Dev :=
  let p := voqPort c.queue
  let e := d.egrPort p
  d.setEgrPort p { e with rr := Sparse.set 0 e.rr (voqQueue c.queue) ((voqPipe c.queue + 1) % 32) }

/-- Candidates of queue q that no window of its gate can ever hold are dropped. -/
def Dev.dropOversize (d : Dev) (p q : Nat) : Nat → Dev
  | 0 => d
  | fuel + 1 =>
    match d.candidate p q with
    | some c => if d.gateOversize p q c then ((d.nextVoq c).schedDrop 4 c).dropOversize p q fuel else d
    | none => d

/-- The same for every queue of the port; in the safe state stored frames are neither sent nor freed (R408). -/
def Dev.dropOversizeAll (d : Dev) (p : Nat) : Dev :=
  if d.safe then d
  else (List.range 12).foldl (fun d q => d.dropOversize p q (d.dp.copies.length + 1)) d

/-- Everything R202 asks of queue q but its gate. -/
def Dev.readyBut (d : Dev) (p q : Nat) : Bool :=
  (d.candidate p q).isSome && !d.queuePaused p q && !d.wdFlushes p q && d.lehrEligible p q

/-- Queue q of port p is eligible (R202). -/
def Dev.eligible (d : Dev) (p q : Nat) : Bool :=
  d.readyBut p q && (match d.candidate p q with
    | some c => d.gateFits p q c
    | none => false)

def Dev.levelOf (d : Dev) (p q : Nat) : Nat := d.cm F.EGR_Q_CFG_LEVEL [p, q]

/-- The queue of a level that follows q, in rotation. -/
def Dev.nextOfLevel (d : Dev) (p lvl q : Nat) : Nat :=
  ((List.range 12).map (fun i => (q + 1 + i) % 12)).find? (fun j => d.levelOf p j == lvl) |>.getD q

/-- A queue's quantum in bytes; 0 acts as 1 unit (R206, R207). -/
def Dev.quantum (d : Dev) (p q : Nat) : Nat := max 1 (d.cm F.EGR_Q_CFG_QUANTUM [p, q]) * 64

/-- Deficit round robin at a level: the eligible queues with their candidate's L, the pointer, whether its visit is fresh,
and the deficits; the queue that sends. -/
def drr (elig : Nat → Option Nat) (quantum next : Nat → Nat) : Nat → Nat → Bool → Sparse Nat → Option (Nat × Sparse Nat)
  | 0, _, _, _ => none
  | fuel + 1, q, fresh, def_ =>
    match elig q with
    | none => drr elig quantum next fuel (next q) true def_
    | some l =>
      let x := Sparse.get 0 def_ q + if fresh then quantum q else 0
      if l ≤ x then some (q, Sparse.set 0 def_ q (x - l))
      else drr elig quantum next fuel (next q) true (Sparse.set 0 def_ q x)

/-- Queue q sends its candidate: deficits, pointers, Lehr, and the record of R314. -/
def Dev.choose (d : Dev) (p lvl q : Nat) (def_ : Sparse Nat) (c : Copy) : Dev :=
  let e := d.egrPort p
  let d := d.setEgrPort p { e with deficit := def_, ptr := Sparse.set 0 e.ptr lvl q
                                   visited := if e.visited.contains lvl then e.visited else e.visited ++ [lvl] }
  let d := (d.nextVoq c).modCopy c.uid (fun c => { c with loc := .chosen })
  let d := d.lehrUpdate p q (d.chargeLen p c)
  d.cullet (d.traceOf c.pkt) 0x30 (some 5) (some p)
    ([BitVec.ofNat 8 q, BitVec.ofNat 8 lvl, BitVec.ofNat 8 (voqPipe c.queue), 0] ++ leBytes 4 (Sparse.get 0 def_ q))

/-- More visits than any decision needs: L is at most 2^15 + 255, a quantum at least 64, a level has at most 12 queues, and each
round adds every eligible queue's quantum once (R206). -/
def drrVisits : Nat := 8192

/-- One decision of port p's scheduler. -/
def Dev.decide_ (d : Dev) (p : Nat) : Dev :=
  let d := (d.dropOversizeAll p).pmc 106 0x48 1
  let late := (indicesWhere 12 (fun q => d.readyBut p q && !d.eligible p q)).length
  let d := d.pmc 106 0x4B late
  let el := indicesWhere 12 (fun q => d.eligible p q)
  match (el.map (d.levelOf p)).max? with
  | none => d
  | some lvl =>
    let e := d.egrPort p
    let start := Sparse.get 0 e.ptr lvl
    let elig := fun q => if el.contains q && d.levelOf p q == lvl then (d.candidate p q).map (d.chargeLen p) else none
    let fresh := !(e.visited.contains lvl) || d.levelOf p start != lvl
    match drr elig (d.quantum p) (d.nextOfLevel p lvl) drrVisits start fresh e.deficit with
    | none => d
    | some (q, def_) =>
      match d.candidate p q with
      | some c => d.choose p lvl q def_ c
      | none => d

/-- A cut-through frame of port p waits for its end (R172). -/
def Dev.portHolds (d : Dev) (p : Nat) : Bool := d.dp.copies.any (fun c => c.loc == .held && isVoq c.queue && voqPort c.queue == p)

/-- SCHED_DECISION: port p's transmitter can take another frame. Nothing is sent while the link is down or the port is
flushed, and nothing else while a cut-through frame waits for its end (R172, R202, R224). -/
def execSchedDecision (p : Fin 1024) (s : State) : Host.Outcome State Fault Refusal :=
  s.run (fun d =>
    if d.linkUp p.val && !d.portHolds p.val && !d.safe then d.decide_ p.val else d)

/-! ## The egress pipeline's entry (R87, R106, R204) -/

/-- EPn's arbitration: the port granted, with credits as they stand after the grant. `took`: ports granted in this clock. -/
def Dev.grant (d : Dev) (n : Nat) (took : List Nat) : Dev × Option Nat :=
  let ports := ((List.range 32).map (fun i => 32 * n + i)).filter (fun p => (d.chosen p).isSome && !took.contains p)
  match arbitrate ports (fun p => (d.portLanes p).length) (fun p => (d.egrPort p).credit) with
  | some (p, credits) => (credits.foldl (fun d c => d.setEgrPort c.1 { d.egrPort c.1 with credit := c.2 }) d, some p)
  | none => (d, none)

/-- A new clock: no port has its grant. -/
def Dev.newGrantClock (d : Dev) (n : Nat) : Dev :=
  { d with dp := { d.dp with grants := Sparse.set [] d.dp.grants n [] } }

/-- Metadata at egress entry (R86, R87). DROP_CODE is 0 there: the ON_DROP mirror copy of a dropped packet goes through the egress
pipeline like any other copy (DESIGN CHOICE, log 306). -/
def Dev.egressMd (d : Dev) (c : Copy) (p : Nat) (f : Pkt) : Sparse Nat :=
  let md := mdSet (mdSet c.md mdCopyHost 0) mdMirrorSess 0
  let md := mdSet (mdSet md mdPipeId (32 + p / 32)) mdEgrPort p
  let md := mdSet (mdSet md mdEgrQTs d.ts40) mdDropCode 0
  if f.ended then mdSet md mdPktLen (d.copySource c).length else md

/-- Copy `c` enters egress stage 0 of its port's pipeline; a pruned copy runs through it as an empty slot. -/
def Dev.egressEnter (d : Dev) (c : Copy) (p : Nat) (f : Pkt) : Dev :=
  let md := d.egressMd c p f
  let prune := c.mc && f.kind == .frame && f.port == p && !d.on F.PIPE_PORT_CFG_MC_SELF [32 + p / 32, p % 32]
  let md := if prune then mdSet md mdDropCode 4 else md
  let w := applyWrites (windowOf (d.copySource c)) f.writes
  let d := (d.modCopy c.uid (fun c => { c with loc := .egress, md := md })).charge none 0 1
  d.startPass (32 + p / 32) { pkt := c.pkt, copy := some c.uid, md := md, slots := f.slots, hdrs := f.hdrs, win := w
                              writes := f.writes, empty := prune, depth := d.queueDepth p (voqQueue c.queue), used := d.poolU }

/-- EGRESS_ENTER: EPn grants a port its chosen frame, the first of a clock or (`sameClock`) a further one of the last clock,
4 at most. -/
def execEgressEnter (n : Fin 32) (sameClock : Bool) (s : State) : Host.Outcome State Fault Refusal :=
  s.run (fun d =>
    let d := if sameClock then d else d.newGrantClock n.val
    let took := Sparse.get [] d.dp.grants n.val
    if 4 ≤ took.length || !d.domOn (128 + n.val) || d.safe then d
    else match d.grant n.val took with
      | (d, none) => d
      | (d, some p) =>
        let d := { d with dp := { d.dp with grants := Sparse.set [] d.dp.grants n.val (took ++ [p]) } }
        match d.chosen p with
        | none => d
        | some c => match d.pkt c.pkt with
          | some f => (d.egressEnter c p f).queueLost c.queue
          | none => d)

/-! ## The egress pipeline's end (R102, R106, R107) -/

/-- The mark of R164 as a header write of the first IP header. -/
def ecnWrite (hdrs : List (Nat × Nat)) : List HWrite :=
  match firstIp hdrs with
  | some (3, pos) => [{ bit := 8 * (pos + 1) + 6, width := 2, val := 3 }]
  | some (_, pos) => [{ bit := 8 * (pos + 1) + 2, width := 2, val := 3 }]
  | none => []

/-- The length after rewrite of a frame of `n` bytes, its FCS included. -/
def rewrittenLen (n : Nat) (x : Pass) : Nat :=
  if x.writes.isEmpty && x.edits.isEmpty then n else max 64 (editedLen (n - 4) x.edits + 4)

/-- EGR_GROW and EGR_MTU (R106). The net insertion is that of the bytes that go and come (log 141). -/
def Dev.deparserChecks (d : Dev) (x : Pass) (p n : Nat) : Pass :=
  let x' := if n - 4 + 64 < editedLen (n - 4) x.edits then x.raise 0x01 else x
  if d.rd F.PIPE_PORT_CFG_MTU [x.pipe, p % 32] < rewrittenLen n x then x'.raise 0x02 else x'

/-- A copy made at the end of an egress pipeline: complete when its frame has ended, else it grows with it. -/
def Dev.egressCopy (d : Dev) (f : Pkt) (c : Pkt) : Dev :=
  let e := d.beginCopy f c
  if f.checked then (e.openCopies f.uid).foldl (fun d c => d.finishCopy c f) e else e

/-- The copies that the end of an egress pipeline makes (R102). -/
def Dev.egressCopies (d : Dev) (x : Pass) (f : Pkt) : Dev :=
  if x.empty then d
  else
    let s := x.md' mdMirrorSess
    let d := if x.md' mdCopyHost = 1 then d.egressCopy f { kind := .egrHostCopy, dest := intOf f.pipe 0, md := x.md } else d
    if d.mirrorTakes s (x.md' mdDropCode) (x.md' mdDropCode == 0) then
      d.egressCopy f { kind := .egrMirror, dest := d.mirrorDest f.pipe s, keep := d.mirrorKeep s, md := x.md }
    else d

/-- Where PIPE_PORT_DROP counts a code (R106). -/
def portDropIdx (code : Nat) : Nat := if 0x20 ≤ code then 16 + (code - 0x20) else code

/-- A copy hit by an error of its pipeline's structures is freed without a drop code (R393). -/
def Dev.egressBad (d : Dev) (x : Pass) (c : Copy) : Dev :=
  let (v, d) := d.free
  ((d.dropPass x.uid).finalRecord c 0x51 (leBytes 2 v.toNat)).removeCopy c.uid

/-- The end of packet `x`, a copy of frame `f`. A cut-through frame whose length changed while it arrived waits for its frame-end
checks, if they have not passed yet (R172). Of a frame that still arrives, EGR_MTU is checked with the length that follows from its
ingress PKT_LEN, and not again at its end (DESIGN CHOICE, log 307). -/
def Dev.egressEnd (d : Dev) (x : Pass) (c : Copy) (f : Pkt) : Dev :=
  if x.bad then d.egressBad x c
  else
  let p := voqPort c.queue
  let n := if f.ended then (d.copySource c).length else x.md' mdPktLen
  let x := d.deparserChecks x p n
  let code := x.md' mdDropCode
  let d := d.cullet (d.traceOf c.pkt) 0x4C (some 6) (some p)
    (leBytes 2 (rewrittenLen n x) ++ [BitVec.ofNat 8 (x.md' mdLenchg), BitVec.ofNat 8 code])
  let d := (d.egressCopies x { f with bytes := d.copySource c }).dropPass x.uid
  if code ≠ 0 then
    let d := (d.inc F.PIPE_DROP_COUNT [x.pipe, code]).inc F.PIPE_PORT_DROP_COUNT [x.pipe, p % 32, portDropIdx code]
    ((d.pmc x.pipe 0x12 1).finalRecord c 0x51 [6, BitVec.ofNat 8 code]).removeCopy c.uid
  else
    let d := if x.waits && f.checked then d.inc F.QRY_CT_FALLBACK_COUNT [p] else d
    let loc := if x.waits && !f.checked then .held else .ready
    let md := if f.ended then mdSet x.md mdPktLen (rewrittenLen n x) else x.md
    d.modCopy c.uid (fun c => { c with
      loc := loc, md := md, writes := x.writes ++ (if c.ecn then ecnWrite f.hdrs else []), edits := x.edits })

/-- EGRESS_END: a packet that has passed its last egress stage reaches the deparser; in the safe state it stays where it is, neither
copied nor freed (R408; DEDUCED, log 319). -/
def execEgressEnd (pass : Nat) (s : State) : Host.Outcome State Fault Refusal :=
  s.run (fun d =>
    match d.pass pass with
    | none => d
    | some x =>
      if !x.egress || !x.todo.isEmpty || x.stage < x.stages || d.safe then d
      else match d.copy (x.copy.getD 0), d.pkt x.pkt with
        | some c, some f => d.egressEnd x c f
        | _, _ => d.dropPass pass)

/-- CT_FALLBACK: a cut-through frame that waited for its end has passed its checks and leaves as a stored frame (R172). -/
def execCtFallback (copy : Nat) (s : State) : Host.Outcome State Fault Refusal :=
  s.run (fun d =>
    match d.copy copy with
    | some c =>
      if c.loc = .held && !d.uncheckedCt c then
        (d.modCopy copy (fun c => { c with loc := .ready })).inc F.QRY_CT_FALLBACK_COUNT [voqPort c.queue]
      else d
    | none => d)

/-! ## Transmission (R299 to R301, R307) -/

/-- A saturating 32-bit sum. -/
def sat32 (n : Nat) : Nat := min n 0xFFFFFFFF

/-- The bin of a latency for a base of B ns. -/
def histBin (b x : Nat) : Nat := ((List.range 15).find? (fun i => x < b * 2 ^ i)).getD 15

/-- A latency added to a queue's histogram. -/
def Dev.histAdd (d : Dev) (p q x : Nat) : Dev :=
  let h := Sparse.get {} d.tlm.hist (eq_ p q)
  let b := histBin (max 1 (d.rd F.TLM_HIST_CFG_BASE_NS [])) x
  let h := { bins := Sparse.set 0 h.bins b (sat32 (Sparse.get 0 h.bins b + 1)), max := sat32 (Nat.max h.max x)
             sum := (h.sum + x) % 2 ^ 64 }
  { d with tlm := { d.tlm with hist := Sparse.set {} d.tlm.hist (eq_ p q) h } }

/-- The transmit timestamp of port p: ns and 1/65,536 ns, with TX_ADJ added (R297). -/
def Dev.txTime (d : Dev) (p : Nat) : Nat × Nat :=
  let t := ((d.ns * 65536 + d.frac / 65536 : Nat) : Int) + toSigned 16 (d.rd F.TLM_TS_ADJ_TX_ADJ [p]) * 256
  (ofSigned 64 (t / 65536), (t % 65536).toNat)

/-- The capture record of a transmitted frame (R301). -/
def Dev.tsCapture (d : Dev) (c : Copy) (p ns frac : Nat) : Dev :=
  let on := d.on F.TLM_TSCAP_CFG_EN [] && d.on F.TLM_PORT_CFG_TSCAP [p] &&
    bitAt (mdGet c.md mdHdrValid) (d.rd F.TLM_TSCAP_CFG_CLASS [])
  if !on then d
  else
    let slot := d.rd F.TLM_TSCAP_CFG_KEY_SLOT []
    let key := match d.pkt c.pkt with
      | some f => match Sparse.find? f.slots slot with
        | some (_, off) => beBytes 8 (winVal (windowOf (d.copySource c)) (off + d.rd F.TLM_TSCAP_CFG_KEY_OFF []) 8)
        | none => List.replicate 8 0
      | none => List.replicate 8 0
    d.record 2 ([1] ++ leBytes 2 p ++ leBytes 2 frac ++ [0, 0] ++ leBytes 8 ns ++ key ++ leBytes 4 (mdGet c.md mdFlowHash))

/-- A ready copy's head leaves: the whole frame when it is stored, the first of it while the frame-end checks of a cut-through frame
have not run, so that one that fails them is stomped (R173). -/
def Dev.transmit (d : Dev) (c : Copy) : Dev :=
  let p := voqPort c.queue
  let (ns, frac) := d.txTime p
  let d := d.pmc (64 + p / 32) 0x21 1
  let d := if d.on F.TLM_PORT_CFG_HIST [p] then
    d.histAdd p (voqQueue c.queue) (nsDiff ns (tsNs (mdGet c.md mdIngTs))) else d
  let d := d.tsCapture c p ns frac
  if d.uncheckedCt c then
    let e := d.modCopy c.uid (fun c => { c with loc := .sending, txNs := ns, gateFrom := d.ns })
    if d.arriving c then e.inc F.QRY_CT_SENT_COUNT [p] else e
  else
    let late := d.pastLen c && d.gateShuts p (voqQueue c.queue) d.ns (ceilDiv ((d.frameOut c).length * 8) (d.portSpeed p))
    let d := if late then d.inc F.EGR_GATE_OVERRUN_COUNT [p] else d
    let d := (d.readForSend c).emit (.frame p (d.frameOut c) false)
    (d.finalRecord c 0x50 (leBytes 8 ns ++ [0])).removeCopy c.uid

/-- Port p may send: not in the safe state (R407), not while it sends LPI or wakes from it (R63), and nothing beside a cut-through
frame that waits for its end (R172). -/
def Dev.mayTransmit (d : Dev) (p : Nat) : Bool := !d.safe && !(d.port p).txLpi && !(d.port p).waking && !d.portHolds p

/-- FRAME_TRANSMIT: the egress PCS sends a copy that has passed its egress pipeline. -/
def execFrameTransmit (copy : Nat) (s : State) : Host.Outcome State Fault Refusal :=
  s.run (fun d =>
    match d.copy copy with
    | some c => if c.loc = .ready && d.mayTransmit (voqPort c.queue) then d.transmit c else d
    | none => d)

/-- COPY_READ_DONE: the last cell of a copy has been read for transmission (R168). -/
def execCopyReadDone (copy : Nat) (s : State) : Host.Outcome State Fault Refusal :=
  s.run (fun d =>
    match d.copy copy with
    | none => d
    | some c =>
      let reading := isVoq c.queue && (c.loc == .egress || c.loc == .ready)
      match d.pkt c.pkt with
      | some f => if reading && !c.released && f.ended && !d.safe then (d.readForSend c).releaseCopy copy else d
      | none => d)

end Sys2Proof.Machine
end

