-- ==== Sys2Proof/Machine/EgressCtl.lean ====
section
/-!
DEFINITION. PFC frames sent (spec/05_quarry_central_store.md R166), pause frames received and their timers, the PFC watchdog,
flushing, gate list switches and the Lehr's clock (spec/07_egress_scheduling.md R209 to R225).
-/

namespace Sys2Proof.Machine

/-! ## PFC frames sent (R166) -/

/-- The PFC frame that port p builds now: every priority in XOFF with QUANTA, every one released since the last with 0. -/
def Dev.pfcFrame (d : Dev) (p : Nat) : List Byte :=
  let x := d.rd F.QRY_PFC_STAT_XOFF [p]
  let q := d.cm F.QRY_PFC_CFG_QUANTA [p]
  let body := [0x01, 0x80, 0xC2, 0x00, 0x00, 0x01] ++
    beBytes 2 (d.rd F.QRY_PFC_SA_HI_SA_HI [p]) ++ beBytes 4 (d.rd F.QRY_PFC_SA_LO_SA_LO [p]) ++
    beBytes 2 0x8808 ++ beBytes 2 0x0101 ++ beBytes 2 (Nat.lor x (d.egrPort p).pfcFell) ++
    ((List.range 8).map (fun g => beBytes 2 (if bitAt x g then q else 0))).flatten
  let b := body ++ List.replicate (60 - body.length) 0
  b ++ fcsBytes b

/-- The port sends it. -/
def Dev.sendPfc (d : Dev) (p : Nat) : Dev :=
  let d := (d.emit (.control p (d.pfcFrame p))).pmc (64 + p / 32) 0x21 1
  d.setEgrPort p { d.egrPort p with pfcDue := false, pfcFell := 0 }

/-- PFC_FRAME_SEND: a port with its link up sends the frame that a change of XOFF made due. -/
def execPfcFrameSend (p : Fin 1024) (s : State) : Host.Outcome State Fault Refusal :=
  s.run (fun d => if (d.egrPort p.val).pfcDue && d.linkUp p.val && d.mayTransmit p.val then d.sendPfc p.val else d)

/-- PFC_RESEND: half the QUANTA time after its last PFC frame, a port with a priority in XOFF sends another. -/
def execPfcResend (p : Fin 1024) (s : State) : Host.Outcome State Fault Refusal :=
  s.run (fun d => if d.rd F.QRY_PFC_STAT_XOFF [p.val] ≠ 0 && d.linkUp p.val && d.mayTransmit p.val then d.sendPfc p.val else d)

/-! ## Control frames received (R220, R221) -/

/-- The oldest control frame of port p. -/
def Dev.controlFrame (d : Dev) (p : Nat) : Option Control := d.dp.control.find? (fun x => x.port == p)

/-- It is taken. -/
def Dev.takeControl (d : Dev) (f : Control) : Dev :=
  { d with dp := { d.dp with control := d.dp.control.erase f } }

/-- Its opcode when the frame is good: 64 bytes with a right FCS, not marked by the PCS. -/
def controlOp (f : Control) : Option Nat :=
  if f.bytes.length = 64 && fcsGood f.bytes && !f.bad then some (beVal (sliceOf f.bytes 14 2)) else none

/-- The timer of priority g is loaded with `t` quanta, or the priority released. -/
def Dev.loadPause (d : Dev) (p g t : Nat) : Dev :=
  let d := d.wr F.EGR_PORT_STAT_PAUSED [p] (putBit (d.rd F.EGR_PORT_STAT_PAUSED [p]) g (t != 0))
  let e := d.egrPort p
  let e := { e with quanta := Sparse.set 0 e.quanta g t, held := if t = 0 then putBit e.held g false else e.held }
  d.setEgrPort p e

/-- A PFC frame: counted for each enabled priority, and acted on while PFC_RX_EN = 1. -/
def Dev.pfcRx (d : Dev) (p : Nat) (f : List Byte) : Dev :=
  let v := beVal (sliceOf f 16 2)
  (indicesWhere 8 (fun g => bitAt v g)).foldl (fun d g =>
    let t := beVal (sliceOf f (18 + 2 * g) 2)
    let d := d.inc F.EGR_RX_PFC_COUNT [p, g]
    let e := d.egrPort p
    let d := if t = 0 then d else d.setEgrPort p { e with rxPause := putBit e.rxPause g true }
    if d.on F.EGR_PORT_CFG_PFC_RX_EN [p] then d.loadPause p g t else d) d

/-- PFC_RX: the port's oldest control frame is a PFC frame. -/
def execPfcRx (p : Fin 1024) (s : State) : Host.Outcome State Fault Refusal :=
  s.run (fun d =>
    match d.controlFrame p.val with
    | some f => if controlOp f = some 0x0101 then (d.takeControl f).pfcRx p.val f.bytes else d
    | none => d)

/-- PAUSE_RX: the port's oldest control frame is a PAUSE frame. -/
def execPauseRx (p : Fin 1024) (s : State) : Host.Outcome State Fault Refusal :=
  s.run (fun d =>
    match d.controlFrame p.val with
    | some f =>
      if controlOp f = some 0x0001 then
        let d := (d.takeControl f).inc F.EGR_RX_PAUSE_COUNT [p.val]
        if d.on F.EGR_PORT_CFG_PAUSE_RX_EN [p.val] then
          let t := beVal (sliceOf f.bytes 16 2)
          let e := d.egrPort p.val
          (d.wr F.EGR_PORT_STAT_PAUSE_ALL [p.val] (b2n (t != 0))).setEgrPort p.val
            { e with quanta := Sparse.set 0 e.quanta 8 t }
        else d
      else d
    | none => d)

/-- CTL_FRAME_BAD: the port's oldest control frame has a bad FCS, another length or another opcode, or the PCS marked it. -/
def execCtlFrameBad (p : Fin 1024) (s : State) : Host.Outcome State Fault Refusal :=
  s.run (fun d =>
    match d.controlFrame p.val with
    | some f =>
      if controlOp f = some 0x0101 || controlOp f = some 0x0001 then d
      else (d.takeControl f).inc F.EGR_RX_CTL_BAD_COUNT [p.val]
    | none => d)

/-- PAUSE_TIMER_EXPIRY: the timer of a priority, or the port's, runs out. -/
def execPauseTimerExpiry (p : Fin 1024) (pri : Option (Fin 8)) (s : State) : Host.Outcome State Fault Refusal :=
  s.run (fun d =>
    match pri with
    | some g => if d.priPaused p.val g.val then d.loadPause p.val g.val 0 else d
    | none =>
      let e := d.egrPort p.val
      if d.on F.EGR_PORT_STAT_PAUSE_ALL [p.val] then
        (d.wr F.EGR_PORT_STAT_PAUSE_ALL [p.val] 0).setEgrPort p.val { e with quanta := Sparse.set 0 e.quanta 8 0 }
      else d)

/-! ## The PFC watchdog (R222, R223) -/

/-- Priority g has been paused for the whole period, and a queue mapped to it has held a candidate for the whole of it. -/
def Dev.wdStuck (d : Dev) (p g : Nat) : Bool :=
  bitAt (d.egrPort p).held g && d.priPaused p g &&
    (List.range 12).any (fun q => d.pfcPri p q == g && bitAt (d.egrPort p).heldQ q && (d.candidate p q).isSome)

/-- The watchdog restores priority g. -/
def Dev.wdRestore (d : Dev) (p g : Nat) : Dev :=
  let d := d.wr F.EGR_PORT_STAT_WD_TRIP [p] (putBit (d.rd F.EGR_PORT_STAT_WD_TRIP [p]) g false)
  let d := d.loadPause p g 0
  (d.setEgrPort p { d.egrPort p with quiet := Sparse.set 0 (d.egrPort p).quiet g 0 }).portEvent 2 p g

/-- The watchdog trips for priority g. -/
def Dev.wdTrip (d : Dev) (p g : Nat) : Dev :=
  let d := d.wr F.EGR_PORT_STAT_WD_TRIP [p] (putBit (d.rd F.EGR_PORT_STAT_WD_TRIP [p]) g true)
  ((d.inc F.EGR_WD_TRIP_CNT_COUNT [p, g]).setEgrPort p
    { d.egrPort p with stalls := Sparse.set 0 (d.egrPort p).stalls g 0 }).portEvent 1 p g

/-- The end of a period for priority g of port p. -/
def Dev.wdPeriod (d : Dev) (p g : Nat) : Dev :=
  let e := d.egrPort p
  if d.wdTripped p g then
    let n := if bitAt e.rxPause g then 0 else Sparse.get 0 e.quiet g + 1
    let d := d.setEgrPort p { e with quiet := Sparse.set 0 e.quiet g n }
    if max 1 (d.rd F.EGR_PFCWD_RESTORE [p]) ≤ n then d.wdRestore p g else d
  else
    let n := if d.wdStuck p g then Sparse.get 0 e.stalls g + 1 else 0
    let d := d.setEgrPort p { e with stalls := Sparse.set 0 e.stalls g n }
    if max 1 (d.rd F.EGR_PFCWD_DETECT [p]) ≤ n then d.wdTrip p g else d

/-- The ports whose watchdog is enabled. -/
def Dev.wdPorts (d : Dev) : List Nat :=
  ((d.regs.filter (fun e => keyWin e.1 == R.EGR_PFCWD.win && keyId e.1 == R.EGR_PFCWD.id)).map (fun e => keyFlat e.1)).filter
    (fun p => d.on F.EGR_PFCWD_EN [p])

/-- PFCWD_PERIOD: each 100 µs the watchdog examines every priority of every enabled port. -/
def execPfcwdPeriod (s : State) : Host.Outcome State Fault Refusal :=
  s.run (fun d => d.wdPorts.foldl (fun d p =>
    let d := (List.range 8).foldl (fun d g => d.wdPeriod p g) d
    d.setEgrPort p { d.egrPort p with
      rxPause := 0, held := bitsFrom 8 (d.priPaused p), heldQ := bitsFrom 12 (fun q => (d.candidate p q).isSome) }) d)

/-- A clear of EGR_PFCWD.EN restores every tripped priority at once (R223). -/
def Dev.wdDisabled (d : Dev) (p : Nat) : Dev :=
  let d := (List.range 8).foldl (fun d g => if d.wdTripped p g then d.wdRestore p g else d) d
  d.setEgrPort p { d.egrPort p with stalls := [], quiet := [], held := 0, heldQ := 0 }

/-! ## Flushing (R224, R225) -/

/-- The reason for which port p would be flushed: 2 absent, disabled or held; 1 enabled without link. -/
def Dev.flushReason (d : Dev) (p : Nat) : Option Nat :=
  if d.absent p || !d.portLive p then some 2 else if !d.linkUp p then some 1 else none

/-- The flush of port p that runs: begun, and its state still holds. -/
def Dev.flushNow (d : Dev) (p : Nat) : Option Nat :=
  if (d.egrPort p).flush.isSome && (d.egrPort p).flush = d.flushReason p then d.flushReason p else none

/-- EGR_PORT_STAT[p].FLUSH. -/
def Dev.flushing (d : Dev) (p : Nat) : Bool := (d.flushNow p).isSome || (List.range 12).any (fun q => d.wdFlushes p q)

/-- FLUSH_START: port p is absent, disabled or held, or DOWN_HOLD has passed since its link fell or it was enabled. -/
def execFlushStart (p : Fin 1024) (s : State) : Host.Outcome State Fault Refusal :=
  s.run (fun d =>
    match d.flushReason p.val with
    | some r => d.setEgrPort p.val { d.egrPort p.val with flush := some r }
    | none => d)

/-- The reason for which queue q of port p is flushed. -/
def Dev.queueFlush (d : Dev) (p q : Nat) : Option Nat :=
  match d.flushNow p with
  | some r => some r
  | none => if d.wdFlushes p q then some 3 else none

/-- FLUSH_DROP: the flush engine of cluster n drops one candidate of the flushed queues, in round robin. -/
def execFlushDrop (n : Fin 32) (s : State) : Host.Outcome State Fault Refusal :=
  s.run (fun d =>
    let e0 := 384 * n.val
    let start := (d.egrPort (32 * n.val)).flushNext
    let hit := if d.safe then none else ((List.range 384).map (fun i => (start + i) % 384)).findSome? (fun i =>
      let p := (e0 + i) / 12
      let q := (e0 + i) % 12
      match d.queueFlush p q, d.candidate p q with
      | some r, some c => some (i, r, c)
      | _, _ => none)
    match hit with
    | none => d
    | some (i, r, c) =>
      let d := d.setEgrPort (32 * n.val) { d.egrPort (32 * n.val) with flushNext := (i + 1) % 384 }
      let d := d.pmc 106 0x4C 1
      (d.nextVoq c).schedDrop r c)

/-! ## Gates (R209, R212, R213) -/

/-- GATE_INTERVAL_END: the gates of port p change. They follow from TIME and the lists; what the edge leaves to do is the drop
of candidates that no window of the list holds. -/
def execGateIntervalEnd (p : Fin 1024) (s : State) : Host.Outcome State Fault Refusal :=
  s.run (fun d => if d.on F.EGR_PORT_CFG_GATE_EN [p.val] then d.dropOversizeAll p.val else d)

/-- The gates of port p are about to follow another list: a frame in transmission whose gate has closed keeps that (R214). -/
def Dev.noteGates (d : Dev) (p : Nat) : Dev :=
  { d with dp := { d.dp with copies := d.dp.copies.map (fun c =>
      if c.loc = .sending && isVoq c.queue && voqPort c.queue = p then
        { c with gateFrom := d.ns, gateLate := c.gateLate || d.gateShuts p (voqQueue c.queue) c.gateFrom (d.ns - c.gateFrom) }
      else c) } }

/-- GCL_SWITCH: at T_sw the new bank becomes operating. -/
def execGclSwitch (p : Fin 1024) (s : State) : Host.Outcome State Fault Refusal :=
  s.run (fun d =>
    if d.on F.EGR_PORT_STAT_PEND [p.val] && (d.egrPort p.val).tsw ≤ d.ns then
      let b := d.rd F.EGR_PORT_STAT_OPER_BANK [p.val]
      let d := d.noteGates p.val
      let d := (d.wr F.EGR_PORT_STAT_OPER_BANK [p.val] (1 - b)).wr F.EGR_PORT_STAT_PEND [p.val] 0
      (d.setEgrPort p.val { d.egrPort p.val with tsw := 0 }).dropOversizeAll p.val
    else d)

/-! ## The Lehr's clock (R217, R218) -/

/-- A queue reaches its slot, or moves from the overflow wheel to its main slot. -/
def Dev.lehrReach (d : Dev) (e : Nat) (x : LehrQ) : Dev :=
  match x.wheel with
  | some (false, slot) =>
    if slot = d.dp.lehrV % 4096 then d.setLehrQ (e / 12) (e % 12) { x with wheel := none, x := 0 } else d
  | some (true, slot) =>
    if d.dp.lehrV % 4000 = 0 && slot = d.dp.lehrV / 4000 % 8192 then
      if x.x ≤ d.lehrNow then d.setLehrQ (e / 12) (e % 12) { x with wheel := none, x := 0 }
      else (d.setLehrQ (e / 12) (e % 12) { x with wheel := some (false, ceilDiv x.x 2048 % 4096) }).pmc 106 0x49 1
    else d
  | none => d

/-- LEHR_SLOT: V advances by one slot of 8 ns. -/
def execLehrSlot (s : State) : Host.Outcome State Fault Refusal :=
  s.run (fun d =>
    let d := { d with dp := { d.dp with lehrV := (d.dp.lehrV + 1) % 2 ^ 64 } }
    d.dp.lehr.foldl (fun d e => d.lehrReach e.1 e.2) d)

/-- A write of LEHR_Q_RATE or LEHR_Q_BURST: a RATE that falls to 0 makes the queue eligible at once. -/
def Dev.lehrWrite (d : Dev) (p q : Nat) (burst : Bool) (v : Nat) : Dev :=
  if burst then d.wr F.LEHR_Q_BURST_BYTES [p, q] (v % 2 ^ 24)
  else
    let old := d.rd F.LEHR_Q_RATE_RATE [p, q]
    let d := d.wr F.LEHR_Q_RATE_RATE [p, q] (v % 2 ^ 21)
    if old ≠ 0 && v % 2 ^ 21 = 0 then d.setLehrQ p q { d.lehrQ p q with wheel := none, x := 0 } else d

/-- LEHR_RATE_WRITE. -/
def execLehrRateWrite (m : Master) (p : Fin 1024) (q : Fin 12) (burst : Bool) (v : BitVec 32) (s : State) :
    Host.Outcome State Fault Refusal :=
  s.run (fun d =>
    let r := if burst then R.LEHR_Q_BURST else R.LEHR_Q_RATE
    d.accessPf m (r.bar0At p.val + 4 * q.val) v.toNat (fun d => d.lehrWrite p.val q.val burst v.toNat))

end Sys2Proof.Machine
end

