-- ==== Sys2Proof/Machine/TblCmds.lean ====
section
/-!
DEFINITION. The table command register (spec/04_forwarding_tables.md R122 to R130, R456), relocation moves (R115), learning
(R131 to R136) and the insertion stamp (R134).
-/

namespace Sys2Proof.Machine

/-! ## Statuses and results -/

def stDone : Nat := 0
def stBadAddress : Nat := 3
def stLengthError : Nat := 5
def stNotPermitted : Nat := 6
def stTableFull : Nat := 0x0B
def stMoved : Nat := 0x0C
def stHitRace : Nat := 0x0D

/-- The result of a command that keeps its data registers (R456). -/
def TblCmd.fail (c : TblCmd) (st : Nat) : TblRes := { mid := c.mid, status := st }

def TblCmd.cmdset (c : TblCmd) : Nat := bitsOf c.word 30 30
def TblCmd.op (c : TblCmd) : Nat := bitsOf c.word 30 28
def TblCmd.table (c : TblCmd) : Nat := bitsOf c.word 27 25
def TblCmd.bank (c : TblCmd) : Nat := bitsOf c.word 24 24
def TblCmd.evict (c : TblCmd) : Bool := bitAt c.word 22
def TblCmd.evt (c : TblCmd) : Bool := bitAt c.word 21
def TblCmd.tagf (c : TblCmd) : Bool := bitAt c.word 20
def TblCmd.tag (c : TblCmd) : Nat := bitsOf c.word 19 16

/-- `n` data dwords from dword `i` as one number. -/
def TblCmd.num (c : TblCmd) (i n : Nat) : Nat := sumBy (List.range n) (fun k => c.data.getD (i + k) 0 * 2 ^ (32 * k))

/-- `n` dwords of a number. -/
def dwordsOf (n v : Nat) : List Nat := (List.range n).map (fun k => v / 2 ^ (32 * k) % 2 ^ 32)

/-- CLR counts only while TBL_CFG.CMDSET = 1. -/
def Dev.clrOn (d : Dev) (c : TblCmd) : Bool := bitAt c.word 23 && d.on F.TBL_CFG_CMDSET []

/-- The result of a command stands; TBL_CMD_DONE will publish it. -/
def Dev.tblEnd (d : Dev) (r : TblRes) : Dev := { d with tbl := { d.tbl with res := some r } }

/-! ## Commands addressed by index (R123, R126, R128) -/

/-- Indices of each table (R109). -/
def tblSize (t : Nat) : Nat :=
  if t = 0 then emSlots else if t = 1 then lpmMax else if t = 2 then 49152 else if t = 3 then 65536 else 1048576

/-- READ. -/
def Dev.tblRead (d : Dev) (c : TblCmd) : Dev :=
  let b := c.bank
  let i := c.idx
  let r : TblRes := { mid := c.mid, idx := some i }
  match c.table with
  | 0 =>
    let e := d.em b i
    let r := { r with data := some (dwordsOf 8 e) }
    if d.onPath b i then d.tblEnd { r with status := stMoved }
    else
      let d := if d.clrOn c then d.setEm b i (emSetHit e false) else d
      d.tblEnd { r with found := emValid e, hitWas := emHit e }
  | 1 => d.tblEnd { r with data := some (dwordsOf 8 (d.lpm b i)), found := lpmValid (d.lpm b i) }
  | 2 =>
    let e := Sparse.get 0 d.tbl.tcam i
    d.tblEnd { r with data := some (dwordsOf 23 e), found := tcamValid e }
  | 3 => d.tblEnd { r with data := some (dwordsOf 32 (Sparse.get 0 d.tbl.mcg i)), found := true }
  | _ =>
    let (p, by_) := Sparse.get (0, 0) d.tbl.ctr i
    let d := if d.clrOn c then { d with tbl := { d.tbl with ctr := Sparse.set (0, 0) d.tbl.ctr i (0, 0) } } else d
    d.tblEnd { r with data := some (dwordsOf 2 p ++ dwordsOf 2 by_), found := true }

/-- WRITE: what software wrote, into the slot named (R116, R119 to R121). -/
def Dev.tblWrite (d : Dev) (c : TblCmd) : Dev :=
  let b := c.bank
  let i := c.idx
  let r : TblRes := { mid := c.mid, idx := some i, found := true }
  match c.table with
  | 0 =>
    if d.onPath b i then d.tblEnd { r with status := stMoved, found := false }
    else (d.setEm b i (c.num 0 8)).tblEnd { r with found := emValid (d.em b i) }
  | 2 =>
    let e := setBitsOf (c.num 0 23) 734 715 0
    ({ d with tbl := { d.tbl with tcam := Sparse.set 0 d.tbl.tcam i e } }.activity 1 1).tblEnd
      { r with found := tcamValid (Sparse.get 0 d.tbl.tcam i) }
  | 3 => ({ d with tbl := { d.tbl with mcg := Sparse.set 0 d.tbl.mcg i (c.num 0 32) } }.activity 1 1).tblEnd r
  | _ =>
    ({ d with tbl := { d.tbl with
        ctr := Sparse.set (0, 0) d.tbl.ctr i (c.num 0 2, c.num 2 2), ctrBad := d.tbl.ctrBad.filter (fun k => k != i) } }.activity 1 1).tblEnd r

/-- The lowest number of a list. -/
def minOf (l : List Nat) : Option Nat := l.foldl (fun o x => match o with
  | some y => some (min x y)
  | none => some x) none

/-- NEXT (R128): the scan `x` of slots below `hi` meets the first valid entry, or a path slot before it (R126). -/
def Dev.nextTo (d : Dev) (x : Scan) (hi : Nat) : Dev :=
  let c := x.cmd
  let b := c.bank
  let r : TblRes := { mid := c.mid }
  let none_ := if tblSize c.table ≤ hi then d.tblEnd r else { d with tbl := { d.tbl with scan := some { x with pos := hi } } }
  match c.table with
  | 0 =>
    let hit := List.find? (fun (e : Nat × Nat) => e.1 / emSlots == b && x.pos ≤ e.1 % emSlots && e.1 % emSlots < hi &&
      emValid e.2 && (!c.tagf || emTag e.2 == c.tag)) d.tbl.em
    let path := minOf (((match d.path b with
      | some p => p.slots
      | none => [])).filter (fun i => x.pos ≤ i && i < hi))
    match hit, path with
    | none, none => none_
    | none, some i => d.tblEnd { r with status := stMoved, idx := some i }
    | some e, o =>
      let i := e.1 % emSlots
      if (match o with
          | some j => decide (j ≤ i)
          | none => false) then d.tblEnd { r with status := stMoved, idx := o }
      else
        let d := if d.clrOn c then d.setEm b i (emSetHit e.2 false) else d
        d.tblEnd { r with idx := some i, data := some (dwordsOf 8 e.2), found := true, hitWas := emHit e.2 }
  | 1 =>
    match (d.lpmBank b).find? (fun e => x.pos ≤ e.1 && e.1 < hi) with
    | some e => d.tblEnd { r with idx := some e.1, data := some (dwordsOf 8 e.2), found := true }
    | none => none_
  | _ =>
    match List.find? (fun (e : Nat × Nat) => x.pos ≤ e.1 && e.1 < hi && tcamValid e.2) d.tbl.tcam with
    | some e => d.tblEnd { r with idx := some e.1, data := some (dwordsOf 23 e.2), found := true }
    | none => none_

/-! ## Commands addressed by key (R127, R130) -/

/-- An eviction (R127, R133): the new entry replaces the victim in one write, counted; on the inactive bank a delete of the
victim and an insert of the new entry (R142). The Bool says that the repeat failed. -/
def Dev.emEvict (d : Dev) (b i e : Nat) (learn : Bool) : Dev × Bool :=
  let old := d.em b i
  let d := ((d.emPlaced b i e).inc F.TBL_EVICT_COUNT []).pmc 105 0x46 1
  (d.dualDelete b old false).dualInsert b e learn

/-- The ACT_IDX and data of an EM INSERT: STAMP, HIT and VALID set by the device (R127). -/
def Dev.insertEntry (d : Dev) (e : Nat) : Nat :=
  putBit (putBit (setBitsOf e 247 232 (d.rd F.TBL_STAMP_NOW [])) 254 false) 255 true

/-- The result of an INSERT that placed `e` in slot or handle `i`. -/
def TblCmd.placed (c : TblCmd) (i e moves : Nat) (found dual evicted : Bool) : TblRes :=
  { mid := c.mid, found := found, dualFail := dual, evicted := evicted, idx := some i, data := some (dwordsOf 8 e)
    count := some moves }

/-- INSERT into EM (R114, R127). -/
def Dev.insertEm (d : Dev) (c : TblCmd) : Dev :=
  let b := c.bank
  let e := d.insertEntry (c.num 0 8)
  match d.emPlace b e .cmd with
  | .update i =>
    let (d, f) := (d.emPlaced b i e).dualInsert b e false
    d.tblEnd (c.placed i e 0 true f false)
  | .empty i =>
    let (d, f) := (d.emPlaced b i e).dualInsert b e false
    d.tblEnd (c.placed i e 0 false f false)
  | .path p => { d.setPath b (some p) with tbl := { (d.setPath b (some p)).tbl with wait := some c } }
  | .none_ =>
    if !c.evict then d.tblEnd { c.fail stTableFull with count := some 0 }
    else
      match d.victim b e (d.rd F.TBL_TAG_CFG_EVICT [emTag e]) (fun x => !emStatic x) with
      | (d, none) => d.tblEnd { c.fail stTableFull with count := some 0 }
      | (d, some i) =>
        let (d, f) := d.emEvict b i e false
        d.tblEnd (c.placed i e 0 false f true)

/-- An EM command addressed by key, with no path in progress in its bank. Where two slots hold the key, both written by
index (R116), the command acts on the first candidate in R112's order; the spec names neither (DESIGN CHOICE, log 285). -/
def Dev.keyEm (d : Dev) (c : TblCmd) : Dev :=
  let b := c.bank
  let k := c.num 0 8
  if c.op = 2 then d.insertEm c
  else
    match d.emMatches b (emTag k) (emKey k) with
    | [] => d.tblEnd { mid := c.mid }
    | i :: _ =>
      let e := d.em b i
      let r : TblRes := { mid := c.mid, found := true, idx := some i, hitWas := emHit e }
      if c.op = 3 then
        ((d.setEm b i (emClear e)).dualDelete b e false).tblEnd { r with data := some (dwordsOf 8 e) }
      else if c.op = 4 then d.tblEnd { r with data := some (dwordsOf 8 e) }
      else if emStatic e then d.tblEnd { r with status := stNotPermitted }
      else if emHit e then d.tblEnd { r with status := stHitRace }
      else ((d.setEm b i (emClear e)).dualDelete b e true).tblEnd r

/-- An LPM command addressed by key (R117, R118). -/
def Dev.keyLpm (d : Dev) (c : TblCmd) : Dev :=
  let b := c.bank
  let e := c.num 0 8
  if famBits (lpmFam e) < lpmPlen e then d.tblEnd (c.fail stLengthError)
  else if c.op = 2 then
    match d.lpmInsert b e with
    | (d, none) => d.tblEnd { c.fail stTableFull with count := some 0 }
    | (d, some (h, upd)) =>
      let (d, f) := (d.pmc 105 0x43 1).dualLpmInsert b e
      d.tblEnd (c.placed h (lpmStored e) 0 upd f false)
  else
    match d.lpmFind b (lpmName e) with
    | none => d.tblEnd { mid := c.mid }
    | some h =>
      let x := d.lpm b h
      let r : TblRes := { mid := c.mid, found := true, idx := some h, data := some (dwordsOf 8 x) }
      if c.op = 3 then ((d.clearLpm b h).dualLpmDelete b x).tblEnd r else d.tblEnd r

/-! ## FLUSH_BY_PORT (R129) -/

/-- The slots or handles that a flush of the bank deletes. -/
def Dev.flushList (d : Dev) (c : TblCmd) : List Nat :=
  let mask := c.num 2 2
  let want := Nat.land (c.num 0 2) mask
  if c.table = 0 then
    (d.tbl.em.filter (fun x => x.1 / emSlots == c.bank && emValid x.2 && !emStatic x.2 &&
      Nat.land (emActData x.2) mask == want && (!c.tagf || emTag x.2 == c.tag))).map (fun x => x.1 % emSlots)
  else ((d.lpmBank c.bank).filter (fun x => Nat.land (lpmActData x.2) mask == want)).map (fun x => x.1)

/-- The bank that a table's lookups use. -/
def Dev.activeOf (d : Dev) (table : Nat) : Nat := if table = 0 then d.activeEm else d.activeLpm

/-- A flush posts an event for each deletion: EVT, and the bank is the active one (R129, R135). -/
def Dev.flushPosts (d : Dev) (c : TblCmd) : Bool := c.evt && c.bank == d.activeOf c.table

/-- One deletion of a flush. -/
def Dev.flushOne (d : Dev) (c : TblCmd) (i : Nat) : Dev :=
  let b := c.bank
  if c.table = 0 then
    let e := d.em b i
    if !emValid e then d
    else
      let d := (d.setEm b i (emClear e)).dualDelete b e false
      if d.flushPosts c then d.postLearn [emEvent 5 b i e] else d
  else
    let e := d.lpm b i
    if !lpmValid e then d
    else
      let d := (d.clearLpm b i).dualLpmDelete b e
      if d.flushPosts c then d.postLearn [lpmEvent 5 b i e] else d

/-- A flush deletes the slots of the list in order, as far as its scan goes, to `hi`; where the event ring has no room it
stalls (R136). `slots`: the free slots just read, in owner mode. -/
def Dev.flushRun (d : Dev) (c : TblCmd) (n slots hi : Nat) : List Nat → Dev
  | [] =>
    if tblSize c.table ≤ hi then d.tblEnd { mid := c.mid, found := n != 0, count := some n }
    else { d with tbl := { d.tbl with scan := some { cmd := c, pos := hi, n := n } } }
  | i :: t =>
    if d.flushPosts c && !d.learnMay 1 slots then d.stall (.flush i n c)
    else (d.flushOne c i).flushRun c (n + 1) (slots - 1) hi t

/-! ## The scans of NEXT and FLUSH_BY_PORT (R124, R128, R129) -/

/-- A scan begins at slot `pos`, with `n` deletions made. -/
def Dev.startScan (d : Dev) (c : TblCmd) (pos n : Nat) : Dev :=
  { d with tbl := { d.tbl with scan := some { cmd := c, pos := pos, n := n } } }

/-- The scan that runs goes on to slot `hi`: it sees each slot below as it stands now. A flush deletes between two records of a load,
one whose path is in progress in its bank being placed first (R144; log 286). -/
def Dev.scanTo (d : Dev) (hi slots : Nat) : Dev :=
  match d.tbl.scan with
  | none => d
  | some x =>
    let d := { d with tbl := { d.tbl with scan := none } }
    let hi := min hi (tblSize x.cmd.table)
    if x.cmd.op = 5 then d.nextTo x hi
    else
      let d := if x.cmd.table = 0 then d.finishBulk x.cmd.bank else d
      d.flushRun x.cmd x.n slots hi ((d.flushList x.cmd).filter (fun i => x.pos ≤ i && i < hi))

/-- A scan goes on with the time by a number of slots that the spec bounds below only: it is free (log 167). -/
def Dev.scanTick (d : Dev) : Dev :=
  match d.tbl.scan with
  | none => d
  | some x =>
    let (v, d) := d.free
    d.scanTo (x.pos + v.toNat % (emSlots + 1)) 0

/-! ## The command register (R122 to R124) -/

/-- A master whose commands TBL_ACC admits. -/
def Dev.tblAcc (d : Dev) (m : Master) : Bool :=
  match m with
  | .pf0 => d.on F.TBL_ACC_PF []
  | .vf _ => false
  | .svc _ => d.on F.TBL_ACC_SVC []
  | .bmc => d.on F.TBL_ACC_BMC []
  | .jtag => d.on F.TBL_ACC_JTAG []

/-- The cell of R123 for a command (CMDSET and OP as one number) and a table reads NP. -/
def tblNp (op t : Nat) : Bool :=
  match op with
  | 0 => false
  | 1 => t == 1
  | 5 => 2 < t
  | 7 => t != 0
  | _ => 1 < t

/-- Addressed by index. -/
def tblByIndex (op : Nat) : Bool := op == 0 || op == 1 || op == 5

/-- The first check of R123 that a command fails, in the spec's order. -/
def Dev.tblCheck (d : Dev) (c : TblCmd) : Option Nat :=
  if c.cmdset = 1 && !d.on F.TBL_CFG_CMDSET [] then some stNotPermitted
  else if 4 < c.table then some stBadAddress
  else if tblNp c.op c.table then some stNotPermitted
  else if tblByIndex c.op && tblSize c.table ≤ c.idx then some stBadAddress
  else if c.table = 2 && !d.tcamOn c.idx then some stNotPermitted
  else none

/-- A command runs; one addressed by key waits for a path in progress in its EM bank (R126). -/
def Dev.tblRun (d : Dev) (c : TblCmd) : Dev :=
  match d.tblCheck c with
  | some st => d.tblEnd (c.fail st)
  | none =>
    match c.op with
    | 0 => d.tblRead c
    | 1 => d.tblWrite c
    | 5 => (d.startScan c c.idx 0).scanTo (c.idx + 1) 0
    | 6 => d.startScan c 0 0
    | _ =>
      if c.table = 1 then d.keyLpm c
      else if (d.path c.bank).isSome then { d with tbl := { d.tbl with wait := some c } }
      else d.keyEm c

/-- A write of TBL_CMD (R122, R124): discarded from a class that TBL_ACC bars, lost while BUSY, else taken; GO starts it. -/
def Dev.tblCmd (d : Dev) (m : Master) (v : Nat) : Dev :=
  if !d.tblAcc m then d
  else if d.on F.TBL_CMD_BUSY [] then d.inc F.TBL_CMD_STAT_LOST []
  else
    let d := d.setRaw R.TBL_CMD [] (setBitsOf (setBitsOf v 31 31 0) 15 0 0)
    if !bitAt v 0 then d
    else
      let c : TblCmd := { word := v, mid := m.mid, idx := d.rd F.TBL_CMD_IDX_INDEX []
                          data := (List.range 32).map (fun k => d.rd F.TBL_CMD_DATA_DATA [k]) }
      (d.wr F.TBL_CMD_BUSY [] 1).tblRun c

/-- A command row: a write of TBL_CMD with GO = 1 that names the command `op` (CMDSET and OP). -/
def Dev.tblRow (d : Dev) (m : Master) (op v : Nat) : Dev :=
  if bitAt v 0 && bitsOf v 30 28 == op then d.access m R.TBL_CMD.bar0 v (fun d => d.tblCmd m v) else d

/-- TBL_READ. -/
def execTblRead (m : Master) (v : BitVec 32) (s : State) : Host.Outcome State Fault Refusal :=
  s.run (fun d => d.tblRow m 0 v.toNat)

/-- TBL_WRITE. -/
def execTblWrite (m : Master) (v : BitVec 32) (s : State) : Host.Outcome State Fault Refusal :=
  s.run (fun d => d.tblRow m 1 v.toNat)

/-- TBL_INSERT. -/
def execTblInsert (m : Master) (v : BitVec 32) (s : State) : Host.Outcome State Fault Refusal :=
  s.run (fun d => d.tblRow m 2 v.toNat)

/-- TBL_DELETE. -/
def execTblDelete (m : Master) (v : BitVec 32) (s : State) : Host.Outcome State Fault Refusal :=
  s.run (fun d => d.tblRow m 3 v.toNat)

/-- TBL_SEARCH. -/
def execTblSearch (m : Master) (v : BitVec 32) (s : State) : Host.Outcome State Fault Refusal :=
  s.run (fun d => d.tblRow m 4 v.toNat)

/-- TBL_NEXT. -/
def execTblNext (m : Master) (v : BitVec 32) (s : State) : Host.Outcome State Fault Refusal :=
  s.run (fun d => d.tblRow m 5 v.toNat)

/-- FLUSH_BY_PORT. -/
def execFlushByPort (m : Master) (v : BitVec 32) (s : State) : Host.Outcome State Fault Refusal :=
  s.run (fun d => d.tblRow m 6 v.toNat)

/-- DELETE_IF_IDLE. -/
def execDeleteIfIdle (m : Master) (v : BitVec 32) (s : State) : Host.Outcome State Fault Refusal :=
  s.run (fun d => d.tblRow m 7 v.toNat)

/-- A result published: the registers of R456, LOST kept, and BUSY falls (R124). -/
def Dev.tblPublish (d : Dev) (r : TblRes) : Dev :=
  let d := { d with tbl := { d.tbl with res := none } }
  let d := match r.idx with
    | some i => d.wr F.TBL_CMD_IDX_INDEX [] i
    | none => d
  let d := match r.data with
    | some l => (List.range l.length).foldl (fun (d : Dev) k => d.wr F.TBL_CMD_DATA_DATA [k] (l.getD k 0)) d
    | none => d
  let d := match r.count with
    | some n => d.wr F.TBL_CMD_RES_COUNT [] n
    | none => d
  let d := ((d.wr F.TBL_CMD_STAT_STATUS [] r.status).wr F.TBL_CMD_STAT_MID [] r.mid).wr F.TBL_CMD_STAT_FOUND [] (b2n r.found)
  let d := (d.wr F.TBL_CMD_STAT_HIT_WAS [] (b2n r.hitWas)).wr F.TBL_CMD_STAT_DUAL_FAIL [] (b2n r.dualFail)
  (d.wr F.TBL_CMD_STAT_EVICTED [] (b2n r.evicted)).wr F.TBL_CMD_BUSY [] 0

/-- TBL_CMD_DONE: the result that stands is published; a scan that runs comes to its end first. -/
def execTblCmdDone (s : State) : Host.Outcome State Fault Refusal :=
  s.run (fun d => match d.tbl.res with
    | some r => d.tblPublish r
    | none =>
      let d := d.scanTo emSlots 0
      match d.tbl.res with
      | some r => d.tblPublish r
      | none => d)

/-- The command that waited for a path that has ended runs (R126). -/
def Dev.tblResume (d : Dev) : Dev :=
  match d.tbl.wait with
  | some c => if (d.path c.bank).isNone then { d with tbl := { d.tbl with wait := none } }.keyEm c else d
  | none => d

/-- A learning change in bank `b` whose repeat follows: a record of a load whose path is in progress in the other bank is placed
first (R144; log 286), and a command that waited for that path runs before the repeat inserts there (R126). -/
def Dev.learnReady (d : Dev) (b : Nat) : Dev :=
  if d.on F.TBL_CFG_DUALWR [] && b = d.activeEm then
    let d := d.finishBulk (1 - b)
    if d.tbl.wait.any (fun c => c.bank == 1 - b) then d.tblResume else d
  else d

/-! ## Learning (R131 to R133) -/

/-- Events of a change in bank `b` need room for `n`: none where the bank is not the active one (R135). -/
def Dev.learnRoom (d : Dev) (b n slots : Nat) : Bool := b != d.activeEm || d.learnMay n slots

/-- Learn events of bank `b`. -/
def Dev.learnPost (d : Dev) (b : Nat) (l : List RingEntry) : Dev := if b = d.activeEm then d.postLearn l else d

/-- A learning insertion has its slot: the entry is written, repeated, counted, and its event posted. -/
def Dev.learned (d : Dev) (b i e : Nat) : Dev :=
  let (d, _) := ((d.emPlaced b i e).learnReady b).dualInsert b e true
  (d.inc F.TBL_LEARN_OK_COUNT []).learnPost b [emEvent 1 b i e]

/-- The entry that learning inserts (R131, R132). -/
def Dev.learnEntry (d : Dev) (o : Offer) (act : Nat) : Nat :=
  2 ^ 255 + 2 ^ 252 + o.tag % 16 * 2 ^ 248 + d.rd F.TBL_STAMP_NOW [] * 2 ^ 232 + act % 2048 * 2 ^ 208 +
    o.data % 2 ^ 64 * 2 ^ 144 + o.key % 2 ^ 144

/-- An offer dropped by the learning logic for want of room, with its FULL event (R133). -/
def Dev.learnFull (d : Dev) (o : Offer) (b : Nat) : Dev :=
  (d.inc F.TBL_LEARN_DROP_COUNT [3]).learnPost b
    [learnEvent 4 (o.tag % 16) b 0 0 0 0 (o.data % 2 ^ 32) (beBytes 18 (o.key % 2 ^ 144))]

/-- An offer in the learning logic, against bank `b` (R132, R133); a change whose events find no room is held (R136). -/
def Dev.learnAct (d : Dev) (o : Offer) (act b slots : Nat) : Dev :=
  let e := d.learnEntry o act
  let hold := fun (n : Nat) (f : Dev → Dev) => if d.learnRoom b n slots then f d else d.stall (.offer o act b)
  match d.emPlace b e .learn with
  | .update i =>
    let x := d.em b i
    if emStatic x then d.inc F.TBL_LEARN_DROP_COUNT [4]
    else match d.stationMove x e with
      | none => d
      | some x => hold 1 (fun d => ((((d.setEm b i x).learnReady b).dualInsert b x true).1).learnPost b [emEvent 2 b i x])
  | .empty i => hold 1 (fun d => d.learned b i e)
  | .path p => d.setPath b (some p)
  | .none_ =>
    let pol := d.rd F.TBL_TAG_CFG_EVICT [emTag e]
    let ok := fun x => emLearned x && !emStatic x
    let any := (d.emCands b (emTag e) (emKey e)).any (fun i => ok (d.em b i))
    if !any || pol = 0 || pol = 3 then hold 1 (fun d => d.learnFull o b)
    else hold 2 (fun d =>
      match d.victim b e pol ok with
      | (d, none) => d
      | (d, some i) =>
        let old := d.em b i
        let (d, _) := (d.learnReady b).emEvict b i e true
        (d.inc F.TBL_LEARN_OK_COUNT []).learnPost b [emEvent 3 b i old, emEvent 1 b i e])

/-- A change of the learning logic is held: it takes no further offer. -/
def Dev.learnHeld (d : Dev) : Bool := d.tbl.stalled.any (fun x => match x with
  | .flush _ _ _ => false
  | _ => true)

/-- LEARN_TAKE: the learning logic takes the next offer: not while it is paused or held, nor while the insert engine of the
active bank works on a path. -/
def execLearnTake (s : State) : Host.Outcome State Fault Refusal :=
  s.run (fun d =>
    match d.tbl.queue with
    | [] => d
    | o :: t =>
      let b := d.activeEm
      if d.on F.TBL_CFG_LEARN_PAUSE [] || d.learnHeld || (d.path b).isSome || d.safe then d
      else
        let d := ({ d with tbl := { d.tbl with queue := t } } : Dev).pmc 105 0x45 1
        if !d.on F.TBL_TAG_CFG_LEARN_EN [o.tag % 16] then d.inc F.TBL_LEARN_DROP_COUNT [2]
        else (d.learnAct o (d.rd F.TBL_TAG_CFG_LEARN_ACT [o.tag % 16]) b 0).tblResume)

/-! ## The end of a relocation path (R114, R115) -/

/-- The moves of bank `b`'s path are made: the new entry takes the slot that they freed, and the path ends. Where a repeat has
meanwhile inserted the key of a command's entry, that entry is updated instead: no second copy of a key is made. -/
def Dev.pathEnd (d : Dev) (b : Nat) (p : Path) (slots : Nat) : Dev :=
  match p.by_ with
  | .learn =>
    if d.learnRoom b 1 slots then ((d.setPath b none).learned b p.target p.entry).tblResume else d.stall (.path b)
  | .bulk => ((d.setPath b none).bulkPlaced b p).tblResume
  | .cmd =>
    let here := d.emMatches b (emTag p.entry) (emKey p.entry)
    let i := here.headD p.target
    let (d, f) := ((d.setPath b none).emPlaced b i p.entry).dualInsert b p.entry false
    match d.tbl.wait with
    | some c => { d with tbl := { d.tbl with wait := none } }.tblEnd (c.placed i p.entry p.total (!here.isEmpty) f false)
    | none => d

/-- RELOCATION_MOVE: the next move of the path in bank `b`; after the last one the new entry is written. -/
def execRelocationMove (b : Fin 2) (s : State) : Host.Outcome State Fault Refusal :=
  s.run (fun d =>
    let b := b.val
    match d.path b with
    | none => d
    | some p =>
      match p.moves with
      | [] => d
      | m :: t =>
        let p := { p with moves := t }
        let d := (if p.by_ = .bulk then d.bulkMove b m else d.emMove b m).setPath b (some p)
        if t.isEmpty then d.pathEnd b p 0 else d)

/-- LEARN_EVENT_RESUME: the oldest held change goes on when the event ring has room for it; `slots` are the free slots that
the device has just read, which count in owner mode only (R136, R338). Insertions are serial: a held offer waits for a path
in progress in its bank (R114). -/
def execLearnEventResume (slots : Fin 65537) (s : State) : Host.Outcome State Fault Refusal :=
  s.run (fun d =>
    match d.tbl.stalled with
    | [] => d
    | .offer o act b :: _ => if (d.path b).isSome then d else (d.unstall.learnAct o act b slots.val).tblResume
    | .path b :: _ =>
      match d.path b with
      | some p => d.unstall.pathEnd b p slots.val
      | none => d.unstall
    | .flush i n c :: _ => (d.unstall.startScan c i n).scanTo (i + 1) slots.val)

/-! ## TBL_CFG and the stamp (R134, R143) -/

/-- STAMP_TICK: a stamp period ends. -/
def execStampTick (s : State) : Host.Outcome State Fault Refusal :=
  s.run (fun d =>
    if d.rd F.TBL_CFG_STAMP_TICK [] = 0 then d
    else d.wr F.TBL_STAMP_NOW [] ((d.rd F.TBL_STAMP_NOW [] + 1) % 65536))

/-- A write of TBL_CFG: DUALWR rising empties the delete log, and the slots that repeats have written since then are none. -/
def Dev.tblCfg (d : Dev) (v : Nat) : Dev :=
  let rises := bitAt v 1 && !d.on F.TBL_CFG_DUALWR []
  let d := d.setRaw R.TBL_CFG [] (setBitsOf v 11 3 0 % 2 ^ 24)
  if rises then { d with tbl := { d.tbl with dlog := [], dlogLpm := [], repEm := [], repLpm := [] } } else d

/-- STAMP_TICK_WRITE: a write of TBL_CFG; NOW is kept and a new stamp period begins, whose end is the next STAMP_TICK. -/
def execStampTickWrite (m : Master) (v : BitVec 32) (s : State) : Host.Outcome State Fault Refusal :=
  s.run (fun d => d.accessPf m R.TBL_CFG.bar0 v.toNat (fun d => d.tblCfg v.toNat))

/-- DUALWR_ENABLE: a write of TBL_CFG that raises DUALWR from 0 to 1. -/
def execDualwrEnable (m : Master) (v : BitVec 32) (s : State) : Host.Outcome State Fault Refusal :=
  s.run (fun d =>
    if bitAt v.toNat 1 && !d.on F.TBL_CFG_DUALWR [] then d.accessPf m R.TBL_CFG.bar0 v.toNat (fun d => d.tblCfg v.toNat) else d)

end Sys2Proof.Machine
end

