-- ==== Sys2Proof/Machine/TableJobs.lean ====
section
/-!
DEFINITION. Table jobs (spec/04_forwarding_tables.md R137 to R145): bulk loads, dumps and bank swaps, and the Sump region
that their images may lie in (spec/06_sump_deep_store.md R180, R183).
-/

namespace Sys2Proof.Machine

/-! ## Order (R139) -/

/-- The tables of a table job, as bits by table ID. -/
def Job.tables (j : Job) : Nat := j.sub.tables

/-- A table job that the device dispatched before `j` works on one of its tables. -/
def Dev.tableBusy (d : Dev) (j : Job) : Bool :=
  (d.hif.jobs.takeWhile (fun x => x.id != j.id)).any (fun x => isTable x.sub.opcode && Nat.land x.tables j.tables != 0)

/-- The oldest table job of ring `n` with this opcode, when its turn has come. -/
def Dev.tableJob (d : Dev) (n op : Nat) : Option Job :=
  match d.newJob n op with
  | some j => if d.tableBusy j then none else some j
  | none => none

/-- A table job's state is added; it has begun. -/
def Dev.addTableJob (d : Dev) (j : TblJob) : Dev :=
  let d := d.startJob j.job
  { d with tbl := { d.tbl with jobs := d.tbl.jobs ++ [j] } }

/-- A table job that ends before it works on a table. -/
def Dev.refuseTableJob (d : Dev) (j : Job) (st : Nat) : Dev := d.addTableJob { job := j.id, table := 8, ended := some st }

def Dev.setTableJob (d : Dev) (x : TblJob) : Dev :=
  { d with tbl := { d.tbl with jobs := d.tbl.jobs.map (fun j => if j.job = x.job then x else j) } }

/-! ## The TABLE_IMAGE region (R180, R181, R183) -/

/-- Bytes of region r on port k, TABLE_IMAGE (1) or ARCHIVE (2); none while the map is in conflict. -/
def Dev.regionBytes (d : Dev) (r k : Nat) : Nat := if d.mapConflict then 0 else d.partSize k r * 268435456

/-- Where port k's part of a region begins, as a region offset. -/
def Dev.regionStart (d : Dev) (r k : Nat) : Nat := sumBy (List.range k) (d.regionBytes r)

/-- `len` bytes at an offset lie inside a region, in usable parts only; a part of SIZE 0 is absent. -/
def Dev.regionReach (d : Dev) (r off len : Nat) : Bool :=
  off + len ≤ d.regionStart r 4 &&
    (List.range 4).all (fun k =>
      let a := d.regionStart r k
      off + len ≤ a || a + d.regionBytes r k ≤ off || d.regionBytes r k == 0 || d.partUsable k r)

/-- The port on which an offset of a region lies. -/
def Dev.regionPort (d : Dev) (r off : Nat) : Nat := ((List.range 4).find? (fun k => off < d.regionStart r (k + 1))).getD 3

/-- Bytes of TABLE_IMAGE on port k, and where port k's part begins, as a region offset. -/
def Dev.imageBytes (d : Dev) (k : Nat) : Nat := d.regionBytes 1 k
def Dev.imageStart (d : Dev) (k : Nat) : Nat := d.regionStart 1 k

/-- A job's place in the region: aligned and inside. -/
def Dev.imageOk (d : Dev) (off len : Nat) : Bool := off % 64 == 0 && off + len ≤ d.imageStart 4

/-- The bytes that a job reaches lie inside TABLE_IMAGE, in usable parts only. -/
def Dev.imageReach (d : Dev) (off len : Nat) : Bool := d.regionReach 1 off len

/-- The Sump offset of a table job. -/
def Job.sumpOff (j : Job) : Nat := j.p 1 + j.p 2 * 2 ^ 32

/-- Bit 6 of P0: the source or destination is the Sump. -/
def Job.inSump (j : Job) : Bool := bitAt (j.p 0) 6

/-- A job may reach `len` bytes at offset `at_` of its source or destination: those in the Sump must be usable (R183). -/
def Dev.jobReach (d : Dev) (j : Job) (at_ len : Nat) : Bool := !j.inSump || d.imageReach (j.sumpOff + at_) len

/-! ## Slots -/

/-- Slots of a table, and bytes of a slot in an image. -/
def tblSlots (t : Nat) : Nat := tblSize t
def slotBytes (t : Nat) : Nat := if t = 2 then 96 else if t = 3 then 128 else 32

/-- Bytes of an image (R141, R145). -/
def imageLen (t : Nat) : Nat := 64 + slotBytes t * tblSlots t

/-- Slot `i` as an image holds it. -/
def Dev.slotValue (d : Dev) (t b i : Nat) : Nat :=
  match t with
  | 0 => d.em b i
  | 1 => d.lpm b i
  | 2 => Sparse.get 0 d.tbl.tcam i
  | _ => Sparse.get 0 d.tbl.mcg i

/-- Valid entries of a bank with their indices. -/
def Dev.validSlots (d : Dev) (t b : Nat) : List Nat :=
  match t with
  | 0 => (d.tbl.em.filter (fun x => x.1 / emSlots == b && emValid x.2)).map (fun x => x.1 % emSlots)
  | 1 => (d.lpmBank b).map (fun x => x.1)
  | 2 => (d.tbl.tcam.filter (fun x => tcamValid x.2)).map (fun x => x.1)
  | _ => List.range 65536

/-! ## TABLE_BULK_LOAD (R140, R141) -/

/-- The bank cleared at the job's start, the slots that repeats have written since DUALWR rose apart (R140). -/
def Dev.clearBank (d : Dev) (t b : Nat) : Dev :=
  if t = 0 then
    { d with tbl := { d.tbl with em := Sparse.keep d.tbl.em (fun k => k / emSlots != b || d.tbl.repEm.contains k) } }
  else
    { d with tbl := { d.tbl with lpm := Sparse.keep d.tbl.lpm (fun k => k / emSlots != b || d.tbl.repLpm.contains k) } }

/-- The status with which a load ends before any record, by its parameters and its image's header; the Bool says that the
header's read failed. -/
def Dev.loadCheck (d : Dev) (j : Job) (hdr : ImageHeader) : Option (Nat × Bool) :=
  let t := j.p 0 % 8
  let image := bitAt (j.p 0) 4
  if 1 < t then some (stNotPermitted, false)
  else if j.inSump && !d.imageOk j.sumpOff j.sub.len then some (stBadAddress, false)
  else if !image then (if j.sub.len ≠ 32 * j.p 3 then some (stLengthError, false) else none)
  else if d.on F.TBL_CFG_DUALWR [] then some (stNotPermitted, false)
  else if j.sub.len < imageLen t then some (stLengthError, false)
  else if !d.jobReach j 0 64 then some (stBadAddress, false)
  else match hdr with
    | .fault r => some (if j.inSump && readStatus r != 8 then stBadAddress else readStatus r, true)
    | .fields table major _ _ _ =>
      if table.toNat ≠ t || major.toNat ≠ d.rd F.TBL_ID_MAJOR [] then some (stNotPermitted, false) else none

/-- The header of the image of job `j` is to be read from the host: every earlier check passes. -/
def Dev.readsHeader (d : Dev) (j : Job) : Bool :=
  !j.inSump && (match d.loadCheck j (.fault .urOrCa) with
    | some (_, failed) => failed
    | none => false)

/-- The header's seeds for the inactive EM bank (R141). -/
def Dev.loadSeeds (d : Dev) (t b : Nat) (hdr : ImageHeader) : Dev :=
  match hdr with
  | .fields _ _ s0 s1 _ =>
    if t = 0 then (d.wr F.TBL_EM_SEED_SEED [b, 0] s0.toNat).wr F.TBL_EM_SEED_SEED [b, 1] s1.toNat else d
  | .fault _ => d

/-- How the read of an image's header ended. -/
def headerRead : ImageHeader → HostRead
  | .fault r => r
  | .fields _ _ _ _ _ => .data []

/-- `bytes` of a table job's Sump traffic, whose first byte lies at offset `at_` of its source or destination: the lines of 64 bytes
that begin in it, on the port of each (R317). -/
def Dev.imageLines (d : Dev) (j : Job) (code at_ bytes : Nat) : Dev :=
  let first := ceilDiv at_ 64
  (List.range (ceilDiv (at_ + bytes) 64 - first)).foldl (fun d i =>
    d.pmc (108 + d.regionPort 1 (j.sumpOff + 64 * (first + i))) code 1) d

/-- `bytes` at offset `at_` of a load's source are read (R290). -/
def Dev.loadRead (d : Dev) (j : TblJob) (at_ bytes : Nat) : Dev :=
  if !j.sump then d.dmaRead (some j.job) bytes
  else
    let d := d.charge (some j.job) 4 bytes
    match d.hif.jobs.find? (fun x => x.id == j.job) with
    | some x => d.imageLines x 0x58 at_ bytes
    | none => d

/-- A read of `bytes` at offset `at_` of a load's source fails: one of host memory is counted and recorded (R359), and one of
TABLE_IMAGE that returns poison, in one line, is recorded by the port (R178, R183, R317). -/
def Dev.tableFault (d : Dev) (j : TblJob) (at_ bytes : Nat) (r : HostRead) : Dev :=
  if !j.sump then d.jobErr j.job r
  else if readStatus r ≠ 8 then d
  else match d.hif.jobs.find? (fun x => x.id == j.job) with
    | some x => (d.loadRead j at_ bytes).cxlPoison (d.regionPort 1 (x.sumpOff + at_)) 1
    | none => d

/-- The slots that a load's clear invalidates: those that no repeat has written (R140). -/
def Dev.clearedSlots (d : Dev) (t b : Nat) : Nat :=
  let kept := (if t = 0 then d.tbl.repEm else d.tbl.repLpm).eraseDups
  tblSlots t - (kept.filter (fun k => k / emSlots == b)).length

/-- TABLE_BULK_LOAD: the next load of ring `n`, once earlier jobs of its table have ended. `hdr`: what its image's header
says. -/
def execTableBulkLoad (n : Fin 256) (hdr : ImageHeader) (s : State) : Host.Outcome State Fault Refusal :=
  s.run (fun d =>
    match d.tableJob n.val 0x20 with
    | none => d
    | some j =>
      let t := j.p 0 % 8
      let b := 1 - d.activeOf t
      let image := bitAt (j.p 0) 4
      if d.readsHeader j && !d.jobDma j.id then d
      else match d.loadCheck j hdr with
      | some (st, failed) => (if failed then d.tableFault { job := j.id, sump := j.inSump } 0 64 (headerRead hdr) else d).refuseTableJob j st
      | none =>
        let clear := bitAt (j.p 0) 5
        let d := (d.wr F.TBL_BULK_FAIL_COUNT [] 0).wr F.TBL_BULK_FAIL_IDX_COUNT [] 0
        let d := if image then d.loadSeeds t b hdr else d
        let total := if image then tblSlots t else j.p 3
        let x : TblJob := { job := j.id, load := true, table := t, bank := b, image := image, sump := j.inSump
                            clearing := clear, total := total
                            ended := if total = 0 && !clear then some stDone else none }
        let d := if image then d.loadRead x 0 64 else d
        let d := if clear then (d.clearBank t b).charge (some j.id) 1 (d.clearedSlots t b) else d
        d.addTableJob x)

/-- The load of table `t` that runs. -/
def Dev.loadOf (d : Dev) (t : Nat) : Option TblJob :=
  d.tbl.jobs.find? (fun j => j.load && j.table == t && j.ended.isNone)

/-- BULK_CLEAR_DONE: the background clear of table `t`'s load ends. -/
def execBulkClearDone (t : Fin 2) (s : State) : Host.Outcome State Fault Refusal :=
  s.run (fun d =>
    match d.loadOf t.val with
    | some j =>
      if j.clearing then
        d.setTableJob { j with clearing := false, ended := if j.total = 0 then some stDone else none }
      else d
    | none => d)

/-- A record that was not loaded (R140). Its ordinal counts from 0; the spec names no first number (DESIGN CHOICE, log 284). -/
def Dev.bulkFail (d : Dev) (j : TblJob) : Dev × TblJob :=
  let d := if d.rd F.TBL_BULK_FAIL_COUNT [] = 0 then d.wr F.TBL_BULK_FAIL_IDX_COUNT [] j.next else d
  (d.inc F.TBL_BULK_FAIL_COUNT [], { j with r1 := j.r1 + 1 })

/-- A KEYED record of EM: HIT 0, VALID set, also where the record has it 0 (DESIGN CHOICE, log 310), the rest as the record has it.
A key in the bank or in the delete log is left alone; a path makes its moves before the record counts as placed. -/
def Dev.loadEm (d : Dev) (j : TblJob) (v : Nat) : Dev × TblJob :=
  let b := j.bank
  let e := putBit (putBit v 254 false) 255 true
  if d.tbl.dlog.contains (emLogKey e) then (d, j)
  else match d.emPlace b e .bulk with
    | .update _ => (d, j)
    | .empty i => ((d.emPlaced b i e).attribute (some j.job) 1 1, { j with r0 := j.r0 + 1 })
    | .path p => (d.setPath b (some p), j)
    | .none_ => d.bulkFail j

/-- A KEYED record of LPM. A record whose PLEN exceeds its family's maximum fits nowhere; the spec is silent on one (DESIGN
CHOICE, log 284). -/
def Dev.loadLpm (d : Dev) (j : TblJob) (v : Nat) : Dev × TblJob :=
  let b := j.bank
  if famBits (lpmFam v) < lpmPlen v then d.bulkFail j
  else if d.tbl.dlogLpm.contains (lpmLogKey v) || (d.lpmFind b (lpmName v)).isSome then (d, j)
  else match d.lpmInsert b v with
    | (d, some _) => ((d.pmc 105 0x43 1).attribute (some j.job) 1 1, { j with r0 := j.r0 + 1 })
    | (d, none) => d.bulkFail j

/-- A slot of an image; a slot of the inactive bank has no HIT (R137). The slots of an LPM image are stored unchecked, with PLEN and
the bank's units as the image has them, and one that is not valid as 0 (DESIGN CHOICE, log 311). -/
def Dev.loadSlot (d : Dev) (j : TblJob) (v : Nat) : Dev × TblJob :=
  let d := if j.table = 0 then d.setEm j.bank j.next (emSetHit v false)
    else d.setLpm j.bank j.next (if lpmValid v then lpmStored v else 0)
  (d.attribute (some j.job) 1 1, { j with r0 := j.r0 + 1 })

/-- The insert engine of EM bank `b` works on a path. -/
def Dev.insertBusy (d : Dev) (t b : Nat) : Bool := t == 0 && (d.path b).isSome

/-- The offset of load `j`'s next record or slot in its source. -/
def TblJob.source (j : TblJob) : Nat := (if j.image then 64 else 0) + 32 * j.next

/-- The next record or slot of load `j` lies where the job can read it. -/
def Dev.jobReads (d : Dev) (j : TblJob) : Bool :=
  match d.hif.jobs.find? (fun x => x.id == j.job) with
  | some x => d.jobReach x j.source 32
  | none => true

/-- BULK_RECORD: the next record or slot of table `t`'s load has been read; a load that reaches an unusable part of the Sump ends
(R183). -/
def execBulkRecord (t : Fin 2) (r : HostRead) (s : State) : Host.Outcome State Fault Refusal :=
  s.run (fun d =>
    match d.loadOf t.val with
    | none => d
    | some j =>
      if j.clearing || j.total ≤ j.next || d.insertBusy t.val j.bank || (!j.sump && !d.jobDma j.job) then d
      else match r with
        | .data b =>
          if !d.jobReads j then d.setTableJob { j with ended := some stBadAddress }
          else
          let v := leVal (padKey 32 b)
          let d := d.loadRead j (j.source) 32
          let (d, j) := if j.image then d.loadSlot j v else if j.table = 0 then d.loadEm j v else d.loadLpm j v
          let j := { j with next := j.next + 1 }
          d.setTableJob { j with ended :=
            if j.next = j.total then some (if j.r1 = 0 then stDone else stTableFull) else none }
        | _ =>
          let st := if j.sump && readStatus r != 8 then stBadAddress else readStatus r
          (d.tableFault j j.source 32 r).setTableJob { j with ended := some st })

/-! ## TABLE_BULK_DUMP (R145) -/

/-- Bytes that a table job writes, at an offset of its destination. -/
def Dev.tableOut (d : Dev) (j : Job) (off : Nat) (bytes : List Byte) : Dev :=
  if bytes.isEmpty then d
  else if j.inSump then
    ((d.emit (.tableImage (j.sumpOff + off) bytes)).charge (some j.id) 4 bytes.length).imageLines j 0x59 off bytes.length
  else (d.scatter (d.owner j.sub.ring) j.frags off bytes).dmaWrote (some j.id) bytes.length

/-- The header of a bank's image. -/
def Dev.imageHead (d : Dev) (t b : Nat) : List Byte :=
  let seed := fun h => if t = 0 then d.rd F.TBL_EM_SEED_SEED [b, h] else 0
  padKey 64 (Config.imageHeader t (d.rd F.TBL_ID_MAJOR []) (seed 0) (seed 1) (d.validSlots t b).length)

/-- TABLE_BULK_DUMP: the next dump of ring `n` starts; an image begins with its header. -/
def execTableBulkDump (n : Fin 256) (s : State) : Host.Outcome State Fault Refusal :=
  s.run (fun d =>
    match d.tableJob n.val 0x21 with
    | none => d
    | some j =>
      let t := j.p 0 % 8
      let b := if t < 2 then bitsOf (j.p 0) 8 8 else 0
      let image := bitAt (j.p 0) 4
      if 3 < t || (1 < t && !image) then d.refuseTableJob j stNotPermitted
      else if j.inSump && !d.imageOk j.sumpOff j.sub.len then d.refuseTableJob j stBadAddress
      else if image && j.sub.len < imageLen t then d.refuseTableJob j stLengthError
      else if image && !d.jobReach j 0 64 then d.refuseTableJob j stBadAddress
      else if !j.inSump && !d.jobDma j.id then d
      else (if image then d.tableOut j 0 (d.imageHead t b) else d).addTableJob
        { job := j.id, dump := true, table := t, bank := b, image := image, sump := j.inSump, total := tblSlots t
          r0 := if image then 64 else 0 })

/-- How many of `n` pieces of `w` bytes from offset `at_` a job can write before it reaches an unusable part (R183). -/
def Dev.reachable (d : Dev) (j : Job) (at_ w n : Nat) : Nat :=
  if d.jobReach j at_ (w * n) then n else ((List.range n).takeWhile (fun i => d.jobReach j (at_ + w * i) w)).length

/-- Dump `x` goes on to slot `hi`, reading each slot as it stands now (R144, R145): every slot of an image, the valid entries
otherwise, as far as the destination has room; its job is charged for the slots read, the one that finds no room the last. It waits
while the engine may not issue requests for its ring (R328). -/
def Dev.dumpTo (d : Dev) (x : TblJob) (hi : Nat) : Dev :=
  match d.hif.jobs.find? (fun j => j.id == x.job) with
  | none => d
  | some j =>
    if !x.sump && !d.jobDma j.id then d
    else
      let hi := min hi x.total
      let l := if x.image then (List.range hi).drop x.next
        else (d.validSlots x.table x.bank).filter (fun i => x.next ≤ i && i < hi)
      let w := slotBytes x.table
      let room := if x.image then l else l.take ((j.sub.len - x.r0) / 32)
      let fit := if x.sump then room.take (d.reachable j x.r0 w room.length) else room
      let bytes := (fit.map (fun i => leBytes w (d.slotValue x.table x.bank i))).flatten
      let seen := match l[fit.length]? with
        | some i => i + 1
        | none => hi
      let d := (d.tableOut j x.r0 bytes).attribute (some j.id) 1 (seen - x.next)
      d.setTableJob { x with next := hi, r0 := x.r0 + bytes.length, r1 := x.r1 + fit.length, ended :=
        if fit.length < room.length then some stBadAddress
        else if fit.length < l.length then some stLengthError else if hi = x.total then some stDone else none }

/-- The oldest dump that runs. -/
def Dev.dumpOf (d : Dev) : Option TblJob := d.tbl.jobs.find? (fun j => j.dump && j.ended.isNone)

/-- Dumps go on with the time, each by a number of slots that the spec does not fix: it is free (log 275). -/
def Dev.dumpTick (d : Dev) : Dev :=
  (d.tbl.jobs.filter (fun j => j.dump && j.ended.isNone)).foldl (fun d x =>
    let (v, d) := d.free
    d.dumpTo x (x.next + v.toNat % (x.total + 1))) d

/-! ## TABLE_BANK_SWAP (R138) -/

/-- At a swap of EM every entry carries HIT = 0: those of the bank that has just become active (R138), and those of the bank that
serves no lookups from now on (R137). -/
def Dev.clearHits (d : Dev) : Dev :=
  { d with tbl := { d.tbl with em := d.tbl.em.filterMap (fun x =>
      let v := emSetHit x.2 false
      if v = 0 then none else some (x.1, v)) } }

/-- TABLE_BANK_SWAP: the next swap of ring `n`, at one edge, once no relocation path is in progress. -/
def execTableBankSwap (n : Fin 256) (s : State) : Host.Outcome State Fault Refusal :=
  s.run (fun d =>
    match d.tableJob n.val 0x22 with
    | none => d
    | some j =>
      let em := bitAt (j.p 0) 0
      let lpm := bitAt (j.p 0) 1
      if !em && !lpm then d.refuseTableJob j stLengthError
      else if !d.tbl.paths.isEmpty then d
      else
        let d := if em then
          let b := 1 - d.activeEm
          d.clearHits.wr F.TBL_STAT_ACTIVE_EM [] b else d
        let d := if lpm then d.wr F.TBL_STAT_ACTIVE_LPM [] (1 - d.activeLpm) else d
        d.addTableJob { job := j.id, table := 8, r0 := d.activeLpm * 2 + d.activeEm, ended := some stDone })

/-! ## The end (R139) -/

/-- A table job that has ended and whose last record's path has been moved out of the way. -/
def Dev.tableEnded (d : Dev) (j : TblJob) : Bool :=
  j.ended.isSome && !(j.load && !j.image && (match d.path j.bank with
    | some p => j.table == 0 && p.by_ == .bulk
    | none => false))

/-- The oldest table job that has ended completes; the next of its tables may start. -/
def Dev.tableFinish (d : Dev) : Dev :=
  match d.tbl.jobs.find? d.tableEnded with
  | none => d
  | some j =>
    { d with tbl := { d.tbl with jobs := d.tbl.jobs.filter (fun x => x.job != j.job) } }.finishJob j.job
      (j.ended.getD 0) j.r0 j.r1 0

/-- TABLE_JOB_DONE: the oldest table job that has ended completes; while none has, the oldest dump comes to its end first. -/
def execTableJobDone (s : State) : Host.Outcome State Fault Refusal :=
  s.run (fun d =>
    match d.tbl.jobs.find? d.tableEnded, d.dumpOf with
    | none, some x => (d.dumpTo x x.total).tableFinish
    | _, _ => d.tableFinish)

end Sys2Proof.Machine
end

