-- ==== Sys2Proof/Machine/Cxl.lean ====
section
/-!
DEFINITION. The CXL root ports and the traffic of the Sump (spec/06_sump_deep_store.md R179, R189 to R200).
-/

namespace Sys2Proof.Machine

/-! ## Batches -/

/-- Batch `seq` of context `n`. -/
def Dev.batch (d : Dev) (n seq : Nat) : Option Batch :=
  match d.ctx n with
  | some x => x.batches.find? (fun b => b.seq == seq)
  | none => none

def Dev.modBatch (d : Dev) (n seq : Nat) (f : Batch → Batch) : Dev :=
  match d.ctx n with
  | some x => d.setCtx { x with batches := x.batches.map (fun b => if b.seq = seq then f b else b) }
  | none => d

/-- The frames with cells in a batch. -/
def Dev.batchFrames (d : Dev) (b : Batch) : List Nat :=
  (b.segs.filterMap (fun s => (d.copy s.copy).map (fun c => c.pkt))).eraseDups

/-- The cells of a batch's frames in the Quarry follow where its batches stand. -/
def Dev.refitBatch (d : Dev) (b : Batch) : Dev := (d.batchFrames b).foldl (fun d u => d.refit u) d

/-- What has come back is linked in order, and queues that now hold a candidate wake up (R192, R216). -/
def Dev.linkBack (d : Dev) (n : Nat) : Dev :=
  match d.ctx n with
  | some x => wakeQueues d (d.linkBatches n x.batches.length) [eqOf x.voq]
  | none => d

/-- The Sump may issue requests: not in the safe state (R408). -/
def Dev.smpLive (d : Dev) : Bool := !d.safe

/-- BATCH_CLOSE: CLOSE_US after its first cell the context's open batch closes (R189). -/
def execBatchClose (ctx : BitVec 16) (s : State) : Host.Outcome State Fault Refusal :=
  s.run (fun d =>
    match (d.ctx ctx.toNat).bind (fun x => x.batches.getLast?) with
    | some b => if b.at_ = .open_ && b.cells != 0 then d.closeBatch ctx.toNat b.seq else d
    | none => d)

/-- The cell of its frame at which segment i of a batch begins: after the frame's cells of earlier batches, and of earlier segments
of this one. -/
def Dev.segStart (d : Dev) (x : Ctx) (b : Batch) (i : Nat) : Nat :=
  match b.segs[i]? with
  | some g => (match d.copy g.copy with
    | some c => c.cells - x.cellsFrom b.seq g.copy + sumBy (b.segs.take i) (fun s => if s.copy = g.copy then s.cells else 0)
    | none => 0)
  | none => 0

/-- The numbers, in their frame, of the cells of segment i, with its copy. -/
def Dev.segNums (d : Dev) (x : Ctx) (b : Batch) (i : Nat) : List (Copy × Nat) :=
  match (b.segs[i]?).bind (fun g => (d.copy g.copy).map (fun c => (c, g.cells))) with
  | some (c, n) => (List.range n).map (fun k => (c, d.segStart x b i + k))
  | none => []

/-- The cells of a batch, by copy and number. -/
def Dev.batchCells (d : Dev) (x : Ctx) (b : Batch) : List (Copy × Nat) := (List.range b.segs.length).flatMap (fun i => d.segNums x b i)

/-- The Quarry cells of a batch, by their pointers. -/
def Dev.batchChain (d : Dev) (x : Ctx) (b : Batch) : List Nat :=
  (d.batchCells x b).filterMap (fun c => (d.pkt c.1.pkt).bind (fun p => Sparse.find? p.chain c.2))

/-- The batch's cells are read from the Quarry for their write, each from its bank group (R317, event 0x33). -/
def Dev.readForWrite (d : Dev) (x : Ctx) (b : Batch) : Dev :=
  ((d.batchChain x b).foldl (fun d c => d.pmc (96 + ptrGroup c) 0x33 1) d).charge none 3 b.cells

/-- The records of a batch (R186): one for each frame that starts in it. `at_`: the cell at which the segments begin. -/
def Dev.segRecords (d : Dev) : List Seg → Nat → List SlotRecord
  | [], _ => []
  | g :: t, at_ =>
    let r := match d.copy g.copy with
      | some c => if g.first then [{ md := c.md, len := c.len, firstCell := at_, ecn := c.ecn, charge := c.charge.num }] else []
      | none => []
    r ++ d.segRecords t (at_ + g.cells)

/-- The slot that a batch's write fills (R186). The layout inside header and record the spec does not give, so the value of the
CRC-32C over them is free (log 282). -/
def Dev.slotImage (d : Dev) (x : Ctx) (b : Batch) (crc : Nat) : SlotImage :=
  { off := 24576 * b.slot, voq := x.voq, ctx := x.num, seq := b.seq, count := b.cells
    continued := (b.segs.head?).any (fun g => !g.first), crc := crc % 2 ^ 32, records := d.segRecords b.segs 0
    cells := (d.batchCells x b).map (fun c => sliceOf (d.copySource c.1) (256 * c.2) 256) }

/-- BATCH_WRITE_ISSUE: the write of the batch that has waited longest is issued, if the write bucket holds its bytes. A
batch whose group has no extent takes one; one with a frame that still arrives waits for it (R171). -/
def execBatchWriteIssue (s : State) : Host.Outcome State Fault Refusal :=
  s.run (fun d =>
    match d.sump.queue with
    | [] => d
    | (n, seq) :: t =>
      match d.ctx n, d.batch n seq with
      | some x, some b =>
        let f := d.fillBuckets.batchBoundary
        let (e, x, ok) := f.takeExtent x (groupOf seq)
        if !d.smpLive || !ok || f.sump.wrBucket < b.bytes * 1000 || f.batchArriving b then f
        else
          let (crc, e) := e.free
          let d := e.setCtx x
          let ext := ((x.chain.find? (fun g => g.1 == groupOf seq)).map (fun g => g.2)).getD 0
          let k := d.extentPort ext
          let d := { d with sump := { d.sump with queue := t, wrBucket := d.sump.wrBucket - b.bytes * 1000 } }
          let d := (d.modBatch n seq (fun b => { b with at_ := .writing, extent := some ext })).readForWrite x b
          ((d.emit (.cxlWrite k ext b.bytes (e.slotImage x b crc.toNat))).charge none 4 b.bytes).pmc (108 + k) 0x59 (ceilDiv b.bytes 64)
      | _, _ => { d with sump := { d.sump with queue := t } })

/-- A UC fault of the Sump controller about port `k`. -/
def Dev.sumpFault (d : Dev) (src k : Nat) : Dev := d.raise 45 src (k * 2 ^ 30)

/-- Every frame of a batch is lost, counted under r. -/
def Dev.loseBatch (d : Dev) (r : Nat) (b : Batch) : Dev := (b.segs.map (fun s => s.copy)).foldl (fun d u => d.loseCopy r u) d

/-- BATCH_WRITE_DONE: the last CXL write of a batch completes, or a write ends in an error (R189, R199). -/
def execBatchWriteDone (ctx : BitVec 16) (seq : Nat) (ok : Bool) (s : State) : Host.Outcome State Fault Refusal :=
  s.run (fun d =>
    let n := ctx.toNat
    match d.batch n seq with
    | none => d
    | some b =>
      if b.at_ ≠ .writing then d
      else
        let k := d.extentPort (b.extent.getD 0)
        if ok then
          let d := ((d.modBatch n seq (fun b => { b with at_ := .written })).inc F.SMP_WR_BATCH_COUNT []).pmc 107 0x50 1
          (b.segs.foldl (fun d s => d.batchRecord s.copy 0x23 n seq [BitVec.ofNat 8 k]) d).refitBatch b
        else
          let d := (d.wr F.CXL_ERR_UNCOR [k] 1).loseBatch 2 b
          ((d.modBatch n seq (fun b => { b with at_ := .returned })).linkBack n).sumpFault 0x42 k)

/-! ## Read-back (R191, R192) -/

/-- The next unread batch of a context, when its read may be issued (R191). -/
def Dev.readReady (d : Dev) (x : Ctx) : Option Batch :=
  let flight := (x.batches.filter (fun b => b.at_ == .reading)).length
  match x.batches.find? (fun b => b.at_ != .reading && b.at_ != .returned) with
  | some b =>
    if b.at_ == .written && d.voqDepth x.voq + 64 * flight < d.cm F.SMP_CLS_LIM_RB_THR [voqQueue x.voq] && flight < 4 &&
        d.stageUsed + 64 ≤ d.cm F.QRY_STAGE_CELLS [] && b.bytes * 1000 ≤ d.sump.rdBucket then some b else none
  | none => none

/-- The ready context whose turn it is: the round robin of R191 goes by context number and starts at context 0 after reset (DESIGN
CHOICE, log 324). -/
def Dev.nextReader (d : Dev) : Option (Ctx × Batch) :=
  let ready := d.sump.ctxs.filterMap (fun x => (d.readReady x).map (fun b => (x, b)))
  let key := fun (e : Ctx × Batch) => (e.1.num + 65536 - d.sump.rrCtx % 65536) % 65536
  ready.foldl (fun o e => match o with
    | some y => if key e < key y then some e else some y
    | none => some e) none

/-- BATCH_READ_ISSUE: the next read of the contexts that are ready is issued. -/
def execBatchReadIssue (s : State) : Host.Outcome State Fault Refusal :=
  s.run (fun d =>
    let f := d.fillBuckets.batchBoundary
    match f.nextReader with
    | none => f
    | some (x, b) =>
      if !d.smpLive then f
      else
        let ext := b.extent.getD 0
        let k := f.extentPort ext
        let d := { f with sump := { f.sump with rdBucket := f.sump.rdBucket - b.bytes * 1000, rrCtx := x.num + 1 } }
        let d := d.modBatch x.num b.seq (fun b => { b with at_ := .reading })
        (((d.emit (.cxlRead k ext b.bytes)).charge none 4 b.bytes).activity 16 b.bytes).pmc (108 + k) 0x58 (ceilDiv b.bytes 64))

/-- The copies of a batch hit by poison in these cells and records. -/
def Batch.poisoned (b : Batch) (cells records : List Nat) : List Nat :=
  let starts := (b.segs.filter (fun s => s.first)).map (fun s => s.copy)
  let byRec := records.filterMap (fun i => starts[i]?)
  let hit := b.segs.foldl (fun (a : Nat × List Nat) s =>
    (a.1 + s.cells, if cells.any (fun i => a.1 ≤ i && i < a.1 + s.cells) then s.copy :: a.2 else a.2)) (0, [])
  b.segs.filterMap (fun s => if byRec.contains s.copy || hit.2.contains s.copy then some s.copy else none)

/-- Poisoned lines that a read returned. -/
def poisonedLines : ReadBack → Nat
  | .clean => 0
  | .badHeader lines => lines.val
  | .poison _ _ lines => lines.val

/-- BATCH_READ_RETURN: a batch read returns; frames hit by an error are dropped, and the batch counts as returned (R199). -/
def execBatchReadReturn (ctx : BitVec 16) (seq : Nat) (r : ReadBack) (s : State) : Host.Outcome State Fault Refusal :=
  s.run (fun d =>
    let n := ctx.toNat
    match d.batch n seq with
    | none => d
    | some b =>
      if b.at_ ≠ .reading then d
      else
        let k := d.extentPort (b.extent.getD 0)
        let d := ((d.modBatch n seq (fun b => { b with at_ := .returned })).inc F.SMP_RD_BATCH_COUNT []).pmc 107 0x51 1
        let lines := poisonedLines r
        let d := d.cxlPoison k lines
        let d := match r with
          | .clean => d
          | .badHeader _ => (d.loseBatch (if lines = 0 then 1 else 0) b).sumpFault (if lines = 0 then 0x41 else 0x40) k
          | .poison cells records _ =>
            let hit := b.poisoned (cells.map (fun (c : Fin 64) => c.val)) (records.map (fun (c : Fin 64) => c.val))
            (hit.foldl (fun (d : Dev) u => d.loseCopy 0 u) d).sumpFault 0x40 k
        (d.refitBatch b).linkBack n)

/-! ## Folding and ending a spill (R193, R194) -/

/-- SPILL_FOLD: with no batch in the Sump and an empty Quarry part, the waiting and the open batches are linked in place. While a
frame of one of them still arrives the fold waits: R193 names no such condition, and R171 holds back such a batch's write (DESIGN
CHOICE, log 325). -/
def execSpillFold (ctx : BitVec 16) (s : State) : Host.Outcome State Fault Refusal :=
  s.run (fun d =>
    let n := ctx.toNat
    match d.ctx n with
    | none => d
    | some x =>
      let l := x.batches.filter (fun b => b.cells != 0)
      if l.isEmpty || !d.quarryEmpty x.voq || !x.batches.all (fun b => (b.at_ == .waiting || b.at_ == .open_) && !d.batchArriving b) then d
      else
        let d := d.setCtx { x with batches := x.batches.map (fun b => { b with at_ := .returned }) }
        let d := { d with sump := { d.sump with queue := d.sump.queue.filter (fun e => e.1 != n) } }
        ((d.addTo F.SMP_FOLD_COUNT [] l.length).pmc 107 0x52 l.length).linkBack n)

/-- SPILL_END: nothing of the spill remains; the context and its extents are free again. -/
def execSpillEnd (ctx : BitVec 16) (s : State) : Host.Outcome State Fault Refusal :=
  s.run (fun d =>
    let n := ctx.toNat
    match d.ctx n with
    | none => d
    | some x =>
      let live := x.batches.any (fun b => b.cells != 0 || b.at_ == .writing || b.at_ == .reading) ||
        d.dp.copies.any (fun c => c.queue == x.voq && !c.released && c.linked != 0)
      if live then d
      else { d with sump := { d.sump with
        ctxs := d.sump.ctxs.filter (fun c => c.num != n)
        queue := d.sump.queue.filter (fun e => e.1 != n) } })

/-! ## Ports (R179, R199, R200) -/

/-- Enumeration of port k begins with the training of its link, which is not up (R179, log 283). -/
def Dev.cxlStart (d : Dev) (k : Nat) : Dev :=
  { ((d.wr F.CXL_STAT_ENUM_DONE [k] 0).wr F.CXL_STAT_ENUM_ERR [k] 0).wr F.CXL_STAT_LINK_UP [k] 0 with
    sump := { d.sump with enumerating := putBit d.sump.enumerating k true } }

/-- Batches on port k and writes in flight to it lose their frames; extents on k leave the chains. -/
def Dev.dropPort (d : Dev) (k : Nat) (x : Ctx) : Dev :=
  let hit := fun (b : Batch) => (b.at_ == .writing || b.at_ == .written || b.at_ == .reading) &&
    (match b.extent with
      | some e => d.extentPort e == k
      | none => false)
  let chain := x.chain.filter (fun g => d.extentPort g.2 != k)
  let d := (x.batches.filter hit).foldl (fun d b => d.loseBatch 2 b) d
  match d.ctx x.num with
  | some y => (d.setCtx { y with
      chain := chain
      batches := y.batches.map (fun b => if hit b then { b with at_ := .returned } else b) }).linkBack x.num
  | none => d

/-- A load that reads the TABLE_IMAGE part on port k ends with BAD_ADDRESS (R200). -/
def Dev.imageLost (d : Dev) (k : Nat) : Dev :=
  let at_ := fun (j : TblJob) => (match d.hif.jobs.find? (fun x => x.id == j.job) with
    | some x => x.sumpOff + (if j.image then 64 else 0) + 32 * j.next
    | none => 0)
  { d with tbl := { d.tbl with jobs := d.tbl.jobs.map (fun j =>
      if j.load && j.sump && !j.clearing && j.ended.isNone && d.imageStart k ≤ at_ j &&
          at_ j < d.imageStart k + d.imageBytes k then { j with ended := some stBadAddress } else j) } }

/-- The link of port k is down, or MEM_READY has fallen: frames on it are lost, its extents leave their chains (R199, R200; not in
the safe state, R408). `src` is the fault that is raised. -/
def Dev.cxlDown (d : Dev) (k src : Nat) : Dev :=
  let d := (d.wr F.CXL_ERR_LINK_DOWN [k] 1).inc F.CXL_LINK_DOWN_CNT_COUNT [k]
  let d := if d.safe then d else (d.sump.ctxs.foldl (fun d x => d.dropPort k x) d).imageLost k
  let d := d.wr F.CXL_STAT_MEM_READY [k] 0
  d.sumpFault src k

/-- The link itself is down; firmware enumerates the port again while it is enabled. -/
def Dev.cxlLost (d : Dev) (k src : Nat) : Dev :=
  let d := (d.cxlDown k src).wr F.CXL_STAT_LINK_UP [k] 0
  if d.on F.CXL_CTL_EN [k] then d.cxlStart k else d.wr F.CXL_STAT_ENUM_DONE [k] 0

/-- The port has a link or a memory to lose. -/
def Dev.cxlUp (d : Dev) (k : Nat) : Bool := d.on F.CXL_STAT_LINK_UP [k] || d.memReady k

/-- A write of CXL_CTL[k]: EN rising starts enumeration; EN falling stops it and the port's requests, and its link is down; RETRAIN
takes the link down and enumerates again (R179). CAP, SPEED, WIDTH and FLIT256 keep what the last trained link had, and ENUM_DONE its
value while EN = 0 (DESIGN CHOICE, log 283). -/
def Dev.cxlCtl (d : Dev) (k v : Nat) : Dev :=
  let was := d.on F.CXL_CTL_EN [k]
  let now := bitAt v 0
  let d := d.setRaw R.CXL_CTL [k] (setBitsOf (v % 64) 1 1 0)
  if !was && now then d.cxlStart k
  else if was && !now then
    let d := { d with sump := { d.sump with enumerating := putBit d.sump.enumerating k false } }
    (if d.cxlUp k then d.cxlDown k 0x43 else d).wr F.CXL_STAT_LINK_UP [k] 0
  else if now && bitAt v 1 then (if d.cxlUp k then d.cxlLost k 0x43 else d.cxlStart k)
  else d

/-- The BAR0 offset of CXL_CTL[k]. -/
def cxlCtlOff (k : Nat) : Nat := R.CXL_CTL.bar0At k

/-- CXL_ENUMERATE: a write of CXL_CTL that raises EN. -/
def execCxlEnumerate (m : Master) (k : Fin 4) (v : BitVec 32) (s : State) : Host.Outcome State Fault Refusal :=
  s.run (fun d =>
    if bitAt v.toNat 0 && !d.on F.CXL_CTL_EN [k.val] && d.domOn (168 + k.val) then
      d.accessPf m (cxlCtlOff k.val) v.toNat (fun d => d.cxlCtl k.val v.toNat)
    else d)

/-- CXL_RETRAIN: a write of CXL_CTL with RETRAIN = 1 on an enabled port. -/
def execCxlRetrain (m : Master) (k : Fin 4) (v : BitVec 32) (s : State) : Host.Outcome State Fault Refusal :=
  s.run (fun d =>
    if bitAt v.toNat 1 && bitAt v.toNat 0 && d.on F.CXL_CTL_EN [k.val] && d.domOn (168 + k.val) then
      d.accessPf m (cxlCtlOff k.val) v.toNat (fun d => d.cxlCtl k.val v.toNat)
    else d)

/-- CXL_DISABLE: a write of CXL_CTL that clears EN. -/
def execCxlDisable (m : Master) (k : Fin 4) (v : BitVec 32) (s : State) : Host.Outcome State Fault Refusal :=
  s.run (fun d =>
    if !bitAt v.toNat 0 && d.on F.CXL_CTL_EN [k.val] && d.domOn (168 + k.val) then
      d.accessPf m (cxlCtlOff k.val) v.toNat (fun d => d.cxlCtl k.val v.toNat)
    else d)

/-- The link's rate and width: no faster than MAX_SPEED, no wider than MAX_WIDTH; 256-byte flits at 64 GT/s (speed 0), 68-byte
flits below (R178). -/
def Dev.cxlLink (d : Dev) (k speed width : Nat) : Dev :=
  let cap := fun x => if x = 3 then 0 else x
  let s := Nat.max speed (cap (d.rd F.CXL_CTL_MAX_SPEED [k]))
  let d := d.wr F.CXL_STAT_SPEED [k] s
  let d := d.wr F.CXL_STAT_WIDTH [k] (Nat.max width (cap (d.rd F.CXL_CTL_MAX_WIDTH [k])))
  (d.wr F.CXL_STAT_FLIT256 [k] (b2n (s == 0))).wr F.CXL_STAT_LINK_UP [k] 1

/-- Enumeration has ended with a failure code. -/
def Dev.cxlFail (d : Dev) (k code : Nat) : Dev := (d.wr F.CXL_STAT_ENUM_DONE [k] 1).wr F.CXL_STAT_ENUM_ERR [k] code

/-- The address at which HDM decoder 0 of port k's device is based (R179, step 7). -/
def hdmBase (k : Nat) : Nat := k * 0x2000000000

/-- CXL_ENUM_COMPLETE: enumeration of port k, which firmware on S0 runs, ends; when all steps pass, the device's HDM decoder has been
programmed and committed. -/
def execCxlEnumComplete (k : Fin 4) (r : CxlEnum) (s : State) : Host.Outcome State Fault Refusal :=
  s.run (fun d =>
    let k := k.val
    if !bitAt d.sump.enumerating k || d.safe || !d.coreRuns 0 then d
    else
      let d := { d with sump := { d.sump with enumerating := putBit d.sump.enumerating k false } }
      match r with
      | .noLink => d.cxlFail k 1
      | .failed speed width step => (d.cxlLink k speed.val width.val).cxlFail k (step.val + 2)
      | .passed speed width bytes =>
        let cap := min bytes.toNat 137438953472 / 268435456
        let d := d.cxlLink k speed.val width.val
        if cap = 0 then d.cxlFail k 6
        else
          let d := ((d.wr F.CXL_STAT_CAP [k] cap).wr F.CXL_STAT_MEM_READY [k] 1).cxlFail k 0
          d.emit (.cxlHdm k (hdmBase k) (cap * 268435456)))

/-- CXL_LINK_DOWN. -/
def execCxlLinkDown (k : Fin 4) (s : State) : Host.Outcome State Fault Refusal :=
  s.run (fun d => if d.cxlUp k.val then d.cxlLost k.val 0x43 else d)

/-- CXL_VIRAL: handled as a link down, with the port's VIRAL flag. -/
def execCxlViral (k : Fin 4) (s : State) : Host.Outcome State Fault Refusal :=
  s.run (fun d => if d.cxlUp k.val then (d.wr F.CXL_ERR_VIRAL [k.val] 1).cxlLost k.val 0x44 else d)

/-- CXL_FLIT_REPLAY: a link-layer CRC error, replayed. -/
def execCxlFlitReplay (k : Fin 4) (s : State) : Host.Outcome State Fault Refusal :=
  s.run (fun d =>
    if d.on F.CXL_STAT_LINK_UP [k.val] then
      (((d.inc F.CXL_RETRY_CNT_COUNT [k.val]).wr F.CXL_ERR_CE [k.val] 1).pmc (108 + k.val) 0x5A 1).raise (46 + k.val) 0x40 0
    else d)

end Sys2Proof.Machine
end

