-- ==== Sys2Proof/Machine/GatherMath.lean ====
section
/-!
DEFINITION. The arithmetic of the Gather engines (spec/08_gather_collectives.md R235, R256, R257): data types, the
accumulator of one element, and its rounding to the result.
-/

namespace Sys2Proof.Machine

/-- What the arithmetic needs of a floating-point type: bits of the significand (the hidden one included), bits of the
exponent, the encodings of the largest finite value and of +∞ (none for E4M3) and the canonical NaN, and how many bits the
accumulator's unit lies below the type's smallest subnormal. -/
structure FloatType where
  prec : Nat
  expBits : Nat
  maxFinite : Nat
  inf : Option Nat
  nan : Nat
  shift : Nat
  deriving DecidableEq, Repr

/-- The floating-point data types by DTYPE (R234, R257). -/
def floatType (t : Nat) : Option FloatType :=
  match t with
  | 0 => some { prec := 24, expBits := 8, maxFinite := 0x7F7FFFFF, inf := some 0x7F800000, nan := 0x7FC00000, shift := 0 }
  | 1 => some { prec := 8, expBits := 8, maxFinite := 0x7F7F, inf := some 0x7F80, nan := 0x7FC0, shift := 16 }
  | 2 => some { prec := 11, expBits := 5, maxFinite := 0x7BFF, inf := some 0x7C00, nan := 0x7E00, shift := 0 }
  | 3 => some { prec := 4, expBits := 4, maxFinite := 0x7E, inf := none, nan := 0x7F, shift := 0 }
  | 4 => some { prec := 3, expBits := 5, maxFinite := 0x7B, inf := some 0x7C, nan := 0x7E, shift := 0 }
  | _ => none

/-- Bytes of an element; 0 for a reserved DTYPE (R235). -/
def elemSize (t : Nat) : Nat :=
  if t = 0 || t = 5 || t = 6 then 4 else if t = 1 || t = 2 then 2 else if t = 3 || t = 4 then 1 else 0

/-- Bits below the sign of a floating-point type. -/
def FloatType.magBits (f : FloatType) : Nat := f.expBits + f.prec - 1
def FloatType.mag (f : FloatType) (b : Nat) : Nat := b % 2 ^ f.magBits
def FloatType.neg (f : FloatType) (b : Nat) : Bool := bitAt b f.magBits
def FloatType.isInf (f : FloatType) (b : Nat) : Bool := f.inf == some (f.mag b)
def FloatType.isNan (f : FloatType) (b : Nat) : Bool :=
  match f.inf with
  | some i => i < f.mag b
  | none => f.maxFinite < f.mag b

/-- A finite magnitude in units of the smallest subnormal. -/
def FloatType.units (f : FloatType) (m : Nat) : Nat :=
  let e := m / 2 ^ (f.prec - 1)
  let x := m % 2 ^ (f.prec - 1)
  if e = 0 then x else (2 ^ (f.prec - 1) + x) * 2 ^ (e - 1)

/-- A finite value in the accumulator's unit. -/
def FloatType.value (f : FloatType) (b : Nat) : Int :=
  let n : Int := (f.units (f.mag b) * 2 ^ f.shift : Nat)
  if f.neg b then -n else n

/-- Bits of a number. -/
def bitLen (n : Nat) : Nat := if n = 0 then 0 else Nat.log2 n + 1

/-- n / 2^k rounded to nearest, ties to even. -/
def roundEven (n k : Nat) : Nat :=
  let q := n / 2 ^ k
  let r := 2 * (n % 2 ^ k)
  if r < 2 ^ k then q else if 2 ^ k < r then q + 1 else if k = 0 then q else q + q % 2

/-- Rounded to the 53 bits of binary64; a sum of FP32 or BF16 values lies in its normal range or is exact. -/
def round53 (x : Int) : Int :=
  let m := x.natAbs
  let k := bitLen m - 53
  let r : Int := (roundEven m k * 2 ^ k : Nat)
  if x < 0 then -r else r

/-- A count of smallest subnormals, of at most `prec` significant bits, as a magnitude. -/
def FloatType.encode (f : FloatType) (n : Nat) : Nat :=
  let l := bitLen n
  if l < f.prec then n
  else (l - f.prec + 1) * 2 ^ (f.prec - 1) + (n / 2 ^ (l - f.prec) - 2 ^ (f.prec - 1))

/-- A value in the accumulator's unit rounded once to the type; the Bool says that it overflowed (R256). -/
def FloatType.round (f : FloatType) (v : Int) : Nat × Bool :=
  let sign := if v < 0 then 2 ^ f.magBits else 0
  let m := v.natAbs
  let k := Nat.max f.shift (bitLen m - f.prec)
  let b := f.encode (roundEven m k * 2 ^ (k - f.shift))
  if f.maxFinite < b then (sign + f.inf.getD f.maxFinite, true) else (sign + b, false)

/-- The place of a float's bits in the order of R257: −0 below +0. -/
def FloatType.key (f : FloatType) (b : Nat) : Int := if f.neg b then -(f.mag b : Int) - 1 else f.mag b
def FloatType.ofKey (f : FloatType) (k : Int) : Nat := if k < 0 then 2 ^ f.magBits + (-k - 1).toNat else k.toNat

/-- A contribution's element added to an accumulator (OP: 0 SUM, 1 MIN, 2 MAX, 3 AND, 4 OR, 5 XOR). -/
def Accum.add (a : Accum) (op t b : Nat) : Accum :=
  let first := !a.some_
  let a := { a with some_ := true }
  if 3 ≤ op then
    let x := a.v.toNat
    let y := if first then b else if op = 3 then Nat.land x b else if op = 4 then Nat.lor x b else Nat.xor x b
    { a with v := y }
  else
    let pick := fun (x : Int) => if op = 0 then a.v + x else if first then x else if op = 1 then min a.v x else max a.v x
    match floatType t with
    | none => { a with v := pick (if t = 5 then toSigned 32 b else b) }
    | some f =>
      if f.isNan b then { a with nan := true }
      else if op ≠ 0 then { a with v := pick (f.key b) }
      else if f.isInf b then (if f.neg b then { a with ninf := true } else { a with pinf := true })
      else
        let s := a.v + f.value b
        { a with v := if t ≤ 1 then round53 s else s, negZero := a.negZero && f.neg b && f.mag b == 0 }

/-- The result element, and whether it overflowed or saturated. -/
def Accum.result (a : Accum) (op t : Nat) : Nat × Bool :=
  if 3 ≤ op then (a.v.toNat, false)
  else match floatType t with
    | none =>
      let lo : Int := if t = 5 then -(2 ^ 31 : Int) else 0
      let hi : Int := if t = 5 then 2 ^ 31 - 1 else 2 ^ 32 - 1
      let x := if op = 0 then max lo (min hi a.v) else a.v
      (ofSigned 32 x, decide (x ≠ a.v))
    | some f =>
      if a.nan then (f.nan, false)
      else if op ≠ 0 then (f.ofKey a.v, false)
      else if a.pinf && a.ninf then (f.nan, false)
      else if a.pinf then (f.inf.getD f.nan, false)
      else if a.ninf then (2 ^ f.magBits + f.inf.getD f.nan, false)
      else if a.v = 0 then (if a.negZero then 2 ^ f.magBits else 0, false)
      else f.round a.v

/-- The elements of a payload. -/
def elements (size : Nat) (b : List Byte) (n : Nat) : List Nat := (List.range n).map (fun i => beVal (sliceOf b (size * i) size))

end Sys2Proof.Machine
end

