-- ==== Sys2Proof/Machine/GatherSend.lean ====
section
/-!
DEFINITION. The frames that the Gather engines build and send (spec/08_gather_collectives.md R234 to R236, R258, R259), and
the group directory's basic operations.
-/

namespace Sys2Proof.Machine

/-! ## The directory -/

def Dev.group (d : Dev) (slot : Nat) : Option Group := Sparse.find? d.gth.dir slot

/-- The group with this identifier. -/
def Dev.groupOf (d : Dev) (id : Nat) : Option Group := (d.group (id % 4096)).filter (fun g => g.id == id)

def Dev.setGroup (d : Dev) (g : Group) : Dev :=
  { d with gth := { d.gth with dir := Sparse.put d.gth.dir (g.id % 4096) (some g) } }

def Group.slot (g : Group) : Nat := g.id % 4096

/-- The engine list of a group (R232). -/
def Group.list (g : Group) : List Nat := indicesWhere 8 (fun k => bitAt g.engines k)

def Dev.setCtxs (d : Dev) (l : List GCtx) : Dev := { d with gth := { d.gth with ctxs := l } }

/-- The context of a chunk. -/
def Dev.gctx (d : Dev) (slot step seq : Nat) : Option GCtx :=
  d.gth.ctxs.find? (fun c => c.slot == slot && c.step == step && c.seq == seq)

def Dev.modGctx (d : Dev) (slot step seq : Nat) (f : GCtx → GCtx) : Dev :=
  d.setCtxs (d.gth.ctxs.map (fun c => if c.slot = slot && c.step = step && c.seq = seq then f c else c))

/-- Contexts of an engine that are not FREE. -/
def Dev.ctxUsed (d : Dev) (k : Nat) : Nat := (d.gth.ctxs.filter (fun c => c.engine == k)).length

/-! ## Headers -/

/-- A Gather header (R234). -/
structure GHdr where
  ver : Nat := 1
  kind : Nat := 0
  op : Nat := 0
  dtype : Nat := 0
  group : Nat := 0
  part : Bool := false
  unicast : Bool := false
  last : Bool := false
  sat : Bool := false
  member : Nat := 0
  step : Nat := 0
  seq : Nat := 0
  nseq : Nat := 0
  count : Nat := 0
  code : Nat := 0
  gen : Nat := 0
  ncontrib : Nat := 0
  arg : Nat := 0

/-- The 32 bytes of a header. -/
def GHdr.bytes (h : GHdr) : List Byte :=
  beBytes 1 (h.ver * 16 + h.kind) ++ beBytes 1 (h.op * 16 + h.dtype) ++ beBytes 3 h.group ++
    beBytes 1 (b2n h.part * 128 + b2n h.unicast * 32 + b2n h.last * 16 + b2n h.sat * 8) ++ beBytes 2 h.member ++
    beBytes 4 h.step ++ beBytes 2 h.seq ++ beBytes 2 h.nseq ++ beBytes 2 h.count ++ beBytes 2 h.code ++
    beBytes 4 h.gen ++ beBytes 2 h.ncontrib ++ beBytes 2 h.arg ++ beBytes 4 0

/-- The header at a byte of a frame; reserved fields are ignored (R235). -/
def parseGHdr (b : List Byte) (at_ : Nat) : GHdr :=
  let v := fun i n => beVal (sliceOf b (at_ + i) n)
  { ver := v 0 1 / 16, kind := v 0 1 % 16, op := v 1 1 / 16, dtype := v 1 1 % 16, group := v 2 3 % 2 ^ 20
    member := v 6 2 % 1024, step := v 8 4, seq := v 12 2, nseq := v 14 2, count := v 16 2, gen := v 20 4 }

/-! ## Frames (R258) -/

/-- Where a frame goes and what it says below Ethernet: addresses with their family (true: IPv6), the destination's UDP
port, the DSCP. -/
structure GAddr where
  v6 : Bool := false
  smac : Nat := 0
  sip : Nat := 0
  dmac : Nat := 0
  dip : Nat := 0
  dport : Nat := 0
  dscp : Nat := 0

/-- The MAC address of an endpoint. -/
def Dev.epMac (d : Dev) (e : Nat) : Nat := d.rd F.GTH_EP_MAC_HI_MAC_HI [e] * 2 ^ 32 + d.rd F.GTH_EP_MAC_LO_MAC_LO [e]

/-- A 16-bit checksum as it is written: the complement, and for UDP never 0. -/
def csumOf (n : Nat) : Nat := 65535 - fold16 n

/-- A UDP datagram in its Ethernet frame, without the FCS. `free`: what the spec does not state of the IP header: the
identification, DF and the ECN bits of IPv4, the ECN bits and the flow label of IPv6 (log 53). -/
def udpFrame (a : GAddr) (sport ttl : Nat) (body : List Byte) (free : Nat) : List Byte :=
  let ulen := 8 + body.length
  let src := if a.v6 then beBytes 16 a.sip else beBytes 4 a.sip
  let dst := if a.v6 then beBytes 16 a.dip else beBytes 4 a.dip
  let udp := fun c => beBytes 2 sport ++ beBytes 2 a.dport ++ beBytes 2 ulen ++ beBytes 2 c
  let x := csumOf (sum16 (src ++ dst ++ beBytes 4 ulen ++ beBytes 4 17 ++ udp 0 ++ body))
  let c := if x = 0 then 65535 else x
  let tos := a.dscp * 4 + bitsOf free 18 17
  let ip :=
    if a.v6 then
      beBytes 4 (6 * 2 ^ 28 + tos * 2 ^ 20 + bitsOf free 38 19) ++ beBytes 2 ulen ++ beBytes 1 17 ++ beBytes 1 ttl ++ src ++ dst
    else
      let hd := fun c => beBytes 1 0x45 ++ beBytes 1 tos ++ beBytes 2 (20 + ulen) ++ beBytes 2 (bitsOf free 15 0) ++
        beBytes 2 (bitsOf free 16 16 * 2 ^ 14) ++ beBytes 1 ttl ++ beBytes 1 17 ++ beBytes 2 c ++ src ++ dst
      hd (csumOf (sum16 (hd 0)))
  beBytes 6 a.dmac ++ beBytes 6 a.smac ++ beBytes 2 (if a.v6 then 0x86DD else 0x0800) ++ ip ++ udp c ++ body

/-- The bytes of a Gather frame. -/
def Dev.gatherBytes (d : Dev) (a : GAddr) (h : GHdr) (payload : List Byte) (free : Nat) : List Byte :=
  let f := udpFrame a (d.rd F.GTH_UDP_PORT_PORT []) (d.rd F.GTH_CFG_TTL []) (h.bytes ++ payload) free
  f ++ fcsBytes f

/-- The header map of a frame that the device builds (log 54): Ethernet, IP, UDP and the Gather header, in slots 0 to 3. -/
def gatherHdrs (v6 : Bool) : List (Nat × Nat) :=
  let n := if v6 then 40 else 20
  [(1, 0), (if v6 then 4 else 3, 14), (6, 14 + n), (14, 22 + n)]

/-- A frame that an engine sends, as what the copies carry: ports with each one's bytes and addressee, the pipeline and queue
it is sent under, its ingress port. -/
structure GOut where
  ports : List (Nat × List Byte × Nat) := []
  pipe : Nat := 0
  queue : Nat := 8
  port : Nat := 0
  v6 : Bool := false
  group : Nat := 0
  job : Option Nat := none

/-- A frame written into the Quarry and admitted as a multicast frame (R30, R167, R259). -/
def Dev.originate (d : Dev) (o : GOut) : Dev :=
  let (g, d) := d.firstGroup o.pipe
  let (u, d) := d.newUid
  let bytes := match o.ports with
    | (_, b, _) :: _ => b
    | [] => []
  let hdrs := gatherHdrs o.v6
  let valid := hdrs.foldl (fun a h => putBit a h.1 true) 0
  let md := mdSet (mdSet (mdSet (mdSet [] mdIngTs d.ts40) mdPipeId o.pipe) mdIngPort o.port) mdDestType 2
  let md := mdSet (mdSet (mdSet (mdSet md mdQueue o.queue) mdPktLen bytes.length) mdHdrValid valid) (mdU0 + 7) o.group
  let p : Pkt :=
    { uid := u, kind := .result, pipe := o.pipe, port := o.port, g0 := g, bytes := bytes, ended := true, md := md, hdrs := hdrs
      slots := (List.range 4).zip hdrs, resolved := true, checked := true, job := o.job
      perPort := (o.ports.map (fun x => (x.1, x.2.1))).foldl (fun m x => Sparse.put m x.1 (some x.2)) [] }
  let k := cellsOf bytes.length
  let d := (d.addPkt p).writeCells u k
  let base : Ask := { pkt := u, queue := 0, k := k, len := bytes.length, mc := true, ecnOk := ecnCapable (windowOf bytes) hdrs }
  let asks := (indicesWhere 1024 (fun e => o.ports.any (fun x => x.1 == e))).map (fun e =>
    let m := ((o.ports.find? (fun x => x.1 == e)).map (fun x => x.2.2)).getD 0
    ({ base with queue := voqOf o.pipe e o.queue, md := mdSet (mdSet md mdEgrPort e) (mdU0 + 6) m } : Ask))
  let (e, ns) := d.admitAll asks d.poolU
  let e := wakeQueues d e (asks.map (fun a => eqOf a.queue))
  let e := if asks.isEmpty then e.inc F.TBL_MC_EMPTY_COUNT [] else e
  if ns.isEmpty then e.endFrame u else e

/-! ## What the engines send (R236, R258, R259) -/

/-- An operation of the group that holds the step. -/
def Group.opAt (g : Group) (step : Nat) : Option GOp := g.ops.find? (fun o => o.first ≤ step && step < o.first + o.steps)

/-- The header of a frame about a step, from the group and the step's operation. -/
def Group.hdr (g : Group) (kind step seq : Nat) : GHdr :=
  let h : GHdr := { kind := kind, group := g.id, gen := g.gen, step := step, seq := seq }
  match g.opAt step with
  | some o => { h with op := o.op, dtype := o.dtype, nseq := ceilDiv o.elems (o.chunk / Nat.max 1 (elemSize o.dtype)) }
  | none => h

/-- The header of an ERROR about a step. OP, DTYPE and NSEQ of a step of no open or queued operation the spec does not state:
they are free (log 197). -/
def Group.errHdr (g : Group) (v step seq code : Nat) : GHdr :=
  let h := { g.hdr 5 step seq with code := code }
  if (g.opAt step).isSome then h else { h with op := bitsOf v 3 0, dtype := bitsOf v 7 4, nseq := bitsOf v 23 8 }

/-- The job of a step's operation; none once the operation has ended. -/
def Group.jobAt (g : Group) (step : Nat) : Option Nat :=
  match g.opAt step with
  | some o => if o.aborted then none else some o.job
  | none => none

/-- The addresses of a frame from the group's endpoint. -/
def Dev.fromGroup (d : Dev) (g : Group) : GAddr :=
  let (v6, sip) := d.epAddr g.ep
  { v6 := v6, sip := sip, smac := d.epMac g.ep, dscp := g.dscp }

/-- The copy of a frame that one member gets. -/
def Dev.memberCopy (d : Dev) (g : Group) (h : GHdr) (payload : List Byte) (i free : Nat) : Nat × List Byte × Nat :=
  let m := g.members.getD i ({} : Member)
  (m.port, d.gatherBytes { d.fromGroup g with dmac := m.mac, dip := m.ip, dport := m.udp } { h with member := i } payload free, i)

/-- A frame to the whole group (R258). -/
def Dev.sendGroup (d : Dev) (g : Group) (h : GHdr) (payload : List Byte) (job : Option Nat) : Dev :=
  let (v, d) := d.free
  let a := d.fromGroup g
  let ports := if g.addr then
      let b := d.gatherBytes { a with dmac := g.resMac, dip := g.resIp, dport := g.resUdp } h payload v.toNat
      (indicesWhere 1024 (fun e => bitAt (Sparse.get 0 d.tbl.mcg g.resMc) e)).map (fun e => (e, b, 0))
    else (List.range g.m).map (fun i => d.memberCopy g h payload i v.toNat)
  d.originate { ports := ports, pipe := g.home, queue := g.queue, v6 := a.v6, group := g.id, job := job }

/-- A frame to one member. -/
def Dev.sendMember (d : Dev) (g : Group) (h : GHdr) (payload : List Byte) (i : Nat) (job : Option Nat) : Dev :=
  let (v, d) := d.free
  d.originate { ports := [d.memberCopy g h payload i v.toNat], pipe := g.home, queue := g.queue, v6 := (d.fromGroup g).v6
                group := g.id, job := job }

/-- Engine k may send an answer now, by GTH_ANS_RATE: KPPS in a millisecond (log 55). -/
def Dev.answerOk (d : Dev) (k : Nat) : Bool :=
  let ms := d.rst.mono / 1000000
  let (w, n) := Sparse.get (0, 0) d.gth.answers k
  (if w = ms then n else 0) < d.rd F.GTH_ANS_RATE_KPPS []

/-- An answer within the rate is sent by `f`; one beyond it is dropped and counted (R259). -/
def Dev.answer (d : Dev) (k : Nat) (f : Dev → Dev) : Dev :=
  if d.answerOk k then
    let ms := d.rst.mono / 1000000
    let (w, n) := Sparse.get (0, 0) d.gth.answers k
    f { d with gth := { d.gth with answers := Sparse.set (0, 0) d.gth.answers k (ms, (if w = ms then n else 0) + 1) } }
  else d.inc F.GTH_ANS_DROP_COUNT [k]

/-- The operation of a step notes that an ERROR about it was sent (R243). -/
def Dev.noteError (d : Dev) (slot step : Nat) : Dev :=
  match d.group slot with
  | none => d
  | some g => d.setGroup { g with ops := g.ops.map (fun o =>
      if o.first ≤ step && step < o.first + o.steps then { o with err := true } else o) }

/-- A frame has been built: an activity event of index 12 (R260). -/
def Dev.frameBuilt (d : Dev) (job : Option Nat) : Dev := d.charge job 12 1

/-- An ERROR to a member about a step. -/
def Dev.sendError (d : Dev) (k : Nat) (g : Group) (i step seq code : Nat) : Dev :=
  d.answer k (fun d =>
    let (v, d) := d.free
    let d := (d.frameBuilt (g.jobAt step)).sendMember g (g.errHdr v.toNat step seq code) [] i none
    (d.inc F.GTH_ERR_TX_COUNT [k]).noteError g.slot step)

/-- A NAK to a member. -/
def Dev.sendNak (d : Dev) (k : Nat) (g : Group) (i step seq code arg : Nat) : Dev :=
  d.answer k (fun d =>
    ((d.frameBuilt (g.jobAt step)).sendMember g { g.hdr 4 step seq with code := code, arg := arg } [] i none).inc
      F.GTH_NAK_TX_COUNT [k])

/-- The header of a context's result. -/
def Group.resultHdr (g : Group) (c : GCtx) (count : Nat) : GHdr :=
  let last := match g.opAt c.step with
    | some o => c.step + 1 == o.first + o.steps
    | none => false
  { g.hdr 2 c.step c.seq with part := c.part, sat := c.sat, last := last, count := count, ncontrib := c.n }

/-- The answer to a sender without a valid member record: to where its frame came from (R259). `f`: the frame; `ip`: its IP
header; `pos`: its UDP header. -/
def Dev.sendBack (d : Dev) (k : Nat) (f : Pkt) (ip : Nat × Nat) (pos : Nat) (g : Option Group) (h : GHdr) (code : Nat) : Dev :=
  d.answer k (fun d =>
    let (w, d) := d.free
    let (v, d) := d.free
    let v6 := ip.1 != 3
    let val := fun i n => beVal (sliceOf f.bytes i n)
    let here := if v6 then (true, val (ip.2 + 24) 16) else (false, val (ip.2 + 16) 4)
    let ep := ((List.range 4).find? (fun e => d.on F.GTH_EP_CTL_EN [e] && d.epAddr e == here)).getD 0
    let ep := match g with
      | some g => if (d.epAddr g.ep).1 = v6 then g.ep else ep
      | none => ep
    let dscp := match g with
      | some g => g.dscp
      | none => bitsOf v.toNat 44 39
    let a : GAddr := { v6 := v6, sip := (d.epAddr ep).2, smac := d.epMac ep, dscp := dscp, dmac := val 6 6
                       dip := if v6 then val (ip.2 + 8) 16 else val (ip.2 + 12) 4, dport := val pos 2 }
    let b := d.gatherBytes a { kind := 5, op := bitsOf w.toNat 3 0, dtype := bitsOf w.toNat 7 4, group := h.group
                               gen := h.gen, member := h.member, step := h.step, seq := h.seq
                               nseq := bitsOf w.toNat 23 8, code := code } [] v.toNat
    let q := d.rd F.GTH_CFG_ERR_QUEUE []
    ((d.frameBuilt none).originate { ports := [(f.port, b, h.member)], pipe := f.pipe
                                     queue := if 8 ≤ q && q ≤ 11 then q else 8, port := f.port, v6 := v6
                                     group := h.group }).inc F.GTH_ERR_TX_COUNT [k])

end Sys2Proof.Machine
end

