-- ==== Sys2Proof/Machine/Gather.lean ====
section
/-!
DEFINITION. The Gather engines and their dispatcher (spec/08_gather_collectives.md R231 to R260): groups, operations, steps,
contexts, the handling of received frames, timers, retirement and aborts.
-/

namespace Sys2Proof.Machine

/-! ## Operations and steps -/

/-- Elements per chunk, chunks per step, elements of chunk j (R241). -/
def GOp.perChunk (o : GOp) : Nat := o.chunk / Nat.max 1 (elemSize o.dtype)
def GOp.nseq (o : GOp) : Nat := ceilDiv o.elems o.perChunk
def GOp.count (o : GOp) (j : Nat) : Nat := min o.perChunk (o.elems - j * o.perChunk)

/-- The operation holds the step. -/
def GOp.has (o : GOp) (s : Nat) : Bool := o.first ≤ s && s < o.first + o.steps

def Group.putOp (g : Group) (o : GOp) : Group := { g with ops := g.ops.map (fun x => if x.first = o.first then o else x) }

/-- The step is one of the operation's. -/
def PastOp.has (p : PastOp) (s : Nat) : Bool := p.first ≤ s && s < p.first + p.steps

/-- The operation is over: only its range of steps is kept, and how many of them are retired. -/
def Group.endOp (g : Group) (o : GOp) (gone : Nat) : Group :=
  { g with ops := g.ops.filter (fun x => x.first != o.first), past := g.past ++ [⟨o.first, o.steps, gone, o.aborted⟩] }

/-- A dispatched step that has not retired. -/
def Group.inFlight (g : Group) (s : Nat) : Bool := g.steps.any (fun x => x.step == s)

/-- The step has retired, or counts as retired (R253). -/
def Group.retired (g : Group) (s : Nat) : Bool :=
  g.past.any (fun p => p.has s && s < p.first + p.gone) ||
    (match g.opAt s with
     | some o => !g.inFlight s && (o.aborted || s < o.first + o.sent)
     | none => false)

/-- The step belongs to an operation that the straggler timeout aborted. -/
def Group.abortedAt (g : Group) (s : Nat) : Bool :=
  g.past.any (fun p => p.has s && p.aborted) || g.ops.any (fun o => o.has s && o.aborted)

/-- Open and queued operations. -/
def Group.live (g : Group) : List GOp := g.ops.filter (fun o => !o.aborted)

/-- The operation whose steps are to be dispatched next: the first that has not dispatched its last step (R242). -/
def Group.nextOp (g : Group) : Option GOp := g.live.find? (fun o => o.sent < o.steps)

/-- The last step that an operation of the group has used, plus one. -/
def Group.usedTo (g : Group) : Nat :=
  max ((g.ops.map (fun o => o.first + o.steps)).foldl max 0) ((g.past.map (fun p => p.first + p.steps)).foldl max 0)

/-- Every member has acknowledged the step (R252). -/
def Group.ackedBy (g : Group) (s : Nat) : Bool := g.acked.all (fun a => (s : Int) ≤ a)

/-- GTH_DIR_DATA: the next step to dispatch and the oldest unretired one. -/
def Group.next (g : Group) : Nat :=
  match g.nextOp with
  | some o => o.first + o.sent
  | none => 0
def Group.oldest (g : Group) : Nat :=
  match g.steps with
  | s :: _ => s.step
  | [] => g.next

/-! ## Completion of operations, retirement (R243, R252) -/

/-- An operation's completion: status, steps retired, chunks with PARTIAL, steps retired by hold expiry (R351). -/
def Dev.finishOp (d : Dev) (o : GOp) (status : Nat) : Dev := d.finishJob o.job status o.retired o.partials o.expired

/-- Every context of the slot that satisfies `p` becomes FREE. -/
def Dev.freeCtxs (d : Dev) (slot : Nat) (p : GCtx → Bool) : Dev :=
  d.setCtxs (d.gth.ctxs.filter (fun c => !(c.slot == slot && p c)))

/-- The group's oldest step in flight retires. -/
def Dev.retireStep (d : Dev) (g : Group) (s : GStep) : Dev :=
  let d := d.freeCtxs g.slot (fun c => c.step == s.step)
  let d := if s.expired then g.list.foldl (fun d k => d.inc F.GTH_HOLD_EXP_COUNT [k]) d else d
  let g := { g with steps := g.steps.tail }
  match g.opAt s.step with
  | none => d.setGroup g
  | some o =>
    if o.aborted then d.setGroup (if g.steps.any (fun x => o.has x.step) then g else g.endOp o o.steps)
    else
      let o := { o with retired := o.retired + 1, expired := o.expired + b2n s.expired }
      if o.retired = o.steps then (d.setGroup (g.endOp o o.steps)).finishOp o (if o.err then 0x0A else 0)
      else d.setGroup (g.putOp o)

/-- Steps retire in ascending order while the oldest meets its condition. -/
def Dev.retireUpTo (d : Dev) (slot : Nat) : Nat → Dev
  | 0 => d
  | fuel + 1 =>
    match d.group slot with
    | none => d
    | some g => match g.steps with
      | [] => d
      | s :: _ => if s.resulted && (s.expired || g.ackedBy s.step) then (d.retireStep g s).retireUpTo slot fuel else d

def Dev.retire (d : Dev) (slot : Nat) : Dev :=
  match d.group slot with
  | none => d
  | some g => d.retireUpTo slot g.steps.length

/-- A step none of whose contexts is OPEN is RESULTED (R245, R254). -/
def Dev.checkResulted (d : Dev) (slot step : Nat) : Dev :=
  if d.gth.ctxs.any (fun c => c.slot == slot && c.step == step && c.at_ == .open_) then d
  else match d.group slot with
    | none => d
    | some g =>
      (d.setGroup { g with steps := g.steps.map (fun s => if s.step = step then { s with resulted := true } else s) }).retire slot

/-- A member's acknowledged step rises to `t`; it never falls (R251). -/
def Dev.acknowledge (d : Dev) (slot m : Nat) (t : Int) : Dev :=
  match d.group slot with
  | none => d
  | some g => (d.setGroup { g with acked := g.acked.modify m (fun a => max a t) }).retire slot

/-- A context completes: its result is computed and sent to the group (R254, R256 to R258). -/
def Dev.completeCtx (d : Dev) (g : Group) (o : GOp) (c : GCtx) (part : Bool) : Dev :=
  let res := c.acc.map (fun a => a.result o.op o.dtype)
  let sats := (res.filter (fun x => x.2)).length
  let payload := res.flatMap (fun x => beBytes (elemSize o.dtype) x.1)
  let c := { c with at_ := CtxSt.complete, acc := [], payload := payload, part := part, sat := sats != 0
                    n := popCount g.m c.bits }
  let d := d.addTo F.GTH_SAT_COUNT [c.engine] sats
  let d := (d.frameBuilt (g.jobAt c.step)).sendGroup g (g.resultHdr c res.length) payload (g.jobAt c.step)
  let d := d.modGctx c.slot c.step c.seq (fun _ => c)
  (d.setGroup (g.putOp { o with partials := o.partials + b2n part })).checkResulted c.slot c.step

/-! ## Received frames (R233, R246) -/

/-- A frame at an engine: the frame, its IP and UDP headers, its Gather header. -/
structure GIn where
  f : Pkt := {}
  ip : Nat × Nat := (0, 0)
  pos : Nat := 0
  h : GHdr := {}

/-- UDP Length less 8 less 32; nothing where the length does not hold the header. -/
def GIn.len (x : GIn) : Option Nat :=
  let n := beVal (sliceOf x.f.bytes (x.pos + 4) 2)
  if n < 40 then none else some (n - 40)

/-- The source address: family and value. -/
def GIn.src (x : GIn) : Bool × Nat :=
  if x.ip.1 = 3 then (false, beVal (sliceOf x.f.bytes (x.ip.2 + 12) 4)) else (true, beVal (sliceOf x.f.bytes (x.ip.2 + 8) 16))

/-- The payload's elements; bytes beyond the frame's end read 0. -/
def GIn.elems (x : GIn) (size n : Nat) : List Nat :=
  elements size (sliceOf (x.f.bytes.take (x.f.bytes.length - 4)) (x.pos + 40) (size * n) ++ List.replicate (size * n) 0) n

/-- The payload breaks R235; a reserved DTYPE has no element size, so that only the limit of 4096 bytes holds there. -/
def GIn.badLength (x : GIn) : Bool :=
  match x.len with
  | none => true
  | some n => 4096 < n || (elemSize x.h.dtype != 0 && n != x.h.count * elemSize x.h.dtype)

/-- The header's parameters differ from the operation's (row 10). -/
def GHdr.differs (h : GHdr) (o : GOp) : Bool :=
  h.op != o.op || h.dtype != o.dtype || h.nseq != o.nseq || o.nseq ≤ h.seq || h.count != o.count h.seq

/-- Row 15: the operand is reduced into the accumulators. -/
def Dev.reduce (d : Dev) (k : Nat) (g : Group) (o : GOp) (c : GCtx) (x : GIn) : Dev :=
  let n := o.count c.seq
  let bytes := n * elemSize o.dtype
  let base := if c.acc.isEmpty then List.replicate n ({} : Accum) else c.acc
  let acc := (base.zip (x.elems (elemSize o.dtype) n)).map (fun e => e.1.add o.op o.dtype e.2)
  let c := { c with acc := acc, bits := putBit c.bits x.h.member true }
  let before := d.rd F.GTH_BYTES_COUNT [k]
  let d := ((d.inc F.GTH_RX_COUNT [k]).addTo F.GTH_BYTES_COUNT [k] bytes).pmc (112 + k) 0x60 1
  let d := (d.pmc (112 + k) 0x61 ((before + bytes) / 64 - before / 64)).charge (g.jobAt c.step) (5 + o.dtype) bytes
  let d := d.modGctx c.slot c.step c.seq (fun _ => c)
  if popCount g.m c.bits = g.m then d.completeCtx g o c false else d

/-- Row 13: the result goes to this member alone. -/
def Dev.resend (d : Dev) (k : Nat) (g : Group) (c : GCtx) (o : GOp) (m : Nat) : Dev :=
  d.answer k (fun d =>
    let h := { g.resultHdr c (o.count c.seq) with unicast := true }
    ((d.frameBuilt (g.jobAt c.step)).sendMember g h c.payload m (g.jobAt c.step)).inc F.GTH_RESEND_COUNT [k])

/-- Rows 10 to 15; the number is the row's. -/
def Dev.contribution (d : Dev) (k : Nat) (g : Group) (o : GOp) (x : GIn) : Dev × Nat :=
  let h := x.h
  if h.differs o then (d.sendError k g h.member h.step h.seq 6, 10)
  else match d.gctx g.slot h.step h.seq with
    | none => (d.sendNak k g h.member h.step h.seq 0x0102 g.nakUs, 11)
    | some c => match c.at_ with
      | .failed => (d.sendError k g h.member h.step h.seq 8, 12)
      | .complete => (d.resend k g c o h.member, 13)
      | .open_ =>
        if bitAt c.bits h.member then ((d.inc F.GTH_DUP_COUNT [k]).pmc (112 + k) 0x62 1, 14)
        else (d.reduce k g o c x, 15)

/-- Rows 6 to 15. -/
def Dev.contrib (d : Dev) (k : Nat) (g : Group) (x : GIn) : Dev × Nat :=
  let h := x.h
  let d := d.charge (g.jobAt h.step) 12 1
  if x.badLength then (d.sendError k g h.member h.step h.seq 7, 6)
  else if g.retired h.step then
    if g.abortedAt h.step then (d.sendError k g h.member h.step h.seq 8, 7) else (d.sendError k g h.member h.step h.seq 5, 8)
  else match g.opAt h.step with
    | none => (d.sendError k g h.member h.step h.seq 4, 9)
    | some o =>
      let (d, row) := d.contribution k g o x
      (d.acknowledge g.slot h.member ((h.step : Int) - g.window), row)

/-- The rows of R246, in order. -/
def Dev.receive (d : Dev) (k : Nat) (x : GIn) : Dev × Nat :=
  let h := x.h
  if h.ver ≠ 1 || (h.kind ≠ 1 && h.kind ≠ 3) then ((d.inc F.GTH_RX_BAD_COUNT [k]).charge none 12 1, 1)
  else match (d.groupOf h.group).filter (fun g => bitAt g.engines k) with
    | none => ((d.charge none 12 1).sendBack k x.f x.ip x.pos none h 1, 2)
    | some g =>
      if h.gen ≠ g.gen then ((d.charge none 12 1).sendBack k x.f x.ip x.pos (some g) h 2, 3)
      else if g.m ≤ h.member || x.src ≠ ((d.epAddr g.ep).1, (g.members.getD h.member ({} : Member)).ip) then
        ((d.charge none 12 1).sendBack k x.f x.ip x.pos (some g) h 3, 4)
      else if h.kind = 3 then ((d.charge none 12 1).acknowledge g.slot h.member h.step, 5)
      else d.contrib k g x

/-- The frame at the head of engine k's queues, round robin over the ingress pipelines (R233). -/
def Dev.gatherHead (d : Dev) (k : Nat) : Option (Nat × Copy) :=
  let next := Sparse.get 0 d.gth.next k
  ((List.range 32).map (fun i => (next + i) % 32)).findSome? (fun n =>
    (d.dp.copies.find? (fun c => c.queue == intOf n (1 + k) && c.loc == .voq && !c.released)).map (fun c => (n, c)))

/-- The frame's headers as classification found them. -/
def gatherIn (f : Pkt) : GIn :=
  match udpHeader f.hdrs none with
  | some (ip, pos) => { f := f, ip := ip, pos := pos, h := parseGHdr f.bytes (pos + 8) }
  | none => { f := f }

/-- Engine k takes its next frame, when its KIND is ACK as `ack` says. -/
def Dev.gatherTake (d : Dev) (k : Nat) (ack : Bool) : Dev :=
  if d.safe || !d.engineOn k then d
  else match d.gatherHead k with
    | none => d
    | some (n, c) => match d.pkt c.pkt with
      | none => d
      | some f =>
        let x := gatherIn f
        if (x.h.kind == 3) != ack then d
        else
          let d := { d with gth := { d.gth with next := Sparse.set 0 d.gth.next k ((n + 1) % 32) } }
          let d := d.charge none 3 f.chain.length
          let (d, row) := d.receive k x
          (d.finalRecord c 0x53 [BitVec.ofNat 8 k, BitVec.ofNat 8 row]).removeCopy c.uid

/-- GATHER_CONTRIB: an engine takes a frame that is no ACK. -/
def execGatherContrib (k : Fin 8) (s : State) : Host.Outcome State Fault Refusal := s.run (fun d => d.gatherTake k.val false)

/-- GATHER_ACK: an engine takes an ACK. -/
def execGatherAck (k : Fin 8) (s : State) : Host.Outcome State Fault Refusal := s.run (fun d => d.gatherTake k.val true)

/-! ## Tokens (R248) -/

/-- Rate and depth of the buckets at the level in force. -/
def Dev.tokenRate (d : Dev) : Nat := d.rd F.GTH_LVL_RATE [d.gth.level]
def Dev.tokenBurst (d : Dev) : Int := (max 1 (d.rd F.GTH_LVL_BURST [d.gth.level]) * 1000000 : Nat)

/-- Engine k's bucket now, in millionths of a token. A token a millisecond is a millionth a nanosecond. While RATE = 0 the
bucket is not used and keeps its level. -/
def Dev.tokensNow (d : Dev) (k : Nat) : Int :=
  let t := Sparse.get 0 d.gth.tokens k
  if d.tokenRate = 0 then t
  else min d.tokenBurst (t + (d.tokenRate * (d.rst.mono - d.gth.tokensAt) : Nat))

def Dev.setTokens (d : Dev) (k : Nat) (t : Int) : Dev :=
  { d with gth := { d.gth with tokens := Sparse.set 0 d.gth.tokens k t } }

/-- The buckets are brought up to now, before the level or its rate changes; one without a limit is full (log 56). -/
def Dev.settleTokens (d : Dev) : Dev :=
  let full := d.tokenRate = 0
  let e := (List.range 8).foldl (fun e k => e.setTokens k (if full then d.tokenBurst else d.tokensNow k)) d
  { e with gth := { e.gth with tokensAt := d.rst.mono } }

/-- The dispatcher takes level L (R44, R45). -/
def Dev.gatherLevel (d : Dev) (l : Nat) : Dev :=
  if l = d.gth.level then d
  else
    let d := d.settleTokens
    { d with gth := { d.gth with level := l } }

/-! ## Dispatch (R247 to R250) -/

/-- Contexts and tokens that a step of the operation needs, by engine. -/
def Group.need (g : Group) (o : GOp) : List (Nat × Nat × Nat) :=
  let l := g.list
  let cost := ceilDiv (g.m * o.chunk) 65536
  ((List.range l.length).map (fun i =>
    let c := ceilDiv (o.nseq - i) l.length
    (l.getD i 0, c, c * cost))).filter (fun x => x.2.1 != 0)

/-- Engine k covers a need after `ctxs` more contexts and `used` more tokens are gone. -/
def Dev.covers (d : Dev) (k ctxs used : Nat) (n : Nat × Nat) : Bool :=
  d.ctxUsed k + ctxs + n.1 ≤ 512 &&
    (d.tokenRate == 0 || decide (min ((n.2 * 1000000 : Nat) : Int) d.tokenBurst ≤ d.tokensNow k - ((used * 1000000 : Nat) : Int)))

/-- The step has been dispatched, or counts as retired (R253). -/
def Group.dispatched (g : Group) (s : Nat) : Bool := g.inFlight s || g.retired s

/-- The first bullet of R247 for the next step of operation `o`: the step before it has been dispatched, or it is the first step of
the group's first open operation. A step that no operation holds, in a gap between two operations, is never dispatched. -/
def Group.inOrder (g : Group) (o : GOp) : Bool :=
  let s := o.first + o.sent
  (0 < s && g.dispatched (s - 1)) || (o.sent == 0 && (match g.live with
    | f :: _ => f.first == o.first
    | [] => false))

/-- Every condition of R247 but contexts and tokens holds. -/
def Dev.groupReady (d : Dev) (g : Group) (o : GOp) : Bool :=
  let s := o.first + o.sent
  let w := s - g.window - 1
  let now := d.rst.mono
  g.inOrder o && (s < g.window + 1 || !g.inFlight w) && !d.on F.GTH_THR_HOLD [g.slot] &&
    (match g.lastAt with
     | some t => t + d.rd F.GTH_THR_GAP_US [g.slot] * 1000 ≤ now
     | none => true)

/-- Groups that could dispatch but for contexts and tokens, the longest waiting first. -/
def Dev.waitingGroups (d : Dev) : List (Group × GOp) :=
  let l := d.gth.dir.filterMap (fun e => match e.2.nextOp with
    | some o => if d.groupReady e.2 o then some (e.2, o) else none
    | none => none)
  l.mergeSort (fun a b => a.1.waitAt.getD 0 ≤ b.1.waitAt.getD 0)

/-- The group that dispatches: one whose step is paid for and that leaves enough for the longest waiting group that is not
(R249). -/
def Dev.pickStep (d : Dev) : List (Group × GOp) → List (Nat × Nat × Nat) → Option (Group × GOp)
  | [], _ => none
  | (g, o) :: t, old =>
    let need := g.need o
    let fits := need.all (fun x => d.covers x.1 0 0 x.2)
    let leaves := old.all (fun y => match need.find? (fun x => x.1 == y.1) with
      | some x => d.covers y.1 x.2.1 x.2.2 y.2
      | none => true)
    if fits && leaves then some (g, o) else d.pickStep t (if old.isEmpty then need else old)

/-- A step is dispatched: every context of it opens, on every engine at once. -/
def Dev.dispatchStep (d : Dev) (g : Group) (o : GOp) : Dev :=
  let s := o.first + o.sent
  let l := g.list
  let d := (g.need o).foldl (fun d x =>
    let d := d.pmc (112 + x.1) 0x63 1
    if d.tokenRate = 0 then d else d.setTokens x.1 (d.tokensNow x.1 - ((x.2.2 * 1000000 : Nat) : Int)
      - (d.tokenRate * (d.rst.mono - d.gth.tokensAt) : Nat))) d
  let ctxs := (List.range o.nseq).map (fun j => ({ slot := g.slot, step := s, seq := j, engine := l.getD (j % l.length) 0 } : GCtx))
  let d := d.setCtxs (d.gth.ctxs ++ ctxs)
  let now := some d.rst.mono
  d.setGroup { g.putOp { o with sent := o.sent + 1 } with
    steps := g.steps ++ [({ step := s } : GStep)], lastAt := now, waitAt := now }

/-- STEP_DISPATCH: the dispatcher dispatches one step of one group. -/
def execStepDispatch (s : State) : Host.Outcome State Fault Refusal :=
  s.run (fun d =>
    if d.safe then d
    else match d.pickStep d.waitingGroups [] with
      | some (g, o) => d.dispatchStep g o
      | none => d)

/-! ## Timers (R252, R253) -/

/-- The group and operation of a context. -/
def Dev.ctxOwner (d : Dev) (slot step seq : Nat) : Option (Group × GOp × GCtx) :=
  match d.group slot, d.gctx slot step seq with
  | some g, some c => (g.opAt step).map (fun o => (g, o, c))
  | _, _ => none

/-- NAK_TIMER: NAK_US has passed for an OPEN context with a contribution (R253). -/
def execNakTimer (slot : Fin 4096) (step : BitVec 32) (seq : BitVec 16) (s : State) : Host.Outcome State Fault Refusal :=
  s.run (fun d =>
    match d.ctxOwner slot.val step.toNat seq.toNat with
    | some (g, _, c) =>
      if d.safe || c.at_ ≠ .open_ || c.bits = 0 then d
      else (indicesWhere g.m (fun m => !bitAt c.bits m)).foldl (fun d m => d.sendNak c.engine g m c.step c.seq 0x0101 0) d
    | none => d)

/-- The straggler abort (R253): every context of the operation fails, each with one ERROR to the group; undispatched steps
count as retired; the operation ends with STRAGGLER; its steps in flight wait to retire. -/
def Dev.abortOp (d : Dev) (g : Group) (o : GOp) : Dev :=
  let mine := d.gth.ctxs.filter (fun c => c.slot == g.slot && o.has c.step && c.at_ != .failed)
  let d := mine.foldl (fun d c =>
    (d.modGctx c.slot c.step c.seq (fun c => { c with at_ := .failed, acc := [], payload := [] })).answer c.engine (fun d =>
      ((d.frameBuilt (g.jobAt c.step)).sendGroup g { g.hdr 5 c.step c.seq with code := 8 } [] none).inc
        F.GTH_ERR_TX_COUNT [c.engine])) d
  let steps := (g.steps.filter (fun x => o.has x.step)).map (fun x => x.step)
  let o := { o with retired := o.retired + (o.steps - o.sent) }
  let d := (d.setGroup { g.putOp { o with aborted := true } with waitAt := some d.rst.mono }).finishOp o 0x09
  steps.foldl (fun d x => d.checkResulted g.slot x) d

/-- STRAGGLER_EXPIRY: STRAG_US has passed since the first contribution to an OPEN context. -/
def execStragglerExpiry (slot : Fin 4096) (step : BitVec 32) (seq : BitVec 16) (s : State) : Host.Outcome State Fault Refusal :=
  s.run (fun d =>
    match d.ctxOwner slot.val step.toNat seq.toNat with
    | some (g, o, c) =>
      if d.safe || c.at_ ≠ .open_ || c.bits = 0 then d
      else
        let d := d.inc F.GTH_STRAG_COUNT [c.engine]
        if g.partial_ then d.completeCtx g o c true else d.abortOp g o
    | none => d)

/-- HOLD_EXPIRY: HOLD_US has passed since a step that is not acknowledged entered RESULTED. -/
def execHoldExpiry (slot : Fin 4096) (step : BitVec 32) (s : State) : Host.Outcome State Fault Refusal :=
  s.run (fun d =>
    match d.group slot.val with
    | some g =>
      if d.safe || g.ackedBy step.toNat then d
      else (d.setGroup { g with steps := g.steps.map (fun x =>
        if x.step = step.toNat && x.resulted then { x with expired := true } else x) }).retire slot.val
    | none => d)

/-! ## Ring jobs (R237 to R242) -/

/-- A member record (R238). -/
def parseMember (b : List Byte) : Member :=
  { ip := beVal (sliceOf b 0 16), mac := beVal (sliceOf b 16 6), udp := leVal (sliceOf b 22 2), port := leVal (sliceOf b 24 2) % 1024 }

/-- The group that a GATHER_GROUP_SET asks for; its header is read in ADDR mode only. -/
def parseGroup (j : Job) (b : List Byte) : Group :=
  let p := j.p
  let m := bitsOf (p 2) 10 0
  let hd := if bitAt (p 3) 8 then b.take 64 else []
  { id := bitsOf (p 0) 19 0, gen := p 1, m := m, engines := bitsOf (p 2) 23 16, home := bitsOf (p 2) 28 24
    ep := bitsOf (p 3) 1 0, queue := bitsOf (p 3) 7 4, addr := bitAt (p 3) 8, partial_ := bitAt (p 3) 9
    dscp := bitsOf (p 3) 21 16, window := bitsOf (p 3) 27 24, nakUs := bitsOf (p 4) 15 0, stragUs := bitsOf (p 5) 21 0
    holdUs := bitsOf (p 6) 21 0, resIp := beVal (sliceOf hd 0 16), resMac := beVal (sliceOf hd 16 6)
    resUdp := leVal (sliceOf hd 22 2), resMc := leVal (sliceOf hd 24 2)
    members := (List.range m).map (fun i => parseMember (sliceOf b (64 + 32 * i) 32))
    acked := List.replicate m (-4294967296) }

/-- Every parameter lies in its range (R237), and LEN fits M. -/
def Group.inRange (g : Group) (len : Nat) : Bool :=
  let n := popCount 8 g.engines
  1 ≤ g.m && g.m ≤ 1024 && (n == 1 || n == 2 || n == 4 || n == 8) && 8 ≤ g.queue && g.queue ≤ 11 && 1 ≤ g.window &&
    1 ≤ g.nakUs && 1 ≤ g.stragUs && 1 ≤ g.holdUs && len == 64 + 32 * g.m

/-- No two members share an egress port. -/
def portsDiffer : List Member → Bool
  | [] => true
  | m :: t => !t.any (fun x => x.port == m.port) && portsDiffer t

/-- The conditions of R239 point 3. -/
def Dev.groupAllowed (d : Dev) (g : Group) : Bool :=
  (match d.group g.slot with
   | some old => old.id == g.id && old.live.isEmpty
   | none => true) &&
    g.list.all d.engineOn && d.on F.GTH_EP_CTL_EN [g.ep] &&
    g.members.all (fun m => decide (2 ^ 32 ≤ m.ip) == (d.epAddr g.ep).1 && !d.absent m.port) && (g.addr || portsDiffer g.members)

/-- GATHER_GROUP_SET: a dispatched job creates or replaces a group (R239). The job is charged the bytes of the member records, not
those of the 64-byte header before them (R290). -/
def execGatherGroupSet (n : Fin 256) (r : HostRead) (s : State) : Host.Outcome State Fault Refusal :=
  s.run (fun d =>
    match d.newJob n.val 0x10 with
    | none => d
    | some j =>
      if !d.jobDma j.id then d else
      let d := d.startJob j.id
      match r with
      | .data b =>
        let g := parseGroup j b
        let d := (d.dmaRead none (min 64 j.sub.len)).dmaRead (some j.id) (j.sub.len - 64)
        if !g.inRange j.sub.len then d.finishJob j.id 5 0 0 0
        else if !d.groupAllowed g then d.finishJob j.id 6 0 0 0
        else
          let d := if (d.group g.slot).isSome then d.freeCtxs g.slot (fun _ => true) else d.setRaw R.GTH_THR [g.slot] 0
          (d.setGroup g).finishJob j.id 0 0 0 0
      | _ => d.dataFault j.id r)

/-- GATHER_GROUP_CLEAR: a dispatched job removes a group (R240). -/
def execGatherGroupClear (n : Fin 256) (s : State) : Host.Outcome State Fault Refusal :=
  s.run (fun d =>
    match d.newJob n.val 0x11 with
    | none => d
    | some j =>
      let d := d.startJob j.id
      match d.groupOf (bitsOf (j.p 0) 19 0) with
      | none => d.finishJob j.id 0 0 0 0
      | some g =>
        let d := (g.live.foldl (fun d o => d.finishOp o 1) d).freeCtxs g.slot (fun _ => true)
        let d := { d with gth := { d.gth with dir := Sparse.put d.gth.dir g.slot none } }
        d.finishJob j.id 0 0 0 0)

/-- The operation that a GATHER_OP asks for (R241, R346). -/
def parseOp (j : Job) : GOp :=
  { job := j.id, first := j.p 2, steps := bitsOf (j.p 3) 24 0, elems := bitsOf (j.p 4) 24 0, dtype := bitsOf (j.p 5) 23 20
    op := bitsOf (j.p 5) 19 16, chunk := bitsOf (j.p 5) 12 0 }

/-- Every field of an operation lies in its range (R242). -/
def GOp.inRange (o : GOp) : Bool :=
  1 ≤ o.steps && o.steps ≤ 16777216 && 1 ≤ o.elems && o.elems ≤ 16777216 && 64 ≤ o.chunk && o.chunk ≤ 4096 && o.chunk % 64 == 0 &&
    (elemSize o.dtype == 0 || o.nseq ≤ 65535) && o.first + o.steps ≤ 4294967296

/-- The group may take the operation (R242). -/
def Group.allows (g : Group) (o : GOp) (gen : Nat) : Bool :=
  g.gen == gen && o.op ≤ 5 && elemSize o.dtype != 0 && g.live.length < 16 && g.usedTo ≤ o.first &&
    ceilDiv o.nseq g.list.length * (g.window + 1) ≤ 512

/-- GATHER_OP: a dispatched job opens or queues an operation (R242). -/
def execGatherOp (n : Fin 256) (s : State) : Host.Outcome State Fault Refusal :=
  s.run (fun d =>
    match d.newJob n.val 0x12 with
    | none => d
    | some j =>
      let d := d.startJob j.id
      let o := parseOp j
      if !o.inRange then d.finishJob j.id 5 0 0 0
      else match d.groupOf (bitsOf (j.p 0) 19 0) with
        | none => d.finishJob j.id 6 0 0 0
        | some g =>
          if !g.allows o (j.p 1) then d.finishJob j.id 6 0 0 0
          else
            let fresh := g.ops.isEmpty && g.past.isEmpty
            let acked := if fresh then g.acked.map (fun a => max a ((o.first : Int) - 1)) else g.acked
            let waitAt := if g.nextOp.isNone then some d.rst.mono else g.waitAt
            d.setGroup { g with ops := g.ops ++ [o], acked := acked, waitAt := waitAt })

/-! ## The end of operations by their ring or the interface (R243, R356, R360) -/

/-- An operation ends; its contexts become FREE. A status of none ends it without a completion. -/
def Dev.endOp (d : Dev) (slot : Nat) (o : GOp) (status : Option Nat) : Dev :=
  match d.group slot with
  | none => d
  | some g =>
    let d := d.freeCtxs slot (fun c => o.has c.step)
    let d := d.setGroup { g.endOp o o.sent with steps := g.steps.filter (fun x => !o.has x.step), waitAt := some d.rst.mono }
    match status with
    | some st => (d.finishOp o st).retire slot
    | none => d.retire slot

/-- Every operation whose job satisfies `p` ends. -/
def Dev.endOps (d : Dev) (p : Nat → Bool) (status : Option Nat) : Dev :=
  (d.gth.dir.flatMap (fun e => (e.2.live.filter (fun o => p o.job)).map (fun o => (e.1, o)))).foldl
    (fun d x => d.endOp x.1 x.2 status) d

end Sys2Proof.Machine
end

