-- ==== Sys2Proof/Machine/RingEnd.lean ====
section
/-!
DEFINITION. Frames to the host, the ends of rings and the reset levels of the host interface
(spec/11_host_rings.md R331, R349, R356 to R362; spec/05_quarry_central_store.md R176), and the PCIe link (R394, R424).
-/

namespace Sys2Proof.Machine

/-! ## Receive buffers and frames to the host (R176, R349, R380) -/

/-- RX_POST: a dispatched job posts its buffer, or ends at once: LENGTH_ERROR outside 160 to 16,777,216 bytes (R346). -/
def execRxPost (n : Fin 256) (s : State) : Host.Outcome State Fault Refusal :=
  s.run (fun d =>
    match d.newJob n.val 0x02 with
    | none => d
    | some j =>
      let d := d.startJob j.id
      if j.sub.len < 160 || 16777216 < j.sub.len then d.finishJob j.id 5 0 0 0
      else
        let b : StreamBuf := { job := j.id, ring := n.val, frags := j.frags, len := j.sub.len }
        { d with hif := { d.hif with rxBufs := d.hif.rxBufs ++ [b] } })

/-- KIND of the copy header (R176, R349). -/
def PktKind.num : PktKind → Nat
  | .sample => 1
  | .mirror => 3
  | .egrMirror => 4
  | _ => 2

/-- The 32-byte copy header of R176 of a frame of which `cap` bytes are written after it, before any cut (R349, log 154). -/
def copyHeader (p : Pkt) (cap : Nat) : List Byte :=
  let md := mdGet p.md
  let flen := if p.kind.isCopy then p.frameLen else p.bytes.length
  let port := if md mdDestType = 1 then md mdEgrPort else 0
  leBytes 1 1 ++ leBytes 1 p.kind.num ++ leBytes 2 cap ++ leBytes 2 flen ++ leBytes 2 (md mdIngPort) ++
    leBytes 2 (md mdColour * 2 ^ 14 + md mdQueue * 2 ^ 10 + port) ++ leBytes 1 (md mdDropCode) ++
    leBytes 1 (md mdTrapCode) ++ leBytes 5 (md mdIngTs) ++ leBytes 1 (md mdCullet * 16 + md mdMirrorSess) ++
    leBytes 2 0 ++ leBytes 4 (if p.kind = .sample then p.seq else 0) ++ leBytes 4 (md mdFlowHash) ++ leBytes 4 (md mdU0)

/-- Where a frame to the host goes (R349, R380). -/
inductive RxTo where
  | ring (n : Nat)
  | core (trap : Nat)
  | unmapped
  deriving DecidableEq, Repr

/-- The ring pair of a map entry, or none while its EN is 0. -/
def rxMap (en : Bool) (n : Nat) : RxTo := if en then .ring n else .unmapped

def Dev.rxTo (d : Dev) (p : Pkt) : RxTo :=
  match p.kind with
  | .sample => .ring (d.rd F.PNT_CFG_RING [])
  | .mirror | .egrMirror =>
    let s := mdGet p.md mdMirrorSess
    rxMap (d.on F.HIF_MIRROR_MAP_EN [s]) (d.rd F.HIF_MIRROR_MAP_RING [s])
  | _ =>
    let t := mdGet p.md mdTrapCode
    if bitAt (d.rd F.SVC_TRAP_SEL_SEL [t / 32]) (t % 32) then .core t
    else rxMap (d.on F.HIF_TRAP_MAP_EN [t]) (d.rd F.HIF_TRAP_MAP_RING [t])

/-- The frame leaves its internal queue with final record `cp`. -/
def Dev.rxGone (d : Dev) (c : Copy) (cp : Nat) (data : List Byte) : Dev := (d.finalRecord c cp data).removeCopy c.uid

/-- A frame that cannot be delivered: the spec names no place of the drop for its record (log 2). -/
def Dev.rxDrop (d : Dev) (c : Copy) : Dev :=
  let (v, d) := d.free
  d.rxGone c 0x51 (leBytes 2 v.toNat)

/-- A frame written into buffer `b` of ring pair n, cut at the buffer's end; the job completes with the bytes written and
TRUNC (R351). -/
def Dev.rxWrite (d : Dev) (c : Copy) (p : Pkt) (b : StreamBuf) : Dev :=
  let cap := min p.bytes.length (b.len - 32)
  let bytes := copyHeader p p.bytes.length ++ p.bytes.take cap
  let d := { d with hif := { d.hif with rxBufs := d.hif.rxBufs.filter (fun x => x.job != b.job) } }
  let d := (d.charge (some b.job) 3 p.chain.length).scatter (d.owner b.ring) b.frags 0 bytes
  let d := (d.dmaWrote (some b.job) bytes.length).inc F.HIF_RX_FRAMES_COUNT []
  let d := d.finishJob b.job 0 bytes.length (b2n (cap < p.bytes.length)) 0
  d.rxGone c 0x52 [BitVec.ofNat 8 b.ring]

/-- A frame for ring pair n: no buffer, a stalled completion ring, or the oldest buffer of the pair. -/
def Dev.rxRing (d : Dev) (c : Copy) (p : Pkt) (n : Nat) : Dev :=
  match d.hif.rxBufs.find? (fun b => b.ring == n) with
  | none => (d.inc F.RING_RX_NOBUF_COUNT [n]).rxDrop c
  | some b =>
    if !d.on F.RING_CTL_SQ_EN [n] then (d.inc F.RING_RX_NOBUF_COUNT [n]).rxDrop c
    else if d.cqStalled (d.rd F.RING_CTL_CQ [n]) then (d.inc F.RING_RX_STALL_COUNT [n]).rxDrop c
    else d.rxWrite c p b

/-- The frame can be served now: a receive write of a function that may not issue DMA waits (R328), and a ring of a VF with
a mismatched range is not served (R329). -/
def Dev.rxMayServe (d : Dev) (p : Pkt) : Bool :=
  match d.rxTo p with
  | .ring n => !d.hif.rxBufs.any (fun b => b.ring == n) || (d.dmaOk (d.owner n) && !d.vfBad (d.owner n))
  | _ => true

/-- The next frame in round robin over the internal queues (IP0–IP31, HOST). -/
def Dev.rxHead (d : Dev) : Option (Nat × Copy × Pkt) :=
  ((List.range 32).map (fun i => (d.dp.rxNext + i) % 32)).findSome? (fun n =>
    match d.dp.copies.find? (fun c => c.queue == intOf n 0 && c.loc == .voq && !c.released) with
    | none => none
    | some c => match d.pkt c.pkt with
      | some p => if d.rxMayServe p then some (n, c, p) else none
      | none => none)

/-- HOST_RX_DELIVER: the ring engine serves the next frame for the host. -/
def execHostRxDeliver (s : State) : Host.Outcome State Fault Refusal :=
  s.run (fun d =>
    if d.safe then d
    else match d.rxHead with
      | none => d
      | some (n, c, p) =>
        let d := { d with dp := { d.dp with rxNext := (n + 1) % 32 } }
        match d.rxTo p with
        | .ring k => d.rxRing c p k
        | .core t => (d.emit (.coreFrame t p.bytes)).rxGone c 0x52 [0]
        | .unmapped => (d.inc F.HIF_RX_UNMAPPED_COUNT []).rxDrop c)

/-! ## The end of a ring's work (R356, R360) -/

/-- An injected frame that is not yet wholly in the Quarry goes. At its slot a frame's last cell is written and its job has ended
(R348), so such a frame waits in its pipeline's injection entries and holds no cell. -/
def Dev.abortInject (d : Dev) (id : Nat) : Dev :=
  { d with dp := { d.dp with inject := d.dp.inject.filter (fun x => x.job != some id) } }.settleEntries

/-- A table job stops: its path in an EM bank stops with it, and the bank stays partly written. -/
def Dev.abortTable (d : Dev) (id : Nat) : Dev :=
  match d.tbl.jobs.find? (fun x => x.job == id) with
  | none => d
  | some x =>
    let paths := d.tbl.paths.filter (fun e => !(e.1 == x.bank && x.table == 0 && x.load && e.2.by_ == .bulk))
    { d with tbl := { d.tbl with jobs := d.tbl.jobs.filter (fun y => y.job != id), paths := paths } }

/-- A job that a shutdown ends: INJECT, RX_POST, GATHER_OP, the table jobs, TLM_POST (R356). -/
def shutdownEnds (op : Nat) : Bool := op == 0x01 || isPost op || op == 0x12 || isTable op

/-- The work of job `id` stops, apart from Gather operations; the two result dwords of a table job; the bytes written of a TLM_POST
job (R303, log 293). -/
def Dev.stopJob (d : Dev) (id : Nat) : Dev × Nat × Nat :=
  let (r0, r1, _) := d.jobProgress id
  let d := (d.abortInject id).abortTable id
  let d := { d with
    hif := { d.hif with rxBufs := d.hif.rxBufs.filter (fun b => b.job != id) }
    tlm := { d.tlm with streams := d.tlm.streams.map (fun (e : Nat × Stream) =>
      (e.1, { e.2 with bufs := e.2.bufs.filter (fun b => b.job != id) })) } }
  let d := { d with tlm := { d.tlm with streams := d.tlm.streams.filter (fun e => e.2 != ({} : Stream)) } }
  (d, r0, r1)

/-- Jobs in flight whose ring satisfies `p`. -/
def Dev.ringJobs (d : Dev) (p : Nat → Bool) : List Job := d.hif.jobs.filter (fun j => p j.sub.ring)

/-- The jobs of ring n that a shutdown ends, end ABORTED; its fetched entries too. The others run on. -/
def Dev.abortRing (d : Dev) (n : Nat) : Dev :=
  let js := (d.ringJobs (fun k => k == n)).filter (fun j => shutdownEnds j.sub.opcode)
  let d := d.endOps (fun id => js.any (fun j => j.id == id)) (some 1)
  let d := js.foldl (fun d j =>
    let (d, r0, r1) := d.stopJob j.id
    d.finishJob j.id 1 r0 r1 0) d
  let l := (d.ring n).fetched
  l.foldl (fun d u => d.endSub u 1) (d.setRing n { d.ring n with fetched := [] })

/-- Every job of the rings that satisfy `p` ends without completion (R360). -/
def Dev.dropRingJobs (d : Dev) (p : Nat → Bool) : Dev :=
  let js := d.ringJobs p
  let d := d.endOps (fun id => js.any (fun j => j.id == id)) none
  let d := js.foldl (fun d j => (d.stopJob j.id).1) d
  let gone := js.map (fun j => j.id) ++ (d.hif.rings.filter (fun e => p e.1)).flatMap (fun e => e.2.fetched.map (fun u => u.uid))
  { d with hif := { d.hif with
      jobs := d.hif.jobs.filter (fun j => !p j.sub.ring)
      hints := d.hif.hints.filter (fun h => !gone.contains h.uid) } }

/-! ## Shutdown (R356, R357) -/

/-- A write of SQ_EN = 0 to an enabled ring: it is STOPPING until SQ_SHUTDOWN_END. In owner mode the engine reads on to the
first entry with OWNER = 0. -/
def Dev.sqStop (d : Dev) (n : Nat) : Dev :=
  if d.on F.RING_CTL_SQ_EN [n] then
    let d := d.wr F.RING_CTL_SQ_EN [n] 0
    let r := d.ring n
    (d.setRing n { r with stopSq := true, awake := r.awake || d.on F.RING_CTL_OWNMODE [n] }).abortRing n
  else d

/-- SQ_SHUTDOWN. -/
def execSqShutdown (m : Master) (n : Fin 256) (s : State) : Host.Outcome State Fault Refusal :=
  s.run (fun d => if isPfSvc m && !d.hostBlocked m then d.sqStop n.val else d)

/-! ## Resets (R358, R360, R361) -/

/-- A register of ring pair n. -/
def ringKey (n k : Nat) : Bool :=
  keyWin k == R.RING_CTL.win && keyId k != R.RING_ID.id && keyId k != R.RING_CFG_COMMIT.id && keyFlat k == n

/-- Read latches and write holds of registers at offsets that satisfy `p` go (R10). -/
def Dev.dropHolds (d : Dev) (p : Nat → Bool) : Dev :=
  { d with latches := d.latches.filter (fun e => !p e.2.1), holds := d.holds.filter (fun e => !p e.2.1) }

/-- A completion of submission ring n. -/
def RingEntry.of (e : RingEntry) (n : Nat) : Bool := e.sq == some n

/-- A ring reset of pair n. Entries that its holding queue still holds are discarded, each counted in HIF_DMA_ERR;
completions of other rings that their units kept enter the holding queue, which is empty now. -/
def Dev.ringReset (d : Dev) (n : Nat) : Dev :=
  let d := d.dropRingJobs (fun k => k == n)
  let r := d.ring n
  let d := d.addTo F.HIF_DMA_ERR_COUNT [] r.hold.length
  let d := { d with hif := { d.hif with
    finished := d.hif.finished.filter (fun x => !x.2.of n)
    rings := d.hif.rings.map (fun (e : Nat × Ring) => (e.1, { e.2 with late := e.2.late.filter (fun x => !x.of n) })) } }
  let late := (d.ring n).late
  let d := { d with hif := { d.hif with rings := d.hif.rings.filter (fun e => e.2 != ({} : Ring)) } }
  let d := (d.setRing n {}).keepRegs (fun k => !ringKey n k)
  let d := d.dropHolds (fun off => off / 0x800 == (R.RING_CTL.win * 0x100000 + n * 0x800) / 0x800)
  late.foldl (fun d e => d.holdEntry n e) d

/-- RING_RESET: a write of RING_CTL[n].RESET = 1. -/
def execRingReset (m : Master) (n : Fin 256) (s : State) : Host.Outcome State Fault Refusal :=
  s.run (fun d => if isPfSvc m && !d.hostBlocked m then d.ringReset n.val else d)

/-- Configuration space of a function is written. -/
def Dev.setFnCfg (d : Dev) (fn : Nat) (c : PcieCfg) : Dev :=
  { d with hif := { d.hif with pcie := Sparse.set {} d.hif.pcie fn c } }

/-- A reset of VFv: its configuration space, and a ring reset of each pair in its range. -/
def Dev.vfReset (d : Dev) (v : Nat) : Dev :=
  let d := { d with hif := { d.hif with
    busMaster := putBit d.hif.busMaster v false, msiVectors := Sparse.set 0 d.hif.msiVectors v 0
    pcie := Sparse.set {} d.hif.pcie v {}, aer := d.hif.aer.filter (fun e => e.1 != v) } }
  (indicesWhere 256 (fun n => d.vfOwns v n)).foldl (fun d n => d.ringReset n) d

/-- VF Enable falls: every VF is reset, and none is a function of the bus any more (R329, R360). -/
def Dev.vfsOff (d : Dev) : Dev :=
  let d := (List.range 31).foldl (fun d v => d.vfReset (v + 1)) d
  d.setFnCfg 0 { d.fnCfg 0 with vfEnable := false }

/-- VF_RESET: FLR of a VF, or of every VF when VF Enable is cleared. -/
def execVfReset (cause : VfResetCause) (s : State) : Host.Outcome State Fault Refusal :=
  s.run (fun d =>
    match cause with
    | .flr v => d.vfReset (v.val + 1)
    | .vfEnableCleared => d.vfsOff)

/-- What waits for a function's requests goes on: completions, events and messages (R328, R352). -/
def Dev.drainAll (d : Dev) : Dev :=
  ((d.hif.rings.map (fun e => e.1)).foldl (fun d m => d.drainRing m) d.drainBacklog).sendOwed

/-- BUS_MASTER_ENABLE: host software writes a function's configuration space: its Bus Master Enable, the number of MSI vectors it
enables (R327, R328), and the rest that R324 lists (log 296). Clearing VF Enable resets every VF. What waits in the function's
rings may go on. -/
def execBusMasterEnable (fn : Fin 32) (enable : Bool) (msiVectors : Fin 33) (cfg : PcieCfg) (s : State) :
    Host.Outcome State Fault Refusal :=
  s.run (fun d =>
    let d := if fn.val = 0 ∧ (d.fnCfg 0).vfEnable ∧ !cfg.vfEnable then d.vfsOff else d
    let d := d.setFnCfg fn.val cfg
    let d := { d with hif := { d.hif with
      busMaster := putBit d.hif.busMaster fn.val enable
      msiVectors := Sparse.set 0 d.hif.msiVectors fn.val msiVectors.val } }
    if enable then d.drainAll else d)

/-- A register that a HIF reset returns to reset: the HIF_, RING_ and MBX_ windows, and ANL_RING_ENERGY. -/
def hifKey (k : Nat) : Bool :=
  keyWin k == R.HIF_CFG.win || keyWin k == R.RING_CTL.win || keyWin k == R.MBX_STAT.win ||
    (keyWin k == R.ANL_RING_ENERGY.win && keyId k == R.ANL_RING_ENERGY.id)

/-- The window holds registers of a HIF reset. -/
def hifWin (w : Nat) : Bool := w == R.HIF_CFG.win || w == R.RING_CTL.win || w == R.MBX_STAT.win

/-- HIF_STAT's link fields: WIDTH, SPEED, FLIT, LINK_UP. -/
def pcieFields (v : Nat) : Nat := bitsOf v 12 3 * 8 + v % 2

/-- The link leaves L0. -/
def Dev.pcieDown (d : Dev) : Dev :=
  d.setRaw R.HIF_STAT [] (d.raw R.HIF_STAT [] - pcieFields (d.raw R.HIF_STAT []))

/-- A HIF reset. `link`: the PCIe link stays up; `space`: configuration space is kept. -/
def Dev.hifReset (d : Dev) (link space : Bool) : Dev :=
  let stat := if link then pcieFields (d.raw R.HIF_STAT []) else 0
  let d := d.dropRingJobs (fun _ => true)
  let h := d.hif
  let d := { d with
    hif := { jobSeq := h.jobSeq, perstLow := h.perstLow, perstHold := h.perstHold, train := h.train, jobs := h.jobs
             busMaster := if space then h.busMaster else 0, msiVectors := if space then h.msiVectors else []
             pcie := if space then h.pcie else [], aer := if space then h.aer else [] }
    dp := { d.dp with rxNext := 0 } }
  let d := (d.keepRegs (fun k => !hifKey k)).dropHolds (fun off => hifWin (off / 0x100000))
  (d.setRaw R.HIF_STAT [] stat).wr F.HIF_STAT_RST_BUSY [] 1

/-- PERST_N is low. -/
def Dev.perstFalls (d : Dev) : Dev := { d with hif := { d.hif with perstLow := true } }

/-- The link leaves L0 without a reset request: a UC fault (R394). -/
def Dev.pcieLost (d : Dev) : Dev := if d.on F.HIF_STAT_LINK_UP [] then d.pcieDown.raise 54 0x42 0 else d

/-- The effect of a request for a HIF reset; the loss of PCIE_REFCLK takes the link down, and a HIF reset follows (R412; DEDUCED, log
318); the master of a write of HIF_CTL.RESET is a service core, JTAG or the BMC (R362). -/
def Dev.hifRequest (d : Dev) (cause : HifResetCause) : Dev :=
  match cause with
  | .flrPf0 => d.hifReset true false
  | .hotReset => d.hifReset false false
  | .linkDisable => d.hifReset false false
  | .perst => d.hifReset false false
  | .refclk => d.pcieLost.hifReset false false
  | .ctl m => match m with
    | .svc _ => d.hifReset true true
    | .jtag => d.hifReset true true
    | .bmc => d.hifReset true true
    | _ => d

/-- HIF_RESET. During a reset of the device the request is absorbed (R417); the pin's level is taken all the same. -/
def execHifReset (cause : HifResetCause) (s : State) : Host.Outcome State Fault Refusal :=
  s.runAny (fun d => (if cause = .perst then d.perstFalls else d).apply (fun d => d.hifRequest cause))

/-- HIF_RESET_DONE: within 100 µs RST_BUSY falls, unless a reset ended with PERST_N low (R417). -/
def execHifResetDone (s : State) : Host.Outcome State Fault Refusal :=
  s.run (fun d => if d.hif.perstHold then d else d.wr F.HIF_STAT_RST_BUSY [] 0)

/-! ## The PCIe link (R394, R412, R424) -/

/-- PCIE_LINK_DOWN: the link leaves L0 without a reset request. -/
def execPcieLinkDown (s : State) : Host.Outcome State Fault Refusal :=
  s.run (fun d => d.pcieLost)

/-- WIDTH and SPEED are values that HIF_STAT gives; 64 GT/s runs in flit mode (R324). -/
def linkOk (width speed : Nat) (flit : Bool) : Bool :=
  (width == 1 || width == 2 || width == 4 || width == 8 || width == 16) && 1 ≤ speed && speed ≤ 6 && (speed != 6 || flit)

/-- HIF_STAT's link fields of a trained link. -/
def linkWord (width speed : Nat) (flit : Bool) : Nat := width * 2 ^ 8 + speed * 2 ^ 4 + b2n flit * 8 + 1

/-- The link reaches L0 with fields `w`: PERST_N is high and the PCIe endpoint's domain is on (R424). -/
def Dev.pcieTrain (d : Dev) (w : Nat) : Dev :=
  if !d.hif.perstLow && d.domOn 180 && !d.on F.HIF_STAT_LINK_UP [] && w != 0 then
    (d.setRaw R.HIF_STAT [] (d.raw R.HIF_STAT [] - pcieFields (d.raw R.HIF_STAT []) + w)).drainAll
  else d

/-- PCIE_LINK_UP: the link trains back to L0 without a rise of PERST_N. -/
def execPcieLinkUp (width : Fin 32) (speed : Fin 16) (flit : Bool) (s : State) : Host.Outcome State Fault Refusal :=
  s.run (fun d => if linkOk width.val speed.val flit then d.pcieTrain (linkWord width.val speed.val flit) else d)

end Sys2Proof.Machine
end

