-- ==== Sys2Proof/Machine/Crypto.lean ====
section
/-!
DEFINITION. The two algorithms that the boot ROM uses by name (spec/12_mailboxes_and_service_cores.md R387, R388): SHA-384 and the
verification of an ECDSA signature over the curve P-384. The spec gives neither; both are taken from their public standards, FIPS 180-4
and FIPS 186-5 with SEC 2 (PRESUMED, log 321).
-/

namespace Sys2Proof.Machine

/-! ## SHA-384 -/

/-- The largest x below 2 ^ n + x0 with x ^ k ≤ v, found bit by bit from `x0`. -/
def rootFrom (k v : Nat) : Nat → Nat → Nat
  | 0, x0 => x0
  | n + 1, x0 => rootFrom k v n (if (x0 + 2 ^ n) ^ k ≤ v then x0 + 2 ^ n else x0)

/-- The first 64 bits of the fractional part of the k-th root of a number below 512. -/
def rootBits (k v : Nat) : BitVec 64 := BitVec.ofNat 64 (rootFrom k (v * 2 ^ (64 * k)) 70 0)

/-- The first 80 primes: every number below 410 that has no divisor from 2 to 20 but itself. -/
def shaPrimes : List Nat := ((List.range 410).drop 2).filter (fun v => ((List.range 21).drop 2).all (fun d => v % d ≠ 0 || v = d))

/-- The constant of each round: a cube root of each of the first 80 primes. -/
def shaK : List (BitVec 64) := shaPrimes.map (rootBits 3)

/-- The hash as four pairs of words, the newest first: a with e, b with f, c with g, d with h. -/
abbrev ShaPairs := List (BitVec 64 × BitVec 64)

/-- The pairs before the first block: the square roots of the 9th to 16th prime, the first four on the left. -/
def shaInit : ShaPairs :=
  let r := ((shaPrimes.drop 8).take 8).map (rootBits 2)
  (r.take 4).zip (r.drop 4)

/-- A word rotated right by each of some counts, all taken together by exclusive or, and with one more word. -/
def rotMix (x start : BitVec 64) (counts : List Nat) : BitVec 64 := counts.foldl (fun acc n => acc ^^^ x.rotateRight n) start

/-- One round: `kw` is the sum of its constant and its word of the schedule; the oldest pair leaves and a new one enters. -/
def shaRound (kw : BitVec 64) : ShaPairs → ShaPairs
  | [p, q, r, o] =>
    let add := o.2 + rotMix p.2 0 [14, 18, 41] + (r.2 ^^^ (p.2 &&& (q.2 ^^^ r.2))) + kw
    [(add + rotMix p.1 0 [28, 34, 39] + ((p.1 &&& q.1) ||| (r.1 &&& (p.1 ||| q.1))), o.1 + add), p, q, r]
  | x => x

/-- The window of sixteen words of the schedule one word further on. -/
def shaSlide (w : List (BitVec 64)) : List (BitVec 64) :=
  let old := w.getD 1 0
  let late := w.getD 14 0
  w.drop 1 ++ [w.getD 0 0 + w.getD 9 0 + rotMix old (old >>> 7) [1, 8] + rotMix late (late >>> 6) [19, 61]]

/-- The rounds of the constants `ks`, with a window of the schedule. -/
def shaRounds : List (BitVec 64) → List (BitVec 64) → ShaPairs → ShaPairs
  | [], _, x => x
  | k :: ks, w, x => shaRounds ks (shaSlide w) (shaRound (k + w.getD 0 0) x)

/-- The blocks of a padded message, each of sixteen words, added to the hash one after another. -/
def shaBlocks : Nat → List Byte → ShaPairs → ShaPairs
  | 0, _, x => x
  | n + 1, m, x =>
    let w := (List.range 16).map (fun i => BitVec.ofNat 64 (beVal (sliceOf m (8 * i) 8)))
    shaBlocks n (m.drop 128) (List.zipWith (fun u v => (u.1 + v.1, u.2 + v.2)) x (shaRounds shaK w x))

/-- A message with a 1 bit, zeros and its length in bits, up to a whole number of blocks. -/
def shaPad (m : List Byte) : List Byte :=
  m ++ 0x80 :: List.replicate ((256 - (m.length + 17) % 128) % 128) 0 ++ beBytes 16 (8 * m.length)

/-- The 48 bytes of the SHA-384 of a message: the four left words and the first two on the right. -/
def sha384 (m : List Byte) : List Byte :=
  let p := shaPad m
  let x := shaBlocks (p.length / 128) p shaInit
  (x.map Prod.fst ++ (x.map Prod.snd).take 2).flatMap (fun w => beBytes 8 w.toNat)

/-! ## ECDSA over P-384 -/

/-- The field of P-384, its coefficient b, and the order of its base point. -/
def p384 : Nat := 0xfffffffffffffffffffffffffffffffffffffffffffffffffffffffffffffffeffffffff0000000000000000ffffffff
def p384B : Nat := 0xb3312fa7e23ee7e4988e056be3f82d19181d9c6efe8141120314088f5013875ac656398d8a2ed19d2a85c8edd3ec2aef
def p384N : Nat := 0xffffffffffffffffffffffffffffffffffffffffffffffffc7634d81f4372ddf581a0db248b0a77aecec196accc52973

/-- b^e modulo m; the fuel is the number of bits of e. -/
def powMod (m : Nat) : Nat → Nat → Nat → Nat → Nat
  | 0, _, _, acc => acc
  | n + 1, b, e, acc => powMod m n (b * b % m) (e / 2) (if e % 2 = 1 then acc * b % m else acc)

/-- The inverse modulo a prime of 384 bits. -/
def invMod (m a : Nat) : Nat := powMod m 384 (a % m) (m - 2) 1

/-- A point of the curve as X / Z², Y / Z³; the point at infinity has Z = 0. -/
structure JPoint where
  x : Nat
  y : Nat
  z : Nat
  deriving DecidableEq, Repr

/-- a − b in the field. -/
def subP (a b : Nat) : Nat := (a + (p384 - b % p384)) % p384

/-- The base point. -/
def p384G : JPoint :=
  { x := 0xaa87ca22be8b05378eb1c71ef320ad746e1d3b628ba79b9859f741e082542a385502f25dbf55296c3a545e3872760ab7
    y := 0x3617de4a96262c6f5d9e98bf9292dc29f8f41dbd289a147ce9da3113b5f0b8c00a60b1ce1d7e819d7a431d7c90ea0e5f
    z := 1 }

/-- A point doubled; the curve has a = −3. -/
def JPoint.double (p : JPoint) : JPoint :=
  let yy := p.y * p.y % p384
  let zz := p.z * p.z % p384
  let s := 4 * p.x * yy % p384
  let m := 3 * subP p.x zz * (p.x + zz) % p384
  let x := subP (m * m) (2 * s)
  { x := x, y := subP (m * subP s x) (8 * yy * yy), z := 2 * p.y * p.z % p384 }

/-- The sum of two points. -/
def JPoint.add (p q : JPoint) : JPoint :=
  if p.z = 0 then q
  else if q.z = 0 then p
  else
    let pz := p.z * p.z % p384
    let qz := q.z * q.z % p384
    let u1 := p.x * qz % p384
    let u2 := q.x * pz % p384
    let s1 := p.y * (qz * q.z % p384) % p384
    let s2 := q.y * (pz * p.z % p384) % p384
    if u1 = u2 then if s1 = s2 then p.double else { x := 1, y := 1, z := 0 }
    else
      let h := subP u2 u1
      let r := subP s2 s1
      let hh := h * h % p384
      let v := u1 * hh % p384
      let x := subP (r * r) (hh * h + 2 * v)
      { x := x, y := subP (r * subP v x) (s1 * (hh * h % p384)), z := p.z * q.z % p384 * h % p384 }

/-- k times a point, added to `acc`; the fuel is the number of bits of k. -/
def JPoint.mulAdd : Nat → JPoint → Nat → JPoint → JPoint
  | 0, _, _, acc => acc
  | n + 1, p, k, acc => mulAdd n p.double (k / 2) (if k % 2 = 1 then acc.add p else acc)

/-- The signature `r ‖ s` of a message verifies under an uncompressed public key of 97 bytes. -/
def ecdsaVerify (key sig msg : List Byte) : Bool :=
  let x := beVal (sliceOf key 1 48)
  let y := beVal (sliceOf key 49 48)
  let r := beVal (sliceOf sig 0 48)
  let s := beVal (sliceOf sig 48 48)
  let onCurve := y * y % p384 == (x * x * x + p384B + 3 * (p384 - x)) % p384
  if key.headD 0 ≠ 4 || !(x < p384) || !(y < p384) || !onCurve || r = 0 || p384N ≤ r || s = 0 || p384N ≤ s then false
  else
    let w := invMod p384N s
    let e := beVal (sha384 msg)
    let q := JPoint.mulAdd 384 { x := x, y := y, z := 1 } (r * w % p384N) (JPoint.mulAdd 384 p384G (e * w % p384N) ⟨1, 1, 0⟩)
    q.z ≠ 0 && q.x * invMod p384 (q.z * q.z) % p384 % p384N == r

end Sys2Proof.Machine
end

