-- ==== Sys2Proof/Machine/Annealer.lean ====
section
/-!
DEFINITION. The Annealer (spec/09_annealer_power_thermal.md R261 to R287, R292): the model, measurement, the cap and its shares,
the level, operating points and hints, droop, heat.
-/

namespace Sys2Proof.Machine

/-! ## Events (R292, R354) -/

/-- A power event, by its number in R292's table (log 57). -/
def Dev.powerEvent (d : Dev) (n : Nat) : Dev :=
  let w1 := d.rd F.ANL_STAT_LEVEL [] + d.rd F.ANL_STAT_OPP_CUR [] * 256 + d.rd F.ANL_TEMP_HOT [] * 65536
  d.postEvent (d.rd F.ANL_CFG_EVQ [])
    (eventEntry 4 n (d.eventBody (d.rd F.ANL_PWR_STAT_ENF [] + d.rd F.ANL_LIMITS_CAP_EFF [] * 65536) w1
      (d.rd F.ANL_AVS_STAT_VCMD_MV [] + d.rd F.ANL_AVS_STAT_GUARD_MV [] * 65536) 0 0))

/-! ## The model (R263). Powers in units of 1/102,400,000,000 mW, in which every term is a whole number -/

/-- One milliwatt. -/
def mwUnit : Nat := 102400000000

/-- Events of class `c` (0 links, 1 memory, 2 compute). -/
def classEvents (c : Nat) : List Nat :=
  if c = 0 then [14] else if c = 1 then [3, 4] else [0, 1, 2, 5, 6, 7, 8, 9, 10, 11, 12, 13]

def Dev.static (d : Dev) (j : Nat) : Nat := d.cm F.ANL_STATIC_VALUE [j]

/-- s as a multiple of 1/640,000 (R263). -/
def Dev.scale (d : Dev) : Nat := d.vdd * d.vdd

/-- The dynamic power of an event's count in a period. -/
def Dev.dynPower (d : Dev) (i : Nat) : Nat :=
  Sparse.get 0 d.anl.counts i * d.cm F.ANL_COEF_VALUE [i] * (if coefCore i then d.scale else 640000)

/-- The static power of `n` items of index j. -/
def Dev.staticPower (d : Dev) (core : Bool) (j n : Nat) : Nat :=
  n * d.static j * (if core then 160000 * d.scale else mwUnit)

/-- Domains of a range that are on. -/
def Dev.onCount (d : Dev) (a n : Nat) : Nat := ((List.range n).filter (fun i => d.domOn (a + i))).length

/-- A lane transmits LPI or electrical idle: the latter in the safe state, while squelched, and while its port is disabled or held
(R64, R408, R422). -/
def Dev.laneIdleTx (d : Dev) (n : Nat) : Bool :=
  d.safe || d.on F.LANE_CTL_TX_SQ [n] || (match d.laneOwner n with
    | some p => (d.port p).txLpi || !d.portLive p
    | none => true)

/-- The static power of a lane, at the reach in use (R50). -/
def Dev.lanePower (d : Dev) (n : Nat) : Nat :=
  match d.shape (n / 8) with
  | some (rate, _) =>
    if d.on F.LANE_CTL_EN [n] && d.domOn (n / 8) then
      let mw := d.static (3 * rate + (d.lane n).reach)
      if d.laneIdleTx n then mw * d.static 12 * (mwUnit / 100) else mw * mwUnit
    else 0
  | none => 0

/-- e of R275 in 1/32,768 pJ per bit; bytes moved in a period are rate × 1,250 Gbit/s. -/
def Dev.readCost (d : Dev) : Nat := d.cm F.ANL_COEF_VALUE [3] + 256 * d.cm F.ANL_COEF_VALUE [4]

/-- What the read-back term of memory lacks of RB_FLOOR × e (R275). -/
def Dev.readFloor (d : Dev) : Nat :=
  (min 3200 (d.rd F.SMP_CFG_RB_FLOOR []) * 1250 - Sparse.get 0 d.anl.counts 16) * d.readCost * (mwUnit / 40960000)

/-- The modelled power of a class (R263). -/
def Dev.classPower (d : Dev) (c : Nat) : Nat :=
  let dyn := sumBy (classEvents c) d.dynPower
  dyn + (if c = 0 then
      sumBy (List.range 1024) d.lanePower + d.staticPower false 13 (b2n (d.domOn 180))
    else if c = 1 then
      d.staticPower false 16 (d.onCount 160 8) +
        d.staticPower false 17 ((List.range 4).filter (fun k => d.on F.CXL_STAT_LINK_UP [k])).length
    else
      d.staticPower true 14 (d.onCount 128 32) + d.staticPower true 15 (d.onCount 186 4) +
        d.staticPower true 18 (d.onCount 172 8) + d.staticPower true 19 (d.onCount 182 4))

/-- The base: clocking, and leakage at the mean temperature. -/
def Dev.basePower (d : Dev) : Nat :=
  let k : Int := 8000 + (toSigned 12 (d.rd F.ANL_TEMP_AVG []) - 840) * d.static 22
  (d.static 20 * 160000 + d.static 21 * k.toNat * 20) * d.scale

/-! ## Enforcement (R269, R271 to R275) -/

/-- The enforcement factor f as a fraction. -/
def Dev.enforce (d : Dev) : Dev × Nat × Nat :=
  if !d.on F.ANL_PMB_CFG_EN [] then (d, 1, 1)
  else if d.on F.ANL_STAT_TLM_LOST [] then (d, 100 + d.rd F.ANL_DIVERGE_GUARD_PCT [], 100)
  else if d.on F.ANL_STAT_DIVERGED [] then
    if d.anl.model = 0 then
      let (v, d) := d.free
      (d, max 1 v.toNat, 1)
    else
      let m := d.anl.meas * 100 * mwUnit
      (d, if d.anl.model < m then (m, d.anl.model) else (1, 1))
  else (d, 1, 1)

/-- ONSET or CRIT in 1/8 °C; values above 125 act as 125 (R285). -/
def thermEighths (v : Nat) : Int := (min 125 v * 8 : Nat)

/-- T_hot in 1/8 °C. -/
def Dev.tHot (d : Dev) : Int := toSigned 12 (d.rd F.ANL_TEMP_HOT [])

/-- The effective cap in mW (R271). -/
def Dev.capEff (d : Dev) : Nat :=
  let cap := min 1600 (max 600 (d.rd F.ANL_CAP_W [])) * 1000
  let above := d.tHot - thermEighths (d.rd F.ANL_THERM_ONSET [])
  if above ≤ 0 then cap else max 600000 (cap - d.rd F.ANL_THERM_SLOPE [] * above.toNat * 125)

/-- The priority order's classes, first to last (R273). -/
def prioOrder (p : Nat) : List Nat :=
  match p with
  | 1 => [0, 1, 2]
  | 2 => [2, 0, 1]
  | 3 => [2, 1, 0]
  | 4 => [1, 0, 2]
  | 5 => [1, 2, 0]
  | _ => [0, 2, 1]

def Dev.prio (d : Dev) : Nat :=
  let n := d.rd F.ANL_STAT_OPP_CUR []
  if d.onC F.ANL_OPP_PRIO_EN [n] then d.cm F.ANL_OPP_PRIO [n] else d.cm F.ANL_CFG_PRIO []

/-- The grants (R272): the first pass gives floors, the second demand; `d3`: demands by class; `w`: a watt in their unit. -/
def Dev.grants (d : Dev) (d3 : Nat → Nat) (avail w : Nat) : Sparse Nat :=
  let order := prioOrder d.prio
  let first := order.foldl (fun (s : Nat × Sparse Nat) c =>
    let g := min (d3 c) (min (d.cm F.ANL_CLS_FLOOR [c] * w) s.1)
    (s.1 - g, Sparse.set 0 s.2 c g)) (avail, [])
  (order.foldl (fun (s : Nat × Sparse Nat) c =>
    let g := Sparse.get 0 s.2 c
    let x := min (d3 c - g) s.1
    (s.1 - x, Sparse.set 0 s.2 c (g + x))) first).2

/-- The threshold of a level, per mille. -/
def Dev.levelThr (d : Dev) (l : Nat) : Nat :=
  if l = 1 then d.cm F.ANL_LVL_THR_T1 [] else if l = 2 then d.cm F.ANL_LVL_THR_T2 [] else d.cm F.ANL_LVL_THR_T3 []

/-- The level's next value from enforced power `e` and the cap `cap`, both in one unit (R274). -/
def Dev.nextLevel (d : Dev) (e cap : Nat) : Dev :=
  let reaches := fun (t : Nat) => t * cap ≤ e * 1000
  let cur := d.anl.level
  let target := if reaches (d.levelThr 3) then 3 else if reaches (d.levelThr 2) then 2 else if reaches (d.levelThr 1) then 1 else 0
  if cur < target then { d with anl := { d.anl with level := target, dwell := 0 } }
  else if target < cur && e * 1000 + d.cm F.ANL_LVL_HYS_HYST [] * cap < d.levelThr cur * cap then
    let n := d.anl.dwell + 1
    if max 1 (d.cm F.ANL_LVL_HYS_DWELL []) ≤ n then { d with anl := { d.anl with level := cur - 1, dwell := 0 } }
    else { d with anl := { d.anl with dwell := n } }
  else { d with anl := { d.anl with dwell := 0 } }

/-- The read-back allowance in Gbit/s, the fraction dropped (R275); `short`: the memory shortfall, `mw`: a milliwatt in its
unit. Where e = 0 the spec states no quotient. -/
def Dev.nextA (d : Dev) (short mw : Nat) : Dev :=
  if short = 0 then { d with anl := { d.anl with aNext := 3200 } }
  else if d.readCost = 0 then
    let (v, d) := d.free
    { d with anl := { d.anl with aNext := v.toNat % 4096 } }
  else
    let rb := Sparse.get 0 d.anl.counts 16
    { d with anl := { d.anl with
        aNext := min 4095 ((rb * d.readCost * mw - short * 32768 * 1250) / (1250 * d.readCost * mw)) } }

/-- The OPP ceiling's next value (R275, R285): demand `dm` and grant `g` of compute. -/
def Dev.nextCeil (d : Dev) (dm g : Nat) : Dev :=
  let lo := d.cm F.ANL_CFG_OPP_MIN []
  let a := d.anl
  let up := d.cm F.ANL_OPP_VCORE_MV [a.ceilNext + 1]
  if d.on F.ANL_STAT_THERM_CRIT [] then { d with anl := { a with ceilNext := lo, shortN := 0, fitN := 0 } }
  else if g < dm then
    let n := a.shortN + 1
    if n = 10 then { d with anl := { a with ceilNext := if lo < a.ceilNext then a.ceilNext - 1 else a.ceilNext, shortN := 0, fitN := 0 } }
    else { d with anl := { a with shortN := n, fitN := 0 } }
  else if a.ceilNext < 15 && dm * (up * up) ≤ g * d.scale then
    let n := a.fitN + 1
    if n = 100 then { d with anl := { a with ceilNext := a.ceilNext + 1, shortN := 0, fitN := 0 } }
    else { d with anl := { a with shortN := 0, fitN := n } }
  else { d with anl := { a with shortN := 0, fitN := 0 } }

/-- Whole watts in an 11-bit field, saturating (log 58). -/
def watts (p w : Nat) : Nat := min 2047 (p / w)

/-- Everything computed during a period from the counts of the one before it. The floor of the read-back term (R275) and the
reserve of the open hints (R279) are demands: they enter the shares and the level, not the modelled energy (R291). -/
def Dev.compute (d : Dev) : Dev :=
  let p3 := (List.range 3).map d.classPower
  let base := d.basePower
  let total := sumBy p3 id + base
  let d := { d with anl := { d.anl with winSum := d.anl.winSum + total, winN := d.anl.winN + 1 } }
  let (d, fn, fd) := d.enforce
  let mw := mwUnit * fd
  let heavy := min 8 d.openHints.length * d.rd F.ANL_HEAVY_RES_W [] * 1000 * mw
  let dem := fun c => (p3.getD c 0 + (if c = 1 then d.readFloor else 0)) * fn + (if c = 2 then heavy else 0)
  let b := base * fn
  let enf := dem 0 + dem 1 + dem 2 + b
  let cap := d.capEff * mw
  let w := 1000 * mw
  let g := d.grants dem (cap - b) w
  let gr := fun c => Sparse.get 0 g c
  let d := (List.range 3).foldl (fun d c =>
    (d.wr F.ANL_CLS_STAT_DEMAND [c] (watts (dem c) w)).wr F.ANL_CLS_STAT_GRANT [c] (watts (gr c) w)) d
  let d := (d.wr F.ANL_PWR_STAT_BASE [] (watts b w)).wr F.ANL_PWR_STAT_ENF [] (watts enf w)
  let d := d.wr F.ANL_LIMITS_CAP_EFF [] (watts cap w)
  let nj := d.anl.energy + total * fn * 10 / mw
  let d := { d.addTo F.ANL_ENERGY_TOTAL_COUNT [] (nj / 1000) with anl := { d.anl with energy := nj % 1000 } }
  if d.on F.ANL_CFG_EN [] then ((d.nextLevel enf cap).nextA (dem 1 - gr 1) mw).nextCeil (dem 2) (gr 2)
  else { d with anl := { d.anl with level := 0, dwell := 0, aNext := 3200, ceilNext := 15, shortN := 0, fitN := 0 } }

/-! ## Publication, operating point, voltage (R42, R274, R278, R280) -/

/-- The largest forced minimum of the level. -/
def Dev.forcedLevel (d : Dev) : Nat :=
  let m := fun (b : Bool) (l : Nat) => if b then l else 0
  let rd := d.anl.rdHot.foldl (fun a i => max a (d.rd F.ANL_RDIODE_CTL_LEVEL [i])) 0
  max (m (d.on F.ANL_STAT_ALERT []) 2) (max (m d.anl.droopFloor 2) (max (m (8 < d.anl.faulty.length) 3)
    (max (m (d.on F.ANL_STAT_THERM_CRIT []) 3) (max rd (m d.safe 3)))))

/-- Every consumer acts at level L and allowance A from here on (R43 to R45). -/
def Dev.takeLevel (d : Dev) (l : Nat) : Dev :=
  let d := (d.wr F.LEHR_STAT_LEVEL [] l).gatherLevel l
  { d with sump := { d.sump with level := l } }

/-- A publication. -/
def Dev.publish (d : Dev) : Dev :=
  let l := max d.anl.level d.forcedLevel
  let d := (d.wr F.ANL_STAT_LEVEL [] l).wr F.ANL_STAT_SEQ [] ((d.rd F.ANL_STAT_SEQ [] + 1) % 16)
  let d := (d.inc F.ANL_LVL_CNT_COUNT [l]).takeLevel l
  let d := d.wr F.ANL_LIMITS_A [] d.anl.aNext
  { d with sump := { d.sump with allowance := d.anl.aNext } }

/-- The OPP that the rings request (R278). -/
def Dev.requestedOpp (d : Dev) : Nat :=
  let rings := (d.hif.jobs.map (fun j => j.sub.ring)).eraseDups
  match rings with
  | [] => d.cm F.ANL_CFG_IDLE_OPP []
  | _ => rings.foldl (fun a n => max a (d.cm F.ANL_PHASE_OPP_P [] / 16 ^ (d.ring n).lastPhase % 16)) 0

/-- The OPP ceiling and the OPP in force. -/
def Dev.setOpp (d : Dev) : Dev :=
  (d.wr F.ANL_STAT_OPP_CEIL [] d.anl.ceilNext).wr F.ANL_STAT_OPP_CUR [] (min d.requestedOpp d.anl.ceilNext)

/-- The voltage target in mV. -/
def Dev.vTarget (d : Dev) : Nat :=
  min 800 (max (d.cm F.ANL_OPP_VCORE_MV [d.rd F.ANL_STAT_OPP_CUR []]) d.otp.vminNow + d.rd F.ANL_AVS_STAT_GUARD_MV [] +
    (if d.openHints.isEmpty then 0 else d.rd F.ANL_HEAVY_VBOOST_MV []))

/-- One AVSBus write towards the target (R280): acknowledged, or it fails; the third failure in a row raises a fault, and the
command stays where it is until MODE is cleared (log 59). In the safe state the command is held (R408). -/
def Dev.driveVoltage (d : Dev) (ack : Bool) : Dev :=
  if !d.on F.ANL_AVS_MODE [] then { d with anl := { d.anl with avsFails := 0, avsHeld := false } }
  else
    let v := d.rd F.ANL_AVS_STAT_VCMD_MV []
    let t := d.vTarget
    let step := max 1 (d.rd F.ANL_AVS_STEP_MV [])
    if t = v || d.safe || d.anl.avsHeld then d
    else
      let n := if v < t then min t (v + step) else max t (v - step)
      let d := (d.emit (.avs n)).pmc 129 0x7A 1
      if ack then { d.wr F.ANL_AVS_STAT_VCMD_MV [] n with anl := { d.anl with avsFails := 0 } }
      else if d.anl.avsFails = 2 then
        ({ d with anl := { d.anl with avsFails := 0, avsHeld := true } }.raise 53 0x43 0).powerEvent 6
      else { d with anl := { d.anl with avsFails := d.anl.avsFails + 1 } }

/-- What core k has done in the tick: its cycles are activity, and its events count (R262, R317); a core that does not run does
nothing. -/
def Dev.coreWork (d : Dev) (k : Nat) (w : CoreWork) : Dev :=
  if d.coreRuns k then
    let u := 121 + k
    let d := (d.activity 13 w.cycles.toNat).pmc u 0x70 w.retired.toNat
    ((d.pmc u 0x71 w.cycles.toNat).pmc u 0x72 w.misses.toNat).pmc u 0x73 w.mispredictions.toNat
  else d

/-- The tick: the counts are latched with the service cores' active cycles, what was computed is published and sent, and the
next computation uses the counts just latched (R262). -/
def Dev.anlTick (d : Dev) (cores : List CoreWork) (ack : Bool) : Dev :=
  let d := d.publish.setOpp.driveVoltage ack
  let d := cores.zipIdx.foldl (fun d w => d.coreWork w.2 w.1) d
  let ticks := if d.rd F.PMC_SNAP_PERIOD_TICKS [] = 0 then 0 else d.tlm.snapTicks + 1
  ({ d with act := [], anl := { d.anl with counts := d.act }, tlm := { d.tlm with snapTicks := ticks } }.pmc 129 0x78 1).compute

/-- ANL_PERIOD. -/
def execAnlPeriod (cores : List CoreWork) (avsAck : Bool) (s : State) : Host.Outcome State Fault Refusal :=
  s.run (fun d => d.anlTick cores avsAck)

/-- PUB_GAP: no publication for 40 µs; every consumer acts at L3 until the next one (R45). -/
def execPubGap (s : State) : Host.Outcome State Fault Refusal :=
  s.run (fun d => (d.takeLevel 3).raise 53 0x4B 0)

/-! ## Measurement (R265 to R270) -/

/-- Rails that a window reads. -/
def Dev.railCount (d : Dev) : Nat := d.rd F.ANL_PMB_CFG_NRAIL_M1 [] + 1

/-- ANL_STAT.CNFG_MISMATCH. -/
def Dev.pmbMismatch (d : Dev) : Bool :=
  d.on F.ANL_PMB_CFG_EN [] && (if d.on F.ANL_PMB_CFG_SPEED [] then 8 else 4) < d.railCount

/-- A LINEAR11 word in 0.1 W, the fraction dropped, held to 16 bits; a negative power reads 0 (log 58). -/
def linear11 (v : Nat) : Nat :=
  let y := toSigned 11 v
  let n := toSigned 5 (v / 2048)
  min 65535 (if n < 0 then y.toNat * 10 / 2 ^ (-n).toNat else y.toNat * 10 * 2 ^ n.toNat)

/-- A state of the Annealer changed: its flag, its fault on entry, its event (entry `ev`, exit `ev + 1`). -/
def Dev.anlState (d : Dev) (f : Fld) (src ev : Nat) (on : Bool) : Dev :=
  if d.on f [] = on then d
  else
    let d := d.wr f [] (b2n on)
    if on then (if src = 0 then d else d.raise 53 src 0).powerEvent ev else d.powerEvent (ev + 1)

/-- A window that failed (R267, R268). -/
def Dev.windowFailed (d : Dev) : Dev :=
  let n := d.anl.failed + 1
  let d := { d with anl := { d.anl with failed := n, divN := 0, quietN := 0 } }
  if max 1 (d.rd F.ANL_PMB_CFG_LOSS_N []) ≤ n then d.anlState F.ANL_STAT_TLM_LOST 0x41 3 true else d

/-- A complete window: M in 0.1 W against P (R268). A window in which no period closed has no P and is not compared. -/
def Dev.windowDone (d : Dev) (m sum n : Nat) : Dev :=
  let d := { d with anl := { d.anl with failed := 0 } }.anlState F.ANL_STAT_TLM_LOST 0x41 3 false
  if n = 0 then d
  else
    let p := sum / n
    let d := { d with anl := { d.anl with meas := m, model := p } }
    let d := (d.wr F.ANL_PWR_MEAS_MODEL [] (watts p (1000 * mwUnit))).wr F.ANL_PWR_MEAS_MEAS [] (watts m 10)
    let m' := m * 100 * mwUnit
    let diff := if m' < p then p - m' else m' - p
    if max 1 (d.rd F.ANL_DIVERGE_PCT []) * p < diff * 100 then
      let k := d.anl.divN + 1
      let d := { d with anl := { d.anl with divN := k, quietN := 0 } }
      if k = 8 && !d.on F.ANL_STAT_DIVERGED [] then (d.inc F.ANL_DIV_CNT_COUNT []).anlState F.ANL_STAT_DIVERGED 0x40 1 true else d
    else
      let k := d.anl.quietN + 1
      let d := { d with anl := { d.anl with divN := 0, quietN := k } }
      if k = 8 then d.anlState F.ANL_STAT_DIVERGED 0x40 1 false else d

/-- A rail's reading. -/
def Dev.railRead (d : Dev) (r : Nat) (x : PmbRead) : Dev :=
  match x with
  | .word v => (d.wr F.ANL_PMB_MEAS_VALID [r] 1).wr F.ANL_PMB_MEAS_POWER [r] (linear11 v.toNat)
  | .failed => (d.wr F.ANL_PMB_MEAS_VALID [r] 0).inc F.ANL_PMB_ERR_COUNT []

/-- The PMBus transactions of a window for rail `r` (R265, R270): PAGE where one is set, READ_POUT, and STATUS_WORD after an
alert. -/
def Dev.railBus (d : Dev) (r : Nat) (status : Bool) : Dev :=
  let a := d.rd F.ANL_PMB_RAIL_ADDR [r]
  let page := d.rd F.ANL_PMB_RAIL_PAGE [r]
  let d := if page = 0xFF then d else d.emit (.pmbus a (.page page))
  let d := d.emit (.pmbus a .readPout)
  if status then d.emit (.pmbus a .statusWord) else d

/-- The STATUS_WORDs that alerts asked for enter the fault record of each, and the latch that still holds the fault of one; the spec
gives them no places in the syndrome (log 290). -/
def Dev.recordStatus (d : Dev) (words : List Nat) : Dev :=
  let syn := Config.statusSyndrome words % 2 ^ 32
  let a := d.anl
  let d := { d with
    spl := { d.spl with records := d.spl.records.map (fun x =>
      if a.alertRecs.contains x.seq then { x with syndrome := syn, words := words } else x) }
    anl := { a with readStatus := false, alertRecs := [], alertLatched := false, statusWords := words } }
  if a.alertLatched && d.on F.SPL_LATCH_VALID [53] && d.rd F.SPL_LATCH_SOURCE [53] == 0x42 then
    d.wr F.SPL_LATCH_SYNDROME [53] syn
  else d

/-- The words of reads that succeeded. -/
def pmbWords (l : List PmbRead) : List Nat := l.filterMap (fun x => match x with
  | .word v => some v.toNat
  | .failed => none)

/-- The reads of STATUS_WORD of a window after an alert, of every listed rail: a read that is not given failed. Each failure
counts (R267, R451); the words that came are recorded. -/
def Dev.statusReads (d : Dev) (l : List PmbRead) : Dev :=
  (l.foldl (fun d x => if x = .failed then d.inc F.ANL_PMB_ERR_COUNT [] else d) d).recordStatus (pmbWords l)

/-- PMB_WINDOW: a 1 ms window ends with its rails' readings, and with their STATUS_WORDs when an alert asked for them. A
reading that is not given failed. -/
def execPmbWindow (reads words : List PmbRead) (s : State) : Host.Outcome State Fault Refusal :=
  s.run (fun d =>
    let sum := d.anl.winSum
    let n := d.anl.winN
    let d := { d with anl := { d.anl with winSum := 0, winN := 0 } }
    if !d.on F.ANL_PMB_CFG_EN [] then d
    else if d.pmbMismatch then d.windowFailed
    else
      let rails := (List.range d.railCount).map (fun r => (r, reads.getD r .failed))
      let d := rails.foldl (fun d x => d.railBus x.1 d.anl.readStatus) d
      let status := if d.anl.readStatus then (List.range d.railCount).map (fun r => words.getD r .failed) else []
      let d := if d.anl.readStatus then d.statusReads status else d
      let d := rails.foldl (fun d x => d.railRead x.1 x.2) d
      if rails.any (fun x => x.2 == .failed) || status.any (fun x => x == .failed) then d.windowFailed
      else d.windowDone (sumBy rails (fun x => d.rd F.ANL_PMB_MEAS_POWER [x.1])) sum n)

/-- The records from number `n` on that hold the fault of an alert. -/
def alertSeqs (l : List FaultRec) (n : Nat) : List Nat :=
  (l.filter (fun r => r.collector == 53 && r.source == 0x42 && !r.inj && n ≤ r.seq)).map (fun r => r.seq)

/-- The fault of an alert: it asks for the STATUS_WORDs, which its own record and latch take (R270). -/
def Dev.alertFault (d : Dev) : Dev :=
  let e := { d with anl := { d.anl with readStatus := true } }.raise 53 0x42 0
  let own := alertSeqs e.spl.records (d.rd F.SPL_REC_SEQ_SEQ [])
  { e with anl := { e.anl with
    alertRecs := e.anl.alertRecs ++ own
    alertLatched := e.anl.alertLatched || (!d.on F.SPL_LATCH_VALID [53] && e.on F.SPL_LATCH_VALID [53]) } }

/-- PMB_ALERT: PMB_ALERT_N falls (R270). ALERT shows the level of the pin, which a reset does not change; an edge during a reset
finds no Annealer. -/
def execPmbAlert (s : State) : Host.Outcome State Fault Refusal :=
  s.runAny (fun d =>
    if d.on F.ANL_STAT_ALERT [] then d
    else
      let d := d.wr F.ANL_STAT_ALERT [] 1
      if d.rst.level.isSome then d else d.alertFault.powerEvent 5)

/-- PMB_ALERT_N_RISE. -/
def execPmbAlertNRise (s : State) : Host.Outcome State Fault Refusal := s.runAny (fun d => d.wr F.ANL_STAT_ALERT [] 0)

/-! ## Hints (R279) -/

/-- The hints after a change of each; one that has expired and holds nothing is gone (R279). -/
def Dev.hintsMapped (d : Dev) (f : Hint → Hint) : Dev :=
  let hs := (d.hif.hints.map f).filter (fun h => !h.expired || h.holding)
  { d with hif := { d.hif with hints := hs } }

/-- HINT_EXPIRY: HINT_US has passed for the hint of a submission, named by the device's own number of it. The hint is open no
longer; a dispatch that it still holds stays held until its own release. -/
def execHintExpiry (job : Nat) (s : State) : Host.Outcome State Fault Refusal :=
  s.run (fun d => d.hintsMapped (fun h => if h.uid = job ∧ h.us ≠ 0 then { h with expired := true } else h))

/-- HINT_DISPATCH_RELEASE: the voltage has settled, or WAIT_US has passed. -/
def execHintDispatchRelease (job : Nat) (s : State) : Host.Outcome State Fault Refusal :=
  s.run (fun d => d.hintsMapped (fun h => if h.uid = job then { h with holding := false } else h))

/-! ## Droop (R282, R283). Dies: 0 switch die, 1 and 2 store dies, 3 host die -/

/-- DROOP_FIRE: a detector of a die fires, and the die's clocks are stretched. -/
def execDroopFire (die : Fin 4) (s : State) : Host.Outcome State Fault Refusal :=
  s.run (fun d =>
    let d := (d.inc F.ANL_DROOP_CNT_COUNT [4 + die.val]).pmc 129 0x79 1
    { d with anl := { d.anl with
        fires := Sparse.set 0 d.anl.fires die.val (Sparse.get 0 d.anl.fires die.val + 1)
        stretched := die.val :: d.anl.stretched.filter (fun x => x != die.val) } })

/-- STRETCH_END: the die's clocks run at full rate again. -/
def execStretchEnd (die : Fin 4) (s : State) : Host.Outcome State Fault Refusal :=
  s.run (fun d => { d with anl := { d.anl with stretched := d.anl.stretched.filter (fun x => x != die.val) } })

/-- DROOP_WINDOW: a 1 ms window ends (R283). -/
def execDroopWindow (s : State) : Host.Outcome State Fault Refusal :=
  s.run (fun d =>
    let most := (List.range 4).foldl (fun a i => max a (Sparse.get 0 d.anl.fires i)) 0
    let limit := max 1 (d.rd F.ANL_DROOP_LIMIT [])
    let g := d.rd F.ANL_AVS_STAT_GUARD_MV []
    let g' := max g (min (d.rd F.ANL_DROOP_GUARD_MAX []) (g + d.rd F.ANL_DROOP_GUARD_STEP []))
    let d := { d with anl := { d.anl with fires := [], droopFloor := decide (4 * limit ≤ most) } }
    if limit ≤ most && g' ≠ g then ((d.wr F.ANL_AVS_STAT_GUARD_MV [] g').raise 53 0x44 0).powerEvent 7 else d)

/-- GUARD_FALL: 100 ms have passed with no firing on any die. -/
def execGuardFall (s : State) : Host.Outcome State Fault Refusal :=
  s.run (fun d =>
    let g := d.rd F.ANL_AVS_STAT_GUARD_MV []
    let g' := g - d.rd F.ANL_DROOP_GUARD_STEP []
    if g' ≠ g && d.anl.fires.isEmpty then (d.wr F.ANL_AVS_STAT_GUARD_MV [] g').powerEvent 7 else d)

/-! ## Heat (R284 to R287) -/

/-- The readings of the sensors that convert. -/
def goodReadings (l : List Nat) : List Int := (l.filter (fun x => x != 0x800)).map (toSigned 12)

/-- T_hot and t_avg; with no sensor left neither is stated. -/
def Dev.setTemps (d : Dev) (l : List Nat) : Dev :=
  match goodReadings l with
  | [] =>
    let (v, d) := d.free
    (d.wr F.ANL_TEMP_HOT [] (bitsOf v.toNat 11 0)).wr F.ANL_TEMP_AVG [] (bitsOf v.toNat 23 12)
  | t :: ts =>
    let hot := ts.foldl max t
    let sum := ts.foldl (· + ·) t
    (d.wr F.ANL_TEMP_HOT [] (ofSigned 12 hot)).wr F.ANL_TEMP_AVG [] (ofSigned 12 (sum / (ts.length + 1 : Nat)))

/-- Sensor faults (R284): one CE fault for each sensor that newly fails, one UC fault when more than 8 have failed. -/
def Dev.sensorFaults (d : Dev) (bad : List Nat) : Dev :=
  let old := d.anl.faulty
  let d := { d with anl := { d.anl with faulty := bad } }
  let d := (bad.filter (fun i => !old.contains i)).foldl (fun d i => (d.raise 53 0x45 i).powerEvent 8) d
  if 8 < bad.length && old.length ≤ 8 then (d.raise 53 0x46 0).powerEvent 8 else d

/-- The responses to T_hot (R285). -/
def Dev.thermal (d : Dev) : Dev :=
  let onset := thermEighths (d.rd F.ANL_THERM_ONSET [])
  let d := if onset < d.tHot then d.anlState F.ANL_STAT_THERM_ONSET 0 9 true
    else if d.tHot ≤ onset - 16 then d.anlState F.ANL_STAT_THERM_ONSET 0 9 false else d
  if thermEighths (d.rd F.ANL_THERM_CRIT []) ≤ d.tHot then d.anlState F.ANL_STAT_THERM_CRIT 0x47 11 true else d

/-- A sensor at 130 °C or above on two conversions in a row: THERMTRIP_N falls until a cold reset, and the safe state (R287). -/
def Dev.thermTrip (d : Dev) (hot : List Nat) : Dev :=
  let old := d.anl.hot130
  let d := { d with anl := { d.anl with hot130 := hot } }
  if hot.any old.contains && !d.rst.thermTrip then { d with rst := { d.rst with thermTrip := true } }.raise 53 0x49 0 else d

/-- SENSOR_CONVERT: the 64 sensors convert; 0x800 is a conversion fault, as is a reading that is not given. -/
def execSensorConvert (readings : List (BitVec 12)) (s : State) : Host.Outcome State Fault Refusal :=
  s.run (fun d =>
    let l := (List.range 64).map (fun i => (readings.getD i 0x800).toNat)
    let at_ := fun i => l.getD i 0x800
    let d := (List.range 64).foldl (fun (d : Dev) i => d.wr F.ANL_TEMP_SENS_T [i] (at_ i)) d
    let d := (d.setTemps l).sensorFaults (indicesWhere 64 (fun i => at_ i == 0x800))
    d.thermal.thermTrip (indicesWhere 64 (fun i => at_ i != 0x800 && (1040 : Int) ≤ toSigned 12 (at_ i))))

/-- THERM_CRIT_EXIT: T_hot has been below CRIT − 5 °C for 10 ms. -/
def execThermCritExit (s : State) : Host.Outcome State Fault Refusal :=
  s.run (fun d =>
    if d.tHot < thermEighths (d.rd F.ANL_THERM_CRIT []) - 40 then d.anlState F.ANL_STAT_THERM_CRIT 0x47 11 false else d)

/-- Diode i is read (R286); an open or shorted one sets OPEN whether or not the diode is in use (R448). -/
def Dev.diode (d : Dev) (i : Nat) (t : Option (BitVec 12)) : Dev :=
  let en := d.on F.ANL_RDIODE_CTL_EN [i]
  if d.on F.ANL_RDIODE_STAT_OPEN [i] then d
  else match t with
    | none =>
      let d := (d.wr F.ANL_RDIODE_STAT_OPEN [i] 1).raise 53 0x48 i
      { d with anl := { d.anl with rdHot := d.anl.rdHot.filter (fun x => x != i) } }.powerEvent 13
    | some v =>
      let d := d.wr F.ANL_RDIODE_STAT_T [i] v.toNat
      let hot := en && ((d.rd F.ANL_RDIODE_CTL_LIMIT [i] * 8 : Nat) : Int) < toSigned 12 v.toNat
      let was := d.anl.rdHot.contains i
      let d := { d with anl := { d.anl with rdHot := if hot then i :: d.anl.rdHot.filter (fun x => x != i) else d.anl.rdHot.filter (fun x => x != i) } }
      if hot && !was then d.powerEvent 13 else d

/-- RDIODE_READ: the remote diodes are read; no reading is an open or shorted diode. -/
def execRdiodeRead (t0 t1 : Option (BitVec 12)) (s : State) : Host.Outcome State Fault Refusal :=
  s.run (fun d =>
    let d := (d.diode 0 t0).diode 1 t1
    d.wr F.ANL_STAT_RD_HOT [] (b2n (!d.anl.rdHot.isEmpty)))

end Sys2Proof.Machine
end

