-- ==== Sys2Proof/Machine/Telemetry.lean ====
section
/-!
DEFINITION. The timebase's steps, queue samples, the reading of histograms, counter samples and snapshots
(spec/10_telemetry_and_counters.md R294, R295, R305, R306, R308, R319, R320).
-/

namespace Sys2Proof.Machine

/-! ## Time -/

/-- What one TIME clock adds to the fraction beyond 1 ns: TRIM, held to its limit (R294). -/
def Dev.trim (d : Dev) : Int := max (-4294967) (min 4294967 (toSigned 32 (d.rd F.TLM_TIME_TRIM_TRIM [])))

/-- TIME advances by one TIME clock. -/
def Dev.clockTime (d : Dev) : Dev :=
  let t : Int := ((d.ns * 2 ^ 32 + d.frac : Nat) : Int) + 2 ^ 32 + d.trim
  let n := ofSigned 96 t
  { d with ns := n / 2 ^ 32, frac := n % 2 ^ 32, rst := { d.rst with mono := d.rst.mono + 1 } }

/-- A write of TLM_TIME_CTL (R295): SET loads the count, with fraction 0; STEP alone adds to it. -/
def Dev.timeCtl (d : Dev) (v : Nat) : Dev :=
  let x := d.rd F.TLM_TIME_STEP_STEP []
  if bitAt v 1 then { d with ns := x, frac := 0 }
  else if bitAt v 0 then { d with ns := (d.ns + x) % 2 ^ 64 }
  else d

/-- TIME_SET: a write of TLM_TIME_CTL with SET = 1. -/
def execTimeSet (m : Master) (s : State) : Host.Outcome State Fault Refusal :=
  s.run (fun d => d.accessPf m R.TLM_TIME_CTL.bar0 2 (fun d => d.timeCtl 2))

/-- TIME_STEP: a write of TLM_TIME_CTL with STEP = 1. -/
def execTimeStep (m : Master) (s : State) : Host.Outcome State Fault Refusal :=
  s.run (fun d => d.accessPf m R.TLM_TIME_CTL.bar0 1 (fun d => d.timeCtl 1))

/-! ## Queue samples (R305, R306) -/

/-- Cells of a queue's VOQs that stand outside the Quarry. -/
def Dev.outsideCells (d : Dev) (e : Nat) : Nat :=
  sumBy d.dp.copies (fun c =>
    if isVoq c.queue && eqOf c.queue == e && c.loc == .sump && !c.released then c.cells - c.linked else 0)

/-- Gate q of port p is closed now (R209); with gating off every gate is open. -/
def Dev.gateClosed (d : Dev) (p q : Nat) : Bool := d.on F.EGR_PORT_CFG_GATE_EN [p] && !bitAt (d.gatesAt p d.ns).1 q

/-- The sampler visits queue number `e`. -/
def Dev.sampleQueue (d : Dev) (e : Nat) : Dev :=
  let p := e / 12
  let q := e % 12
  let depth := d.queueDepth p q
  let out := d.outsideCells e
  if depth + out < d.rd F.TLM_QS_MIN_CELLS [] then d
  else
    let flags := b2n (d.sump.ctxs.any (fun x => eqOf x.voq == e)) * 2 ^ 31 + b2n (d.queuePaused p q) * 2 ^ 30 +
      b2n (d.gateClosed p q) * 2 ^ 29
    let delay := match d.candidate p q with
      | some c => nsDiff d.ns (tsNs (mdGet c.md mdIngTs))
      | none => 0
    d.record 0 ([1] ++ leBytes 2 (q * 4096 + p) ++ leBytes 4 (flags + depth) ++ leBytes 4 (d.rd F.QRY_Q_AVG_CELLS [p, q]) ++
      leBytes 4 out ++ leBytes 4 delay ++ leBytes 8 d.ns)

/-- The next selected queue from number `e` on. -/
def Dev.nextSample (d : Dev) (e : Nat) : Option Nat :=
  let here := (List.range (12 - e % 12)).map (· + e)
  let sel := fun x => bitAt (d.rd F.TLM_QS_PORT_QMASK [x / 12]) (x % 12)
  match here.find? sel with
  | some x => if e < 12288 then some x else none
  | none =>
    let p := (List.range (1023 - e / 12)).map (· + (e / 12 + 1))
    (p.find? (fun p => d.rd F.TLM_QS_PORT_QMASK [p] != 0)).bind (fun p =>
      ((List.range 12).map (· + 12 * p)).find? sel)

/-- The sweep that runs makes the visit that is due: one queue in 8 ns. -/
def Dev.sweepTick (d : Dev) : Dev :=
  match d.tlm.sweep with
  | none => d
  | some (e, t) =>
    if d.rst.mono < t then d
    else match d.nextSample e with
      | none => { d with tlm := { d.tlm with sweep := none } }
      | some x => { d with tlm := { d.tlm with sweep := some (x + 1, t + 8) } }.sampleQueue x

/-- QS_SWEEP: a sweep's start, every PERIOD_US. -/
def execQsSweep (s : State) : Host.Outcome State Fault Refusal :=
  s.run (fun d =>
    if !d.on F.TLM_QS_CFG_EN [] || d.safe then d
    else match d.tlm.sweep with
      | some _ => (d.inc F.TLM_QS_SKIP_COUNT []).wr F.TLM_STAT_QS_OVERRUN [] 1
      | none => { d with tlm := { d.tlm with sweep := some (0, d.rst.mono) } }.sweepTick)

/-! ## Histograms (R308) -/

/-- The 19 words of a queue's histogram. -/
def Hist.words (h : Hist) : List Nat :=
  (List.range 16).map (fun b => Sparse.get 0 h.bins b) ++ [h.max, h.sum % 2 ^ 32, h.sum / 2 ^ 32]

/-- A read of TLM_HQ_DATA[0] latches the queue's words, and clears its histogram when CLR = 1. -/
def Dev.histLatch (d : Dev) : Dev :=
  let e := d.rd F.TLM_HQ_IDX_QUEUE []
  let w := if e < 12288 then (Sparse.get {} d.tlm.hist e).words.zipIdx.map (fun x =>
    if d.tlm.deadHist.contains (e, x.2) then 0 else x.1) else List.replicate 19 0
  let hist := if d.on F.TLM_HQ_IDX_CLR [] then Sparse.set {} d.tlm.hist e {} else d.tlm.hist
  { d with tlm := { d.tlm with hqLatch := w, hist := hist } }

/-- HIST_LATCH_READ: a read of TLM_HQ_DATA[0]. -/
def execHistLatchRead (m : Master) (s : State) : Host.Outcome State Fault Refusal :=
  s.run (fun d =>
    if !hasWindow m || d.hostBlocked m then d
    else
      let d := d.histLatch
      d.emit (.readData m.mid R.TLM_HQ_DATA.bar0 (d.shownWord R.TLM_HQ_DATA [0] (d.tlm.hqLatch.getD 0 0))))

/-! ## Counters (R319, R320) -/

/-- Twelve bytes of a context that nothing in the model knows. -/
def Dev.freeContext (d : Dev) : Dev × List Byte :=
  let (a, d) := d.free
  let (b, d) := d.free
  (d, leBytes 8 a.toNat ++ leBytes 4 b.toNat)

/-- The context that pipeline `u` captures: of a packet that is in it. One that has left the pipeline by now is known no more: its
fields are free (log 298). -/
def Dev.pipeContext (d : Dev) (u pass : Nat) : Dev × List Byte :=
  match d.pass pass with
  | some x =>
    if x.pipe = u then
      (d, leBytes 4 (x.md' mdFlowHash) ++ leBytes 2 (x.md' mdIngPort) ++ leBytes 2 (x.md' mdPipeId) ++
        leBytes 4 (x.md' mdIngTs / 256))
    else d.freeContext
  | none => d.freeContext

/-- PMC_WRAP: the overflow sample of the oldest wrap that owes one (R319). Its context: in a pipeline, of packet `pass`; in a service
core, `pc`, the address of an instruction that it retired; in another unit, its cycle counter. -/
def execPmcWrap (pass : Nat) (pc : BitVec 64) (s : State) : Host.Outcome State Fault Refusal :=
  s.run (fun d =>
    match d.pmcWraps with
    | [] => d
    | (u, c) :: t =>
      let (d, ctx) := if u < 64 then d.pipeContext u pass
        else if 121 ≤ u && u ≤ 128 then (d, leBytes 8 pc.toNat)
        else (d, leBytes 8 (d.rd F.PMC_CYC_COUNT [u]))
      { d with pmcWraps := t }.record 3 ([1] ++ leBytes 2 u ++ [BitVec.ofNat 8 c, 0, 0, 0] ++ leBytes 8 d.ns ++ ctx))

/-- Every counter is copied into its shadow. A counter that reads 0 has no entry, and cycle counters do not count here. -/
def Dev.snapshot (d : Dev) : Dev :=
  let cells := (d.regs.filter (fun e => keyWin e.1 == R.PMC_CNT.win && keyId e.1 == R.PMC_CNT.id)).map (fun e =>
    (16 * (keyFlat e.1 / 8) + 1 + keyFlat e.1 % 8, e.2.toNat))
  let d := { d with tlm := { d.tlm with shadow := cells } }
  (d.wr F.PMC_SNAP_TIME_NS [] d.ns).wr F.PMC_SNAP_SEQ_SEQ [] ((d.rd F.PMC_SNAP_SEQ_SEQ [] + 1) % 2 ^ 32)

/-- Masters whose writes the counters accept (R323). -/
def pmcWriter (m : Master) : Bool := isPfSvc m || m == .jtag

/-- PMC_SNAP: a write of PMC_GCTL with SNAP = 1. -/
def execPmcSnap (m : Master) (v : BitVec 32) (s : State) : Host.Outcome State Fault Refusal :=
  s.run (fun d =>
    if bitAt v.toNat 0 && pmcWriter m then
      d.access m R.PMC_GCTL.bar0 v.toNat (fun d =>
        ((d.wr F.PMC_GCTL_FREEZE [] (bitsOf v.toNat 31 31)).wr F.PMC_GCTL_VIEW [] (bitsOf v.toNat 30 30)).snapshot)
    else d)

/-- PMC_SNAP_PERIODIC: TICKS ticks of the Annealer have passed since the last periodic snapshot. -/
def execPmcSnapPeriodic (s : State) : Host.Outcome State Fault Refusal :=
  s.run (fun d =>
    let n := d.rd F.PMC_SNAP_PERIOD_TICKS []
    if n != 0 && n ≤ d.tlm.snapTicks then { d with tlm := { d.tlm with snapTicks := 0 } }.snapshot else d)

end Sys2Proof.Machine
end

