-- ==== Sys2Proof/Machine/Ipfix.lean ====
section
/-!
DEFINITION. The IPFIX service of the firmware (spec/10_telemetry_and_counters.md R312; spec/12_mailboxes_and_service_cores.md R376,
R385): messages under RFC 7011, the reading of flow counters through TBL_CMD under lock 0, and the way to the collectors over the
side port. What RFC 7011 and the spec leave to the exporter is the model's choice (log 299).
-/

namespace Sys2Proof.Machine

/-! ## The configuration -/

/-- Byte i of the IPFIX configuration message. -/
def Dev.ipfixByte (d : Dev) (i : Nat) : Nat := d.svc.ipfix.getD (i / 4) 0 / 256 ^ (i % 4) % 256
def Dev.ipfixBytes (d : Dev) (i n : Nat) : List Byte := (List.range n).map (fun j => BitVec.ofNat 8 (d.ipfixByte (i + j)))

/-- IPFIX export runs: configured, with its core, outside the safe state (R408). -/
def Dev.ipfixCollectors (d : Dev) : Nat := if d.coreRuns 4 && !d.safe then d.ipfixByte 16 else 0

def Dev.enterprise (d : Dev) : Nat := d.svc.ipfix.getD 3 0

/-- An address in the form of R238: whether it is IPv6, and its value. -/
def Dev.ipfixAddr (d : Dev) (i : Nat) : Bool × Nat :=
  let v := beVal (d.ipfixBytes i 16)
  (2 ^ 32 ≤ v, v)

/-! ## Messages -/

/-- A TIME in ns as an NTP timestamp, the form of dateTimeNanoseconds. -/
def ntp (ns : Nat) : Nat :=
  (ns / 1000000000 + 2208988800) % 2 ^ 32 * 2 ^ 32 + ns % 1000000000 * 2 ^ 32 / 1000000000

/-- A set: its ID, its length, what it holds. -/
def ipfixSet (id : Nat) (body : List Byte) : List Byte := beBytes 2 id ++ beBytes 2 (4 + body.length) ++ body

/-- A message: version 10, length, export time, the count of data records exported before, the observation domain; its set. -/
def Dev.ipfixMessage (d : Dev) (set : List Byte) : List Byte :=
  beBytes 2 10 ++ beBytes 2 (16 + set.length) ++ beBytes 4 (d.ns / 1000000000 % 2 ^ 32) ++
    beBytes 4 (d.svc.exported % 2 ^ 32) ++ beBytes 4 (d.svc.ipfix.getD 1 0) ++ set

/-- A template: its ID, the count of its fields, and each as an information element with its length. -/
def ipfixTemplate (id : Nat) (fields : List (List Byte)) : List Byte := beBytes 2 id ++ beBytes 2 fields.length ++ fields.flatten

/-- An information element of IANA's, and one of the enterprise. -/
def element (id len : Nat) : List Byte := beBytes 2 id ++ beBytes 2 len
def Dev.ownElement (d : Dev) (id len : Nat) : List Byte := beBytes 2 (2 ^ 15 + id) ++ beBytes 2 len ++ beBytes 4 d.enterprise

/-- Templates 256, of flow records, and 257, of queue records, which have one while the enterprise number is not 0. -/
def Dev.templates (d : Dev) : List Byte :=
  ipfixTemplate 256 [element 148 8, element 2 8, element 1 8, element 157 8] ++
    if d.enterprise = 0 then []
    else ipfixTemplate 257 [element 14 4, element 325 8, d.ownElement 1 1, d.ownElement 2 4, d.ownElement 3 4, d.ownElement 4 4]

/-- What a 64-bit counter that wraps (R121) has counted since it read `old` (DEDUCED, log 316). -/
def since (new old : Nat) : Nat := (new + 2 ^ 64 - old) % 2 ^ 64

/-- A flow record (R312): flowId, packetDeltaCount and octetDeltaCount since the counter's report before, `last`,
flowEndNanoseconds. -/
def FlowRead.record (r : FlowRead) (last : Nat × Nat) : List Byte :=
  beBytes 8 r.idx ++ beBytes 8 (since r.packets last.1) ++ beBytes 8 (since r.bytes last.2) ++ beBytes 8 (ntp r.ns)

/-- A queue record (R312) from a record of stream 0: egressInterface, observationTimeNanoseconds, queue, Quarry cells, cells outside
the Quarry, head delay. -/
def queueRecord (r : List Byte) : List Byte :=
  let v := fun i n => leVal (sliceOf r i n)
  beBytes 4 (v 2 2 % 1024) ++ beBytes 8 (ntp (v 20 8)) ++ beBytes 1 (v 2 2 / 4096) ++ beBytes 4 (v 4 4 % 2 ^ 29) ++
    beBytes 4 (v 12 4) ++ beBytes 4 (v 16 4)

/-- A message goes to every collector (R312). -/
def Dev.exportSet (d : Dev) (set : List Byte) : Dev :=
  let m := d.ipfixMessage set
  (List.range d.ipfixCollectors).foldl (fun d c =>
    { d.emit (.ipfix c m) with svc := { d.svc with outgoing := d.svc.outgoing ++ [{ collector := c, message := m }] } }) d

/-- Data records of template `id` go out, `per` in a message, so that none is longer than 1,472 bytes. -/
def Dev.exportRecords (d : Dev) (id per : Nat) : Nat → List (List Byte) → Dev
  | 0, _ => d
  | fuel + 1, l =>
    if l.isEmpty then d
    else
      let d := d.exportSet (ipfixSet id (l.take per).flatten)
      let d := { d with svc := { d.svc with exported := d.svc.exported + (l.take per).length } }
      d.exportRecords id per fuel (l.drop per)

/-- The templates go to each collector, under the next number of the template sequence. -/
def Dev.sendTemplates (d : Dev) : Dev :=
  let e := d.exportSet (ipfixSet 2 d.templates)
  { e with svc := { e.svc with templateSeq := d.svc.templateSeq + 1 } }

/-! ## Next hops (R385) -/

/-- The 16-bit one's complement sum of an ICMPv6 message with its pseudo-header. -/
def icmp6Sum (src dst : Nat) (msg : List Byte) : Nat :=
  csumOf (sum16 (beBytes 16 src ++ beBytes 16 dst ++ beBytes 4 msg.length ++ beBytes 4 58 ++ msg))

/-- An ARP request for an IPv4 address. -/
def arpRequest (mac src dst : Nat) : List Byte :=
  beBytes 6 (2 ^ 48 - 1) ++ beBytes 6 mac ++ beBytes 2 0x0806 ++ beBytes 2 1 ++ beBytes 2 0x0800 ++ [6, 4] ++ beBytes 2 1 ++
    beBytes 6 mac ++ beBytes 4 src ++ beBytes 6 0 ++ beBytes 4 dst

/-- A neighbour solicitation for an IPv6 address, to its solicited-node address. -/
def neighbourSolicitation (mac src dst : Nat) : List Byte :=
  let node := 0xFF0200000000000000000001FF000000 + dst % 2 ^ 24
  let msg := fun c => [135, 0] ++ beBytes 2 c ++ beBytes 4 0 ++ beBytes 16 dst ++ [1, 1] ++ beBytes 6 mac
  beBytes 6 (0x333300000000 + node % 2 ^ 32) ++ beBytes 6 mac ++ beBytes 2 0x86DD ++ beBytes 4 (6 * 2 ^ 28) ++ beBytes 2 32 ++
    [58, 255] ++ beBytes 16 src ++ beBytes 16 node ++ msg (icmp6Sum src node (msg 0))

/-- The address and MAC address that an ARP reply or a neighbour advertisement tells. -/
def neighbourIn (f : List Byte) : Option (Nat × Nat) :=
  let v := fun i n => beVal (sliceOf f i n)
  if v 12 2 = 0x0806 then (if v 20 2 = 2 then some (v 28 4, v 22 6) else none)
  else if v 12 2 = 0x86DD ∧ v 20 1 = 58 ∧ v 54 1 = 136 ∧ v 78 2 = 0x0201 then some (v 62 16, v 80 6)
  else none

/-- The service looks at the side-port frames that have come since it last looked. -/
def Dev.learnNeighbours (d : Dev) : Dev :=
  let l := (d.phy.delivered.drop d.svc.sideSeen).filterMap (fun e => neighbourIn e.2)
  { d with svc := { d.svc with
    sideSeen := d.phy.delivered.length
    neighbours := l.foldl (fun m e => e :: m.filter (fun x => x.1 != e.1)) d.svc.neighbours } }

/-- One message: sent when its collector's MAC address is known, which is asked for once. The next hop of a collector is the collector
itself. -/
def Dev.trySend (d : Dev) (x : Export) : Dev :=
  let port := d.ipfixByte 18
  let (v6, dip) := d.ipfixAddr (20 + 20 * x.collector)
  let sip := (d.ipfixAddr 132).2
  let wait := fun (d : Dev) => { d with svc := { d.svc with outgoing := d.svc.outgoing ++ [{ x with asked := true }] } }
  match d.svc.neighbours.find? (fun e => e.1 == dip) with
  | some (_, mac) =>
    let (v, d) := d.free
    let a : GAddr := { v6 := v6, smac := Config.sideMac, sip := sip, dmac := mac, dip := dip
                       dport := leVal (d.ipfixBytes (36 + 20 * x.collector) 2), dscp := bitsOf v.toNat 52 47 }
    d.sideSend port (udpFrame a (leVal (d.ipfixBytes 148 2)) (bitsOf v.toNat 46 39) x.message v.toNat)
  | none =>
    if x.asked then wait d
    else wait (d.sideSend port
      (if v6 then neighbourSolicitation Config.sideMac sip dip else arpRequest Config.sideMac sip dip))

/-- The messages that wait are tried. -/
def Dev.sendOutgoing (d : Dev) : Dev :=
  let l := d.svc.outgoing
  if l.isEmpty then d
  else
    let d := d.learnNeighbours
    l.foldl (fun d x => d.trySend x) { d with svc := { d.svc with outgoing := [] } }

/-! ## Reading flow counters (R312, R376) -/

/-- The MID of the service's core, S4. -/
def ipfixMid : Nat := 0x44

/-- Lock 0 is the service's. -/
def Dev.ipfixLock (d : Dev) : Bool := d.on F.MBX_LOCK_HELD [0] && d.rd F.MBX_LOCK_OWNER [0] == ipfixMid

/-- The lock is taken when it is free, and given back. -/
def Dev.takeLock (d : Dev) : Dev :=
  if d.on F.MBX_LOCK_HELD [0] || d.on F.HIF_STAT_RST_BUSY [] then d
  else (d.wr F.MBX_LOCK_HELD [0] 1).wr F.MBX_LOCK_OWNER [0] ipfixMid
def Dev.giveLock (d : Dev) : Dev :=
  if d.ipfixLock then (d.wr F.MBX_LOCK_HELD [0] 0).wr F.MBX_LOCK_OWNER [0] 0 else d

def Dev.setBatch (d : Dev) (b : Option FlowBatch) : Dev := { d with svc := { d.svc with batch := b } }

/-- The ranges of the configuration. -/
def Dev.flowRanges (d : Dev) : List (Nat × Nat) :=
  (List.range (d.ipfixByte 17)).map (fun r => (d.svc.ipfix.getD (25 + 2 * r) 0, d.svc.ipfix.getD (26 + 2 * r) 0))

/-- What is left of the ranges after the first index. -/
def rangesTail : List (Nat × Nat) → List (Nat × Nat)
  | [] => []
  | (a, n) :: t => if n ≤ 1 then t else (a + 1, n - 1) :: t

/-- The flow records of a batch in one message. -/
def flowsPerMessage : Nat := 45
def queuesPerMessage : Nat := 58

/-- A READ of flow counter `i` is written: TBL_CMD_IDX, then TBL_CMD. -/
def Dev.askCounter (d : Dev) (b : FlowBatch) (i : Nat) : Dev :=
  ((d.wr F.TBL_CMD_IDX_INDEX [] i).tblCmd (.svc 4) (4 * 2 ^ 25 + 1)).setBatch (some { b with asked := true })

/-- The result of the READ of counter `i`: taken when TBL_CMD_STAT.MID is the service's, else the READ is made again (R376). -/
def Dev.takeCounter (d : Dev) (b : FlowBatch) (i : Nat) : Dev :=
  if d.rd F.TBL_CMD_STAT_MID [] ≠ ipfixMid then d.setBatch (some { b with asked := false })
  else
    let w := fun k => d.rd F.TBL_CMD_DATA_DATA [k]
    let r : FlowRead := { idx := i, packets := w 1 * 2 ^ 32 + w 0, bytes := w 3 * 2 ^ 32 + w 2, ns := d.ns }
    d.setBatch (some { ranges := rangesTail b.ranges, got := b.got ++ [r] })

/-- A flow counter's report: its record, and what the next one counts from. -/
def Dev.flowReport (d : Dev) (r : FlowRead) : Dev × List Byte :=
  let last := Sparse.get (0, 0) d.svc.flows r.idx
  ({ d with svc := { d.svc with flows := Sparse.set (0, 0) d.svc.flows r.idx (r.packets, r.bytes) } }, r.record last)

/-- The records of the counters read, in order; ranges that overlap report a counter again. -/
def Dev.flowReports (d : Dev) (l : List FlowRead) : Dev × List (List Byte) :=
  l.foldl (fun x r =>
    let (d, b) := x.1.flowReport r
    (d, x.2 ++ [b])) (d, [])

/-- A batch ends: the lock is given back, and its records go out. The next batch takes the lock again. -/
def Dev.endBatch (d : Dev) (b : FlowBatch) : Dev :=
  let (d, l) := d.giveLock.flowReports b.got
  let d := d.exportRecords 256 flowsPerMessage 1 l
  d.setBatch (if b.ranges.isEmpty then none else some { ranges := b.ranges })

/-- One step of the reading. -/
def Dev.batchStep (d : Dev) (b : FlowBatch) : Dev :=
  match b.ranges.find? (fun r => r.2 != 0) with
  | none => d.endBatch { b with ranges := [] }
  | some (i, _) =>
    let b := { b with ranges := b.ranges.dropWhile (fun r => r.2 == 0) }
    if flowsPerMessage ≤ b.got.length then d.endBatch b
    else if !d.tblAcc (.svc 4) then d.endBatch { b with ranges := [] }
    else if !d.ipfixLock then d.takeLock
    else if d.on F.TBL_CMD_BUSY [] then d
    else if b.asked then d.takeCounter b i
    else d.askCounter b i

/-- What the service does as time passes: messages that wait, and its batch. -/
def Dev.ipfixTick (d : Dev) : Dev :=
  if d.ipfixCollectors = 0 then d
  else
    let d := d.sendOutgoing
    match d.svc.batch with
    | some b => d.batchStep b
    | none =>
      if d.svc.exportDue then
        { d with svc := { d.svc with exportDue := false, batch := some { ranges := d.flowRanges } } }
      else d

/-- The service forgets what it was doing: its core starts at the firmware entry, or a new configuration comes. -/
def Dev.ipfixIdle (d : Dev) : Dev :=
  { d.giveLock with svc := { d.giveLock.svc with exportDue := false, batch := none, queueRecs := [], outgoing := [] } }

/-! ## Commands -/

/-- IPFIX_EXPORT: the export interval expires: the queue records go out, and the flow records as soon as they are read. -/
def execIpfixExport (s : State) : Host.Outcome State Fault Refusal :=
  s.run (fun d =>
    if d.ipfixCollectors = 0 then d
    else
      let l := if d.enterprise = 0 then [] else d.svc.queueRecs.map queueRecord
      let d := d.exportRecords 257 queuesPerMessage l.length l
      { d with svc := { d.svc with exportDue := true, queueRecs := [] } })

/-- IPFIX_TEMPLATE_REFRESH: the refresh interval expires. -/
def execIpfixTemplateRefresh (s : State) : Host.Outcome State Fault Refusal :=
  s.run (fun d => if d.ipfixCollectors = 0 then d else d.sendTemplates)

end Sys2Proof.Machine
end

