-- ==== Sys2Proof/Machine/Services.lean ====
section
/-!
DEFINITION. The service cores: their requests, boot and one-time programming (spec/12_mailboxes_and_service_cores.md R378 to
R390), the fault log (spec/13_spall_faults.md R403, R404), and supply sag (spec/09_annealer_power_thermal.md R288, R289).
-/

namespace Sys2Proof.Machine

/-! ## Requests and replies (R381, R383) -/

def svcOk : Nat := 0
def svcBusy : Nat := 1
def svcBadService : Nat := 2
def svcBadOp : Nat := 3
def svcBadArg : Nat := 4
def svcNotPermitted : Nat := 5
def svcNotRunning : Nat := 6
def svcFailed : Nat := 7

/-- The core that runs a service. -/
def serviceCore (svc : Nat) : Nat :=
  if svc = 2 then 3 else if svc = 3 then 4 else if svc = 4 then 5 else if svc = 5 then 6 else if svc = 6 then 7 else 0

/-- The operations of a service whose list the spec gives; those of the other services it does not number (log 292). -/
def opKnown (svc op : Nat) : Bool :=
  if svc = 3 then op == 1 else if svc = 6 || svc = 7 then 1 ≤ op && op ≤ 3 else true

/-- The message in channel c. -/
def Dev.message (d : Dev) (c : Nat) : List Nat :=
  (List.range (d.rd F.MBX_STAT_LEN [c])).map (fun k => d.rd F.MBX_DATA_DATA [c, k])

/-- Byte i of a message. -/
def msgByte (msg : List Nat) (i : Nat) : Nat := msg.getD (i / 4) 0 / 256 ^ (i % 4) % 256

/-- What follows dword 0: a FAILED reply carries a service code, which the spec does not number: it is free (R383). -/
def Dev.withCode (d : Dev) (status : Nat) (rest : List Nat) : List Nat × Dev :=
  if status = svcFailed ∧ rest = [] then
    let (v, d) := d.free
    ([bitsOf v.toNat 31 0], d)
  else (rest, d)

/-- The oldest request that a core has taken from channel c and not answered yet: the core's MID and the message (R373). -/
def Dev.takenAt (d : Dev) (c : Nat) : Option (Nat × List Nat) := (d.svc.taken.find? (fun x => x.2.1 == c)).map (fun x => (x.1, x.2.2))

/-- The request of channel c that is about to be answered leaves the core's queue, or is taken from the channel. -/
def Dev.requestDone (d : Dev) (mid c : Nat) : Dev :=
  match d.svc.taken.find? (fun x => x.2.1 == c) with
  | some x => { d with svc := { d.svc with taken := d.svc.taken.erase x } }
  | none => d.mbxAck mid c (d.rd F.MBX_STAT_SEQ [c])

/-- The reply of core `mid` on the partner channel: dword 0 with its STATUS, and what follows. The request is taken first. -/
def Dev.reply (d : Dev) (mid c : Nat) (msg : List Nat) (status : Nat) (rest : List Nat) : Dev :=
  let (rest, d) := d.withCode status rest
  let d := d.requestDone mid c
  let p := partner c
  let words := setBitsOf (msg.getD 0 0) 7 0 status :: rest
  let d := (words.zip (List.range 64)).foldl (fun d x => d.setRaw R.MBX_DATA [p, x.2] x.1) d
  d.mbxSend mid p (min 64 words.length)

/-- The answer of a service to a request: a status and the dwords after dword 0. -/
abbrev Answer := Nat × List Nat

/-- The service of a request runs: its core executes firmware, and the safe state has not stopped it (R381, R408). -/
def Dev.serviceRuns (d : Dev) (svc : Nat) : Bool :=
  if svc = 1 then d.linkService
  else d.coreRuns (serviceCore svc) && !(d.safe && (svc == 2 || svc == 3 || svc == 4))

/-- A request waits in channel c, and its receiver is a service core that runs. -/
def Dev.requestWaits (d : Dev) (c : Nat) : Bool :=
  let mid := d.receiver c
  d.on F.MBX_STAT_FULL [c] && d.bindEn c && !d.mbxHeld c && 0x40 ≤ mid && mid ≤ 0x47 && d.coreRuns (mid - 0x40)

/-- The request of channel c that a service core can answer now, with the core's MID: the partner channel is free for the reply. One
that was taken earlier comes before one that waits in the channel (R373). -/
def Dev.requestIn (d : Dev) (c : Nat) : Option (Nat × List Nat) :=
  if d.on F.MBX_STAT_FULL [partner c] then none
  else match d.takenAt c with
    | some x => if d.coreRuns (x.1 - 0x40) then some x else none
    | none => if d.requestWaits c then some (d.receiver c, d.message c) else none

/-- While its own message waits for an ACK, a core takes the request that comes meanwhile and queues it (R373; DEDUCED, log 313). -/
def Dev.takeRequest (d : Dev) (c : Nat) : Dev :=
  if d.requestWaits c && d.on F.MBX_STAT_FULL [partner c] then
    let d := { d with svc := { d.svc with taken := d.svc.taken ++ [(d.receiver c, c, d.message c)] } }
    d.mbxAck (d.receiver c) c (d.rd F.MBX_STAT_SEQ [c])
  else d

/-- A request on channel c comes from none of PF0, the BMC and JTAG's pairs (R381). -/
def wrongChannel (c : Nat) : Bool := c != 0 && c != 16 && c != 18

/-- A request for operation `op` of service `svc` in channel c, which `f` carries out and answers; `op` none: any operation
that the spec does not number. A request on a wrong channel, for an unknown service, for a service that does not run, or for an
unknown operation is answered with its status, in this order (DESIGN CHOICE, log 292); a request for something else waits for its
own command. A request that cannot be answered yet is taken and queued. -/
def Dev.serve (d : Dev) (c svc : Nat) (op : Option Nat) (f : Dev → List Nat → Dev × Answer) : Dev :=
  match d.requestIn c with
  | none => d.takeRequest c
  | some (mid, msg) =>
    let sv := bitsOf (msg.getD 0 0) 31 24
    let o := bitsOf (msg.getD 0 0) 23 16
    if wrongChannel c || 8 < sv then d.reply mid c msg svcBadService []
    else if sv ≠ svc then d
    else if !d.serviceRuns svc then d.reply mid c msg svcNotRunning []
    else if !opKnown svc o then d.reply mid c msg svcBadOp []
    else if (match op with
        | some x => o != x
        | none => svc == 0 && o == 0x10) then d
    else
      let (d, st, rest) := f d msg
      d.reply mid c msg st rest

/-- SYSTEM_PING. While the boot has failed the ROM's responder answers with SVC_BOOT, and nothing else (R388). -/
def execSystemPing (c : Fin 64) (s : State) : Host.Outcome State Fault Refusal :=
  s.run (fun d =>
    let ch := c.val
    if d.rd F.SVC_BOOT_STATE [] = 5 && d.on F.MBX_STAT_FULL [ch] && d.bindEn ch && !d.mbxHeld ch && d.receiver ch == 0x40 &&
        !d.on F.MBX_STAT_FULL [partner ch] && bitsOf ((d.message ch).getD 0 0) 31 24 == 0 &&
        bitsOf ((d.message ch).getD 0 0) 23 16 != 0x10 then
      d.reply 0x40 ch (d.message ch) svcOk [d.raw R.SVC_BOOT []]
    else d.serve ch 0 none (fun d _ => (d, svcOk, [])))

/-- SYSTEM_VERSION: the reply's dword 1 is the version of the running image. -/
def execSystemVersion (c : Fin 64) (s : State) : Host.Outcome State Fault Refusal :=
  s.run (fun d => d.serve c.val 0 none (fun d _ => (d, svcOk, [d.rd F.SVC_FW_VER_VERSION []])))

/-- ROLLBACK_COMMIT: PF0 and the BMC alone; the index rises to the running image's (R390). -/
def execRollbackCommit (c : Fin 64) (s : State) : Host.Outcome State Fault Refusal :=
  s.run (fun d => d.serve c.val 0 (some 0x10) (fun d _ =>
    if d.sender c.val ≠ 0 && d.sender c.val ≠ 0x51 then (d, svcNotPermitted, [])
    else if d.on F.ANL_SAG_INHIBIT [] then (d, svcBusy, [])
    else ({ d with otp := { d.otp with rollback := max d.otp.rollback (min 64 d.svc.imageRollback) } }, svcOk, [])))

/-- An IPFIX configuration lies within its ranges (R385). -/
def ipfixOk (msg : List Nat) : Bool :=
  let b := msgByte msg
  let interval := msg.getD 2 0 % 65536
  let coll := b 16
  let ranges := b 17
  38 ≤ msg.length && 1 ≤ interval && interval ≤ 3600 && coll ≤ 4 && ranges ≤ 4 && b 18 ≤ 3 &&
    (List.range 4).all (fun i => (i < coll || (List.range 20).all (fun j => b (20 + 20 * i + j) == 0)) &&
      (if i < ranges then msg.getD (25 + 2 * i) 0 + msg.getD (26 + 2 * i) 0 ≤ 1048576
       else msg.getD (25 + 2 * i) 0 == 0 && msg.getD (26 + 2 * i) 0 == 0))

/-- SET_CONFIG: the IPFIX service takes a configuration and restarts its template sequence. -/
def execSetConfig (c : Fin 64) (s : State) : Host.Outcome State Fault Refusal :=
  s.run (fun d => d.serve c.val 3 (some 1) (fun d msg =>
    if !ipfixOk msg then (d, svcBadArg, [])
    else
      let d := d.ipfixIdle
      ({ d with svc := { d.svc with ipfix := msg.take 38, templateSeq := 0 } }.sendTemplates, svcOk, [])))

/-- A request about the memory device of the port in byte 4: a command goes to its mailbox, with `args`, and what it answers is the
reply, up to n dwords; or a failure. -/
def Dev.askMemory (d : Dev) (msg : List Nat) (op : Nat) (args : List Nat) (n : Nat) (data : Option (List (BitVec 32))) : Dev × Answer :=
  let k := msgByte msg 4
  if 3 < k || msg.length < 2 then (d, svcBadArg, [])
  else
    let d := d.emit (.memMailbox k op (args.map (fun a => BitVec.ofNat 8 a)))
    match data with
    | some l => (d, svcOk, (l.take n).map (fun x => x.toNat))
    | none => (d, svcFailed, [])

/-- HEALTH: the health of a memory device, as it answers. -/
def execHealth (c : Fin 64) (data : Option (List (BitVec 32))) (s : State) : Host.Outcome State Fault Refusal :=
  s.run (fun d => d.serve c.val 7 (some 1) (fun d msg => d.askMemory msg 1 [] 63 data))

/-- EVENT_LOG: up to 240 bytes of a memory device's log of the type in byte 5. -/
def execEventLog (c : Fin 64) (data : Option (List (BitVec 32))) (s : State) : Host.Outcome State Fault Refusal :=
  s.run (fun d => d.serve c.val 7 (some 2) (fun d msg => d.askMemory msg 2 [msgByte msg 5] 60 data))

/-- The lines of 64 bytes of ARCHIVE that hold `n` bytes at an offset are read, on the port of each (R317). -/
def Dev.archiveLines (d : Dev) (off n : Nat) : Dev :=
  (List.range (ceilDiv (off + n) 64 - off / 64)).foldl (fun d i => d.pmc (108 + d.regionPort 2 (64 * (off / 64 + i))) 0x58 1) d

/-- The firmware on core `core` reads bytes at an offset of ARCHIVE: beyond the region, in an unusable part, or with poison it takes a
bus error. Poison, in the line with the last of the bytes, is recorded by the port and raises a UC fault in the Sump's collector
(R178, R378, R394). The Bool says that the bytes came. -/
def Dev.readArchive (d : Dev) (core off : Nat) (bytes : List Byte) (poison : Bool) : Dev × Bool :=
  if !d.regionReach 2 off bytes.length then (d.emit (.busError core), false)
  else
    let k := d.regionPort 2 (off + bytes.length - 1)
    let d := (d.charge none 4 bytes.length).archiveLines off bytes.length
    if poison then (((d.cxlPoison k 1).raise 45 0x45 (k * 2 ^ 30)).emit (.busError core), false)
    else (d, true)

/-- FW_UPDATE: BUSY while the port's part holds a SPILL extent in use, and in the safe state. What has been staged in ARCHIVE, at
offset `off`, goes to the memory device through its mailbox (R386). -/
def execFwUpdate (c : Fin 64) (off : BitVec 39) (bytes : List Byte) (poison ok : Bool) (s : State) :
    Host.Outcome State Fault Refusal :=
  s.run (fun d => d.serve c.val 7 (some 3) (fun d msg =>
    let k := msgByte msg 4
    if 3 < k || msg.length < 2 then (d, svcBadArg, [])
    else if d.safe || d.ownedExtents.any (fun e => d.extentPort e == k) then (d, svcBusy, [])
    else
      let (d, came) := d.readArchive 0 off.toNat bytes poison
      if !came then (d, svcFailed, [])
      else (d.emit (.memMailbox k 3 bytes), if ok then svcOk else svcFailed, [])))

/-- FLASH_WRITE: a firmware image's bytes go to the SPI NOR flash; BUSY during a sag and in the safe state. The region below
0x0010_0000 is the board's and never written by the device (R450): an address there is out of range. -/
def execFlashWrite (c : Fin 64) (addr : BitVec 25) (bytes : List Byte) (ok : Bool) (s : State) :
    Host.Outcome State Fault Refusal :=
  s.run (fun d => d.serve c.val 8 none (fun d _ =>
    if d.on F.ANL_SAG_INHIBIT [] || d.safe then (d, svcBusy, [])
    else if addr.toNat < 0x00100000 then (d, svcBadArg, [])
    else (d.emit (.flash addr.toNat bytes), if ok then svcOk else svcFailed, [])))

/-! ## The fault log (R403, R404) -/

/-- Records that the flash log holds at most. -/
def logSize : Nat := 65024

/-- The flash address of the sector of record place n: 512 sectors of 4 KiB, of 127 records each, used as a ring. -/
def logSector (n : Nat) : Nat := 0x01100000 + n / 127 % 512 * 4096

/-- The sector of record place n is begun: the oldest one is erased when all are full, and its 32-byte header is written; it holds
the boot count (R402) in a layout that the spec does not give. -/
def Dev.openSector (d : Dev) (n : Nat) : Dev :=
  let d := if logSize ≤ d.spl.flashLog.length then d.emit (.flash (logSector n) []) else d
  { d with spl := { d.spl with bootLogged := d.spl.bootCount } }.emit
    (.flash (logSector n) (leBytes 32 (Config.sectorHeader d.spl.bootCount n).toNat))

/-- The oldest waiting record is written to the flash log; it leaves the buffer when it has been read back and found right. A bad copy
stays in its place of the flash, with a bad CRC, and the next place is tried (log 327). A new sector takes the place of the oldest
one when all are full. -/
def Dev.flushRecord (d : Dev) (good : Bool) : Dev :=
  match d.spl.records with
  | [] => d
  | r :: t =>
    let n := d.spl.flashAt
    let d := if n % 127 = 0 then d.openSector n else d
    let d := d.emit (.flash (logSector n + 32 + n % 127 * 32) r.bytes)
    let log := if n % 127 = 0 && logSize ≤ d.spl.flashLog.length then d.spl.flashLog.drop 127 else d.spl.flashLog
    if good then
      ({ d with spl := { d.spl with records := t, flashLog := log ++ [r], flashAt := n + 1 } }.wr F.SPL_REC_FILL_COUNT [] t.length)
    else { d with spl := { d.spl with flashLog := log ++ [{ r with bad := true }], flashAt := n + 1 } }

/-- The records of the flash log as it is read: one with a bad CRC is skipped (R403). -/
def Dev.logRecords (d : Dev) : List FaultRec := d.spl.flashLog.filter (fun r => r.intact)

/-- FAULTLOG may write: S7 runs, and no sag. -/
def Dev.mayFlush (d : Dev) : Bool := d.coreRuns 7 && !d.on F.ANL_SAG_INHIBIT []

/-- FAULTLOG_FLUSH: one record moves. -/
def execFaultlogFlush (readBackGood : Bool) (s : State) : Host.Outcome State Fault Refusal :=
  s.run (fun d => if d.mayFlush then d.flushRecord readBackGood else d)

/-- FAULTLOG_READ: up to seven records from a sequence number on. -/
def execFaultlogRead (c : Fin 64) (s : State) : Host.Outcome State Fault Refusal :=
  s.run (fun d => d.serve c.val 6 (some 1) (fun d msg =>
    if msg.length < 2 then (d, svcBadArg, [])
    else
      let l := (d.logRecords.filter (fun r => msg.getD 1 0 ≤ r.seq)).take 7
      (d, svcOk, l.flatMap (fun r => (List.range 8).map (fun i => leVal (sliceOf r.bytes (4 * i) 4))))))

/-- FAULTLOG_STATUS. With nothing in flash the spec states no oldest and newest number. -/
def execFaultlogStatus (c : Fin 64) (s : State) : Host.Outcome State Fault Refusal :=
  s.run (fun d => d.serve c.val 6 (some 2) (fun d _ =>
    let w := d.spl.records.length
    match d.logRecords with
    | [] =>
      let (v, d) := d.free
      (d, svcOk, [bitsOf v.toNat 31 0, bitsOf v.toNat 63 32, w])
    | r :: t => (d, svcOk, [r.seq, (t.getLastD r).seq, w])))

/-- FAULTLOG_ERASE: PF0 and the BMC alone; BUSY during a sag. Each of the 512 sectors is erased. -/
def execFaultlogErase (c : Fin 64) (s : State) : Host.Outcome State Fault Refusal :=
  s.run (fun d => d.serve c.val 6 (some 3) (fun d _ =>
    if d.sender c.val ≠ 0 && d.sender c.val ≠ 0x51 then (d, svcNotPermitted, [])
    else if d.on F.ANL_SAG_INHIBIT [] then (d, svcBusy, [])
    else
      let d := (List.range 512).foldl (fun d i => d.emit (.flash (0x01100000 + i * 4096) [])) d
      ({ d with spl := { d.spl with flashLog := [], flashAt := 0 } }, svcOk, [])))

/-! ## Cores (R379, R382) -/

/-- Masters whose writes the SVC_ registers accept: PF0, S0, JTAG. -/
def svcWriter (m : Master) : Bool := m == .pf0 || m == .svc 0 || m == .jtag

/-- Core `k` restarts at the firmware entry: what it was doing is lost, and a core that runs bring-up hands it over while it is in
reset (R382; DEDUCED, log 317). -/
def Dev.restartCore (d : Dev) (k : Nat) : Dev :=
  let d := if k = 4 then d.ipfixIdle else d
  { d with svc := { d.svc with
    restarts := Sparse.set 0 d.svc.restarts k (Sparse.get 0 d.svc.restarts k + 1)
    taken := d.svc.taken.filter (fun x => x.1 != 0x40 + k)
    handover := d.svc.handover || d.svc.linkCores.contains k } }

/-- SVC_CTL[k] is written: HALT, ignored on S0, and RESET, which restarts the core. -/
def Dev.svcCtl (d : Dev) (k v : Nat) : Dev :=
  let d := if k = 0 then d else d.wr F.SVC_CTL_HALT [k] (bitsOf v 1 1)
  (if bitAt v 0 then d.restartCore k else d).checkHandover

/-- SVC_HALT: a write of SVC_CTL[k] with RESET = 0. -/
def execSvcHalt (m : Master) (k : Fin 8) (halt : Bool) (s : State) : Host.Outcome State Fault Refusal :=
  s.run (fun d =>
    if svcWriter m then d.access m (R.SVC_CTL.bar0At k.val) (b2n halt * 2) (fun d => d.svcCtl k.val (b2n halt * 2)) else d)

/-- SVC_RESET: a write of SVC_CTL[k] with RESET = 1, HALT as it stands. -/
def execSvcReset (m : Master) (k : Fin 8) (s : State) : Host.Outcome State Fault Refusal :=
  s.run (fun d =>
    let v := b2n (d.on F.SVC_CTL_HALT [k.val]) * 2 + 1
    if svcWriter m then d.access m (R.SVC_CTL.bar0At k.val) v (fun d => d.svcCtl k.val v) else d)

/-! ## The cores' memories (R378, R379) -/

/-- Bytes as a memory holds them from address `at_` on: a byte that is 0 is not listed. -/
def ramOf (at_ : Nat) (b : List Byte) : Sparse Nat :=
  (b.zipIdx.filter (fun x => x.1 != 0)).map (fun x => (at_ + x.2, x.1.toNat))

/-- S0 has loaded the firmware of pair p into the local memories of its two cores: which part of the firmware memory it takes the
spec does not say, so the place is free (log 300). -/
def Dev.reloadPair (d : Dev) (p : Nat) : Dev :=
  let (v, d) := d.free
  let base := v.toNat % 2 ^ 23
  let part := d.svc.fwMem.filter (fun e => base ≤ e.1 && e.1 < base + 2 ^ 18)
  let put := fun (m : Sparse Nat) (k : Nat) => part.foldl (fun m e => Sparse.set 0 m (k * 2 ^ 18 + (e.1 - base)) e.2) m
  { d with svc := { d.svc with
    localMem := put (put d.svc.localMem (2 * p)) (2 * p + 1)
    unloaded := d.svc.unloaded.filter (fun n => n != 182 + p) } }

/-- Every pair that is on and has no firmware is loaded, and its cores released. -/
def Dev.reloadPairs (d : Dev) : Dev :=
  let l := (List.range 4).filter (fun p => d.svc.unloaded.contains (182 + p) && d.domOn (182 + p))
  l.foldl (fun d p => d.reloadPair p) d

/-- S0 loads the pairs that have come up as time passes. -/
def Dev.reloadTick (d : Dev) : Dev :=
  if d.svc.unloaded.isEmpty || !d.coreRuns 0 then d else d.reloadPairs.checkHandover

/-! ## Boot (R387, R388, R414) -/

/-- The calibration record's value of a coefficient, by its index there: the reset value where the record names no other. -/
def Dev.trimmed (d : Dev) (i : Nat) : Nat :=
  match d.otp.trimOf i with
  | some x => x
  | none => if i < 16 then bitsOf (R.ANL_COEF.resetWord [i]).toNat 23 0 else bitsOf (R.ANL_STATIC.resetWord [i - 16]).toNat 23 0

/-- Firmware stages every coefficient's trimmed value, over what software has written, and commits the block's staged values (R264,
R8). A GO that BUSY would discard is written when BUSY has cleared (log 326). -/
def Dev.loadTrim (d : Dev) : Dev :=
  let d := ((List.range 40).map (fun i => (i, d.trimmed i))).foldl (fun d x =>
    if x.1 < 16 then d.wr F.ANL_COEF_VALUE [x.1] x.2 else d.wr F.ANL_STATIC_VALUE [x.1 - 16] x.2) d
  if d.on F.ANL_CFG_COMMIT_BUSY [] then { d with svc := { d.svc with trimGo := true } } else d.commitGo R.ANL_CFG.win

/-- The field of n bytes at byte i of a slot's header. -/
def slotField (s : BootSlot) (i n : Nat) : Nat := leVal (sliceOf s.header i n)

/-- The slot's MAGIC is valid (R387). -/
def slotMagic (s : BootSlot) : Bool := slotField s 0 4 == 0x41535031

/-- What the header of slot n says (R387). The ROM checks no header version (log 301). -/
def slotCand (s : BootSlot) (n : Nat) : BootCand :=
  { slot := n, version := slotField s 8 4, rollback := slotField s 12 4, length := slotField s 16 4, entry := slotField s 20 4
    key := sliceOf s.header 128 97, sig := sliceOf s.header 232 96, signed := sliceOf s.header 0 232 }

/-- Where slot n, A or B, begins in the flash: 8 MiB each (R387). -/
def slotAt (n : Nat) : Nat := 0x00100000 + n * 0x00800000

/-- The SHA-384 of a slot's key as the twelve dwords of the key hash in OTP (R388, step 2; R389). -/
def BootCand.keyHash (x : BootCand) : List Nat :=
  let h := sha384 x.key
  (List.range 12).map (fun i => leVal (sliceOf h (4 * i) 4))

/-- Slots with a valid MAGIC, the highest version first; at equal versions slot A (step 1). -/
def bootOrder (a b : BootSlot) : List BootCand :=
  let x := if slotMagic a then [slotCand a 0] else []
  let y := if slotMagic b then [slotCand b 1] else []
  if slotField a 8 4 < slotField b 8 4 then y ++ x else x ++ y

/-- The ERR code with which a slot fails steps 2 and 3, or none. -/
def Dev.slotError (d : Dev) (x : BootCand) : Option Nat :=
  if x.keyHash ≠ d.otp.keyNow then some 2
  else if x.rollback < d.otp.index then some 4
  else none

/-- The ROM's state changes. -/
def Dev.bootState (d : Dev) (st : Nat) : Dev := d.wr F.SVC_BOOT_STATE [] st

/-- The image of a slot starts on S0, and the other pairs are loaded and released (step 5). -/
def Dev.bootRun (d : Dev) (x : BootCand) : Dev :=
  let d := (d.bootState 3).wr F.SVC_BOOT_SLOT [] x.slot
  let d := d.wr F.SVC_FW_VER_VERSION [] x.version
  let d := { d with
    svc := { d.svc with imageRollback := x.rollback, entry := x.entry, bootLeft := [] }
    spl := { d.spl with bootCount := d.spl.bootCount + 1 } }
  let d := d.loadTrim.reloadPairs
  { d with svc := { d.svc with linkCores := d.linkCoresNow, handover := false } }

/-- The boot has failed with a code. -/
def Dev.bootFailed (d : Dev) (err : Nat) : Dev :=
  let d := { d with svc := { d.svc with bootLeft := [] } }
  ((d.bootState 5).wr F.SVC_BOOT_ERR [] err).raise 56 0x41 0

/-- Steps 2 and 3 over the slots that are left: the first that passes is loaded next, STATE reads loading; with none left the boot
fails with the last code. -/
def Dev.bootTry (d : Dev) (err : Nat) : List BootCand → Dev
  | [] => d.bootFailed err
  | x :: t => match d.slotError x with
    | none => { d.bootState 1 with svc := { (d.bootState 1).svc with bootLeft := x :: t } }
    | some e => d.bootTry e t

/-- Step 4's load of the image that follows the header: STATE reads verifying next, or the ROM goes to the other slot. -/
def Dev.bootLoad (d : Dev) (x : BootCand) (t : List BootCand) (i : FlashImage) : Dev :=
  if x.length = 0 ∨ 8388096 < x.length then d.bootTry 6 t
  else
    let d := d.emit (.flashRead (slotAt x.slot + 512) x.length)
    match i with
    | .readError => d.bootTry 5 t
    | .bytes b =>
      let d := d.bootState 2
      { d with svc := { d.svc with fwMem := ramOf 0 (b.take x.length) } }

/-- The bytes of firmware memory below address n. -/
def Dev.fwBytes (d : Dev) (n : Nat) : List Byte := (List.range n).map (fun i => BitVec.ofNat 8 (Sparse.get 0 d.svc.fwMem i))

/-- The signature verifies over header bytes 0 to 231 followed by the image (R387). -/
def BootCand.verifies (x : BootCand) (image : List Byte) : Bool := ecdsaVerify x.key x.sig (x.signed ++ image)

/-- Step 4's verification of the image in firmware memory. -/
def Dev.bootVerify (d : Dev) (x : BootCand) (t : List BootCand) : Dev :=
  if x.verifies (d.fwBytes x.length) then d.bootRun x else d.bootTry 3 t

/-- Step 1: both headers are read and the slots with a valid MAGIC ordered; a blank key hash leads to the provisioning state
(R389), else steps 2 and 3. -/
def Dev.bootHeaders (d : Dev) (a b : BootSlot) : Dev :=
  let d := (d.emit (.flashRead (slotAt 0) 512)).emit (.flashRead (slotAt 1) 512)
  match bootOrder a b with
  | [] => d.bootFailed 1
  | l => if d.otp.key.isEmpty then d.bootState 4 else d.bootTry 1 l

/-- BOOT_ROM: the ROM takes its next step on S0, from the state after reset or once the key has been programmed: steps 1 to 3, the
load of the slot chosen, its verification and start. `a`, `b`: what it reads in the flash's slots. -/
def execBootRom (a b : BootSlot) (s : State) : Host.Outcome State Fault Refusal :=
  s.run (fun d =>
    let image := fun (x : BootCand) => if x.slot = 0 then a.image else b.image
    if d.on F.RST_STAT_BOOT_HOLD [] || !d.domOn 182 then d
    else match d.rd F.SVC_BOOT_STATE [], d.svc.bootLeft with
      | 0, _ => d.bootHeaders a b
      | 1, x :: t => d.bootLoad x t (image x)
      | 2, x :: t => d.bootVerify x t
      | _, _ => d)

/-- BOOT_GO: the boot hold ends. -/
def execBootGo (m : Master) (s : State) : Host.Outcome State Fault Refusal :=
  s.run (fun d =>
    if m == .pf0 || m == .jtag || m == .bmc then d.access m R.RST_BOOT_GO.bar0 1 (fun d => d.wr F.RST_STAT_BOOT_HOLD [] 0) else d)

/-! ## Requests that no command carries out (R381 to R383) -/

/-- A request in channel c for LINK, PTP, GATHER or ANNEALER is answered as time passes, and so is one on a wrong channel or for an
unknown service. ANNEALER reloads the trimmed coefficients (R264); the other three have no operation in the spec, so any is
unknown to them (log 292). -/
def Dev.serveOne (d : Dev) (c : Nat) : Dev :=
  match d.requestIn c with
  | none => d.takeRequest c
  | some (mid, msg) =>
    let sv := bitsOf (msg.getD 0 0) 31 24
    if wrongChannel c || 8 < sv then d.reply mid c msg svcBadService []
    else if sv = 1 || sv = 2 || sv = 4 || sv = 5 then
      if !d.serviceRuns sv then d.reply mid c msg svcNotRunning []
      else if sv = 5 then d.loadTrim.reply mid c msg svcOk []
      else d.reply mid c msg svcBadOp []
    else d

/-- The channels are looked at as time passes. -/
def Dev.serveTick (d : Dev) : Dev := if d.coreRuns 0 then (List.range 64).foldl (fun d c => d.serveOne c) d else d

/-! ## One-time programming (R389) -/

/-- A write of SVC_OTP_CTL with PROGRAM = 1 by PF0 or JTAG in the provisioning state; during a sag it waits with BUSY = 1 (R289,
R384; log 291). -/
def Dev.otpProgram (d : Dev) (m : Master) : Dev :=
  if (m == .pf0 || m == .jtag) && d.rd F.SVC_BOOT_STATE [] == 4 && !d.otp.locked && !d.on F.SVC_OTP_CTL_BUSY [] then
    { d.wr F.SVC_OTP_CTL_BUSY [] 1 with svc := { d.svc with otpWait := d.on F.ANL_SAG_INHIBIT [] } }
  else d

/-- OTP_PROGRAM. -/
def execOtpProgram (m : Master) (s : State) : Host.Outcome State Fault Refusal :=
  s.run (fun d => d.access m R.SVC_OTP_CTL.bar0 1 (fun d => d.otpProgram m))

/-- OTP_PROGRAM_DONE: the key field is programmed and locked, and the ROM goes on. -/
def execOtpProgramDone (s : State) : Host.Outcome State Fault Refusal :=
  s.run (fun d =>
    if d.on F.SVC_OTP_CTL_BUSY [] && !d.svc.otpWait && !d.otp.locked then
      let key := (List.range 12).map (fun i => d.rd F.SVC_OTP_KEY_HASH [i])
      let d := (d.wr F.SVC_OTP_CTL_BUSY [] 0).wr F.SVC_BOOT_STATE [] 0
      { d with otp := { d.otp with key := key, locked := true } }
    else d)

/-- A programming pulse in progress ends: what the words then hold the spec does not state (R288, R417). -/
def Dev.otpAbort (d : Dev) : Dev :=
  if d.on F.SVC_OTP_CTL_BUSY [] && !d.svc.otpWait then
    let d := (d.wr F.SVC_OTP_CTL_BUSY [] 0).wr F.ANL_SAG_OTP_ABORT [] 1
    let (ks, d) := (List.range 12).foldl (fun (x : List Nat × Dev) _ =>
      let (v, d) := x.2.free
      (x.1 ++ [bitsOf v.toNat 31 0], d)) ([], d)
    { d with otp := { d.otp with key := if d.otp.locked then d.otp.key else ks } }
  else d

/-! ## Supply sag (R288, R289) -/

/-- SAG_ENTER: a supply of the always-on logic has been low for 1 µs. `flashBusy`: the flash has an operation begun. -/
def execSagEnter (ioLow aonLow flashBusy : Bool) (s : State) : Host.Outcome State Fault Refusal :=
  s.run (fun d =>
    if !ioLow && !aonLow then d
    else
      let was := d.on F.ANL_SAG_INHIBIT []
      let d := (d.wr F.ANL_SAG_INHIBIT [] 1).wr F.ANL_SAG_SEEN [] 1
      let d := (d.wr F.ANL_SAG_IO_LOW [] (b2n ioLow)).wr F.ANL_SAG_AON_LOW [] (b2n aonLow)
      let d := if flashBusy then d.wr F.ANL_SAG_FLASH_UNCERTAIN [] 1 else d
      if was then d else (d.otpAbort.raise 53 0x4A 0).powerEvent 14)

/-- SAG_RELEASE: both supplies have held their release levels for 10 ms; records that waited go to flash in order, and a
waiting OTP request begins. -/
def execSagRelease (s : State) : Host.Outcome State Fault Refusal :=
  s.run (fun d =>
    if !d.on F.ANL_SAG_INHIBIT [] then d
    else
      let d := ((d.wr F.ANL_SAG_INHIBIT [] 0).wr F.ANL_SAG_IO_LOW [] 0).wr F.ANL_SAG_AON_LOW [] 0
      let d := { d with svc := { d.svc with otpWait := false } }.powerEvent 15
      if d.coreRuns 7 then d.spl.records.foldl (fun d _ => d.flushRecord true) d else d)

end Sys2Proof.Machine
end

