-- ==== Sys2Proof/Machine/Power.lean ====
section
/-!
DEFINITION. Power domains (spec/01_parts_and_paths.md R35 to R41), the power-up sequence of a reset (R419), and the
die-to-die transfers (R392).
-/

namespace Sys2Proof.Machine

/-! ## Requests (R37 to R39) -/

/-- Domain `n` is requested on: its GLB_PD_REQ bit. -/
def Dev.domReq (d : Dev) (n : Nat) : Bool := bitAt (d.rd F.GLB_PD_REQ_ON [n / 32]) (n % 32)

def Dev.setReq (d : Dev) (n : Nat) (b : Bool) : Dev :=
  d.wr F.GLB_PD_REQ_ON [n / 32] (putBit (d.rd F.GLB_PD_REQ_ON [n / 32]) (n % 32) b)

def Dev.setOn (d : Dev) (n : Nat) (b : Bool) : Dev :=
  d.wr F.GLB_PD_ON_ON [n / 32] (putBit (d.rd F.GLB_PD_ON_ON [n / 32]) (n % 32) b)

/-- Every VOQ with ingress IPp or an egress port in Cp is empty, and every internal queue of IPp (R38). -/
def Dev.pairEmpty (d : Dev) (p : Nat) : Bool :=
  d.dp.copies.all (fun c => c.released ||
    (if isVoq c.queue then voqPipe c.queue != p && voqPort c.queue / 32 != p else intPipe c.queue != p))

/-- Domain `n` may be switched off on a request by `m` (R38). -/
def Dev.offOk (d : Dev) (m : Master) (n : Nat) : Bool :=
  if n < 128 then (List.range 8).all (fun i => !d.on F.LANE_CTL_EN [8 * n + i])
  else if n < 160 then (List.range 4).all (fun i => !d.domOn (4 * (n - 128) + i)) && d.pairEmpty (n - 128)
  else if n < 168 then true
  else if n < 172 then (List.range 3).all (fun r => d.partSize (n - 168) r == 0)
  else if n < 180 then d.ctxUsed (n - 172) == 0 && d.gth.dir.all (fun e => !bitAt e.2.engines (n - 172))
  else if n = 180 then m != .pf0
  else if n = 181 then (List.range 4).all (fun i => !d.on F.AUX_PORT_CTL_EN [i])
  else if n < 186 then n != 182 && d.on F.SVC_CTL_HALT [2 * (n - 182)] && d.on F.SVC_CTL_HALT [2 * (n - 182) + 1]
  else d.tbl.tcam.all (fun e => e.1 / 12288 != n - 186 || !tcamValid e.2)

/-- Bank group `g` drains or not: it leaves the allocation at once, and comes back at once (R39). -/
def Dev.setDrain (d : Dev) (g : Nat) (b : Bool) : Dev :=
  { d with rst := { d.rst with drain := putBit d.rst.drain g b, drained := d.rst.drained.filter (fun x => x != g) } }

/-- Domain `n` is requested on or off by `m`. A domain that the power-up sequence has not reached is not switched on then. A bank
group that has emptied and powers down stays out of the allocation until it is up again; one that has emptied and waits for its
power-down stays on, like one that has not emptied (DESIGN CHOICE, log 302). -/
def Dev.pdAsk (d : Dev) (m : Master) (n : Nat) (b : Bool) : Dev :=
  let bank := 160 ≤ n && n < 168
  if b then
    let d := d.setReq n true
    if bank && d.rst.pdActive != some (n, false) then d.setDrain (n - 160) false else d
  else if d.rst.seq.contains n then d.setReq n false
  else if d.offOk m n then
    let d := d.setReq n false
    if bank && d.domOn n then d.setDrain (n - 160) true else d
  else d.wr F.GLB_PD_DENY_DENY [n / 32] (putBit (d.rd F.GLB_PD_DENY_DENY [n / 32]) (n % 32) true)

/-! ## Transitions (R40, R419) -/

/-- A transition of domain `n` is pending: what is requested differs from what is; a bank group is switched off only once it
has emptied. -/
def Dev.pdPending (d : Dev) (n : Nat) : Bool :=
  n != 190 && d.domReq n != d.domOn n && (d.domReq n || !(160 ≤ n && n < 168) || d.rst.drained.contains (n - 160))

/-- The sequence of R419 goes on to its next domain that is requested on; at its end PD_DONE rises. -/
def Dev.seqNext (d : Dev) : Dev :=
  match d.rst.seq.dropWhile (fun n => !d.domReq n) with
  | n :: t => { d with rst := { d.rst with seq := t, pdActive := some (n, true) } }
  | [] => { d.wr F.RST_STAT_PD_DONE [] 1 with rst := { d.rst with seq := [], seqOn := false } }

/-- The next transition starts when none is in progress: the sequence's first, then the lowest pending domain. -/
def Dev.pdNext (d : Dev) : Dev :=
  if d.rst.pdActive.isSome then d
  else
    let d := if d.rst.seqOn then d.seqNext else d
    if d.rst.pdActive.isSome then d
    else match (List.range 190).find? (fun n => d.pdPending n) with
      | some n => { d with rst := { d.rst with pdActive := some (n, d.domReq n) } }
      | none => d

/-- GLB_PD_REQ accepts PF0, S0 to S7 and the BMC port (R37). -/
def pdWriter (m : Master) : Bool := isPfSvc m || m == .bmc

/-- A write of GLB_PD_REQ[k]: each bit that changes is a request. Bits 30 and 31 of k = 5 cannot be written. -/
def Dev.pdRequest (d : Dev) (m : Master) (k v : Nat) : Dev :=
  ((List.range (if k = 5 then 30 else 32)).foldl (fun d b =>
    let n := 32 * k + b
    if bitAt v b = d.domReq n then d else d.pdAsk m n (bitAt v b)) d).pdNext

/-- PD_REQUEST. -/
def execPdRequest (m : Master) (k : Fin 6) (v : BitVec 32) (s : State) : Host.Outcome State Fault Refusal :=
  s.run (fun d =>
    if pdWriter m then d.access m (R.GLB_PD_REQ.bar0At k.val) v.toNat (fun d => d.pdRequest m k.val v.toNat) else d)

/-- QRY_GROUP_DRAINED: a bank group requested off holds no allocated cell. -/
def execQryGroupDrained (g : Fin 8) (s : State) : Host.Outcome State Fault Refusal :=
  s.run (fun d =>
    let g := g.val
    if bitAt d.rst.drain g && d.groupHeld g == 0 && !d.rst.drained.contains g then
      { d with rst := { d.rst with drained := d.rst.drained ++ [g] } }.pdNext
    else d)

/-! ## What a domain holds (R35, R41) -/

/-- The instance of the first dimension that a flat index lies in. -/
def Reg.outer (r : Reg) (flat : Nat) : Nat := flat / (r.dims.tail.foldl (fun a x => a * x.count) 1)

/-- The switched domain that a register instance lies in, if any: the LANE_ registers of a macro, the PRS_ and PIPE_ registers
of a pipeline pair, the CXL_ registers of a port, the registers of a Gather engine, the side port's. -/
def Reg.domain (r : Reg) (flat : Nat) : Option Nat :=
  if r.dims.isEmpty && r.win != R.AUX_MODE.win then none
  else if r.win = R.LANE_CTL.win then some (if r.id = R.LANE_MACRO_STAT.id then flat else flat / 8)
  else if r.win = R.AUX_MODE.win then some 181
  else if r.win = R.PRS_CFG.win then some (128 + r.outer flat)
  else if r.win = R.PIPE_CFG.win then
    if r.id = R.PIPE_TCAM_BIND.id ∨ r.id = R.PIPE_MIRROR.id then none else some (128 + r.outer flat % 32)
  else if r.win = R.CXL_CTL.win then some (168 + flat)
  else if r.win = R.GTH_RX.win then
    if R.GTH_ENG_STAT.id ≤ r.id ∧ r.id ≤ R.GTH_SAT.id then some (172 + flat) else none
  else none

/-- The domain of a stored register's key. -/
def keyDomain (k : Nat) : Option Nat :=
  match (regsOfWindow (keyWin k)).find? (fun r => r.id == keyId k) with
  | some r => r.domain (keyFlat k)
  | none => none

/-- A performance counter's key whose unit lies in domain `n` (R316, R322): it reads 0 while the domain is off. -/
def pmcKeyIn (n k : Nat) : Bool :=
  keyWin k == R.PMC_CNT.win && keyId k == R.PMC_CNT.id && pmcDomain (keyFlat k / 8) == some n

/-- What engine k holds goes: its contexts, its token bucket, its answers, the pipeline that it serves next. -/
def Gth.without (g : Gth) (k : Nat) : Gth :=
  { g with
    ctxs := g.ctxs.filter (fun c => c.engine != k)
    tokens := Sparse.put g.tokens k none
    answers := Sparse.put g.answers k none
    next := Sparse.put g.next k none }

/-- The service cores when domain n is switched: pair n's local memory is lost, until S0 reloads it (R378, R379), and with pair 2
(domain 184) goes what the IPFIX service on S4 holds. -/
def Svc.lost (v : Svc) (n : Nat) : Svc :=
  if n < 182 || 186 ≤ n then v
  else
    let v := { v with
      localMem := Sparse.keep v.localMem (fun k => k / 2 ^ 19 != n - 182)
      unloaded := n :: v.unloaded.filter (fun x => x != n)
      taken := v.taken.filter (fun x => (x.1 - 0x40) / 2 != n - 182) }
    if n = 184 then
      { v with ipfix := [], templateSeq := 0, exported := 0, exportDue := false, batch := none, flows := [], queueRecs := []
               neighbours := [], outgoing := [] }
    else v

/-- The frames in the injection entries of the pair of domain n go, and their jobs end: the pair is off (R348). -/
def Dev.dropInjections (d : Dev) (n : Nat) : Dev :=
  let lost := d.dp.inject.filter (fun x => x.port / 32 + 128 == n)
  let d := { d with dp := { d.dp with inject := d.dp.inject.filter (fun x => x.port / 32 + 128 != n) } }
  lost.foldl (fun d x => match x.job with
    | some j => d.finishJob j 6 0 0 0
    | none => d) d

/-- Every register and every memory inside domain `n` at its reset value. A frame in a pipeline pair that powers up goes no
further, and the enumeration of a CXL port ends with its EN (R179). The Quarry allocator and the Cullet block are not switched (R36):
the first bank groups of R147 stay, and so do the gaps to the next tags (DEDUCED, log 323). -/
def Dev.clearDomain (d : Dev) (n : Nat) : Dev :=
  let pair := fun p => 128 ≤ n && n < 160 && p % 32 == n - 128
  let d := (d.dropInjections n).sealedEnd (fun u => d.dp.passes.any (fun x => x.uid == u && pair x.pipe))
  let d := d.keepRegs (fun k => !(keyDomain k == some n || pmcKeyIn n k))
  let gone := fun u => d.dp.passes.any (fun x => pair x.pipe && x.copy.isNone && x.pkt == u) ||
    d.dp.entries.any (fun e => pair (e.port / 32) && e.pkt == u)
  { d with
    phy := { d.phy with
      lanes := d.phy.lanes.filter (fun e => e.1 / 8 != n)
      auxLanes := if n = 181 then [] else d.phy.auxLanes
      auxRx := if n = 181 then [] else d.phy.auxRx
      auxAlign := if n = 181 then {} else d.phy.auxAlign
      auxAn := if n = 181 then ((List.range 4).foldl Dev.auxAnNew d).phy.auxAn else d.phy.auxAn
      auxNextA := if n = 181 then 0 else d.phy.auxNextA }
    dp := { d.dp with
      prs := d.dp.prs.filter (fun e => !pair (e.1 / 1024))
      prog := d.dp.prog.filter (fun e => !pair (e.1 / 131072))
      badPrs := d.dp.badPrs.filter (fun e => !pair (e.1 / 1024))
      badProg := d.dp.badProg.filter (fun e => !pair (e.1 / 131072))
      pkts := d.dp.pkts.map (fun p => if gone p.uid then { p with dropped := true } else p)
      passes := d.dp.passes.filter (fun x => !pair x.pipe)
      entries := d.dp.entries.filter (fun e => !pair (e.port / 32))
      entryTook := d.dp.entryTook.filter (fun e => !pair e.1)
      entryCredit := d.dp.entryCredit.filter (fun e => !pair (if e.1 < 1024 then e.1 / 32 else e.1 - 1024))
      grants := d.dp.grants.filter (fun e => !pair e.1) }
    sump := if 168 ≤ n && n < 172 then { d.sump with enumerating := putBit d.sump.enumerating (n - 168) false } else d.sump
    gth := if 172 ≤ n && n < 180 then d.gth.without (n - 172) else d.gth
    svc := d.svc.lost n
    tbl := { d.tbl with tcam := d.tbl.tcam.filter (fun e => e.1 / 12288 + 186 != n) } }

/-- The PCIe endpoint is switched: its link is down and its configuration space reset. -/
def Dev.clearEndpoint (d : Dev) : Dev :=
  { d.pcieDown with hif := { d.pcieDown.hif with busMaster := 0, msiVectors := [], pcie := [], aer := [] } }

/-- PD_TRANSITION_DONE: the transition in progress completes, and the next one starts. A bank group requested off while it powered
up drains at once (R39); the lanes of a macro are disabled then, and a port that is enabled is held (R55). A CXL port's link goes
down with its domain (R199, R200). -/
def Dev.pdDone (d : Dev) : Dev :=
  match d.rst.pdActive with
  | none => d
  | some (n, up) =>
    let d := { d with rst := { d.rst with pdActive := none } }
    let d := if 168 ≤ n && n < 172 && d.cxlUp (n - 168) then d.cxlDown (n - 168) 0x43 else d
    let d := (d.clearDomain n).setOn n up
    let d := if 160 ≤ n && n < 168 then d.setDrain (n - 160) (up && !d.domReq n) else d
    let d := if n < 128 then (List.range 8).foldl (fun d i => d.laneChanged (8 * n + i)) d else d
    let d := if n = 180 then d.clearEndpoint else d
    let d := if n = 180 && up then d.pcieTrain d.hif.train else d
    let d := if 182 ≤ n && n < 186 then d.checkHandover else d
    d.pdNext

/-- PD_TRANSITION_DONE. -/
def execPdTransitionDone (s : State) : Host.Outcome State Fault Refusal := s.run (fun d => d.pdDone)

/-! ## Die-to-die transfers (R392) -/

/-- D2D_REPLAY: a transfer on a link is replayed; the syndrome counts the replays since cold reset. -/
def execD2dReplay (k : Fin 61) (link : BitVec 8) (s : State) : Host.Outcome State Fault Refusal :=
  s.run (fun d =>
    let key := 256 * k.val + link.toNat
    let n := min (Sparse.get 0 d.spl.d2dReplays key + 1) (2 ^ 24 - 1)
    let d := { d with spl := { d.spl with d2dReplays := Sparse.set 0 d.spl.d2dReplays key n } }
    d.raise k.val 4 (link.toNat * 2 ^ 24 + n))

/-- D2D_FAIL: the 16th replay of one transfer fails. -/
def execD2dFail (k : Fin 61) (link : BitVec 8) (s : State) : Host.Outcome State Fault Refusal :=
  s.run (fun d => d.raise k.val 5 (link.toNat * 2 ^ 24))

end Sys2Proof.Machine
end

