-- ==== Sys2Proof/Machine/Reset.lean ====
section
/-!
DEFINITION. The resets of the device: what starts one, what each level keeps, and its end (spec/14_reset_and_startup.md
R410 to R425); PERST_N; the TAP and the I3C side of the BMC port (spec/15_package_pins_electrical.md R437 to R439).
-/

namespace Sys2Proof.Machine

/-! ## What a reset keeps (R418) -/

/-- A register that a reset of level `l` does not return to reset. A cold reset keeps the straps and what RST_CAUSE and
RST_COUNT are made from; a warm reset also the trim of the timebase, the fatal record, the record buffer's registers and the
package energy. -/
def resetKeeps (l : ResetLevel) (k : Nat) : Bool :=
  let is := fun (r : Reg) => keyWin k == r.win && keyId k == r.id
  is R.GLB_STRAP || is R.RST_CAUSE || is R.RST_COUNT ||
    (l == .warm && (is R.TLM_TIME_TRIM || is R.SPL_FATAL || is R.SPL_FATAL_TIME || is R.SPL_REC_FILL || is R.SPL_REC_SEQ ||
      is R.SPL_REC_LOST || is R.ANL_ENERGY_TOTAL))

/-- ANL_SAG's W1C bits: SEEN, FLASH_UNCERTAIN, OTP_ABORT, kept by a warm reset. -/
def Dev.keepSag (new old : Dev) : Dev :=
  let f := fun (d : Dev) (x : Fld) => d.wr x [] (old.rd x [])
  f (f (f new F.ANL_SAG_SEEN) F.ANL_SAG_FLASH_UNCERTAIN) F.ANL_SAG_OTP_ABORT

/-- The device as a reset of level `l` leaves it (R418, R420): what is not named here is at reset. The boot flash, the one-time
programmable bits and the levels of pins (ANL_STAT.ALERT shows one) are not the reset's. -/
def Dev.resetTo (d : Dev) (l : ResetLevel) : Dev :=
  let warm := l == .warm
  let r := d.keepRegs (fun k => resetKeeps l k)
  let n : Dev := {
    regs := r.regs, ns := if warm then d.ns else 0, frac := if warm then d.frac else 0
    resets := d.resets + 1, freeIdx := d.freeIdx, out := d.out, otp := d.otp
    rst := { level := some l, thermTrip := warm && d.rst.thermTrip, seqOn := false, mono := d.rst.mono, refclk := d.rst.refclk }
    hif := { jobSeq := d.hif.jobSeq, perstLow := d.hif.perstLow, train := d.hif.train }
    spl := { records := if warm then d.spl.records else [], flashLog := d.spl.flashLog, flashAt := d.spl.flashAt
             bootCount := d.spl.bootCount, bootLogged := d.spl.bootLogged
             d2dReplays := if warm then d.spl.d2dReplays else [], deadRec := if warm then d.spl.deadRec else [] }
    bmc := { tapReset := d.bmc.tapReset } }
  let n := n.wr F.ANL_STAT_ALERT [] (d.rd F.ANL_STAT_ALERT [])
  if warm then n.keepSag d else n

/-- A reset begins: its cause is written, it is counted, and the rest is reset. A programming pulse of the OTP ends, and
OTP_ABORT stands after the reset (R417). `aon`: VDD_AON itself failed, which clears RST_COUNT. -/
def Dev.beginReset (d : Dev) (l : ResetLevel) (cause supply mid : Nat) (aon : Bool) : Dev :=
  let pulse := d.on F.SVC_OTP_CTL_BUSY [] && !d.svc.otpWait
  let d := if d.safe then d.emit (.safeN false) else d
  let d := d.otpAbort.resetTo l
  let d := (d.setRaw R.RST_CAUSE [] 0).wr F.RST_CAUSE_CAUSE [] cause
  let d := (d.wr F.RST_CAUSE_SUPPLY [] supply).wr F.RST_CAUSE_MID [] mid
  let d := if aon then d.setRaw R.RST_COUNT [] 0
    else if l = .warm then d.inc F.RST_COUNT_WARM [] else d.inc F.RST_COUNT_COLD []
  if pulse then d.wr F.ANL_SAG_OTP_ABORT [] 1 else d

/-! ## Power-on and cold resets (R410, R412, R415, R417) -/

/-- A power-on trigger, during any reset too. -/
def Dev.powerOn (d : Dev) (cause : PowerOnCause) : Dev :=
  match cause with
  | .vddAon => d.beginReset .powerOn 1 0 0 true
  | .vddIo => d.beginReset .powerOn 1 0 0 false
  | .pwrgd => d.beginReset .powerOn 2 0 0 false
  | .refclkA => d.beginReset .powerOn 3 0 0 false

/-- POWER_ON_RESET. -/
def execPowerOnReset (cause : PowerOnCause) (s : State) : Host.Outcome State Fault Refusal :=
  s.runAny (fun d => d.powerOn cause)

/-- REFCLK_A_LOSS: REFCLK_A is absent or more than 10% off. -/
def execRefclkALoss (s : State) : Host.Outcome State Fault Refusal := s.runAny (fun d => d.powerOn .refclkA)

/-- A cold trigger: a warm reset becomes cold; a cold or power-on reset runs on. -/
def Dev.coldTrigger (d : Dev) (cause supply mid : Nat) : Dev :=
  if d.rst.level = none ∨ d.rst.level = some .warm then d.beginReset .cold cause supply mid false else d

/-- SUPPLY_FAIL: VDD_CORE, VDD_QRY, VDD_LNA or VDD_LNH (0 to 3) is below its threshold. -/
def execSupplyFail (supply : Fin 4) (s : State) : Host.Outcome State Fault Refusal :=
  s.runAny (fun d => d.coldTrigger 4 supply.val 0)

/-! ## Warm resets and RST_CTL (R415, R416) -/

/-- A warm trigger: discarded during a reset, refused while THERMTRIP_N is low. -/
def Dev.warmTrigger (d : Dev) (cause mid : Nat) : Dev :=
  if d.rst.level.isSome then d
  else if d.rst.thermTrip then d.wr F.RST_STAT_WARM_REJ [] 1
  else d.beginReset .warm cause 0 mid false

/-- PF0, S0 to S7, JTAG and the BMC port may write RST_CTL. -/
def rstWriter (m : Master) : Bool := isPfSvc m || m == .jtag || m == .bmc

/-- A write of RST_CTL by `mid`: a wrong KEY sets KEY_REJ; COLD goes before WARM (R417). -/
def Dev.rstCtl (d : Dev) (mid v : Nat) : Dev :=
  if bitsOf v 15 8 ≠ 0x5A then d.wr F.RST_STAT_KEY_REJ [] 1
  else if bitAt v 1 then d.coldTrigger 5 0 mid
  else if bitAt v 0 then d.warmTrigger 7 mid
  else d

/-- COLD: a write of RST_CTL with COLD = 1. A cold trigger acts during a warm reset too, which becomes cold (R417). -/
def execCold (m : Master) (v : BitVec 32) (s : State) : Host.Outcome State Fault Refusal :=
  s.runAny (fun d =>
    if !(rstWriter m && bitAt v.toNat 1) then d
    else if d.rst.level = some .warm then d.rstCtl m.mid v.toNat
    else d.apply (fun d => d.access m R.RST_CTL.bar0 v.toNat (fun d => d.rstCtl m.mid v.toNat)))

/-- WARM: a write of RST_CTL with WARM = 1 and COLD = 0. -/
def execWarm (m : Master) (v : BitVec 32) (s : State) : Host.Outcome State Fault Refusal :=
  s.run (fun d =>
    if rstWriter m && bitAt v.toNat 0 && !bitAt v.toNat 1 then
      d.access m R.RST_CTL.bar0 v.toNat (fun d => d.rstCtl m.mid v.toNat)
    else d)

/-- SYS_RST_N_LOW: the pin has been low for 1 µs. -/
def execSysRstNLow (s : State) : Host.Outcome State Fault Refusal := s.runAny (fun d => d.warmTrigger 6 0)

/-! ## The end of a reset (R413, R417, R419, R420) -/

/-- The domains in the order of the power-up sequence (R419). -/
def seqOrder : List Nat := 182 :: 180 :: (List.range 190).filter (fun n => n != 182 && n != 180)

/-- Every switched domain is off. -/
def Dev.allOff (d : Dev) : Dev :=
  (List.range 6).foldl (fun d k => d.wr F.GLB_PD_ON_ON [k] (if k = 5 then 2 ^ 30 else 0)) d

/-- The straps are held in GLB_STRAP, and the BMC port's static address follows them (R413, R438). -/
def Dev.sample (d : Dev) (smb : Nat) (slow : Bool) (boot : Nat) : Dev :=
  ((d.wr F.GLB_STRAP_SMB_ADDR [] smb).wr F.GLB_STRAP_SPI_SLOW [] (b2n slow)).wr F.GLB_STRAP_BOOT [] boot

/-- A reset ends: on power-on the straps are sampled; every switched domain is off and the sequence of R419 starts; the boot
ROM waits when BOOT = 1 (R414); with PERST_N low the host interface stays in HIF reset (R417). -/
def Dev.release (d : Dev) (smb : Nat) (slow : Bool) (boot : Nat) : Dev :=
  let d := if d.rst.level = some .powerOn then d.sample smb slow boot else d
  let d := d.wr F.PIN_BMC_STATIC_ADDR [] (0x60 + d.rd F.GLB_STRAP_SMB_ADDR [])
  let d := d.wr F.RST_STAT_BOOT_HOLD [] (b2n (d.rd F.GLB_STRAP_BOOT [] == 1))
  let d := { d.allOff with
    rst := { d.rst with level := none, seqOn := true, seq := seqOrder }, hif := { d.hif with perstHold := d.hif.perstLow } }
  let d := if d.hif.perstLow then d.wr F.HIF_STAT_RST_BUSY [] 1 else d
  d.pdNext

/-- RESET_RELEASE. -/
def execResetRelease (smbAddr : Fin 4) (spiSlow : Bool) (boot : Fin 4) (s : State) : Host.Outcome State Fault Refusal :=
  s.runAny (fun d => if d.rst.level.isSome then d.release smbAddr.val spiSlow boot.val else d)

/-- PERST_N rises: the interface leaves the HIF reset that it was held in, and the link trains once domain 180 is on. -/
def Dev.perstRises (d : Dev) (w : Nat) : Dev :=
  let hold := d.hif.perstHold
  let d := { d with hif := { d.hif with perstLow := false, perstHold := false, train := w } }
  d.apply (fun d => (if hold then d.wr F.HIF_STAT_RST_BUSY [] 0 else d).pcieTrain w)

/-- PERST_N_RISE; the operands are what the link trains to. -/
def execPerstNRise (width : Fin 32) (speed : Fin 16) (flit : Bool) (s : State) : Host.Outcome State Fault Refusal :=
  s.runAny (fun d =>
    if d.hif.perstLow then d.perstRises (if linkOk width.val speed.val flit then linkWord width.val speed.val flit else 0) else d)

/-! ## TAP and I3C (R437 to R439) -/

/-- JTAG_TAP_RESET: TRST_N low, or five TCK cycles with TMS high. -/
def execJtagTapReset (s : State) : Host.Outcome State Fault Refusal :=
  s.runAny (fun d => { d with bmc := { d.bmc with tapReset := true } })

/-- I3C_DAA: the controller assigns a dynamic address; the port is an I3C target. -/
def execI3cDaa (addr : BitVec 7) (s : State) : Host.Outcome State Fault Refusal :=
  s.run (fun d => (d.wr F.PIN_BMC_I3C [] 1).wr F.PIN_BMC_DYN_ADDR [] addr.toNat)

/-- RSTDAA: the port has no dynamic address any more. -/
def execRstdaa (s : State) : Host.Outcome State Fault Refusal :=
  s.run (fun d => (d.wr F.PIN_BMC_I3C [] 0).wr F.PIN_BMC_DYN_ADDR [] 0)

/-- ENEC: the controller enables or disables the port's in-band interrupts. -/
def execEnec (enable : Bool) (s : State) : Host.Outcome State Fault Refusal :=
  s.run (fun d => { d with bmc := { d.bmc with ibiEn := enable } })

/-- BMC_TIMEOUT: a transaction that stopped for 35 ms ends; ADDR is unchanged, and a transaction acts only when it is whole. -/
def execBmcTimeout (s : State) : Host.Outcome State Fault Refusal := s.run (fun d => d)

end Sys2Proof.Machine
end

