-- ==== Sys2Proof/Machine/Place.lean ====
section
/-!
DEFINITION. The register map as an address map: the register at a BAR0 offset, what a write does to plain fields, and which
masters may write what (spec/00_scope.md R4 to R16; the writers that the chapters name).
-/

namespace Sys2Proof.Machine

/-! ## Offsets (R10, R15) -/

/-- Where a 32-bit access falls: a register instance, and whether it is the high dword of a 64-bit register. -/
structure Spot where
  reg : Reg
  ix : List Nat
  high : Bool
  deriving DecidableEq, Repr

/-- The indices of an instance at a byte distance from the first instance, and the distance that remains. -/
def decodeDims : List Dim → Nat → Option (List Nat × Nat)
  | [], rel => some ([], rel)
  | x :: t, rel =>
    let i := rel / x.stride
    if i < x.count then (decodeDims t (rel - i * x.stride)).map (fun a => ((x.first + i) :: a.1, a.2)) else none

/-- The instance of `r` that lies at window offset `o`. -/
def Reg.place (r : Reg) (o : Nat) : Option Spot :=
  let base := r.off + r.dims.foldl (fun a x => a + x.first * x.stride) 0
  if o < base then none
  else match decodeDims r.dims (o - base) with
    | some (ix, 0) => some { reg := r, ix := ix, high := false }
    | some (ix, 4) => if r.wide then some { reg := r, ix := ix, high := true } else none
    | _ => none

/-- Instances that a register's indices span but the device does not have: an egress pipeline has 12 stages, so TBL_STAGE_CFG[1][12]
to [1][15] are reserved offsets (R111). -/
def Reg.absent (r : Reg) (ix : List Nat) : Bool :=
  r == R.TBL_STAGE_CFG && (match ix with
    | [1, k] => decide (12 ≤ k)
    | _ => false)

/-- The register at a BAR0 offset; none at a reserved offset or window. -/
def locate (off : Nat) : Option Spot :=
  ((regsOfWindow (off / 1048576)).findSome? (fun r => r.place (off % 1048576))).filter (fun x => !x.reg.absent x.ix)

/-! ## Plain writes (R6) -/

/-- A field's new value when bits [hi:lo] of its register see the write of `v`. -/
def Field.written (f : Field) (old v hi lo : Nat) : Nat :=
  let o := bitsOf old f.hi f.lo
  let s := bitsOf (bitsOf v hi lo * 2 ^ lo) f.hi f.lo
  match f.acc with
  | .rw => bitsOf (setBitsOf old hi lo (bitsOf v hi lo)) f.hi f.lo
  | .rws => bitsOf (setBitsOf old hi lo (bitsOf v hi lo)) f.hi f.lo
  | .rwl => bitsOf (setBitsOf old hi lo (bitsOf v hi lo)) f.hi f.lo
  | .w1c => o - Nat.land o s
  | .w1s => Nat.lor o s
  | .ro => o
  | .rc => o
  | .wo => o

/-- A register's new value. -/
def Reg.written (r : Reg) (old v hi lo : Nat) : Nat :=
  r.fields.foldl (fun a f => setBitsOf a f.hi f.lo (f.written old v hi lo)) 0

/-- A write with no effect beyond the register's own fields. -/
def Dev.plain (d : Dev) (r : Reg) (ix : List Nat) (v hi lo : Nat) : Dev :=
  d.setRaw r ix (r.written (d.raw r ix) v hi lo)

/-! ## Writers (R14) -/

/-- The master of an identity (R2). -/
def masterOf (mid : Nat) : Option Master :=
  if mid = 0 then some .pf0
  else if h : 1 ≤ mid ∧ mid < 32 then some (.vf ⟨mid - 1, by omega⟩)
  else if h : 0x40 ≤ mid ∧ mid < 0x48 then some (.svc ⟨mid - 0x40, by omega⟩)
  else if mid = 0x50 then some .jtag
  else if mid = 0x51 then some .bmc
  else none

/-- SPL_ registers accept PF0, S0 to S7 and JTAG; SPL_CTL also the BMC port. -/
def splWriter (m : Master) : Bool := isPfSvc m || m == .jtag

/-- SVC_OTP_KEY can be written: in the provisioning state, while the key field is not locked (R389). -/
def Dev.keyOpen (d : Dev) : Bool := d.rd F.SVC_BOOT_STATE [] == 4 && !d.otp.locked

/-- Master `m` may write register `r` (R14, and the rule of each chapter that names its writers). The mailboxes have their own
rules (`Dev.mbxWriter`). -/
def Dev.writer (d : Dev) (m : Master) (r : Reg) : Bool :=
  if r.id = R.GLB_PD_REQ.id ∨ r.id = R.GLB_PD_DENY.id then pdWriter m
  else if r.id = R.RST_BOOT_GO.id then m == .pf0 || m == .jtag || m == .bmc
  else if r.win = R.RST_CTL.win then rstWriter m
  else if r.id = R.PIN_BMC.id ∨ r.id = R.ANL_CAP.id then isPfSvc m || m == .bmc
  else if r.id = R.TBL_CMD.id ∨ r.id = R.TBL_CMD_IDX.id ∨ r.id = R.TBL_CMD_DATA.id then d.tblAcc m
  else if r.win = R.PMC_CNT.win then pmcWriter m
  else if r.id = R.HIF_CTL.id then (match m with
    | .svc _ => true
    | .jtag => true
    | .bmc => true
    | _ => false)
  else if r.id = R.SVC_MBX_BIND.id then m == .pf0 || m == .svc 0
  else if r.id = R.SVC_OTP_KEY.id ∨ r.id = R.SVC_OTP_CTL.id then (m == .pf0 || m == .jtag) && d.keyOpen
  else if r.win = R.SVC_CTL.win then svcWriter m
  else if r.id = R.SPL_CTL.id then splWriter m || m == .bmc
  else if r.win = R.SPL_CTL.win then splWriter m
  else isPfSvc m

/-- A write of a mailbox register by `m` is accepted (R367, R368, R371, R375). -/
def Dev.mbxWriter (d : Dev) (m : Master) (r : Reg) (ix : List Nat) (v : Nat) : Bool :=
  let c := ix.headD 0
  let live := d.bindEn c && !d.mbxHeld c
  if r.id = R.MBX_DATA.id then live && d.sender c == m.mid && !d.on F.MBX_STAT_FULL [c]
  else if r.id = R.MBX_SEND.id then
    live && d.sender c == m.mid && !d.on F.MBX_STAT_FULL [c] && 1 ≤ v % 128 && v % 128 ≤ 64
  else if r.id = R.MBX_ACK.id then
    live && d.receiver c == m.mid && d.on F.MBX_STAT_FULL [c] && d.rd F.MBX_STAT_SEQ [c] == v % 65536
  else if r.id = R.MBX_CTL.id then d.mayResetMbx m.mid c
  else if r.id = R.MBX_CFG.id then isPfSvc m
  else if r.id = R.MBX_LOCK.id then
    (bitAt v 1 && ((0x40 ≤ m.mid && m.mid ≤ 0x47) || m == .jtag)) ||
      (bitAt v 0 && d.on F.MBX_LOCK_HELD [c] && d.rd F.MBX_LOCK_OWNER [c] == m.mid)
  else false

/-- An RWL register is locked (R6, R12). -/
def Dev.regLocked (d : Dev) (r : Reg) : Bool :=
  (r.id == R.TBL_ACC.id && d.on F.TBL_ACC_LOCK []) ||
    ((r.id == R.SVC_MBX_BIND.id || r.id == R.SVC_MBX_BIND_LOCK.id) && d.on F.SVC_MBX_BIND_LOCK_LOCK [])

/-- The register lies in a switched domain that is off (R35, R56). -/
def Dev.regOff (d : Dev) (r : Reg) (ix : List Nat) : Bool :=
  match r.domain (flatIndex r.dims ix 0) with
  | some n => !d.domOn n
  | none => false

/-- The register block at a BAR0 offset is still being initialised (R420). -/
def Dev.mustWait (d : Dev) (off : Nat) : Bool := initWindow (off / 1048576) && !d.on F.RST_STAT_INIT_DONE []

/-- A mailbox register during a HIF reset: no master reaches it (R372). -/
def Dev.mbxAway (d : Dev) (off : Nat) : Bool :=
  off / 1048576 == R.MBX_STAT.win && d.on F.HIF_STAT_RST_BUSY []

/-- A register of read-only fields alone: writes are discarded (R6). -/
def Reg.readOnly (r : Reg) : Bool := r.fields.all (fun f => f.acc == .ro || f.acc == .rc)

/-- A write of `v` at a place is neither discarded nor refused (R6, R12, R14, R17, the KEY of R416 and the access rules): PIN_BMC's
STATUS. -/
def Dev.writeOk (d : Dev) (m : Master) (off v : Nat) : Bool :=
  match locate off with
  | none => false
  | some p =>
    !d.mbxAway off && !d.regOff p.reg p.ix && !d.regLocked p.reg && !p.reg.readOnly &&
      !(p.reg.id == R.RST_CTL.id && bitsOf v 15 8 != 0x5A) &&
      (if p.reg.win = R.MBX_STAT.win then d.mbxWriter m p.reg p.ix v else d.writer m p.reg)

end Sys2Proof.Machine
end

