-- ==== Sys2Proof/Machine/View.lean ====
section
/-!
DEFINITION. What registers read: the read-only fields that report the state of a block, and reads with an effect (spec/00_scope.md
R6, R7, R10; each chapter's register tables).
-/

namespace Sys2Proof.Machine

/-- `v` with a field's bits replaced. -/
def shown (v : Nat) (f : Fld) (x : Nat) : Nat := setBitsOf v f.hi f.lo x

/-- PCS_ registers: the port's status, and counters of an absent port, which read 0. -/
def Dev.viewPcs (d : Dev) (r : Reg) (ix : List Nat) : Nat :=
  let p := 32 * ix.headD 0 + ix.getD 1 0
  if r.dims.length < 2 ∨ r.id = R.PCS_PORT_CTL.id ∨ r.id = R.PCS_FEC_DEG.id then d.raw r ix
  else if r.id = R.PCS_PORT_STAT.id then d.portStat p
  else if d.absent p then 0
  else d.raw r ix

/-- LANE_ registers: LANE_TXEQ shows the coefficients in use while OVR = 0 (R65), LANE_STAT.TXEQ_REJ. -/
def Dev.viewLane (d : Dev) (r : Reg) (ix : List Nat) : Nat :=
  let n := ix.headD 0
  let v := d.raw r ix
  if r.id = R.LANE_TXEQ.id then (if d.on F.LANE_TXEQ_OVR [n] then v else setBitsOf v 29 0 (d.lane n).taps)
  else if r.id = R.LANE_STAT.id then shown v F.LANE_STAT_TXEQ_REJ (b2n (d.tapsRejected n))
  else v

/-- PRS_, PIPE_ and TBL_ registers. -/
def Dev.viewPipe (d : Dev) (r : Reg) (ix : List Nat) : Nat :=
  let n := ix.headD 0
  let v := d.raw r ix
  if r.id = R.PRS_STAT.id then shown v F.PRS_STAT_ACTIVE_BANK (d.cm F.PRS_CFG_BANK [n])
  else if r.id = R.PIPE_STAT.id then
    shown (shown v F.PIPE_STAT_ACTIVE_BANK (d.cm F.PIPE_CFG_PROG_BANK [n])) F.PIPE_STAT_LKUP_REJ (d.rejNow n)
  else if r.id = R.PIPE_CHK_EN.id ∧ 32 ≤ n then 0
  else if r.id = R.TBL_EM_USED.id then d.emUsed n
  else if r.id = R.TBL_LPM_USED.id then d.lpmUsed n
  else if r.id = R.TBL_DLOG_USED.id then d.tbl.dlog.length + d.tbl.dlogLpm.length
  else v

/-- The second word of QRY_VOQ_DATA: spilled, a cut-through frame still arriving, frames in the Quarry part (R149, R154). -/
def Dev.voqData1 (d : Dev) (v : Nat) : Nat :=
  let cs := d.dp.copies.filter (fun c => c.queue == v && !c.released)
  if 393216 ≤ v then 0
  else b2n (d.spilled v) * 2 ^ 31 + b2n (cs.any (fun c => c.ct && d.arriving c)) * 2 ^ 30 +
    (cs.filter (fun c => c.loc != .sump || c.linked == c.cells)).length

/-- QRY_ registers (R154 to R168). -/
def Dev.viewQry (d : Dev) (r : Reg) (ix : List Nat) : Nat :=
  let n := ix.headD 0
  let k := ix.getD 1 0
  if r.id = R.QRY_STAT.id then b2n d.overcommit
  else if r.id = R.QRY_POOL_ALLOC.id then d.cAlloc
  else if r.id = R.QRY_POOL_SHARED.id then d.poolS
  else if r.id = R.QRY_POOL_USED.id then d.poolU
  else if r.id = R.QRY_POOL_HDRM_USED.id then d.hdrmTotal
  else if r.id = R.QRY_POOL_STAGE_USED.id then d.stageUsed
  else if r.id = R.QRY_POOL_FREE.id then d.poolFree
  else if r.id = R.QRY_VOQ_DATA0.id then
    (let v := d.rd F.QRY_VOQ_IDX_INDEX []
     if 393216 ≤ v then 0 else d.voqDepth v)
  else if r.id = R.QRY_VOQ_DATA1.id then d.dp.voqLatch
  else if r.id = R.QRY_Q_DEPTH.id then d.queueDepth n k
  else if r.id = R.QRY_INT_DEPTH.id then d.voqDepth (intOf n k)
  else if r.id = R.QRY_PFC_STAT.id then
    shown (d.raw r ix) F.QRY_PFC_STAT_HDRM_USE (bitsFrom 8 (fun g => d.hdrmCharge n g != 0))
  else d.raw r ix

/-- SMP_VOQ_DATA0 and 1 of a VOQ. -/
def Dev.smpData0 (d : Dev) (v : Nat) : Nat :=
  match d.ctxOfVoq v with
  | none => 0
  | some x => 2 ^ 31 + (x.batches.filter (fun b => b.at_ != .open_ && b.at_ != .waiting)).length
def Dev.smpData1 (d : Dev) (v : Nat) : Nat :=
  match d.ctxOfVoq v with
  | none => 0
  | some x => x.num * 2 ^ 16 + (x.batches.filter (fun b => b.at_ == .reading)).length * 2 ^ 13 +
      sumBy (x.batches.filter (fun b => b.at_ == .open_)) (fun b => b.cells)

/-- SMP_ registers (R181, R185 to R197). -/
def Dev.viewSmp (d : Dev) (r : Reg) (ix : List Nat) : Nat :=
  if r.id = R.SMP_STAT.id then shown (d.raw r ix) F.SMP_STAT_CNFG_MISMATCH (b2n d.mapConflict)
  else if r.id = R.SMP_CTX_USED.id then d.sump.ctxs.length
  else if r.id = R.SMP_EXT_FREE.id then d.extFree
  else if r.id = R.SMP_EXT_TOTAL.id then d.extTotal
  else if r.id = R.SMP_VOQ_DATA0.id then d.smpData0 (d.rd F.SMP_VOQ_IDX_INDEX [])
  else if r.id = R.SMP_VOQ_DATA1.id then d.sump.voqLatch
  else d.raw r ix

/-- EGR_ and LEHR_ registers (R215, R224). -/
def Dev.viewEgr (d : Dev) (r : Reg) (ix : List Nat) : Nat :=
  if r.id = R.EGR_PORT_STAT.id then shown (d.raw r ix) F.EGR_PORT_STAT_FLUSH (b2n (d.flushing (ix.headD 0)))
  else if r.id = R.LEHR_NOW.id then d.dp.lehrV
  else if r.id = R.LEHR_Q_DATA.id then
    (let e := d.rd F.LEHR_Q_IDX_QUEUE []
     let x := d.lehrQ (e / 12) (e % 12)
     if 12288 ≤ e then 0
     else b2n x.wheel.isSome * 2 ^ 63 + b2n (x.wheel.any (fun w => w.1)) * 2 ^ 62 + x.e % 2 ^ 48)
  else d.raw r ix

/-- The four words of GTH_DIR_DATA of a directory slot. -/
def Dev.dirWords (d : Dev) (slot : Nat) : List Nat :=
  match d.group slot with
  | none => [0, 0, 0, 0]
  | some g => [2 ^ 31 + g.engines * 2 ^ 23 + g.id, g.gen, g.next, g.oldest]

/-- A token level as GTH_ENG_STAT shows it: whole tokens, signed, saturating at −524,288 (R248). -/
def tokensShown (t : Int) : Nat := ofSigned 20 (max (-524288) (min 524287 (t / 1000000)))

/-- GTH_ registers. -/
def Dev.viewGth (d : Dev) (r : Reg) (ix : List Nat) : Nat :=
  let n := ix.headD 0
  if r.id = R.GTH_ENG_STAT.id then tokensShown (d.tokensNow n) * 2 ^ 12 + d.ctxUsed n
  else if r.id = R.GTH_DIR_DATA.id then (d.dirWords (d.rd F.GTH_DIR_IDX_SLOT [])).headD 0
  else if r.id = R.GTH_DIR_GEN.id then d.gth.dirLatch.getD 1 0
  else if r.id = R.GTH_DIR_NEXT.id then d.gth.dirLatch.getD 2 0
  else if r.id = R.GTH_DIR_OLDEST.id then d.gth.dirLatch.getD 3 0
  else d.raw r ix

/-- ANL_, TLM_ and CUL_ registers (R266, R279, R280, R296, R308, R314). -/
def Dev.viewAnl (d : Dev) (r : Reg) (ix : List Nat) : Nat :=
  let v := d.raw r ix
  if r.id = R.ANL_STAT.id then
    shown (shown v F.ANL_STAT_HEAVY (b2n (!d.openHints.isEmpty))) F.ANL_STAT_CNFG_MISMATCH (b2n d.pmbMismatch)
  else if r.id = R.ANL_AVS_STAT.id then shown v F.ANL_AVS_STAT_VMIN_MV d.otp.vminNow
  else if r.id = R.TLM_TIME_NS.id then d.ns
  else if r.id = R.TLM_HQ_DATA.id ∧ ix.headD 0 ≠ 0 then d.tlm.hqLatch.getD (ix.headD 0) 0
  else if r.id = R.CUL_STAT.id then d.tlm.traces.length
  else v

/-- PMC_ registers: live values or shadows (R320); the counters of a unit whose domain is off read 0. -/
def Dev.viewPmc (d : Dev) (r : Reg) (ix : List Nat) : Nat :=
  let u := ix.headD 0
  let k := if r.id = R.PMC_CYC.id then 16 * u else 16 * u + 1 + ix.getD 1 0
  if r.id = R.PMC_CYC.id ∨ r.id = R.PMC_CNT.id then
    if !d.pmcOn u then 0 else if d.on F.PMC_GCTL_VIEW [] then Sparse.get 0 d.tlm.shadow k else d.raw r ix
  else d.raw r ix

/-- HIF_, RING_, MBX_, SVC_ and SPL_ registers. -/
def Dev.viewHost (d : Dev) (m : Master) (r : Reg) (ix : List Nat) : Nat :=
  let n := ix.headD 0
  let v := d.raw r ix
  if r.id = R.HIF_STAT.id then shown v F.HIF_STAT_CNFG_MISMATCH (b2n d.vfMismatch)
  else if r.id = R.RING_STAT.id then d.ringStat n
  else if r.id = R.MBX_STAT.id then d.mbxStat n
  else if r.id = R.MBX_PEND.id then bitsFrom 64 (fun c => d.on F.MBX_STAT_FULL [c])
  else if r.id = R.MBX_DATA.id then
    if d.bindEn n && (d.sender n == m.mid || d.receiver n == m.mid) then v else 0
  else if r.id = R.SVC_STAT.id then
    b2n (d.domOn (182 + n / 2)) * 4 + b2n (d.on F.SVC_CTL_HALT [n]) * 2 + b2n (d.coreRuns n)
  else if r.id = R.SVC_ROLLBACK.id then d.otp.index
  else if r.id = R.SVC_OTP_CTL.id then shown v F.SVC_OTP_CTL_LOCKED (b2n d.otp.locked)
  else if r.id = R.SPL_SUMMARY.id then bitsFrom 61 (fun k => d.on F.SPL_LATCH_VALID [k])
  else if r.id = R.SPL_STAT.id then shown v F.SPL_STAT_SAFE (b2n d.safe)
  else if r.id = R.SPL_CNT.id ∧ ix.getD 1 0 = 0 ∧ d.onC F.SPL_CFG_SORING_MODE [] = false then 0
  else v

/-- What a register holds for a master to read. -/
def Dev.viewLive (d : Dev) (m : Master) (r : Reg) (ix : List Nat) : Nat :=
  if r.win = R.LANE_CTL.win then d.viewLane r ix
  else if r.win = R.PCS_SHAPE.win then d.viewPcs r ix
  else if r.id = R.AUX_STAT.id then shown (d.raw r ix) F.AUX_STAT_CNFG_MISMATCH (b2n d.auxMismatch)
  else if r.win = R.PRS_CFG.win ∨ r.win = R.PIPE_CFG.win ∨ r.win = R.TBL_CFG.win then d.viewPipe r ix
  else if r.win = R.QRY_STAT.win then d.viewQry r ix
  else if r.win = R.SMP_CFG.win then d.viewSmp r ix
  else if r.id = R.MTR_CMD.id then shown (d.raw r ix) F.MTR_CMD_BUSY (b2n d.dp.mtrBusy)
  else if r.win = R.EGR_STAT.win ∨ r.win = R.LEHR_NOW.win then d.viewEgr r ix
  else if r.win = R.GTH_CFG.win then d.viewGth r ix
  else if r.win = R.ANL_CFG.win ∨ r.win = R.TLM_STAT.win ∨ r.win = R.CUL_CFG.win then d.viewAnl r ix
  else if r.win = R.PMC_CNT.win then d.viewPmc r ix
  else if R.HIF_CFG.win ≤ r.win then d.viewHost m r ix
  else d.raw r ix

/-- What a register reads, for a master, when nothing hinders the read: dwords in error are 0. -/
def Dev.view (d : Dev) (m : Master) (r : Reg) (ix : List Nat) : Nat := d.shownWord r ix (d.viewLive m r ix)

/-- A read of a GPIO: a driven pin has its OUT level, what the board drives on another is free (R452). -/
def Dev.readGpio (d : Dev) : Dev × Nat :=
  let oe := d.rd F.PIN_GPIO_OE_OE []
  let out := d.rd F.PIN_GPIO_OUT_OUT []
  let (f, d) := d.free
  (d, bitsFrom 8 (fun i => if bitAt oe i then bitAt out i else bitAt f.toNat i))

/-- The RC fields of a register clear (R6). -/
def Dev.clearRc (d : Dev) (r : Reg) (ix : List Nat) : Dev :=
  if r.fields.any (fun f => f.acc == .rc) then
    d.setRaw r ix (r.fields.foldl (fun a f => if f.acc == .rc then setBitsOf a f.hi f.lo 0 else a) (d.raw r ix))
  else d

/-- What a read latches elsewhere: the second words of VOQ and directory data, a histogram, the fraction of TIME (R154, R296,
R308). -/
def Dev.readLatches (d : Dev) (r : Reg) (ix : List Nat) : Dev :=
  if r.id = R.QRY_VOQ_DATA0.id then { d with dp := { d.dp with voqLatch := d.voqData1 (d.rd F.QRY_VOQ_IDX_INDEX []) } }
  else if r.id = R.SMP_VOQ_DATA0.id then
    { d with sump := { d.sump with voqLatch := d.smpData1 (d.rd F.SMP_VOQ_IDX_INDEX []) } }
  else if r.id = R.GTH_DIR_DATA.id then { d with gth := { d.gth with dirLatch := d.dirWords (d.rd F.GTH_DIR_IDX_SLOT []) } }
  else if r.id = R.TLM_TIME_NS.id then d.setRaw R.TLM_TIME_FRAC [] (d.frac / 65536)
  else if r.id = R.TLM_HQ_DATA.id ∧ ix.headD 0 = 0 then d.histLatch
  else d

/-- The low dword of a register, or the whole of it, is read; the high dword alone latches nothing elsewhere (R296). A read of a
register. In a domain that is off, LANE_ registers read 0 (R56); what others read the spec does not
state. -/
def Dev.readLive (d : Dev) (m : Master) (r : Reg) (ix : List Nat) (low : Bool) : Dev × Nat :=
  if d.regOff r ix then
    if r.win = R.LANE_CTL.win then (d, 0)
    else
      let (f, d) := d.free
      (d, if r.wide then f.toNat else f.toNat % 2 ^ 32)
  else if r.id = R.PIN_GPIO_IN.id then d.readGpio
  else if r.id = R.MBX_LOCK.id then
    let k := ix.headD 0
    if d.on F.MBX_LOCK_HELD [k] then (d, d.raw r ix)
    else
      let d := (d.wr F.MBX_LOCK_HELD [k] 1).wr F.MBX_LOCK_OWNER [k] m.mid
      (d, d.raw r ix + 2 ^ 31)
  else if r.id = R.TLM_HQ_DATA.id ∧ ix.headD 0 = 0 then
    let d := d.histLatch
    (d, d.tlm.hqLatch.headD 0)
  else (((if low then d.readLatches r ix else d).clearRc r ix), d.viewLive m r ix)

/-- A read of a register, of which dwords in error read 0 (R393). -/
def Dev.readReg (d : Dev) (m : Master) (r : Reg) (ix : List Nat) (low : Bool) : Dev × Nat :=
  let (e, v) := d.readLive m r ix low
  (e, d.shownWord r ix v)

/-- A 32-bit read by a master at a BAR0 offset (R10, R17): the value, with what the read does. -/
def Dev.read32 (d : Dev) (m : Master) (off : Nat) : Dev × Nat :=
  match locate off with
  | none => (d.badAccess 0 1 m.mid (off % 2 ^ 26), 0)
  | some p =>
    let key := p.reg.at_ p.ix
    if d.mbxAway off then (d, 0)
    else if !p.reg.wide then d.readReg m p.reg p.ix true
    else if p.high then
      let (k, v) := Sparse.get (0, 0) d.latches m.mid
      if k = key then ({ d with latches := Sparse.put d.latches m.mid none }, v)
      else
        let (d, v) := d.readReg m p.reg p.ix false
        (d, v / 2 ^ 32)
    else
      let (d, v) := d.readReg m p.reg p.ix true
      ({ d with latches := Sparse.put d.latches m.mid (some (key, v / 2 ^ 32)) }, v % 2 ^ 32)

/-- An 8-byte read by a master at a BAR0 offset: a 64-bit register in one access, which replaces no latch (R10, log 100); two 32-bit
halves one after the other, the lower first (R11). -/
def Dev.read64 (d : Dev) (m : Master) (off : Nat) : Dev × Nat :=
  let halves := fun (d : Dev) =>
    let (d, lo) := d.read32 m off
    let (d, hi) := d.read32 m (off + 4)
    (d, hi % 2 ^ 32 * 2 ^ 32 + lo % 2 ^ 32)
  match locate off with
  | some p => if p.reg.wide && !p.high && !d.mbxAway off then d.readReg m p.reg p.ix true else halves d
  | none => halves d

/-! ## The counter page in BAR4 (R21, R322, R326) -/

/-- The unit whose 16 slots are group `j` of a function's counter page. -/
def Dev.pageUnit (d : Dev) (m : Master) (j : Nat) : Option Nat :=
  match m with
  | .pf0 => if j < 131 then some j else none
  | .vf v => ((List.range 131).filter (fun u => d.rd F.PMC_PERM_VF [u] == v.val + 1))[j]?
  | _ => none

/-- Slot `k` of a unit's 16: its cycle counter, its eight counters, a chained pair as V[63:0] and V[95:64], and zeros. -/
def Dev.unitSlot (d : Dev) (m : Master) (u k : Nat) : Nat :=
  let a := fun c => d.view m R.PMC_CNT [u, c]
  if k = 0 then d.view m R.PMC_CYC [u]
  else if 8 < k then 0
  else
    let j := (k - 1) / 2
    if bitAt (d.rd F.PMC_UCTL_CHAIN [u]) j then
      let v := a (2 * j + 1) * 2 ^ 48 + a (2 * j)
      if k % 2 = 1 then v % 2 ^ 64 else v / 2 ^ 64
    else a (k - 1)

/-- What a slot of a function's counter page reads; 0 unless the unit's USER is 1. -/
def Dev.pageSlot (d : Dev) (m : Master) (slot : Nat) : Nat :=
  match d.pageUnit m (slot / 16) with
  | some u => if d.on F.PMC_PERM_USER [u] then d.unitSlot m u (slot % 16) else 0
  | none => 0

/-- The slots of a function's counter page: 64 KiB of PF0, 32 KiB of a VF (R325). -/
def pageSlots : Master → Nat
  | .pf0 => 8192
  | .vf _ => 4096
  | _ => 0

/-- An 8-byte read of a slot of a counter page. -/
def Dev.pageReadWide (d : Dev) (m : Master) (at_ : Nat) : Dev :=
  if pageSlots m ≤ at_ / 8 || !d.masterOn m then d
  else d.emit (.readWide m.mid at_ (if d.hostBlocked m then 0 else d.pageSlot m (at_ / 8)))

/-- A 4-byte read of half a slot of a counter page. R10 applies to the slots: the low half latches the high one (log 100). -/
def Dev.pageRead (d : Dev) (m : Master) (at_ : Nat) (high : Bool) : Dev :=
  let slot := at_ / 8
  if pageSlots m ≤ slot || !d.masterOn m then d
  else if d.hostBlocked m then d.emit (.readData m.mid at_ 0)
  else
    let key := 2 ^ 64 + slot
    let v := d.pageSlot m slot
    if high then
      let (k, x) := Sparse.get (0, 0) d.latches m.mid
      if k = key then { d with latches := Sparse.put d.latches m.mid none }.emit (.readData m.mid at_ x)
      else d.emit (.readData m.mid at_ (v / 2 ^ 32))
    else { d with latches := Sparse.put d.latches m.mid (some (key, v / 2 ^ 32)) }.emit (.readData m.mid at_ (v % 2 ^ 32))

end Sys2Proof.Machine
end

