-- ==== Sys2Proof/Machine/Commit.lean ====
section
/-!
DEFINITION. Staged configuration: the GO write and the edge at which the committed set changes, with what each block refuses
or does at that edge (spec/00_scope.md R8; R54, R165, R182, R202, R277, R329).
-/

namespace Sys2Proof.Machine

/-! ## What a block does at the commit edge -/

/-- Flat indices at which register `r` is listed in either set. -/
def listedIn (r : Reg) (a b : Sparse Word) : List Nat :=
  (((a ++ b).filter (fun e => keyWin e.1 == r.win && keyId e.1 == r.id)).map (fun e => keyFlat e.1)).eraseDups

/-- QRY_: XOFF of a priority whose EN is clear falls (R165). -/
def qryCommit (_old new : Dev) : Dev :=
  (listedIn R.QRY_PFC_STAT new.regs []).foldl (fun d i =>
    (List.range 8).foldl (fun d g => if d.xoff i g && !d.pfcEn i g then d.setXoff i g false else d) d) new

/-- SMP_: a change of a SPILL part while contexts are bound is refused (R182). -/
def smpCommit (old new : Dev) : Dev :=
  let ports := List.range 4
  if old.sump.ctxs.isEmpty || ports.all (fun k => new.rawC R.SMP_REGION [k, 0] == old.rawC R.SMP_REGION [k, 0]) then new
  else (ports.foldl (fun d k => d.setRawC R.SMP_REGION [k, 0] (old.rawC R.SMP_REGION [k, 0])) new).wr F.SMP_STAT_MAP_REJ [] 1

/-- EGR_: a queue whose LEVEL changes starts with no deficit and no quantum taken (R202). -/
def egrCommit (old new : Dev) : Dev :=
  (listedIn R.EGR_Q_CFG old.comm new.comm).foldl (fun d e =>
    let p := e / 12
    let q := e % 12
    let l := old.cm F.EGR_Q_CFG_LEVEL [p, q]
    if d.cm F.EGR_Q_CFG_LEVEL [p, q] = l then d
    else
      let x := d.egrPort p
      d.setEgrPort p { x with
        deficit := Sparse.put x.deficit q none
        visited := if Sparse.get 0 x.ptr l = q then x.visited.filter (fun v => v != l) else x.visited }) new

/-- VCORE_MV of the committed table lies in 700 to 800 and does not fall as n rises (R277). -/
def Dev.oppOk (d : Dev) : Bool :=
  let v := fun i => d.cm F.ANL_OPP_VCORE_MV [i]
  (List.range 16).all (fun i => 700 ≤ v i && v i ≤ 800 && (i == 0 || v (i - 1) ≤ v i))

/-- T1 < T2 < T3 (R277). -/
def Dev.thrOk (d : Dev) : Bool :=
  d.cm F.ANL_LVL_THR_T1 [] < d.cm F.ANL_LVL_THR_T2 [] && d.cm F.ANL_LVL_THR_T2 [] < d.cm F.ANL_LVL_THR_T3 []

/-- ANL_: a bad OPP table keeps the old table, bad thresholds the old ones; either sets COMMIT_REJ (R277). -/
def anlCommit (old new : Dev) : Dev :=
  let d := if new.oppOk then new
    else (List.range 16).foldl (fun (d : Dev) i => d.setRawC R.ANL_OPP [i] (old.rawC R.ANL_OPP [i])) new
  let d := if new.thrOk then d else d.setRawC R.ANL_LVL_THR [] (old.rawC R.ANL_LVL_THR [])
  if new.oppOk && new.thrOk then d else d.wr F.ANL_STAT_COMMIT_REJ [] 1

/-- HIF_: every pair whose owner changes takes a ring reset (R329, R360); entries that a mismatch has held go on when it ends
(R352). -/
def hifCommit (old new : Dev) : Dev :=
  if listedIn R.HIF_VF_MAP old.comm new.comm = [] then new
  else ((indicesWhere 256 (fun n => old.owner n != new.owner n)).foldl (fun d n => d.ringReset n) new).drainAll

/-- The edge at which window `w`'s committed set changes (R8). -/
def Dev.commitEdge (d : Dev) (w : Nat) : Dev :=
  if !d.on (commitBusy w) [] then d
  else
    let new := { d with comm := swapKeys d.comm d.snap (stagedKey w), snap := d.snap.filter (fun e => !stagedKey w e.1) }
    let new := new.wr (commitBusy w) [] 0
    if w = R.PCS_SHAPE.win then pcsCommit d new
    else if w = R.QRY_STAT.win then qryCommit d new
    else if w = R.SMP_CFG.win then smpCommit d new
    else if w = R.EGR_STAT.win then egrCommit d new
    else if w = R.ANL_CFG.win then
      let new := anlCommit d new
      if new.svc.trimGo then { new with svc := { new.svc with trimGo := false } }.commitGo w else new
    else if w = R.HIF_CFG.win then hifCommit d new
    else new

/-- Masters that may write a block's RWS registers, and so its CFG_COMMIT (R14). -/
def commitWriter (m : Master) (w : Nat) : Bool :=
  if w = R.RST_CTL.win then rstWriter m
  else if w = R.PMC_CNT.win then pmcWriter m
  else if w = R.SVC_CTL.win then svcWriter m
  else if w = R.SPL_CTL.win then splWriter m
  else isPfSvc m

/-- CFG_COMMIT: a GO write. -/
def execCfgCommit (m : Master) (win : Fin 26) (s : State) : Host.Outcome State Fault Refusal :=
  s.run (fun d =>
    if commitWriter m win.val then d.access m (win.val * 1048576 + 0xFF004) 1 (fun d => d.commitGo win.val) else d)

/-- COMMIT_APPLY: the block copies the staged values at one edge. -/
def execCommitApply (win : Fin 26) (s : State) : Host.Outcome State Fault Refusal := s.run (fun d => d.commitEdge win.val)

end Sys2Proof.Machine
end

