-- ==== Sys2Proof/Machine/Store.lean ====
section
/-!
DEFINITION. What a register write does beyond the register's own fields, block by block (the chapters' register tables; R14,
R34, R46). A write sees bits [hi:lo] of `v`: all of a register, or the high dword alone of a 64-bit one (R10).
-/

namespace Sys2Proof.Machine

/-! ## Lanes, side port -/

/-- A lane that is disabled is neither powered nor usable: LANE_STAT. -/
def Dev.laneDisabled (d : Dev) (n : Nat) : Dev :=
  let d := (d.laneOff n).wr F.LANE_STAT_READY [n] 0
  (d.wr F.LANE_STAT_CDR_LOCK [n] 0).wr F.LANE_STAT_SIG_DET [n] 0

/-- LANE_ registers (R50, R65, R67, R68). -/
def Dev.storeLane (d : Dev) (r : Reg) (ix : List Nat) (v : Nat) : Dev :=
  let n := ix.headD 0
  let e := d.plain r ix v 31 0
  if r.id = R.LANE_CTL.id then
    let e := if d.rd F.LANE_CTL_PRBS [n] = 0 && e.rd F.LANE_CTL_PRBS [n] != 0 then e.setRaw R.LANE_PRBS_ERR [n] 0 else e
    let e := if d.on F.LANE_CTL_EN [n] && !e.on F.LANE_CTL_EN [n] then e.laneDisabled n else e
    e.laneChanged n
  else if r.id = R.LANE_TXEQ.id then
    let lt := (d.laneOwner n).any (fun p => d.onC F.PCS_PORT_CTL_LT_EN (pix p))
    if e.on F.LANE_TXEQ_OVR [n] || !lt then e.useTaps n
    else match (e.lane n).trained with
      | some t => e.setLane n { e.lane n with taps := t }
      | none => e
  else if r.id = R.LANE_ADAPT.id then
    let e := if bitAt v 2 then e.adaptRestart n else e
    e.evalFreeze n
  else e

/-- AUX_ registers: a change of the use, of a conflict or of the port of mode 1 restarts the side port, another change of a
port's setting that port (R69, R70); FRZ_EN = 0 ends a freeze (R75). -/
def Dev.storeAux (d : Dev) (r : Reg) (ix : List Nat) (v : Nat) : Dev :=
  let n := ix.headD 0
  let e := d.plain r ix v 31 0
  if e.raw r ix = d.raw r ix then e
  else if r.id = R.AUX_MODE.id ∨ r.id = R.AUX_PORT_CTL.id then
    if e.auxMode ≠ d.auxMode ∨ e.auxMismatch ≠ d.auxMismatch ∨ (e.auxMode = 1 ∧ n = 0) then e.auxRestart
    else if r.id = R.AUX_PORT_CTL.id ∧ e.auxMode = 2 then e.auxPortRestart n
    else e
  else if r.id = R.AUX_LANE_CTL.id then
    if e.on F.AUX_LANE_CTL_FRZ_EN [n] then e else e.wr F.AUX_LANE_STAT_FROZEN [n] 0
  else e

/-! ## Tables, shaping, sampling -/

/-- TBL_ registers (R122, R124, R134, R137, R143). -/
def Dev.storeTbl (d : Dev) (m : Master) (r : Reg) (ix : List Nat) (v : Nat) : Dev :=
  if r.id = R.TBL_CFG.id then d.tblCfg v
  else if r.id = R.TBL_CMD.id then d.tblCmd m v
  else if r.id = R.TBL_CMD_IDX.id ∨ r.id = R.TBL_CMD_DATA.id then
    if d.on F.TBL_CMD_BUSY [] then d.inc F.TBL_CMD_STAT_LOST [] else d.plain r ix v 31 0
  else if r.id = R.TBL_EM_SEED.id ∧ ix.headD 0 = d.activeEm then d.wr F.TBL_STAT_SEED_REJ [] 1
  else d.plain r ix v 31 0

/-- The tokens of the sampler counted up to now (R175). -/
def Dev.pntSettle (d : Dev) : Dev :=
  let t := min 64000000 (d.dp.pntTokens + (d.rst.mono - d.dp.pntAt) * d.rd F.PNT_RATE_KSPS [])
  { d with dp := { d.dp with pntTokens := t, pntAt := d.rst.mono } }

/-- EGR_, LEHR_ and PNT_ registers (R213, R215, R222). A written sampling gap starts afresh; what GATE_EN says of the gates until a
write of EGR_PORT_CFG holds of a frame in transmission (R214). -/
def Dev.storeEgr (d : Dev) (r : Reg) (ix : List Nat) (v : Nat) : Dev :=
  let n := ix.headD 0
  if r.id = R.EGR_GCL_CTL.id then d.gclCtl n v
  else if r.id = R.EGR_GCL_ADDR.id then d.gclAddr v
  else if r.id = R.EGR_PORT_CFG.id then (d.noteGates n).plain r ix v 31 0
  else if r.id = R.EGR_PFCWD.id then
    let e := d.plain r ix v 31 0
    if d.on F.EGR_PFCWD_EN [n] && !e.on F.EGR_PFCWD_EN [n] then e.wdDisabled n else e
  else if r.id = R.LEHR_Q_RATE.id then d.lehrWrite n (ix.getD 1 0) false v
  else if r.id = R.LEHR_Q_BURST.id then d.lehrWrite n (ix.getD 1 0) true v
  else if r.id = R.PNT_RATE.id then d.pntSettle.plain r ix v 31 0
  else if r.id = R.PNT_PORT_CFG.id then
    let e := d.plain r ix v 31 0
    { e with dp := { e.dp with pntGap := Sparse.put e.dp.pntGap n none } }
  else d.plain r ix v 31 0

/-! ## Annealer, telemetry, counters -/

/-- ANL_ registers: telemetry that is switched off is not lost, a diode that is set up again is not open, AVSBus that is
switched off holds nothing (R267, R280, R286). -/
def Dev.storeAnl (d : Dev) (r : Reg) (ix : List Nat) (v hi lo : Nat) : Dev :=
  let n := ix.headD 0
  let e := d.plain r ix v hi lo
  if r.id = R.ANL_PMB_CFG.id then
    if e.on F.ANL_PMB_CFG_EN [] then e else e.anlState F.ANL_STAT_TLM_LOST 0x41 3 false
  else if r.id = R.ANL_AVS.id then
    if e.on F.ANL_AVS_MODE [] then e else { e with anl := { e.anl with avsFails := 0, avsHeld := false } }
  else if r.id = R.ANL_RDIODE_CTL.id then
    let e := e.wr F.ANL_RDIODE_STAT_OPEN [n] 0
    let hot := if e.on F.ANL_RDIODE_CTL_EN [n] then e.anl.rdHot else e.anl.rdHot.filter (fun x => x != n)
    { e with anl := { e.anl with rdHot := hot } }.wr F.ANL_STAT_RD_HOT [] (b2n (!hot.isEmpty))
  else e

/-- TLM_ and CUL_ registers (R295, R303, R313). -/
def Dev.storeTlm (d : Dev) (r : Reg) (ix : List Nat) (v hi lo : Nat) : Dev :=
  let n := ix.headD 0
  if r.id = R.TLM_TIME_CTL.id then d.timeCtl v
  else
    let e := d.plain r ix v hi lo
    if r.id = R.TLM_STREAM_CFG.id then
      let was := d.on F.TLM_STREAM_CFG_EN [n]
      let now := e.on F.TLM_STREAM_CFG_EN [n]
      if now && !was then e.streamEnabled n else if was && !now then e.streamDisabled n else e
    else if r.id = R.CUL_RATE.id then { e with tlm := { e.tlm with gaps := Sparse.put e.tlm.gaps n none } }
    else e

/-- PMC_ registers (R320). -/
def Dev.storePmc (d : Dev) (r : Reg) (ix : List Nat) (v hi lo : Nat) : Dev :=
  let e := d.plain r ix v hi lo
  if r.id = R.PMC_GCTL.id && bitAt v 0 then e.snapshot else e

/-! ## Host interface -/

/-- Submission ring `n` is enabled: its indices are 0 (R332). -/
def Dev.sqEnable (d : Dev) (n : Nat) : Dev :=
  let d := ((d.wr F.RING_CTL_SQ_EN [n] 1).wr F.RING_SQ_PROD_INDEX [n] 0).wr F.RING_SQ_CONS_INDEX [n] 0
  d.setRing n { d.ring n with fetched := [], phTry := 0, doorbell := 0, awake := false, err := false }

/-- Completion ring `n` is enabled: its indices are 0, and what waits for it goes on (R332, R352). -/
def Dev.cqEnable (d : Dev) (n : Nat) : Dev :=
  let d := ((d.wr F.RING_CTL_CQ_EN [n] 1).wr F.RING_CQ_PROD_INDEX [n] 0).wr F.RING_CQ_CONS_INDEX [n] 0
  (d.setRing n { d.ring n with stopCq := false, irqCount := 0 }).drainRing n

/-- RING_CTL[n] (R330 to R332, R356, R358, R360): a reset of the pair; else a change of OWNMODE or CQ is refused while the
pair is enabled, unless the write enables a ring as well, and SQ_EN = 1 is refused while the ring is STOPPING. -/
def Dev.ringCtl (d : Dev) (n v : Nat) : Dev :=
  if bitAt v 28 then d.ringReset n
  else
    let sq := d.on F.RING_CTL_SQ_EN [n]
    let cq := d.on F.RING_CTL_CQ_EN [n]
    let sqRej := bitAt v 31 && !sq && (d.ring n).stopSq
    let sqUp := bitAt v 31 && !sq && !sqRej
    let cqUp := bitAt v 30 && !cq
    let changes := bitsOf v 29 29 != d.rd F.RING_CTL_OWNMODE [n] || bitsOf v 15 8 != d.rd F.RING_CTL_CQ [n]
    let cfgRej := changes && (sq || cq) && !sqUp && !cqUp
    let d := if sqRej || cfgRej then d.wr F.RING_STAT_CFG_REJ [n] 1 else d
    let d := if cfgRej then d else (d.wr F.RING_CTL_OWNMODE [n] (bitsOf v 29 29)).wr F.RING_CTL_CQ [n] (bitsOf v 15 8)
    let d := if cqUp then d.cqEnable n else if cq && !bitAt v 30 then d.cqStop n else d
    if sqUp then d.sqEnable n else if sq && !bitAt v 31 then d.sqStop n else d

/-- RING_ registers (R327, R331). -/
def Dev.storeRing (d : Dev) (r : Reg) (ix : List Nat) (v hi lo : Nat) : Dev :=
  let n := ix.headD 0
  if r.id = R.RING_CTL.id then d.ringCtl n v
  else if r.id = R.RING_SQ_BASE.id ∨ r.id = R.RING_CQ_BASE.id ∨ r.id = R.RING_SIZE.id then
    if d.on F.RING_CTL_SQ_EN [n] || d.on F.RING_CTL_CQ_EN [n] then d.wr F.RING_STAT_CFG_REJ [n] 1 else d.plain r ix v hi lo
  else if r.id = R.RING_IRQ.id then (d.plain r ix v hi lo).checkIrq n
  else d.plain r ix v hi lo

/-- HIF_ registers: an unmasked vector sends the message it owes (R327, log 20). -/
def Dev.storeHif (d : Dev) (m : Master) (r : Reg) (ix : List Nat) (v hi lo : Nat) : Dev :=
  let n := ix.headD 0
  if r.id = R.HIF_CTL.id then (if bitAt v 0 then d.hifRequest (.ctl m) else d)
  else
    let e := d.plain r ix v hi lo
    if r.id = R.HIF_MSIX_TABLE.id ∧ ix.getD 1 0 = 3 then
      let pba := e.rd F.HIF_MSIX_PBA_PEND [n / 32]
      if !bitAt v 0 && bitAt pba (n % 32) && e.dmaOk 0 then (e.wr F.HIF_MSIX_PBA_PEND [n / 32] (putBit pba (n % 32) false)).emit (.msix n)
      else e
    else e

/-! ## Mailboxes, service cores, Spall -/

/-- MBX_ registers (R367 to R375): a write that the rules do not accept is counted at its channel. -/
def Dev.storeMbx (d : Dev) (m : Master) (r : Reg) (ix : List Nat) (v : Nat) : Dev :=
  let c := ix.headD 0
  if r.id = R.MBX_DATA.id then d.mbxData m.mid c (ix.getD 1 0) v
  else if r.id = R.MBX_SEND.id then d.mbxSend m.mid c (v % 128)
  else if r.id = R.MBX_ACK.id then d.mbxAck m.mid c (v % 65536)
  else if r.id = R.MBX_CTL.id then
    (if bitAt v 0 then d.mbxCtlReset m.mid c else if d.mayResetMbx m.mid c then d else d.mbxReject c)
  else if r.id = R.MBX_CFG.id then (if isPfSvc m then d.plain r ix v 31 0 else d.mbxReject c)
  else if r.id = R.MBX_STAT.id ∨ r.id = R.MBX_REJ.id then d.mbxReject c
  else if r.id = R.MBX_LOCK.id then
    let d := if bitAt v 1 then d.lockForce m.mid c else d
    if bitAt v 0 then d.lockRelease m.mid c else d
  else d

/-- SVC_ registers (R364, R379, R389). -/
def Dev.storeSvc (d : Dev) (m : Master) (r : Reg) (ix : List Nat) (v : Nat) : Dev :=
  if r.id = R.SVC_CTL.id then d.svcCtl (ix.headD 0) v
  else if r.id = R.SVC_OTP_CTL.id then (if bitAt v 0 then d.otpProgram m else d)
  else if r.id = R.SVC_MBX_BIND.id then d.bindWrite m.mid (ix.headD 0) v
  else d.plain r ix v 31 0

/-- A write of SPL_CTL: FORCE_SAFE = 1 raises source 0x43 in collector 60 (R406). -/
def Dev.splCtl (d : Dev) (v : Nat) : Dev := if bitAt v 0 then d.raise 60 0x43 0 else d

/-- A write of SPL_INJ[k] (R401). -/
def Dev.splInj (d : Dev) (k v : Nat) : Dev :=
  let e := d.plain R.SPL_INJ [k] v 31 0
  if bitAt v 31 then d.inject e k else e

/-- A write of SPL_CFG: INJ_LOCK, once set, keeps its value; a write that would clear it is recorded (R12). -/
def Dev.splCfg (d : Dev) (m : Master) (v : Nat) : Dev :=
  if d.on F.SPL_CFG_INJ_LOCK [] && !bitAt v 30 then
    (d.plain R.SPL_CFG [] (putBit v 30 true) 31 0).badAccess 0 4 m.mid R.SPL_CFG.bar0
  else d.plain R.SPL_CFG [] v 31 0

/-- SPL_ registers (R397, R401, R406). -/
def Dev.storeSpl (d : Dev) (m : Master) (r : Reg) (ix : List Nat) (v hi lo : Nat) : Dev :=
  let k := ix.headD 0
  if r.id = R.SPL_LATCH.id then (if hi = 63 && bitAt v 63 && d.on F.SPL_LATCH_VALID [k] then d.clearLatch k else d)
  else if r.id = R.SPL_INJ.id then d.splInj k v
  else if r.id = R.SPL_CTL.id then d.splCtl v
  else if r.id = R.SPL_CFG.id then d.splCfg m v
  else d.plain r ix v hi lo

/-! ## All registers -/

/-- A word of MTR_DATA, whose writes are discarded while BUSY = 1 (R230). -/
def mtrData (r : Reg) : Bool := r.id == R.MTR_DATA_PROFILE.id || r.id == R.MTR_DATA_LEVEL.id || r.id == R.MTR_DATA_BYTES.id

/-- A write that the access rules let through. -/
def Dev.store (d : Dev) (m : Master) (r : Reg) (ix : List Nat) (v hi lo : Nat) : Dev :=
  let n := ix.headD 0
  if r.off = 0xFF004 then (if bitAt v 0 then d.commitGo r.win else d)
  else if r.id = R.GLB_BAD_ACCESS.id then (if hi = 63 && bitAt v 63 then d.setRaw r [] 0 else d)
  else if r.id = R.GLB_PD_REQ.id then d.pdRequest m n v
  else if r.id = R.RST_CTL.id then d.rstCtl m.mid v
  else if r.id = R.RST_BOOT_GO.id then (if bitAt v 0 then d.wr F.RST_STAT_BOOT_HOLD [] 0 else d)
  else if r.win = R.LANE_CTL.win then d.storeLane r ix v
  else if r.win = R.AUX_MODE.win then d.storeAux r ix v
  else if r.id = R.PCS_FEC_DEG.id then (d.plain r ix v hi lo).degStored (32 * n + ix.getD 1 0)
  else if r.id = R.PIPE_CHK_EN.id ∧ 32 ≤ n then d
  else if r.id = R.PRS_ST_ADDR.id then d.prsAddr n v
  else if r.id = R.PIPE_IDX_ADDR.id then d.pipeAddr n v
  else if r.win = R.TBL_CFG.win then d.storeTbl m r ix v
  else if r.id = R.MTR_CMD.id then d.mtrCmd m.mid v
  else if r.win = R.MTR_CMD.win && mtrData r then (if d.dp.mtrBusy then d else d.plain r ix v hi lo)
  else if r.id = R.SMP_LVL.id ∨ r.id = R.SMP_CFG.id then (d.fillBuckets.plain r ix v hi lo).smpRates
  else if r.id = R.CXL_CTL.id then d.cxlCtl n v
  else if r.win = R.EGR_STAT.win ∨ r.win = R.LEHR_NOW.win ∨ r.win = R.PNT_CFG.win then d.storeEgr r ix v
  else if r.id = R.GTH_LVL.id then d.settleTokens.plain r ix v hi lo
  else if r.win = R.ANL_CFG.win then d.storeAnl r ix v hi lo
  else if r.win = R.TLM_STAT.win ∨ r.win = R.CUL_CFG.win then d.storeTlm r ix v hi lo
  else if r.win = R.PMC_CNT.win then d.storePmc r ix v hi lo
  else if r.win = R.HIF_CFG.win then d.storeHif m r ix v hi lo
  else if r.win = R.RING_CTL.win then d.storeRing r ix v hi lo
  else if r.win = R.SVC_CTL.win then d.storeSvc m r ix v
  else if r.win = R.SPL_CTL.win then d.storeSpl m r ix v hi lo
  else d.plain r ix v hi lo

/-- A write to a register, by the access rules in their order: a domain that is off (R56), the writers (R14), the lock (R12).
A dword in error takes the value 0 (R393). -/
def Dev.writeReg (d : Dev) (m : Master) (r : Reg) (ix : List Nat) (v hi lo : Nat) : Dev :=
  if r.win = R.MBX_STAT.win then d.storeMbx m r ix v
  else if d.regOff r ix then d
  else if r.off = 0xFF004 && !commitWriter m r.win then d
  else if r.off ≠ 0xFF004 && !d.writer m r then d
  else if d.regLocked r then d.badAccess 0 4 m.mid (r.at_ ix)
  else d.store m r ix (d.shownWord r ix v) hi lo

/-- Other masters' holds of a register go when a master writes it (R10). -/
def Dev.dropOthers (d : Dev) (mid key : Nat) : Dev :=
  { d with holds := d.holds.filter (fun e => e.1 == mid || e.2.1 != key) }

/-- A master that may write the register at all. -/
def Dev.reaches (d : Dev) (m : Master) (r : Reg) (ix : List Nat) : Bool := !d.regOff r ix && d.writer m r

/-- A 32-bit write by a master at a BAR0 offset (R10, R17): a reserved offset is recorded; the low dword of a 64-bit register
is held, and its high dword acts with it, or alone. -/
def Dev.write32 (d : Dev) (m : Master) (off v : Nat) : Dev :=
  match locate off with
  | none => d.badAccess 0 2 m.mid (off % 2 ^ 26)
  | some p =>
    let key := p.reg.at_ p.ix
    if d.mbxAway off then d
    else if !p.reg.wide then d.writeReg m p.reg p.ix v 31 0
    else if !d.reaches m p.reg p.ix then d
    else
      let d := d.dropOthers m.mid key
      if p.high then
        let (k, low) := Sparse.get (0, 0) d.holds m.mid
        if k = key then
          { d with holds := Sparse.put d.holds m.mid none }.writeReg m p.reg p.ix (v * 2 ^ 32 + low) 63 0
        else d.writeReg m p.reg p.ix (v * 2 ^ 32) 63 32
      else { d with holds := Sparse.put d.holds m.mid (some (key, v)) }

/-- An 8-byte write (R10, R11): a 64-bit register at once, two 32-bit registers one after the other. The writer's own earlier hold
of the same register's low dword stays: R10 ends a hold by the MID's next low write and by other MIDs' writes, and is silent on
this one (DESIGN CHOICE, log 102). -/
def Dev.write64 (d : Dev) (m : Master) (off v : Nat) : Dev :=
  match locate off with
  | some p =>
    if p.reg.wide && !p.high && !d.mbxAway off then
      (if d.reaches m p.reg p.ix then d.dropOthers m.mid (p.reg.at_ p.ix) else d).writeReg m p.reg p.ix v 63 0
    else (d.write32 m off (v % 2 ^ 32)).write32 m (off + 4) (v / 2 ^ 32)
  | none => (d.write32 m off (v % 2 ^ 32)).write32 m (off + 4) (v / 2 ^ 32)

end Sys2Proof.Machine
end

