-- ==== Sys2Proof/Machine/Access.lean ====
section
/-!
DEFINITION. Register accesses as commands: writes, reads, their halves, bad accesses, the BMC port's commands, and the end of the
core region's initialisation (spec/00_scope.md R10 to R17; spec/14_reset_and_startup.md R420; spec/15_package_pins_electrical.md
R438).
-/

namespace Sys2Proof.Machine

/-! ## Accesses and their wait (R360, R420) -/

/-- An access through the TAP means that it is not in reset (R437). -/
def Dev.tap (d : Dev) (m : Master) : Dev := if m = .jtag then { d with bmc := { d.bmc with tapReset := false } } else d

/-- An access waits for INIT_DONE. -/
def Dev.wait (d : Dev) (w : Waiting) : Dev := { d with rst := { d.rst with waiting := d.rst.waiting ++ [w] } }

/-- A naturally aligned 4- or 8-byte write by a master at a BAR0 offset. -/
def Dev.busWrite (d : Dev) (m : Master) (off : Nat) (wide : Bool) (v : Nat) : Dev :=
  let d := d.tap m
  if !hasWindow m || d.hostBlocked m then d
  else if d.mustWait off then d.wait { mid := m.mid, off := off, write := true, wide := wide, val := v }
  else if wide then d.write64 m off v
  else d.write32 m off v

/-- The completion of a read of 4 or 8 bytes. -/
def readAnswer (m : Master) (off : Nat) (wide : Bool) (v : Nat) : Output :=
  if wide then .readWide m.mid off v else .readData m.mid off v

/-- A naturally aligned 4- or 8-byte read by a master; the answer is among the outputs, one completion for both halves (R11). -/
def Dev.busRead (d : Dev) (m : Master) (off : Nat) (wide : Bool) : Dev :=
  let d := d.tap m
  if !hasWindow m then d
  else if d.hostBlocked m then d.emit (readAnswer m off wide 0)
  else if d.mustWait off then d.wait { mid := m.mid, off := off, write := false, wide := wide, val := 0 }
  else
    let (d, v) := if wide then d.read64 m off else d.read32 m off
    d.emit (readAnswer m off wide v)

/-- One access of 4 or 8 bytes to the BAR0 map. -/
def Dev.busAccess (d : Dev) (a : BusAccess) : Dev :=
  if a.off.toNat % (if a.wide then 8 else 4) ≠ 0 then
    if !hasWindow a.m || d.hostBlocked a.m then d else d.badSize a.m 0 a.off.toNat
  else if a.write then d.busWrite a.m a.off.toNat a.wide (if a.wide then a.val.toNat else a.val.toNat % 2 ^ 32)
  else d.busRead a.m a.off.toNat a.wide

/-- An aligned 8-byte access that is no access to a 64-bit register acts as two of 4 bytes (R11). -/
def splits (a : BusAccess) : Bool :=
  a.wide && a.off.toNat % 8 == 0 && (match locate a.off.toNat with
    | some p => !p.reg.wide
    | none => true)

/-- The accesses to one register each that an access is made of, with their offsets, the low dword first. -/
def accessParts (a : BusAccess) : List (BusAccess × Nat) :=
  if splits a then [(a, a.off.toNat), (a, a.off.toNat + 4)] else [(a, a.off.toNat)]

/-- When a part acts among the parts of its clock that go to other registers: first where its register has a field that a read or a
write clears, so that a clear comes before the events of its clock (R7); such registers have no field that a write sets. Last where
it changes a mailbox's binding (R372). A bad access is an event. -/
def partRank (x : BusAccess × Nat) : Nat :=
  if x.2 % (if x.1.wide && !splits x.1 then 8 else 4) ≠ 0 then 1
  else match locate x.2 with
    | none => 1
    | some p =>
      if p.reg.id == R.SVC_MBX_BIND.id then 2
      else if p.reg.fields.any (fun f => f.acc == .rc || f.acc == .w1c) then 0
      else 1

/-- Of two parts of one clock, `x` is served first: by their ranks (DEDUCED, log 315), and to one register, which gives them one
rank, the lower MID (R9). -/
def partBefore (x y : BusAccess × Nat) : Bool :=
  decide (partRank x < partRank y) || (partRank x == partRank y && decide (x.1.m.mid ≤ y.1.m.mid))

/-- A part put among others of its clock. -/
def arbiterPut (x : BusAccess × Nat) : List (BusAccess × Nat) → List (BusAccess × Nat)
  | [] => [x]
  | y :: t => if partBefore x y then x :: y :: t else y :: arbiterPut x t

/-- A half of an 8-byte read, with its value. -/
def Dev.halfRead (d : Dev) (m : Master) (off : Nat) : Dev × Nat :=
  let d := d.tap m
  if !hasWindow m || d.hostBlocked m then (d, 0) else d.read32 m off

/-- A part is served; the values of the halves of 8-byte reads are kept by MID and offset for their completions. -/
def servePart (e : Dev × List ((Nat × Nat) × Nat)) (x : BusAccess × Nat) : Dev × List ((Nat × Nat) × Nat) :=
  let a := x.1
  if !splits a then (e.1.busAccess a, e.2)
  else if a.write then
    (e.1.busWrite a.m x.2 false (if x.2 = a.off.toNat then a.val.toNat % 2 ^ 32 else a.val.toNat / 2 ^ 32), e.2)
  else
    let (d, v) := e.1.halfRead a.m x.2
    (d, ((a.m.mid, x.2), v) :: e.2)

/-- The one completion of an 8-byte read that was served in halves (R11). -/
def completeWide (vs : List ((Nat × Nat) × Nat)) (d : Dev) (a : BusAccess) : Dev :=
  if a.write || !splits a || !hasWindow a.m then d
  else
    let v := fun off => (vs.lookup (a.m.mid, off)).getD 0 % 2 ^ 32
    d.emit (readAnswer a.m a.off.toNat true (v (a.off.toNat + 4) * 2 ^ 32 + v a.off.toNat))

/-- The register arbiter serves the accesses of one clock one after the other (R9), register by register (R11): a read or clear of a
field before an event that another access causes (R7), a mailbox's binding after every other access (R372). Accesses that wait for
INIT_DONE wait whole (R420). -/
def Dev.arbiter (d : Dev) (l : List BusAccess) : Dev :=
  let (held, now) := l.partition (fun a => d.mustWait a.off.toNat)
  let e := (((held.map (fun a => (a, a.off.toNat))).foldr arbiterPut []).map Prod.fst).foldl Dev.busAccess d
  let (e, vs) := ((now.flatMap accessParts).foldr arbiterPut []).foldl servePart (e, [])
  now.foldl (completeWide vs) e

/-- The offset lies in a 64-bit register, in its low or high dword. -/
def inWide (off : Nat) (high : Bool) : Bool :=
  off % 4 == 0 && (match locate off with
    | some p => p.reg.wide && p.high == high
    | none => false)

/-- The offset is that of a 32-bit register. -/
def inNarrow (off : Nat) : Bool :=
  off % 4 == 0 && (match locate off with
    | some p => !p.reg.wide
    | none => false)

/-- The access is naturally aligned: an 8-byte one lies at a multiple of 8. -/
def wideOk (off : Nat) (wide : Bool) : Bool := !wide || off % 8 == 0

/-- REG_WRITE: a write by a master, of 4 or 8 bytes, with the accesses that other masters make in the same clock (R9); one that is
not aligned is a bad access (R17). -/
def execRegWrite (m : Master) (off : BitVec 26) (wide : Bool) (v : Word) (others : List BusAccess) (s : State) :
    Host.Outcome State Fault Refusal :=
  s.run (fun d => d.arbiter ({ m := m, off := off, wide := wide, write := true, val := v } :: others))

/-- RC_READ: a read of a 32-bit register, which clears its RC fields, with the accesses that other masters make in the same clock;
an 8-byte one reads the next four bytes too (R11). In BAR2, a read of a doorbell register (R19, log 100). -/
def execRcRead (m : Master) (bar : Bar) (off : BitVec 26) (wide : Bool) (others : List BusAccess) (s : State) :
    Host.Outcome State Fault Refusal :=
  s.run (fun d =>
    match bar with
    | .bar0 =>
      if inNarrow off.toNat && wideOk off.toNat wide then
        d.arbiter ({ m := m, off := off, wide := wide, write := false, val := 0 } :: others)
      else d
    | .bar2 => if wideOk off.toNat wide then d.doorbellRead m off.toNat wide else d
    | .bar4 => d)

/-- LOW_DWORD_READ: a read of the low dword of a 64-bit register, whose high dword is latched for the reader, or of the whole
register in one 8-byte access; in BAR4, of a slot of the reader's counter page (R21). -/
def execLowDwordRead (m : Master) (bar : Bar) (off : BitVec 26) (wide : Bool) (s : State) : Host.Outcome State Fault Refusal :=
  s.run (fun d =>
    match bar with
    | .bar0 => if inWide off.toNat false then d.busRead m off.toNat wide else d
    | .bar2 => d
    | .bar4 =>
      if off.toNat % 8 ≠ 0 then d
      else if wide then d.pageReadWide m off.toNat
      else d.pageRead m off.toNat false)

/-- HIGH_DWORD_READ: a read of the high dword: the reader's latched value, else the live one; in BAR4, of a slot. -/
def execHighDwordRead (m : Master) (bar : Bar) (off : BitVec 26) (s : State) : Host.Outcome State Fault Refusal :=
  s.run (fun d =>
    match bar with
    | .bar0 => if inWide off.toNat true then d.busRead m off.toNat false else d
    | .bar2 => d
    | .bar4 => if off.toNat % 8 = 4 then d.pageRead m off.toNat true else d)

/-- LOW_DWORD_WRITE: the low dword is held for its writer. -/
def execLowDwordWrite (m : Master) (off : BitVec 26) (v : BitVec 32) (s : State) : Host.Outcome State Fault Refusal :=
  s.run (fun d => if inWide off.toNat false then d.busWrite m off.toNat false v.toNat else d)

/-- HIGH_DWORD_WRITE: all 64 bits with the held low dword, or the high 32 bits alone. -/
def execHighDwordWrite (m : Master) (off : BitVec 26) (v : BitVec 32) (s : State) : Host.Outcome State Fault Refusal :=
  s.run (fun d => if inWide off.toNat true then d.busWrite m off.toNat false v.toNat else d)

/-! ## Bad accesses (R17) -/

/-- RESERVED_OFFSET_ACCESS: an access at a reserved window or offset, of 4 bytes, or of 8: a write whose halves both lie at reserved
offsets, a read of which one half does, the other a register's (R11). A write of 8 bytes with a value for a register is REG_WRITE. -/
def execReservedOffsetAccess (m : Master) (off : BitVec 26) (write wide : Bool) (s : State) :
    Host.Outcome State Fault Refusal :=
  s.run (fun d =>
    let low := locate off.toNat = none
    let high := locate (off.toNat + 4) = none
    if (if wide then off.toNat % 8 = 0 ∧ (if write then low ∧ high else low ∨ high) else off.toNat % 4 = 0 ∧ low) then
      if write then d.busWrite m off.toNat wide 0 else d.busRead m off.toNat wide
    else d)

/-- BAD_SIZE_ACCESS: an access that is not 4 or 8 bytes long and naturally aligned. -/
def execBadSizeAccess (m : Master) (bar : Bar) (off : BitVec 26) (_write : Bool) (s : State) :
    Host.Outcome State Fault Refusal :=
  s.run (fun d => if !d.hasBar m bar || d.hostBlocked m then d else d.badSize m bar.num off.toNat)

/-- BAR4_WRITE: a write to a function's counter page. -/
def execBar4Write (m : Master) (off : BitVec 16) (s : State) : Host.Outcome State Fault Refusal :=
  s.run (fun d => if !d.hasBar m .bar4 || d.hostBlocked m then d else d.badAccess 2 5 m.mid off.toNat)

/-! ## INIT_DONE (R420) -/

/-- Accesses that waited are made, in order. -/
def Dev.replay (d : Dev) : List Waiting → Dev
  | [] => d
  | w :: t =>
    (match masterOf w.mid with
      | none => d
      | some m => if w.write then d.busWrite m w.off w.wide w.val else d.busRead m w.off w.wide).replay t

/-- The references of clusters C0 to C3 run, and of the others whose input is in range (R24). -/
def Dev.refsOk (d : Dev) : Dev :=
  (List.range 32).foldl (fun d c =>
    d.wr F.PCS_CL_STAT_REF_OK [c] (b2n (c < 4 || !bitAt d.rst.refclk (c / 4 - 1)))) d

/-- INIT_DONE: the initialisation is complete, once after each reset. -/
def execInitDone (s : State) : Host.Outcome State Fault Refusal :=
  s.run (fun d =>
    if d.on F.RST_STAT_INIT_DONE [] then d
    else
      let w := d.rst.waiting
      let d := (d.wr F.RST_STAT_INIT_DONE [] 1).refsOk
      ({ d with rst := { d.rst with waiting := [] } }.pdNext).replay w)

/-! ## The BMC port's commands (R438) -/

/-- ADDR goes on by 4, and ERR tells whether the access was discarded or refused. -/
def Dev.bmcStep (d : Dev) (err : Bool) : Dev :=
  { d with bmc := { d.bmc with addr := (d.bmc.addr + 4) % 2 ^ 32, err := err } }

/-- BMC_ADDR: bits [1:0] are ignored; a write with a bad PEC has no effect. -/
def execBmcAddr (off : BitVec 32) (badPec : Bool) (s : State) : Host.Outcome State Fault Refusal :=
  s.run (fun d => if badPec then d else { d with bmc := { d.bmc with addr := off.toNat / 4 * 4 } })

/-- BMC_WRITE. A write that begins a reset leaves ADDR 0 (R438). -/
def execBmcWrite (v : BitVec 32) (badPec : Bool) (s : State) : Host.Outcome State Fault Refusal :=
  s.run (fun d =>
    if badPec then d
    else
      let ok := d.writeOk .bmc d.bmc.addr v.toNat
      let e := d.busWrite .bmc d.bmc.addr false v.toNat
      if e.resets = d.resets then e.bmcStep (!ok) else e)

/-- A read of the register at ADDR is refused: a reserved offset, the mailboxes during a HIF reset, or mailbox data of other
masters (R17, R371, R372). -/
def Dev.bmcReadErr (d : Dev) : Bool :=
  match locate d.bmc.addr with
  | none => true
  | some p =>
    d.mbxAway d.bmc.addr ||
      (p.reg.id == R.MBX_DATA.id &&
        !(d.bindEn (p.ix.headD 0) && (d.sender (p.ix.headD 0) == 0x51 || d.receiver (p.ix.headD 0) == 0x51)))

/-- BMC_READ. -/
def execBmcRead (s : State) : Host.Outcome State Fault Refusal :=
  s.run (fun d =>
    let a := d.bmc.addr
    let err := d.bmcReadErr
    if d.mustWait a then (d.busRead .bmc a false).bmcStep err
    else
      let (d, v) := d.read32 .bmc a
      (d.emit (.bmcData v)).bmcStep err)

/-- BMC_STATUS: bit 0 is ERR. -/
def execBmcStatus (s : State) : Host.Outcome State Fault Refusal := s.run (fun d => d.emit (.bmcData (b2n d.bmc.err)))

end Sys2Proof.Machine
end

