-- ==== Sys2Proof/Machine/Faults.lean ====
section
/-!
DEFINITION. Faults as they are raised and contained (spec/13_spall_faults.md R391 to R408): containment by structure, a fault
raised in a collector, injection, clearing a latch, the write that forces the safe state, a broken collector, the root check.
-/

namespace Sys2Proof.Machine

/-! ## Containment (R393) -/

/-- The collector of a front-panel port: its lane die's. -/
def portCollector (p : Nat) : Nat := 2 + p / 256

/-- The collector of a register whose block has no structure of its own in R393; none of another. ANL_SAG belongs to the always-on
logic and TLM_TIME_TRIM to the timebase (R391; DEDUCED, log 267). -/
def wordCollector (off : Nat) : Option Nat :=
  match locate off with
  | some p =>
    let w := p.reg.win
    if w = R.GLB_STRAP.win then some 0
    else if w = R.RST_CTL.win ∨ w = R.PIN_BMC.win then some 1
    else if p.reg.id = R.ANL_SAG.id then some 58
    else if p.reg.id = R.TLM_TIME_TRIM.id then some 59
    else if w = R.PNT_CFG.win ∨ w = R.TLM_STAT.win ∨ w = R.CUL_CFG.win then some 51
    else if w = R.ANL_CFG.win then some 53
    else if w = R.PMC_CNT.win then some 57
    else if w = R.SPL_CTL.win then some 60
    else none
  | none => none

/-- A structure belongs to collector `k` (R391, R393). -/
def Dev.contains (d : Dev) (k : Nat) : Contained → Bool
  | .portFrame p => k == portCollector p.val
  | .auxFrame _ => k == 6
  | .packet u => (match d.pass u with
    | some x => k == 7 + x.pipe % 32
    | none => false)
  | .emSlot _ _ => k == 39
  | .lpmHandle _ _ => k == 39
  | .flowCounter _ => k == 39
  | .parserWord n _ _ => k == 7 + n.val
  | .programWord n _ _ _ _ => k == 7 + n.val % 32
  | .tcamEntry _ => k == 40
  | .meter _ => k == 41
  | .voq _ => k == 42
  | .cell _ => k == 43 || k == 44
  | .batchHeader _ _ => k == 45
  | .cxlRead port _ _ => k == 46 + port.val
  | .cxlWrite port => k == 46 + port.val
  | .archiveAccess port _ => k == 46 + port.val
  | .tableJob _ => 46 ≤ k && k ≤ 49
  | .egrQueue _ _ => k == 50
  | .gatherCtx _ _ _ => k == 52
  | .ring _ => k == 54
  | .channel _ => k == 55
  | .core _ => k == 56
  | .word off => wordCollector off.toNat == some k
  | .histWord _ _ => k == 51
  | .recordWord _ _ => k == 58
  | .otpWord _ => k == 58

/-- A copy is freed where it stands; the spec names no place of the drop for its record (log 2). -/
def Dev.freeCopy (d : Dev) (c : Copy) : Dev :=
  let (v, d) := d.free
  ((d.finalRecord c 0x51 (leBytes 2 v.toNat)).unbatch c.uid).dropCopy c.uid

/-- A stored frame with a bad cell: copies not yet started are freed, one in transmission leaves stomped, and an undecided
frame is freed at its end. The safe state frees no stored frame (R408). -/
def Dev.badCell (d : Dev) (u : Nat) : Dev :=
  let d := d.modPkt u (fun p => { p with bad := true })
  if d.safe then d
  else (d.dp.copies.filter (fun c => c.pkt == u && c.loc != .sending)).foldl (fun d c => d.freeCopy c) d

/-- Every frame of VOQ `v` is freed, but in the safe state (R408). -/
def Dev.freeVoq (d : Dev) (v : Nat) : Dev :=
  if d.safe then d
  else (d.dp.copies.filter (fun c => c.queue == v && (c.loc == .voq || c.loc == .sump || c.loc == .chosen))).foldl
    (fun d c => d.freeCopy c) d

/-- A batch that is being read comes back with the frames of `lost` dropped under reason `r`; in the safe state the Sump keeps what it
holds (R408). -/
def Dev.batchHit (d : Dev) (n : Nat) (b : Batch) (r : Nat) (lost : List Nat) : Dev :=
  if d.safe then d else
  let d := d.modBatch n b.seq (fun b => { b with at_ := .returned })
  let d := lost.foldl (fun d u => d.loseCopy r u) d
  (d.refitBatch b).linkBack n

/-- The oldest batch of port `k` that is in a state: with its context's number. -/
def Dev.batchOn (d : Dev) (k : Nat) (at_ : BatchAt) : Option (Nat × Batch) :=
  d.sump.ctxs.findSome? (fun x => (x.batches.find? (fun b => b.at_ == at_ && (match b.extent with
    | some e => d.extentPort e == k
    | none => false))).map (fun b => (x.num, b)))

/-- A memory of the Sump controller in error acts as a poisoned batch header (R199): every frame of the batch is lost. -/
def Dev.badHeader (d : Dev) (n seq : Nat) : Dev :=
  match d.batch n seq with
  | some b =>
    if b.at_ = .reading then
      let k := d.extentPort (b.extent.getD 0)
      (d.batchHit n b 0 (b.segs.map (fun s => s.copy))).sumpFault 0x40 k
    else d
  | none => d

/-- A read transfer of CXL port `k` in error: poison in the lines concerned. -/
def Dev.badRead (d : Dev) (k : Nat) (cells : List Nat) (lines : Nat) : Dev :=
  match d.batchOn k .reading with
  | some (n, b) =>
    let d := d.cxlPoison k lines
    (d.batchHit n b 0 (b.poisoned cells [])).sumpFault 0x40 k
  | none => d

/-- A write transfer of CXL port `k` in error: as an error completion of the batch's write. -/
def Dev.badWrite (d : Dev) (k : Nat) : Dev :=
  match d.batchOn k .writing with
  | some (n, b) =>
    ((d.wr F.CXL_ERR_UNCOR [k] 1).batchHit n b 2 (b.segs.map (fun s => s.copy))).sumpFault 0x42 k
  | none => d

/-- A table job ends with POISONED (R183). -/
def Dev.badTableJob (d : Dev) (id : Nat) : Dev :=
  { d with tbl := { d.tbl with jobs := d.tbl.jobs.map (fun j =>
      if j.job = id && j.sump && j.ended.isNone then { j with clearing := false, ended := some 8 } else j) } }

/-- A meter in error: its buckets full, its byte counts 0. -/
def Dev.badMeter (d : Dev) (i : Nat) : Dev :=
  let m := d.meter i
  d.setMeter i { m with
    tc := d.mtrCbs m.profile, te := d.mtrEbs m.profile, at_ := d.rst.mono, green := 0, yellow := 0, red := 0 }

/-- Scheduler or Lehr state of queue (p, q) in error: D returns to 0, and the queue is eligible on the Lehr at once. -/
def Dev.badQueue (d : Dev) (p q : Nat) : Dev :=
  let e := d.egrPort p
  let d := d.setEgrPort p { e with deficit := Sparse.set 0 e.deficit q 0 }
  d.setLehrQ p q { d.lehrQ p q with e := d.lehrNow, wheel := none, x := 0 }

/-- A context in error fails, as when STRAG_US passes with STRAG_ACT = 0; the safe state holds every context (R408). -/
def Dev.badCtx (d : Dev) (slot step seq : Nat) : Dev :=
  if d.safe then d
  else match d.ctxOwner slot step seq with
  | some (g, o, c) => if c.at_ = .failed then d else d.abortOp g o
  | none => d

/-- A word of a register in error reads 0 from then on: it is 0 now, and a value that is written to it, by software or by the block,
is 0 again at once (`Dev.latched`, log 267). -/
def Dev.badWord (d : Dev) (off : Nat) : Dev :=
  match locate off with
  | some p =>
    let w : DeadWord := { off := off, key := p.reg.key p.ix, reset := p.reg.resetWord p.ix, high := p.high }
    { d with regs := w.clear d.regs, comm := w.clear d.comm, spl := { d.spl with dead := w :: d.spl.dead } }
  | none => d

/-- A dword of a place of the record buffer in error: the record that stands there, and each later one, has 0 in it. -/
def Dev.badRecord (d : Dev) (place i : Nat) : Dev :=
  { d with spl := { d.spl with
    deadRec := (place, i) :: d.spl.deadRec
    records := d.spl.records.map (fun r => if r.seq % 2048 = place then { r with zeroed := i :: r.zeroed } else r) } }

/-- A core takes a bus error, and its firmware restarts it. -/
def Dev.badCore (d : Dev) (k : Nat) : Dev := ((d.emit (.busError k)).restartCore k).checkHandover

/-- A word of a program bank stays bad until it is rewritten. -/
def Dev.badProgram (d : Dev) (src n bank target stage i : Nat) : Dev :=
  match progTarget n target stage i with
  | some (off, _) => { d with dp := { d.dp with
      badProg := Sparse.set 0 d.dp.badProg ((2 * n + bank) * 65536 + off) src } }
  | none => d

/-- The effect of an uncorrected error of source `src` on the structure that it hit (R393). -/
def Dev.contain (d : Dev) (src : Nat) : Contained → Dev
  | .portFrame p => if d.wireArriving p.val then d.markArriving p.val .errored false else d.markNext p.val 1 .errored
  | .auxFrame p => if (d.auxRx p.val).active then d.setAuxRx p.val { d.auxRx p.val with bad := true } else d
  | .packet u => (match d.pass u with
    | some x => d.setPass { x with bad := true }
    | none => d)
  | .emSlot b i => d.setEm b.val i.val (emClear (d.em b.val i.val))
  | .lpmHandle b i => d.clearLpm b.val i.val
  | .flowCounter i => { d with tbl := { d.tbl with ctrBad := i.val :: d.tbl.ctrBad } }
  | .parserWord n b i => { d with dp := { d.dp with badPrs := Sparse.set 0 d.dp.badPrs (prsAt n.val b.val i.val) src } }
  | .programWord n b t st i => d.badProgram src n.val b.val t.val st.val i.val
  | .tcamEntry i => { d with tbl := { d.tbl with
      tcam := Sparse.set 0 d.tbl.tcam i.val (putBit (Sparse.get 0 d.tbl.tcam i.val) 735 false) } }
  | .meter i => d.badMeter i.val
  | .voq v => d.freeVoq v.val
  | .cell u => d.badCell u
  | .batchHeader n seq => d.badHeader n seq
  | .cxlRead k cells lines => d.badRead k.val (cells.map (fun (c : Fin 64) => c.val)) lines.val
  | .cxlWrite k => d.badWrite k.val
  | .archiveAccess _ core => d.emit (.busError core.val)
  | .tableJob id => d.badTableJob id
  | .egrQueue p q => d.badQueue p.val q.val
  | .gatherCtx slot step seq => d.badCtx slot.val step.toNat seq.toNat
  | .ring n => d.setRing n.val { d.ring n.val with err := true, phTry := 0 }
  | .channel c => d.mbxClear c.val
  | .core k => d.badCore k.val
  | .word off => d.badWord off.toNat
  | .histWord e i => { d with tlm := { d.tlm with deadHist := (e.val, i.val) :: d.tlm.deadHist } }
  | .recordWord place i => d.badRecord place.val i.val
  | .otpWord w => { d with otp := { d.otp with dead := w :: d.otp.dead } }

/-- A common source whose faults R393 contains: MEM_UC, CFG_PAR, INT_TIMEOUT (R392). -/
def containedSource (src : Nat) : Bool := src == 2 || src == 3 || src == 7

/-- The fault whose structure is `h`: a contained source, whose word address is the slot index or the unit handle where the
structure is one (R393). -/
def hitBy (h : Contained) (f : FaultIn) : Bool :=
  containedSource f.src && (match h with
    | .emSlot _ i => f.syn % 2 ^ 24 == i.val
    | .lpmHandle _ i => f.syn % 2 ^ 24 == i.val
    | _ => true)

/-- A structure in error, of collector `k`, with the faults `fs` of its clock. -/
def Dev.containOne (d : Dev) (k : Nat) (fs : List FaultIn) (h : Contained) : Dev :=
  match fs.find? (fun f => hitBy h f) with
  | some f => if d.contains k h then d.contain f.src h else d
  | none => d

/-! ## Commands -/

/-- The pending injection is in collector `k`. -/
def Dev.injPendsAt (d : Dev) (k : Nat) : Bool :=
  match d.spl.inj with
  | some (j, _, _) => j == k
  | none => false

/-- The real faults of one clock in collector `k`, with an injected one that waits for the same clock there. -/
def Dev.raiseReal (d : Dev) (k : Nat) (fs : List FaultIn) : Dev :=
  if d.injPendsAt k then d.presentInjection fs else d.raiseAll k fs

/-- The effect of a source beyond its record: MACRO_PLL of a lane die takes the macro's ports down (R394). -/
def Dev.sourceActs (d : Dev) (k : Nat) (f : FaultIn) : Dev :=
  if 2 ≤ k && k ≤ 5 && f.src == 0x40 && f.syn % 256 / 32 == k - 2 then d.macroPllLost (f.syn % 256) else d

/-- The faults of one clock in one collector, as the command gives them. -/
def faultsIn (l : List (BitVec 8 × BitVec 32)) : List FaultIn :=
  l.map (fun f => { src := f.1.toNat, syn := f.2.toNat, inj := false })

/-- The faults of collector `k` are contained in the structures that they hit. -/
def Dev.containAt (d : Dev) (k : Nat) (fs : List FaultIn) (hit : List Contained) : Dev :=
  if d.collectorLive k then hit.foldl (fun d h => d.containOne k fs h) d else d

/-- The faults of collector `k` are raised, and act beyond their records. -/
def Dev.raiseAt (d : Dev) (k : Nat) (fs : List FaultIn) : Dev :=
  fs.foldl (fun d f => d.sourceActs k f) (d.raiseReal k fs)

/-- FAULT_RAISE: sources of collector `k`, and of the further collectors, fire in one clock, the lowest collector number first
(R400); an uncorrected error is contained in the structures it hit. -/
def execFaultRaise (k : Fin 61) (faults : FaultClock) (hit : List Contained) (s : State) : Host.Outcome State Fault Refusal :=
  s.run (fun d =>
    let all := (k.val, faultsIn faults.own) :: faults.others.map (fun x => (x.1.val, faultsIn x.2))
    all.foldl (fun d x => d.raiseAt x.1 x.2) (all.foldl (fun d x => d.containAt x.1 x.2 hit) d))

/-- FAULT_INJECT: a write of SPL_INJ[k] with GO = 1. -/
def execFaultInject (m : Master) (k : Fin 61) (v : BitVec 32) (s : State) : Host.Outcome State Fault Refusal :=
  s.run (fun d =>
    if splWriter m && bitAt v.toNat 31 then
      d.access m (R.SPL_INJ.bar0At k.val) v.toNat (fun d => d.splInj k.val v.toNat)
    else d)

/-- LATCH_CLEAR: a write of 1 to SPL_LATCH[k].VALID, which lies in the latch's high dword. -/
def execLatchClear (m : Master) (k : Fin 61) (s : State) : Host.Outcome State Fault Refusal :=
  s.run (fun d =>
    if splWriter m then
      d.access m (R.SPL_LATCH.bar0At k.val + 4) 0x80000000
        (fun d => if d.on F.SPL_LATCH_VALID [k.val] then d.clearLatch k.val else d)
    else d)

/-- FORCE_SAFE: a write of SPL_CTL.FORCE_SAFE = 1. -/
def execForceSafe (m : Master) (s : State) : Host.Outcome State Fault Refusal :=
  s.run (fun d =>
    if splWriter m || m == .bmc then d.access m R.SPL_CTL.bar0 1 (fun d => d.splCtl 1) else d)

/-- COLL_PAR: a parity error in a collector's registers: it is broken, and its latch and counters are cleared; one whose counter is in
error counts no more (R405). -/
def execCollPar (e : ParityError) (s : State) : Host.Outcome State Fault Refusal :=
  s.run (fun d =>
    let k := e.collector
    let d := if e.counter then { d with spl := { d.spl with badCnt := k.val :: d.spl.badCnt.filter (fun j => j != k.val) } } else d
    let d := d.wr F.SPL_STAT2_BROKEN [] (putBit (d.rd F.SPL_STAT2_BROKEN []) k.val true)
    let d := (d.clearLatch k.val).setRaw R.SPL_INJ_CNT [k.val] 0
    let d := (List.range 4).foldl (fun d i => d.setRaw R.SPL_CNT [k.val, i] 0) d
    d.raise 60 0x40 k.val)

/-- ROOT_CHECK: the two copies of collector 60 disagree (R405). -/
def execRootCheck (s : State) : Host.Outcome State Fault Refusal :=
  s.run (fun d => d.raise 60 0x42 0)

end Sys2Proof.Machine
end

