-- ==== Sys2Proof/Machine/Dispatch.lean ====
section
/-!
DEFINITION. What each command does: one arm per constructor of `Instr`, in the order of spec/opcode_table.json.
-/

namespace Sys2Proof.Machine

def exec (i : Instr) (s : State) : Host.Outcome State Fault Refusal :=
  match i with
  | .regWrite m off wide v others => Sys2Proof.Machine.execRegWrite m off wide v others s
  | .rcRead m bar off wide others => Sys2Proof.Machine.execRcRead m bar off wide others s
  | .lowDwordRead m bar off wide => Sys2Proof.Machine.execLowDwordRead m bar off wide s
  | .highDwordRead m bar off => Sys2Proof.Machine.execHighDwordRead m bar off s
  | .lowDwordWrite m off v => Sys2Proof.Machine.execLowDwordWrite m off v s
  | .highDwordWrite m off v => Sys2Proof.Machine.execHighDwordWrite m off v s
  | .reservedOffsetAccess m off write wide => Sys2Proof.Machine.execReservedOffsetAccess m off write wide s
  | .badSizeAccess m bar off write => Sys2Proof.Machine.execBadSizeAccess m bar off write s
  | .bar4Write m off => Sys2Proof.Machine.execBar4Write m off s
  | .cfgCommit m win => Sys2Proof.Machine.execCfgCommit m win s
  | .commitApply win => Sys2Proof.Machine.execCommitApply win s
  | .d2dReplay k link => Sys2Proof.Machine.execD2dReplay k link s
  | .d2dFail k link => Sys2Proof.Machine.execD2dFail k link s
  | .pdRequest m k v => Sys2Proof.Machine.execPdRequest m k v s
  | .pdTransitionDone => Sys2Proof.Machine.execPdTransitionDone s
  | .qryGroupDrained g => Sys2Proof.Machine.execQryGroupDrained g s
  | .anlPeriod cores avsAck => Sys2Proof.Machine.execAnlPeriod cores avsAck s
  | .pubGap => Sys2Proof.Machine.execPubGap s
  | .refclkALoss => Sys2Proof.Machine.execRefclkALoss s
  | .refclkOutOfRange b => Sys2Proof.Machine.execRefclkOutOfRange b s
  | .signalLoss p => Sys2Proof.Machine.execSignalLoss p s
  | .linkUpChange p localFault remoteFault => Sys2Proof.Machine.execLinkUpChange p localFault remoteFault s
  | .fecCodeword p r hiSer rxLpi degRem skew => Sys2Proof.Machine.execFecCodeword p r hiSer rxLpi degRem skew s
  | .fecDegInterval p => Sys2Proof.Machine.execFecDegInterval p s
  | .rateMatch p insert => Sys2Proof.Machine.execRateMatch p insert s
  | .rmOvf p => Sys2Proof.Machine.execRmOvf p s
  | .lpiEnter p => Sys2Proof.Machine.execLpiEnter p s
  | .lpiWake p => Sys2Proof.Machine.execLpiWake p s
  | .bringupStart p => Sys2Proof.Machine.execBringupStart p s
  | .laneReady p => Sys2Proof.Machine.execLaneReady p s
  | .anResolve p => Sys2Proof.Machine.execAnResolve p s
  | .ltComplete p taps => Sys2Proof.Machine.execLtComplete p taps s
  | .adaptTracking p meas => Sys2Proof.Machine.execAdaptTracking p meas s
  | .alignLock p skew => Sys2Proof.Machine.execAlignLock p skew s
  | .bringupTimeout p => Sys2Proof.Machine.execBringupTimeout p s
  | .bringupRetry p => Sys2Proof.Machine.execBringupRetry p s
  | .adaptFreeze n why => Sys2Proof.Machine.execAdaptFreeze n why s
  | .adaptUnfreeze n why => Sys2Proof.Machine.execAdaptUnfreeze n why s
  | .adaptRestart m n => Sys2Proof.Machine.execAdaptRestart m n s
  | .auxCodeGroup l cg => Sys2Proof.Machine.execAuxCodeGroup l cg s
  | .auxRateMatch p insert => Sys2Proof.Machine.execAuxRateMatch p insert s
  | .auxTdensWindow l transitions => Sys2Proof.Machine.execAuxTdensWindow l transitions s
  | .headerSlot p src sameClock => Sys2Proof.Machine.execHeaderSlot p src sameClock s
  | .macControlTerminate p frame => Sys2Proof.Machine.execMacControlTerminate p frame s
  | .nop pass => Sys2Proof.Machine.execNop pass s
  | .set pass => Sys2Proof.Machine.execSet pass s
  | .add pass => Sys2Proof.Machine.execAdd pass s
  | .sub pass => Sys2Proof.Machine.execSub pass s
  | .and pass => Sys2Proof.Machine.execAnd pass s
  | .or pass => Sys2Proof.Machine.execOr pass s
  | .xor pass => Sys2Proof.Machine.execXor pass s
  | .fwdPort pass => Sys2Proof.Machine.execFwdPort pass s
  | .fwdMc pass => Sys2Proof.Machine.execFwdMc pass s
  | .fwdHost pass => Sys2Proof.Machine.execFwdHost pass s
  | .copyHost pass => Sys2Proof.Machine.execCopyHost pass s
  | .drop pass => Sys2Proof.Machine.execDrop pass s
  | .meter pass => Sys2Proof.Machine.execMeter pass s
  | .count pass => Sys2Proof.Machine.execCount pass s
  | .mirror pass => Sys2Proof.Machine.execMirror pass s
  | .learn pass => Sys2Proof.Machine.execLearn pass s
  | .hash pass => Sys2Proof.Machine.execHash pass s
  | .skip pass => Sys2Proof.Machine.execSkip pass s
  | .insert4 pass => Sys2Proof.Machine.execInsert4 pass s
  | .remove pass => Sys2Proof.Machine.execRemove pass s
  | .decTtl pass => Sys2Proof.Machine.execDecTtl pass s
  | .insertIoam pass => Sys2Proof.Machine.execInsertIoam pass s
  | .ingressEnd pass => Sys2Proof.Machine.execIngressEnd pass s
  | .copyAbandon copy => Sys2Proof.Machine.execCopyAbandon copy s
  | .frameEndChecks pkt tail mark => Sys2Proof.Machine.execFrameEndChecks pkt tail mark s
  | .ctCandidate pkt more => Sys2Proof.Machine.execCtCandidate pkt more s
  | .ctStomp copy => Sys2Proof.Machine.execCtStomp copy s
  | .wredAvgUpdate => Sys2Proof.Machine.execWredAvgUpdate s
  | .pfcEval => Sys2Proof.Machine.execPfcEval s
  | .pfcFrameSend p => Sys2Proof.Machine.execPfcFrameSend p s
  | .pfcResend p => Sys2Proof.Machine.execPfcResend p s
  | .schedDecision p => Sys2Proof.Machine.execSchedDecision p s
  | .egressEnter n sameClock => Sys2Proof.Machine.execEgressEnter n sameClock s
  | .egressEnd pass => Sys2Proof.Machine.execEgressEnd pass s
  | .ctFallback copy => Sys2Proof.Machine.execCtFallback copy s
  | .frameTransmit copy => Sys2Proof.Machine.execFrameTransmit copy s
  | .copyReadDone copy => Sys2Proof.Machine.execCopyReadDone copy s
  | .lehrSlot => Sys2Proof.Machine.execLehrSlot s
  | .lehrRateWrite m p q burst v => Sys2Proof.Machine.execLehrRateWrite m p q burst v s
  | .gateIntervalEnd p => Sys2Proof.Machine.execGateIntervalEnd p s
  | .gclSwitchReq m p v => Sys2Proof.Machine.execGclSwitchReq m p v s
  | .gclSwitch p => Sys2Proof.Machine.execGclSwitch p s
  | .gclWr m v => Sys2Proof.Machine.execGclWr m v s
  | .gclRd m v => Sys2Proof.Machine.execGclRd m v s
  | .pfcRx p => Sys2Proof.Machine.execPfcRx p s
  | .pauseRx p => Sys2Proof.Machine.execPauseRx p s
  | .ctlFrameBad p => Sys2Proof.Machine.execCtlFrameBad p s
  | .pauseTimerExpiry p pri => Sys2Proof.Machine.execPauseTimerExpiry p pri s
  | .pfcwdPeriod => Sys2Proof.Machine.execPfcwdPeriod s
  | .flushStart p => Sys2Proof.Machine.execFlushStart p s
  | .flushDrop n => Sys2Proof.Machine.execFlushDrop n s
  | .mtrRead m v => Sys2Proof.Machine.execMtrRead m v s
  | .mtrWrite m v => Sys2Proof.Machine.execMtrWrite m v s
  | .mtrClear m v => Sys2Proof.Machine.execMtrClear m v s
  | .prsStWr m n v => Sys2Proof.Machine.execPrsStWr m n v s
  | .prsStRd m n v => Sys2Proof.Machine.execPrsStRd m n v s
  | .pipeIdxWr m n v => Sys2Proof.Machine.execPipeIdxWr m n v s
  | .pipeIdxRd m n v => Sys2Proof.Machine.execPipeIdxRd m n v s
  | .tblRead m v => Sys2Proof.Machine.execTblRead m v s
  | .tblWrite m v => Sys2Proof.Machine.execTblWrite m v s
  | .tblInsert m v => Sys2Proof.Machine.execTblInsert m v s
  | .tblDelete m v => Sys2Proof.Machine.execTblDelete m v s
  | .tblSearch m v => Sys2Proof.Machine.execTblSearch m v s
  | .tblNext m v => Sys2Proof.Machine.execTblNext m v s
  | .flushByPort m v => Sys2Proof.Machine.execFlushByPort m v s
  | .deleteIfIdle m v => Sys2Proof.Machine.execDeleteIfIdle m v s
  | .tblCmdDone => Sys2Proof.Machine.execTblCmdDone s
  | .relocationMove b => Sys2Proof.Machine.execRelocationMove b s
  | .learnTake => Sys2Proof.Machine.execLearnTake s
  | .learnEventResume slots => Sys2Proof.Machine.execLearnEventResume slots s
  | .stampTick => Sys2Proof.Machine.execStampTick s
  | .stampTickWrite m v => Sys2Proof.Machine.execStampTickWrite m v s
  | .dualwrEnable m v => Sys2Proof.Machine.execDualwrEnable m v s
  | .inject src => Sys2Proof.Machine.execInject src s
  | .rxPost n => Sys2Proof.Machine.execRxPost n s
  | .gatherGroupSet n r => Sys2Proof.Machine.execGatherGroupSet n r s
  | .gatherGroupClear n => Sys2Proof.Machine.execGatherGroupClear n s
  | .gatherOp n => Sys2Proof.Machine.execGatherOp n s
  | .tableBulkLoad n hdr => Sys2Proof.Machine.execTableBulkLoad n hdr s
  | .bulkClearDone t => Sys2Proof.Machine.execBulkClearDone t s
  | .bulkRecord t r => Sys2Proof.Machine.execBulkRecord t r s
  | .tableBulkDump n => Sys2Proof.Machine.execTableBulkDump n s
  | .tableBankSwap n => Sys2Proof.Machine.execTableBankSwap n s
  | .tlmPost n => Sys2Proof.Machine.execTlmPost n s
  | .fence n => Sys2Proof.Machine.execFence n s
  | .tableJobDone => Sys2Proof.Machine.execTableJobDone s
  | .cxlEnumerate m k v => Sys2Proof.Machine.execCxlEnumerate m k v s
  | .cxlEnumComplete k r => Sys2Proof.Machine.execCxlEnumComplete k r s
  | .cxlRetrain m k v => Sys2Proof.Machine.execCxlRetrain m k v s
  | .cxlDisable m k v => Sys2Proof.Machine.execCxlDisable m k v s
  | .batchClose ctx => Sys2Proof.Machine.execBatchClose ctx s
  | .batchWriteIssue => Sys2Proof.Machine.execBatchWriteIssue s
  | .batchWriteDone ctx seq ok => Sys2Proof.Machine.execBatchWriteDone ctx seq ok s
  | .batchReadIssue => Sys2Proof.Machine.execBatchReadIssue s
  | .batchReadReturn ctx seq r => Sys2Proof.Machine.execBatchReadReturn ctx seq r s
  | .spillFold ctx => Sys2Proof.Machine.execSpillFold ctx s
  | .spillEnd ctx => Sys2Proof.Machine.execSpillEnd ctx s
  | .cxlLinkDown k => Sys2Proof.Machine.execCxlLinkDown k s
  | .cxlViral k => Sys2Proof.Machine.execCxlViral k s
  | .cxlFlitReplay k => Sys2Proof.Machine.execCxlFlitReplay k s
  | .gatherContrib k => Sys2Proof.Machine.execGatherContrib k s
  | .gatherAck k => Sys2Proof.Machine.execGatherAck k s
  | .stepDispatch => Sys2Proof.Machine.execStepDispatch s
  | .nakTimer slot step seq => Sys2Proof.Machine.execNakTimer slot step seq s
  | .stragglerExpiry slot step seq => Sys2Proof.Machine.execStragglerExpiry slot step seq s
  | .holdExpiry slot step => Sys2Proof.Machine.execHoldExpiry slot step s
  | .pmbWindow reads words => Sys2Proof.Machine.execPmbWindow reads words s
  | .pmbAlert => Sys2Proof.Machine.execPmbAlert s
  | .hintExpiry job => Sys2Proof.Machine.execHintExpiry job s
  | .hintDispatchRelease job => Sys2Proof.Machine.execHintDispatchRelease job s
  | .droopFire die => Sys2Proof.Machine.execDroopFire die s
  | .stretchEnd die => Sys2Proof.Machine.execStretchEnd die s
  | .droopWindow => Sys2Proof.Machine.execDroopWindow s
  | .guardFall => Sys2Proof.Machine.execGuardFall s
  | .sensorConvert readings => Sys2Proof.Machine.execSensorConvert readings s
  | .thermCritExit => Sys2Proof.Machine.execThermCritExit s
  | .rdiodeRead t0 t1 => Sys2Proof.Machine.execRdiodeRead t0 t1 s
  | .sagEnter ioLow aonLow flashBusy => Sys2Proof.Machine.execSagEnter ioLow aonLow flashBusy s
  | .sagRelease => Sys2Proof.Machine.execSagRelease s
  | .timeSet m => Sys2Proof.Machine.execTimeSet m s
  | .timeStep m => Sys2Proof.Machine.execTimeStep m s
  | .tlmFlush k => Sys2Proof.Machine.execTlmFlush k s
  | .qsSweep => Sys2Proof.Machine.execQsSweep s
  | .histLatchRead m => Sys2Proof.Machine.execHistLatchRead m s
  | .pmcWrap pass pc => Sys2Proof.Machine.execPmcWrap pass pc s
  | .pmcSnap m v => Sys2Proof.Machine.execPmcSnap m v s
  | .pmcSnapPeriodic => Sys2Proof.Machine.execPmcSnapPeriodic s
  | .ipfixExport => Sys2Proof.Machine.execIpfixExport s
  | .ipfixTemplateRefresh => Sys2Proof.Machine.execIpfixTemplateRefresh s
  | .sqDb m page v wide => Sys2Proof.Machine.execSqDb m page v wide s
  | .cqDb m page v wide => Sys2Proof.Machine.execCqDb m page v wide s
  | .reservedDoorbell m page off write wide => Sys2Proof.Machine.execReservedDoorbell m page off write wide s
  | .sqFetch n r => Sys2Proof.Machine.execSqFetch n r s
  | .sqPoll n r => Sys2Proof.Machine.execSqPoll n r s
  | .ownerPoll n r => Sys2Proof.Machine.execOwnerPoll n r s
  | .phRetry n r => Sys2Proof.Machine.execPhRetry n r s
  | .fetchFault n r => Sys2Proof.Machine.execFetchFault n r s
  | .jobDispatch frags => Sys2Proof.Machine.execJobDispatch frags s
  | .completionWrite slotFree => Sys2Proof.Machine.execCompletionWrite slotFree s
  | .cqStallTimeout m => Sys2Proof.Machine.execCqStallTimeout m s
  | .irqTimer m => Sys2Proof.Machine.execIrqTimer m s
  | .hostRxDeliver => Sys2Proof.Machine.execHostRxDeliver s
  | .sqShutdown m n => Sys2Proof.Machine.execSqShutdown m n s
  | .sqShutdownEnd n => Sys2Proof.Machine.execSqShutdownEnd n s
  | .cqDisable m n => Sys2Proof.Machine.execCqDisable m n s
  | .cqDisableEffect n => Sys2Proof.Machine.execCqDisableEffect n s
  | .ringReset m n => Sys2Proof.Machine.execRingReset m n s
  | .vfReset cause => Sys2Proof.Machine.execVfReset cause s
  | .hifReset cause => Sys2Proof.Machine.execHifReset cause s
  | .hifResetDone => Sys2Proof.Machine.execHifResetDone s
  | .busMasterEnable fn enable msiVectors cfg => Sys2Proof.Machine.execBusMasterEnable fn enable msiVectors cfg s
  | .poisonedTlp fn => Sys2Proof.Machine.execPoisonedTlp fn s
  | .pcieLinkDown => Sys2Proof.Machine.execPcieLinkDown s
  | .mbxSend m c len => Sys2Proof.Machine.execMbxSend m c len s
  | .mbxAck m c seq => Sys2Proof.Machine.execMbxAck m c seq s
  | .mbxReset m c => Sys2Proof.Machine.execMbxReset m c s
  | .mbxTimeout c => Sys2Proof.Machine.execMbxTimeout c s
  | .mbxBindChange m c enable sender receiver => Sys2Proof.Machine.execMbxBindChange m c enable sender receiver s
  | .mbxLockAcquire m k => Sys2Proof.Machine.execMbxLockAcquire m k s
  | .mbxLockRelease m k => Sys2Proof.Machine.execMbxLockRelease m k s
  | .mbxLockForce m k => Sys2Proof.Machine.execMbxLockForce m k s
  | .svcHalt m k halt => Sys2Proof.Machine.execSvcHalt m k halt s
  | .svcReset m k => Sys2Proof.Machine.execSvcReset m k s
  | .linkHandover => Sys2Proof.Machine.execLinkHandover s
  | .systemPing c => Sys2Proof.Machine.execSystemPing c s
  | .systemVersion c => Sys2Proof.Machine.execSystemVersion c s
  | .rollbackCommit c => Sys2Proof.Machine.execRollbackCommit c s
  | .setConfig c => Sys2Proof.Machine.execSetConfig c s
  | .health c data => Sys2Proof.Machine.execHealth c data s
  | .eventLog c data => Sys2Proof.Machine.execEventLog c data s
  | .fwUpdate c off bytes poison ok => Sys2Proof.Machine.execFwUpdate c off bytes poison ok s
  | .flashWrite c addr bytes ok => Sys2Proof.Machine.execFlashWrite c addr bytes ok s
  | .faultlogRead c => Sys2Proof.Machine.execFaultlogRead c s
  | .faultlogStatus c => Sys2Proof.Machine.execFaultlogStatus c s
  | .faultlogErase c => Sys2Proof.Machine.execFaultlogErase c s
  | .faultlogFlush readBackGood => Sys2Proof.Machine.execFaultlogFlush readBackGood s
  | .bootRom a b => Sys2Proof.Machine.execBootRom a b s
  | .bootGo m => Sys2Proof.Machine.execBootGo m s
  | .otpProgram m => Sys2Proof.Machine.execOtpProgram m s
  | .otpProgramDone => Sys2Proof.Machine.execOtpProgramDone s
  | .faultRaise k faults hit => Sys2Proof.Machine.execFaultRaise k faults hit s
  | .faultInject m k v => Sys2Proof.Machine.execFaultInject m k v s
  | .latchClear m k => Sys2Proof.Machine.execLatchClear m k s
  | .forceSafe m => Sys2Proof.Machine.execForceSafe m s
  | .collPar e => Sys2Proof.Machine.execCollPar e s
  | .rootCheck => Sys2Proof.Machine.execRootCheck s
  | .powerOnReset cause => Sys2Proof.Machine.execPowerOnReset cause s
  | .supplyFail supply => Sys2Proof.Machine.execSupplyFail supply s
  | .cold m v => Sys2Proof.Machine.execCold m v s
  | .warm m v => Sys2Proof.Machine.execWarm m v s
  | .sysRstNLow => Sys2Proof.Machine.execSysRstNLow s
  | .resetRelease smbAddr spiSlow boot => Sys2Proof.Machine.execResetRelease smbAddr spiSlow boot s
  | .initDone => Sys2Proof.Machine.execInitDone s
  | .perstNRise width speed flit => Sys2Proof.Machine.execPerstNRise width speed flit s
  | .bmcAddr off badPec => Sys2Proof.Machine.execBmcAddr off badPec s
  | .bmcWrite v badPec => Sys2Proof.Machine.execBmcWrite v badPec s
  | .bmcRead => Sys2Proof.Machine.execBmcRead s
  | .bmcStatus => Sys2Proof.Machine.execBmcStatus s
  | .bmcTimeout => Sys2Proof.Machine.execBmcTimeout s
  | .i3cDaa addr => Sys2Proof.Machine.execI3cDaa addr s
  | .rstdaa => Sys2Proof.Machine.execRstdaa s
  | .jtagTapReset => Sys2Proof.Machine.execJtagTapReset s
  | .refOkRestore b => Sys2Proof.Machine.execRefOkRestore b s
  | .pmbAlertNRise => Sys2Proof.Machine.execPmbAlertNRise s
  | .cqOwnerPoll m free => Sys2Proof.Machine.execCqOwnerPoll m free s
  | .auxSignalLoss p => Sys2Proof.Machine.execAuxSignalLoss p s
  | .macroPllRelock m => Sys2Proof.Machine.execMacroPllRelock m s
  | .pcieLinkUp width speed flit => Sys2Proof.Machine.execPcieLinkUp width speed flit s
  | .enec enable => Sys2Proof.Machine.execEnec enable s

end Sys2Proof.Machine
end

