-- ==== Sys2Proof/Machine/Idle.lean ====
section
/-!
DEFINITION. What passes with one TIME clock and no command: the timebase (spec/10_telemetry_and_counters.md R294), the visit
of the queue sampler that is due (R305), the scan of a table command and the dumps (spec/04_forwarding_tables.md R124,
R145), what the service cores do of themselves (spec/12_mailboxes_and_service_cores.md R379, R381, R385), a fault injection that
waits (spec/13_spall_faults.md R401).
-/

namespace Sys2Proof.Machine

/-- One TIME clock of a device that no reset holds. The queue sampler stops in the safe state (R408). -/
def Dev.clock (d : Dev) : Dev :=
  let d := d.clockTime
  let d := { d with dp := { d.dp with mtrBusy := false } }.auxTick
  (if d.safe then d else d.sweepTick).scanTick.dumpTick.reloadTick.serveTick.ipfixTick.presentInjection []

/-- One TIME clock: the timebase counts through a warm reset, and stands during a cold or power-on reset (R418). -/
def Dev.clockAny (d : Dev) : Dev :=
  match d.rst.level with
  | none => d.clock
  | some .warm => d.clockTime
  | some _ => d

/-- The step of an empty queue (log 6). -/
def idle (s : State) : Host.Outcome State Fault Refusal := s.runAny (fun d => d.clockAny)

end Sys2Proof.Machine
end

