-- ==== Sys2Proof/Safety.lean ====
section
/-!
DEFINITION. The terms in which statements about the machine are made: a device that no reset holds, an access that is taken
at once, the next state of a command, what must never be undone.
-/

namespace Sys2Proof.Machine

/-- No reset holds the device, and no word of a register is in error (R393). -/
def Live (s : State) : Prop := s.dev.rst.level = none ∧ s.dev.spl.dead = []

/-- An access of master `m` at a BAR0 offset is taken at once: no HIF reset turns it away (R360), and the block's memories
are initialised, where it has any (R420). -/
def Takes (s : State) (m : Master) (off : Nat) : Prop :=
  s.dev.hostBlocked m = false ∧ s.dev.mustWait off = false

/-- The command answers a next state: the queue as it was, the device `d`, with what no command can undo (`Dev.latched`). -/
def Runs (c : Instr) (s : State) (d : Dev) : Prop := exec c s = .next { s with dev := Dev.latched s.dev d }

/-- The device once an instruction has left device `a.1` and packet `a.2`: the packet goes on, through the stages that have no
instruction left, and is kept. -/
def afterInsn (a : Dev × Pass) : Dev := (a.1.advance a.2 17).1.setPass (a.1.advance a.2 17).2

/-- A command that acts while a reset is held: what starts and ends resets (COLD during a warm one, R417), the reference clocks,
the levels of PERST_N and PMB_ALERT_N, and the TAP's reset. -/
def actsInReset : Instr → Bool
  | .powerOnReset _ => true
  | .refclkALoss => true
  | .supplyFail _ => true
  | .sysRstNLow => true
  | .resetRelease _ _ _ => true
  | .refclkOutOfRange _ => true
  | .refOkRestore _ => true
  | .hifReset _ => true
  | .cold _ _ => true
  | .perstNRise _ _ _ => true
  | .jtagTapReset => true
  | .pmbAlert => true
  | .pmbAlertNRise => true
  | _ => false

/-- The registers that a reset of level `l` keeps or writes itself, beside ANL_SAG (R415, R418). -/
def keptRegs : ResetLevel → List Reg
  | .warm => [R.GLB_STRAP, R.RST_CAUSE, R.RST_COUNT, R.TLM_TIME_TRIM, R.SPL_FATAL, R.SPL_FATAL_TIME, R.SPL_REC_FILL, R.SPL_REC_SEQ,
      R.SPL_REC_LOST, R.ANL_ENERGY_TOTAL]
  | _ => [R.GLB_STRAP, R.RST_CAUSE, R.RST_COUNT]

/-- An instance of register `r` at indices `ix` lies in the array of `x`. -/
def InArray (x r : Reg) (ix : List Nat) : Prop := keyWin (r.key ix) = x.win ∧ keyId (r.key ix) = x.id

/-- A programming pulse of the OTP runs. -/
def Dev.pulses (d : Dev) : Bool := d.on F.SVC_OTP_CTL_BUSY [] && !d.svc.otpWait

/-- What a reset of level `l` leaves of device `d`, as its table has it (R418): the safe state, jobs, frames, requests that wait and
domain transitions ended, the tables and stores empty, the record buffer, the time and the registers that the level keeps as they
were, ANL_STAT.ALERT at the level of its pin, and every other register, staged and committed, at reset. -/
def ResetLeft (l : ResetLevel) (d e : Dev) : Prop :=
  e.rst.level = some l ∧ e.safe = false ∧ e.rst.pdActive = none ∧ e.rst.waiting = [] ∧ e.hif.jobs = [] ∧
  e.tbl = {} ∧ e.dp = {} ∧ e.gth = {} ∧ e.sump = {} ∧ e.phy = {} ∧ e.tlm = {} ∧ e.anl = {} ∧ e.svc = {} ∧
  (∀ r ix, ¬ InArray R.ANL_SAG r ix → ¬ InArray R.ANL_STAT r ix → (∀ x ∈ keptRegs l, ¬ InArray x r ix) → e.raw r ix = State.reset.dev.raw r ix) ∧
  e.raw R.ANL_STAT [] = setBitsOf (State.reset.dev.raw R.ANL_STAT []) 9 9 (d.rd F.ANL_STAT_ALERT []) ∧
  (∀ r ix, e.rawC r ix = State.reset.dev.rawC r ix) ∧
  e.raw R.GLB_STRAP [] = d.raw R.GLB_STRAP [] ∧
  (∀ f ∈ [F.ANL_SAG_INHIBIT, F.ANL_SAG_IO_LOW, F.ANL_SAG_AON_LOW], e.rd f [] = State.reset.dev.rd f []) ∧
  e.on F.ANL_SAG_OTP_ABORT [] = (d.pulses || (l == .warm && d.on F.ANL_SAG_OTP_ABORT [])) ∧
  (d.pulses = false → e.otp = d.otp) ∧
  (l = .warm →
    e.spl.records = d.spl.records ∧ e.ns = d.ns ∧ e.frac = d.frac ∧
    e.rd F.ANL_SAG_SEEN [] = d.rd F.ANL_SAG_SEEN [] ∧ e.rd F.ANL_SAG_FLASH_UNCERTAIN [] = d.rd F.ANL_SAG_FLASH_UNCERTAIN [] ∧
    ∀ r ∈ (keptRegs .warm).drop 3, ∀ ix, e.raw r ix = d.raw r ix) ∧
  (l ≠ .warm → e.spl.records = [] ∧ e.ns = 0 ∧ e.frac = 0 ∧
    e.rd F.ANL_SAG_SEEN [] = 0 ∧ e.rd F.ANL_SAG_FLASH_UNCERTAIN [] = 0)

/-- An effect on the device, before anything is latched (`Dev.latched`), keeps the safe state: it ends only where a reset has
begun (R406). -/
def KeepsSafe (d e : Dev) : Prop := d.safe = true → e.resets = d.resets → e.safe = true

/-- An effect on the device, before anything is latched (`Dev.latched`), keeps the one-time programmable bits: a locked key field
stays locked and unchanged, and the rollback index does not fall (R389, R390). -/
def KeepsOtp (d e : Dev) : Prop :=
  (d.otp.locked = true → e.otp.locked = true ∧ e.otp.key = d.otp.key) ∧ d.otp.rollback ≤ e.otp.rollback

/-- The step from `s` answers `t`. -/
def Steps (s t : State) : Prop := step s = .next t

/-- A safe run: every step so far has answered a next state. -/
def Safe (n : Nat) (s : State) : Prop := ∃ t, Host.Core.run
  { State := State, Fault := Fault, Refusal := Refusal, step := step, reset := State.reset } n s = .next t

end Sys2Proof.Machine
end

