-- ==== Sys2Proof/Certificates/Slice0/Obligations.lean ====
section
/-!
DEFINITION. The statements about the block that the provers are asked for. `Runs c s d` says that command `c` answers a next
state from `s`: the queue as it was and the device `d`, under what no command can undo (`Dev.latched`).
-/

open Sys2Proof Sys2Proof.Machine

/-- A step runs the command at the front of the queue -/
def Obligations.StepTakesFront : Prop :=
  ∀ (c : Instr) (s : State), step { s with pending := c :: s.pending } = exec c s

/-- No command stops the machine or touches the queue, and during a reset only resets, supplies, clocks and pins act -/
def Obligations.EveryCommandAnswers : Prop :=
  (∀ (c : Instr) (s : State), ∃ d : Dev, exec c s = .next { s with dev := d }) ∧
  (∀ (c : Instr) (s : State), s.dev.rst.level.isSome = true → actsInReset c = false → exec c s = .next s)

/-- The safe state lasts until a reset -/
def Obligations.SafeStateIsOneWay : Prop :=
  (∀ (n : Nat) (s t : State), Host.Core.run Sys2Proof.core n s = .next t → s.dev.safe = true → t.dev.resets = s.dev.resets →
    t.dev.safe = true) ∧
  (∀ (d : Dev) (k : Nat) (fs : List FaultIn), KeepsSafe d (d.raiseAll k fs)) ∧
  (∀ (d : Dev) (id status r0 r1 r2 : Nat), KeepsSafe d (d.finishJob id status r0 r1 r2)) ∧
  (∀ (d : Dev) (link space : Bool), KeepsSafe d (d.hifReset link space)) ∧
  (∀ d : Dev, KeepsSafe d d.pdDone) ∧
  (∀ (d : Dev) (smb : Nat) (slow : Bool) (boot : Nat), KeepsSafe d (d.release smb slow boot)) ∧
  (∀ (d : Dev) (k : Nat), (d.enterSafe k).safe = true ∧ (d.enterSafe k).resets = d.resets) ∧
  (∀ (d : Dev) (l : ResetLevel) (cause supply mid : Nat) (aon : Bool),
    (d.beginReset l cause supply mid aon).safe = false ∧ (d.beginReset l cause supply mid aon).resets = d.resets + 1)

/-- What the one-time programmable bits hold is never undone -/
def Obligations.OtpIsKept : Prop :=
  (∀ (key : List Nat) (n : Nat) (s t : State), s.dev.otp.locked = true → s.dev.otp.key = key → n ≤ s.dev.otp.rollback →
    step s = .next t → t.dev.otp.locked = true ∧ t.dev.otp.key = key ∧ n ≤ t.dev.otp.rollback) ∧
  (∀ (d : Dev) (l : ResetLevel) (cause supply mid : Nat) (aon : Bool), KeepsOtp d (d.beginReset l cause supply mid aon)) ∧
  (∀ d : Dev, KeepsOtp d d.otpAbort) ∧
  (∀ (d : Dev) (link space : Bool), KeepsOtp d (d.hifReset link space)) ∧
  (∀ d : Dev, KeepsOtp d d.pdDone) ∧
  (∀ (d : Dev) (smb : Nat) (slow : Bool) (boot : Nat), KeepsOtp d (d.release smb slow boot)) ∧
  (∀ (d : Dev) (k : Nat) (fs : List FaultIn), KeepsOtp d (d.raiseAll k fs)) ∧
  (∀ (d : Dev) (id status r0 r1 r2 : Nat), KeepsOtp d (d.finishJob id status r0 r1 r2))

/-- The state after reset -/
def Obligations.AfterReset : Prop :=
  State.reset.pending = [] ∧ State.reset.dev.rst.level = none ∧ State.reset.dev.safe = false ∧
  (∀ r ix, State.reset.dev.raw r ix = r.resetAt (flatIndex r.dims ix 0) % 2 ^ 64) ∧
  State.reset.dev.dp.pkts = [] ∧ State.reset.dev.dp.copies = [] ∧ State.reset.dev.dp.passes = [] ∧
  State.reset.dev.sump.ctxs = [] ∧ State.reset.dev.hif.jobs = [] ∧ State.reset.dev.spl.records = [] ∧
  (∀ p, State.reset.dev.linkUp p = false) ∧ State.reset.dev.otp.rollback = 0

/-- A register field reads as written, and every other register is unchanged -/
def Obligations.RegistersReadBack : Prop :=
  ∀ (d : Dev) (f : Fld) (ix : List Nat) (v : Nat), f.hi < 64 → f.lo ≤ f.hi →
    (d.wr f ix v).rd f ix = v % 2 ^ (f.hi - f.lo + 1) ∧
    (∀ g : Fld, g.reg = f.reg → g.lo ≤ g.hi → (g.hi < f.lo ∨ f.hi < g.lo) → (d.wr f ix v).rd g ix = d.rd g ix) ∧
    (∀ r jx, r.key jx ≠ f.reg.key ix → (d.wr f ix v).raw r jx = d.raw r jx) ∧
    (∀ r jx, (d.wr f ix v).rawC r jx = d.rawC r jx) ∧
    (f.hi - f.lo < 32 → (d.inc f ix).rd f ix = min (2 ^ (f.hi - f.lo + 1) - 1) (d.rd f ix + 1)) ∧
    (f.hi - f.lo = 63 → (d.inc f ix).rd f ix = (d.rd f ix + 1) % 2 ^ 64)

/-- REG_WRITE and the two halves of a 64-bit register. Rests on choices of the model: log 102 (DESIGN CHOICE). -/
def Obligations.RegisterWrites : Prop :=
  (∀ (s : State) (m : Master) (off : BitVec 26) (p : Spot), Live s → Takes s m off.toNat → m ≠ .jtag → hasWindow m = true →
    locate off.toNat = some p → s.dev.mbxAway off.toNat = false → off.toNat % 4 = 0 →
    (∀ v : Word, p.reg.wide = false →
      Runs (.regWrite m off false v []) s (s.dev.writeReg m p.reg p.ix (v.toNat % 2 ^ 32) 31 0)) ∧
    (p.reg.wide = true → s.dev.reaches m p.reg p.ix = true →
      let d := s.dev.dropOthers m.mid (p.reg.at_ p.ix)
      let key := p.reg.at_ p.ix
      (∀ v : Word, p.high = false → off.toNat % 8 = 0 → Runs (.regWrite m off true v []) s (d.writeReg m p.reg p.ix v.toNat 63 0)) ∧
      (∀ v : BitVec 32, p.high = false →
        Runs (.lowDwordWrite m off v) s { d with holds := Sparse.put d.holds m.mid (some (key, v.toNat)) }) ∧
      (∀ (v : BitVec 32) (low : Nat), p.high = true → Sparse.get (0, 0) d.holds m.mid = (key, low) →
        Runs (.highDwordWrite m off v) s
          ({ d with holds := Sparse.put d.holds m.mid none }.writeReg m p.reg p.ix (v.toNat * 2 ^ 32 + low) 63 0)) ∧
      (∀ v : BitVec 32, p.high = true → (Sparse.get (0, 0) d.holds m.mid).1 ≠ key →
        Runs (.highDwordWrite m off v) s (d.writeReg m p.reg p.ix (v.toNat * 2 ^ 32) 63 32)))) ∧
  (∀ (d : Dev) (m : Master) (r : Reg) (ix : List Nat) (v hi lo : Nat), r.win ≠ R.MBX_STAT.win →
    (d.regOff r ix = true → d.writeReg m r ix v hi lo = d) ∧
    (r.off ≠ 0xFF004 → d.writer m r = false → d.writeReg m r ix v hi lo = d) ∧
    (r.off = 0xFF004 → commitWriter m r.win = false → d.writeReg m r ix v hi lo = d) ∧
    (d.regOff r ix = false → r.off ≠ 0xFF004 → d.writer m r = true → d.regLocked r = true →
      d.writeReg m r ix v hi lo = d.badAccess 0 4 m.mid (r.at_ ix)) ∧
    (d.regOff r ix = false → r.off ≠ 0xFF004 → d.writer m r = true → d.regLocked r = false →
      d.writeReg m r ix v hi lo = d.store m r ix (d.shownWord r ix v) hi lo) ∧
    (d.spl.dead = [] → d.shownWord r ix v = v)) ∧
  (∀ r ∈ [R.PCS_SHAPE, R.PCS_PORT_CTL, R.PRS_CFG, R.PIPE_CFG, R.QRY_PORT_CFG, R.QRY_PFC_CFG, R.QRY_HDRM, R.QRY_Q_CFG,
      R.QRY_WRED_MIN, R.QRY_WRED_MAX, R.QRY_WRED_CTL, R.SMP_REGION, R.SMP_CLS_THR],
    ∀ (d : Dev) (m : Master) (ix : List Nat) (v hi lo : Nat), d.store m r ix v hi lo = d.plain r ix v hi lo ∧ d.writer m r = isPfSvc m) ∧
  (∀ (r : Reg) (old v hi lo : Nat), lo ≤ hi → hi < 64 → (∀ f ∈ r.fields, f.lo ≤ f.hi ∧ f.hi < 64) →
    (∀ f ∈ r.fields, ∀ g ∈ r.fields, f = g ∨ f.hi < g.lo ∨ g.hi < f.lo) → ∀ f ∈ r.fields, ∀ i, f.lo ≤ i → i ≤ f.hi →
    let new := bitAt (r.written old v hi lo) i
    let hit := decide (lo ≤ i) && decide (i ≤ hi)
    (f.acc ∈ [Acc.rw, Acc.rws, Acc.rwl] → new = if hit then bitAt v i else bitAt old i) ∧
    (f.acc = .w1c → new = (bitAt old i && !(hit && bitAt v i))) ∧
    (f.acc = .w1s → new = (bitAt old i || (hit && bitAt v i))) ∧
    (f.acc ∈ [Acc.ro, Acc.rc, Acc.wo] → new = bitAt old i))

/-- RC_READ, the two halves of a 64-bit register, and what a read clears. Rests on choices of the model: log 100 (DESIGN
CHOICE). -/
def Obligations.RegisterReads : Prop :=
  (∀ (s : State) (m : Master) (off : BitVec 26) (p : Spot), Live s → Takes s m off.toNat → m ≠ .jtag → hasWindow m = true →
    locate off.toNat = some p → s.dev.mbxAway off.toNat = false → off.toNat % 4 = 0 →
    let a := s.dev.readReg m p.reg p.ix true
    let h := s.dev.readReg m p.reg p.ix false
    let key := p.reg.at_ p.ix
    (p.reg.wide = false → Runs (.rcRead m .bar0 off false []) s (a.1.emit (.readData m.mid off.toNat a.2))) ∧
    (p.reg.wide = true → p.high = false → off.toNat % 8 = 0 →
      Runs (.lowDwordRead m .bar0 off true) s (a.1.emit (.readWide m.mid off.toNat a.2))) ∧
    (p.reg.wide = true → p.high = false →
      Runs (.lowDwordRead m .bar0 off false) s ({ a.1 with latches := Sparse.put a.1.latches m.mid (some (key, a.2 / 2 ^ 32)) }.emit
        (.readData m.mid off.toNat (a.2 % 2 ^ 32)))) ∧
    (∀ v, p.reg.wide = true → p.high = true → Sparse.get (0, 0) s.dev.latches m.mid = (key, v) →
      Runs (.highDwordRead m .bar0 off) s ({ s.dev with latches := Sparse.put s.dev.latches m.mid none }.emit
        (.readData m.mid off.toNat v))) ∧
    (p.reg.wide = true → p.high = true → (Sparse.get (0, 0) s.dev.latches m.mid).1 ≠ key →
      Runs (.highDwordRead m .bar0 off) s (h.1.emit (.readData m.mid off.toNat (h.2 / 2 ^ 32))))) ∧
  (∀ (s : State) (m : Master) (off : BitVec 26), Live s → off.toNat / 8 < pageSlots m → s.dev.masterOn m = true →
    s.dev.hostBlocked m = false →
    let v := s.dev.pageSlot m (off.toNat / 8)
    let key := 2 ^ 64 + off.toNat / 8
    (off.toNat % 8 = 0 → Runs (.lowDwordRead m .bar4 off true) s (s.dev.emit (.readWide m.mid off.toNat v))) ∧
    (off.toNat % 8 = 0 → Runs (.lowDwordRead m .bar4 off false) s
      ({ s.dev with latches := Sparse.put s.dev.latches m.mid (some (key, v / 2 ^ 32)) }.emit
        (.readData m.mid off.toNat (v % 2 ^ 32)))) ∧
    (∀ x, off.toNat % 8 = 4 → Sparse.get (0, 0) s.dev.latches m.mid = (key, x) → Runs (.highDwordRead m .bar4 off) s
      ({ s.dev with latches := Sparse.put s.dev.latches m.mid none }.emit (.readData m.mid off.toNat x))) ∧
    (off.toNat % 8 = 4 → (Sparse.get (0, 0) s.dev.latches m.mid).1 ≠ key →
      Runs (.highDwordRead m .bar4 off) s (s.dev.emit (.readData m.mid off.toNat (v / 2 ^ 32))))) ∧
  (∀ (d : Dev) (r : Reg) (ix : List Nat), (∀ f ∈ r.fields, f.hi < 64 ∧ f.lo ≤ f.hi) →
    (∀ f ∈ r.fields, ∀ g ∈ r.fields, f = g ∨ f.hi < g.lo ∨ g.hi < f.lo) →
    (∀ f ∈ r.fields, f.acc = .rc → bitsOf ((d.clearRc r ix).raw r ix) f.hi f.lo = 0) ∧
    (∀ f ∈ r.fields, f.acc ≠ .rc → bitsOf ((d.clearRc r ix).raw r ix) f.hi f.lo = bitsOf (d.raw r ix) f.hi f.lo) ∧
    (∀ q jx, q.key jx ≠ r.key ix → (d.clearRc r ix).raw q jx = d.raw q jx))

/-- Accesses to reserved offsets, of a bad size, and writes to BAR4 are recorded -/
def Obligations.BadAccesses : Prop :=
  (∀ (s : State) (m : Master) (off : BitVec 26), Live s → Takes s m off.toNat → m ≠ .jtag → hasWindow m = true →
    off.toNat % 4 = 0 → locate off.toNat = none →
      Runs (.reservedOffsetAccess m off true false) s (s.dev.badAccess 0 2 m.mid off.toNat) ∧
      Runs (.reservedOffsetAccess m off false false) s ((s.dev.badAccess 0 1 m.mid off.toNat).emit (.readData m.mid off.toNat 0)) ∧
      (off.toNat % 8 = 0 → locate (off.toNat + 4) = none →
        Runs (.reservedOffsetAccess m off true true) s ((s.dev.badAccess 0 2 m.mid off.toNat).badAccess 0 2 m.mid (off.toNat + 4)) ∧
        Runs (.reservedOffsetAccess m off false true) s
          (((s.dev.badAccess 0 1 m.mid off.toNat).badAccess 0 1 m.mid (off.toNat + 4)).emit (.readWide m.mid off.toNat 0))) ∧
      (∀ p, off.toNat % 8 = 0 → locate (off.toNat + 4) = some p → p.reg.wide = false →
        (s.dev.badAccess 0 1 m.mid off.toNat).mbxAway (off.toNat + 4) = false →
        let a := (s.dev.badAccess 0 1 m.mid off.toNat).readReg m p.reg p.ix true
        Runs (.reservedOffsetAccess m off false true) s (a.1.emit (.readWide m.mid off.toNat (a.2 % 2 ^ 32 * 2 ^ 32))))) ∧
  (∀ (s : State) (m : Master) (off : BitVec 26) (p : Spot), Live s → Takes s m off.toNat → m ≠ .jtag → hasWindow m = true →
    off.toNat % 8 = 0 → locate off.toNat = some p → p.reg.wide = false → s.dev.mbxAway off.toNat = false →
    locate (off.toNat + 4) = none →
    let a := s.dev.readReg m p.reg p.ix true
    Runs (.reservedOffsetAccess m off false true) s
      ((a.1.badAccess 0 1 m.mid (off.toNat + 4)).emit (.readWide m.mid off.toNat (a.2 % 2 ^ 32)))) ∧
  (∀ (s : State) (m : Master) (b : Bar) (off : BitVec 26) (w : Bool), Live s → s.dev.hasBar m b = true → s.dev.hostBlocked m = false →
      Runs (.badSizeAccess m b off w) s ((s.dev.badAccess b.num 3 m.mid off.toNat).emit (.unsupported m.mid b.num off.toNat))) ∧
  (∀ (s : State) (m : Master) (off : BitVec 16), Live s → s.dev.hasBar m .bar4 = true → s.dev.hostBlocked m = false →
      Runs (.bar4Write m off) s (s.dev.badAccess 2 5 m.mid off.toNat)) ∧
  (∀ (d : Dev) (b kind mid off : Nat), b < 4 → kind < 16 → mid < 256 → off < 2 ^ 26 →
    let e := d.badAccess b kind mid off
    (d.on F.GLB_BAD_ACCESS_VALID [] = false → e.on F.GLB_BAD_ACCESS_VALID [] = true ∧ e.on F.GLB_BAD_ACCESS_OVF [] = false ∧
      e.rd F.GLB_BAD_ACCESS_BAR [] = b ∧ e.rd F.GLB_BAD_ACCESS_KIND [] = kind ∧ e.rd F.GLB_BAD_ACCESS_MID [] = mid ∧
      e.rd F.GLB_BAD_ACCESS_COUNT [] = 1 ∧ e.rd F.GLB_BAD_ACCESS_OFFSET [] = off) ∧
    (d.on F.GLB_BAD_ACCESS_VALID [] = true → e.on F.GLB_BAD_ACCESS_VALID [] = true ∧ e.on F.GLB_BAD_ACCESS_OVF [] = true ∧
      e.rd F.GLB_BAD_ACCESS_COUNT [] = min 0xFFFF (d.rd F.GLB_BAD_ACCESS_COUNT [] + 1) ∧
      e.rd F.GLB_BAD_ACCESS_OFFSET [] = d.rd F.GLB_BAD_ACCESS_OFFSET []) ∧
    (∀ r ix, r.key ix ≠ R.GLB_BAD_ACCESS.key [] → e.raw r ix = d.raw r ix))

/-- A GO write takes the staged values, and the committed set changes at one edge -/
def Obligations.StagedConfiguration : Prop :=
  ∀ (s : State) (m : Master) (w : Fin 26), Live s → hasStaged w.val = true → 
    (∀ l ∈ [s.dev.regs, s.dev.snap, s.dev.comm], (l.map (fun e => e.1)).Nodup) →
    (commitWriter m w.val = true → s.dev.hostBlocked m = false → s.dev.mustWait (w.val * 1048576 + 0xFF004) = false →
      s.dev.on (commitBusy w.val) [] = false →
      ∃ t, exec (.cfgCommit m w) s = .next t ∧ t.dev.on (commitBusy w.val) [] = true ∧ t.dev.comm = s.dev.comm ∧
        (∀ k, stagedKey w.val k = true → Sparse.find? t.dev.snap k = Sparse.find? s.dev.regs k)) ∧
    (s.dev.on (commitBusy w.val) [] = true →
      (∀ r ∈ [R.PCS_SHAPE, R.QRY_STAT, R.SMP_CFG, R.EGR_STAT, R.ANL_CFG, R.HIF_CFG], w.val ≠ r.win) →
      ∃ t, exec (.commitApply w) s = .next t ∧ t.dev.on (commitBusy w.val) [] = false ∧
        (∀ k, stagedKey w.val k = true → Sparse.find? t.dev.comm k = Sparse.find? s.dev.snap k) ∧
        (∀ k, stagedKey w.val k = false → Sparse.find? t.dev.comm k = Sparse.find? s.dev.comm k)) ∧
    Runs (.commitApply w) s (s.dev.commitEdge w.val)

/-- Domains are requested, refused, and switched one at a time -/
def Obligations.PowerDomains : Prop :=
  ((∀ (s : State) (m : Master) (k : Fin 6) (v : BitVec 32), Live s → pdWriter m = true → s.dev.hostBlocked m = false →
    Runs (.pdRequest m k v) s (s.dev.pdRequest m k.val v.toNat)) ∧
  (∀ (d : Dev) (m : Master) (n : Nat), n < 190 →
    ((d.pdAsk m n true).domReq n = true) ∧
    (d.rst.seq.contains n = false → d.offOk m n = true → (d.pdAsk m n false).domReq n = false) ∧
    (d.rst.seq.contains n = false → d.offOk m n = false →
      bitAt ((d.pdAsk m n false).rd F.GLB_PD_DENY_DENY [n / 32]) (n % 32) = true ∧ (d.pdAsk m n false).domReq n = d.domReq n)) ∧
  (∀ (s : State), Live s → s.dev.rst.pdActive ≠ none → Runs .pdTransitionDone s s.dev.pdDone) ∧
  (∀ (s : State) (g : Fin 8), Live s → bitAt s.dev.rst.drain g.val = true → s.dev.groupHeld g.val = 0 →
    g.val ∉ s.dev.rst.drained →
    Runs (.qryGroupDrained g) s ({ s.dev with rst := { s.dev.rst with drained := s.dev.rst.drained ++ [g.val] } }.pdNext))) ∧
  (∀ (d : Dev) (n : Nat) (up : Bool), n < 190 → d.rst.pdActive = some (n, up) →
    d.pdDone.domOn n = up ∧ (∀ j, j < 191 → j ≠ n → d.pdDone.domOn j = d.domOn j) ∧
    (up = false → n = 180 → d.pdDone.on F.HIF_STAT_LINK_UP [] = false ∧ d.pdDone.hif.busMaster = 0) ∧
    (up = false → ∀ k, k < 8 → n = 182 + k / 2 → d.pdDone.coreRuns k = false))

/-- Each bring-up command completes its phase, and a phase that is entered is shown. Rests on choices of the model: log 276
(DESIGN CHOICE), log 133 (DEDUCED), log 305 (DESIGN CHOICE). -/
def Obligations.BringupPhases : Prop :=
  (∀ (s : State) (p : Fin 1024), Live s →
    (s.dev.inPhase p.val 0 = true →
      Runs (.bringupStart p) s (s.dev.portDown p.val 1)) ∧
    (s.dev.inPhase p.val 1 = true → s.dev.canBeReady p.val = true →
      Runs (.laneReady p) s
        ((((s.dev.portLanes p.val).foldl (fun d n => d.wr F.LANE_STAT_READY [n] 1) s.dev).wr
          F.LANE_MACRO_STAT_CAL_DONE [p.val / 8] 1).enterPhase p.val (s.dev.nextPhase p.val 1))) ∧
    (s.dev.inPhase p.val 2 = true →
      Runs (.anResolve p) s
        (((s.dev.portLanes p.val).foldl (fun d n => d.wr F.LANE_STAT_LT_STATE [n] 0) s.dev).enterPhase p.val
          (s.dev.nextPhase p.val 2))) ∧
    (∀ taps : List (BitVec 30), s.dev.inPhase p.val 3 = true →
      let ls := s.dev.portLanes p.val
      let trained := ls.zipIdx.foldl (fun d e => d.laneTrained e.1 ((taps.getD e.2 0).toNat)) s.dev
      Runs (.ltComplete p taps) s (trained.enterPhase p.val 4)) ∧
    (∀ meas, s.dev.inPhase p.val 4 = true → (∀ n ∈ s.dev.portLanes p.val, s.dev.rd F.LANE_STAT_ADAPT [n] ≠ 3) →
      Runs (.adaptTracking p meas) s
        ((((s.dev.portLanes p.val).zip meas).foldl (fun d x => d.laneTracks x.1 x.2) s.dev).enterPhase p.val 5)) ∧
    (∀ meas, s.dev.inPhase p.val 4 = true → (∃ n ∈ s.dev.portLanes p.val, s.dev.rd F.LANE_STAT_ADAPT [n] = 3) →
      Runs (.adaptTracking p meas) s s.dev) ∧
    (∀ meas, s.dev.inPhase p.val 6 = true → Runs (.adaptTracking p meas) s
      (((s.dev.portLanes p.val).zip meas).foldl (fun d x => if d.rd F.LANE_STAT_ADAPT [x.1] = 1 then d.laneTracks x.1 x.2 else d)
        s.dev)) ∧
    (∀ skew : Fin 201, s.dev.inPhase p.val 5 = true →
      Runs (.alignLock p skew) s
        ((((s.dev.wr F.PCS_PORT_STAT_ALIGN_LOCK (pix p.val) 1).wr F.PCS_PORT_STAT_SKEW (pix p.val) skew.val).enterPhase
          p.val 6).updateLink p.val)) ∧
    (∀ k, 1 ≤ k → k ≤ 5 → s.dev.inPhase p.val k = true →
      Runs (.bringupTimeout p) s
        (((s.dev.portDown p.val 7).portLanes p.val).foldl (fun d n => d.wr F.LANE_STAT_LT_STATE [n] 4)
          (s.dev.portDown p.val 7))) ∧
    (s.dev.inPhase p.val 7 = true → Runs (.bringupRetry p) s (s.dev.portDown p.val 1))) ∧
  (∀ (d : Dev) (p k : Nat), ((d.enterPhase p k).port p).phase = k ∧
    ((d.portDown p k).port p).phase = k ∧ (d.portDown p k).on F.PCS_PORT_STAT_ALIGN_LOCK (pix p) = false ∧
    (∀ n, (d.portLanes p).head? = some n → (d.enterPhase p 2).rd F.LANE_STAT_LT_STATE [n] = 1) ∧
    (∀ n ∈ d.portLanes p, (d.enterPhase p 4).rd F.LANE_STAT_ADAPT [n] = (if (d.lane n).training || d.freezeWhy n == 0 then 1 else 3)))

/-- What a running port counts and follows. Rests on choices of the model: log 303 (DESIGN CHOICE), log 304 (DESIGN CHOICE), log
276 (DESIGN CHOICE). -/
def Obligations.RunningPort : Prop :=
  (∀ (s : State) (p : Fin 1024), Live s →
    (s.dev.absent p.val = false → s.dev.portLive p.val = true →
      Runs (.signalLoss p) s (((s.dev.portLanes p.val).foldl
        (fun d n => (d.wr F.LANE_STAT_SIG_DET [n] 0).wr F.LANE_STAT_CDR_LOCK [n] 0) s.dev).portDown p.val 1)) ∧
    (∀ lf rf, s.dev.absent p.val = false →
      Runs (.linkUpChange p lf rf) s
        (((s.dev.setPort p.val { s.dev.port p.val with locRx := lf && s.dev.alignLocked p.val }).wr
          F.PCS_PORT_STAT_REM_FAULT (pix p.val) (b2n rf)).updateLink p.val)) ∧
    (∀ hi lpi deg, s.dev.alignLocked p.val = true →
      ∀ skew : Fin 256,
      let most : Dev → Dev := fun d => d.wr F.PCS_PORT_STAT_SKEW (pix p.val) (max (d.rd F.PCS_PORT_STAT_SKEW (pix p.val)) skew.val)
      let fin : Dev → Dev := fun d => ((((most d).wr F.PCS_PORT_STAT_HI_SER (pix p.val) (b2n hi)).wr F.PCS_PORT_STAT_RX_LPI (pix p.val)
        (b2n lpi)).wr F.PCS_PORT_STAT_FEC_DEG_REM (pix p.val) (b2n deg)).updateLink p.val
      Runs (.fecCodeword p .clean hi lpi deg skew) s (fin s.dev) ∧
      (∀ k : Fin 15,
        let d := ((s.dev.inc F.PCS_FEC_CORR_COUNT (pix p.val)).addTo F.PCS_FEC_SYM_COUNT (pix p.val) (k.val + 1)).inc
          F.PCS_FEC_BIN_COUNT (pix p.val ++ [k.val + 1])
        let d := d.pmc (64 + p.val / 32) 0x22 1
        Runs (.fecCodeword p (.corrected k) hi lpi deg skew) s
          (fin (d.setPort p.val { d.port p.val with syms := (d.port p.val).syms + (k.val + 1) }))) ∧
      (∀ cur (next : Fin 16), Runs (.fecCodeword p (.uncorrectable cur next) hi lpi deg skew) s
        (fin (((s.dev.inc F.PCS_FEC_UNCORR_COUNT (pix p.val)).pmc (64 + p.val / 32) 0x23 1).errFrames p.val cur next.val))) ∧
      (∀ cur (next : Fin 2), Runs (.fecCodeword p (.badBlock cur next) hi lpi deg skew) s
        (fin ((s.dev.inc F.PCS_BAD_BLK_COUNT (pix p.val)).errFrames p.val cur next.val)))) ∧
    ((∀ insert, s.dev.alignLocked p.val = true → s.dev.wireArriving p.val = false → (insert = true ∨ s.dev.setsOnly p.val = false) →
      Runs (.rateMatch p insert) s
        (if insert then (s.dev.inc F.PCS_RM_INS_COUNT (pix p.val)).pmc (64 + p.val / 32) 0x25 1
         else (s.dev.inc F.PCS_RM_DEL_COUNT (pix p.val)).pmc (64 + p.val / 32) 0x24 1))) ∧
    (∀ insert, (s.dev.wireArriving p.val = true ∨ (insert = false ∧ s.dev.setsOnly p.val = true)) → Runs (.rateMatch p insert) s s.dev) ∧
    (s.dev.absent p.val = false →
      let d := (s.dev.inc F.PCS_RM_OVF_COUNT (pix p.val)).wr F.PCS_PORT_STAT_RM_OVF (pix p.val) 1
      Runs (.rmOvf p) s (if d.wireArriving p.val then d.markArriving p.val .truncated true
        else if s.dev.linkUp p.val then d.markNext p.val 1 .truncated else d)) ∧
    (s.dev.onC F.PCS_PORT_CTL_LPI_EN (pix p.val) = true → s.dev.linkUp p.val = true → s.dev.hasFrame p.val = false →
      (s.dev.port p.val).waking = false →
      ∃ t, exec (.lpiEnter p) s = .next t ∧ (t.dev.port p.val).txLpi = true ∧ t.dev.regs = s.dev.regs ∧ t.dev.dp = s.dev.dp) ∧
    (∃ t, exec (.lpiWake p) s = .next t ∧ (t.dev.port p.val).waking = false ∧ (t.dev.port p.val).txLpi = (s.dev.port p.val).txLpi ∧
      t.dev.regs = s.dev.regs ∧ t.dev.dp = s.dev.dp)) ∧
  (∀ (d : Dev) (p : Nat), ((d.wakeLpi p).port p).txLpi = false ∧
    ((d.port p).txLpi = true → ((d.wakeLpi p).port p).waking = true) ∧ ((d.port p).txLpi = false → d.wakeLpi p = d)) ∧
  (∀ (d : Dev) (p : Nat),
    let e := d.updateLink p
    let up := d.portLive p && d.alignLocked p && !d.on F.PCS_PORT_STAT_HI_SER (pix p) && !d.locFault p &&
      !d.on F.PCS_PORT_STAT_REM_FAULT (pix p)
    let m := d.rd F.HIF_EVQ_CFG_LINK []
    e.linkUp p = up ∧ e.on F.PCS_PORT_STAT_LOC_FAULT (pix p) = d.locFault p ∧
    (d.locFault p = false → up = (d.alignLocked p && d.portLive p && !d.on F.PCS_PORT_STAT_REM_FAULT (pix p))) ∧
    e.rd F.PCS_LINK_FLAP_COUNT (pix p) =
      (if d.linkUp p && !up then min (2 ^ 32 - 1) (d.rd F.PCS_LINK_FLAP_COUNT (pix p) + 1) else d.rd F.PCS_LINK_FLAP_COUNT (pix p)) ∧
    e.on F.PCS_PORT_STAT_LINK_DOWN_EVT (pix p) = ((d.linkUp p && !up) || d.on F.PCS_PORT_STAT_LINK_DOWN_EVT (pix p)) ∧
    (d.linkUp p = up → e.hif = d.hif ∧ ∀ r ix, r.key ix ≠ R.PCS_PORT_STAT.key (pix p) → e.raw r ix = d.raw r ix) ∧
    (d.linkUp p ≠ up → d.on F.HIF_EVQ_EN_LINK [] = false → e.hif = d.hif) ∧
    (d.linkUp p ≠ up → d.on F.HIF_EVQ_EN_LINK [] = true →
      let ev := eventEntry 2 1 [p, e.portStat p, d.ns % 2 ^ 32, d.ns / 2 ^ 32 % 2 ^ 32, 0, 0, 0]
      let waits := d.eventMay m = false ∨ d.hif.backlog.any (fun x => x.1 == m) = true
      (¬ waits → (∃ b : Dev, b.hif = d.hif ∧ e = b.writeEntry m ev) ∧ (∃ o a, Output.dmaDwords o a ev.body ∈ e.out) ∧
        e.hif.backlog = d.hif.backlog ∧ e.hif.lostSince = d.hif.lostSince) ∧
      (waits → d.hif.backlog.length < 256 → e.hif.backlog = d.hif.backlog ++ [(m, ev)] ∧ e.hif.lostSince = d.hif.lostSince) ∧
      (waits → 256 ≤ d.hif.backlog.length → e.hif.backlog = d.hif.backlog ∧ e.hif.lostSince = d.hif.lostSince + 1 ∧
        e.rd F.HIF_EVT_LOST_COUNT [] = min (2 ^ 32 - 1) (d.rd F.HIF_EVT_LOST_COUNT [] + 1))))

/-- FEC_DEG_LOC at the end of an interval -/
def Obligations.FecDegraded : Prop :=
  ∀ (s : State) (p : Fin 1024), Live s →
    let n := (s.dev.port p.val).syms
    let act := s.dev.rd F.PCS_FEC_DEG_ACT_THR (pix p.val)
    let deact := s.dev.rd F.PCS_FEC_DEG_DEACT_THR (pix p.val)
    ∃ t, exec (.fecDegInterval p) s = .next t ∧ (t.dev.port p.val).syms = 0 ∧
      (act ≤ deact → t.dev.rd F.PCS_PORT_STAT_FEC_DEG_LOC (pix p.val) = 0) ∧
      (deact < act → act < n → t.dev.rd F.PCS_PORT_STAT_FEC_DEG_LOC (pix p.val) = 1) ∧
      (deact < act → n < deact → t.dev.rd F.PCS_PORT_STAT_FEC_DEG_LOC (pix p.val) = 0) ∧
      (deact < act → deact ≤ n → n ≤ act →
        t.dev.rd F.PCS_PORT_STAT_FEC_DEG_LOC (pix p.val) = s.dev.rd F.PCS_PORT_STAT_FEC_DEG_LOC (pix p.val)) ∧
      (∀ r ix, r.key ix ≠ R.PCS_PORT_STAT.key (pix p.val) → t.dev.raw r ix = s.dev.raw r ix)

/-- Freezing, resuming and restarting adaptation. Rests on choices of the model: log 305 (DESIGN CHOICE). -/
def Obligations.LaneAdaptation : Prop :=
  (∀ (s : State) (n : Fin 1024), Live s → (s.dev.lane n.val).training = false →
    let back := if (s.dev.lane n.val).fresh then 1 else 2
    (s.dev.rd F.LANE_STAT_ADAPT [n.val] = 2 → s.dev.on F.LANE_ADAPT_FORCE_FRZ [n.val] = false →
      ∃ t, exec (.adaptFreeze n .quiet) s = .next t ∧ t.dev.rd F.LANE_STAT_ADAPT [n.val] = 3 ∧
        t.dev.rd F.LANE_STAT_FRZ_WHY [n.val] = 1 ∧ t.dev.on F.LANE_STAT_SIG_DET [n.val] = false ∧
        (t.dev.lane n.val).quiet = true ∧
        t.dev.rd F.LANE_FRZ_CNT_COUNT [n.val] =
          min (2 ^ (F.LANE_FRZ_CNT_COUNT.hi - F.LANE_FRZ_CNT_COUNT.lo + 1) - 1) (s.dev.rd F.LANE_FRZ_CNT_COUNT [n.val] + 1)) ∧
    (s.dev.rd F.LANE_STAT_ADAPT [n.val] = 1 → s.dev.on F.LANE_ADAPT_FORCE_FRZ [n.val] = false →
      ∃ t, exec (.adaptFreeze n .quiet) s = .next t ∧ t.dev.rd F.LANE_STAT_ADAPT [n.val] = 3 ∧
        t.dev.rd F.LANE_STAT_FRZ_WHY [n.val] = 1 ∧ (t.dev.lane n.val).fresh = true ∧
        t.dev.rd F.LANE_FRZ_CNT_COUNT [n.val] = s.dev.rd F.LANE_FRZ_CNT_COUNT [n.val] ∧
        (∀ r ix, r.key ix ≠ R.LANE_STAT.key [n.val] → t.dev.raw r ix = s.dev.raw r ix)) ∧
    (s.dev.rd F.LANE_STAT_ADAPT [n.val] = 2 → s.dev.on F.LANE_ADAPT_FORCE_FRZ [n.val] = false → (s.dev.lane n.val).quiet = false →
      s.dev.on F.LANE_ADAPT_IDLE_FRZ [n.val] = true →
      ∃ t, exec (.adaptFreeze n .idleOnly) s = .next t ∧ t.dev.rd F.LANE_STAT_ADAPT [n.val] = 3 ∧
        t.dev.rd F.LANE_STAT_FRZ_WHY [n.val] = 2 ∧ (t.dev.lane n.val).idle = true) ∧
    (s.dev.rd F.LANE_STAT_ADAPT [n.val] = 3 → s.dev.on F.LANE_ADAPT_FORCE_FRZ [n.val] = false →
      ((s.dev.lane n.val).idle = false ∨ s.dev.on F.LANE_ADAPT_IDLE_FRZ [n.val] = false) →
      ∃ t, exec (.adaptUnfreeze n .quiet) s = .next t ∧ t.dev.rd F.LANE_STAT_ADAPT [n.val] = back ∧
        t.dev.rd F.LANE_STAT_FRZ_WHY [n.val] = 0 ∧ (t.dev.lane n.val).quiet = false ∧
        t.dev.on F.LANE_STAT_SIG_DET [n.val] = true) ∧
    (s.dev.rd F.LANE_STAT_ADAPT [n.val] = 3 → s.dev.on F.LANE_ADAPT_FORCE_FRZ [n.val] = false →
      (s.dev.lane n.val).quiet = false →
      ∃ t, exec (.adaptUnfreeze n .idleOnly) s = .next t ∧ t.dev.rd F.LANE_STAT_ADAPT [n.val] = back ∧
        t.dev.rd F.LANE_STAT_FRZ_WHY [n.val] = 0 ∧ (t.dev.lane n.val).idle = false) ∧
    (∀ m : Master, isPfSvc m = true → s.dev.hostBlocked m = false → s.dev.domOn (n.val / 8) = true →
      s.dev.rd F.LANE_STAT_ADAPT [n.val] = 2 → s.dev.on F.LANE_ADAPT_FORCE_FRZ [n.val] = false →
      Runs (.adaptRestart m n) s ((s.dev.wr F.LANE_STAT_ADAPT [n.val] 1).setLane n.val
        { s.dev.lane n.val with left := some s.dev.rst.mono })) ∧
    (∀ m : Master, isPfSvc m = true → s.dev.hostBlocked m = false → s.dev.on F.LANE_ADAPT_FORCE_FRZ [n.val] = true →
      Runs (.adaptRestart m n) s s.dev)) ∧
  (∀ (s : State) (n : Fin 1024) (m : Master), Live s → (s.dev.lane n.val).training = true → Runs (.adaptRestart m n) s s.dev) ∧
  (∀ (d : Dev) (n v : Nat) (m : Master), n < 1024 → isPfSvc m = true → d.regOff R.LANE_ADAPT [n] = false →
    (d.lane n).training = false → d.spl.dead = [] →
    let e := d.writeReg m R.LANE_ADAPT [n] v 31 0
    (d.rd F.LANE_STAT_ADAPT [n] = 2 → bitAt v 1 = true → e.rd F.LANE_STAT_ADAPT [n] = 3 ∧ e.rd F.LANE_STAT_FRZ_WHY [n] = 3 ∧
      e.rd F.LANE_FRZ_CNT_COUNT [n] = min (2 ^ 32 - 1) (d.rd F.LANE_FRZ_CNT_COUNT [n] + 1)) ∧
    (d.rd F.LANE_STAT_ADAPT [n] = 3 → bitAt v 1 = false → (d.lane n).quiet = false → (d.lane n).idle = false →
      e.rd F.LANE_STAT_ADAPT [n] = (if (d.lane n).fresh then 1 else 2) ∧ e.rd F.LANE_STAT_FRZ_WHY [n] = 0))

/-- A reference input that fails and returns, and a macro PLL that locks again -/
def Obligations.ReferenceClocks : Prop :=
  ∀ (s : State) (b : Fin 7), Live s →
    (∃ t, exec (.refclkOutOfRange b) s = .next t ∧
      Runs (.refclkOutOfRange b) s ((refClusters b.val).foldl
        (fun d c => (d.wr F.PCS_CL_STAT_REF_OK [c] 0).portsLoseReady (d.clusterPorts c)) (s.dev.refclk b.val true)) ∧
      bitAt t.dev.rst.refclk b.val = true) ∧
    (∃ t, exec (.refOkRestore b) s = .next t ∧ bitAt t.dev.rst.refclk b.val = false ∧
      (∀ c ∈ refClusters b.val, t.dev.on F.PCS_CL_STAT_REF_OK [c] = true) ∧
      (∀ r ix, (∀ c ∈ refClusters b.val, r.key ix ≠ R.PCS_CL_STAT.key [c]) → t.dev.raw r ix = s.dev.raw r ix)) ∧
    (∀ m : Fin 128, s.dev.domOn m.val = true →
      Runs (.macroPllRelock m) s (s.dev.wr F.LANE_MACRO_STAT_PLL_LOCK [m.val] 1))

/-- The side port: code-groups, loss of the partner, rate matching, the density window. Rests on choices of the model: log 132
(DEDUCED), log 31 (PRESUMED), log 277 (PRESUMED). -/
def Obligations.SidePortLanes : Prop :=
  ∀ (s : State), Live s →
    (∀ (l : Fin 4) (p : Nat) (cg : AuxCodeGroup), s.dev.auxPortOf l.val = some p →
      let x := s.dev.auxLane l.val
      let known := cg.inNeg || cg.inPos
      let right := if x.rdPos then cg.inPos else cg.inNeg
      let wrong := cg.special && (cg.misplaced || auxMisplaced s.dev.auxMode l.val cg.byte.toNat (x.last.headD 0))
      ∃ t, exec (.auxCodeGroup l cg) s = .next t ∧ t.dev.on F.AUX_LANE_STAT_SIG_DET [l.val] = true ∧
        (t.dev.auxLane l.val).rdPos = (if known then cg.endsPos else x.rdPos) ∧
        t.dev.rd F.AUX_DISP_ERR_COUNT [p] = (if known && !right then min (2 ^ 32 - 1) (s.dev.rd F.AUX_DISP_ERR_COUNT [p] + 1)
          else s.dev.rd F.AUX_DISP_ERR_COUNT [p]) ∧
        t.dev.rd F.AUX_CODE_ERR_COUNT [p] = (if !known || wrong then min (2 ^ 32 - 1) (s.dev.rd F.AUX_CODE_ERR_COUNT [p] + 1)
          else s.dev.rd F.AUX_CODE_ERR_COUNT [p])) ∧
    (∀ (p : Fin 4) (insert : Bool), s.dev.on F.AUX_PORT_STAT_SYNC [p.val] = true → (s.dev.auxRx p.val).active = false →
      Runs (.auxRateMatch p insert) s
        (if insert then s.dev.inc F.AUX_RM_INS_COUNT [p.val] else s.dev.inc F.AUX_RM_DEL_COUNT [p.val])) ∧
    (∀ (l : Fin 4) (t : Fin 1025), s.dev.on F.AUX_LANE_STAT_FROZEN [l.val] = true →
      s.dev.rd F.AUX_LANE_CTL_TDENS_MIN [l.val] + 32 ≤ t.val →
      Runs (.auxTdensWindow l t) s ((s.dev.wr F.AUX_LANE_STAT_TDENS [l.val] t.val).wr F.AUX_LANE_STAT_FROZEN [l.val] 0)) ∧
    (∀ (l : Fin 4) (t : Fin 1025), s.dev.on F.AUX_LANE_STAT_FROZEN [l.val] = false →
      (∀ p, s.dev.auxPortOf l.val = some p → (s.dev.auxRx p).active = false) →
      s.dev.on F.AUX_LANE_CTL_FRZ_EN [l.val] = true → t.val < s.dev.rd F.AUX_LANE_CTL_TDENS_MIN [l.val] →
      Runs (.auxTdensWindow l t) s (((s.dev.wr F.AUX_LANE_STAT_TDENS [l.val] t.val).wr F.AUX_LANE_STAT_FROZEN [l.val] 1).inc
        F.AUX_LANE_FRZ_CNT_COUNT [l.val])) ∧
    (∀ (l : Fin 4) (t : Fin 1025) (p : Nat), s.dev.on F.AUX_LANE_STAT_FROZEN [l.val] = false → s.dev.auxPortOf l.val = some p →
      (s.dev.auxRx p).active = true → Runs (.auxTdensWindow l t) s (s.dev.wr F.AUX_LANE_STAT_TDENS [l.val] t.val)) ∧
    (∀ p : Fin 4, ∃ t, exec (.auxSignalLoss p) s = .next t ∧ t.dev.auxRx p.val = {} ∧
      t.dev.on F.AUX_PORT_STAT_RX_FAULT [p.val] = false ∧
      ∀ l ∈ s.dev.auxLanesOf p.val, t.dev.on F.AUX_LANE_STAT_SIG_DET [l] = false ∧ t.dev.on F.AUX_LANE_STAT_CDR_LOCK [l] = false ∧
        t.dev.auxLane l = { txPos := (s.dev.auxLane l).txPos })

/-- The instructions that write their destination, and those that say where a packet goes. Rests on choices of the model: log
144 (DEDUCED). -/
def Obligations.AluAndForwardInstructions : Prop :=
  (∀ (s : State) (u : Nat) (x : Pass) (w : Nat) (t : List Nat), Live s → s.dev.pass u = some x → x.todo = w :: t →
    insnSrc w ≠ 3 →
    let y := { x with todo := t }
    let sel := insnDst w
    let n := 2 ^ selWidth sel
    let a := y.readSel sel % n
    let b := y.source w % n
    (insnOp w = 0x00 → Runs (.nop u) s (afterInsn (s.dev, y))) ∧
    (y.mayWrite sel = true →
      (insnOp w = 0x01 → Runs (.set u) s (afterInsn (s.dev, y.writeSel sel b))) ∧
      (insnOp w = 0x02 → Runs (.add u) s (afterInsn (s.dev, y.writeSel sel ((a + b) % n)))) ∧
      (insnOp w = 0x03 → Runs (.sub u) s (afterInsn (s.dev, y.writeSel sel ((a + n - b) % n)))) ∧
      (insnOp w = 0x04 → Runs (.and u) s (afterInsn (s.dev, y.writeSel sel (a &&& b)))) ∧
      (insnOp w = 0x05 → Runs (.or u) s (afterInsn (s.dev, y.writeSel sel (a ||| b)))) ∧
      (insnOp w = 0x06 → Runs (.xor u) s (afterInsn (s.dev, y.writeSel sel (a ^^^ b))))) ∧
    (y.mayWrite sel = false → ∀ c ∈ [(1, Instr.set u), (2, .add u), (3, .sub u), (4, .and u), (5, .or u), (6, .xor u)],
      insnOp w = c.1 → Runs c.2 s (afterInsn (s.dev.badInsn y)))) ∧
  (∀ (s : State) (u : Nat) (x : Pass) (w : Nat) (t : List Nat), Live s → s.dev.pass u = some x → x.todo = w :: t →
    insnSrc w ≠ 3 →
    let y := { x with todo := t }
    let b := y.source w
    (y.egress = false →
      (insnOp w = 0x07 → Runs (.fwdPort u) s (afterInsn (s.dev, (y.setMd mdDestType 1).setMd mdEgrPort b))) ∧
      (insnOp w = 0x08 → Runs (.fwdMc u) s (afterInsn (s.dev, (y.setMd mdDestType 2).setMd mdMcGroup b))) ∧
      (insnOp w = 0x09 → Runs (.fwdHost u) s (afterInsn (s.dev, (y.setMd mdDestType 3).setMd mdTrapCode b)))) ∧
    (y.egress = true → ∀ c ∈ [(7, Instr.fwdPort u), (8, .fwdMc u), (9, .fwdHost u)],
      insnOp w = c.1 → Runs c.2 s (afterInsn (s.dev.badInsn y))) ∧
    (insnOp w = 0x0A → Runs (.copyHost u) s (afterInsn (s.dev, (y.setMd mdCopyHost 1).setMd mdTrapCode b))) ∧
    (insnOp w = 0x0B → Runs (.drop u) s (afterInsn (s.dev, y.raise (0x20 + b % 16)))) ∧
    (insnOp w = 0x0E → Runs (.mirror u) s (afterInsn (s.dev, y.setMd mdMirrorSess b))) ∧
    (insnOp w = 0x11 → y.stage < b % 32 →
      Runs (.skip u) s (afterInsn (s.dev, { y with next := min (b % 32) y.stages }))) ∧
    (insnOp w = 0x11 → b % 32 ≤ y.stage → Runs (.skip u) s (afterInsn (s.dev, y)))) ∧
  (∀ (s : State) (u : Nat) (x : Pass) (w : Nat) (t : List Nat), Live s → s.dev.pass u = some x → x.todo = w :: t →
    insnSrc w = 3 →
    ∀ c ∈ [(0x00, Instr.nop u), (0x01, .set u), (0x02, .add u), (0x03, .sub u), (0x04, .and u), (0x05, .or u), (0x06, .xor u),
      (0x07, .fwdPort u), (0x08, .fwdMc u), (0x09, .fwdHost u), (0x0A, .copyHost u), (0x0B, .drop u), (0x0C, .meter u),
      (0x0D, .count u), (0x0E, .mirror u), (0x0F, .learn u), (0x10, .hash u), (0x11, .skip u), (0x20, .insert4 u),
      (0x21, .remove u), (0x22, .decTtl u), (0x23, .insertIoam u)],
      insnOp w = c.1 → Runs c.2 s (afterInsn (s.dev.badInsn { x with todo := t })))

/-- Metadata fields read as written, flow counters count, and the lowest drop code is kept -/
def Obligations.PacketState : Prop :=
  (∀ (x : Pass) (id v : Nat),
    (id ≠ mdColour → (x.setMd id v).md' id = v % 2 ^ mdWidth id) ∧
    ((x.setMd mdColour v).md' mdColour = min 2 (v % 4)) ∧
    (∀ j, j ≠ id → (x.setMd id v).md' j = x.md' j)) ∧
  (∀ (d : Dev) (i len : Nat),
    (d.tbl.ctrBad.contains i = false → Sparse.get (0, 0) (d.countFlow i len).tbl.ctr i =
      (((Sparse.get (0, 0) d.tbl.ctr i).1 + 1) % 2 ^ 64, ((Sparse.get (0, 0) d.tbl.ctr i).2 + len) % 2 ^ 64)) ∧
    (d.tbl.ctrBad.contains i = true → Sparse.get (0, 0) (d.countFlow i len).tbl.ctr i = (0, 0)) ∧
    ∀ j, j ≠ i → Sparse.get (0, 0) (d.countFlow i len).tbl.ctr j = Sparse.get (0, 0) d.tbl.ctr j) ∧
  (∀ (x : Pass) (a b : Nat), 1 ≤ a → a < 64 → 1 ≤ b → b < 64 → x.md' mdDropCode = 0 →
    ((x.raise a).raise b).md' mdDropCode = min a b ∧ ((x.raise a).raise b).md' mdDropCode = ((x.raise b).raise a).md' mdDropCode)

/-- METER, COUNT, LEARN and HASH. Rests on choices of the model: log 140 (DEDUCED). -/
def Obligations.CountingInstructions : Prop :=
  ∀ (s : State) (u : Nat) (x : Pass) (w : Nat) (t : List Nat), Live s → s.dev.pass u = some x → x.todo = w :: t →
    insnSrc w ≠ 3 →
    let y := { x with todo := t }
    let b := y.source w
    (insnOp w = 0x0C → y.md' mdDropCode = 0 → b < 262144 → y.meters < 2 →
      ∃ e c, s.dev.meterPacket b (y.md' mdPktLen) (y.md' mdColour) = (e, c) ∧
        Runs (.meter u) s (afterInsn (e,
          if c = 2 && bitAt (insnDst w) 0 then ({ y with meters := y.meters + 1 }.setMd mdColour c).raise (if y.egress then 0x05 else 0x12)
          else { y with meters := y.meters + 1 }.setMd mdColour c))) ∧
    (insnOp w = 0x0D → b < 1048576 →
      Runs (.count u) s (afterInsn (s.dev.countFlow b (y.md' mdPktLen), y))) ∧
    (insnOp w = 0x0F → y.egress = false → y.md' mdDropCode = 0 → y.learn = none →
      Runs (.learn u) s (afterInsn (s.dev.pmc y.pipe 0x16 1,
        { y with learn := some { tag := bitsOf (insnDst w) 11 8, key := beVal (padKey 18 (y.key (bitsOf (insnDst w) 4 0)))
                                 data := b % 2 ^ 32 } }))) ∧
    (insnOp w = 0x10 →
      Runs (.hash u) s (afterInsn (s.dev, y.setMd mdFlowHash (crc32c (b % 2 ^ 32) (y.key (bitsOf (insnDst w) 4 0))))))

/-- INSERT4, REMOVE, DEC_TTL and INSERT_IOAM in an egress pipeline. Rests on choices of the model: log 143 (DEDUCED), log 142
(DEDUCED). -/
def Obligations.EditInstructions : Prop :=
  ∀ (s : State) (u : Nat) (x : Pass) (w : Nat) (t : List Nat), Live s → s.dev.pass u = some x → x.todo = w :: t →
    insnSrc w ≠ 3 →
    let y := { x with todo := t }
    let sel := insnDst w
    y.egress = true →
      (∀ cls off, y.slot (selSlot sel) = some (cls, off) →
        (insnOp w = 0x20 → selHeader sel = true →
          Runs (.insert4 u) s (afterInsn (s.dev.edited y (.insert (selByte sel off) (beBytes 4 (y.source w)))))) ∧
        (insnOp w = 0x21 → selHeader sel = true → 1 ≤ y.source w → y.source w ≤ 64 →
          Runs (.remove u) s (afterInsn (s.dev.edited y (.remove (selByte sel off) (y.source w))))) ∧
        (insnOp w = 0x22 → cls = 3 ∨ cls = 4 →
          let b := 8 * (off + if cls = 3 then 8 else 7)
          Runs (.decTtl u) s (afterInsn (s.dev,
            if winBits y.win b 8 ≤ 1 then y.raise 0x03 else y.putBits b 8 (winBits y.win b 8 - 1))))) ∧
      (∀ o k, insnOp w = 0x23 → y.md' mdIoam ≠ 0 → y.ioamOpt (selSlot sel) = some o → s.dev.ioamCase o = .inr k →
        Runs (.insertIoam u) s (afterInsn (s.dev.ioamServe y o k))) ∧
      (∀ o r, insnOp w = 0x23 → y.md' mdIoam ≠ 0 → y.ioamOpt (selSlot sel) = some o → s.dev.ioamCase o = .inl r →
        Runs (.insertIoam u) s (afterInsn (s.dev.inc F.TLM_IOAM_CNT_COUNT [r], y))) ∧
      (insnOp w = 0x23 → y.md' mdIoam ≠ 0 → y.ioamOpt (selSlot sel) = none →
        Runs (.insertIoam u) s (afterInsn (s.dev.inc F.TLM_IOAM_CNT_COUNT [1], y)))

/-- The entries of a port, the ingress slot, control frames and the end of ingress. Rests on choices of the model: log 178
(DEDUCED), log 278 (DESIGN CHOICE). -/
def Obligations.IngressSlot : Prop :=
  (∀ (s : State), Live s →
    (∀ (p : Fin 1024) (w : List Byte) (ended sc : Bool) (sfd : BitVec 40), s.dev.domOn (128 + p.val / 32) = true →
      s.dev.safe = false → s.dev.linkUp p.val = true → w.length ≤ 256 → (ended = true ∨ w.length = 256) →
      (isControl w = false → Runs (.headerSlot p (.wire w ended sfd) sc) s
        ((s.dev.headerIn p.val w ended sfd.toNat).entryGrant (p.val / 32) sc)) ∧
      (isControl w = true → Runs (.headerSlot p (.wire w ended sfd) sc) s s.dev)) ∧
    (∀ (p : Fin 1024) x credits, s.dev.domOn (128 + p.val / 32) = true → s.dev.safe = false →
      let n := p.val / 32
      arbitrate (s.dev.entryReady n) s.dev.entryWeight (fun x => Sparse.get 0 s.dev.dp.entryCredit x) = some (x, credits) →
      let d := { s.dev with dp := { s.dev.dp with
        entryTook := Sparse.set [] (Sparse.set [] s.dev.dp.entryTook n []) n [x]
        entryCredit := credits.foldl (fun m (c : Nat × Int) => Sparse.set 0 m c.1 c.2) s.dev.dp.entryCredit } }
      Runs (.headerSlot p .waiting false) s (if x < 1024 then d.serveEntry x else d.serveInject n).settleEntries) ∧
    (∀ (p : Fin 1024) (f : List Byte), s.dev.linkUp p.val = true → isControl f = true →
      ∃ t bad, exec (.macControlTerminate p f) s = .next t ∧
        t.dev.dp.control = s.dev.dp.control ++ [{ port := p.val, bytes := f, bad := bad }] ∧
        (bad = true ↔ (s.dev.port p.val).marks.headD .ok ≠ .ok) ∧
        t.dev.dp.pkts = s.dev.dp.pkts ∧ t.dev.dp.passes = s.dev.dp.passes ∧ t.dev.dp.entries = s.dev.dp.entries) ∧
    (∀ u x f, s.dev.pass u = some x → x.egress = false → x.todo = [] → x.stages ≤ x.stage → s.dev.safe = false →
      s.dev.pkt x.pkt = some f → Runs (.ingressEnd u) s (s.dev.ingressEnd x f)) ∧
    (∀ u, s.dev.safe = true → Runs (.ingressEnd u) s s.dev) ∧
    (∀ u p tail mark, s.dev.pkt u = some p → p.kind = .frame → p.checked = false → s.dev.safe = false →
      let d := if p.ended then s.dev else s.dev.arrive u tail true
      ∀ q, d.pkt u = some q →
        ((q.resolved || q.dropped) = true → Runs (.frameEndChecks u tail mark) s (d.frameEnd q mark)) ∧
        ((q.resolved || q.dropped) = false →
          Runs (.frameEndChecks u tail mark) s (d.modPkt u (fun p => { p with mark := joinMark p.mark mark }))))) ∧
  (∀ (d : Dev) (p : Nat) (w : List Byte) (ended : Bool) (sfd : Nat),
    ((d.entriesOf p).length < d.entryRoom p → ((d.headerIn p w ended sfd).entriesOf p).length = (d.entriesOf p).length + 1) ∧
    (d.entryRoom p ≤ (d.entriesOf p).length → (d.headerIn p w ended sfd).dp.entries = d.dp.entries ∧
      (d.headerIn p w ended sfd).rd F.PIPE_IN_OVR_COUNT [p / 32, p % 32] =
        min (2 ^ 32 - 1) (d.rd F.PIPE_IN_OVR_COUNT [p / 32, p % 32] + 1))) ∧
  (∀ (d : Dev) (n : Nat), 4 ≤ (Sparse.get [] d.dp.entryTook n).length →
    (d.entryGrant n true).dp.passes = d.dp.passes ∧ (d.entryGrant n true).dp.entries = d.dp.entries)

/-- The eight table commands -/
def Obligations.TableCommandsStart : Prop :=
  ∀ (s : State) (m : Master) (v : BitVec 32), Live s → s.dev.tblAcc m = true → s.dev.hostBlocked m = false →
    s.dev.on F.RST_STAT_INIT_DONE [] = true → s.dev.on F.TBL_CMD_BUSY [] = false → bitAt v.toNat 0 = true →
    let d := (s.dev.setRaw R.TBL_CMD [] (setBitsOf (setBitsOf v.toNat 31 31 0) 15 0 0)).wr F.TBL_CMD_BUSY [] 1
    let c : TblCmd := { word := v.toNat, mid := m.mid, idx := s.dev.rd F.TBL_CMD_IDX_INDEX []
                        data := (List.range 32).map (fun k => s.dev.rd F.TBL_CMD_DATA_DATA [k]) }
    (bitsOf v.toNat 30 28 = 0 → Runs (.tblRead m v) s (d.tblRun c)) ∧
    (bitsOf v.toNat 30 28 = 1 → Runs (.tblWrite m v) s (d.tblRun c)) ∧
    (bitsOf v.toNat 30 28 = 2 → Runs (.tblInsert m v) s (d.tblRun c)) ∧
    (bitsOf v.toNat 30 28 = 3 → Runs (.tblDelete m v) s (d.tblRun c)) ∧
    (bitsOf v.toNat 30 28 = 4 → Runs (.tblSearch m v) s (d.tblRun c)) ∧
    (bitsOf v.toNat 30 28 = 5 → Runs (.tblNext m v) s (d.tblRun c)) ∧
    (bitsOf v.toNat 30 28 = 6 → Runs (.flushByPort m v) s (d.tblRun c)) ∧
    (bitsOf v.toNat 30 28 = 7 → Runs (.deleteIfIdle m v) s (d.tblRun c))

/-- What the table commands do to the tables and report. Rests on choices of the model: log 285 (DESIGN CHOICE). -/
def Obligations.TableCommandResults : Prop :=
  (∀ (d : Dev) (c : TblCmd), d.onPath c.bank c.idx = false →
    (∀ st, d.tblCheck c = some st → ∃ r, (d.tblRun c).tbl.res = some r ∧ r.status = st ∧ r.found = false ∧ r.data = none ∧
      (d.tblRun c).tbl.em = d.tbl.em ∧ (d.tblRun c).tbl.lpm = d.tbl.lpm ∧ (d.tblRun c).tbl.tcam = d.tbl.tcam ∧
      (d.tblRun c).tbl.mcg = d.tbl.mcg ∧ (d.tblRun c).tbl.ctr = d.tbl.ctr) ∧
    (d.tblCheck c = none →
      (c.op = 0 → d.tblRun c = d.tblRead c) ∧ (c.op = 1 → d.tblRun c = d.tblWrite c) ∧
      (c.op = 5 → d.tblRun c = (d.startScan c c.idx 0).scanTo (c.idx + 1) 0) ∧ (c.op = 6 → d.tblRun c = d.startScan c 0 0) ∧
      (c.op ∈ [2, 3, 4, 7] → c.table = 1 → d.tblRun c = d.keyLpm c) ∧
      (c.op ∈ [2, 3, 4, 7] → c.table ≠ 1 → d.path c.bank = none → d.tblRun c = d.keyEm c) ∧
      (c.op ∈ [2, 3, 4, 7] → c.table ≠ 1 → (d.path c.bank).isSome = true → (d.tblRun c).tbl.wait = some c ∧
        (d.tblRun c).tbl.em = d.tbl.em)) ∧
    ((c.cmdset = 1 ∧ d.on F.TBL_CFG_CMDSET [] = false) → d.tblCheck c = some 6) ∧
    (¬ (c.cmdset = 1 ∧ d.on F.TBL_CFG_CMDSET [] = false) → 4 < c.table → d.tblCheck c = some 3)) ∧
  (∀ (d : Dev) (c : TblCmd),
    (c.table = 1 → ∃ r, (d.tblRead c).tbl.res = some r ∧ r.status = 0 ∧ r.found = lpmValid (d.lpm c.bank c.idx) ∧
      r.data = some (dwordsOf 8 (d.lpm c.bank c.idx))) ∧
    (c.table = 2 → ∃ r, (d.tblRead c).tbl.res = some r ∧ r.status = 0 ∧ r.found = tcamValid (Sparse.get 0 d.tbl.tcam c.idx) ∧
      r.data = some (dwordsOf 23 (Sparse.get 0 d.tbl.tcam c.idx))) ∧
    (c.table = 3 → ∃ r, (d.tblRead c).tbl.res = some r ∧ r.status = 0 ∧ r.data = some (dwordsOf 32 (Sparse.get 0 d.tbl.mcg c.idx))) ∧
    (c.table = 4 → ∃ r, (d.tblRead c).tbl.res = some r ∧ r.status = 0 ∧
      r.data = some (dwordsOf 2 (Sparse.get (0, 0) d.tbl.ctr c.idx).1 ++ dwordsOf 2 (Sparse.get (0, 0) d.tbl.ctr c.idx).2) ∧
      Sparse.get (0, 0) (d.tblRead c).tbl.ctr c.idx = (if d.clrOn c then (0, 0) else Sparse.get (0, 0) d.tbl.ctr c.idx) ∧
      ∀ i, i ≠ c.idx → Sparse.get (0, 0) (d.tblRead c).tbl.ctr i = Sparse.get (0, 0) d.tbl.ctr i) ∧
    (c.table = 2 → Sparse.get 0 (d.tblWrite c).tbl.tcam c.idx = setBitsOf (c.num 0 23) 734 715 0 ∧
      ∀ i, i ≠ c.idx → Sparse.get 0 (d.tblWrite c).tbl.tcam i = Sparse.get 0 d.tbl.tcam i) ∧
    (c.table = 3 → Sparse.get 0 (d.tblWrite c).tbl.mcg c.idx = c.num 0 32 ∧
      ∀ i, i ≠ c.idx → Sparse.get 0 (d.tblWrite c).tbl.mcg i = Sparse.get 0 d.tbl.mcg i) ∧
    (c.table = 4 → Sparse.get (0, 0) (d.tblWrite c).tbl.ctr c.idx = (c.num 0 2, c.num 2 2) ∧
      ∀ i, i ≠ c.idx → Sparse.get (0, 0) (d.tblWrite c).tbl.ctr i = Sparse.get (0, 0) d.tbl.ctr i)) ∧
  (∀ (d : Dev) (c : TblCmd), c.op = 2 → d.on F.TBL_CFG_DUALWR [] = false →
    let e := d.insertEntry (c.num 0 8)
    let b := c.bank
    let t := d.keyEm c
    let only := fun (i : Nat) => t.em b i = e ∧ ∀ a j, emAt a j ≠ emAt b i → t.em a j = d.em a j
    emValid e = true ∧ emHit e = false ∧ emStamp e = d.rd F.TBL_STAMP_NOW [] ∧
    (∀ i l, d.emMatches b (emTag e) (emKey e) = i :: l → ∃ r, t.tbl.res = some r ∧ r.status = 0 ∧ r.found = true ∧ r.idx = some i ∧
      r.count = some 0 ∧ r.data = some (dwordsOf 8 e) ∧ only i) ∧
    (d.emMatches b (emTag e) (emKey e) = [] → ∀ i,
      (d.emCands b (emTag e) (emKey e)).find? (fun i => !emValid (d.em b i)) = some i →
      ∃ r, t.tbl.res = some r ∧ r.status = 0 ∧ r.found = false ∧ r.idx = some i ∧ r.count = some 0 ∧ only i) ∧
    (d.emPlace b e .cmd = .none_ → c.evict = false → ∃ r, t.tbl.res = some r ∧ r.status = 0x0B ∧ t.tbl.em = d.tbl.em) ∧
    (d.emPlace b e .cmd = .none_ → c.evict = true →
      let v := d.victim b e (d.rd F.TBL_TAG_CFG_EVICT [emTag e]) (fun x => !emStatic x)
      (v.2 = none → ∃ r, t.tbl.res = some r ∧ r.status = 0x0B ∧ t.tbl.em = d.tbl.em) ∧
      (∀ i, v.2 = some i → ∃ r, t.tbl.res = some r ∧ r.status = 0 ∧ r.evicted = true ∧ r.idx = some i ∧ only i ∧
        t.rd F.TBL_EVICT_COUNT [] = (d.inc F.TBL_EVICT_COUNT []).rd F.TBL_EVICT_COUNT []))) ∧
  (∀ (d : Dev) (c : TblCmd), d.on F.TBL_CFG_DUALWR [] = false →
    let e := c.num 0 8
    let b := c.bank
    let t := d.keyLpm c
    (famBits (lpmFam e) < lpmPlen e → ∃ r, t.tbl.res = some r ∧ r.status = 5 ∧ t.tbl.lpm = d.tbl.lpm) ∧
    (lpmPlen e ≤ famBits (lpmFam e) → c.op = 2 →
      (∀ h, d.lpmFind b (lpmName (lpmStored e)) = some h → ∃ r, t.tbl.res = some r ∧ r.status = 0 ∧ r.found = true ∧
        r.idx = some h ∧ t.lpm b h = lpmStored e) ∧
      (d.lpmFind b (lpmName (lpmStored e)) = none → lpmMax < d.lpmUsed b + lpmUnits (lpmStored e) →
        ∃ r, t.tbl.res = some r ∧ r.status = 0x0B ∧ t.tbl.lpm = d.tbl.lpm) ∧
      (d.lpmFind b (lpmName (lpmStored e)) = none → d.lpmUsed b + lpmUnits (lpmStored e) ≤ lpmMax →
        let h := (d.lpmHandle b).2
        ∃ r, t.tbl.res = some r ∧ r.status = 0 ∧ r.found = false ∧ r.idx = some h ∧ t.lpm b h = lpmStored e)) ∧
    (lpmPlen e ≤ famBits (lpmFam e) → c.op ≠ 2 →
      (d.lpmFind b (lpmName e) = none → ∃ r, t.tbl.res = some r ∧ r.status = 0 ∧ r.found = false ∧ t.tbl.lpm = d.tbl.lpm) ∧
      (∀ h, d.lpmFind b (lpmName e) = some h → ∃ r, t.tbl.res = some r ∧ r.status = 0 ∧ r.found = true ∧ r.idx = some h ∧
        r.data = some (dwordsOf 8 (d.lpm b h)) ∧
        (c.op = 3 → t.lpm b h = putBit (d.lpm b h) 255 false) ∧ (c.op ≠ 3 → t.tbl.lpm = d.tbl.lpm)))) ∧
  (∀ (d : Dev) (x : Scan), d.tbl.scan = some x → x.cmd.op = 5 →
    let t := d.scanTo emSlots 0
    (x.cmd.table = 0 → d.path x.cmd.bank = none →
      let hit := List.find? (fun (e : Nat × Nat) => e.1 / emSlots == x.cmd.bank && decide (x.pos ≤ e.1 % emSlots) && emValid e.2 &&
        (!x.cmd.tagf || emTag e.2 == x.cmd.tag)) d.tbl.em
      (hit = none → ∃ r, t.tbl.res = some r ∧ r.status = 0 ∧ r.found = false ∧ t.tbl.em = d.tbl.em) ∧
      (∀ e, hit = some e → ∃ r, t.tbl.res = some r ∧ r.status = 0 ∧ r.found = true ∧ r.idx = some (e.1 % emSlots) ∧
        r.data = some (dwordsOf 8 e.2) ∧ r.hitWas = emHit e.2 ∧ (d.clrOn x.cmd = false → t.tbl.em = d.tbl.em) ∧
        (d.clrOn x.cmd = true → t.em x.cmd.bank (e.1 % emSlots) = emSetHit e.2 false))) ∧
    (x.cmd.table = 2 →
      let hit := List.find? (fun (e : Nat × Nat) => decide (x.pos ≤ e.1) && decide (e.1 < 49152) && tcamValid e.2) d.tbl.tcam
      (hit = none → ∃ r, t.tbl.res = some r ∧ r.status = 0 ∧ r.found = false) ∧
      (∀ e, hit = some e → ∃ r, t.tbl.res = some r ∧ r.status = 0 ∧ r.found = true ∧ r.idx = some e.1 ∧
        r.data = some (dwordsOf 23 e.2)))) ∧
  (∀ (d : Dev) (c : TblCmd), (d.tbl.em.map (fun e => e.1)).Nodup → c.table = 0 → ∀ i, i < emSlots →
    let e := d.em c.bank i
    (i ∈ d.flushList c ↔ emValid e = true ∧ emStatic e = false ∧
      Nat.land (emActData e) (c.num 2 2) = Nat.land (c.num 0 2) (c.num 2 2) ∧ (c.tagf = false ∨ emTag e = c.tag))) ∧
  (∀ (d : Dev) (x : Scan), d.tbl.scan = some x → x.cmd.op = 6 → x.pos = 0 → x.n = 0 → d.flushPosts x.cmd = false →
    d.on F.TBL_CFG_DUALWR [] = false → d.path x.cmd.bank = none → (d.tbl.em.map (fun e => e.1)).Nodup →
    (d.tbl.lpm.map (fun e => e.1)).Nodup →
    let l := (d.flushList x.cmd).filter (fun i => decide (i < tblSize x.cmd.table))
    let t := d.scanTo emSlots 0
    ∃ r, t.tbl.res = some r ∧ r.status = 0 ∧ r.count = some l.length ∧ r.found = (l.length != 0) ∧ l.Nodup ∧
      (x.cmd.table = 0 → ∀ b i, b < 2 → i < emSlots →
        t.em b i = if b = x.cmd.bank ∧ i ∈ l then emClear (d.em b i) else d.em b i) ∧
      (x.cmd.table = 1 → ∀ b i, b < 2 → i < emSlots →
        t.lpm b i = if b = x.cmd.bank ∧ i ∈ l then putBit (d.lpm b i) 255 false else d.lpm b i)) ∧
  (∀ (d : Dev) (c : TblCmd), c.table = 0 → d.onPath c.bank c.idx = false →
    (let e := d.em c.bank c.idx
     ∃ r, (d.tblRead c).tbl.res = some r ∧ r.status = 0 ∧ r.found = emValid e ∧ r.data = some (dwordsOf 8 e) ∧ r.hitWas = emHit e) ∧
    (d.tblWrite c).em c.bank c.idx = c.num 0 8 ∧
    (∀ b i, emAt b i ≠ emAt c.bank c.idx → (d.tblWrite c).em b i = d.em b i)) ∧
  (∀ (d : Dev) (c : TblCmd), c.table = 0 → d.on F.TBL_CFG_DUALWR [] = false →
    let k := c.num 0 8
    (c.op = 3 ∨ c.op = 4 ∨ c.op = 7) →
    (d.emMatches c.bank (emTag k) (emKey k) = [] → ∃ r, (d.keyEm c).tbl.res = some r ∧ r.status = 0 ∧ r.found = false ∧
      (d.keyEm c).tbl.em = d.tbl.em) ∧
    (∀ i l, d.emMatches c.bank (emTag k) (emKey k) = i :: l →
      let e := d.em c.bank i
      (c.op = 4 → ∃ r, (d.keyEm c).tbl.res = some r ∧ r.found = true ∧ r.idx = some i ∧ r.data = some (dwordsOf 8 e) ∧
        (d.keyEm c).tbl.em = d.tbl.em) ∧
      (c.op = 3 → ∃ r, (d.keyEm c).tbl.res = some r ∧ r.found = true ∧ r.data = some (dwordsOf 8 e) ∧
        emValid ((d.keyEm c).em c.bank i) = false) ∧
      (c.op = 7 → emStatic e = true → ∃ r, (d.keyEm c).tbl.res = some r ∧ r.status = 6 ∧ (d.keyEm c).tbl.em = d.tbl.em) ∧
      (c.op = 7 → emStatic e = false → emHit e = true → ∃ r, (d.keyEm c).tbl.res = some r ∧ r.status = 0x0D ∧
        (d.keyEm c).tbl.em = d.tbl.em) ∧
      (c.op = 7 → emStatic e = false → emHit e = false → ∃ r, (d.keyEm c).tbl.res = some r ∧ r.status = 0 ∧ r.found = true ∧
        emValid ((d.keyEm c).em c.bank i) = false))) ∧
  (∀ (s : State) (r : TblRes), Live s → s.dev.tbl.res = none → (s.dev.scanTo emSlots 0).tbl.res = some r →
    Runs .tblCmdDone s ((s.dev.scanTo emSlots 0).tblPublish r)) ∧
  (∀ (s : State) (r : TblRes), Live s → s.dev.tbl.res = some r →
    ∃ t, exec .tblCmdDone s = .next t ∧ t.dev.on F.TBL_CMD_BUSY [] = false ∧ t.dev.tbl.res = none ∧
      t.dev.rd F.TBL_CMD_STAT_STATUS [] = r.status % 2 ^ 8 ∧ t.dev.on F.TBL_CMD_STAT_FOUND [] = r.found ∧
      t.dev.tbl.em = s.dev.tbl.em ∧ t.dev.tbl.lpm = s.dev.tbl.lpm)

/-- Learning, relocation moves, and the stamp -/
def Obligations.LearningAndPaths : Prop :=
  ∀ (s : State), Live s →
    (∀ o t, s.dev.tbl.queue = o :: t → s.dev.on F.TBL_CFG_LEARN_PAUSE [] = false → s.dev.learnHeld = false →
      s.dev.path s.dev.activeEm = none → s.dev.safe = false →
      let d := ({ s.dev with tbl := { s.dev.tbl with queue := t } } : Dev).pmc 105 0x45 1
      (d.on F.TBL_TAG_CFG_LEARN_EN [o.tag % 16] = false → Runs .learnTake s (d.inc F.TBL_LEARN_DROP_COUNT [2])) ∧
      (d.on F.TBL_TAG_CFG_LEARN_EN [o.tag % 16] = true →
        Runs .learnTake s (d.learnAct o (d.rd F.TBL_TAG_CFG_LEARN_ACT [o.tag % 16]) s.dev.activeEm 0).tblResume)) ∧
    (∀ (n : Fin 65537) o act b t, s.dev.tbl.stalled = .offer o act b :: t → s.dev.path b = none →
      Runs (.learnEventResume n) s (s.dev.unstall.learnAct o act b n.val).tblResume) ∧
    (∀ (n : Fin 65537) b t p, s.dev.tbl.stalled = .path b :: t → s.dev.path b = some p →
      Runs (.learnEventResume n) s (s.dev.unstall.pathEnd b p n.val)) ∧
    (∀ (n : Fin 65537) i k c t, s.dev.tbl.stalled = .flush i k c :: t →
      Runs (.learnEventResume n) s ((s.dev.unstall.startScan c i k).scanTo (i + 1) n.val)) ∧
    (∀ (b : Fin 2) p m t, s.dev.path b.val = some p → p.moves = m :: t →
      let q := { p with moves := t }
      let d := (if p.by_ = .bulk then s.dev.bulkMove b.val m else s.dev.emMove b.val m).setPath b.val (some q)
      Runs (.relocationMove b) s (if t.isEmpty then d.pathEnd b.val q 0 else d)) ∧
    (s.dev.rd F.TBL_CFG_STAMP_TICK [] ≠ 0 → ∃ t, exec .stampTick s = .next t ∧
      t.dev.rd F.TBL_STAMP_NOW [] = (s.dev.rd F.TBL_STAMP_NOW [] + 1) % 65536 ∧ t.dev.tbl = s.dev.tbl) ∧
    (s.dev.rd F.TBL_CFG_STAMP_TICK [] = 0 → Runs .stampTick s s.dev) ∧
    (∀ (m : Master) (v : BitVec 32), isPfSvc m = true → s.dev.hostBlocked m = false → s.dev.on F.RST_STAT_INIT_DONE [] = true →
      Runs (.stampTickWrite m v) s (s.dev.tblCfg v.toNat) ∧
      (s.dev.tblCfg v.toNat).rd F.TBL_STAMP_NOW [] = s.dev.rd F.TBL_STAMP_NOW [] ∧
      (bitAt v.toNat 1 = true → s.dev.on F.TBL_CFG_DUALWR [] = false →
        ∃ t, exec (.dualwrEnable m v) s = .next t ∧ t.dev.on F.TBL_CFG_DUALWR [] = true ∧ t.dev.tbl.dlog = [] ∧
          t.dev.tbl.dlogLpm = []))

/-- Bulk loads, dumps, swaps, and the end of table jobs. Rests on choices of the model: log 275 (DESIGN CHOICE). -/
def Obligations.TableJobs : Prop :=
  ∀ (s : State), Live s →
    (∀ (n : Fin 256) hdr j, s.dev.tableJob n.val 0x20 = some j → s.dev.loadCheck j hdr = none →
      (s.dev.readsHeader j = true → s.dev.jobDma j.id = true) →
      ∃ t, exec (.tableBulkLoad n hdr) s = .next t ∧
        (t.dev.tbl.jobs.any (fun x => x.job == j.id && x.load && x.table == j.p 0 % 8 && x.next == 0 &&
          x.bank == 1 - s.dev.activeOf (j.p 0 % 8) && x.clearing == bitAt (j.p 0) 5)) = true ∧
        (∀ b i, i < emSlots →
          let hit := bitAt (j.p 0) 5 && b == 1 - s.dev.activeOf (j.p 0 % 8)
          t.dev.em b i = (if hit && j.p 0 % 8 == 0 && !s.dev.tbl.repEm.contains (emAt b i) then 0 else s.dev.em b i) ∧
          t.dev.lpm b i = (if hit && j.p 0 % 8 == 1 && !s.dev.tbl.repLpm.contains (emAt b i) then 0 else s.dev.lpm b i))) ∧
    (∀ (n : Fin 256) hdr j st, s.dev.tableJob n.val 0x20 = some j → s.dev.loadCheck j hdr = some (st, false) →
      (s.dev.readsHeader j = true → s.dev.jobDma j.id = true) →
      Runs (.tableBulkLoad n hdr) s (s.dev.refuseTableJob j st)) ∧
    (∀ (b : Fin 2) j, s.dev.loadOf b.val = some j → j.clearing = true →
      Runs (.bulkClearDone b) s (s.dev.setTableJob { j with clearing := false, ended := if j.total = 0 then some stDone else none })) ∧
    (∀ (b : Fin 2) j bytes, s.dev.loadOf b.val = some j → j.clearing = false → j.next < j.total →
      s.dev.insertBusy b.val j.bank = false → (j.sump = false → s.dev.jobDma j.job = true) → s.dev.jobReads j = true →
      let d := s.dev.loadRead j j.source 32
      let v := leVal (padKey 32 bytes)
      ∃ e k, (if j.image then d.loadSlot j v else if j.table = 0 then d.loadEm j v else d.loadLpm j v) = (e, k) ∧
        let fin := if k.next + 1 = k.total then some (if k.r1 = 0 then stDone else stTableFull) else none
        Runs (.bulkRecord b (.data bytes)) s (e.setTableJob { k with next := k.next + 1, ended := fin })) ∧
    (∀ (n : Fin 256) j, s.dev.tableJob n.val 0x21 = some j → j.p 0 % 8 ≤ 3 → bitAt (j.p 0) 4 = true →
      (j.inSump = true → s.dev.imageOk j.sumpOff j.sub.len = true) → imageLen (j.p 0 % 8) ≤ j.sub.len → s.dev.jobReach j 0 64 = true →
      (j.inSump = false → s.dev.jobDma j.id = true) →
      let t := j.p 0 % 8
      let b := if t < 2 then bitsOf (j.p 0) 8 8 else 0
      Runs (.tableBulkDump n) s ((s.dev.tableOut j 0 (s.dev.imageHead t b)).addTableJob
        { job := j.id, dump := true, table := t, bank := b, image := true, sump := j.inSump, total := tblSlots t, r0 := 64 })) ∧
    (∀ (n : Fin 256) j, s.dev.tableJob n.val 0x21 = some j → j.p 0 % 8 ≤ 1 → bitAt (j.p 0) 4 = false →
      (j.inSump = true → s.dev.imageOk j.sumpOff j.sub.len = true) → (j.inSump = false → s.dev.jobDma j.id = true) →
      Runs (.tableBulkDump n) s (s.dev.addTableJob { job := j.id, dump := true, table := j.p 0 % 8, bank := bitsOf (j.p 0) 8 8
                                                     image := false, sump := j.inSump, total := tblSlots (j.p 0 % 8), r0 := 0 })) ∧
    (∀ x, s.dev.tbl.jobs.find? s.dev.tableEnded = none → s.dev.dumpOf = some x →
      Runs .tableJobDone s (s.dev.dumpTo x x.total).tableFinish) ∧
    (∀ (n : Fin 256) j, s.dev.tableJob n.val 0x22 = some j → (bitAt (j.p 0) 0 || bitAt (j.p 0) 1) = true →
      s.dev.tbl.paths = [] →
      ∃ t, exec (.tableBankSwap n) s = .next t ∧
        t.dev.activeEm = (if bitAt (j.p 0) 0 then 1 - s.dev.activeEm else s.dev.activeEm) ∧
        t.dev.activeLpm = (if bitAt (j.p 0) 1 then 1 - s.dev.activeLpm else s.dev.activeLpm) ∧
        t.dev.tbl.lpm = s.dev.tbl.lpm ∧ t.dev.tbl.ctr = s.dev.tbl.ctr) ∧
    (∀ (n : Fin 256) j, s.dev.tableJob n.val 0x22 = some j → (bitAt (j.p 0) 0 || bitAt (j.p 0) 1) = true →
      s.dev.tbl.paths ≠ [] → Runs (.tableBankSwap n) s s.dev) ∧
    (∀ j, s.dev.tbl.jobs.find? s.dev.tableEnded = some j →
      let d := { s.dev with tbl := { s.dev.tbl with jobs := s.dev.tbl.jobs.filter (fun x => x.job != j.job) } }
      Runs .tableJobDone s (d.finishJob j.job (j.ended.getD 0) j.r0 j.r1 0))

/-- Abandoned copies, cut-through arrival, and the periodic evaluations of the Quarry -/
def Obligations.QuarryEvaluations : Prop :=
  ∀ (s : State), Live s →
    (∀ u p, s.dev.pkt u = some p → p.kind.isCopy = true → p.open_ = true → s.dev.safe = false → s.dev.poolS < s.dev.poolU + 1 →
      Runs (.copyAbandon u) s ((s.dev.copyDrop p).dropPkt p.uid)) ∧
    (∀ u p more q c, s.dev.pkt u = some p → p.kind = .frame → p.ct = true → p.ended = false → s.dev.safe = false → (s.dev.arrive u more false).pkt u = some q →
      (s.dev.arrive u more false).dp.copies.find? (fun c => c.pkt == u) = some c → ctReady q = true →
      Runs (.ctCandidate u more) s
        (wakeQueues s.dev ((s.dev.arrive u more false).modCopy c.uid (fun c => { c with ready := true })) [eqOf c.queue])) ∧
    (∀ u p more, s.dev.pkt u = some p → p.kind = .frame → p.ct = false → p.ended = false → s.dev.safe = false →
      Runs (.ctCandidate u more) s (s.dev.arrive u more false)) ∧
    (∀ u c, s.dev.copy u = some c → c.loc = .sending → s.dev.arriving c = true →
      Runs (.ctStomp u) s (s.dev.ctSent c false false)) ∧
    (∃ t, exec .wredAvgUpdate s = .next t ∧ t.dev.dp = s.dev.dp ∧
      (∀ p q, p < 1024 → q < 12 →
        let avg : Int := s.dev.rd F.QRY_Q_AVG_CELLS [p, q]
        (t.dev.rd F.QRY_Q_AVG_CELLS [p, q] : Int) =
          (avg + ((s.dev.queueDepth p q : Int) - avg) / 2 ^ s.dev.cm F.QRY_Q_CFG_AVG_W [p, q]) % 2 ^ 21) ∧
      ∀ r ix, (∀ jx, r.key ix ≠ R.QRY_Q_AVG.key jx) → t.dev.raw r ix = s.dev.raw r ix) ∧
    (∃ t, exec .pfcEval s = .next t ∧ t.dev.dp.copies = s.dev.dp.copies ∧
      (∀ i g, i < 1024 → g < 8 → s.dev.pfcEn i g = true →
        let a := s.dev.cm F.QRY_PFC_CFG_PFC_ALPHA [i]
        let x := if a = 15 then 0 else (s.dev.poolS - s.dev.poolU) * 2 ^ min a 10 / 2 ^ 7
        let ing := s.dev.ingCharge i g
        ((x ≤ ing ∨ 0 < s.dev.hdrmCharge i g) → t.dev.xoff i g = true) ∧
        (ing < x → ing + s.dev.cm F.QRY_HDRM_XON_DELTA [i, g] ≤ x → s.dev.hdrmCharge i g = 0 → t.dev.xoff i g = false) ∧
        (ing < x → x < ing + s.dev.cm F.QRY_HDRM_XON_DELTA [i, g] → s.dev.hdrmCharge i g = 0 → t.dev.xoff i g = s.dev.xoff i g)) ∧
      (∀ i g, i < 1024 → g < 8 → s.dev.pfcEn i g = false → t.dev.xoff i g = s.dev.xoff i g) ∧
      ∀ r ix, (∀ jx, r.key ix ≠ R.QRY_PFC_STAT.key jx) → t.dev.raw r ix = s.dev.raw r ix) ∧
    (∀ p : Fin 1024, (s.dev.egrPort p.val).pfcDue = true → s.dev.linkUp p.val = true → s.dev.mayTransmit p.val = true →
      ∃ t, exec (.pfcFrameSend p) s = .next t ∧ t.dev.out = s.dev.out ++ [.control p.val (s.dev.pfcFrame p.val)] ∧
        (t.dev.egrPort p.val).pfcDue = false ∧ (t.dev.egrPort p.val).pfcFell = 0) ∧
    (∀ p : Fin 1024, s.dev.rd F.QRY_PFC_STAT_XOFF [p.val] ≠ 0 → s.dev.linkUp p.val = true → s.dev.mayTransmit p.val = true →
      ∃ t, exec (.pfcResend p) s = .next t ∧ t.dev.out = s.dev.out ++ [.control p.val (s.dev.pfcFrame p.val)])

/-- Indirect writes and reads of parser tables, programs and gate lists -/
def Obligations.IndirectTables : Prop :=
  ∀ (s : State) (m : Master) (v : BitVec 32), Live s → isPfSvc m = true → s.dev.hostBlocked m = false →
    (∀ n : Fin 32, bitAt v.toNat 31 = true → s.dev.domOn (128 + n.val) = true →
      ∃ t, exec (.prsStWr m n v) s = .next t ∧
        Sparse.get 0 t.dev.dp.prs (prsAt n.val (bitsOf v.toNat 29 29) (bitsOf v.toNat 8 0)) =
          s.dev.dwords F.PRS_ST_DATA_DATA [n.val] 4 ∧
        (∀ k, k ≠ prsAt n.val (bitsOf v.toNat 29 29) (bitsOf v.toNat 8 0) →
          Sparse.get 0 t.dev.dp.prs k = Sparse.get 0 s.dev.dp.prs k) ∧
        (bitAt v.toNat 30 = true → ∀ j < 4, t.dev.rd F.PRS_ST_DATA_DATA [n.val, j] =
          Sparse.get 0 t.dev.dp.prs (prsAt n.val (bitsOf v.toNat 29 29) (bitsOf v.toNat 8 0)) / 2 ^ (32 * j) % 2 ^ 32)) ∧
    (∀ n : Fin 32, bitAt v.toNat 30 = true → bitAt v.toNat 31 = false → s.dev.domOn (128 + n.val) = true →
      ∃ t, exec (.prsStRd m n v) s = .next t ∧ t.dev.dp = s.dev.dp ∧
        ∀ j < 4, t.dev.rd F.PRS_ST_DATA_DATA [n.val, j] =
          Sparse.get 0 s.dev.dp.prs (prsAt n.val (bitsOf v.toNat 29 29) (bitsOf v.toNat 8 0)) / 2 ^ (32 * j) % 2 ^ 32) ∧
    (∀ (n : Fin 64) off w, bitAt v.toNat 31 = true → s.dev.domOn (128 + n.val % 32) = true →
      idxTarget n.val v.toNat = some (off, w) →
      ∃ t, exec (.pipeIdxWr m n v) s = .next t ∧
        Sparse.get 0 t.dev.dp.prog ((2 * n.val + bitsOf v.toNat 29 29) * 65536 + off) =
          s.dev.dwords F.PIPE_IDX_DATA_DATA [n.val] w ∧
        (∀ k, k ≠ (2 * n.val + bitsOf v.toNat 29 29) * 65536 + off → Sparse.get 0 t.dev.dp.prog k = Sparse.get 0 s.dev.dp.prog k) ∧
        (bitAt v.toNat 30 = true → ∀ j < w, t.dev.rd F.PIPE_IDX_DATA_DATA [n.val, j] =
          Sparse.get 0 t.dev.dp.prog ((2 * n.val + bitsOf v.toNat 29 29) * 65536 + off) / 2 ^ (32 * j) % 2 ^ 32)) ∧
    (∀ n : Fin 64, bitAt v.toNat 31 = true → s.dev.domOn (128 + n.val % 32) = true → idxTarget n.val v.toNat = none →
      ∃ t, exec (.pipeIdxWr m n v) s = .next t ∧ t.dev.dp = s.dev.dp ∧
        ∀ j, j < 8 → t.dev.rd F.PIPE_IDX_DATA_DATA [n.val, j] = s.dev.rd F.PIPE_IDX_DATA_DATA [n.val, j]) ∧
    (∀ (n : Fin 64) off w, bitAt v.toNat 30 = true → bitAt v.toNat 31 = false → s.dev.domOn (128 + n.val % 32) = true →
      idxTarget n.val v.toNat = some (off, w) →
      ∃ t, exec (.pipeIdxRd m n v) s = .next t ∧ t.dev.dp = s.dev.dp ∧
        ∀ j < w, t.dev.rd F.PIPE_IDX_DATA_DATA [n.val, j] =
          Sparse.get 0 s.dev.dp.prog ((2 * n.val + bitsOf v.toNat 29 29) * 65536 + off) / 2 ^ (32 * j) % 2 ^ 32) ∧
    (bitAt v.toNat 31 = true → s.dev.gclLocked (bitsOf v.toNat 25 16) (bitsOf v.toNat 29 29) = false →
      ∃ t, exec (.gclWr m v) s = .next t ∧
        Sparse.get 0 t.dev.dp.gcl (gclAt (bitsOf v.toNat 25 16) (bitsOf v.toNat 29 29)
          (if bitAt v.toNat 28 then 0 else 1 + bitsOf v.toNat 5 0)) = s.dev.gclData (bitAt v.toNat 28) ∧
        (∀ k, k ≠ gclAt (bitsOf v.toNat 25 16) (bitsOf v.toNat 29 29) (if bitAt v.toNat 28 then 0 else 1 + bitsOf v.toNat 5 0) →
          Sparse.get 0 t.dev.dp.gcl k = Sparse.get 0 s.dev.dp.gcl k)) ∧
    (bitAt v.toNat 31 = true → s.dev.gclLocked (bitsOf v.toNat 25 16) (bitsOf v.toNat 29 29) = true →
      ∃ t, exec (.gclWr m v) s = .next t ∧ t.dev.dp = s.dev.dp ∧ t.dev.on F.EGR_STAT_GCL_WR_REJ [] = true) ∧
    (bitAt v.toNat 31 = true → bitAt v.toNat 30 = true →
      ∃ t, exec (.gclWr m v) s = .next t ∧
        ∀ j < 4, t.dev.rd F.EGR_GCL_DATA_DATA [j] = Sparse.get 0 t.dev.dp.gcl (gclAt (bitsOf v.toNat 25 16)
          (bitsOf v.toNat 29 29) (if bitAt v.toNat 28 then 0 else 1 + bitsOf v.toNat 5 0)) / 2 ^ (32 * j) % 2 ^ 32) ∧
    (bitAt v.toNat 30 = true → bitAt v.toNat 31 = false →
      ∃ t, exec (.gclRd m v) s = .next t ∧ t.dev.dp = s.dev.dp ∧
        ∀ j < 4, t.dev.rd F.EGR_GCL_DATA_DATA [j] = Sparse.get 0 s.dev.dp.gcl (gclAt (bitsOf v.toNat 25 16)
          (bitsOf v.toNat 29 29) (if bitAt v.toNat 28 then 0 else 1 + bitsOf v.toNat 5 0)) / 2 ^ (32 * j) % 2 ^ 32)

/-- The dynamic threshold of a queue -/
def Obligations.DynamicThreshold : Prop :=
  ∀ (d : Dev) (v : Nat),
    let s := d.poolS
    let u := d.poolU
    let a := if isVoq v then d.cm F.QRY_Q_CFG_ALPHA [voqPort v, voqQueue v] else d.cm F.QRY_INT_CFG_ALPHA [intDest v]
    (s ≤ u → d.threshold v = 0) ∧
    (u < s → a ≤ 10 → d.threshold v = ⌊((s : ℚ) - u) * (2 : ℚ) ^ ((a : ℤ) - 7)⌋₊) ∧
    (u < s → 11 ≤ a → a ≤ 14 → d.threshold v = (s - u) * 8) ∧
    (a = 15 → d.threshold v = 0)

/-- Batches are written, read back, folded, and spills end. Rests on choices of the model: log 183 (DEDUCED), log 184 (DEDUCED),
log 324 (DESIGN CHOICE), log 325 (DESIGN CHOICE). -/
def Obligations.SpillTraffic : Prop :=
  ∀ (s : State), Live s →
    (∀ (n : BitVec 16) x b, s.dev.ctx n.toNat = some x → x.batches.getLast? = some b → b.at_ = .open_ → b.cells ≠ 0 →
      Runs (.batchClose n) s (s.dev.closeBatch n.toNat b.seq)) ∧
    (∀ n seq t x b e y, s.dev.sump.queue = (n, seq) :: t → s.dev.ctx n = some x → s.dev.batch n seq = some b → s.dev.safe = false →
      let f := s.dev.fillBuckets.batchBoundary
      f.takeExtent x (groupOf seq) = (e, y, true) →
      (f.sump.wrBucket < b.bytes * 1000 ∨ f.batchArriving b = true → Runs .batchWriteIssue s f) ∧
      (b.bytes * 1000 ≤ f.sump.wrBucket → f.batchArriving b = false →
        ∃ t' k ext w, exec .batchWriteIssue s = .next t' ∧ t'.dev.sump.queue = t ∧
          t'.dev.out = s.dev.out ++ [.cxlWrite k ext b.bytes w] ∧ (groupOf seq, ext) ∈ y.chain ∧ k = e.extentPort ext ∧
          w.off = 24576 * b.slot ∧ w.voq = x.voq ∧ w.ctx = x.num ∧ w.seq = b.seq ∧ w.count = b.cells)) ∧
    (∀ n seq t x b e y, s.dev.sump.queue = (n, seq) :: t → s.dev.ctx n = some x → s.dev.batch n seq = some b →
      let f := s.dev.fillBuckets.batchBoundary
      f.takeExtent x (groupOf seq) = (e, y, false) → Runs .batchWriteIssue s f) ∧
    (∀ (n : BitVec 16) seq b, s.dev.batch n.toNat seq = some b → b.at_ = .writing →
      let k := s.dev.extentPort (b.extent.getD 0)
      let d := ((s.dev.modBatch n.toNat seq (fun b => { b with at_ := .written })).inc F.SMP_WR_BATCH_COUNT []).pmc 107 0x50 1
      let e := (s.dev.wr F.CXL_ERR_UNCOR [k] 1).loseBatch 2 b
      Runs (.batchWriteDone n seq true) s
        ((b.segs.foldl (fun d g => d.batchRecord g.copy 0x23 n.toNat seq [BitVec.ofNat 8 k]) d).refitBatch b) ∧
      Runs (.batchWriteDone n seq false) s
        (((e.modBatch n.toNat seq (fun b => { b with at_ := .returned })).linkBack n.toNat).sumpFault 0x42 k)) ∧
    (let f := s.dev.fillBuckets.batchBoundary
     (f.nextReader = none → Runs .batchReadIssue s f) ∧
     ∀ x b, f.nextReader = some (x, b) → s.dev.safe = false →
       b.bytes * 1000 ≤ f.sump.rdBucket ∧ b.at_ = .written ∧
       ∃ t, exec .batchReadIssue s = .next t ∧ t.dev.sump.rdBucket = f.sump.rdBucket - b.bytes * 1000 ∧
         t.dev.out = s.dev.out ++ [.cxlRead (f.extentPort (b.extent.getD 0)) (b.extent.getD 0) b.bytes]) ∧
    (∀ (n : BitVec 16) seq b, s.dev.batch n.toNat seq = some b → b.at_ = .reading →
      let d := ((s.dev.modBatch n.toNat seq (fun b => { b with at_ := .returned })).inc F.SMP_RD_BATCH_COUNT []).pmc 107 0x51 1
      let hurt := fun (lines : Nat) => ((d.wr F.CXL_ERR_POISON [s.dev.extentPort (b.extent.getD 0)] 1).addTo F.CXL_POISON_CNT_COUNT
        [s.dev.extentPort (b.extent.getD 0)] lines).pmc (108 + s.dev.extentPort (b.extent.getD 0)) 0x5B lines
      Runs (.batchReadReturn n seq .clean) s ((d.refitBatch b).linkBack n.toNat) ∧
      Runs (.batchReadReturn n seq (.badHeader 0)) s
        ((((d.loseBatch 1 b).sumpFault 0x41 (s.dev.extentPort (b.extent.getD 0))).refitBatch b).linkBack n.toNat) ∧
      (∀ lines : Fin 3, lines ≠ 0 → Runs (.batchReadReturn n seq (.badHeader lines)) s
        (((((hurt lines.val).loseBatch 0 b).sumpFault 0x40 (s.dev.extentPort (b.extent.getD 0))).refitBatch b).linkBack n.toNat)) ∧
      (∀ (cells records : List (Fin 64)) (lines : Fin 384), lines ≠ 0 → Runs (.batchReadReturn n seq (.poison cells records lines)) s
        ((((((b.poisoned (cells.map (fun c => c.val)) (records.map (fun c => c.val))).foldl (fun (d : Dev) u => d.loseCopy 0 u)
          (hurt lines.val)).sumpFault 0x40 (s.dev.extentPort (b.extent.getD 0)))).refitBatch b).linkBack n.toNat))) ∧
    (∀ (n : BitVec 16) x, s.dev.ctx n.toNat = some x → s.dev.quarryEmpty x.voq = true →
      (x.batches.all (fun b => (b.at_ == .waiting || b.at_ == .open_) && !s.dev.batchArriving b)) = true →
      let l := x.batches.filter (fun b => b.cells != 0)
      l ≠ [] →
      let d := s.dev.setCtx { x with batches := x.batches.map (fun b => { b with at_ := .returned }) }
      let d := { d with sump := { d.sump with queue := d.sump.queue.filter (fun e => e.1 != n.toNat) } }
      Runs (.spillFold n) s (((d.addTo F.SMP_FOLD_COUNT [] l.length).pmc 107 0x52 l.length).linkBack n.toNat)) ∧
    (∀ (n : BitVec 16) x, s.dev.ctx n.toNat = some x →
      (x.batches.any (fun b => b.cells != 0 || b.at_ == .writing || b.at_ == .reading)) = false →
      (s.dev.dp.copies.any (fun c => c.queue == x.voq && !c.released && c.linked != 0)) = false →
      ∃ t, exec (.spillEnd n) s = .next t ∧ t.dev.sump.ctxs = s.dev.sump.ctxs.filter (fun c => c.num != n.toNat) ∧
        t.dev.ctx n.toNat = none ∧ t.dev.dp = s.dev.dp ∧ t.dev.regs = s.dev.regs)

/-- A CXL root port enumerates, retrains, stops and loses its link. Rests on choices of the model: log 283 (DESIGN CHOICE), log
180 (DEDUCED). -/
def Obligations.CxlPorts : Prop :=
  ∀ (s : State) (k : Fin 4), Live s →
    (∀ (m : Master) (v : BitVec 32), isPfSvc m = true → s.dev.hostBlocked m = false → s.dev.domOn (168 + k.val) = true →
      let c := s.dev.setRaw R.CXL_CTL [k.val] (setBitsOf (v.toNat % 64) 1 1 0)
      (s.dev.on F.CXL_CTL_EN [k.val] = false → bitAt v.toNat 0 = true → Runs (.cxlEnumerate m k v) s (c.cxlStart k.val)) ∧
      (s.dev.on F.CXL_CTL_EN [k.val] = true → bitAt v.toNat 0 = true → bitAt v.toNat 1 = true →
        Runs (.cxlRetrain m k v) s (if c.cxlUp k.val then c.cxlLost k.val 0x43 else c.cxlStart k.val)) ∧
      (s.dev.on F.CXL_CTL_EN [k.val] = true → bitAt v.toNat 0 = false →
        ∃ t, exec (.cxlDisable m k v) s = .next t ∧ bitAt t.dev.sump.enumerating k.val = false ∧
          t.dev.on F.CXL_STAT_MEM_READY [k.val] = false ∧ t.dev.on F.CXL_STAT_LINK_UP [k.val] = false ∧
          (s.dev.cxlUp k.val = true → t.dev.on F.CXL_ERR_LINK_DOWN [k.val] = true))) ∧
    (bitAt s.dev.sump.enumerating k.val = true → s.dev.safe = false → s.dev.coreRuns 0 = true →
      (∃ t, exec (.cxlEnumComplete k .noLink) s = .next t ∧ t.dev.rd F.CXL_STAT_ENUM_ERR [k.val] = 1 ∧
        t.dev.on F.CXL_STAT_ENUM_DONE [k.val] = true) ∧
      (∀ sp w (step : Fin 6), ∃ t, exec (.cxlEnumComplete k (.failed sp w step)) s = .next t ∧
        t.dev.rd F.CXL_STAT_ENUM_ERR [k.val] = step.val + 2) ∧
      (∀ sp w (b : BitVec 64), b.toNat < 268435456 → ∃ t, exec (.cxlEnumComplete k (.passed sp w b)) s = .next t ∧
        t.dev.rd F.CXL_STAT_ENUM_ERR [k.val] = 6) ∧
      (∀ sp w (b : BitVec 64), 268435456 ≤ b.toNat →
        ∃ t, exec (.cxlEnumComplete k (.passed sp w b)) s = .next t ∧ t.dev.on F.CXL_STAT_MEM_READY [k.val] = true ∧
          t.dev.rd F.CXL_STAT_ENUM_ERR [k.val] = 0 ∧ t.dev.on F.CXL_STAT_LINK_UP [k.val] = true ∧
          t.dev.rd F.CXL_STAT_CAP [k.val] = min b.toNat 137438953472 / 268435456 ∧
          .cxlHdm k.val (k.val * 0x2000000000) (min b.toNat 137438953472 / 268435456 * 268435456) ∈ t.dev.out)) ∧
    (s.dev.cxlUp k.val = true →
      Runs (.cxlLinkDown k) s (s.dev.cxlLost k.val 0x43) ∧
      Runs (.cxlViral k) s ((s.dev.wr F.CXL_ERR_VIRAL [k.val] 1).cxlLost k.val 0x44)) ∧
    (s.dev.on F.CXL_STAT_LINK_UP [k.val] = true →
      Runs (.cxlFlitReplay k) s ((((s.dev.inc F.CXL_RETRY_CNT_COUNT [k.val]).wr F.CXL_ERR_CE [k.val] 1).pmc (108 + k.val) 0x5A 1).raise
        (46 + k.val) 0x40 0))

/-- From the decision to the wire, and what leaves. Rests on choices of the model: log 51 (DEDUCED), log 176 (DESIGN CHOICE). -/
def Obligations.EgressPath : Prop :=
  (∀ (s : State), Live s → s.dev.safe = false →
    (∀ p : Fin 1024, s.dev.linkUp p.val = true →
      s.dev.portHolds p.val = false →
      let b := s.dev.dropOversizeAll p.val
      let D := fun (d : Dev) q => Sparse.get 0 (d.egrPort p.val).deficit q
      let Q := fun q => max 1 (b.cm F.EGR_Q_CFG_QUANTUM [p.val, q]) * 64
      let level := fun q => b.cm F.EGR_Q_CFG_LEVEL [p.val, q]
      let L := fun (c : Copy) => c.len + b.rd F.EGR_PORT_CFG_OVHD [p.val]
      let sends := fun (t : State) q (c : Copy) => (t.dev.copy c.uid).map (fun c => c.loc) = some .chosen ∧
        Sparse.get 0 (t.dev.egrPort p.val).ptr (level q) = q ∧
        Sparse.get 0 (t.dev.egrPort p.val).rr q = (voqPipe c.queue + 1) % 32
      ((∀ q < 12, b.eligible p.val q = false) → ∃ t, exec (.schedDecision p) s = .next t ∧ t.dev.dp = b.dp) ∧
      ((∃ q < 12, b.eligible p.val q = true) → (∀ q < 12, ∀ c, b.candidate p.val q = some c → c.len ≤ 2 ^ 15) →
        ∃ t q c, exec (.schedDecision p) s = .next t ∧ q < 12 ∧ b.eligible p.val q = true ∧
          (∀ j < 12, b.eligible p.val j = true → level j ≤ level q) ∧ b.candidate p.val q = some c ∧ sends t q c ∧
          (∀ j < 12, j ≠ q → Sparse.get 0 (t.dev.egrPort p.val).rr j = Sparse.get 0 (b.egrPort p.val).rr j) ∧
          (∀ l, l ≠ level q → Sparse.get 0 (t.dev.egrPort p.val).ptr l = Sparse.get 0 (b.egrPort p.val).ptr l) ∧
          ∃ n : Nat → Nat, D t.dev q + L c = D b q + n q * Q q ∧ (∀ j < 12, j ≠ q → D t.dev j = D b j + n j * Q j) ∧
            (∀ j < 12, 0 < n j → b.eligible p.val j = true ∧ level j = level q) ∧
            (∀ j < 12, j ≠ q → 0 < n j → ∃ e, b.candidate p.val j = some e ∧ D t.dev j < L e)) ∧
      (∀ q c, q < 12 → b.eligible p.val q = true → (∀ j < 12, b.eligible p.val j = true → level j ≤ level q) →
        b.candidate p.val q = some c → Sparse.get 0 (b.egrPort p.val).ptr (level q) = q →
        let now := D b q + if (b.egrPort p.val).visited.contains (level q) then 0 else Q q
        (L c ≤ now → ∃ t, exec (.schedDecision p) s = .next t ∧ sends t q c ∧ D t.dev q + L c = now ∧
          ∀ j < 12, j ≠ q → D t.dev j = D b j) ∧
        (∀ i e, i < 11 → let r := (q + 1 + i) % 12
          now < L c → (∀ k < i, level ((q + 1 + k) % 12) ≠ level q) → level r = level q → b.eligible p.val r = true →
          b.candidate p.val r = some e → L e ≤ D b r + Q r →
          ∃ t, exec (.schedDecision p) s = .next t ∧ sends t r e ∧ D t.dev q = now ∧ D t.dev r + L e = D b r + Q r ∧
            ∀ j < 12, j ≠ q → j ≠ r → D t.dev j = D b j))) ∧
    (∀ (n : Fin 32) (same : Bool) d p c f, s.dev.domOn (128 + n.val) = true →
      let clock := if same then s.dev else s.dev.newGrantClock n.val
      let took := Sparse.get [] clock.dp.grants n.val
      took.length < 4 → clock.grant n.val took = (d, some p) →
      let e := { d with dp := { d.dp with grants := Sparse.set [] d.dp.grants n.val (took ++ [p]) } }
      e.chosen p = some c → e.pkt c.pkt = some f →
      Runs (.egressEnter n same) s ((e.egressEnter c p f).queueLost c.queue)) ∧
    (∀ n : Fin 32, s.dev.domOn (128 + n.val) = true → 4 ≤ (Sparse.get [] s.dev.dp.grants n.val).length →
      Runs (.egressEnter n true) s s.dev) ∧
    (∀ u x c f, s.dev.pass u = some x → x.egress = true → x.todo = [] → x.stages ≤ x.stage →
      s.dev.copy (x.copy.getD 0) = some c → s.dev.pkt x.pkt = some f → Runs (.egressEnd u) s (s.dev.egressEnd x c f)) ∧
    (∀ u c, s.dev.copy u = some c → c.loc = .held → s.dev.uncheckedCt c = false →
      Runs (.ctFallback u) s
        ((s.dev.modCopy u (fun c => { c with loc := .ready })).inc F.QRY_CT_FALLBACK_COUNT [voqPort c.queue])) ∧
    (∀ u c, s.dev.copy u = some c → c.loc = .held → s.dev.uncheckedCt c = true → Runs (.ctFallback u) s s.dev) ∧
    (∀ u c, s.dev.copy u = some c → c.loc = .ready → s.dev.mayTransmit (voqPort c.queue) = true →
      Runs (.frameTransmit u) s (s.dev.transmit c)) ∧
    (∀ u c f, s.dev.copy u = some c → s.dev.pkt c.pkt = some f → isVoq c.queue = true → (c.loc = .ready ∨ c.loc = .egress) →
      c.released = false → f.ended = true → Runs (.copyReadDone u) s ((s.dev.readForSend c).releaseCopy u))) ∧
  (∀ (d : Dev) (c : Copy),
    (d.copyChanged c = false → d.frameOut c = d.copySource c) ∧
    (d.copyChanged c = true → 64 ≤ (d.frameOut c).length ∧ fcsGood (d.frameOut c) = true))

/-- Received PFC and PAUSE frames, bad control frames, and timers that run out -/
def Obligations.PauseFrames : Prop :=
  ∀ (s : State) (p : Fin 1024) (f : Control), Live s →
    (s.dev.controlFrame p.val = some f →
      (controlOp f = some 0x0101 → Runs (.pfcRx p) s ((s.dev.takeControl f).pfcRx p.val f.bytes)) ∧
      (controlOp f = some 0x0001 → s.dev.on F.EGR_PORT_CFG_PAUSE_RX_EN [p.val] = true →
        ∃ t, exec (.pauseRx p) s = .next t ∧ t.dev.on F.EGR_PORT_STAT_PAUSE_ALL [p.val] = decide (beVal (sliceOf f.bytes 16 2) ≠ 0) ∧
          Sparse.get 0 (t.dev.egrPort p.val).quanta 8 = beVal (sliceOf f.bytes 16 2) ∧
          t.dev.dp.control = s.dev.dp.control.erase f ∧
          t.dev.rd F.EGR_RX_PAUSE_COUNT [p.val] = min (2 ^ 32 - 1) (s.dev.rd F.EGR_RX_PAUSE_COUNT [p.val] + 1)) ∧
      (controlOp f = some 0x0001 → s.dev.on F.EGR_PORT_CFG_PAUSE_RX_EN [p.val] = false →
        Runs (.pauseRx p) s ((s.dev.takeControl f).inc F.EGR_RX_PAUSE_COUNT [p.val])) ∧
      (controlOp f ≠ some 0x0101 → controlOp f ≠ some 0x0001 →
        Runs (.ctlFrameBad p) s ((s.dev.takeControl f).inc F.EGR_RX_CTL_BAD_COUNT [p.val]))) ∧
    (∀ g : Fin 8, s.dev.priPaused p.val g.val = true → Runs (.pauseTimerExpiry p (some g)) s (s.dev.loadPause p.val g.val 0)) ∧
    (s.dev.on F.EGR_PORT_STAT_PAUSE_ALL [p.val] = true →
      ∃ t, exec (.pauseTimerExpiry p none) s = .next t ∧ t.dev.on F.EGR_PORT_STAT_PAUSE_ALL [p.val] = false)

/-- The PFC watchdog, flushing, gates and the Lehr -/
def Obligations.WatchdogAndFlush : Prop :=
  ∀ (s : State), Live s →
    Runs .pfcwdPeriod s (s.dev.wdPorts.foldl (fun d p =>
      let d := (List.range 8).foldl (fun d g => d.wdPeriod p g) d
      d.setEgrPort p { d.egrPort p with rxPause := 0, held := bitsFrom 8 (d.priPaused p), heldQ := bitsFrom 12 (fun q => (d.candidate p q).isSome) }) s.dev) ∧
    (∀ (p : Fin 1024) r, s.dev.flushReason p.val = some r →
      ∃ t, exec (.flushStart p) s = .next t ∧ t.dev.flushing p.val = true ∧ (t.dev.egrPort p.val).flush = some r) ∧
    (∀ (n : Fin 32) k r c, s.dev.safe = false → k < 384 →
      let at_ := fun j => ((s.dev.egrPort (32 * n.val)).flushNext + j) % 384
      let due := fun j => s.dev.queueFlush (32 * n.val + at_ j / 12) (at_ j % 12)
      let cand := fun j => s.dev.candidate (32 * n.val + at_ j / 12) (at_ j % 12)
      due k = some r → cand k = some c → (∀ j < k, due j = none ∨ cand j = none) →
      let d := s.dev.setEgrPort (32 * n.val) { s.dev.egrPort (32 * n.val) with flushNext := (at_ k + 1) % 384 }
      Runs (.flushDrop n) s (((d.pmc 106 0x4C 1).nextVoq c).schedDrop r c)) ∧
    (∀ n : Fin 32, (∀ p q, p < 32 → q < 12 → s.dev.queueFlush (32 * n.val + p) q = none ∨ s.dev.candidate (32 * n.val + p) q = none) →
      Runs (.flushDrop n) s s.dev) ∧
    (∀ p : Fin 1024, s.dev.on F.EGR_PORT_CFG_GATE_EN [p.val] = true →
      Runs (.gateIntervalEnd p) s (s.dev.dropOversizeAll p.val)) ∧
    (∀ p : Fin 1024, s.dev.on F.EGR_PORT_STAT_PEND [p.val] = true → (s.dev.egrPort p.val).tsw ≤ s.dev.ns →
      let d := ((s.dev.noteGates p.val).wr F.EGR_PORT_STAT_OPER_BANK [p.val] (1 - s.dev.rd F.EGR_PORT_STAT_OPER_BANK [p.val])).wr
        F.EGR_PORT_STAT_PEND [p.val] 0
      Runs (.gclSwitch p) s ((d.setEgrPort p.val { d.egrPort p.val with tsw := 0 }).dropOversizeAll p.val)) ∧
    (∀ (m : Master) (p : Fin 1024) (v : BitVec 32), isPfSvc m = true → s.dev.hostBlocked m = false → bitAt v.toNat 31 = true →
      s.dev.on F.EGR_PORT_STAT_PEND [p.val] = false → s.dev.rd F.EGR_PORT_STAT_OPER_BANK [p.val] ≠ bitsOf v.toNat 30 30 →
      ((s.dev.wr F.EGR_GCL_CTL_NEW_BANK [p.val] (bitsOf v.toNat 30 30)).gateList p.val (bitsOf v.toNat 30 30)).valid = true →
      ∃ t, exec (.gclSwitchReq m p v) s = .next t ∧ t.dev.on F.EGR_PORT_STAT_PEND [p.val] = true) ∧
    (∃ d : Dev, d = { s.dev with dp := { s.dev.dp with lehrV := (s.dev.dp.lehrV + 1) % 2 ^ 64 } } ∧
      Runs .lehrSlot s (d.dp.lehr.foldl (fun d e => d.lehrReach e.1 e.2) d)) ∧
    (∀ (m : Master) (p : Fin 1024) (q : Fin 12) (v : BitVec 32), isPfSvc m = true → s.dev.hostBlocked m = false →
      s.dev.on F.RST_STAT_INIT_DONE [] = true →
      (∃ t, exec (.lehrRateWrite m p q false v) s = .next t ∧ t.dev.rd F.LEHR_Q_RATE_RATE [p.val, q.val] = v.toNat % 2 ^ 21 ∧
        (s.dev.rd F.LEHR_Q_RATE_RATE [p.val, q.val] ≠ 0 → v.toNat % 2 ^ 21 = 0 → t.dev.lehrEligible p.val q.val = true)) ∧
      ∃ t, exec (.lehrRateWrite m p q true v) s = .next t ∧ t.dev.rd F.LEHR_Q_BURST_BYTES [p.val, q.val] = v.toNat % 2 ^ 24)

/-- MTR_CMD and the colour of a packet. Rests on choices of the model: log 41 (DESIGN CHOICE), log 40 (DESIGN CHOICE). -/
def Obligations.MeterCommands : Prop :=
  (∀ (s : State) (m : Master) (v : BitVec 32), Live s → pfOrSvc m.mid = true → s.dev.hostBlocked m = false →
    s.dev.on F.RST_STAT_INIT_DONE [] = true → bitAt v.toNat 30 = true →
    let i := bitsOf v.toNat 17 0
    (s.dev.dp.mtrBusy = true → ∀ c ∈ [(0, Instr.mtrRead m v), (1, .mtrWrite m v), (2, .mtrClear m v)],
      bitsOf v.toNat 29 28 = c.1 → Runs c.2 s s.dev) ∧
    (bitsOf v.toNat 29 28 = 0 → s.dev.dp.mtrBusy = false → ∃ t, exec (.mtrRead m v) s = .next t ∧
      t.dev.dp = { s.dev.dp with mtrBusy := true } ∧
      t.dev.rd F.MTR_DATA_PROFILE_PROFILE [] = (s.dev.meter i).profile % 2 ^ 12 ∧
      t.dev.rd F.MTR_DATA_LEVEL_LEVEL [1] = (s.dev.refill (s.dev.meter i)).tc / 256 % 2 ^ 25 ∧
      t.dev.rd F.MTR_DATA_LEVEL_LEVEL [2] = (s.dev.refill (s.dev.meter i)).te / 256 % 2 ^ 25) ∧
    (bitsOf v.toNat 29 28 = 1 → s.dev.dp.mtrBusy = false → ∃ t, exec (.mtrWrite m v) s = .next t ∧
      (bitAt v.toNat 27 = false → (t.dev.meter i).tc = min (s.dev.mtrCbs (s.dev.rd F.MTR_DATA_PROFILE_PROFILE [])) (s.dev.meter i).tc ∧
        (t.dev.meter i).te = min (s.dev.mtrEbs (s.dev.rd F.MTR_DATA_PROFILE_PROFILE [])) (s.dev.meter i).te) ∧
      (bitAt v.toNat 27 = true → (t.dev.meter i).tc = s.dev.mtrCbs (s.dev.rd F.MTR_DATA_PROFILE_PROFILE []) ∧
        (t.dev.meter i).te = s.dev.mtrEbs (s.dev.rd F.MTR_DATA_PROFILE_PROFILE [])) ∧
      (t.dev.meter i).profile = s.dev.rd F.MTR_DATA_PROFILE_PROFILE [] ∧ ∀ j, j ≠ i → t.dev.meter j = s.dev.meter j) ∧
    (bitsOf v.toNat 29 28 = 2 → s.dev.dp.mtrBusy = false → ∃ t, exec (.mtrClear m v) s = .next t ∧
      t.dev.meter i = { s.dev.meter i with green := 0, yellow := 0, red := 0 } ∧ ∀ j, j ≠ i → t.dev.meter j = s.dev.meter j)) ∧
  (∀ (d : Dev) (x : Meter) (b c : Nat), d.mtrMode x.profile < 2 →
    (d.police x b c).1.tc ≤ x.tc ∧ (d.police x b c).1.te ≤ x.te ∧
    ((d.police x b c).2 = 2 → (d.police x b c).1 = x) ∧
    ((d.police x b c).2 = 0 → c = 0 ∧ b * 256 ≤ x.tc))

/-- GATHER_GROUP_SET, GATHER_GROUP_CLEAR and GATHER_OP. Rests on choices of the model: log 200 (DEDUCED), log 196 (DEDUCED), log
329 (DEDUCED). -/
def Obligations.GatherJobs : Prop :=
  ∀ (s : State) (n : Fin 256) (j : Job), Live s →
    (∀ b, s.dev.newJob n.val 0x10 = some j → s.dev.jobDma j.id = true →
      let g := parseGroup j b
      let d := ((s.dev.startJob j.id).dmaRead none (min 64 j.sub.len)).dmaRead (some j.id) (j.sub.len - 64)
      (g.inRange j.sub.len = false → Runs (.gatherGroupSet n (.data b)) s (d.finishJob j.id 5 0 0 0)) ∧
      (g.inRange j.sub.len = true → d.groupAllowed g = false → Runs (.gatherGroupSet n (.data b)) s (d.finishJob j.id 6 0 0 0)) ∧
      (g.inRange j.sub.len = true → d.groupAllowed g = true →
        ∃ t, exec (.gatherGroupSet n (.data b)) s = .next t ∧ t.dev.group g.slot = some g ∧
          (∀ k, k ≠ g.slot → t.dev.group k = s.dev.group k) ∧ t.dev.hif.jobs = s.dev.hif.jobs.filter (fun y => y.id != j.id) ∧
          (s.dev.hif.jobs.find? (fun y => y.id == j.id) = some j → ∃ x, t.dev.hif.finished = s.dev.hif.finished ++ [x] ∧
            x.1 = s.dev.rd F.RING_CTL_CQ [n.val] ∧ x.2.last = 0x10 * 2 ^ 16 + 0 * 2 ^ 8 ∧ x.2.sq = some n.val))) ∧
    (∀ r ∈ [HostRead.urOrCa, .timeout, .poisoned], s.dev.newJob n.val 0x10 = some j → s.dev.jobDma j.id = true →
      Runs (.gatherGroupSet n r) s ((s.dev.startJob j.id).dataFault j.id r)) ∧
    (s.dev.newJob n.val 0x11 = some j →
      (s.dev.groupOf (bitsOf (j.p 0) 19 0) = none → Runs (.gatherGroupClear n) s ((s.dev.startJob j.id).finishJob j.id 0 0 0 0)) ∧
      (∀ g, s.dev.groupOf (bitsOf (j.p 0) 19 0) = some g →
        ∃ t, exec (.gatherGroupClear n) s = .next t ∧ t.dev.group g.slot = none ∧
          (∀ c ∈ t.dev.gth.ctxs, c.slot ≠ g.slot))) ∧
    (s.dev.newJob n.val 0x12 = some j →
      let o := parseOp j
      let d := s.dev.startJob j.id
      (o.inRange = false → Runs (.gatherOp n) s (d.finishJob j.id 5 0 0 0)) ∧
      (o.inRange = true → s.dev.groupOf (bitsOf (j.p 0) 19 0) = none → Runs (.gatherOp n) s (d.finishJob j.id 6 0 0 0)) ∧
      (∀ g, o.inRange = true → s.dev.groupOf (bitsOf (j.p 0) 19 0) = some g → g.allows o (j.p 1) = false →
        Runs (.gatherOp n) s (d.finishJob j.id 6 0 0 0)) ∧
      (∀ g, o.inRange = true → s.dev.groupOf (bitsOf (j.p 0) 19 0) = some g → g.allows o (j.p 1) = true →
        ∃ t h, exec (.gatherOp n) s = .next t ∧ t.dev.group g.slot = some h ∧ h.ops = g.ops ++ [o] ∧ h.steps = g.steps))

/-- Frames taken by an engine, dispatch, and the timers of the collectives -/
def Obligations.GatherFramesAndTimers : Prop :=
  (∀ (s : State) (k : Fin 8) (n : Nat) (c : Copy) (f : Pkt), Live s → s.dev.safe = false → s.dev.engineOn k.val = true →
    s.dev.gatherHead k.val = some (n, c) → s.dev.pkt c.pkt = some f →
    let d := { s.dev with gth := { s.dev.gth with next := Sparse.set 0 s.dev.gth.next k.val ((n + 1) % 32) } }
    let a := (d.charge none 3 f.chain.length).receive k.val (gatherIn f)
    let e := (a.1.finalRecord c 0x53 [BitVec.ofNat 8 k.val, BitVec.ofNat 8 a.2]).removeCopy c.uid
    ((gatherIn f).h.kind ≠ 3 → Runs (.gatherContrib k) s e) ∧
    ((gatherIn f).h.kind = 3 → Runs (.gatherAck k) s e)) ∧
  (∀ (s : State), Live s → s.dev.safe = false →
    (∀ g o, s.dev.pickStep s.dev.waitingGroups [] = some (g, o) → Runs .stepDispatch s (s.dev.dispatchStep g o)) ∧
    (∀ (slot : Fin 4096) (st : BitVec 32) (q : BitVec 16) g o c, s.dev.ctxOwner slot.val st.toNat q.toNat = some (g, o, c) →
      c.at_ = .open_ → c.bits ≠ 0 →
      Runs (.nakTimer slot st q) s ((indicesWhere g.m (fun m => !bitAt c.bits m)).foldl
        (fun d m => d.sendNak c.engine g m c.step c.seq 0x0101 0) s.dev) ∧
      (g.partial_ = true → Runs (.stragglerExpiry slot st q) s ((s.dev.inc F.GTH_STRAG_COUNT [c.engine]).completeCtx g o c true)) ∧
      (g.partial_ = false → Runs (.stragglerExpiry slot st q) s ((s.dev.inc F.GTH_STRAG_COUNT [c.engine]).abortOp g o))) ∧
    (∀ (slot : Fin 4096) (st : BitVec 32) g, s.dev.group slot.val = some g → g.ackedBy st.toNat = false →
      Runs (.holdExpiry slot st) s ((s.dev.setGroup { g with steps := g.steps.map (fun x =>
        if x.step = st.toNat && x.resulted then { x with expired := true } else x) }).retire slot.val)))

/-- The rows of R246 decide in their order -/
def Obligations.GatherRows : Prop :=
  (∀ (d : Dev) (k : Nat) (x : GIn),
    let e := (d.receive k x).1
    let kept := ∀ c ∈ e.gth.ctxs, c ∈ d.gth.ctxs
    (x.h.ver ≠ 1 ∨ (x.h.kind ≠ 1 ∧ x.h.kind ≠ 3) → d.receive k x = ((d.inc F.GTH_RX_BAD_COUNT [k]).charge none 12 1, 1)) ∧
    (∀ g, x.h.ver = 1 → (x.h.kind = 1 ∨ x.h.kind = 3) → d.groupOf x.h.group = some g → bitAt g.engines k = true →
      let raised := fun t : Int => ∃ h, e.group g.slot = some h ∧ h.acked = g.acked.modify x.h.member (fun a => max a t)
      let same := (∀ st t, g.steps = st :: t → st.resulted = false) → e.gth.ctxs = d.gth.ctxs
      (x.h.gen ≠ g.gen → (d.receive k x).2 = 3) ∧
      (x.h.gen = g.gen → x.h.member < g.m → x.src = ((d.epAddr g.ep).1, (g.members.getD x.h.member {}).ip) →
        (x.h.kind = 3 → (d.receive k x).2 = 5 ∧ raised x.h.step ∧ kept ∧ same ∧ e.dp = d.dp) ∧
        (∀ o c, x.h.kind = 1 → x.badLength = false → g.retired x.h.step = false → g.opAt x.h.step = some o → x.h.differs o = false →
          d.gctx g.slot x.h.step x.h.seq = some c →
          (c.at_ = .failed → (d.receive k x).2 = 12 ∧ raised ((x.h.step : Int) - g.window) ∧ kept ∧ same ∧
            e = (((d.charge (g.jobAt x.h.step) 12 1).sendError k g x.h.member x.h.step x.h.seq 8).acknowledge g.slot x.h.member
              ((x.h.step : Int) - g.window))) ∧
          (c.at_ = .complete → (d.receive k x).2 = 13 ∧ raised ((x.h.step : Int) - g.window) ∧ kept) ∧
          (c.at_ = .open_ → bitAt c.bits x.h.member = true → (d.receive k x).2 = 14 ∧ raised ((x.h.step : Int) - g.window) ∧
            kept ∧ same ∧ e.dp = d.dp ∧
            e.rd F.GTH_DUP_COUNT [k] = min (2 ^ 32 - 1) (d.rd F.GTH_DUP_COUNT [k] + 1)) ∧
          (c.at_ = .open_ → bitAt c.bits x.h.member = false → (d.receive k x).2 = 15))))) ∧
  (∀ (d : Dev) (k : Nat) (g : Group) (i step seq code : Nat),
    (d.answerOk k = true → ∃ (d' : Dev) (h : GHdr), h.kind = 5 ∧ h.code = code ∧ h.step = step ∧ h.seq = seq ∧ h.group = g.id ∧ h.gen = g.gen ∧
      d'.dp = d.dp ∧ d.sendError k g i step seq code = ((d'.sendMember g h [] i none).inc F.GTH_ERR_TX_COUNT [k]).noteError g.slot step) ∧
    (d.answerOk k = false → d.sendError k g i step seq code = d.inc F.GTH_ANS_DROP_COUNT [k]))

/-- Integer sums saturate once, and do not depend on the order -/
def Obligations.IntegerSums : Prop :=
  (∀ (l : List Nat), l ≠ [] → (∀ x ∈ l, x < 2 ^ 32) →
    let a := l.foldl (fun a x => a.add 0 5 x) ({} : Accum)
    let b := l.foldl (fun a x => a.add 0 6 x) ({} : Accum)
    let sum : Int := (l.map (fun x => toSigned 32 x)).sum
    toSigned 32 (a.result 0 5).1 = max (-2 ^ 31) (min (2 ^ 31 - 1) sum) ∧
    ((a.result 0 5).2 = true ↔ sum < -2 ^ 31 ∨ 2 ^ 31 - 1 < sum) ∧
    (b.result 0 6).1 = min (2 ^ 32 - 1) l.sum ∧ ((b.result 0 6).2 = true ↔ 2 ^ 32 - 1 < l.sum)) ∧
  (∀ (t : Nat) (l m : List Nat), (t = 2 ∨ t = 3 ∨ t = 4) → List.Perm l m →
    (l.foldl (fun a x => a.add 0 t x) ({} : Accum)).result 0 t = (m.foldl (fun a x => a.add 0 t x) ({} : Accum)).result 0 t)

/-- The Annealer's tick, what it publishes, and a publication that does not come -/
def Obligations.AnnealerPeriod : Prop :=
  (∀ (s : State) (cores : List CoreWork) (ack : Bool), Live s →
    let d := cores.zipIdx.foldl (fun d w => d.coreWork w.2 w.1) (s.dev.publish.setOpp.driveVoltage ack)
    let ticks := if d.rd F.PMC_SNAP_PERIOD_TICKS [] = 0 then 0 else d.tlm.snapTicks + 1
    Runs (.anlPeriod cores ack) s
      (Dev.pmc { d with act := [], anl := { d.anl with counts := d.act }, tlm := { d.tlm with snapTicks := ticks } } 129 0x78 1).compute) ∧
  (∀ (s : State), Live s → Runs .pubGap s ((s.dev.takeLevel 3).raise 53 0x4B 0)) ∧
  (∀ (d : Dev) (l : Nat), l < 4 → (d.takeLevel l).rd F.LEHR_STAT_LEVEL [] = l ∧ (d.takeLevel l).gth.level = l ∧
    (d.takeLevel l).sump.level = l) ∧
  (∀ (d : Dev), max d.anl.level d.forcedLevel < 4 →
    d.publish.rd F.ANL_STAT_LEVEL [] = max d.anl.level d.forcedLevel ∧
    d.publish.rd F.ANL_STAT_SEQ [] = (d.rd F.ANL_STAT_SEQ [] + 1) % 16 ∧
    d.publish.rd F.LEHR_STAT_LEVEL [] = max d.anl.level d.forcedLevel ∧
    d.publish.sump.level = max d.anl.level d.forcedLevel ∧ d.publish.gth.level = max d.anl.level d.forcedLevel) ∧
  (∀ d : Dev, d.publish.sump.allowance = d.anl.aNext ∧ d.publish.sump.levelNow = d.sump.levelNow ∧
    d.publish.sump.allowNow = d.sump.allowNow ∧ d.publish.raw R.SMP_BW_STAT [] = d.raw R.SMP_BW_STAT [] ∧
    d.batchBoundary.sump.levelNow = d.sump.level ∧ d.batchBoundary.sump.allowNow = d.sump.allowance)

/-- The classes share what the cap leaves, and never more -/
def Obligations.PowerShares : Prop :=
  ∀ (d : Dev) (dem : Nat → Nat) (avail w : Nat),
    let g := fun c => Sparse.get 0 (d.grants dem avail w) c
    g 0 + g 1 + g 2 ≤ avail ∧ (∀ c, c < 3 → g c ≤ dem c) ∧
    (dem 0 + dem 1 + dem 2 ≤ avail → g 0 = dem 0 ∧ g 1 = dem 1 ∧ g 2 = dem 2)

/-- The priority order of the classes -/
def Obligations.PriorityOrders : Prop :=
  (∀ d : Dev, let n := d.rd F.ANL_STAT_OPP_CUR []
    d.prio = if d.cm F.ANL_OPP_PRIO_EN [n] = 1 then d.cm F.ANL_OPP_PRIO [n] else d.cm F.ANL_CFG_PRIO []) ∧
  prioOrder 0 = [0, 2, 1] ∧ prioOrder 1 = [0, 1, 2] ∧ prioOrder 2 = [2, 0, 1] ∧ prioOrder 3 = [2, 1, 0] ∧
  prioOrder 4 = [1, 0, 2] ∧ prioOrder 5 = [1, 2, 0] ∧ prioOrder 6 = [0, 2, 1] ∧ prioOrder 7 = [0, 2, 1]

/-- PMBus windows, alerts and supply sags. Rests on choices of the model: log 290 (DESIGN CHOICE), log 212 (DEDUCED), log 5
(DEDUCED). -/
def Obligations.MeasurementAndSags : Prop :=
  (∀ (s : State), Live s →
    (∀ reads (words : List PmbRead), s.dev.on F.ANL_PMB_CFG_EN [] = true → s.dev.pmbMismatch = false →
      let d := { s.dev with anl := { s.dev.anl with winSum := 0, winN := 0 } }
      let rails := (List.range d.railCount).map (fun r => (r, reads.getD r .failed))
      let d := rails.foldl (fun d x => d.railBus x.1 d.anl.readStatus) d
      let status := if d.anl.readStatus then (List.range d.railCount).map (fun r => words.getD r .failed) else []
      let d := if d.anl.readStatus then d.statusReads status else d
      let e := rails.foldl (fun d x => d.railRead x.1 x.2) d
      let bad := rails.any (fun x => x.2 == .failed) || status.any (fun x => x == .failed)
      (bad = true → Runs (.pmbWindow reads words) s e.windowFailed) ∧
      (bad = false → Runs (.pmbWindow reads words) s
        (e.windowDone (sumBy rails (fun x => e.rd F.ANL_PMB_MEAS_POWER [x.1])) s.dev.anl.winSum s.dev.anl.winN))) ∧
    (∀ reads (words : List PmbRead), s.dev.on F.ANL_PMB_CFG_EN [] = true → s.dev.pmbMismatch = true →
      Runs (.pmbWindow reads words) s ({ s.dev with anl := { s.dev.anl with winSum := 0, winN := 0 } } : Dev).windowFailed) ∧
    (s.dev.on F.ANL_STAT_ALERT [] = false →
      Runs .pmbAlert s ((s.dev.wr F.ANL_STAT_ALERT [] 1).alertFault.powerEvent 5)) ∧
    Runs .pmbAlertNRise s (s.dev.wr F.ANL_STAT_ALERT [] 0)) ∧
  (∀ (s : State), s.dev.rst.level ≠ none → s.dev.spl.dead = [] → s.dev.on F.ANL_STAT_ALERT [] = false →
    (∃ t, exec .pmbAlert s = .next t ∧ t.dev.on F.ANL_STAT_ALERT [] = true ∧ t.dev.spl = s.dev.spl ∧ t.dev.anl = s.dev.anl)) ∧
  (∀ (d : Dev) (x : FaultRec), x ∈ d.alertFault.spl.records → x.collector = 53 → x.source = 0x42 → x.inj = false →
    d.rd F.SPL_REC_SEQ_SEQ [] ≤ x.seq → x.seq ∈ d.alertFault.anl.alertRecs) ∧
  (∀ (d : Dev) (l : List PmbRead),
    let t := d.statusReads l
    t.anl.readStatus = false ∧ t.anl.statusWords = pmbWords l ∧ t.anl.alertRecs = [] ∧
      (∀ x ∈ d.spl.records, x.seq ∈ d.anl.alertRecs → ∃ y ∈ t.spl.records, y.seq = x.seq ∧ y.collector = x.collector ∧
        y.source = x.source ∧ y.ns = x.ns ∧ y.words = pmbWords l) ∧
      (∀ x ∈ d.spl.records, x.seq ∉ d.anl.alertRecs → x ∈ t.spl.records)) ∧
  (∀ (s : State), Live s →
    (∀ io aon busy, (io || aon) = true → s.dev.on F.ANL_SAG_INHIBIT [] = true →
      ∃ t, exec (.sagEnter io aon busy) s = .next t ∧ t.dev.on F.ANL_SAG_INHIBIT [] = true ∧ t.dev.on F.ANL_SAG_SEEN [] = true ∧
        t.dev.on F.ANL_SAG_IO_LOW [] = io ∧ t.dev.on F.ANL_SAG_AON_LOW [] = aon ∧
        (busy = true → t.dev.on F.ANL_SAG_FLASH_UNCERTAIN [] = true)) ∧
    (∀ io aon busy, (io || aon) = true → s.dev.on F.ANL_SAG_INHIBIT [] = false →
      let d := (s.dev.wr F.ANL_SAG_INHIBIT [] 1).wr F.ANL_SAG_SEEN [] 1
      let d := (d.wr F.ANL_SAG_IO_LOW [] (b2n io)).wr F.ANL_SAG_AON_LOW [] (b2n aon)
      let d := if busy then d.wr F.ANL_SAG_FLASH_UNCERTAIN [] 1 else d
      Runs (.sagEnter io aon busy) s ((d.otpAbort.raise 53 0x4A 0).powerEvent 14)) ∧
    (s.dev.on F.ANL_SAG_INHIBIT [] = true → s.dev.coreRuns 7 = false →
      let d := ((s.dev.wr F.ANL_SAG_INHIBIT [] 0).wr F.ANL_SAG_IO_LOW [] 0).wr F.ANL_SAG_AON_LOW [] 0
      Runs .sagRelease s ({ d with svc := { d.svc with otpWait := false } }.powerEvent 15)) ∧
    (s.dev.on F.ANL_SAG_INHIBIT [] = true →
      ∃ t, exec .sagRelease s = .next t ∧ t.dev.on F.ANL_SAG_INHIBIT [] = false ∧ t.dev.svc.otpWait = false))

/-- Hints, droop, temperatures and the remote diodes. Rests on choices of the model: log 69 (DEDUCED), log 68 (DEDUCED). -/
def Obligations.HintsDroopAndHeat : Prop :=
  ∀ (s : State), Live s →
    (∀ j, ∃ t, exec (.hintExpiry j) s = .next t ∧ t.dev.hif.hints =
        (s.dev.hif.hints.map (fun h => if h.uid = j ∧ h.us ≠ 0 then { h with expired := true } else h)).filter
          (fun h => !h.expired || h.holding) ∧
      t.dev.hif.jobs = s.dev.hif.jobs ∧ t.dev.regs = s.dev.regs) ∧
    (∀ j, ∃ t, exec (.hintDispatchRelease j) s = .next t ∧ (∀ h ∈ t.dev.hif.hints, h.uid = j → h.holding = false) ∧
      (∀ h ∈ s.dev.hif.hints, h.uid ≠ j → (h.expired = false ∨ h.holding = true) → h ∈ t.dev.hif.hints) ∧
      t.dev.hif.jobs = s.dev.hif.jobs ∧ t.dev.regs = s.dev.regs) ∧
    (∀ die : Fin 4, (∃ t, exec (.droopFire die) s = .next t ∧ die.val ∈ t.dev.anl.stretched ∧
        Sparse.get 0 t.dev.anl.fires die.val = Sparse.get 0 s.dev.anl.fires die.val + 1) ∧
      ∃ t, exec (.stretchEnd die) s = .next t ∧ die.val ∉ t.dev.anl.stretched ∧ t.dev.regs = s.dev.regs) ∧
    (let most := (List.range 4).foldl (fun a i => max a (Sparse.get 0 s.dev.anl.fires i)) 0
     let g := s.dev.rd F.ANL_AVS_STAT_GUARD_MV []
     ∃ t, exec .droopWindow s = .next t ∧ t.dev.anl.fires = [] ∧
      t.dev.anl.droopFloor = decide (4 * max 1 (s.dev.rd F.ANL_DROOP_LIMIT []) ≤ most) ∧
      (most < max 1 (s.dev.rd F.ANL_DROOP_LIMIT []) → t.dev.regs = s.dev.regs) ∧
      (max 1 (s.dev.rd F.ANL_DROOP_LIMIT []) ≤ most → g + s.dev.rd F.ANL_DROOP_GUARD_STEP [] ≤ s.dev.rd F.ANL_DROOP_GUARD_MAX [] →
        t.dev.rd F.ANL_AVS_STAT_GUARD_MV [] = g + s.dev.rd F.ANL_DROOP_GUARD_STEP []) ∧
      (max 1 (s.dev.rd F.ANL_DROOP_LIMIT []) ≤ most → s.dev.rd F.ANL_DROOP_GUARD_MAX [] < g + s.dev.rd F.ANL_DROOP_GUARD_STEP [] →
        t.dev.rd F.ANL_AVS_STAT_GUARD_MV [] = max g (s.dev.rd F.ANL_DROOP_GUARD_MAX []))) ∧
    (s.dev.anl.fires = [] → ∃ t, exec .guardFall s = .next t ∧ t.dev.rd F.ANL_AVS_STAT_GUARD_MV [] =
      s.dev.rd F.ANL_AVS_STAT_GUARD_MV [] - s.dev.rd F.ANL_DROOP_GUARD_STEP []) ∧
    (∀ l : List (BitVec 12), l.length = 64 →
      let r := l.map (fun x => x.toNat)
      let d := (List.range 64).foldl (fun (d : Dev) i => d.wr F.ANL_TEMP_SENS_T [i] (r.getD i 0x800)) s.dev
      let e := (d.setTemps r).sensorFaults (indicesWhere 64 (fun i => r.getD i 0x800 == 0x800))
      Runs (.sensorConvert l) s (e.thermal.thermTrip
        (indicesWhere 64 (fun i => r.getD i 0x800 != 0x800 && (1040 : Int) ≤ toSigned 12 (r.getD i 0x800))))) ∧
    (s.dev.tHot < thermEighths (s.dev.rd F.ANL_THERM_CRIT []) - 40 →
      Runs .thermCritExit s (s.dev.anlState F.ANL_STAT_THERM_CRIT 0x47 11 false)) ∧
    (∀ a b, let d := (s.dev.diode 0 a).diode 1 b
      Runs (.rdiodeRead a b) s (d.wr F.ANL_STAT_RD_HOT [] (b2n (!d.anl.rdHot.isEmpty))))

/-- Time passes by one clock where no command waits, and is set and stepped by software. Rests on choices of the model: log 277
(PRESUMED), log 220 (DEDUCED), log 6 (DESIGN CHOICE). -/
def Obligations.TimeBase : Prop :=
  ∀ (s : State), Live s →
    (s.pending = [] → step s = .next { s with dev := Dev.latched s.dev s.dev.clock }) ∧
    (s.dev.tlm.sweep = none → s.dev.spl.inj = none → (∀ p, p < 4 → s.dev.auxPortOf p = none) → s.dev.tbl.scan = none →
      (∀ j ∈ s.dev.tbl.jobs, j.dump = false) → s.dev.svc.unloaded = [] → (∀ c, c < 64 → s.dev.requestIn c = none ∧ s.dev.requestWaits c = false) →
      s.dev.ipfixCollectors = 0 →
      let t := s.dev.clock
      (t.ns * 2 ^ 32 + t.frac : Int) = ((s.dev.ns * 2 ^ 32 + s.dev.frac : Int) + 2 ^ 32 + s.dev.trim) % 2 ^ 96 ∧
      -4294967 ≤ s.dev.trim ∧ s.dev.trim ≤ 4294967 ∧
      (∀ r ix, r.key ix ≠ R.AUX_STAT.key [] → t.raw r ix = s.dev.raw r ix) ∧
      (s.dev.domOn 181 = true → t.on F.AUX_STAT_PLL_LOCK [] = true) ∧
      t.tbl = s.dev.tbl ∧ t.spl = s.dev.spl ∧ t.hif = s.dev.hif ∧ t.out = s.dev.out ∧ t.dp.pkts = s.dev.dp.pkts ∧
      t.dp.copies = s.dev.dp.copies) ∧
    (∀ m, isPfSvc m = true → s.dev.hostBlocked m = false →
      let x := s.dev.rd F.TLM_TIME_STEP_STEP []
      Runs (.timeSet m) s { s.dev with ns := x, frac := 0 } ∧
      ∃ t, exec (.timeStep m) s = .next t ∧ t.dev.frac = s.dev.frac ∧ t.dev.regs = s.dev.regs ∧ t.dev.ns < 2 ^ 64 ∧
        (t.dev.ns : Int) % 2 ^ 64 = ((s.dev.ns : Int) + toSigned 64 x) % 2 ^ 64) ∧
    (∀ d : Dev, d.timeCtl 3 = { d with ns := d.rd F.TLM_TIME_STEP_STEP [], frac := 0 })

/-- Streams, samples, histograms, performance counters and IPFIX. Rests on choices of the model: log 299 (DESIGN CHOICE), log 60
(DESIGN CHOICE), log 298 (DESIGN CHOICE). -/
def Obligations.TelemetryAndCounters : Prop :=
  ∀ (s : State), Live s →
    (∀ (n : Fin 256) j, s.dev.newJob n.val 0x30 = some j →
      let k := j.p 0 % 4
      let d := s.dev.startJob j.id
      let fit := d.on F.TLM_STREAM_CFG_EN [k] && !d.on F.TLM_STREAM_CFG_DEST [k] && d.rd F.TLM_STREAM_CFG_RING [k] == n.val
      (fit = false → Runs (.tlmPost n) s (d.finishJob j.id 6 0 0 0)) ∧
      (fit = true → (j.sub.len = 0 ∨ j.sub.len % 32 ≠ 0 ∨ 16777216 < j.sub.len) → Runs (.tlmPost n) s (d.finishJob j.id 5 0 0 0)) ∧
      (fit = true → 0 < j.sub.len → j.sub.len % 32 = 0 → j.sub.len ≤ 16777216 →
        Runs (.tlmPost n) s ((d.setStream k { d.stream k with bufs := (d.stream k).bufs ++
          [{ job := j.id, ring := n.val, frags := j.frags, len := j.sub.len }] }).streamPump k (d.stream k).queue.length))) ∧
    (∀ (k : Fin 4) b t, (s.dev.stream k.val).bufs = b :: t → s.dev.rd F.TLM_STREAM_CFG_FLUSH_US [k.val] ≠ 0 → b.written ≠ 0 →
      Runs (.tlmFlush k) s ((s.dev.setStream k.val { s.dev.stream k.val with bufs := t }).finishJob b.job 0 b.written 0 0)) ∧
    (s.dev.on F.TLM_QS_CFG_EN [] = true → s.dev.safe = false →
      (∀ x, s.dev.tlm.sweep = some x → Runs .qsSweep s ((s.dev.inc F.TLM_QS_SKIP_COUNT []).wr F.TLM_STAT_QS_OVERRUN [] 1)) ∧
      (s.dev.tlm.sweep = none →
        Runs .qsSweep s ({ s.dev with tlm := { s.dev.tlm with sweep := some (0, s.dev.rst.mono) } } : Dev).sweepTick)) ∧
    (∀ m, hasWindow m = true → s.dev.hostBlocked m = false →
      Runs (.histLatchRead m) s (s.dev.histLatch.emit (.readData m.mid R.TLM_HQ_DATA.bar0 
        (s.dev.histLatch.shownWord R.TLM_HQ_DATA [0] (s.dev.histLatch.tlm.hqLatch.getD 0 0))))) ∧
    (∀ (pass : Nat) (pc : BitVec 64) u k t, s.dev.pmcWraps = (u, k) :: t →
      let head := [1] ++ leBytes 2 u ++ [BitVec.ofNat 8 k, 0, 0, 0] ++ leBytes 8 s.dev.ns
      let rest : Dev := { s.dev with pmcWraps := t }
      (∀ x, u < 64 → s.dev.pass pass = some x → x.pipe = u →
        Runs (.pmcWrap pass pc) s (rest.record 3 (head ++ (leBytes 4 (x.md' mdFlowHash) ++ leBytes 2 (x.md' mdIngPort) ++
          leBytes 2 (x.md' mdPipeId) ++ leBytes 4 (x.md' mdIngTs / 256))))) ∧
      (121 ≤ u → u ≤ 128 → Runs (.pmcWrap pass pc) s (rest.record 3 (head ++ leBytes 8 pc.toNat))) ∧
      (64 ≤ u → (u < 121 ∨ 128 < u) →
        Runs (.pmcWrap pass pc) s (rest.record 3 (head ++ leBytes 8 (s.dev.rd F.PMC_CYC_COUNT [u]))))) ∧
    (∀ m (v : BitVec 32), pmcWriter m = true → s.dev.hostBlocked m = false → bitAt v.toNat 0 = true →
      Runs (.pmcSnap m v) s
        ((s.dev.wr F.PMC_GCTL_FREEZE [] (bitsOf v.toNat 31 31)).wr F.PMC_GCTL_VIEW [] (bitsOf v.toNat 30 30)).snapshot) ∧
    (s.dev.rd F.PMC_SNAP_PERIOD_TICKS [] ≠ 0 → s.dev.rd F.PMC_SNAP_PERIOD_TICKS [] ≤ s.dev.tlm.snapTicks →
      Runs .pmcSnapPeriodic s ({ s.dev with tlm := { s.dev.tlm with snapTicks := 0 } } : Dev).snapshot) ∧
    (s.dev.ipfixCollectors ≠ 0 →
      (let l := if s.dev.enterprise = 0 then [] else s.dev.svc.queueRecs.map queueRecord
       let d := s.dev.exportRecords 257 queuesPerMessage l.length l
       Runs .ipfixExport s { d with svc := { d.svc with exportDue := true, queueRecs := [] } }) ∧
      ∃ t, exec .ipfixTemplateRefresh s = .next t ∧ t.dev.svc.templateSeq = s.dev.svc.templateSeq + 1 ∧
        t.dev.out = s.dev.out ++ (List.range s.dev.ipfixCollectors).map (fun c =>
          Output.ipfix c (s.dev.ipfixMessage (ipfixSet 2 s.dev.templates)))) ∧
    (∀ d : Dev, d.snapshot.rd F.PMC_SNAP_TIME_NS [] = d.ns % 2 ^ 64 ∧
      d.snapshot.rd F.PMC_SNAP_SEQ_SEQ [] = (d.rd F.PMC_SNAP_SEQ_SEQ [] + 1) % 2 ^ 32)

/-- Accesses to reserved offsets of a doorbell page -/
def Obligations.ReservedDoorbells : Prop :=
  ∀ (s : State) (m : Master) (page : Fin 256) (off : Fin 4096), Live s → s.dev.doorbellLive m = true →
    s.dev.doorbellReserved m page.val off.val = true →
    let a := page.val * 4096 + off.val
    (a % 4 ≠ 0 → s.dev.hasBar m .bar2 = true → s.dev.hostBlocked m = false →
      ∀ w, Runs (.reservedDoorbell m page off w false) s (s.dev.badSize m 1 a)) ∧
    (a % 4 = 0 →
    Runs (.reservedDoorbell m page off true false) s (s.dev.badAccess 1 6 m.mid a) ∧
    Runs (.reservedDoorbell m page off false false) s ((s.dev.badAccess 1 1 m.mid a).emit (.readData m.mid a 0))) ∧
    (s.dev.badAccess 1 6 m.mid a).hif = s.dev.hif ∧
    (∀ r ix, r.win = R.RING_CTL.win → r.id < 4096 → (s.dev.badAccess 1 6 m.mid a).raw r ix = s.dev.raw r ix) ∧
    (s.dev.on F.GLB_BAD_ACCESS_VALID [] = false →
      ∀ k ∈ [1, 6], let e := s.dev.badAccess 1 k m.mid a
        e.on F.GLB_BAD_ACCESS_VALID [] = true ∧ e.rd F.GLB_BAD_ACCESS_KIND [] = k ∧ e.rd F.GLB_BAD_ACCESS_BAR [] = 1 ∧
        e.rd F.GLB_BAD_ACCESS_OFFSET [] = a ∧ e.rd F.GLB_BAD_ACCESS_MID [] = m.mid)

/-- Doorbells are accepted, stale, or refused. Rests on choices of the model: log 21 (DEDUCED). -/
def Obligations.Doorbells : Prop :=
  (∀ (s : State) (m : Master) (page : Fin 256) (v : BitVec 32) (n : Nat), Live s →
    (s.dev.doorbellGate m page.val 0 v.toNat = (s.dev, some n) → Runs (.sqDb m page v false) s (s.dev.sqDoorbell n v.toNat m.mid)) ∧
    (s.dev.doorbellGate m page.val 0x40 v.toNat = (s.dev, some n) → Runs (.cqDb m page v false) s (s.dev.cqDoorbell n v.toNat m.mid))) ∧
  (∀ (s : State) (m : Master) (off : BitVec 26) (n : Nat), Live s → off.toNat < 2 ^ 20 → s.dev.masterOn m = true →
    s.dev.doorbellRing m (off.toNat / 4096) = some n → (off.toNat % 4096 = 0 ∨ off.toNat % 4096 = 0x40) →
    Runs (.rcRead m .bar2 off false []) s (s.dev.emit (.readData m.mid off.toNat
      (if s.dev.hostBlocked m then 0 else s.dev.doorbellValue n (off.toNat % 4096))))) ∧
  (∀ (d : Dev) (n v mid : Nat), d.on F.RING_CTL_OWNMODE [n] = false →
    let s := d.sqSize n
    let c := d.rd F.RING_SQ_CONS_INDEX [n]
    let p := d.rd F.RING_SQ_PROD_INDEX [n]
    let e := d.sqDoorbell n v mid
    (d.on F.RING_CTL_SQ_EN [n] = false → e.rd F.RING_SQ_PROD_INDEX [n] = p ∧
      e.rd F.RING_DB_REJ_COUNT [n] = min (2 ^ 32 - 1) (d.rd F.RING_DB_REJ_COUNT [n] + 1)) ∧
    (d.on F.RING_CTL_SQ_EN [n] = true → (2 ^ 17 ≤ v ∨ 2 * s ≤ v ∨ s < ringDiff v c s) →
      e.rd F.RING_SQ_PROD_INDEX [n] = p ∧ e.on F.RING_STAT_RING_ERR [n] = true ∧
      e.rd F.RING_DB_REJ_COUNT [n] = min (2 ^ 32 - 1) (d.rd F.RING_DB_REJ_COUNT [n] + 1) ∧
      (d.on F.RING_STAT_RING_ERR [n] = false → e.rd F.RING_ERR_INFO_KIND [n] = 1)) ∧
    (d.on F.RING_CTL_SQ_EN [n] = true → v < 2 ^ 17 → v < 2 * s → ringDiff v c s ≤ s →
      e.rd F.RING_SQ_PROD_INDEX [n] = if ringDiff p c s < ringDiff v c s then v else p)) ∧
  (∀ (d : Dev) (n v mid : Nat), d.on F.RING_CTL_OWNMODE [n] = false →
    let s := d.cqSize n
    let h := d.rd F.RING_CQ_CONS_INDEX [n]
    let q := d.rd F.RING_CQ_PROD_INDEX [n]
    let e := d.cqDoorbell n v mid
    (d.cqLive n = false → e.rd F.RING_CQ_CONS_INDEX [n] = h ∧
      e.rd F.RING_DB_REJ_COUNT [n] = min (2 ^ 32 - 1) (d.rd F.RING_DB_REJ_COUNT [n] + 1)) ∧
    (d.cqLive n = true → (2 ^ 17 ≤ v ∨ 2 * s ≤ v ∨ ringDiff q h s < ringDiff v h s) →
      e.rd F.RING_CQ_CONS_INDEX [n] = h ∧ e.on F.RING_STAT_RING_ERR [n] = true ∧
      e.rd F.RING_DB_REJ_COUNT [n] = min (2 ^ 32 - 1) (d.rd F.RING_DB_REJ_COUNT [n] + 1) ∧
      (d.on F.RING_STAT_RING_ERR [n] = false → e.rd F.RING_ERR_INFO_KIND [n] = 2)) ∧
    (d.cqLive n = true → v < 2 ^ 17 → v < 2 * s → ringDiff v h s ≤ ringDiff q h s → e.rd F.RING_CQ_CONS_INDEX [n] = v))

/-- Submission entries are fetched. Rests on choices of the model: log 239 (DEDUCED). -/
def Obligations.SubmissionFetch : Prop :=
  ∀ (s : State) (n : Fin 256), Live s →
    (s.dev.canFetch n.val = true →
      (∀ b, Runs (.sqFetch n (.data b)) s (s.dev.fetchedPhase n.val b 0)) ∧
      (∀ r, r ∈ [HostRead.urOrCa, .timeout, .poisoned] → Runs (.sqFetch n r) s (s.dev.fetchFault n.val r))) ∧
    (s.dev.mayFetch n.val = true → (s.dev.ring n.val).fetched.length < s.dev.prefetch →
      (∀ b, (s.dev.ring n.val).stopSq = false → s.dev.on F.RING_CTL_OWNMODE [n.val] = false →
        s.dev.rd F.RING_POLL_INTERVAL [n.val] ≠ 0 →
        s.dev.rd F.RING_SQ_PROD_INDEX [n.val] = s.dev.rd F.RING_SQ_CONS_INDEX [n.val] →
        let c := s.dev.rd F.RING_SQ_CONS_INDEX [n.val]
        let d := s.dev.dmaRead none 64
        Runs (.sqPoll n (.data b)) s (if entryBit b = d.sqPh n.val c then
          (d.wr F.RING_SQ_PROD_INDEX [n.val] ((c + 1) % (2 * d.sqSize n.val))).takeEntry n.val b else d) ∧
        ∀ r ∈ [HostRead.urOrCa, .timeout, .poisoned], Runs (.sqPoll n r) s (s.dev.fetchFault n.val r)) ∧
      (∀ b, s.dev.on F.RING_CTL_OWNMODE [n.val] = true →
        ((s.dev.ring n.val).awake || s.dev.rd F.RING_POLL_INTERVAL [n.val] != 0) = true →
        let d := s.dev.dmaRead none 64
        let a := d.rd F.RING_SQ_BASE_ADDR [n.val] * 64 + 64 * (d.rd F.RING_SQ_CONS_INDEX [n.val] % d.sqSize n.val) + 60
        (entryBit b = 1 → Runs (.ownerPoll n (.data b)) s
          (((d.emit (.dmaDwords (d.owner n.val) a [leVal (sliceOf b 60 4) - 1])).dmaWrote none 4).takeEntry n.val b)) ∧
        (entryBit b = 0 → Runs (.ownerPoll n (.data b)) s (d.setRing n.val { d.ring n.val with awake := false })) ∧
        ∀ r ∈ [HostRead.urOrCa, .timeout, .poisoned], Runs (.ownerPoll n r) s (s.dev.fetchFault n.val r))) ∧
    (∀ b, (s.dev.ring n.val).phTry ≠ 0 → s.dev.mayRead n.val = true →
      Runs (.phRetry n (.data b)) s (s.dev.fetchedPhase n.val b (s.dev.ring n.val).phTry) ∧
      ∀ r ∈ [HostRead.urOrCa, .timeout, .poisoned], Runs (.phRetry n r) s (s.dev.fetchFault n.val r)) ∧
    (∀ r ∈ [HostRead.urOrCa, .timeout, .poisoned], s.dev.mayRead n.val = true → Runs (.fetchFault n r) s (s.dev.fetchFault n.val r) ∧
      ((s.dev.fetchFault n.val r).ring n.val).err = true)

/-- Jobs are dispatched and run, and completions and interrupts follow. Rests on choices of the model: log 151 (DESIGN CHOICE),
log 236 (DEDUCED). -/
def Obligations.JobsAndCompletions : Prop :=
  ∀ (s : State), Live s →
    (∀ n fr, s.dev.nextRing = some n → Runs (.jobDispatch fr) s (s.dev.dispatch n fr)) ∧
    (∀ (n : Fin 256) j b, s.dev.newJob n.val 0x01 = some j → s.dev.jobDma j.id = true → 64 ≤ j.sub.len → j.sub.len ≤ 16384 →
      s.dev.domOn (128 + j.p 0 % 1024 / 32) = true → j.sub.len ≤ b.length → s.dev.injectRoom (j.p 0 % 1024 / 32) = true →
      ∃ t f, exec (.inject (.host n (.data b))) s = .next t ∧ f.length = j.sub.len ∧
        t.dev.dp.inject = s.dev.dp.inject ++ [{ mid := s.dev.owner n.val, job := some j.id, port := j.p 0 % 1024, bytes := f }] ∧
        (bitAt (j.p 0) 16 = false → f = b.take j.sub.len) ∧
        (bitAt (j.p 0) 16 = true → f.take (j.sub.len - 4) = b.take (j.sub.len - 4) ∧ fcsGood f = true)) ∧
    (∀ (n : Fin 256) j r, s.dev.newJob n.val 0x01 = some j → s.dev.injectRoom (j.p 0 % 1024 / 32) = true →
      ((j.sub.len < 64 ∨ 16384 < j.sub.len) → Runs (.inject (.host n r)) s ((s.dev.startJob j.id).finishJob j.id 5 0 0 0)) ∧
      (64 ≤ j.sub.len → j.sub.len ≤ 16384 → s.dev.domOn (128 + j.p 0 % 1024 / 32) = false →
        Runs (.inject (.host n r)) s ((s.dev.startJob j.id).finishJob j.id 6 0 0 0))) ∧
    (∀ (k : Fin 8) (port : Fin 1024) (b : List Byte), s.dev.coreRuns k.val = true → 64 ≤ b.length → b.length ≤ 16384 →
      s.dev.injectRoom (port.val / 32) = true → s.dev.domOn (128 + port.val / 32) = true →
      ∃ t, exec (.inject (.core k port false b)) s = .next t ∧
        t.dev.dp.inject = s.dev.dp.inject ++ [{ mid := 0x40 + k.val, job := none, port := port.val, bytes := b }]) ∧
    (∀ (n : Fin 256) j, s.dev.newJob n.val 0x02 = some j →
      (160 ≤ j.sub.len → j.sub.len ≤ 16777216 → ∃ t, exec (.rxPost n) s = .next t ∧
        t.dev.hif.rxBufs = s.dev.hif.rxBufs ++ [{ job := j.id, ring := n.val, frags := j.frags, len := j.sub.len }]) ∧
      ((j.sub.len < 160 ∨ 16777216 < j.sub.len) → Runs (.rxPost n) s ((s.dev.startJob j.id).finishJob j.id 5 0 0 0))) ∧
    (∀ (n : Fin 256) j, s.dev.newJob n.val 0x3F = some j → Runs (.fence n) s (s.dev.finishJob j.id 0 0 0 0)) ∧
    (∀ m e t, s.dev.hif.finished = (m, e) :: t → s.dev.on F.RING_CTL_OWNMODE [m] = true → s.dev.cqMay m true = true →
      (s.dev.ring m).hold = [] → (s.dev.ring m).late = [] →
      Runs (.completionWrite true) s (({ s.dev with hif := { s.dev.hif with finished := t } } : Dev).writeEntry m e)) ∧
    (∀ m e t, s.dev.hif.finished = (m, e) :: t → s.dev.on F.RING_CTL_OWNMODE [m] = false →
      ∀ free, Runs (.completionWrite free) s (({ s.dev with hif := { s.dev.hif with finished := t } } : Dev).pushCompletion m e)) ∧
    (∀ (m : Fin 256) e t, s.dev.on F.RING_CTL_OWNMODE [m.val] = true → s.dev.cqMay m.val true = true →
      (s.dev.ring m.val).hold = e :: t →
      let d := s.dev.writeEntry m.val e
      let d := d.setRing m.val { d.ring m.val with hold := t }
      Runs (.cqOwnerPoll m true) s (d.admitLate m.val (d.ring m.val).late.length).drainBacklog) ∧
    (∀ m : Fin 256, s.dev.cqStalled m.val = true →
      Runs (.cqStallTimeout m) s ((s.dev.raise 54 0x40 m.val).stallEvent 7 m.val)) ∧
    (∀ m : Fin 256, s.dev.on F.RING_IRQ_EN [m.val] = true → s.dev.rd F.RING_IRQ_TIMER_US [m.val] ≠ 0 →
      (s.dev.ring m.val).irqCount ≠ 0 → Runs (.irqTimer m) s (s.dev.signalRing m.val)) ∧
    (∀ n c p, s.dev.safe = false → s.dev.rxHead = some (n, c, p) →
      let d := { s.dev with dp := { s.dev.dp with rxNext := (n + 1) % 32 } }
      (∀ k, d.rxTo p = .ring k → Runs .hostRxDeliver s (d.rxRing c p k)) ∧
      (∀ t, d.rxTo p = .core t → Runs .hostRxDeliver s ((d.emit (.coreFrame t p.bytes)).rxGone c 0x52 [0])) ∧
      (d.rxTo p = .unmapped → Runs .hostRxDeliver s ((d.inc F.HIF_RX_UNMAPPED_COUNT []).rxDrop c)))

/-- Rings shut down, are disabled and reset, and the host interface resets. Rests on choices of the model: log 241 (DEDUCED),
log 318 (DEDUCED). -/
def Obligations.RingsEnd : Prop :=
  ∀ (s : State), Live s →
    (∀ (m : Master) (n : Fin 256), isPfSvc m = true → s.dev.hostBlocked m = false →
      (s.dev.on F.RING_CTL_SQ_EN [n.val] = true →
        let d := s.dev.wr F.RING_CTL_SQ_EN [n.val] 0
        let r := d.ring n.val
        Runs (.sqShutdown m n) s
          ((d.setRing n.val { r with stopSq := true, awake := r.awake || d.on F.RING_CTL_OWNMODE [n.val] }).abortRing n.val)) ∧
      (s.dev.on F.RING_CTL_CQ_EN [n.val] = true →
        ∃ t, exec (.cqDisable m n) s = .next t ∧ t.dev.on F.RING_CTL_CQ_EN [n.val] = false ∧ (t.dev.ring n.val).stopCq = true) ∧
      Runs (.ringReset m n) s (s.dev.ringReset n.val)) ∧
    (∀ n : Fin 256, s.dev.sqQuiet n.val = true →
      ∃ t, exec (.sqShutdownEnd n) s = .next t ∧ t.dev.regs = s.dev.regs ∧ (t.dev.ring n.val).stopSq = false ∧
        (t.dev.ring n.val).err = false) ∧
    (∀ n : Fin 256, (s.dev.ring n.val).stopCq = true → (s.dev.ring n.val).hold = [] → (s.dev.ring n.val).late = [] →
      (∀ k < 256, s.dev.rd F.RING_CTL_CQ [k] ≠ n.val ∨ s.dev.sqState k = 0) →
      ∃ t, exec (.cqDisableEffect n) s = .next t ∧ t.dev.regs = s.dev.regs ∧ (t.dev.ring n.val).stopCq = false) ∧
    (∀ v : Fin 31, Runs (.vfReset (.flr v)) s (s.dev.vfReset (v.val + 1))) ∧
    Runs (.vfReset .vfEnableCleared) s s.dev.vfsOff ∧
    (∀ v : Fin 31, s.dev.vfsOff.fnOn (v.val + 1) = false ∧ (s.dev.vfReset (v.val + 1)).fnCfg (v.val + 1) = {} ∧
      bitAt (s.dev.vfReset (v.val + 1)).hif.busMaster (v.val + 1) = false) ∧
    (∀ c, c ∈ [HifResetCause.flrPf0, .hotReset, .linkDisable, .refclk, .perst, .ctl .bmc, .ctl .jtag] ∨ (∃ k, c = .ctl (.svc k)) →
      ∃ t, exec (.hifReset c) s = .next t ∧ t.dev.on F.HIF_STAT_RST_BUSY [] = true ∧ t.dev.hif.rings = [] ∧ t.dev.hif.jobs = [] ∧
        (c ∈ [.hotReset, .linkDisable, .refclk, .perst] → t.dev.on F.HIF_STAT_LINK_UP [] = false) ∧
        (c ∉ [.hotReset, .linkDisable, .refclk, .perst] → t.dev.on F.HIF_STAT_LINK_UP [] = s.dev.on F.HIF_STAT_LINK_UP []) ∧
        (c = .perst → t.dev.hif.perstLow = true) ∧
        (∀ i, t.dev.rd F.ANL_RING_ENERGY_COUNT [i] = 0) ∧
        t.dev.tbl.em = s.dev.tbl.em ∧ t.dev.tbl.lpm = s.dev.tbl.lpm ∧ t.dev.tbl.tcam = s.dev.tbl.tcam ∧
        t.dev.tbl.mcg = s.dev.tbl.mcg ∧ t.dev.tbl.ctr = s.dev.tbl.ctr ∧ t.dev.dp.pkts = s.dev.dp.pkts ∧
        t.dev.dp.copies = s.dev.dp.copies ∧ t.dev.sump = s.dev.sump ∧
        (c ≠ .refclk ∨ s.dev.on F.HIF_STAT_LINK_UP [] = false → ∀ r ix, let k := r.key ix
          keyWin k ∉ [R.HIF_CFG.win, R.RING_CTL.win, R.MBX_STAT.win] →
          (keyWin k ≠ R.ANL_RING_ENERGY.win ∨ keyId k ≠ R.ANL_RING_ENERGY.id) → (∀ n, k ≠ R.GTH_HOLD_EXP.key [n]) →
          t.dev.raw r ix = s.dev.raw r ix)) ∧
    (∀ c m, m ∉ [Master.bmc, .jtag] → (∀ k, m ≠ .svc k) → c = HifResetCause.ctl m → Runs (.hifReset c) s s.dev) ∧
    (s.dev.hif.perstHold = false → Runs .hifResetDone s (s.dev.wr F.HIF_STAT_RST_BUSY [] 0))

/-- Bus mastering, poisoned writes, and the PCIe link. Rests on choices of the model: log 296 (PRESUMED). -/
def Obligations.HostLink : Prop :=
  ∀ (s : State), Live s →
    (∀ (fn : Fin 32) (en : Bool) (v : Fin 33) (cfg : PcieCfg),
      let a := if fn.val = 0 ∧ (s.dev.fnCfg 0).vfEnable ∧ !cfg.vfEnable then s.dev.vfsOff else s.dev
      let b := a.setFnCfg fn.val cfg
      let b : Dev := { b with hif := { b.hif with busMaster := putBit b.hif.busMaster fn.val en
                                                  msiVectors := Sparse.set 0 b.hif.msiVectors fn.val v.val } }
      Runs (.busMasterEnable fn en v cfg) s (if en then b.drainAll else b) ∧ b.fnCfg fn.val = cfg ∧
      bitAt b.hif.busMaster fn.val = en ∧ Sparse.get 0 b.hif.msiVectors fn.val = v.val ∧
      (∀ k, k ≠ fn.val → bitAt b.hif.busMaster k = bitAt a.hif.busMaster k)) ∧
    (∀ fn : Fin 32, s.dev.fnOn fn.val = true →
      ∃ t, exec (.poisonedTlp fn) s = .next t ∧ t.dev.hif.aer = s.dev.hif.aer ++ [(fn.val, .poisoned)] ∧
        t.dev.rd F.HIF_DMA_ERR_COUNT [] = min (2 ^ 32 - 1) (s.dev.rd F.HIF_DMA_ERR_COUNT [] + 1) ∧
        (∀ r ix, r.key ix ≠ R.HIF_DMA_ERR.key [] → t.dev.raw r ix = s.dev.raw r ix)) ∧
    (s.dev.on F.HIF_STAT_LINK_UP [] = true → Runs .pcieLinkDown s (s.dev.pcieDown.raise 54 0x42 0)) ∧
    (∀ (w : Fin 32) (sp : Fin 16) (f : Bool), linkOk w.val sp.val f = true → s.dev.hif.perstLow = false → s.dev.domOn 180 = true →
      s.dev.on F.HIF_STAT_LINK_UP [] = false →
      Runs (.pcieLinkUp w sp f) s ((s.dev.setRaw R.HIF_STAT [] (s.dev.raw R.HIF_STAT [] - pcieFields (s.dev.raw R.HIF_STAT []) + linkWord w.val sp.val f)).drainAll))

/-- Messages are sent, acknowledged, timed out and withdrawn -/
def Obligations.Mailboxes : Prop :=
  ∀ (s : State) (m : Master) (c : Fin 64), Live s →
    (s.dev.mbxDeaf m = false →
      (s.dev.bindEn c.val = true → s.dev.mbxHeld c.val = false → s.dev.sender c.val = m.mid → ∀ len : BitVec 7,
        (s.dev.on F.MBX_STAT_FULL [c.val] = false → 1 ≤ len.toNat → len.toNat ≤ 64 →
          ∃ t, exec (.mbxSend m c len) s = .next t ∧ t.dev.on F.MBX_STAT_FULL [c.val] = true ∧
            t.dev.rd F.MBX_STAT_LEN [c.val] = len.toNat ∧
            t.dev.rd F.MBX_STAT_SEQ [c.val] = (s.dev.rd F.MBX_STAT_SEQ [c.val] + 1) % 65536 ∧
            (∀ k j, t.dev.raw R.MBX_DATA [k, j] = s.dev.raw R.MBX_DATA [k, j]) ∧
            (∀ k, k < 64 → k ≠ c.val → t.dev.raw R.MBX_STAT [k] = s.dev.raw R.MBX_STAT [k])) ∧
        (s.dev.on F.MBX_STAT_FULL [c.val] = true ∨ len.toNat = 0 ∨ 64 < len.toNat →
          Runs (.mbxSend m c len) s ((s.dev.wr F.MBX_STAT_SEND_REJ [c.val] 1).inc F.MBX_REJ_COUNT [c.val]))) ∧
      (∀ len, s.dev.bindEn c.val = false ∨ s.dev.mbxHeld c.val = true ∨ s.dev.sender c.val ≠ m.mid →
        Runs (.mbxSend m c len) s (s.dev.inc F.MBX_REJ_COUNT [c.val])) ∧
      (s.dev.bindEn c.val = true → s.dev.mbxHeld c.val = false → s.dev.receiver c.val = m.mid → ∀ seq : BitVec 16,
        (s.dev.on F.MBX_STAT_FULL [c.val] = true → s.dev.rd F.MBX_STAT_SEQ [c.val] = seq.toNat →
          ∃ t, exec (.mbxAck m c seq) s = .next t ∧ t.dev.on F.MBX_STAT_FULL [c.val] = false ∧
            t.dev.on F.MBX_STAT_TIMEOUT [c.val] = false ∧
            t.dev.rd F.MBX_STAT_SEQ [c.val] = s.dev.rd F.MBX_STAT_SEQ [c.val] ∧
            (∀ k j, t.dev.raw R.MBX_DATA [k, j] = s.dev.raw R.MBX_DATA [k, j]) ∧
            (∀ k, k < 64 → k ≠ c.val → t.dev.raw R.MBX_STAT [k] = s.dev.raw R.MBX_STAT [k])) ∧
        (s.dev.on F.MBX_STAT_FULL [c.val] = false ∨ s.dev.rd F.MBX_STAT_SEQ [c.val] ≠ seq.toNat →
          Runs (.mbxAck m c seq) s (s.dev.inc F.MBX_REJ_COUNT [c.val]))) ∧
      ((s.dev.bindEn c.val = true ∧ (s.dev.sender c.val = m.mid ∨ s.dev.receiver c.val = m.mid)) ∨ m = .svc 0 ∨ m = .jtag →
        ∃ t, exec (.mbxReset m c) s = .next t ∧ t.dev.on F.MBX_STAT_FULL [c.val] = false ∧
          t.dev.on F.MBX_STAT_TIMEOUT [c.val] = false ∧ t.dev.on F.MBX_STAT_SEND_REJ [c.val] = false ∧
          t.dev.rd F.MBX_STAT_LEN [c.val] = 0 ∧ t.dev.rd F.MBX_STAT_SEQ [c.val] = s.dev.rd F.MBX_STAT_SEQ [c.val] ∧
          (∀ r ix, r.key ix ≠ R.MBX_STAT.key [c.val] → t.dev.raw r ix = s.dev.raw r ix))) ∧
    (s.dev.on F.MBX_STAT_FULL [c.val] = true → s.dev.rd F.MBX_CFG_TMO_US [c.val] ≠ 0 →
      Runs (.mbxTimeout c) s (s.dev.wr F.MBX_STAT_TIMEOUT [c.val] 1)) ∧
    (s.dev.rd F.MBX_CFG_TMO_US [c.val] = 0 → Runs (.mbxTimeout c) s s.dev) ∧
    (∀ (en : Bool) (a b : BitVec 8), s.dev.hostBlocked m = false → m = .pf0 ∨ m = .svc 0 →
      (s.dev.on F.SVC_MBX_BIND_LOCK_LOCK [] = true → Runs (.mbxBindChange m c en a b) s
        (s.dev.badAccess 0 4 m.mid (24 * 0x100000 + 0x200 + 4 * c.val))) ∧
      (s.dev.on F.SVC_MBX_BIND_LOCK_LOCK [] = false → ∃ t, exec (.mbxBindChange m c en a b) s = .next t ∧
        t.dev.bindEn c.val = en ∧ t.dev.sender c.val = a.toNat ∧ t.dev.receiver c.val = b.toNat ∧
        (∀ r ix, r.key ix ≠ R.SVC_MBX_BIND.key [c.val] → r.key ix ≠ R.MBX_STAT.key [c.val] → t.dev.raw r ix = s.dev.raw r ix) ∧
        (s.dev.bindEn c.val ≠ en ∨ s.dev.sender c.val ≠ a.toNat ∨ s.dev.receiver c.val ≠ b.toNat →
          t.dev.on F.MBX_STAT_FULL [c.val] = false ∧ t.dev.on F.MBX_STAT_TIMEOUT [c.val] = false ∧
          t.dev.on F.MBX_STAT_SEND_REJ [c.val] = false ∧ t.dev.rd F.MBX_STAT_LEN [c.val] = 0 ∧
          t.dev.rd F.MBX_STAT_SEQ [c.val] = s.dev.rd F.MBX_STAT_SEQ [c.val] ∧
          (∀ k j, t.dev.raw R.MBX_DATA [k, j] = s.dev.raw R.MBX_DATA [k, j])) ∧
        (s.dev.raw R.SVC_MBX_BIND [c.val] = b2n en * 2 ^ 31 + a.toNat * 2 ^ 8 + b.toNat → t.dev = s.dev)))

/-- A read acquires a free lock, and only its owner or force frees it. Rests on choices of the model: log 250 (DEDUCED). -/
def Obligations.Locks : Prop :=
  ∀ (s : State) (m : Master) (k : Fin 16), Live s → s.dev.mbxDeaf m = false →
    let a := 23 * 0x100000 + 0x8000 + 4 * k.val
    (s.dev.on F.MBX_LOCK_HELD [k.val] = false → ∃ t v, exec (.mbxLockAcquire m k) s = .next t ∧
      t.dev.on F.MBX_LOCK_HELD [k.val] = true ∧ t.dev.rd F.MBX_LOCK_OWNER [k.val] = m.mid ∧
      t.dev.out = s.dev.out ++ [.readData m.mid a v] ∧ bitAt v 30 = true ∧ bitsOf v 23 16 = m.mid ∧
      (s.dev.on F.MBX_LOCK_GRANTED [k.val] = false → bitAt v 31 = true) ∧
      (∀ r ix, r.key ix ≠ R.MBX_LOCK.key [k.val] → t.dev.raw r ix = s.dev.raw r ix)) ∧
    (s.dev.on F.MBX_LOCK_HELD [k.val] = true →
      Runs (.mbxLockAcquire m k) s (s.dev.emit (.readData m.mid a (s.dev.raw R.MBX_LOCK [k.val])))) ∧
    (s.dev.on F.MBX_LOCK_HELD [k.val] = true → s.dev.rd F.MBX_LOCK_OWNER [k.val] = m.mid →
      ∃ t, exec (.mbxLockRelease m k) s = .next t ∧ t.dev.on F.MBX_LOCK_HELD [k.val] = false ∧
        (∀ r ix, r.key ix ≠ R.MBX_LOCK.key [k.val] → t.dev.raw r ix = s.dev.raw r ix)) ∧
    (s.dev.on F.MBX_LOCK_HELD [k.val] = false ∨ s.dev.rd F.MBX_LOCK_OWNER [k.val] ≠ m.mid → Runs (.mbxLockRelease m k) s s.dev) ∧
    ((∃ j, m = .svc j) ∨ m = .jtag → ∃ t, exec (.mbxLockForce m k) s = .next t ∧ t.dev.on F.MBX_LOCK_HELD [k.val] = false ∧
      t.dev.rd F.MBX_LOCK_FORCED_COUNT [] = min (2 ^ 32 - 1) (s.dev.rd F.MBX_LOCK_FORCED_COUNT [] + 1) ∧
      (∀ r ix, r.key ix ≠ R.MBX_LOCK.key [k.val] → r.key ix ≠ R.MBX_LOCK_FORCED.key [] → t.dev.raw r ix = s.dev.raw r ix)) ∧
    (m = .pf0 ∨ m = .bmc → Runs (.mbxLockForce m k) s s.dev)

/-- Service requests are carried out and answered. Rests on choices of the model: log 64 (DESIGN CHOICE), log 65 (DEDUCED), log
292 (DESIGN CHOICE), log 313 (DEDUCED), log 327 (DEDUCED). -/
def Obligations.ServiceRequests : Prop :=
  ∀ (s : State) (c : Fin 64) (mid : Nat) (msg : List Nat), Live s →
    let d := s.dev
    let sv := bitsOf (msg.getD 0 0) 31 24
    let op := bitsOf (msg.getD 0 0) 23 16
    let ans := fun (d : Dev) (st : Nat) (rest : List Nat) => d.reply mid c.val msg st rest
    let admin := d.sender c.val = 0 ∨ d.sender c.val = 0x51
    let log := d.spl.flashLog.filter (fun r => !r.bad && leVal (r.bytes.drop 28) == crcCheck (r.bytes.take 28))
    let k := msgByte msg 4
    (d.rd F.SVC_BOOT_STATE [] = 5 → d.on F.MBX_STAT_FULL [c.val] = true → d.bindEn c.val = true → d.mbxHeld c.val = false →
      d.receiver c.val = 0x40 → mid = 0x40 → d.on F.MBX_STAT_FULL [partner c.val] = false → msg = d.message c.val → sv = 0 →
      op ≠ 0x10 →
      Runs (.systemPing c) s (ans d 0 [d.raw R.SVC_BOOT []])) ∧
    (d.requestIn c.val = some (mid, msg) → wrongChannel c.val = true ∨ 8 < sv → ∀ off bytes poison ok data addr,
      ∀ x ∈ [Instr.systemPing c, .systemVersion c, .rollbackCommit c, .setConfig c, .health c data, .eventLog c data,
        .fwUpdate c off bytes poison ok, .flashWrite c addr bytes ok, .faultlogRead c, .faultlogStatus c, .faultlogErase c],
      Runs x s (ans d 2 [])) ∧
    (d.requestIn c.val = none → d.requestWaits c.val = true → d.on F.MBX_STAT_FULL [partner c.val] = true →
      d.rd F.SVC_BOOT_STATE [] ≠ 5 → ∀ off bytes poison ok data addr,
      ∀ x ∈ [Instr.systemPing c, .systemVersion c, .rollbackCommit c, .setConfig c, .health c data, .eventLog c data,
        .fwUpdate c off bytes poison ok, .flashWrite c addr bytes ok, .faultlogRead c, .faultlogStatus c, .faultlogErase c],
      ∃ t, exec x s = .next t ∧ t.dev.svc.taken = d.svc.taken ++ [(d.receiver c.val, c.val, d.message c.val)] ∧
        t.dev.on F.MBX_STAT_FULL [c.val] = false ∧ t.dev.on F.MBX_STAT_FULL [partner c.val] = true) ∧
    (d.requestIn c.val = some (mid, msg) → c.val ∈ [0, 16, 18] → mid = 0x40 →
      (sv = 0 → op ≠ 0x10 →
        Runs (.systemPing c) s (ans d 0 []) ∧ Runs (.systemVersion c) s (ans d 0 [d.rd F.SVC_FW_VER_VERSION []])) ∧
      (sv = 0 → op = 0x10 →
        (¬ admin → Runs (.rollbackCommit c) s (ans d 5 [])) ∧
        (admin → d.on F.ANL_SAG_INHIBIT [] = true → Runs (.rollbackCommit c) s (ans d 1 [])) ∧
        (admin → d.on F.ANL_SAG_INHIBIT [] = false → Runs (.rollbackCommit c) s
          (ans { d with otp := { d.otp with rollback := max d.otp.rollback (min 64 d.svc.imageRollback) } } 0 []))) ∧
      (sv = 3 → d.serviceRuns 3 = false → Runs (.setConfig c) s (ans d 6 [])) ∧
      (sv = 3 → d.serviceRuns 3 = true → op ≠ 1 → Runs (.setConfig c) s (ans d 3 [])) ∧
      (sv = 3 → op = 1 → d.serviceRuns 3 = true →
        (ipfixOk msg = true → let e := d.ipfixIdle
          Runs (.setConfig c) s (ans ({ e with svc := { e.svc with ipfix := msg.take 38, templateSeq := 0 } }.sendTemplates) 0 [])) ∧
        (ipfixOk msg = false → Runs (.setConfig c) s (ans d 4 []))) ∧
      (sv = 7 → ∀ (off : BitVec 39) bytes poison ok data,
        (op = 0 ∨ 3 < op → ∀ x ∈ [Instr.health c data, .eventLog c data, .fwUpdate c off bytes poison ok], Runs x s (ans d 3 [])) ∧
        (3 < k ∨ msg.length < 2 →
          (op = 1 → Runs (.health c data) s (ans d 4 [])) ∧ (op = 2 → Runs (.eventLog c data) s (ans d 4 [])) ∧
          (op = 3 → Runs (.fwUpdate c off bytes poison ok) s (ans d 4 []))) ∧
        (k ≤ 3 → 2 ≤ msg.length →
          (op = 1 → let e := d.emit (.memMailbox k 1 [])
            Runs (.health c none) s (ans e 7 []) ∧
            ∀ l, l.length ≤ 63 → Runs (.health c (some l)) s (ans e 0 (l.map (fun x => x.toNat)))) ∧
          (op = 2 → let e := d.emit (.memMailbox k 2 [BitVec.ofNat 8 (msgByte msg 5)])
            Runs (.eventLog c none) s (ans e 7 []) ∧
            ∀ l, l.length ≤ 60 → Runs (.eventLog c (some l)) s (ans e 0 (l.map (fun x => x.toNat)))) ∧
          (op = 3 →
            ((∃ e ∈ d.ownedExtents, d.extentPort e = k) ∨ d.safe = true →
              Runs (.fwUpdate c off bytes poison ok) s (ans d 1 [])) ∧
            (d.safe = false → (∀ e ∈ d.ownedExtents, d.extentPort e ≠ k) →
              let from_ := d.charge none 4 bytes.length
              let at_ := d.regionPort 2 off.toNat
              (d.regionReach 2 off.toNat bytes.length = false →
                Runs (.fwUpdate c off bytes poison ok) s (ans (d.emit (.busError 0)) 7 [])) ∧
              (d.regionReach 2 off.toNat bytes.length = true → poison = true →
                Runs (.fwUpdate c off bytes poison ok) s
                  (ans (((from_.wr F.CXL_ERR_POISON [at_] 1).raise 45 0x45 (at_ * 2 ^ 30)).emit (.busError 0)) 7 [])) ∧
              (d.regionReach 2 off.toNat bytes.length = true → poison = false →
                Runs (.fwUpdate c off bytes poison ok) s
                  (ans (from_.emit (.memMailbox k 3 bytes)) (if ok then 0 else 7) [])))))) ∧
      (sv = 8 → ∀ addr bytes ok,
        (d.on F.ANL_SAG_INHIBIT [] = true ∨ d.safe = true → Runs (.flashWrite c addr bytes ok) s (ans d 1 [])) ∧
        (d.on F.ANL_SAG_INHIBIT [] = false → d.safe = false → addr.toNat < 0x100000 →
          Runs (.flashWrite c addr bytes ok) s (ans d 4 [])) ∧
        (d.on F.ANL_SAG_INHIBIT [] = false → d.safe = false → 0x100000 ≤ addr.toNat →
          Runs (.flashWrite c addr bytes ok) s (ans (d.emit (.flash addr.toNat bytes)) (if ok then 0 else 7) []))) ∧
      (sv = 6 → d.serviceRuns 6 = false → ∀ x ∈ [Instr.faultlogRead c, .faultlogStatus c, .faultlogErase c], Runs x s (ans d 6 [])) ∧
      (sv = 6 → d.serviceRuns 6 = true →
        (op = 0 ∨ 3 < op → ∀ x ∈ [Instr.faultlogRead c, .faultlogStatus c, .faultlogErase c], Runs x s (ans d 3 [])) ∧
        (op = 1 → msg.length < 2 → Runs (.faultlogRead c) s (ans d 4 [])) ∧
        (op = 1 → 2 ≤ msg.length → Runs (.faultlogRead c) s (ans d 0
          (((log.filter (fun r => msg.getD 1 0 ≤ r.seq)).take 7).flatMap
            (fun r => (List.range 8).map (fun i => leVal (sliceOf r.bytes (4 * i) 4)))))) ∧
        (op = 2 → ∀ r t, log = r :: t →
          Runs (.faultlogStatus c) s (ans d 0 [r.seq, (t.getLastD r).seq, d.spl.records.length])) ∧
        (op = 2 → log = [] → Runs (.faultlogStatus c) s
          (ans d.free.2 0 [bitsOf d.free.1.toNat 31 0, bitsOf d.free.1.toNat 63 32, d.spl.records.length])) ∧
        (op = 3 → (¬ admin → Runs (.faultlogErase c) s (ans d 5 [])) ∧
          (admin → d.on F.ANL_SAG_INHIBIT [] = true → Runs (.faultlogErase c) s (ans d 1 [])) ∧
          (admin → d.on F.ANL_SAG_INHIBIT [] = false →
            let e : Dev := { d with out := d.out ++ (List.range 512).map (fun i => .flash (0x01100000 + i * 4096) []) }
            Runs (.faultlogErase c) s (ans { e with spl := { e.spl with flashLog := [], flashAt := 0 } } 0 [])))))

/-- Cores halt and restart, the ROM boots a slot or fails, and the key is programmed once. Rests on choices of the model: log 67
(DESIGN CHOICE), log 301 (DESIGN CHOICE), log 321 (PRESUMED), log 317 (DEDUCED), log 314 (DESIGN CHOICE), log 291 (DEDUCED),
log 327 (DEDUCED). -/
def Obligations.CoresBootAndOtp : Prop :=
  ∀ (s : State), Live s →
    (∀ (m : Master) (k : Fin 8), svcWriter m = true → s.dev.hostBlocked m = false →
      (∀ halt, ∃ t, exec (.svcHalt m k halt) s = .next t ∧
        (k.val ≠ 0 → t.dev.on F.SVC_CTL_HALT [k.val] = halt) ∧ (k.val = 0 → t.dev.regs = s.dev.regs) ∧
        (∀ j, j < 8 → j ≠ k.val → t.dev.on F.SVC_CTL_HALT [j] = s.dev.on F.SVC_CTL_HALT [j]) ∧
        t.dev.svc.restarts = s.dev.svc.restarts) ∧
      (∃ t, exec (.svcReset m k) s = .next t ∧ t.dev.on F.SVC_CTL_HALT [k.val] = s.dev.on F.SVC_CTL_HALT [k.val] ∧
        Sparse.get 0 t.dev.svc.restarts k.val = Sparse.get 0 s.dev.svc.restarts k.val + 1)) ∧
    (∀ (m : Master) (k : Fin 8), svcWriter m = true → s.dev.hostBlocked m = false → s.dev.svc.linkCores.contains k.val = true →
      ∃ t, exec (.svcReset m k) s = .next t ∧ t.dev.svc.handover = true) ∧
    (s.dev.svc.handover = true → ∃ t, exec .linkHandover s = .next t ∧ t.dev.svc.handover = false ∧
      t.dev.svc.linkCores = s.dev.linkCoresNow) ∧
    (∀ a b, s.dev.on F.RST_STAT_BOOT_HOLD [] = false → s.dev.domOn 182 = true →
      let image := fun (x : BootCand) => if x.slot = 0 then a.image else b.image
      let read := fun (x : BootCand) => s.dev.emit (.flashRead (slotAt x.slot + 512) x.length)
      let heads := (s.dev.emit (.flashRead 0x100000 512)).emit (.flashRead 0x900000 512)
      (s.dev.rd F.SVC_BOOT_STATE [] = 0 →
        (slotMagic a = false → slotMagic b = false → Runs (.bootRom a b) s (heads.bootFailed 1)) ∧
        (slotMagic a = true ∨ slotMagic b = true → s.dev.otp.key = [] → Runs (.bootRom a b) s (heads.wr F.SVC_BOOT_STATE [] 4)) ∧
        (slotMagic a = true ∨ slotMagic b = true → s.dev.otp.key ≠ [] → Runs (.bootRom a b) s (heads.bootTry 1 (bootOrder a b)))) ∧
      (∀ x l, s.dev.svc.bootLeft = x :: l → s.dev.rd F.SVC_BOOT_STATE [] = 1 →
        (x.length = 0 ∨ 8388096 < x.length → Runs (.bootRom a b) s (s.dev.bootTry 6 l)) ∧
        (x.length ≠ 0 → x.length ≤ 8388096 →
          (image x = .readError → Runs (.bootRom a b) s ((read x).bootTry 5 l)) ∧
          ∀ i, image x = .bytes i → ∃ t, exec (.bootRom a b) s = .next t ∧ t.dev.rd F.SVC_BOOT_STATE [] = 2 ∧
            t.dev.out = (read x).out ∧ t.dev.svc.bootLeft = x :: l ∧ ∀ n, n < min x.length i.length →
              Sparse.get 0 t.dev.svc.fwMem n = (i.getD n 0).toNat)) ∧
      (∀ x l, s.dev.svc.bootLeft = x :: l → s.dev.rd F.SVC_BOOT_STATE [] = 2 →
        let good := ecdsaVerify x.key x.sig (x.signed ++ s.dev.fwBytes x.length)
        (good = false → Runs (.bootRom a b) s (s.dev.bootTry 3 l)) ∧
        (good = true → ∃ t, exec (.bootRom a b) s = .next t ∧ t.dev.rd F.SVC_BOOT_STATE [] = 3 ∧
          t.dev.rd F.SVC_BOOT_SLOT [] = x.slot % 2 ∧ t.dev.rd F.SVC_FW_VER_VERSION [] = x.version % 2 ^ 32 ∧
          t.dev.svc.entry = x.entry ∧ t.dev.svc.imageRollback = x.rollback))) ∧
    (∀ (a : BootSlot) n, let x := slotCand a n
      x.key = (a.header.drop 128).take 97 ∧ x.sig = (a.header.drop 232).take 96 ∧ x.signed = a.header.take 232) ∧
    (∀ e, s.dev.bootTry e [] = s.dev.bootFailed e) ∧
    (∀ e x l,
      (x.keyHash ≠ s.dev.otp.keyNow → s.dev.bootTry e (x :: l) = s.dev.bootTry 2 l) ∧
      (x.keyHash = s.dev.otp.keyNow → x.rollback < s.dev.otp.index → s.dev.bootTry e (x :: l) = s.dev.bootTry 4 l) ∧
      (x.keyHash = s.dev.otp.keyNow → s.dev.otp.index ≤ x.rollback → (s.dev.bootTry e (x :: l)).rd F.SVC_BOOT_STATE [] = 1 ∧
        (s.dev.bootTry e (x :: l)).svc.bootLeft = x :: l)) ∧
    (s.dev.otp.dead = [] → s.dev.otp.keyNow = s.dev.otp.key ∧ s.dev.otp.index = s.dev.otp.rollback) ∧
    (∀ a b, slotMagic a = true → slotMagic b = true →
      bootOrder a b = if slotField a 8 4 < slotField b 8 4 then [slotCand b 1, slotCand a 0] else [slotCand a 0, slotCand b 1]) ∧
    (∀ m, m ∈ [Master.pf0, .jtag, .bmc] → s.dev.hostBlocked m = false → Runs (.bootGo m) s (s.dev.wr F.RST_STAT_BOOT_HOLD [] 0)) ∧
    (∀ m, m ∈ [Master.pf0, .jtag] → s.dev.hostBlocked m = false →
      (s.dev.rd F.SVC_BOOT_STATE [] = 4 → s.dev.otp.locked = false → s.dev.on F.SVC_OTP_CTL_BUSY [] = false →
        ∃ t, exec (.otpProgram m) s = .next t ∧ t.dev.on F.SVC_OTP_CTL_BUSY [] = true ∧
          t.dev.svc.otpWait = s.dev.on F.ANL_SAG_INHIBIT [] ∧ t.dev.otp = s.dev.otp) ∧
      (s.dev.rd F.SVC_BOOT_STATE [] ≠ 4 → Runs (.otpProgram m) s s.dev)) ∧
    (s.dev.on F.SVC_OTP_CTL_BUSY [] = true → s.dev.svc.otpWait = false → s.dev.otp.locked = false →
      ∃ t, exec .otpProgramDone s = .next t ∧ t.dev.otp.locked = true ∧
        t.dev.otp.key = (List.range 12).map (fun i => s.dev.rd F.SVC_OTP_KEY_HASH [i]) ∧
        t.dev.rd F.SVC_BOOT_STATE [] = 0 ∧ t.dev.on F.SVC_OTP_CTL_BUSY [] = false) ∧
    (∀ r l, s.dev.mayFlush = true → s.dev.spl.records = r :: l →
      ∃ t, exec (.faultlogFlush true) s = .next t ∧ t.dev.spl.records = l ∧ t.dev.spl.flashLog.getLast? = some r ∧
        .flash (logSector s.dev.spl.flashAt + 32 + s.dev.spl.flashAt % 127 * 32) r.bytes ∈ t.dev.out ∧
        (s.dev.spl.flashAt % 127 = 0 → 65024 ≤ s.dev.spl.flashLog.length → .flash (logSector s.dev.spl.flashAt) [] ∈ t.dev.out) ∧
        ∃ u, exec (.faultlogFlush false) s = .next u ∧ u.dev.spl.records = s.dev.spl.records ∧
          u.dev.spl.flashLog.getLast? = some { r with bad := true } ∧ u.dev.spl.flashAt = s.dev.spl.flashAt + 1)

/-- Faults are raised, injected, latched and cleared, and the fatal ones enter the safe state. Rests on choices of the model:
log 260 (DEDUCED), log 320 (DEDUCED), log 267 (DEDUCED). -/
def Obligations.Faults : Prop :=
  (∀ (s : State), Live s →
    (∀ (k : Fin 61) (faults : FaultClock) (hit : List Contained),
      let ins := fun (l : List (BitVec 8 × BitVec 32)) =>
        l.map (fun f => ({ src := f.1.toNat, syn := f.2.toNat, inj := false } : FaultIn))
      let all := (k, faults.own) :: faults.others
      let contained := all.foldl (fun d x => d.containAt x.1.val (ins x.2) hit) s.dev
      Runs (.faultRaise k faults hit) s
        (all.foldl (fun d x => (ins x.2).foldl (fun d f => d.sourceActs x.1.val f) (d.raiseReal x.1.val (ins x.2))) contained)) ∧
    (∀ (k : Fin 61) (link : BitVec 8),
      let n := min (Sparse.get 0 s.dev.spl.d2dReplays (256 * k.val + link.toNat) + 1) (2 ^ 24 - 1)
      Runs (.d2dReplay k link) s
        ({ s.dev with spl := { s.dev.spl with d2dReplays := Sparse.set 0 s.dev.spl.d2dReplays (256 * k.val + link.toNat) n } }.raise
          k.val 4 (link.toNat * 2 ^ 24 + n)) ∧
      Runs (.d2dFail k link) s (s.dev.raise k.val 5 (link.toNat * 2 ^ 24))) ∧
    (∀ (m : Master) (k : Fin 61), splWriter m = true → s.dev.hostBlocked m = false → s.dev.on F.RST_STAT_INIT_DONE [] = true →
      (∀ v : BitVec 32, bitAt v.toNat 31 = true →
        let e := s.dev.plain R.SPL_INJ [k.val] v.toNat 31 0
        let src := e.rd F.SPL_INJ_SOURCE [k.val]
        let refused := s.dev.on F.SPL_CFG_INJ_LOCK [] = true ∨ faultClass k.val src = none ∨
          (s.dev.faultNum k.val src = 3 ∧ s.dev.on F.SPL_CFG_INJ_FT [] = false) ∨ s.dev.on F.SPL_STAT_INJ_PEND [] = true
        (refused → Runs (.faultInject m k v) s (s.dev.wr F.SPL_STAT_INJ_REJ [] 1)) ∧
        (¬ refused → ∃ t, exec (.faultInject m k v) s = .next t ∧ t.dev.on F.SPL_STAT_INJ_PEND [] = true ∧
          t.dev.spl.inj = some (k.val, src, s.dev.rd F.SPL_INJ_SYN_SYNDROME [k.val]) ∧
          t.dev.on F.SPL_STAT_INJ_REJ [] = s.dev.on F.SPL_STAT_INJ_REJ [])) ∧
      (s.dev.on F.SPL_LATCH_VALID [k.val] = true → ∃ t, exec (.latchClear m k) s = .next t ∧
        t.dev.raw R.SPL_LATCH [k.val] = 0 ∧ t.dev.raw R.SPL_LATCH_TIME [k.val] = 0 ∧
        (∀ r ix, r.key ix ≠ R.SPL_LATCH.key [k.val] → r.key ix ≠ R.SPL_LATCH_TIME.key [k.val] → t.dev.raw r ix = s.dev.raw r ix))) ∧
    (∀ m : Master, splWriter m = true ∨ m = .bmc → s.dev.hostBlocked m = false → s.dev.on F.RST_STAT_INIT_DONE [] = true →
      ∃ t, exec (.forceSafe m) s = .next t ∧ t.dev.safe = true) ∧
    (∃ t, exec .rootCheck s = .next t ∧ t.dev.safe = true) ∧
    (∀ (k : Fin 60) counter, s.dev.onC F.SPL_CFG_SORING_MODE [] = false → s.dev.on F.HIF_EVQ_EN_FAULT [] = false →
      ∃ t, exec (.collPar { collector := ⟨k.val, by omega⟩, counter := counter }) s = .next t ∧ t.dev.collectorBroken k.val = true ∧
        t.dev.raw R.SPL_LATCH [k.val] = 0 ∧ t.dev.raw R.SPL_LATCH_TIME [k.val] = 0 ∧ t.dev.raw R.SPL_INJ_CNT [k.val] = 0 ∧
        (∀ i, i < 4 → t.dev.raw R.SPL_CNT [k.val, i] = 0) ∧ (counter = true → t.dev.spl.badCnt.contains k.val = true) ∧
        (counter = false → t.dev.spl.badCnt = s.dev.spl.badCnt))) ∧
  (∀ (d : Dev) (k : Nat) (f : FaultIn), f.inj = false →
    (d.spl.badCnt.contains k = true → d.countFault k f = d) ∧
    (d.spl.badCnt.contains k = false → d.countFault k f = d.inc F.SPL_CNT_COUNT [k, d.faultNum k f.src])) ∧
  (∀ (d : Dev) (k : Nat) (fs : List FaultIn) (hit : List Contained),
    (d.collectorLive k = true → d.containAt k fs hit = hit.foldl (fun d h => d.containOne k fs h) d) ∧
    (d.collectorLive k = false → d.containAt k fs hit = d)) ∧
  (∀ (d : Dev) (k : Nat) (fs : List FaultIn) (h : Contained),
    (∀ f ∈ fs, hitBy h f = false) ∨ d.contains k h = false → d.containOne k fs h = d) ∧
  (∀ (d : Dev) (k : Nat) (f : FaultIn) (fs : List FaultIn) (h : Contained),
    (hitBy h f = true → d.contains k h = true → d.containOne k (f :: fs) h = d.contain f.src h) ∧
    (hitBy h f = false → d.containOne k (f :: fs) h = d.containOne k fs h) ∧
    (containedSource f.src = false → hitBy h f = false)) ∧
  (∀ (d : Dev) (m : Nat) (f : FaultIn), m < 128 → f.src = 0x40 → f.syn % 256 = m →
    d.sourceActs (m / 32 + 2) f = d.macroPllLost m ∧ ∀ k, k < 2 ∨ 5 < k → d.sourceActs k f = d) ∧
  (∀ (d : Dev) (k : Nat) (f : FaultIn), f.src ≠ 0x40 → d.sourceActs k f = d) ∧
  (∀ (d : Dev) (k src syn : Nat), k < 61 → d.collectorLive k = true → (faultClass k src).isSome = true →
    d.collectorBroken k = false → d.on F.SPL_LATCH_VALID [k] = false →
    let soring := d.onC F.SPL_CFG_SORING_MODE []
    let num := if soring then d.cm F.SPL_SEV_SEV [k, src / 16] / 4 ^ (src % 16) % 4 else faultSev k src
    faultHard k src = false → (soring = false → bitAt (d.rd F.SPL_MASK_MASK [k, src / 32]) (src % 32) = false) → num = 1 ∨ num = 2 →
    let f : FaultIn := { src := src, syn := syn, inj := false }
    let e := (d.countFault k f).fillLatch k f
    let r := Dev.recordOrLose (e, 0) (e.faultRecord k f false false) false true
    d.raise k src syn = (r.1.faultEvent k f).lossFaults r.2) ∧
  (∀ (d : Dev) (n : Nat) (r : FaultRec) (fatal : Bool),
    (d.recordRoom fatal = true → Dev.recordOrLose (d, n) r fatal true = (d.storeRecord r, n)) ∧
    (d.recordRoom fatal = false → Dev.recordOrLose (d, n) r fatal true = (d.inc F.SPL_REC_LOST_COUNT [], n + 1))) ∧
  (∀ (m : Sparse Word) (w : DeadWord), (Sparse.get w.reset (w.clear m) w.key).toNat / 2 ^ (if w.high then 32 else 0) % 2 ^ 32 = 0) ∧
  (∀ (d : Dev) (off : Nat) (p : Spot), locate off = some p →
    ∃ w : DeadWord, (d.badWord off).spl.dead = w :: d.spl.dead ∧ w.off = off ∧ w.key = p.reg.key p.ix ∧ w.high = p.high ∧
      w.reset = p.reg.resetWord p.ix ∧ (d.badWord off).regs = w.clear d.regs ∧ (d.badWord off).comm = w.clear d.comm) ∧
  (∀ (s t : State), step s = .next t → t.dev.resets = s.dev.resets →
    (∀ w ∈ s.dev.spl.dead, ∀ v ∈ s.dev.spl.dead, w.key = v.key → w.reset = v.reset) →
    let zero := fun (u : State) (w : DeadWord) =>
      (Sparse.get w.reset u.dev.regs w.key).toNat / 2 ^ (if w.high then 32 else 0) % 2 ^ 32 = 0
    (∀ w ∈ s.dev.spl.dead, zero s w) → ∀ w ∈ s.dev.spl.dead, zero t w) ∧
  (∀ (d : Dev) (k : Nat) (f : FaultIn),
    let soring := d.onC F.SPL_CFG_SORING_MODE []
    let n := d.faultNum k f.src
    let entry := eventEntry 5 (if soring then 0x10 + n else n)
      (d.eventBody (k + f.src * 256) f.syn (d.rd F.SPL_LATCH_OVF [k] * 2 + d.rd F.SPL_LATCH_INJ_SEEN [k]) 0 0)
    (d.on F.HIF_EVQ_EN_FAULT [] = false → d.faultEvent k f = d) ∧
    (d.on F.HIF_EVQ_EN_FAULT [] = true → (soring = false ∨ n ≠ 2) →
      d.faultEvent k f = d.postEvent (d.rd F.HIF_EVQ_CFG_FAULT []) entry) ∧
    (d.on F.HIF_EVQ_EN_FAULT [] = true → soring = true → n = 2 →
      d.faultEvent k f = d.postEvent (d.rd F.HIF_EVQ_CFG_FAULT []) { entry with vec := some (d.rd F.SPL_CFG_VECTOR []) })) ∧
  (∀ (d : Dev) (k src syn : Nat), k < 60 → d.collectorLive k = true → d.onC F.SPL_CFG_SORING_MODE [] = false →
    (faultClass k src).isSome = true → (faultSev k src = 1 ∨ faultSev k src = 2) → d.faultMasked k src = false →
    d.collectorBroken k = false → d.on F.SPL_LATCH_VALID [k] = false → d.on F.HIF_EVQ_EN_FAULT [] = false → syn < 2 ^ 32 →
    let e := d.raise k src syn
    e.on F.SPL_LATCH_VALID [k] = true ∧ e.rd F.SPL_LATCH_SOURCE [k] = src % 256 ∧ e.rd F.SPL_LATCH_SYNDROME [k] = syn ∧
      e.rd F.SPL_LATCH_CLASS [k] = faultSev k src ∧ e.on F.SPL_LATCH_INJ [k] = false ∧ e.on F.SPL_LATCH_OVF [k] = false ∧
      e.rd F.SPL_LATCH_TIME_NS [k] = d.ns % 2 ^ 64)

/-- RST_CTL needs its key and its writers, and a warm reset is refused while THERMTRIP_N is low -/
def Obligations.ResetKeyAndThermtrip : Prop :=
  ∀ (s : State), Live s →
    (∀ (m : Master) (v : BitVec 32), rstWriter m = true → s.dev.hostBlocked m = false → bitsOf v.toNat 15 8 ≠ 0x5A →
      (bitAt v.toNat 1 = true → Runs (.cold m v) s (s.dev.wr F.RST_STAT_KEY_REJ [] 1)) ∧
      (bitAt v.toNat 0 = true → bitAt v.toNat 1 = false → Runs (.warm m v) s (s.dev.wr F.RST_STAT_KEY_REJ [] 1))) ∧
    (rstWriter .pf0 = true ∧ (∀ k, rstWriter (.svc k) = true) ∧ rstWriter .jtag = true ∧ rstWriter .bmc = true) ∧
    (∀ (m : Master) (v : BitVec 32), m ≠ .pf0 → (∀ k, m ≠ .svc k) → m ≠ .jtag → m ≠ .bmc →
      Runs (.cold m v) s s.dev ∧ Runs (.warm m v) s s.dev) ∧
    (s.dev.rst.thermTrip = true →
      (∀ (m : Master) (v : BitVec 32), rstWriter m = true → s.dev.hostBlocked m = false → bitsOf v.toNat 15 8 = 0x5A →
        bitAt v.toNat 0 = true → bitAt v.toNat 1 = false → Runs (.warm m v) s (s.dev.wr F.RST_STAT_WARM_REJ [] 1)) ∧
      Runs .sysRstNLow s (s.dev.wr F.RST_STAT_WARM_REJ [] 1) ∧
      (∀ (m : Master) (v : BitVec 32), rstWriter m = true → s.dev.hostBlocked m = false → bitsOf v.toNat 15 8 = 0x5A →
        bitAt v.toNat 1 = true → ∃ t, exec (.cold m v) s = .next t ∧ t.dev.rst.level = some .cold) ∧
      (∀ cause, ∃ t, exec (.powerOnReset cause) s = .next t ∧ t.dev.rst.level = some .powerOn))

/-- What a power-on, cold or warm reset records and leaves, and how it ends. Rests on choices of the model: log 123 (DEDUCED),
log 124 (DEDUCED), log 126 (DEDUCED). -/
def Obligations.ResetsBeginAndEnd : Prop :=
  (∀ (s : State),
    let colds := min 65535 (s.dev.rd F.RST_COUNT_COLD [] + 1)
    let warms := min 65535 (s.dev.rd F.RST_COUNT_WARM [] + 1)
    (∀ c, ∃ t, exec (.powerOnReset c) s = .next t ∧ ResetLeft .powerOn s.dev t.dev ∧
      t.dev.rd F.RST_CAUSE_CAUSE [] = (match c with
        | .vddAon => 1
        | .vddIo => 1
        | .pwrgd => 2
        | .refclkA => 3) ∧
      (c = .vddAon → t.dev.raw R.RST_COUNT [] = 0) ∧
      (c ≠ .vddAon → t.dev.rd F.RST_COUNT_COLD [] = colds ∧ t.dev.rd F.RST_COUNT_WARM [] = s.dev.rd F.RST_COUNT_WARM [])) ∧
    (∃ t, exec .refclkALoss s = .next t ∧ ResetLeft .powerOn s.dev t.dev ∧ t.dev.rd F.RST_CAUSE_CAUSE [] = 3 ∧
      t.dev.rd F.RST_COUNT_COLD [] = colds) ∧
    (∀ k : Fin 4,
      (s.dev.rst.level = none ∨ s.dev.rst.level = some .warm → ∃ t, exec (.supplyFail k) s = .next t ∧
        ResetLeft .cold s.dev t.dev ∧ t.dev.rd F.RST_CAUSE_CAUSE [] = 4 ∧ t.dev.rd F.RST_CAUSE_SUPPLY [] = k.val ∧
        t.dev.rd F.RST_COUNT_COLD [] = colds) ∧
      (s.dev.rst.level = some .cold ∨ s.dev.rst.level = some .powerOn → Runs (.supplyFail k) s s.dev)) ∧
    (s.dev.rst.level = none → s.dev.rst.thermTrip = false → ∃ t, exec .sysRstNLow s = .next t ∧ ResetLeft .warm s.dev t.dev ∧
      t.dev.rd F.RST_CAUSE_CAUSE [] = 6 ∧ t.dev.rd F.RST_COUNT_WARM [] = warms ∧
      t.dev.rd F.RST_COUNT_COLD [] = s.dev.rd F.RST_COUNT_COLD []) ∧
    (s.dev.rst.level.isSome = true → Runs .sysRstNLow s s.dev) ∧
    (∀ (m : Master) (v : BitVec 32), s.dev.rst.level = some .warm → rstWriter m = true → bitAt v.toNat 1 = true →
      (bitsOf v.toNat 15 8 = 0x5A → ∃ t, exec (.cold m v) s = .next t ∧ ResetLeft .cold s.dev t.dev ∧
        t.dev.rd F.RST_CAUSE_CAUSE [] = 5 ∧ t.dev.rd F.RST_CAUSE_MID [] = m.mid ∧ t.dev.rd F.RST_COUNT_COLD [] = colds) ∧
      (bitsOf v.toNat 15 8 ≠ 0x5A → Runs (.cold m v) s (s.dev.wr F.RST_STAT_KEY_REJ [] 1))) ∧
    (∀ (a b : Fin 4) (slow : Bool), s.dev.rst.level.isSome = true → s.dev.spl.dead = [] → ∃ t, exec (.resetRelease a slow b) s = .next t ∧
      t.dev.rst.level = none ∧ (∀ n, n < 190 → t.dev.domOn n = false) ∧
      (s.dev.rst.pdActive = none → s.dev.domReq 182 = true → t.dev.rst.pdActive = some (182, true)) ∧
      (s.dev.rst.level = some .powerOn → t.dev.rd F.GLB_STRAP_BOOT [] = b.val ∧ t.dev.rd F.GLB_STRAP_SMB_ADDR [] = a.val ∧
        t.dev.on F.GLB_STRAP_SPI_SLOW [] = slow) ∧
      (s.dev.rst.level ≠ some .powerOn → t.dev.raw R.GLB_STRAP [] = s.dev.raw R.GLB_STRAP []) ∧
      (t.dev.on F.RST_STAT_BOOT_HOLD [] = true ↔ t.dev.rd F.GLB_STRAP_BOOT [] = 1) ∧
      (s.dev.hif.perstLow = true → t.dev.on F.HIF_STAT_RST_BUSY [] = true)) ∧
    (∀ w sp f, s.dev.hif.perstLow = true → s.dev.spl.dead = [] → ∃ t, exec (.perstNRise w sp f) s = .next t ∧ t.dev.hif.perstLow = false ∧
      (s.dev.rst.level = none → s.dev.hif.perstHold = true → t.dev.on F.HIF_STAT_RST_BUSY [] = false))) ∧
  (∀ (s : State) (m : Master) (v : BitVec 32), Live s → rstWriter m = true → s.dev.hostBlocked m = false →
    bitsOf v.toNat 15 8 = 0x5A →
    (bitAt v.toNat 1 = true → ∃ t, exec (.cold m v) s = .next t ∧ ResetLeft .cold s.dev t.dev ∧
      t.dev.rd F.RST_CAUSE_CAUSE [] = 5 ∧ t.dev.rd F.RST_CAUSE_MID [] = m.mid) ∧
    (bitAt v.toNat 0 = true → bitAt v.toNat 1 = false → s.dev.rst.thermTrip = false →
      ∃ t, exec (.warm m v) s = .next t ∧ ResetLeft .warm s.dev t.dev ∧ t.dev.rd F.RST_CAUSE_CAUSE [] = 7 ∧
        t.dev.rd F.RST_CAUSE_MID [] = m.mid)) ∧
  (∀ (s : State), Live s → s.dev.on F.RST_STAT_INIT_DONE [] = false → s.dev.rst.waiting = [] →
    ∃ t, exec .initDone s = .next t ∧ t.dev.on F.RST_STAT_INIT_DONE [] = true)

/-- The BMC port addresses, writes, reads and reports; its bus addresses and interrupts. Rests on choices of the model: log 128
(DEDUCED), log 129 (DEDUCED). -/
def Obligations.BmcPort : Prop :=
  ∀ (s : State), Live s →
    (∀ off, Runs (.bmcAddr off false) s { s.dev with bmc := { s.dev.bmc with addr := off.toNat / 4 * 4 } } ∧
      Runs (.bmcAddr off true) s s.dev) ∧
    (∀ v, let e := s.dev.busWrite .bmc s.dev.bmc.addr false v.toNat
      (e.resets = s.dev.resets → Runs (.bmcWrite v false) s (e.bmcStep (!s.dev.writeOk .bmc s.dev.bmc.addr v.toNat))) ∧
      (e.resets ≠ s.dev.resets → Runs (.bmcWrite v false) s e) ∧
      (s.dev.bmc.addr = R.RST_CTL.bar0 → bitsOf v.toNat 15 8 = 0x5A → bitAt v.toNat 1 = true →
        ∃ t, exec (.bmcWrite v false) s = .next t ∧ t.dev.rst.level = some .cold ∧ t.dev.bmc.addr = 0 ∧ t.dev.bmc.err = false) ∧
      (s.dev.bmc.addr = R.RST_CTL.bar0 → bitsOf v.toNat 15 8 ≠ 0x5A →
        ∃ t, exec (.bmcWrite v false) s = .next t ∧ t.dev.on F.RST_STAT_KEY_REJ [] = true ∧ t.dev.bmc.err = true ∧
          t.dev.bmc.addr = (s.dev.bmc.addr + 4) % 2 ^ 32) ∧
      Runs (.bmcWrite v true) s s.dev) ∧
    (s.dev.mustWait s.dev.bmc.addr = false → let a := s.dev.read32 .bmc s.dev.bmc.addr
      Runs .bmcRead s ((a.1.emit (.bmcData a.2)).bmcStep s.dev.bmcReadErr)) ∧
    (s.dev.mustWait s.dev.bmc.addr = true → ∃ t, exec .bmcRead s = .next t ∧ t.dev.regs = s.dev.regs ∧
      t.dev.bmc.addr = (s.dev.bmc.addr + 4) % 2 ^ 32 ∧ t.dev.rst.waiting.length = s.dev.rst.waiting.length + 1) ∧
    Runs .bmcStatus s (s.dev.emit (.bmcData (if s.dev.bmc.err then 1 else 0))) ∧
    Runs .bmcTimeout s s.dev ∧
    (∀ a : BitVec 7, ∃ t, exec (.i3cDaa a) s = .next t ∧ t.dev.on F.PIN_BMC_I3C [] = true ∧
      t.dev.rd F.PIN_BMC_DYN_ADDR [] = a.toNat ∧ (∀ r ix, r.key ix ≠ R.PIN_BMC.key [] → t.dev.raw r ix = s.dev.raw r ix)) ∧
    (∃ t, exec .rstdaa s = .next t ∧ t.dev.on F.PIN_BMC_I3C [] = false ∧ t.dev.rd F.PIN_BMC_DYN_ADDR [] = 0 ∧
      (∀ r ix, r.key ix ≠ R.PIN_BMC.key [] → t.dev.raw r ix = s.dev.raw r ix)) ∧
    (∀ b, Runs (.enec b) s { s.dev with bmc := { s.dev.bmc with ibiEn := b } }) ∧
    Runs .jtagTapReset s { s.dev with bmc := { s.dev.bmc with tapReset := true } }
end

