-- ==== Sys2Proof/Laws/Sparse.lean ====
section
/-!
SUPPORT. Sparse memories: what a read after an update gives, and that every update keeps the canonical form.
-/

namespace Sys2Proof.Machine

@[simp] theorem Sparse.get_nil {α : Type} (dflt : α) (k : Nat) : Sparse.get dflt ([] : Sparse α) k = dflt := rfl

/-- Every key of a memory is above `k`. -/
def Sparse.above {α : Type} (k : Nat) (m : Sparse α) : Prop := ∀ e ∈ m, k < e.1

/-- Keys strictly rise. -/
def Sparse.sorted {α : Type} : Sparse α → Prop
  | [] => True
  | e :: t => Sparse.above e.1 t ∧ Sparse.sorted t

theorem Sparse.get_above {α : Type} (dflt : α) {k : Nat} {m : Sparse α} (h : Sparse.above k m) : Sparse.get dflt m k = dflt := by
  induction m with
  | nil => rfl
  | cons e t ih =>
    have h1 := h e (by simp)
    have h2 : Sparse.above k t := fun x hx => h x (by simp [hx])
    have : k ≠ e.1 := by omega
    simp [Sparse.get, this, ih h2]

theorem Sparse.above_mono {α : Type} {j k : Nat} {m : Sparse α} (hjk : j ≤ k) (h : Sparse.above k m) : Sparse.above j m :=
  fun e he => lt_of_le_of_lt hjk (h e he)

/-- The canonical form, as keys rising and no default listed. -/
theorem Sparse.wf_iff {α : Type} [DecidableEq α] (dflt : α) (m : Sparse α) :
    Sparse.wf dflt m = true ↔ Sparse.sorted m ∧ ∀ e ∈ m, e.2 ≠ dflt := by
  induction m with
  | nil => simp [Sparse.wf, Sparse.sorted]
  | cons e t ih =>
    cases t with
    | nil => simp [Sparse.wf, Sparse.sorted, Sparse.above]
    | cons e' t' =>
      simp only [Sparse.wf, Bool.and_eq_true, decide_eq_true_eq, ih, Sparse.sorted]
      constructor
      · rintro ⟨⟨h1, h2⟩, ⟨h3, h4⟩, h5⟩
        refine ⟨⟨?_, h3, h4⟩, ?_⟩
        · intro x hx
          rcases List.mem_cons.1 hx with rfl | hx
          · exact h1
          · exact lt_trans h1 (h3 x hx)
        · intro x hx
          rcases List.mem_cons.1 hx with rfl | hx
          · exact h2
          · exact h5 x hx
      · rintro ⟨⟨h1, h3, h4⟩, h5⟩
        exact ⟨⟨h1 e' (by simp), h5 e (by simp)⟩, ⟨h3, h4⟩, fun x hx => h5 x (List.mem_cons_of_mem _ hx)⟩

theorem Sparse.above_insert {α : Type} {j k : Nat} {m : Sparse α} {v : α} (h : Sparse.above j m) (hk : j < k) :
    Sparse.above j (Sparse.insert m k v) := by
  induction m with
  | nil => simp [Sparse.insert, Sparse.above, hk]
  | cons e t ih =>
    have ht : Sparse.above j t := fun x hx => h x (by simp [hx])
    intro x hx
    unfold Sparse.insert at hx
    split at hx
    · rcases List.mem_cons.1 hx with rfl | hx
      exacts [hk, h x hx]
    · split at hx
      · rcases List.mem_cons.1 hx with rfl | hx
        exacts [hk, ht x hx]
      · rcases List.mem_cons.1 hx with rfl | hx
        exacts [h _ (by simp), ih ht x hx]

theorem Sparse.sorted_insert {α : Type} {k : Nat} {m : Sparse α} {v : α} (h : Sparse.sorted m) :
    Sparse.sorted (Sparse.insert m k v) := by
  induction m with
  | nil => simp [Sparse.insert, Sparse.sorted, Sparse.above]
  | cons e t ih =>
    obtain ⟨h1, h2⟩ := h
    unfold Sparse.insert
    split
    · rename_i hk
      refine ⟨fun x hx => ?_, h1, h2⟩
      rcases List.mem_cons.1 hx with rfl | hx
      exacts [hk, lt_trans hk (h1 x hx)]
    · split
      · rename_i hk
        subst hk
        exact ⟨h1, h2⟩
      · exact ⟨Sparse.above_insert h1 (by omega), ih h2⟩

theorem Sparse.sorted_filter {α : Type} {m : Sparse α} {p : Nat × α → Bool} (h : Sparse.sorted m) :
    Sparse.sorted (m.filter p) := by
  induction m with
  | nil => trivial
  | cons e t ih =>
    by_cases hp : p e = true
    · rw [List.filter_cons_of_pos hp]
      exact ⟨fun x hx => h.1 x (List.mem_of_mem_filter hx), ih h.2⟩
    · rw [List.filter_cons_of_neg hp]
      exact ih h.2

theorem Sparse.sorted_put {α : Type} {k : Nat} {m : Sparse α} {o : Option α} (h : Sparse.sorted m) :
    Sparse.sorted (Sparse.put m k o) := by
  cases o with
  | none => exact Sparse.sorted_filter h
  | some v => exact Sparse.sorted_insert h

theorem Sparse.mem_insert {α : Type} {k : Nat} {m : Sparse α} {v : α} {e : Nat × α} (h : e ∈ Sparse.insert m k v) :
    e ∈ m ∨ e = (k, v) := by
  induction m with
  | nil => simpa [Sparse.insert] using h
  | cons x t ih =>
    unfold Sparse.insert at h
    split at h
    · rcases List.mem_cons.1 h with rfl | h
      exacts [Or.inr rfl, Or.inl h]
    · split at h
      · rcases List.mem_cons.1 h with rfl | h
        exacts [Or.inr rfl, Or.inl (List.mem_cons_of_mem _ h)]
      · rcases List.mem_cons.1 h with rfl | h
        · exact Or.inl (by simp)
        · exact (ih h).imp (List.mem_cons_of_mem _) id

theorem Sparse.mem_put {α : Type} {k : Nat} {m : Sparse α} {o : Option α} {e : Nat × α} (h : e ∈ Sparse.put m k o) :
    e ∈ m ∨ o = some e.2 := by
  cases o with
  | none => exact Or.inl (List.mem_of_mem_filter h)
  | some v => exact (Sparse.mem_insert h).imp id (fun h => by rw [h])

/-- An update keeps the canonical form. -/
theorem Sparse.wf_set {α : Type} [DecidableEq α] (dflt : α) (m : Sparse α) (k : Nat) (v : α) (h : Sparse.wf dflt m = true) :
    Sparse.wf dflt (Sparse.set dflt m k v) = true := by
  rw [Sparse.wf_iff] at h ⊢
  refine ⟨Sparse.sorted_put h.1, fun e he => ?_⟩
  rcases Sparse.mem_put he with h' | h'
  · exact h.2 e h'
  · split at h'
    · simp at h'
    · rename_i hne; intro hd; simp at h'; exact hne (h' ▸ hd)

/-- Dropping entries keeps the canonical form. -/
theorem Sparse.wf_keep {α : Type} [DecidableEq α] (dflt : α) (m : Sparse α) (p : Nat → Bool) (h : Sparse.wf dflt m = true) :
    Sparse.wf dflt (Sparse.keep m p) = true := by
  rw [Sparse.wf_iff] at h ⊢
  exact ⟨Sparse.sorted_filter h.1, fun e he => h.2 e (List.mem_of_mem_filter he)⟩

theorem Sparse.get_insert_self {α : Type} (dflt : α) (m : Sparse α) (k : Nat) (v : α) :
    Sparse.get dflt (Sparse.insert m k v) k = v := by
  induction m with
  | nil => simp [Sparse.insert, Sparse.get]
  | cons e t ih =>
    unfold Sparse.insert
    split
    · simp [Sparse.get]
    · split
      · simp [Sparse.get]
      · rename_i hk
        simp [Sparse.get, hk, ih]

theorem Sparse.get_insert_other {α : Type} (dflt : α) (m : Sparse α) (j k : Nat) (v : α) (hjk : j ≠ k) :
    Sparse.get dflt (Sparse.insert m k v) j = Sparse.get dflt m j := by
  induction m with
  | nil => simp [Sparse.insert, Sparse.get, hjk]
  | cons e t ih =>
    unfold Sparse.insert
    split
    · simp [Sparse.get, hjk]
    · split
      · rename_i hk
        subst hk
        simp [Sparse.get, hjk]
      · simp [Sparse.get, ih]

theorem Sparse.get_filter_self {α : Type} (dflt : α) (m : Sparse α) (k : Nat) :
    Sparse.get dflt (m.filter (fun e => e.1 != k)) k = dflt := by
  induction m with
  | nil => rfl
  | cons e t ih =>
    by_cases h : e.1 = k
    · simp [h, ih]
    · have hk : k ≠ e.1 := fun x => h x.symm
      simp [h, Sparse.get, hk, ih]

theorem Sparse.get_filter_other {α : Type} (dflt : α) (m : Sparse α) (j k : Nat) (hjk : j ≠ k) :
    Sparse.get dflt (m.filter (fun e => e.1 != k)) j = Sparse.get dflt m j := by
  induction m with
  | nil => rfl
  | cons e t ih =>
    by_cases h : e.1 = k
    · simp [h, ih, Sparse.get, hjk]
    · simp [h, Sparse.get, ih]

/-- A read of the key just put. -/
theorem Sparse.get_put_self {α : Type} (dflt : α) (m : Sparse α) (k : Nat) (o : Option α) :
    Sparse.get dflt (Sparse.put m k o) k = o.getD dflt := by
  cases o with
  | none => exact Sparse.get_filter_self dflt m k
  | some v => exact Sparse.get_insert_self dflt m k v

/-- A read of another key. -/
theorem Sparse.get_put_other {α : Type} (dflt : α) (m : Sparse α) (j k : Nat) (o : Option α) (hjk : j ≠ k) :
    Sparse.get dflt (Sparse.put m k o) j = Sparse.get dflt m j := by
  cases o with
  | none => exact Sparse.get_filter_other dflt m j k hjk
  | some v => exact Sparse.get_insert_other dflt m j k v hjk

/-- A read after an update at the same key gives the value. -/
@[simp] theorem Sparse.get_set_self {α : Type} [DecidableEq α] (dflt : α) (m : Sparse α) (k : Nat) (v : α) :
    Sparse.get dflt (Sparse.set dflt m k v) k = v := by
  unfold Sparse.set
  rw [Sparse.get_put_self]
  split <;> simp_all

/-- An update leaves every other key alone. -/
theorem Sparse.get_set_other {α : Type} [DecidableEq α] (dflt dflt' : α) (m : Sparse α) (j k : Nat) (v : α) (hjk : j ≠ k) :
    Sparse.get dflt' (Sparse.set dflt m k v) j = Sparse.get dflt' m j := Sparse.get_put_other dflt' m j k _ hjk

end Sys2Proof.Machine
end

