-- ==== Sys2Proof/Laws/Regs.lean ====
section
/-!
SUPPORT. The register store: bit fields, keys, and what a read of a register or field gives after a write.
-/

namespace Sys2Proof.Machine

/-! ## Bit fields -/

theorem setBitsOf_lt {v hi lo x n : Nat} (hv : v < 2 ^ n) (hhi : hi < n) (hlo : lo ≤ hi) : setBitsOf v hi lo x < 2 ^ n := by
  unfold setBitsOf
  have h1 : v % 2 ^ lo < 2 ^ lo := Nat.mod_lt _ (by positivity)
  have h2 : x % 2 ^ (hi + 1 - lo) < 2 ^ (hi + 1 - lo) := Nat.mod_lt _ (by positivity)
  have h3 : 2 ^ (hi + 1 - lo) * 2 ^ lo = 2 ^ (hi + 1) := by rw [← pow_add]; congr 1; omega
  have h4 : 2 ^ n = 2 ^ (n - (hi + 1)) * 2 ^ (hi + 1) := by rw [← pow_add]; congr 1; omega
  have h5 : v / 2 ^ (hi + 1) < 2 ^ (n - (hi + 1)) := by
    rw [Nat.div_lt_iff_lt_mul (by positivity), ← h4]; exact hv
  have h6 : (x % 2 ^ (hi + 1 - lo) + 1) * 2 ^ lo ≤ 2 ^ (hi + 1) := by
    rw [← h3]; exact Nat.mul_le_mul_right _ h2
  have h7 : (v / 2 ^ (hi + 1) + 1) * 2 ^ (hi + 1) ≤ 2 ^ n := by
    rw [h4]; exact Nat.mul_le_mul_right _ h5
  have e6 : (x % 2 ^ (hi + 1 - lo) + 1) * 2 ^ lo = x % 2 ^ (hi + 1 - lo) * 2 ^ lo + 2 ^ lo := by ring
  have e7 : (v / 2 ^ (hi + 1) + 1) * 2 ^ (hi + 1) = v / 2 ^ (hi + 1) * 2 ^ (hi + 1) + 2 ^ (hi + 1) := by ring
  omega

/-- The bits of a field as `testBit` sees them. -/
theorem testBit_bitsOf (v hi lo i : Nat) : (bitsOf v hi lo).testBit i = (decide (i < hi + 1 - lo) && v.testBit (lo + i)) := by
  unfold bitsOf
  rw [Nat.testBit_mod_two_pow, Nat.testBit_div_two_pow, Nat.add_comm i lo]

theorem testBit_setBitsOf (v hi lo x i : Nat) (h : lo ≤ hi) :
    (setBitsOf v hi lo x).testBit i = if lo ≤ i ∧ i ≤ hi then x.testBit (i - lo) else v.testBit i := by
  unfold setBitsOf
  have e1 : v % 2 ^ lo + x % 2 ^ (hi + 1 - lo) * 2 ^ lo = 2 ^ lo * (x % 2 ^ (hi + 1 - lo)) + v % 2 ^ lo := by ring
  have hb : 2 ^ lo * (x % 2 ^ (hi + 1 - lo)) + v % 2 ^ lo < 2 ^ (hi + 1) := by
    have h2 : x % 2 ^ (hi + 1 - lo) < 2 ^ (hi + 1 - lo) := Nat.mod_lt _ (by positivity)
    have h1 : v % 2 ^ lo < 2 ^ lo := Nat.mod_lt _ (by positivity)
    have h3 : 2 ^ lo * 2 ^ (hi + 1 - lo) = 2 ^ (hi + 1) := by rw [← pow_add]; congr 1; omega
    have h6 : 2 ^ lo * (x % 2 ^ (hi + 1 - lo) + 1) ≤ 2 ^ (hi + 1) := by rw [← h3]; exact Nat.mul_le_mul_left _ h2
    have e6 : 2 ^ lo * (x % 2 ^ (hi + 1 - lo) + 1) = 2 ^ lo * (x % 2 ^ (hi + 1 - lo)) + 2 ^ lo := by ring
    omega
  rw [e1, Nat.add_comm, Nat.mul_comm (v / 2 ^ (hi + 1)), Nat.testBit_two_pow_mul_add _ hb,
    Nat.testBit_two_pow_mul_add _ (Nat.mod_lt _ (by positivity)), Nat.testBit_mod_two_pow, Nat.testBit_mod_two_pow,
    Nat.testBit_div_two_pow]
  by_cases h1 : i < hi + 1
  · by_cases h2 : i < lo
    · simp [h1, h2, show ¬ lo ≤ i by omega]
    · simp [h1, h2, show lo ≤ i by omega, show i ≤ hi by omega, show i - lo < hi + 1 - lo by omega]
  · simp only [h1, if_false]
    rw [if_neg (by omega)]
    congr 1; omega

/-- A field reads what was put into it. -/
theorem bitsOf_setBitsOf_self (v hi lo x : Nat) (h : lo ≤ hi) : bitsOf (setBitsOf v hi lo x) hi lo = x % 2 ^ (hi + 1 - lo) := by
  apply Nat.eq_of_testBit_eq
  intro i
  rw [testBit_bitsOf, testBit_setBitsOf _ _ _ _ _ h, Nat.testBit_mod_two_pow]
  by_cases hi' : i < hi + 1 - lo
  · simp [hi', show lo + i ≤ hi by omega]
  · simp [hi']

/-- A disjoint field is left alone. -/
theorem bitsOf_setBitsOf_other (v hi lo hi' lo' x : Nat) (h : lo ≤ hi) (hd : hi' < lo ∨ hi < lo') :
    bitsOf (setBitsOf v hi lo x) hi' lo' = bitsOf v hi' lo' := by
  apply Nat.eq_of_testBit_eq
  intro i
  rw [testBit_bitsOf, testBit_bitsOf, testBit_setBitsOf _ _ _ _ _ h]
  by_cases hi' : i < hi' + 1 - lo'
  · rw [if_neg (by omega)]
  · simp [hi']

theorem bitsOf_lt (v hi lo : Nat) : bitsOf v hi lo < 2 ^ (hi + 1 - lo) := Nat.mod_lt _ (by positivity)

@[simp] theorem bitsOf_zero (hi lo : Nat) : bitsOf 0 hi lo = 0 := by simp [bitsOf]

/-- One bit put reads as put; another bit is left alone. -/
theorem bitAt_putBit (v i j : Nat) (b : Bool) : bitAt (putBit v i b) j = if j = i then b else bitAt v j := by
  have key : ∀ v j, bitAt v j = v.testBit j := by
    intro v j
    rw [Nat.testBit_eq_decide_div_mod_eq]; rfl
  rw [key, key, putBit, testBit_setBitsOf _ _ _ _ _ le_rfl]
  by_cases h : j = i
  · subst h; cases b <;> simp [b2n]
  · rw [if_neg (by omega), if_neg h]

/-! ## Keys -/

theorem Reg.key_ne {r r' : Reg} (ix ix' : List Nat) (h : r.win ≠ r'.win ∨ r.id ≠ r'.id) (h1 : r.id < 4096)
    (h2 : r'.id < 4096) : r.key ix ≠ r'.key ix' := by
  unfold Reg.key Reg.keyAt
  omega

/-! ## Registers -/

theorem Dev.raw_lt (d : Dev) (r : Reg) (ix : List Nat) : d.raw r ix < 2 ^ 64 := (Sparse.get _ d.regs _).isLt

theorem Dev.rawC_lt (d : Dev) (r : Reg) (ix : List Nat) : d.rawC r ix < 2 ^ 64 := (Sparse.get _ d.comm _).isLt

theorem Dev.raw_setRaw_self (d : Dev) (r : Reg) (ix : List Nat) (v : Nat) : (d.setRaw r ix v).raw r ix = v % 2 ^ 64 := by
  simp [Dev.raw, Dev.setRaw]

theorem Dev.raw_setRaw_of_key (d : Dev) (r r' : Reg) (ix ix' : List Nat) (v : Nat) (h : r'.key ix' ≠ r.key ix) :
    (d.setRaw r ix v).raw r' ix' = d.raw r' ix' := by
  simp [Dev.raw, Dev.setRaw, Sparse.get_set_other _ _ _ _ _ _ h]

theorem Dev.raw_setRaw_other (d : Dev) (r r' : Reg) (ix ix' : List Nat) (v : Nat) (h : r'.win ≠ r.win ∨ r'.id ≠ r.id)
    (h1 : r'.id < 4096) (h2 : r.id < 4096) : (d.setRaw r ix v).raw r' ix' = d.raw r' ix' :=
  d.raw_setRaw_of_key r r' ix ix' v (Reg.key_ne ix' ix h h1 h2)

theorem Dev.rawC_setRawC_self (d : Dev) (r : Reg) (ix : List Nat) (v : Nat) : (d.setRawC r ix v).rawC r ix = v % 2 ^ 64 := by
  simp [Dev.rawC, Dev.setRawC]

theorem Dev.rawC_setRawC_of_key (d : Dev) (r r' : Reg) (ix ix' : List Nat) (v : Nat) (h : r'.key ix' ≠ r.key ix) :
    (d.setRawC r ix v).rawC r' ix' = d.rawC r' ix' := by
  simp [Dev.rawC, Dev.setRawC, Sparse.get_set_other _ _ _ _ _ _ h]

/-- A field just written reads as written. -/
theorem Dev.rd_wr_self (d : Dev) (f : Fld) (ix : List Nat) (v : Nat) (hlo : f.lo ≤ f.hi) (hhi : f.hi < 64) :
    (d.wr f ix v).rd f ix = v % 2 ^ (f.hi + 1 - f.lo) := by
  rw [Dev.rd, Dev.wr, Dev.raw_setRaw_self, Nat.mod_eq_of_lt (setBitsOf_lt (d.raw_lt _ _) hhi hlo), bitsOf_setBitsOf_self _ _ _ _ hlo]

/-- A field of another register instance is left alone. -/
theorem Dev.rd_wr_of_key (d : Dev) (f g : Fld) (ix jx : List Nat) (v : Nat) (h : g.reg.key jx ≠ f.reg.key ix) :
    (d.wr f ix v).rd g jx = d.rd g jx := by
  rw [Dev.rd, Dev.wr, Dev.raw_setRaw_of_key _ _ _ _ _ _ h, Dev.rd]

/-- A field of another register is left alone. -/
theorem Dev.rd_wr_other (d : Dev) (f g : Fld) (ix jx : List Nat) (v : Nat) (h : g.reg.win ≠ f.reg.win ∨ g.reg.id ≠ f.reg.id)
    (h1 : g.reg.id < 4096) (h2 : f.reg.id < 4096) : (d.wr f ix v).rd g jx = d.rd g jx :=
  d.rd_wr_of_key f g ix jx v (Reg.key_ne jx ix h h1 h2)

/-- A disjoint field of the same register instance is left alone. -/
theorem Dev.rd_wr_field (d : Dev) (f g : Fld) (ix : List Nat) (v : Nat) (hr : g.reg = f.reg) (hd : g.hi < f.lo ∨ f.hi < g.lo)
    (hlo : f.lo ≤ f.hi) (hhi : f.hi < 64) : (d.wr f ix v).rd g ix = d.rd g ix := by
  rw [Dev.rd, Dev.wr, hr, Dev.raw_setRaw_self, Nat.mod_eq_of_lt (setBitsOf_lt (d.raw_lt _ _) hhi hlo),
    bitsOf_setBitsOf_other _ _ _ _ _ _ hlo hd, Dev.rd, hr]

theorem Dev.rd_lt (d : Dev) (f : Fld) (ix : List Nat) : d.rd f ix < 2 ^ (f.hi + 1 - f.lo) := bitsOf_lt _ _ _

/-- A 32-bit counter raised by one. -/
theorem Dev.rd_inc_self (d : Dev) (f : Fld) (ix : List Nat) (hlo : f.lo ≤ f.hi) (hhi : f.hi < 64)
    (hw : f.hi + 1 - f.lo ≠ 64) (h : d.rd f ix + 1 < 2 ^ (f.hi + 1 - f.lo)) : (d.inc f ix).rd f ix = d.rd f ix + 1 := by
  unfold Dev.inc Dev.addTo
  rw [if_neg hw, if_pos h, Dev.rd_wr_self _ _ _ _ hlo hhi, Nat.mod_eq_of_lt h]

/-- A counter update is one register write. -/
theorem Dev.addTo_eq (d : Dev) (f : Fld) (ix : List Nat) (n : Nat) : ∃ v, d.addTo f ix n = d.wr f ix v := by
  unfold Dev.addTo
  dsimp only
  split
  · exact ⟨_, rfl⟩
  · exact ⟨_, rfl⟩

theorem Dev.rd_addTo_of_key (d : Dev) (f g : Fld) (ix jx : List Nat) (n : Nat) (h : g.reg.key jx ≠ f.reg.key ix) :
    (d.addTo f ix n).rd g jx = d.rd g jx := by
  obtain ⟨v, hv⟩ := d.addTo_eq f ix n
  rw [hv, Dev.rd_wr_of_key _ _ _ _ _ _ h]

/-- Every write of a register keeps the store in canonical order. -/
theorem Dev.sorted_setRaw (d : Dev) (r : Reg) (ix : List Nat) (v : Nat) (h : Sparse.sorted d.regs) :
    Sparse.sorted (d.setRaw r ix v).regs := Sparse.sorted_put h

theorem Dev.sorted_keepRegs (d : Dev) (p : Nat → Bool) (h : Sparse.sorted d.regs) : Sparse.sorted (d.keepRegs p).regs :=
  Sparse.sorted_filter h

end Sys2Proof.Machine
end

