-- ==== Sys2Proof/Laws/State.lean ====
section
/-!
SUPPORT. What each named update of the device leaves alone: one lemma per field and update, true by `rfl`.
-/

namespace Sys2Proof.Machine

/-! ### setRaw -/

@[simp] theorem Dev.setRaw_comm (d : Dev) (r : Reg) (ix : List Nat) (v : Nat) : (d.setRaw r ix v).comm = d.comm := rfl
@[simp] theorem Dev.setRaw_snap (d : Dev) (r : Reg) (ix : List Nat) (v : Nat) : (d.setRaw r ix v).snap = d.snap := rfl
@[simp] theorem Dev.setRaw_latches (d : Dev) (r : Reg) (ix : List Nat) (v : Nat) : (d.setRaw r ix v).latches = d.latches := rfl
@[simp] theorem Dev.setRaw_holds (d : Dev) (r : Reg) (ix : List Nat) (v : Nat) : (d.setRaw r ix v).holds = d.holds := rfl
@[simp] theorem Dev.setRaw_ns (d : Dev) (r : Reg) (ix : List Nat) (v : Nat) : (d.setRaw r ix v).ns = d.ns := rfl
@[simp] theorem Dev.setRaw_frac (d : Dev) (r : Reg) (ix : List Nat) (v : Nat) : (d.setRaw r ix v).frac = d.frac := rfl
@[simp] theorem Dev.setRaw_safe (d : Dev) (r : Reg) (ix : List Nat) (v : Nat) : (d.setRaw r ix v).safe = d.safe := rfl
@[simp] theorem Dev.setRaw_resets (d : Dev) (r : Reg) (ix : List Nat) (v : Nat) : (d.setRaw r ix v).resets = d.resets := rfl
@[simp] theorem Dev.setRaw_freeIdx (d : Dev) (r : Reg) (ix : List Nat) (v : Nat) : (d.setRaw r ix v).freeIdx = d.freeIdx := rfl
@[simp] theorem Dev.setRaw_out (d : Dev) (r : Reg) (ix : List Nat) (v : Nat) : (d.setRaw r ix v).out = d.out := rfl
@[simp] theorem Dev.setRaw_act (d : Dev) (r : Reg) (ix : List Nat) (v : Nat) : (d.setRaw r ix v).act = d.act := rfl
@[simp] theorem Dev.setRaw_pmcWraps (d : Dev) (r : Reg) (ix : List Nat) (v : Nat) : (d.setRaw r ix v).pmcWraps = d.pmcWraps := rfl
@[simp] theorem Dev.setRaw_otp (d : Dev) (r : Reg) (ix : List Nat) (v : Nat) : (d.setRaw r ix v).otp = d.otp := rfl
@[simp] theorem Dev.setRaw_rst (d : Dev) (r : Reg) (ix : List Nat) (v : Nat) : (d.setRaw r ix v).rst = d.rst := rfl
@[simp] theorem Dev.setRaw_hif (d : Dev) (r : Reg) (ix : List Nat) (v : Nat) : (d.setRaw r ix v).hif = d.hif := rfl
@[simp] theorem Dev.setRaw_svc (d : Dev) (r : Reg) (ix : List Nat) (v : Nat) : (d.setRaw r ix v).svc = d.svc := rfl
@[simp] theorem Dev.setRaw_spl (d : Dev) (r : Reg) (ix : List Nat) (v : Nat) : (d.setRaw r ix v).spl = d.spl := rfl
@[simp] theorem Dev.setRaw_bmc (d : Dev) (r : Reg) (ix : List Nat) (v : Nat) : (d.setRaw r ix v).bmc = d.bmc := rfl
@[simp] theorem Dev.setRaw_phy (d : Dev) (r : Reg) (ix : List Nat) (v : Nat) : (d.setRaw r ix v).phy = d.phy := rfl
@[simp] theorem Dev.setRaw_tlm (d : Dev) (r : Reg) (ix : List Nat) (v : Nat) : (d.setRaw r ix v).tlm = d.tlm := rfl
@[simp] theorem Dev.setRaw_dp (d : Dev) (r : Reg) (ix : List Nat) (v : Nat) : (d.setRaw r ix v).dp = d.dp := rfl
@[simp] theorem Dev.setRaw_tbl (d : Dev) (r : Reg) (ix : List Nat) (v : Nat) : (d.setRaw r ix v).tbl = d.tbl := rfl
@[simp] theorem Dev.setRaw_sump (d : Dev) (r : Reg) (ix : List Nat) (v : Nat) : (d.setRaw r ix v).sump = d.sump := rfl
@[simp] theorem Dev.setRaw_gth (d : Dev) (r : Reg) (ix : List Nat) (v : Nat) : (d.setRaw r ix v).gth = d.gth := rfl
@[simp] theorem Dev.setRaw_anl (d : Dev) (r : Reg) (ix : List Nat) (v : Nat) : (d.setRaw r ix v).anl = d.anl := rfl

/-! ### setRawC -/

@[simp] theorem Dev.setRawC_regs (d : Dev) (r : Reg) (ix : List Nat) (v : Nat) : (d.setRawC r ix v).regs = d.regs := rfl
@[simp] theorem Dev.setRawC_snap (d : Dev) (r : Reg) (ix : List Nat) (v : Nat) : (d.setRawC r ix v).snap = d.snap := rfl
@[simp] theorem Dev.setRawC_latches (d : Dev) (r : Reg) (ix : List Nat) (v : Nat) : (d.setRawC r ix v).latches = d.latches := rfl
@[simp] theorem Dev.setRawC_holds (d : Dev) (r : Reg) (ix : List Nat) (v : Nat) : (d.setRawC r ix v).holds = d.holds := rfl
@[simp] theorem Dev.setRawC_ns (d : Dev) (r : Reg) (ix : List Nat) (v : Nat) : (d.setRawC r ix v).ns = d.ns := rfl
@[simp] theorem Dev.setRawC_frac (d : Dev) (r : Reg) (ix : List Nat) (v : Nat) : (d.setRawC r ix v).frac = d.frac := rfl
@[simp] theorem Dev.setRawC_safe (d : Dev) (r : Reg) (ix : List Nat) (v : Nat) : (d.setRawC r ix v).safe = d.safe := rfl
@[simp] theorem Dev.setRawC_resets (d : Dev) (r : Reg) (ix : List Nat) (v : Nat) : (d.setRawC r ix v).resets = d.resets := rfl
@[simp] theorem Dev.setRawC_freeIdx (d : Dev) (r : Reg) (ix : List Nat) (v : Nat) : (d.setRawC r ix v).freeIdx = d.freeIdx := rfl
@[simp] theorem Dev.setRawC_out (d : Dev) (r : Reg) (ix : List Nat) (v : Nat) : (d.setRawC r ix v).out = d.out := rfl
@[simp] theorem Dev.setRawC_act (d : Dev) (r : Reg) (ix : List Nat) (v : Nat) : (d.setRawC r ix v).act = d.act := rfl
@[simp] theorem Dev.setRawC_pmcWraps (d : Dev) (r : Reg) (ix : List Nat) (v : Nat) : (d.setRawC r ix v).pmcWraps = d.pmcWraps := rfl
@[simp] theorem Dev.setRawC_otp (d : Dev) (r : Reg) (ix : List Nat) (v : Nat) : (d.setRawC r ix v).otp = d.otp := rfl
@[simp] theorem Dev.setRawC_rst (d : Dev) (r : Reg) (ix : List Nat) (v : Nat) : (d.setRawC r ix v).rst = d.rst := rfl
@[simp] theorem Dev.setRawC_hif (d : Dev) (r : Reg) (ix : List Nat) (v : Nat) : (d.setRawC r ix v).hif = d.hif := rfl
@[simp] theorem Dev.setRawC_svc (d : Dev) (r : Reg) (ix : List Nat) (v : Nat) : (d.setRawC r ix v).svc = d.svc := rfl
@[simp] theorem Dev.setRawC_spl (d : Dev) (r : Reg) (ix : List Nat) (v : Nat) : (d.setRawC r ix v).spl = d.spl := rfl
@[simp] theorem Dev.setRawC_bmc (d : Dev) (r : Reg) (ix : List Nat) (v : Nat) : (d.setRawC r ix v).bmc = d.bmc := rfl
@[simp] theorem Dev.setRawC_phy (d : Dev) (r : Reg) (ix : List Nat) (v : Nat) : (d.setRawC r ix v).phy = d.phy := rfl
@[simp] theorem Dev.setRawC_tlm (d : Dev) (r : Reg) (ix : List Nat) (v : Nat) : (d.setRawC r ix v).tlm = d.tlm := rfl
@[simp] theorem Dev.setRawC_dp (d : Dev) (r : Reg) (ix : List Nat) (v : Nat) : (d.setRawC r ix v).dp = d.dp := rfl
@[simp] theorem Dev.setRawC_tbl (d : Dev) (r : Reg) (ix : List Nat) (v : Nat) : (d.setRawC r ix v).tbl = d.tbl := rfl
@[simp] theorem Dev.setRawC_sump (d : Dev) (r : Reg) (ix : List Nat) (v : Nat) : (d.setRawC r ix v).sump = d.sump := rfl
@[simp] theorem Dev.setRawC_gth (d : Dev) (r : Reg) (ix : List Nat) (v : Nat) : (d.setRawC r ix v).gth = d.gth := rfl
@[simp] theorem Dev.setRawC_anl (d : Dev) (r : Reg) (ix : List Nat) (v : Nat) : (d.setRawC r ix v).anl = d.anl := rfl

/-! ### wr -/

@[simp] theorem Dev.wr_comm (d : Dev) (f : Fld) (ix : List Nat) (v : Nat) : (d.wr f ix v).comm = d.comm := rfl
@[simp] theorem Dev.wr_snap (d : Dev) (f : Fld) (ix : List Nat) (v : Nat) : (d.wr f ix v).snap = d.snap := rfl
@[simp] theorem Dev.wr_latches (d : Dev) (f : Fld) (ix : List Nat) (v : Nat) : (d.wr f ix v).latches = d.latches := rfl
@[simp] theorem Dev.wr_holds (d : Dev) (f : Fld) (ix : List Nat) (v : Nat) : (d.wr f ix v).holds = d.holds := rfl
@[simp] theorem Dev.wr_ns (d : Dev) (f : Fld) (ix : List Nat) (v : Nat) : (d.wr f ix v).ns = d.ns := rfl
@[simp] theorem Dev.wr_frac (d : Dev) (f : Fld) (ix : List Nat) (v : Nat) : (d.wr f ix v).frac = d.frac := rfl
@[simp] theorem Dev.wr_safe (d : Dev) (f : Fld) (ix : List Nat) (v : Nat) : (d.wr f ix v).safe = d.safe := rfl
@[simp] theorem Dev.wr_resets (d : Dev) (f : Fld) (ix : List Nat) (v : Nat) : (d.wr f ix v).resets = d.resets := rfl
@[simp] theorem Dev.wr_freeIdx (d : Dev) (f : Fld) (ix : List Nat) (v : Nat) : (d.wr f ix v).freeIdx = d.freeIdx := rfl
@[simp] theorem Dev.wr_out (d : Dev) (f : Fld) (ix : List Nat) (v : Nat) : (d.wr f ix v).out = d.out := rfl
@[simp] theorem Dev.wr_act (d : Dev) (f : Fld) (ix : List Nat) (v : Nat) : (d.wr f ix v).act = d.act := rfl
@[simp] theorem Dev.wr_pmcWraps (d : Dev) (f : Fld) (ix : List Nat) (v : Nat) : (d.wr f ix v).pmcWraps = d.pmcWraps := rfl
@[simp] theorem Dev.wr_otp (d : Dev) (f : Fld) (ix : List Nat) (v : Nat) : (d.wr f ix v).otp = d.otp := rfl
@[simp] theorem Dev.wr_rst (d : Dev) (f : Fld) (ix : List Nat) (v : Nat) : (d.wr f ix v).rst = d.rst := rfl
@[simp] theorem Dev.wr_hif (d : Dev) (f : Fld) (ix : List Nat) (v : Nat) : (d.wr f ix v).hif = d.hif := rfl
@[simp] theorem Dev.wr_svc (d : Dev) (f : Fld) (ix : List Nat) (v : Nat) : (d.wr f ix v).svc = d.svc := rfl
@[simp] theorem Dev.wr_spl (d : Dev) (f : Fld) (ix : List Nat) (v : Nat) : (d.wr f ix v).spl = d.spl := rfl
@[simp] theorem Dev.wr_bmc (d : Dev) (f : Fld) (ix : List Nat) (v : Nat) : (d.wr f ix v).bmc = d.bmc := rfl
@[simp] theorem Dev.wr_phy (d : Dev) (f : Fld) (ix : List Nat) (v : Nat) : (d.wr f ix v).phy = d.phy := rfl
@[simp] theorem Dev.wr_tlm (d : Dev) (f : Fld) (ix : List Nat) (v : Nat) : (d.wr f ix v).tlm = d.tlm := rfl
@[simp] theorem Dev.wr_dp (d : Dev) (f : Fld) (ix : List Nat) (v : Nat) : (d.wr f ix v).dp = d.dp := rfl
@[simp] theorem Dev.wr_tbl (d : Dev) (f : Fld) (ix : List Nat) (v : Nat) : (d.wr f ix v).tbl = d.tbl := rfl
@[simp] theorem Dev.wr_sump (d : Dev) (f : Fld) (ix : List Nat) (v : Nat) : (d.wr f ix v).sump = d.sump := rfl
@[simp] theorem Dev.wr_gth (d : Dev) (f : Fld) (ix : List Nat) (v : Nat) : (d.wr f ix v).gth = d.gth := rfl
@[simp] theorem Dev.wr_anl (d : Dev) (f : Fld) (ix : List Nat) (v : Nat) : (d.wr f ix v).anl = d.anl := rfl

/-! ### wrC -/

@[simp] theorem Dev.wrC_regs (d : Dev) (f : Fld) (ix : List Nat) (v : Nat) : (d.wrC f ix v).regs = d.regs := rfl
@[simp] theorem Dev.wrC_snap (d : Dev) (f : Fld) (ix : List Nat) (v : Nat) : (d.wrC f ix v).snap = d.snap := rfl
@[simp] theorem Dev.wrC_latches (d : Dev) (f : Fld) (ix : List Nat) (v : Nat) : (d.wrC f ix v).latches = d.latches := rfl
@[simp] theorem Dev.wrC_holds (d : Dev) (f : Fld) (ix : List Nat) (v : Nat) : (d.wrC f ix v).holds = d.holds := rfl
@[simp] theorem Dev.wrC_ns (d : Dev) (f : Fld) (ix : List Nat) (v : Nat) : (d.wrC f ix v).ns = d.ns := rfl
@[simp] theorem Dev.wrC_frac (d : Dev) (f : Fld) (ix : List Nat) (v : Nat) : (d.wrC f ix v).frac = d.frac := rfl
@[simp] theorem Dev.wrC_safe (d : Dev) (f : Fld) (ix : List Nat) (v : Nat) : (d.wrC f ix v).safe = d.safe := rfl
@[simp] theorem Dev.wrC_resets (d : Dev) (f : Fld) (ix : List Nat) (v : Nat) : (d.wrC f ix v).resets = d.resets := rfl
@[simp] theorem Dev.wrC_freeIdx (d : Dev) (f : Fld) (ix : List Nat) (v : Nat) : (d.wrC f ix v).freeIdx = d.freeIdx := rfl
@[simp] theorem Dev.wrC_out (d : Dev) (f : Fld) (ix : List Nat) (v : Nat) : (d.wrC f ix v).out = d.out := rfl
@[simp] theorem Dev.wrC_act (d : Dev) (f : Fld) (ix : List Nat) (v : Nat) : (d.wrC f ix v).act = d.act := rfl
@[simp] theorem Dev.wrC_pmcWraps (d : Dev) (f : Fld) (ix : List Nat) (v : Nat) : (d.wrC f ix v).pmcWraps = d.pmcWraps := rfl
@[simp] theorem Dev.wrC_otp (d : Dev) (f : Fld) (ix : List Nat) (v : Nat) : (d.wrC f ix v).otp = d.otp := rfl
@[simp] theorem Dev.wrC_rst (d : Dev) (f : Fld) (ix : List Nat) (v : Nat) : (d.wrC f ix v).rst = d.rst := rfl
@[simp] theorem Dev.wrC_hif (d : Dev) (f : Fld) (ix : List Nat) (v : Nat) : (d.wrC f ix v).hif = d.hif := rfl
@[simp] theorem Dev.wrC_svc (d : Dev) (f : Fld) (ix : List Nat) (v : Nat) : (d.wrC f ix v).svc = d.svc := rfl
@[simp] theorem Dev.wrC_spl (d : Dev) (f : Fld) (ix : List Nat) (v : Nat) : (d.wrC f ix v).spl = d.spl := rfl
@[simp] theorem Dev.wrC_bmc (d : Dev) (f : Fld) (ix : List Nat) (v : Nat) : (d.wrC f ix v).bmc = d.bmc := rfl
@[simp] theorem Dev.wrC_phy (d : Dev) (f : Fld) (ix : List Nat) (v : Nat) : (d.wrC f ix v).phy = d.phy := rfl
@[simp] theorem Dev.wrC_tlm (d : Dev) (f : Fld) (ix : List Nat) (v : Nat) : (d.wrC f ix v).tlm = d.tlm := rfl
@[simp] theorem Dev.wrC_dp (d : Dev) (f : Fld) (ix : List Nat) (v : Nat) : (d.wrC f ix v).dp = d.dp := rfl
@[simp] theorem Dev.wrC_tbl (d : Dev) (f : Fld) (ix : List Nat) (v : Nat) : (d.wrC f ix v).tbl = d.tbl := rfl
@[simp] theorem Dev.wrC_sump (d : Dev) (f : Fld) (ix : List Nat) (v : Nat) : (d.wrC f ix v).sump = d.sump := rfl
@[simp] theorem Dev.wrC_gth (d : Dev) (f : Fld) (ix : List Nat) (v : Nat) : (d.wrC f ix v).gth = d.gth := rfl
@[simp] theorem Dev.wrC_anl (d : Dev) (f : Fld) (ix : List Nat) (v : Nat) : (d.wrC f ix v).anl = d.anl := rfl

/-! ### emit -/

@[simp] theorem Dev.emit_regs (d : Dev) (o : Output) : (d.emit o).regs = d.regs := rfl
@[simp] theorem Dev.emit_comm (d : Dev) (o : Output) : (d.emit o).comm = d.comm := rfl
@[simp] theorem Dev.emit_snap (d : Dev) (o : Output) : (d.emit o).snap = d.snap := rfl
@[simp] theorem Dev.emit_latches (d : Dev) (o : Output) : (d.emit o).latches = d.latches := rfl
@[simp] theorem Dev.emit_holds (d : Dev) (o : Output) : (d.emit o).holds = d.holds := rfl
@[simp] theorem Dev.emit_ns (d : Dev) (o : Output) : (d.emit o).ns = d.ns := rfl
@[simp] theorem Dev.emit_frac (d : Dev) (o : Output) : (d.emit o).frac = d.frac := rfl
@[simp] theorem Dev.emit_safe (d : Dev) (o : Output) : (d.emit o).safe = d.safe := rfl
@[simp] theorem Dev.emit_resets (d : Dev) (o : Output) : (d.emit o).resets = d.resets := rfl
@[simp] theorem Dev.emit_freeIdx (d : Dev) (o : Output) : (d.emit o).freeIdx = d.freeIdx := rfl
@[simp] theorem Dev.emit_act (d : Dev) (o : Output) : (d.emit o).act = d.act := rfl
@[simp] theorem Dev.emit_pmcWraps (d : Dev) (o : Output) : (d.emit o).pmcWraps = d.pmcWraps := rfl
@[simp] theorem Dev.emit_otp (d : Dev) (o : Output) : (d.emit o).otp = d.otp := rfl
@[simp] theorem Dev.emit_rst (d : Dev) (o : Output) : (d.emit o).rst = d.rst := rfl
@[simp] theorem Dev.emit_hif (d : Dev) (o : Output) : (d.emit o).hif = d.hif := rfl
@[simp] theorem Dev.emit_svc (d : Dev) (o : Output) : (d.emit o).svc = d.svc := rfl
@[simp] theorem Dev.emit_spl (d : Dev) (o : Output) : (d.emit o).spl = d.spl := rfl
@[simp] theorem Dev.emit_bmc (d : Dev) (o : Output) : (d.emit o).bmc = d.bmc := rfl
@[simp] theorem Dev.emit_phy (d : Dev) (o : Output) : (d.emit o).phy = d.phy := rfl
@[simp] theorem Dev.emit_tlm (d : Dev) (o : Output) : (d.emit o).tlm = d.tlm := rfl
@[simp] theorem Dev.emit_dp (d : Dev) (o : Output) : (d.emit o).dp = d.dp := rfl
@[simp] theorem Dev.emit_tbl (d : Dev) (o : Output) : (d.emit o).tbl = d.tbl := rfl
@[simp] theorem Dev.emit_sump (d : Dev) (o : Output) : (d.emit o).sump = d.sump := rfl
@[simp] theorem Dev.emit_gth (d : Dev) (o : Output) : (d.emit o).gth = d.gth := rfl
@[simp] theorem Dev.emit_anl (d : Dev) (o : Output) : (d.emit o).anl = d.anl := rfl

/-! ### activity -/

@[simp] theorem Dev.activity_regs (d : Dev) (i n : Nat) : (d.activity i n).regs = d.regs := rfl
@[simp] theorem Dev.activity_comm (d : Dev) (i n : Nat) : (d.activity i n).comm = d.comm := rfl
@[simp] theorem Dev.activity_snap (d : Dev) (i n : Nat) : (d.activity i n).snap = d.snap := rfl
@[simp] theorem Dev.activity_latches (d : Dev) (i n : Nat) : (d.activity i n).latches = d.latches := rfl
@[simp] theorem Dev.activity_holds (d : Dev) (i n : Nat) : (d.activity i n).holds = d.holds := rfl
@[simp] theorem Dev.activity_ns (d : Dev) (i n : Nat) : (d.activity i n).ns = d.ns := rfl
@[simp] theorem Dev.activity_frac (d : Dev) (i n : Nat) : (d.activity i n).frac = d.frac := rfl
@[simp] theorem Dev.activity_safe (d : Dev) (i n : Nat) : (d.activity i n).safe = d.safe := rfl
@[simp] theorem Dev.activity_resets (d : Dev) (i n : Nat) : (d.activity i n).resets = d.resets := rfl
@[simp] theorem Dev.activity_freeIdx (d : Dev) (i n : Nat) : (d.activity i n).freeIdx = d.freeIdx := rfl
@[simp] theorem Dev.activity_out (d : Dev) (i n : Nat) : (d.activity i n).out = d.out := rfl
@[simp] theorem Dev.activity_pmcWraps (d : Dev) (i n : Nat) : (d.activity i n).pmcWraps = d.pmcWraps := rfl
@[simp] theorem Dev.activity_otp (d : Dev) (i n : Nat) : (d.activity i n).otp = d.otp := rfl
@[simp] theorem Dev.activity_rst (d : Dev) (i n : Nat) : (d.activity i n).rst = d.rst := rfl
@[simp] theorem Dev.activity_hif (d : Dev) (i n : Nat) : (d.activity i n).hif = d.hif := rfl
@[simp] theorem Dev.activity_svc (d : Dev) (i n : Nat) : (d.activity i n).svc = d.svc := rfl
@[simp] theorem Dev.activity_spl (d : Dev) (i n : Nat) : (d.activity i n).spl = d.spl := rfl
@[simp] theorem Dev.activity_bmc (d : Dev) (i n : Nat) : (d.activity i n).bmc = d.bmc := rfl
@[simp] theorem Dev.activity_phy (d : Dev) (i n : Nat) : (d.activity i n).phy = d.phy := rfl
@[simp] theorem Dev.activity_tlm (d : Dev) (i n : Nat) : (d.activity i n).tlm = d.tlm := rfl
@[simp] theorem Dev.activity_dp (d : Dev) (i n : Nat) : (d.activity i n).dp = d.dp := rfl
@[simp] theorem Dev.activity_tbl (d : Dev) (i n : Nat) : (d.activity i n).tbl = d.tbl := rfl
@[simp] theorem Dev.activity_sump (d : Dev) (i n : Nat) : (d.activity i n).sump = d.sump := rfl
@[simp] theorem Dev.activity_gth (d : Dev) (i n : Nat) : (d.activity i n).gth = d.gth := rfl
@[simp] theorem Dev.activity_anl (d : Dev) (i n : Nat) : (d.activity i n).anl = d.anl := rfl

/-! ### keepRegs -/

@[simp] theorem Dev.keepRegs_latches (d : Dev) (p : Nat → Bool) : (d.keepRegs p).latches = d.latches := rfl
@[simp] theorem Dev.keepRegs_holds (d : Dev) (p : Nat → Bool) : (d.keepRegs p).holds = d.holds := rfl
@[simp] theorem Dev.keepRegs_ns (d : Dev) (p : Nat → Bool) : (d.keepRegs p).ns = d.ns := rfl
@[simp] theorem Dev.keepRegs_frac (d : Dev) (p : Nat → Bool) : (d.keepRegs p).frac = d.frac := rfl
@[simp] theorem Dev.keepRegs_safe (d : Dev) (p : Nat → Bool) : (d.keepRegs p).safe = d.safe := rfl
@[simp] theorem Dev.keepRegs_resets (d : Dev) (p : Nat → Bool) : (d.keepRegs p).resets = d.resets := rfl
@[simp] theorem Dev.keepRegs_freeIdx (d : Dev) (p : Nat → Bool) : (d.keepRegs p).freeIdx = d.freeIdx := rfl
@[simp] theorem Dev.keepRegs_out (d : Dev) (p : Nat → Bool) : (d.keepRegs p).out = d.out := rfl
@[simp] theorem Dev.keepRegs_act (d : Dev) (p : Nat → Bool) : (d.keepRegs p).act = d.act := rfl
@[simp] theorem Dev.keepRegs_pmcWraps (d : Dev) (p : Nat → Bool) : (d.keepRegs p).pmcWraps = d.pmcWraps := rfl
@[simp] theorem Dev.keepRegs_otp (d : Dev) (p : Nat → Bool) : (d.keepRegs p).otp = d.otp := rfl
@[simp] theorem Dev.keepRegs_rst (d : Dev) (p : Nat → Bool) : (d.keepRegs p).rst = d.rst := rfl
@[simp] theorem Dev.keepRegs_hif (d : Dev) (p : Nat → Bool) : (d.keepRegs p).hif = d.hif := rfl
@[simp] theorem Dev.keepRegs_svc (d : Dev) (p : Nat → Bool) : (d.keepRegs p).svc = d.svc := rfl
@[simp] theorem Dev.keepRegs_spl (d : Dev) (p : Nat → Bool) : (d.keepRegs p).spl = d.spl := rfl
@[simp] theorem Dev.keepRegs_bmc (d : Dev) (p : Nat → Bool) : (d.keepRegs p).bmc = d.bmc := rfl
@[simp] theorem Dev.keepRegs_phy (d : Dev) (p : Nat → Bool) : (d.keepRegs p).phy = d.phy := rfl
@[simp] theorem Dev.keepRegs_tlm (d : Dev) (p : Nat → Bool) : (d.keepRegs p).tlm = d.tlm := rfl
@[simp] theorem Dev.keepRegs_dp (d : Dev) (p : Nat → Bool) : (d.keepRegs p).dp = d.dp := rfl
@[simp] theorem Dev.keepRegs_tbl (d : Dev) (p : Nat → Bool) : (d.keepRegs p).tbl = d.tbl := rfl
@[simp] theorem Dev.keepRegs_sump (d : Dev) (p : Nat → Bool) : (d.keepRegs p).sump = d.sump := rfl
@[simp] theorem Dev.keepRegs_gth (d : Dev) (p : Nat → Bool) : (d.keepRegs p).gth = d.gth := rfl
@[simp] theorem Dev.keepRegs_anl (d : Dev) (p : Nat → Bool) : (d.keepRegs p).anl = d.anl := rfl

/-! ### latched -/

@[simp] theorem Dev.latched_snap (d : Dev) (e : Dev) : (Dev.latched d e).snap = e.snap := rfl
@[simp] theorem Dev.latched_latches (d : Dev) (e : Dev) : (Dev.latched d e).latches = e.latches := rfl
@[simp] theorem Dev.latched_holds (d : Dev) (e : Dev) : (Dev.latched d e).holds = e.holds := rfl
@[simp] theorem Dev.latched_ns (d : Dev) (e : Dev) : (Dev.latched d e).ns = e.ns := rfl
@[simp] theorem Dev.latched_frac (d : Dev) (e : Dev) : (Dev.latched d e).frac = e.frac := rfl
@[simp] theorem Dev.latched_freeIdx (d : Dev) (e : Dev) : (Dev.latched d e).freeIdx = e.freeIdx := rfl
@[simp] theorem Dev.latched_out (d : Dev) (e : Dev) : (Dev.latched d e).out = e.out := rfl
@[simp] theorem Dev.latched_act (d : Dev) (e : Dev) : (Dev.latched d e).act = e.act := rfl
@[simp] theorem Dev.latched_pmcWraps (d : Dev) (e : Dev) : (Dev.latched d e).pmcWraps = e.pmcWraps := rfl
@[simp] theorem Dev.latched_rst (d : Dev) (e : Dev) : (Dev.latched d e).rst = e.rst := rfl
@[simp] theorem Dev.latched_hif (d : Dev) (e : Dev) : (Dev.latched d e).hif = e.hif := rfl
@[simp] theorem Dev.latched_svc (d : Dev) (e : Dev) : (Dev.latched d e).svc = e.svc := rfl
@[simp] theorem Dev.latched_spl (d : Dev) (e : Dev) : (Dev.latched d e).spl = e.spl := rfl
@[simp] theorem Dev.latched_bmc (d : Dev) (e : Dev) : (Dev.latched d e).bmc = e.bmc := rfl
@[simp] theorem Dev.latched_phy (d : Dev) (e : Dev) : (Dev.latched d e).phy = e.phy := rfl
@[simp] theorem Dev.latched_tlm (d : Dev) (e : Dev) : (Dev.latched d e).tlm = e.tlm := rfl
@[simp] theorem Dev.latched_dp (d : Dev) (e : Dev) : (Dev.latched d e).dp = e.dp := rfl
@[simp] theorem Dev.latched_tbl (d : Dev) (e : Dev) : (Dev.latched d e).tbl = e.tbl := rfl
@[simp] theorem Dev.latched_sump (d : Dev) (e : Dev) : (Dev.latched d e).sump = e.sump := rfl
@[simp] theorem Dev.latched_gth (d : Dev) (e : Dev) : (Dev.latched d e).gth = e.gth := rfl
@[simp] theorem Dev.latched_anl (d : Dev) (e : Dev) : (Dev.latched d e).anl = e.anl := rfl

/-! ### addTo and inc -/

theorem Dev.addTo_regs_only (d : Dev) (f : Fld) (ix : List Nat) (n : Nat) :
    d.addTo f ix n = { d with regs := (d.addTo f ix n).regs } := by
  unfold Dev.addTo
  dsimp only
  split
  · rfl
  · rfl

@[simp] theorem Dev.addTo_comm (d : Dev) (f : Fld) (ix : List Nat) (n : Nat) : (d.addTo f ix n).comm = d.comm := by
  rw [d.addTo_regs_only]
@[simp] theorem Dev.inc_comm (d : Dev) (f : Fld) (ix : List Nat) : (d.inc f ix).comm = d.comm := d.addTo_comm f ix 1
@[simp] theorem Dev.addTo_snap (d : Dev) (f : Fld) (ix : List Nat) (n : Nat) : (d.addTo f ix n).snap = d.snap := by
  rw [d.addTo_regs_only]
@[simp] theorem Dev.inc_snap (d : Dev) (f : Fld) (ix : List Nat) : (d.inc f ix).snap = d.snap := d.addTo_snap f ix 1
@[simp] theorem Dev.addTo_latches (d : Dev) (f : Fld) (ix : List Nat) (n : Nat) : (d.addTo f ix n).latches = d.latches := by
  rw [d.addTo_regs_only]
@[simp] theorem Dev.inc_latches (d : Dev) (f : Fld) (ix : List Nat) : (d.inc f ix).latches = d.latches := d.addTo_latches f ix 1
@[simp] theorem Dev.addTo_holds (d : Dev) (f : Fld) (ix : List Nat) (n : Nat) : (d.addTo f ix n).holds = d.holds := by
  rw [d.addTo_regs_only]
@[simp] theorem Dev.inc_holds (d : Dev) (f : Fld) (ix : List Nat) : (d.inc f ix).holds = d.holds := d.addTo_holds f ix 1
@[simp] theorem Dev.addTo_ns (d : Dev) (f : Fld) (ix : List Nat) (n : Nat) : (d.addTo f ix n).ns = d.ns := by
  rw [d.addTo_regs_only]
@[simp] theorem Dev.inc_ns (d : Dev) (f : Fld) (ix : List Nat) : (d.inc f ix).ns = d.ns := d.addTo_ns f ix 1
@[simp] theorem Dev.addTo_frac (d : Dev) (f : Fld) (ix : List Nat) (n : Nat) : (d.addTo f ix n).frac = d.frac := by
  rw [d.addTo_regs_only]
@[simp] theorem Dev.inc_frac (d : Dev) (f : Fld) (ix : List Nat) : (d.inc f ix).frac = d.frac := d.addTo_frac f ix 1
@[simp] theorem Dev.addTo_safe (d : Dev) (f : Fld) (ix : List Nat) (n : Nat) : (d.addTo f ix n).safe = d.safe := by
  rw [d.addTo_regs_only]
@[simp] theorem Dev.inc_safe (d : Dev) (f : Fld) (ix : List Nat) : (d.inc f ix).safe = d.safe := d.addTo_safe f ix 1
@[simp] theorem Dev.addTo_resets (d : Dev) (f : Fld) (ix : List Nat) (n : Nat) : (d.addTo f ix n).resets = d.resets := by
  rw [d.addTo_regs_only]
@[simp] theorem Dev.inc_resets (d : Dev) (f : Fld) (ix : List Nat) : (d.inc f ix).resets = d.resets := d.addTo_resets f ix 1
@[simp] theorem Dev.addTo_freeIdx (d : Dev) (f : Fld) (ix : List Nat) (n : Nat) : (d.addTo f ix n).freeIdx = d.freeIdx := by
  rw [d.addTo_regs_only]
@[simp] theorem Dev.inc_freeIdx (d : Dev) (f : Fld) (ix : List Nat) : (d.inc f ix).freeIdx = d.freeIdx := d.addTo_freeIdx f ix 1
@[simp] theorem Dev.addTo_out (d : Dev) (f : Fld) (ix : List Nat) (n : Nat) : (d.addTo f ix n).out = d.out := by
  rw [d.addTo_regs_only]
@[simp] theorem Dev.inc_out (d : Dev) (f : Fld) (ix : List Nat) : (d.inc f ix).out = d.out := d.addTo_out f ix 1
@[simp] theorem Dev.addTo_act (d : Dev) (f : Fld) (ix : List Nat) (n : Nat) : (d.addTo f ix n).act = d.act := by
  rw [d.addTo_regs_only]
@[simp] theorem Dev.inc_act (d : Dev) (f : Fld) (ix : List Nat) : (d.inc f ix).act = d.act := d.addTo_act f ix 1
@[simp] theorem Dev.addTo_pmcWraps (d : Dev) (f : Fld) (ix : List Nat) (n : Nat) : (d.addTo f ix n).pmcWraps = d.pmcWraps := by
  rw [d.addTo_regs_only]
@[simp] theorem Dev.inc_pmcWraps (d : Dev) (f : Fld) (ix : List Nat) : (d.inc f ix).pmcWraps = d.pmcWraps := d.addTo_pmcWraps f ix 1
@[simp] theorem Dev.addTo_otp (d : Dev) (f : Fld) (ix : List Nat) (n : Nat) : (d.addTo f ix n).otp = d.otp := by
  rw [d.addTo_regs_only]
@[simp] theorem Dev.inc_otp (d : Dev) (f : Fld) (ix : List Nat) : (d.inc f ix).otp = d.otp := d.addTo_otp f ix 1
@[simp] theorem Dev.addTo_rst (d : Dev) (f : Fld) (ix : List Nat) (n : Nat) : (d.addTo f ix n).rst = d.rst := by
  rw [d.addTo_regs_only]
@[simp] theorem Dev.inc_rst (d : Dev) (f : Fld) (ix : List Nat) : (d.inc f ix).rst = d.rst := d.addTo_rst f ix 1
@[simp] theorem Dev.addTo_hif (d : Dev) (f : Fld) (ix : List Nat) (n : Nat) : (d.addTo f ix n).hif = d.hif := by
  rw [d.addTo_regs_only]
@[simp] theorem Dev.inc_hif (d : Dev) (f : Fld) (ix : List Nat) : (d.inc f ix).hif = d.hif := d.addTo_hif f ix 1
@[simp] theorem Dev.addTo_svc (d : Dev) (f : Fld) (ix : List Nat) (n : Nat) : (d.addTo f ix n).svc = d.svc := by
  rw [d.addTo_regs_only]
@[simp] theorem Dev.inc_svc (d : Dev) (f : Fld) (ix : List Nat) : (d.inc f ix).svc = d.svc := d.addTo_svc f ix 1
@[simp] theorem Dev.addTo_spl (d : Dev) (f : Fld) (ix : List Nat) (n : Nat) : (d.addTo f ix n).spl = d.spl := by
  rw [d.addTo_regs_only]
@[simp] theorem Dev.inc_spl (d : Dev) (f : Fld) (ix : List Nat) : (d.inc f ix).spl = d.spl := d.addTo_spl f ix 1
@[simp] theorem Dev.addTo_bmc (d : Dev) (f : Fld) (ix : List Nat) (n : Nat) : (d.addTo f ix n).bmc = d.bmc := by
  rw [d.addTo_regs_only]
@[simp] theorem Dev.inc_bmc (d : Dev) (f : Fld) (ix : List Nat) : (d.inc f ix).bmc = d.bmc := d.addTo_bmc f ix 1
@[simp] theorem Dev.addTo_phy (d : Dev) (f : Fld) (ix : List Nat) (n : Nat) : (d.addTo f ix n).phy = d.phy := by
  rw [d.addTo_regs_only]
@[simp] theorem Dev.inc_phy (d : Dev) (f : Fld) (ix : List Nat) : (d.inc f ix).phy = d.phy := d.addTo_phy f ix 1
@[simp] theorem Dev.addTo_tlm (d : Dev) (f : Fld) (ix : List Nat) (n : Nat) : (d.addTo f ix n).tlm = d.tlm := by
  rw [d.addTo_regs_only]
@[simp] theorem Dev.inc_tlm (d : Dev) (f : Fld) (ix : List Nat) : (d.inc f ix).tlm = d.tlm := d.addTo_tlm f ix 1
@[simp] theorem Dev.addTo_dp (d : Dev) (f : Fld) (ix : List Nat) (n : Nat) : (d.addTo f ix n).dp = d.dp := by
  rw [d.addTo_regs_only]
@[simp] theorem Dev.inc_dp (d : Dev) (f : Fld) (ix : List Nat) : (d.inc f ix).dp = d.dp := d.addTo_dp f ix 1
@[simp] theorem Dev.addTo_tbl (d : Dev) (f : Fld) (ix : List Nat) (n : Nat) : (d.addTo f ix n).tbl = d.tbl := by
  rw [d.addTo_regs_only]
@[simp] theorem Dev.inc_tbl (d : Dev) (f : Fld) (ix : List Nat) : (d.inc f ix).tbl = d.tbl := d.addTo_tbl f ix 1
@[simp] theorem Dev.addTo_sump (d : Dev) (f : Fld) (ix : List Nat) (n : Nat) : (d.addTo f ix n).sump = d.sump := by
  rw [d.addTo_regs_only]
@[simp] theorem Dev.inc_sump (d : Dev) (f : Fld) (ix : List Nat) : (d.inc f ix).sump = d.sump := d.addTo_sump f ix 1
@[simp] theorem Dev.addTo_gth (d : Dev) (f : Fld) (ix : List Nat) (n : Nat) : (d.addTo f ix n).gth = d.gth := by
  rw [d.addTo_regs_only]
@[simp] theorem Dev.inc_gth (d : Dev) (f : Fld) (ix : List Nat) : (d.inc f ix).gth = d.gth := d.addTo_gth f ix 1
@[simp] theorem Dev.addTo_anl (d : Dev) (f : Fld) (ix : List Nat) (n : Nat) : (d.addTo f ix n).anl = d.anl := by
  rw [d.addTo_regs_only]
@[simp] theorem Dev.inc_anl (d : Dev) (f : Fld) (ix : List Nat) : (d.inc f ix).anl = d.anl := d.addTo_anl f ix 1

/-! ### Lifting -/

/-- With no word in error the two sets of registers stay as the effect leaves them. -/
@[simp] theorem Dev.latched_regs (d e : Dev) (h : d.spl.dead = []) : (Dev.latched d e).regs = e.regs := by
  simp [Dev.latched, h]
@[simp] theorem Dev.latched_comm (d e : Dev) (h : d.spl.dead = []) : (Dev.latched d e).comm = e.comm := by
  simp [Dev.latched, h]

/-- Where no word is in error, an effect that leaves the safe state, the reset count and the one-time-programmable bits alone is the
next state as it stands. -/
theorem Dev.latched_eq (old new : Dev) (hd : old.spl.dead = []) (hs : new.safe = old.safe) (hr : new.resets = old.resets)
    (ho : new.otp = old.otp) : Dev.latched old new = new := by
  unfold Dev.latched
  rw [hs, hr, ho, hd]
  cases new
  cases old
  simp_all

/-- The effect of a command on a device that no reset holds. -/
theorem State.run_live (s : State) (f : Dev → Dev) (h : s.dev.rst.level = none) :
    s.run f = .next { s with dev := Dev.latched s.dev (f s.dev) } := by
  simp [State.run, Dev.apply, h]

/-- The same when the effect leaves what `Dev.latched` guards alone. -/
theorem State.run_exact (s : State) (f : Dev → Dev) (h : s.dev.rst.level = none) (hd : s.dev.spl.dead = []) (hs : (f s.dev).safe = s.dev.safe)
    (hr : (f s.dev).resets = s.dev.resets) (ho : (f s.dev).otp = s.dev.otp) : s.run f = .next { s with dev := f s.dev } := by
  rw [State.run_live s f h, Dev.latched_eq _ _ hd hs hr ho]

/-- A reset in progress lets nothing else act (log 5). -/
theorem State.run_held (s : State) (f : Dev → Dev) (h : s.dev.rst.level ≠ none) : s.run f = .next s := by
  cases s with
  | mk p d => cases hl : d.rst.level <;> simp_all [State.run, Dev.apply]

/-- No lifted effect touches the queue of commands. -/
theorem State.run_next (s : State) (f : Dev → Dev) : ∃ e, s.run f = .next { s with dev := e } := ⟨_, rfl⟩

theorem State.runAny_next (s : State) (f : Dev → Dev) : ∃ e, s.runAny f = .next { s with dev := e } := ⟨_, rfl⟩

end Sys2Proof.Machine
end

