-- ==== Sys2Proof/Laws/Frames.lean ====
section
/-!
SUPPORT. What the shared operations on counters, completions, events and faults leave alone: the committed registers, the time,
and every block but the host interface, telemetry, Spall and the tables.
-/

namespace Sys2Proof.Machine

/-- The parts of the device that reporting (counts, completions, events, faults) never touches. -/
def Dev.kept (d : Dev) : (Sparse Word × Sparse Word × Nat × Nat) × (Otp × RstSt × Svc × Bmc) × (Phy × Dp × Sump × Gth × Anl) :=
  ((d.comm, d.snap, d.ns, d.frac), (d.otp, d.rst, d.svc, d.bmc), (d.phy, d.dp, d.sump, d.gth, d.anl))

/-- A projection that one step of a fold keeps is kept by the fold. -/
theorem foldl_proj {α β γ : Type} (π : β → γ) (f : β → α → β) (h : ∀ b a, π (f b a) = π b) (l : List α) (b : β) :
    π (l.foldl f b) = π b := by
  induction l generalizing b with
  | nil => rfl
  | cons a t ih => rw [List.foldl_cons, ih, h]

@[simp] theorem Dev.kept_setRaw (d : Dev) (r : Reg) (ix : List Nat) (v : Nat) : (d.setRaw r ix v).kept = d.kept := by unfold Dev.kept; rfl
@[simp] theorem Dev.kept_wr (d : Dev) (f : Fld) (ix : List Nat) (v : Nat) : (d.wr f ix v).kept = d.kept := by unfold Dev.kept; rfl
@[simp] theorem Dev.kept_emit (d : Dev) (o : Output) : (d.emit o).kept = d.kept := by unfold Dev.kept; rfl
@[simp] theorem Dev.kept_setRing (d : Dev) (n : Nat) (r : Ring) : (d.setRing n r).kept = d.kept := by unfold Dev.kept; rfl
theorem Dev.kept_act (d : Dev) (l : Sparse Nat) : ({ d with act := l } : Dev).kept = d.kept := by unfold Dev.kept; rfl
theorem Dev.kept_spl (d : Dev) (l : Spl) : ({ d with spl := l } : Dev).kept = d.kept := by unfold Dev.kept; rfl
theorem Dev.kept_pmcWraps (d : Dev) (l : List (Nat × Nat)) : ({ d with pmcWraps := l } : Dev).kept = d.kept := by unfold Dev.kept; rfl
@[simp] theorem Dev.kept_hif (d : Dev) (h : Hif) : ({ d with hif := h } : Dev).kept = d.kept := by unfold Dev.kept; rfl

@[simp] theorem Dev.kept_addTo (d : Dev) (f : Fld) (ix : List Nat) (n : Nat) : (d.addTo f ix n).kept = d.kept := by
  obtain ⟨v, h⟩ := Dev.addTo_eq d f ix n
  rw [h, Dev.kept_wr]

@[simp] theorem Dev.kept_inc (d : Dev) (f : Fld) (ix : List Nat) : (d.inc f ix).kept = d.kept := by unfold Dev.inc; exact Dev.kept_addTo d f ix 1

@[simp] theorem Dev.kept_pmcAdd (d : Dev) (u c n fuel : Nat) : (d.pmcAdd u c n fuel).kept = d.kept := by
  induction fuel generalizing d c n with
  | zero => rfl
  | succ k ih =>
    simp only [Dev.pmcAdd]
    split
    · simp
    · split <;> split <;> simp only [ih, Dev.kept_pmcWraps, Dev.kept_wr]

@[simp] theorem Dev.kept_pmc (d : Dev) (u code n : Nat) : (d.pmc u code n).kept = d.kept := by
  unfold Dev.pmc
  split
  · refine foldl_proj Dev.kept _ (fun b a => ?_) _ _
    dsimp only
    split
    · exact Dev.kept_pmcAdd _ _ _ _ _
    · rfl
  · rfl

@[simp] theorem Dev.kept_charge (d : Dev) (j : Option Nat) (i n : Nat) : (d.charge j i n).kept = d.kept := by
  cases j <;> (unfold Dev.kept; rfl)

@[simp] theorem Dev.kept_msix (d : Dev) (v : Nat) : (d.msix v).kept = d.kept := by unfold Dev.msix; split <;> simp

@[simp] theorem Dev.kept_signalRing (d : Dev) (m : Nat) : (d.signalRing m).kept = d.kept := by
  unfold Dev.signalRing
  dsimp only
  split
  · simp
  · split
    · simp
    · split <;> simp

@[simp] theorem Dev.kept_checkIrq (d : Dev) (m : Nat) : (d.checkIrq m).kept = d.kept := by
  unfold Dev.checkIrq; split <;> simp

@[simp] theorem Dev.kept_dmaWrote (d : Dev) (j : Option Nat) (n : Nat) : (d.dmaWrote j n).kept = d.kept := by
  unfold Dev.dmaWrote; simp

@[simp] theorem Dev.kept_writeEntry (d : Dev) (m : Nat) (e : RingEntry) : (d.writeEntry m e).kept = d.kept := by
  unfold Dev.writeEntry
  cases e.sq <;> cases e.vec <;> simp

@[simp] theorem Dev.kept_postEvent (d : Dev) (m : Nat) (e : RingEntry) : (d.postEvent m e).kept = d.kept := by
  unfold Dev.postEvent
  split
  · simp
  · split
    · rfl
    · rw [Dev.kept_hif, Dev.kept_inc]

@[simp] theorem Dev.kept_ringEvent (d : Dev) (k n v m : Nat) : (d.ringEvent k n v m).kept = d.kept := by
  unfold Dev.ringEvent; split <;> simp

@[simp] theorem Dev.kept_finishJob (d : Dev) (id st r0 r1 r2 : Nat) : (d.finishJob id st r0 r1 r2).kept = d.kept := by
  unfold Dev.finishJob
  split
  · rfl
  · rw [Dev.kept_hif, Dev.kept_addTo]

@[simp] theorem Dev.kept_abortJob (d : Dev) (id : Nat) : (d.abortJob id).kept = d.kept := Dev.kept_finishJob _ _ _ _ _ _

@[simp] theorem Dev.kept_enterSafe (d : Dev) (k : Nat) : (d.enterSafe k).kept = d.kept := by
  unfold Dev.enterSafe
  split
  · rfl
  · dsimp only
    rw [foldl_proj Dev.kept (fun d c => d.emit (.coreIrq c)) (fun b a => Dev.kept_emit b _)]
    exact foldl_proj Dev.kept (fun d id => d.abortJob id) (fun b a => Dev.kept_abortJob b a) _ _

@[simp] theorem Dev.kept_fatal (d : Dev) (k : Nat) (f : FaultIn) : (d.fatal k f).kept = d.kept := by
  simp only [Dev.fatal, Dev.kept_enterSafe, apply_ite Dev.kept, Dev.kept_wr, ite_self]

@[simp] theorem Dev.kept_storeRecord (d : Dev) (r : FaultRec) : (d.storeRecord r).kept = d.kept := by
  unfold Dev.storeRecord; simp [Dev.kept_spl]

theorem Dev.kept_recordOrLose (e : Dev × Nat) (r : FaultRec) (b c : Bool) : (Dev.recordOrLose e r b c).1.kept = e.1.kept := by
  unfold Dev.recordOrLose; split
  · simp
  · split <;> simp

@[simp] theorem Dev.kept_faultEvent (d : Dev) (k : Nat) (f : FaultIn) : (d.faultEvent k f).kept = d.kept := by
  unfold Dev.faultEvent; split <;> simp

@[simp] theorem Dev.kept_countFault (d : Dev) (k : Nat) (f : FaultIn) : (d.countFault k f).kept = d.kept := by
  unfold Dev.countFault; dsimp only; split <;> split <;> simp

@[simp] theorem Dev.kept_fillLatch (d : Dev) (k : Nat) (f : FaultIn) : (d.fillLatch k f).kept = d.kept := by
  simp only [Dev.fillLatch, Dev.kept_wr, Dev.kept_setRaw]

theorem Dev.kept_clockFaults (d : Dev) (k : Nat) (fs : List FaultIn) (c : Bool) : (d.clockFaults k fs c).1.kept = d.kept := by
  have count : ∀ (l : List FaultIn) (e : Dev), (l.foldl (fun e f => e.countFault k f) e).kept = e.kept := fun l e =>
    foldl_proj Dev.kept _ (fun b f => Dev.kept_countFault b k f) _ _
  have fatals : ∀ (l : List FaultIn) (first : Option FaultIn) (e : Dev × Nat),
      (l.foldl (fun e f =>
        let e := if first = some f || e.1.faultMasked k f.src then e
          else Dev.recordOrLose e (e.1.faultRecord k f true (e.1.on F.SPL_LATCH_INJ_SEEN [k])) true c
        (e.1.fatal k f, e.2)) e).1.kept = e.1.kept :=
    fun l first e => foldl_proj (fun e : Dev × Nat => e.1.kept) _ (fun b f => by
      dsimp only
      rw [Dev.kept_fatal]
      split
      · rfl
      · rw [Dev.kept_recordOrLose]) _ _
  unfold Dev.clockFaults
  dsimp only
  split
  · rw [Dev.kept_faultEvent, fatals, Dev.kept_recordOrLose]
    simp only [apply_ite Dev.kept, Dev.kept_wr, Dev.kept_fillLatch, ite_self, count]
  · rw [fatals]
    simp only [apply_ite Dev.kept, Dev.kept_wr, ite_self, count]

theorem Dev.kept_lossFaults (d : Dev) (n : Nat) : (d.lossFaults n).kept = d.kept := by
  induction n generalizing d with
  | zero => rfl
  | succ n ih => rw [Dev.lossFaults, ih, Dev.kept_clockFaults]

@[simp] theorem Dev.kept_raise (d : Dev) (k src syn : Nat) : (d.raise k src syn).kept = d.kept := by
  unfold Dev.raise Dev.raiseAll
  rw [Dev.kept_lossFaults, Dev.kept_clockFaults]

end Sys2Proof.Machine
end

