-- ==== Sys2Proof/Laws/Keyed.lean ====
section
/-!
SUPPORT. The records that the device keeps by number (ports, lanes, lanes and receivers of the side port, rings): what each reads
as after one is written, and what the write leaves alone.
-/

namespace Sys2Proof.Machine

/-! ### setPort -/

@[simp] theorem Dev.port_setPort_self (d : Dev) (n : Nat) (x : PortSt) : (d.setPort n x).port n = x := Sparse.get_set_self _ _ _ _
theorem Dev.port_setPort_other (d : Dev) (n k : Nat) (x : PortSt) (h : k ≠ n) : (d.setPort n x).port k = d.port k :=
  Sparse.get_set_other _ _ _ _ _ _ h
@[simp] theorem Dev.setPort_regs (d : Dev) (n : Nat) (x : PortSt) : (d.setPort n x).regs = d.regs := rfl
@[simp] theorem Dev.setPort_comm (d : Dev) (n : Nat) (x : PortSt) : (d.setPort n x).comm = d.comm := rfl
@[simp] theorem Dev.setPort_ns (d : Dev) (n : Nat) (x : PortSt) : (d.setPort n x).ns = d.ns := rfl
@[simp] theorem Dev.setPort_frac (d : Dev) (n : Nat) (x : PortSt) : (d.setPort n x).frac = d.frac := rfl
@[simp] theorem Dev.setPort_safe (d : Dev) (n : Nat) (x : PortSt) : (d.setPort n x).safe = d.safe := rfl
@[simp] theorem Dev.setPort_resets (d : Dev) (n : Nat) (x : PortSt) : (d.setPort n x).resets = d.resets := rfl
@[simp] theorem Dev.setPort_freeIdx (d : Dev) (n : Nat) (x : PortSt) : (d.setPort n x).freeIdx = d.freeIdx := rfl
@[simp] theorem Dev.setPort_out (d : Dev) (n : Nat) (x : PortSt) : (d.setPort n x).out = d.out := rfl
@[simp] theorem Dev.setPort_otp (d : Dev) (n : Nat) (x : PortSt) : (d.setPort n x).otp = d.otp := rfl
@[simp] theorem Dev.setPort_rst (d : Dev) (n : Nat) (x : PortSt) : (d.setPort n x).rst = d.rst := rfl
@[simp] theorem Dev.setPort_hif (d : Dev) (n : Nat) (x : PortSt) : (d.setPort n x).hif = d.hif := rfl
@[simp] theorem Dev.setPort_svc (d : Dev) (n : Nat) (x : PortSt) : (d.setPort n x).svc = d.svc := rfl
@[simp] theorem Dev.setPort_spl (d : Dev) (n : Nat) (x : PortSt) : (d.setPort n x).spl = d.spl := rfl
@[simp] theorem Dev.setPort_tlm (d : Dev) (n : Nat) (x : PortSt) : (d.setPort n x).tlm = d.tlm := rfl
@[simp] theorem Dev.setPort_dp (d : Dev) (n : Nat) (x : PortSt) : (d.setPort n x).dp = d.dp := rfl
@[simp] theorem Dev.setPort_tbl (d : Dev) (n : Nat) (x : PortSt) : (d.setPort n x).tbl = d.tbl := rfl
@[simp] theorem Dev.setPort_sump (d : Dev) (n : Nat) (x : PortSt) : (d.setPort n x).sump = d.sump := rfl
@[simp] theorem Dev.setPort_gth (d : Dev) (n : Nat) (x : PortSt) : (d.setPort n x).gth = d.gth := rfl
@[simp] theorem Dev.setPort_anl (d : Dev) (n : Nat) (x : PortSt) : (d.setPort n x).anl = d.anl := rfl
@[simp] theorem Dev.setPort_lane (d : Dev) (n : Nat) (x : PortSt) : (d.setPort n x).lane = d.lane := rfl
@[simp] theorem Dev.setPort_auxLane (d : Dev) (n : Nat) (x : PortSt) : (d.setPort n x).auxLane = d.auxLane := rfl
@[simp] theorem Dev.setPort_auxRx (d : Dev) (n : Nat) (x : PortSt) : (d.setPort n x).auxRx = d.auxRx := rfl
@[simp] theorem Dev.setPort_raw (d : Dev) (n : Nat) (x : PortSt) (r : Reg) (ix : List Nat) : (d.setPort n x).raw r ix = d.raw r ix := rfl

/-! ### setLane -/

@[simp] theorem Dev.lane_setLane_self (d : Dev) (n : Nat) (x : LaneSt) : (d.setLane n x).lane n = x := Sparse.get_set_self _ _ _ _
theorem Dev.lane_setLane_other (d : Dev) (n k : Nat) (x : LaneSt) (h : k ≠ n) : (d.setLane n x).lane k = d.lane k :=
  Sparse.get_set_other _ _ _ _ _ _ h
@[simp] theorem Dev.setLane_regs (d : Dev) (n : Nat) (x : LaneSt) : (d.setLane n x).regs = d.regs := rfl
@[simp] theorem Dev.setLane_comm (d : Dev) (n : Nat) (x : LaneSt) : (d.setLane n x).comm = d.comm := rfl
@[simp] theorem Dev.setLane_ns (d : Dev) (n : Nat) (x : LaneSt) : (d.setLane n x).ns = d.ns := rfl
@[simp] theorem Dev.setLane_frac (d : Dev) (n : Nat) (x : LaneSt) : (d.setLane n x).frac = d.frac := rfl
@[simp] theorem Dev.setLane_safe (d : Dev) (n : Nat) (x : LaneSt) : (d.setLane n x).safe = d.safe := rfl
@[simp] theorem Dev.setLane_resets (d : Dev) (n : Nat) (x : LaneSt) : (d.setLane n x).resets = d.resets := rfl
@[simp] theorem Dev.setLane_freeIdx (d : Dev) (n : Nat) (x : LaneSt) : (d.setLane n x).freeIdx = d.freeIdx := rfl
@[simp] theorem Dev.setLane_out (d : Dev) (n : Nat) (x : LaneSt) : (d.setLane n x).out = d.out := rfl
@[simp] theorem Dev.setLane_otp (d : Dev) (n : Nat) (x : LaneSt) : (d.setLane n x).otp = d.otp := rfl
@[simp] theorem Dev.setLane_rst (d : Dev) (n : Nat) (x : LaneSt) : (d.setLane n x).rst = d.rst := rfl
@[simp] theorem Dev.setLane_hif (d : Dev) (n : Nat) (x : LaneSt) : (d.setLane n x).hif = d.hif := rfl
@[simp] theorem Dev.setLane_svc (d : Dev) (n : Nat) (x : LaneSt) : (d.setLane n x).svc = d.svc := rfl
@[simp] theorem Dev.setLane_spl (d : Dev) (n : Nat) (x : LaneSt) : (d.setLane n x).spl = d.spl := rfl
@[simp] theorem Dev.setLane_tlm (d : Dev) (n : Nat) (x : LaneSt) : (d.setLane n x).tlm = d.tlm := rfl
@[simp] theorem Dev.setLane_dp (d : Dev) (n : Nat) (x : LaneSt) : (d.setLane n x).dp = d.dp := rfl
@[simp] theorem Dev.setLane_tbl (d : Dev) (n : Nat) (x : LaneSt) : (d.setLane n x).tbl = d.tbl := rfl
@[simp] theorem Dev.setLane_sump (d : Dev) (n : Nat) (x : LaneSt) : (d.setLane n x).sump = d.sump := rfl
@[simp] theorem Dev.setLane_gth (d : Dev) (n : Nat) (x : LaneSt) : (d.setLane n x).gth = d.gth := rfl
@[simp] theorem Dev.setLane_anl (d : Dev) (n : Nat) (x : LaneSt) : (d.setLane n x).anl = d.anl := rfl
@[simp] theorem Dev.setLane_port (d : Dev) (n : Nat) (x : LaneSt) : (d.setLane n x).port = d.port := rfl
@[simp] theorem Dev.setLane_auxLane (d : Dev) (n : Nat) (x : LaneSt) : (d.setLane n x).auxLane = d.auxLane := rfl
@[simp] theorem Dev.setLane_auxRx (d : Dev) (n : Nat) (x : LaneSt) : (d.setLane n x).auxRx = d.auxRx := rfl
@[simp] theorem Dev.setLane_raw (d : Dev) (n : Nat) (x : LaneSt) (r : Reg) (ix : List Nat) : (d.setLane n x).raw r ix = d.raw r ix := rfl

/-! ### setAuxLane -/

@[simp] theorem Dev.auxLane_setAuxLane_self (d : Dev) (n : Nat) (x : AuxLane) : (d.setAuxLane n x).auxLane n = x := Sparse.get_set_self _ _ _ _
theorem Dev.auxLane_setAuxLane_other (d : Dev) (n k : Nat) (x : AuxLane) (h : k ≠ n) : (d.setAuxLane n x).auxLane k = d.auxLane k :=
  Sparse.get_set_other _ _ _ _ _ _ h
@[simp] theorem Dev.setAuxLane_regs (d : Dev) (n : Nat) (x : AuxLane) : (d.setAuxLane n x).regs = d.regs := rfl
@[simp] theorem Dev.setAuxLane_comm (d : Dev) (n : Nat) (x : AuxLane) : (d.setAuxLane n x).comm = d.comm := rfl
@[simp] theorem Dev.setAuxLane_ns (d : Dev) (n : Nat) (x : AuxLane) : (d.setAuxLane n x).ns = d.ns := rfl
@[simp] theorem Dev.setAuxLane_frac (d : Dev) (n : Nat) (x : AuxLane) : (d.setAuxLane n x).frac = d.frac := rfl
@[simp] theorem Dev.setAuxLane_safe (d : Dev) (n : Nat) (x : AuxLane) : (d.setAuxLane n x).safe = d.safe := rfl
@[simp] theorem Dev.setAuxLane_resets (d : Dev) (n : Nat) (x : AuxLane) : (d.setAuxLane n x).resets = d.resets := rfl
@[simp] theorem Dev.setAuxLane_freeIdx (d : Dev) (n : Nat) (x : AuxLane) : (d.setAuxLane n x).freeIdx = d.freeIdx := rfl
@[simp] theorem Dev.setAuxLane_out (d : Dev) (n : Nat) (x : AuxLane) : (d.setAuxLane n x).out = d.out := rfl
@[simp] theorem Dev.setAuxLane_otp (d : Dev) (n : Nat) (x : AuxLane) : (d.setAuxLane n x).otp = d.otp := rfl
@[simp] theorem Dev.setAuxLane_rst (d : Dev) (n : Nat) (x : AuxLane) : (d.setAuxLane n x).rst = d.rst := rfl
@[simp] theorem Dev.setAuxLane_hif (d : Dev) (n : Nat) (x : AuxLane) : (d.setAuxLane n x).hif = d.hif := rfl
@[simp] theorem Dev.setAuxLane_svc (d : Dev) (n : Nat) (x : AuxLane) : (d.setAuxLane n x).svc = d.svc := rfl
@[simp] theorem Dev.setAuxLane_spl (d : Dev) (n : Nat) (x : AuxLane) : (d.setAuxLane n x).spl = d.spl := rfl
@[simp] theorem Dev.setAuxLane_tlm (d : Dev) (n : Nat) (x : AuxLane) : (d.setAuxLane n x).tlm = d.tlm := rfl
@[simp] theorem Dev.setAuxLane_dp (d : Dev) (n : Nat) (x : AuxLane) : (d.setAuxLane n x).dp = d.dp := rfl
@[simp] theorem Dev.setAuxLane_tbl (d : Dev) (n : Nat) (x : AuxLane) : (d.setAuxLane n x).tbl = d.tbl := rfl
@[simp] theorem Dev.setAuxLane_sump (d : Dev) (n : Nat) (x : AuxLane) : (d.setAuxLane n x).sump = d.sump := rfl
@[simp] theorem Dev.setAuxLane_gth (d : Dev) (n : Nat) (x : AuxLane) : (d.setAuxLane n x).gth = d.gth := rfl
@[simp] theorem Dev.setAuxLane_anl (d : Dev) (n : Nat) (x : AuxLane) : (d.setAuxLane n x).anl = d.anl := rfl
@[simp] theorem Dev.setAuxLane_port (d : Dev) (n : Nat) (x : AuxLane) : (d.setAuxLane n x).port = d.port := rfl
@[simp] theorem Dev.setAuxLane_lane (d : Dev) (n : Nat) (x : AuxLane) : (d.setAuxLane n x).lane = d.lane := rfl
@[simp] theorem Dev.setAuxLane_auxRx (d : Dev) (n : Nat) (x : AuxLane) : (d.setAuxLane n x).auxRx = d.auxRx := rfl
@[simp] theorem Dev.setAuxLane_raw (d : Dev) (n : Nat) (x : AuxLane) (r : Reg) (ix : List Nat) : (d.setAuxLane n x).raw r ix = d.raw r ix := rfl

/-! ### setAuxRx -/

@[simp] theorem Dev.auxRx_setAuxRx_self (d : Dev) (n : Nat) (x : AuxRx) : (d.setAuxRx n x).auxRx n = x := Sparse.get_set_self _ _ _ _
theorem Dev.auxRx_setAuxRx_other (d : Dev) (n k : Nat) (x : AuxRx) (h : k ≠ n) : (d.setAuxRx n x).auxRx k = d.auxRx k :=
  Sparse.get_set_other _ _ _ _ _ _ h
@[simp] theorem Dev.setAuxRx_regs (d : Dev) (n : Nat) (x : AuxRx) : (d.setAuxRx n x).regs = d.regs := rfl
@[simp] theorem Dev.setAuxRx_comm (d : Dev) (n : Nat) (x : AuxRx) : (d.setAuxRx n x).comm = d.comm := rfl
@[simp] theorem Dev.setAuxRx_ns (d : Dev) (n : Nat) (x : AuxRx) : (d.setAuxRx n x).ns = d.ns := rfl
@[simp] theorem Dev.setAuxRx_frac (d : Dev) (n : Nat) (x : AuxRx) : (d.setAuxRx n x).frac = d.frac := rfl
@[simp] theorem Dev.setAuxRx_safe (d : Dev) (n : Nat) (x : AuxRx) : (d.setAuxRx n x).safe = d.safe := rfl
@[simp] theorem Dev.setAuxRx_resets (d : Dev) (n : Nat) (x : AuxRx) : (d.setAuxRx n x).resets = d.resets := rfl
@[simp] theorem Dev.setAuxRx_freeIdx (d : Dev) (n : Nat) (x : AuxRx) : (d.setAuxRx n x).freeIdx = d.freeIdx := rfl
@[simp] theorem Dev.setAuxRx_out (d : Dev) (n : Nat) (x : AuxRx) : (d.setAuxRx n x).out = d.out := rfl
@[simp] theorem Dev.setAuxRx_otp (d : Dev) (n : Nat) (x : AuxRx) : (d.setAuxRx n x).otp = d.otp := rfl
@[simp] theorem Dev.setAuxRx_rst (d : Dev) (n : Nat) (x : AuxRx) : (d.setAuxRx n x).rst = d.rst := rfl
@[simp] theorem Dev.setAuxRx_hif (d : Dev) (n : Nat) (x : AuxRx) : (d.setAuxRx n x).hif = d.hif := rfl
@[simp] theorem Dev.setAuxRx_svc (d : Dev) (n : Nat) (x : AuxRx) : (d.setAuxRx n x).svc = d.svc := rfl
@[simp] theorem Dev.setAuxRx_spl (d : Dev) (n : Nat) (x : AuxRx) : (d.setAuxRx n x).spl = d.spl := rfl
@[simp] theorem Dev.setAuxRx_tlm (d : Dev) (n : Nat) (x : AuxRx) : (d.setAuxRx n x).tlm = d.tlm := rfl
@[simp] theorem Dev.setAuxRx_dp (d : Dev) (n : Nat) (x : AuxRx) : (d.setAuxRx n x).dp = d.dp := rfl
@[simp] theorem Dev.setAuxRx_tbl (d : Dev) (n : Nat) (x : AuxRx) : (d.setAuxRx n x).tbl = d.tbl := rfl
@[simp] theorem Dev.setAuxRx_sump (d : Dev) (n : Nat) (x : AuxRx) : (d.setAuxRx n x).sump = d.sump := rfl
@[simp] theorem Dev.setAuxRx_gth (d : Dev) (n : Nat) (x : AuxRx) : (d.setAuxRx n x).gth = d.gth := rfl
@[simp] theorem Dev.setAuxRx_anl (d : Dev) (n : Nat) (x : AuxRx) : (d.setAuxRx n x).anl = d.anl := rfl
@[simp] theorem Dev.setAuxRx_port (d : Dev) (n : Nat) (x : AuxRx) : (d.setAuxRx n x).port = d.port := rfl
@[simp] theorem Dev.setAuxRx_lane (d : Dev) (n : Nat) (x : AuxRx) : (d.setAuxRx n x).lane = d.lane := rfl
@[simp] theorem Dev.setAuxRx_auxLane (d : Dev) (n : Nat) (x : AuxRx) : (d.setAuxRx n x).auxLane = d.auxLane := rfl
@[simp] theorem Dev.setAuxRx_raw (d : Dev) (n : Nat) (x : AuxRx) (r : Reg) (ix : List Nat) : (d.setAuxRx n x).raw r ix = d.raw r ix := rfl

/-! ### setRing -/

@[simp] theorem Dev.ring_setRing_self (d : Dev) (n : Nat) (x : Ring) : (d.setRing n x).ring n = x := Sparse.get_set_self _ _ _ _
theorem Dev.ring_setRing_other (d : Dev) (n k : Nat) (x : Ring) (h : k ≠ n) : (d.setRing n x).ring k = d.ring k :=
  Sparse.get_set_other _ _ _ _ _ _ h
@[simp] theorem Dev.setRing_regs (d : Dev) (n : Nat) (x : Ring) : (d.setRing n x).regs = d.regs := rfl
@[simp] theorem Dev.setRing_comm (d : Dev) (n : Nat) (x : Ring) : (d.setRing n x).comm = d.comm := rfl
@[simp] theorem Dev.setRing_ns (d : Dev) (n : Nat) (x : Ring) : (d.setRing n x).ns = d.ns := rfl
@[simp] theorem Dev.setRing_frac (d : Dev) (n : Nat) (x : Ring) : (d.setRing n x).frac = d.frac := rfl
@[simp] theorem Dev.setRing_safe (d : Dev) (n : Nat) (x : Ring) : (d.setRing n x).safe = d.safe := rfl
@[simp] theorem Dev.setRing_resets (d : Dev) (n : Nat) (x : Ring) : (d.setRing n x).resets = d.resets := rfl
@[simp] theorem Dev.setRing_freeIdx (d : Dev) (n : Nat) (x : Ring) : (d.setRing n x).freeIdx = d.freeIdx := rfl
@[simp] theorem Dev.setRing_out (d : Dev) (n : Nat) (x : Ring) : (d.setRing n x).out = d.out := rfl
@[simp] theorem Dev.setRing_otp (d : Dev) (n : Nat) (x : Ring) : (d.setRing n x).otp = d.otp := rfl
@[simp] theorem Dev.setRing_rst (d : Dev) (n : Nat) (x : Ring) : (d.setRing n x).rst = d.rst := rfl
@[simp] theorem Dev.setRing_svc (d : Dev) (n : Nat) (x : Ring) : (d.setRing n x).svc = d.svc := rfl
@[simp] theorem Dev.setRing_spl (d : Dev) (n : Nat) (x : Ring) : (d.setRing n x).spl = d.spl := rfl
@[simp] theorem Dev.setRing_phy (d : Dev) (n : Nat) (x : Ring) : (d.setRing n x).phy = d.phy := rfl
@[simp] theorem Dev.setRing_tlm (d : Dev) (n : Nat) (x : Ring) : (d.setRing n x).tlm = d.tlm := rfl
@[simp] theorem Dev.setRing_dp (d : Dev) (n : Nat) (x : Ring) : (d.setRing n x).dp = d.dp := rfl
@[simp] theorem Dev.setRing_tbl (d : Dev) (n : Nat) (x : Ring) : (d.setRing n x).tbl = d.tbl := rfl
@[simp] theorem Dev.setRing_sump (d : Dev) (n : Nat) (x : Ring) : (d.setRing n x).sump = d.sump := rfl
@[simp] theorem Dev.setRing_gth (d : Dev) (n : Nat) (x : Ring) : (d.setRing n x).gth = d.gth := rfl
@[simp] theorem Dev.setRing_anl (d : Dev) (n : Nat) (x : Ring) : (d.setRing n x).anl = d.anl := rfl
@[simp] theorem Dev.setRing_raw (d : Dev) (n : Nat) (x : Ring) (r : Reg) (ix : List Nat) : (d.setRing n x).raw r ix = d.raw r ix := rfl

end Sys2Proof.Machine
end

