-- ==== Sys2Proof/Tests/Slice0.lean ====
section
/-!
SUPPORT. Tests of the model: terms that WellFormed refuses, small steps with results taken from the spec, and for every
obligation with hypotheses a concrete state that meets them.
-/

namespace Sys2Proof.Machine

-- each `decide +kernel` waits for the kernel; one at a time keeps the number of waiting threads small
set_option Elab.async false

/-! ## Small states -/

/-- After reset, with the core region initialised. -/
def reset1 : Dev := Dev.wr {} F.RST_STAT_INIT_DONE [] 1

/-- Port 0 with one lane in bring-up phase `k`, its macro in the shape of eight single-lane ports. -/
def portAt (k : Nat) : Dev :=
  let d := (reset1.wrC F.PCS_SHAPE_M0 [0] 1).wrC F.PCS_PORT_CTL_EN (pix 0) 1
  let d := (d.wr F.LANE_CTL_EN [0] 1).wrC F.PCS_PORT_CTL_LPI_EN (pix 0) 1
  let d := ((d.wr F.LANE_MACRO_STAT_PLL_LOCK [0] 1).wr F.PCS_CL_STAT_REF_OK [0] 1).wr F.SVC_BOOT_STATE [] 3
  let d := d.setPort 0 { phase := k }
  if k = 6 then (d.wr F.PCS_PORT_STAT_ALIGN_LOCK (pix 0) 1).wr F.PCS_PORT_STAT_LINK_UP (pix 0) 1 else d

/-- SR-IOV enables all 31 VFs. -/
def withVfs (d : Dev) : Dev := { d with hif := { d.hif with pcie := [(0, { vfEnable := true, numVfs := 31 })] } }

/-- A packet of pipeline IP0 whose next instruction is `w`. -/
def passWith (w : Nat) : Pass := { uid := 1, pkt := 2, todo := [w] }

/-- It is in the pipeline, and its frame in the Quarry. -/
def devWith (w : Nat) : Dev :=
  { reset1 with dp := { reset1.dp with passes := [passWith w], pkts := [{ uid := 2 }] } }

/-! ## Terms that WellFormed refuses, one per check, beside the nearest term that it lets pass -/

theorem test_wf_regWrite : Instr.wf (.regWrite .pf0 0 false 0x100000000 []) = false ∧
    Instr.wf (.regWrite .pf0 0 false 0xFFFFFFFF []) = true ∧ Instr.wf (.regWrite .pf0 0 true 0x100000000 []) = true := by decide +kernel
theorem test_wf_others :
    let a := fun (m : Master) (v : Word) => ({ m := m, off := 0, wide := false, write := true, val := v } : BusAccess)
    Instr.wf (.rcRead .pf0 .bar0 0 false [a .pf0 0]) = false ∧ Instr.wf (.rcRead .pf0 .bar0 0 false [a .bmc 0x100000000]) = false ∧
      Instr.wf (.rcRead .pf0 .bar0 0 false [a .bmc 0, a .bmc 1]) = false ∧
      Instr.wf (.rcRead .pf0 .bar0 0 false [a .bmc 0, a .jtag 1]) = true := by decide +kernel
theorem test_wf_anlPeriod : Instr.wf (.anlPeriod (List.replicate 9 ⟨0, 0, 0, 0⟩) true) = false ∧
    Instr.wf (.anlPeriod (List.replicate 8 ⟨0, 0, 0, 0⟩) true) = true := by decide +kernel
theorem test_wf_headerSlot : Instr.wf (.headerSlot 0 (.wire (List.replicate 257 0) true 0) false) = false ∧
    Instr.wf (.headerSlot 0 (.wire (List.replicate 256 0) true 0) false) = true := by decide +kernel
theorem test_wf_ltComplete : Instr.wf (.ltComplete 0 (List.replicate 9 0)) = false ∧
    Instr.wf (.ltComplete 0 (List.replicate 8 0)) = true := by decide +kernel
theorem test_wf_adaptTracking : Instr.wf (.adaptTracking 0 (List.replicate 9 ⟨0, 0, 0, 0, 0⟩)) = false ∧
    Instr.wf (.adaptTracking 0 (List.replicate 8 ⟨0, 0, 0, 0, 0⟩)) = true := by decide +kernel
theorem test_wf_pmbWindow : Instr.wf (.pmbWindow [] (List.replicate 9 (.word 0))) = false ∧
    Instr.wf (.pmbWindow (List.replicate 9 .failed) []) = false ∧
    Instr.wf (.pmbWindow (List.replicate 8 .failed) (List.replicate 8 (.word 0))) = true := by decide +kernel
theorem test_wf_sensorConvert : Instr.wf (.sensorConvert (List.replicate 63 0)) = false ∧
    Instr.wf (.sensorConvert (List.replicate 64 0)) = true := by decide +kernel
theorem test_wf_health : Instr.wf (.health 0 (some (List.replicate 64 0))) = false ∧
    Instr.wf (.health 0 (some (List.replicate 63 0))) = true := by decide +kernel
theorem test_wf_eventLog : Instr.wf (.eventLog 0 (some (List.replicate 61 0))) = false ∧
    Instr.wf (.eventLog 0 (some (List.replicate 60 0))) = true := by decide +kernel
theorem test_wf_bootRom :
    let slot := fun (n : Nat) => ({ header := List.replicate n 0, image := .readError } : BootSlot)
    Instr.wf (.bootRom (slot 511) (slot 512)) = false ∧ Instr.wf (.bootRom (slot 512) (slot 511)) = false ∧
      Instr.wf (.bootRom (slot 512) (slot 512)) = true := by decide +kernel
theorem test_wf_faultRaise : Instr.wf (.faultRaise 43 { own := [(1, 0)], others := [(43, [])] } []) = false ∧
    Instr.wf (.faultRaise 43 { own := [(1, 0)], others := [(45, []), (44, [])] } []) = false ∧
    Instr.wf (.faultRaise 43 { own := [(1, 0)], others := [(44, []), (45, [])] } []) = true := by decide +kernel

/-- No row of the opcode table has bits, so no word spells a command. -/
theorem test_no_word_spells_a_command : decodeTableWord 32 0 = none ∧ (State.reset.withFetchWord 32 0 = State.reset) := by decide +kernel

/-! ## The spec's worked examples -/

/-- The device of a state that a command answers. -/
def after (c : Instr) (d : Dev) : Dev :=
  match exec c { pending := [], dev := d } with
  | .next t => t.dev
  | _ => d

/-- R17's example: PF0 reads BAR0 offset 0x1A00040, then VF3 writes to BAR4. -/
theorem test_bad_access_example :
    let d := after (.reservedOffsetAccess .pf0 0x1A00040 false false) reset1
    let e := after (.bar4Write (.vf 3) 0) (withVfs d)
    d.raw R.GLB_BAD_ACCESS [] = 0x81000001 * 2 ^ 32 + 0x1A00040 ∧ d.out = [.readData 0 0x1A00040 0] ∧
      e.raw R.GLB_BAD_ACCESS [] = 0xC1000002 * 2 ^ 32 + 0x1A00040 := by decide +kernel
/-- R51's example: PCS_SHAPE[5] = 0x8234, and P178's PCS_PORT_CTL at 0x415900. -/
theorem test_shape_example :
    let d := (((reset1.wrC F.PCS_SHAPE_M0 [5] 4).wrC F.PCS_SHAPE_M1 [5] 3).wrC F.PCS_SHAPE_M2 [5] 2).wrC F.PCS_SHAPE_M3 [5] 8
    ((List.range 32).map (160 + ·)).filter (fun p => !d.absent p) = [160, 168, 172, 176, 178, 180, 182, 184] ∧
      (locate 0x415900).map (fun p => (p.reg == R.PCS_PORT_CTL, p.ix)) = some (true, [5, 18]) := by decide +kernel
/-- The first two instructions of the pipeline example (R81 to R95), with action data 0x3_00B8. -/
theorem test_pipeline_example :
    let pass := { passWith 0x1D00000000000900 with todo := [0x1D00000000000900, 0x0500000E00000310], adata := 0x300B8 }
    let d := ({ reset1 with dp := { reset1.dp with passes := [pass], pkts := [{ uid := 2 }] } } : Dev)
    let e := after (.set 1) (after (.fwdPort 1) d)
    (e.pass 1).map (fun x => (x.md' mdDestType, x.md' mdEgrPort, x.md' mdQueue)) = some (1, 184, 3) := by decide +kernel
/-- R163's example. -/
theorem test_wred_example :
    let d := ((reset1.wrC F.QRY_WRED_MIN_MIN [0, 0] 1000).wrC F.QRY_WRED_MAX_MAX [0, 0] 5000).wrC F.QRY_WRED_CTL_MAXP [0, 0] 64
    d.q16 0 0 3000 = 8192 := by decide +kernel
/-- R158's example: T for ALPHA 6, before and after the first frame. -/
theorem test_threshold_example : scaled 1003520 650000 6 = 176760 ∧ scaled 1003520 650006 6 = 176757 := by decide +kernel
/-- R216's example: three frames of 1,500 bytes at 100 Gbit/s with a burst of 3,040 bytes, then main slot 16. -/
theorem test_lehr_example :
    let d := (reset1.wr F.LEHR_Q_RATE_RATE [8, 5] 100000).wr F.LEHR_Q_BURST_BYTES [8, 5] 3040
    let d := d.lehrUpdate 8 5 1520
    let e := d.lehrUpdate 8 5 1520
    let f := e.lehrUpdate 8 5 1520
    (d.lehrEligible 8 5, e.lehrEligible 8 5, (f.lehrQ 8 5).e, (f.lehrQ 8 5).wheel) =
      (true, true, 3 * 1216 * 256 / 10 - 1, some (false, 16)) := by decide +kernel
/-- R257's example: 512 members send 448. -/
theorem test_sum_example :
    (((List.replicate 512 0x7E).foldl (fun (a : Accum) b => a.add 0 3 b) {}).result 0 3,
     ((List.replicate 512 0x5F).foldl (fun (a : Accum) b => a.add 0 4 b) {}).result 0 4,
     ((List.replicate 512 0x5F00).foldl (fun (a : Accum) b => a.add 0 2 b) {}).result 0 2) =
      ((0x7E, true), (0x7C, true), (0x7C00, true)) := by decide +kernel
/-- R280's example: OPP12 at 785 mV with a boost of 20 mV. -/
theorem test_voltage_example :
    let d := reset1.wr F.ANL_STAT_OPP_CUR [] 12
    let d := { d with otp := { d.otp with vmin := 742 } }
    let h := { d with hif := { d.hif with hints := [{}] } }
    (d.vTarget, h.vTarget) = (785, 800) := by decide +kernel
/-- R305's example: bins of BASE_NS = 256. -/
theorem test_histogram_example : histBin 256 595 = 2 ∧ histBin 256 420 = 1 ∧ histBin 256 1800000000 = 15 := by decide +kernel
/-- R334's example, steps 2 to 6: doorbells of a ring of 16. -/
theorem test_doorbell_example :
    let d := (reset1.wr F.RING_CTL_SQ_EN [3] 1).wr F.RING_SIZE_SQ_LOG2 [3] 4
    let p := fun (d : Dev) => d.rd F.RING_SQ_PROD_INDEX [3]
    let d2 := (d.sqDoorbell 3 10 0).wr F.RING_SQ_CONS_INDEX [3] 10
    let d3 := (d2.sqDoorbell 3 24 0).wr F.RING_SQ_CONS_INDEX [3] 12
    let d4 := d3.sqDoorbell 3 28 0
    let d5 := d4.sqDoorbell 3 29 0
    let d6 := d4.sqDoorbell 3 20 0
    (p d2, p d3, p d4, p d5, p d6) = (10, 24, 28, 28, 28) ∧ d5.rd F.RING_ERR_INFO_KIND [3] = 1 ∧
      d5.rd F.RING_ERR_INFO_VALUE [3] = 29 ∧ d6.on F.RING_STAT_RING_ERR [3] = false := by decide +kernel
/-- R375's example: PF0 and S4 read lock 0, PF0 releases it, S4 reads again. -/
theorem test_lock_example :
    let d := after (.mbxLockAcquire (.svc 4) 0) (after (.mbxLockAcquire .pf0 0) reset1)
    let e := after (.mbxLockAcquire (.svc 4) 0) (after (.mbxLockRelease .pf0 0) d)
    e.out = [.readData 0 0x1708000 0xC0000000, .readData 0x44 0x1708000 0x40000000, .readData 0x44 0x1708000 0xC0440000] := by
  decide +kernel
/-- R401's example: an injected MEM_UC in the clock of a real MEM_CE of collector 43. -/
theorem test_injection_example :
    let d := after (.faultInject .pf0 43 0x80000200) reset1
    let e := after (.faultRaise 43 { own := [(1, 0)] } []) d
    (e.on F.SPL_LATCH_VALID [43], e.rd F.SPL_LATCH_SOURCE [43], e.rd F.SPL_LATCH_CLASS [43], e.on F.SPL_LATCH_INJ [43],
      e.on F.SPL_LATCH_OVF [43], e.on F.SPL_LATCH_INJ_SEEN [43]) = (true, 1, 1, false, true, true) ∧
      (e.rd F.SPL_CNT_COUNT [43, 1], e.rd F.SPL_CNT_COUNT [43, 2], e.rd F.SPL_INJ_CNT_COUNT [43]) = (1, 1, 1) := by decide +kernel

/-! ## For every obligation with hypotheses, a state that meets them -/

theorem wit_EveryCommandAnswers_ResetHoldsTheDevice : ({ reset1 with rst := { reset1.rst with level := some .cold } }).rst.level.isSome = true ∧
    actsInReset .wredAvgUpdate = false := by decide +kernel

theorem wit_SafeStateIsOneWay : ({ reset1 with safe := true }).safe = true ∧
    ((Host.Core.run Sys2Proof.core 0 ({ pending := [], dev := { reset1 with safe := true } } : State)) matches .next _) = true ∧
    (({ reset1 with safe := true }).raiseAll 1 [⟨0x40, 0, false⟩]).resets = 0 := by
  decide +kernel

theorem wit_OtpIsKept : ({ reset1 with otp := { locked := true, key := [1], rollback := 3 } }).otp.locked = true ∧
    3 ≤ ({ reset1 with otp := { locked := true, key := [1], rollback := 3 } }).otp.rollback ∧
    (idle { pending := [], dev := { reset1 with otp := { locked := true, key := [1], rollback := 3 } } } matches .next _) = true := by
  decide +kernel

theorem wit_RegistersReadBack : F.GLB_BAD_ACCESS_COUNT.hi < 64 ∧ F.GLB_BAD_ACCESS_COUNT.lo ≤ F.GLB_BAD_ACCESS_COUNT.hi ∧
    F.GLB_BAD_ACCESS_MID.reg = F.GLB_BAD_ACCESS_COUNT.reg ∧ F.GLB_BAD_ACCESS_COUNT.hi - F.GLB_BAD_ACCESS_COUNT.lo < 32 ∧
    F.SMP_WR_BATCH_COUNT.hi - F.SMP_WR_BATCH_COUNT.lo = 63 ∧ F.SMP_WR_BATCH_COUNT.hi < 64 := by decide +kernel

theorem wit_RegisterWrites : hasWindow .pf0 = true ∧ reset1.hostBlocked .pf0 = false ∧ reset1.mustWait 0x100 = false ∧
    reset1.mbxAway 0x100 = false ∧ reset1.mbxAway 0x104 = false ∧
    (locate 0x100).map (fun p => p.reg.wide && !p.high && reset1.reaches .pf0 p.reg p.ix) = some true ∧
    (locate 0x104).map (fun p => p.reg.wide && p.high && reset1.reaches .pf0 p.reg p.ix) = some true ∧
    (locate 0x200).map (fun p => !p.reg.wide) = some true := by
  decide +kernel
theorem wit_RegisterWrites_access : R.QRY_ID.win ≠ R.MBX_STAT.win ∧ reset1.writer (.vf 2) R.QRY_Q_CFG = false ∧
    commitWriter (.vf 2) R.QRY_CFG_COMMIT.win = false ∧ R.QRY_CFG_COMMIT.off = 0xFF004 ∧ (reset1.wr F.GLB_PD_ON_ON [0] 0).regOff R.LANE_CTL [0] = true ∧
    (let d := reset1.wr F.TBL_ACC_LOCK [] 1
     R.TBL_ACC.off ≠ 0xFF004 ∧ d.writer .pf0 R.TBL_ACC = true ∧ d.regLocked R.TBL_ACC = true ∧ d.regOff R.TBL_ACC [] = false ∧
       d.regLocked R.QRY_Q_CFG = false) ∧
    R.QRY_Q_CFG.fields.all (fun f => f.lo ≤ f.hi && f.hi < 64 &&
      R.QRY_Q_CFG.fields.all (fun g => f == g || f.hi < g.lo || g.hi < f.lo)) = true := by decide +kernel
theorem wit_RegisterWrites_hold : (locate 0x104).map (fun p => decide ((Sparse.get (0, 0) ({ reset1 with holds :=
    [(0, (p.reg.at_ p.ix, 7))] }).holds 0) = (p.reg.at_ p.ix, 7))) = some true := by
  decide +kernel

theorem wit_RegisterReads_RegisterReads : (locate 0x104).map (fun p => decide (Sparse.get (0, 0) ({ reset1 with latches :=
    [(0, (p.reg.at_ p.ix, 7))] }).latches 0 = (p.reg.at_ p.ix, 7))) = some true ∧
    (locate 0x104).map (fun p => decide ((Sparse.get (0, 0) reset1.latches 0).1 ≠ p.reg.at_ p.ix)) = some true ∧
    0x84 / 8 < pageSlots (.vf 2) ∧ reset1.hostBlocked (.vf 2) = false ∧ (withVfs reset1).masterOn (.vf 2) = true ∧ reset1.masterOn .pf0 = true ∧
    Sparse.get (0, 0) ({ reset1 with latches := [(3, (2 ^ 64 + 16, 7))] }).latches 3 = (2 ^ 64 + 16, 7) := by
  decide +kernel
theorem wit_RegisterReads_ReadClears : R.LANE_FRZ_CNT.fields.all (fun f => decide (f.hi < 64 ∧ f.lo ≤ f.hi) &&
    R.LANE_FRZ_CNT.fields.all (fun g => decide (f = g ∨ f.hi < g.lo ∨ g.hi < f.lo))) = true := by decide +kernel

theorem wit_BadAccesses : locate 0x1A00040 = none ∧ reset1.hostBlocked .pf0 = false ∧ reset1.mustWait 0x1A00040 = false ∧
    locate 0x1A00044 = none ∧ locate 0x401040 = none ∧ (locate 0x401044).map (fun p => p.reg.wide) = some false ∧
    (reset1.badAccess 0 1 0 0x401040).mbxAway 0x401044 = false ∧ (locate 0x100010).map (fun p => p.reg.wide) = some false ∧
    locate 0x100014 = none ∧ reset1.mustWait 0x401040 = false ∧ reset1.mustWait 0x100010 = false ∧ reset1.mbxAway 0x100010 = false ∧ (withVfs reset1).hasBar (.vf 2) .bar4 = true ∧ reset1.hasBar .pf0 .bar0 = true ∧ reset1.hostBlocked (.vf 2) = false ∧
    reset1.on F.GLB_BAD_ACCESS_VALID [] = false ∧ (reset1.badAccess 0 1 0 0x1A00040).on F.GLB_BAD_ACCESS_VALID [] = true := by
  decide +kernel

theorem wit_StagedConfiguration : hasStaged 6 = true ∧ commitWriter .pf0 6 = true ∧ reset1.hostBlocked .pf0 = false ∧
    reset1.mustWait (6 * 1048576 + 0xFF004) = false ∧ reset1.on (commitBusy 6) [] = false ∧
    (reset1.commitGo 6).on (commitBusy 6) [] = true ∧ (reset1.regs.map (fun e => e.1)).Nodup ∧
    [R.PCS_SHAPE, R.QRY_STAT, R.SMP_CFG, R.EGR_STAT, R.ANL_CFG, R.HIF_CFG].all (fun r => r.win != 6) = true := by decide +kernel

theorem wit_PowerDomains_PowerDomains : pdWriter .pf0 = true ∧ reset1.hostBlocked .pf0 = false ∧ reset1.rst.seq.contains 5 = false ∧
    reset1.offOk .pf0 5 = true ∧ ({ reset1 with rst := { reset1.rst with pdActive := some (5, true) } }).rst.pdActive ≠ none ∧
    (let d := { reset1 with rst := { reset1.rst with drain := 1 } }
     bitAt d.rst.drain 0 = true ∧ d.groupHeld 0 = 0 ∧ 0 ∉ d.rst.drained) := by decide +kernel
theorem wit_PowerDomains_refused : reset1.offOk (.svc 0) 182 = false ∧ reset1.rst.seq.contains 182 = false := by decide +kernel
theorem wit_PowerDomains_TransitionCompletes :
    ({ reset1 with rst := { reset1.rst with pdActive := some (5, false) } }).rst.pdActive = some (5, false) ∧ 7 < 8 ∧ 185 = 182 + 7 / 2 ∧
    (∀ n ∈ [180, 182, 183, 184, 185], ({ reset1 with rst := { reset1.rst with pdActive := some (n, false) } }).rst.pdActive =
      some (n, false)) := by decide +kernel

theorem wit_BringupPhases_BringupPhases :
    ∀ k ∈ [0, 1, 2, 3, 4, 5, 6, 7], (portAt k).inPhase 0 k = true ∧ (portAt k).rst.level = none ∧ (portAt k).canBeReady 0 = true ∧
      (∀ n ∈ (portAt k).portLanes 0, (portAt k).rd F.LANE_STAT_ADAPT [n] ≠ 3) ∧
      ∃ n ∈ ((portAt k).wr F.LANE_STAT_ADAPT [0] 3).portLanes 0, ((portAt k).wr F.LANE_STAT_ADAPT [0] 3).rd F.LANE_STAT_ADAPT [n] = 3 := by
  decide +kernel

theorem wit_RunningPort : (portAt 6).rst.level = none ∧ (portAt 6).absent 0 = false ∧ (portAt 6).alignLocked 0 = true ∧
    (portAt 6).onC F.PCS_PORT_CTL_LPI_EN (pix 0) = true ∧ (portAt 6).linkUp 0 = true ∧ (portAt 6).portLive 0 = true ∧
    (portAt 6).hasFrame 0 = false ∧ (portAt 6).wireArriving 0 = false ∧ (portAt 6).setsOnly 0 = false ∧ ((portAt 6).port 0).waking = false ∧
    ({ portAt 6 with dp := { (portAt 6).dp with pkts := [{ uid := 2 }] } }).wireArriving 0 = true ∧
    ((portAt 6).wr F.PCS_PORT_STAT_REM_FAULT (pix 0) 1).setsOnly 0 = true ∧
    (((portAt 6).setPort 0 { (portAt 6).port 0 with txLpi := true }).port 0).txLpi = true := by
  decide +kernel
theorem wit_RunningPort_updateLink :
    let d := (portAt 6).wr F.PCS_PORT_STAT_ALIGN_LOCK (pix 0) 0
    let e := { d.wr F.HIF_EVQ_EN_LINK [] 1 with hif := { d.hif with backlog := [(0, eventEntry 2 1 [])] } }
    (portAt 6).locFault 0 = false ∧ d.locFault 0 = true ∧ d.linkUp 0 = true ∧ d.on F.HIF_EVQ_EN_LINK [] = false ∧
      e.on F.HIF_EVQ_EN_LINK [] = true ∧ e.rd F.HIF_EVQ_CFG_LINK [] = 0 ∧ e.linkUp 0 = true ∧ e.alignLocked 0 = false ∧
      e.hif.backlog.any (fun x => x.1 == 0) = true ∧ (d.wr F.HIF_EVQ_EN_LINK [] 1).eventMay 0 = false ∧
      d.hif.backlog.length = 0 ∧
      (let r := ((d.wr F.HIF_EVQ_EN_LINK [] 1).wr F.RING_CTL_CQ_EN [0] 1).wr F.HIF_STAT_LINK_UP [] 1
       let r := { r with hif := { r.hif with busMaster := 1 } }
       r.eventMay 0 = true ∧ r.hif.backlog.any (fun x => x.1 == 0) = false) ∧
      256 ≤ (List.replicate 256 (0, eventEntry 2 1 [])).length := by
  decide +kernel

theorem wit_FecDegraded : (portAt 6).rst.level = none := by decide +kernel
theorem wit_FecDegraded_thresholds :
    let d := ((portAt 6).wr F.PCS_FEC_DEG_ACT_THR (pix 0) 10).wr F.PCS_FEC_DEG_DEACT_THR (pix 0) 5
    d.rd F.PCS_FEC_DEG_DEACT_THR (pix 0) < d.rd F.PCS_FEC_DEG_ACT_THR (pix 0) ∧
      ((d.setPort 0 { d.port 0 with syms := 11 }).port 0).syms = 11 := by
  decide +kernel

theorem wit_LaneAdaptation :
    let a := reset1.wr F.LANE_STAT_ADAPT [5] 2
    let b := reset1.wr F.LANE_STAT_ADAPT [5] 3
    ((reset1.wr F.LANE_STAT_ADAPT [5] 1).rd F.LANE_STAT_ADAPT [5] = 1 ∧ a.spl.dead = [] ∧ a.rd F.LANE_STAT_ADAPT [5] = 2 ∧ a.on F.LANE_ADAPT_FORCE_FRZ [5] = false ∧ (a.lane 5).training = false) ∧
    (a.wr F.LANE_ADAPT_IDLE_FRZ [5] 1).on F.LANE_ADAPT_IDLE_FRZ [5] = true ∧ (a.lane 5).quiet = false ∧ (b.lane 5).idle = false ∧
    (b.rd F.LANE_STAT_ADAPT [5] = 3 ∧ (b.lane 5).quiet = false ∧ a.hostBlocked .pf0 = false ∧ a.domOn 0 = true) ∧
    (a.wr F.LANE_ADAPT_FORCE_FRZ [5] 1).on F.LANE_ADAPT_FORCE_FRZ [5] = true ∧
    ((a.setLane 5 { a.lane 5 with training := true }).lane 5).training = true ∧
    (a.wr F.GLB_PD_ON_ON [0] 1).regOff R.LANE_ADAPT [5] = false ∧ isPfSvc .pf0 = true ∧ bitAt 2 1 = true := by
  decide +kernel

theorem wit_ReferenceClocks : reset1.rst.level = none ∧ reset1.domOn 127 = true := by decide +kernel

theorem wit_SidePortLanes :
    let d := reset1.wr F.AUX_LANE_CTL_FRZ_EN [1] 1
    let d := d.wr F.AUX_LANE_CTL_TDENS_MIN [1] 100
    let m := (reset1.wr F.AUX_MODE_MODE [] 2).wr F.AUX_PORT_CTL_EN [0] 1
    reset1.rst.level = none ∧ (m.auxPortOf 0).isSome = true ∧
      (reset1.wr F.AUX_PORT_STAT_SYNC [0] 1).on F.AUX_PORT_STAT_SYNC [0] = true ∧ (reset1.auxRx 0).active = false ∧
      (d.wr F.AUX_LANE_STAT_FROZEN [1] 1).on F.AUX_LANE_STAT_FROZEN [1] = true ∧ d.rd F.AUX_LANE_CTL_TDENS_MIN [1] + 32 ≤ 1023 ∧
      d.on F.AUX_LANE_STAT_FROZEN [1] = false ∧ d.auxPortOf 1 = none ∧ d.on F.AUX_LANE_CTL_FRZ_EN [1] = true ∧
      (m.auxRx 0).active = false ∧ ((m.setAuxRx 0 { active := true }).auxRx 0).active = true ∧
      0 < d.rd F.AUX_LANE_CTL_TDENS_MIN [1] := by decide +kernel

theorem wit_AluAndForwardInstructions_AluInstructions : ∀ op ∈ [0, 1, 2, 3, 4, 5, 6],
    let w := op * 2 ^ 58 + mdBd * 2 ^ 32 + 7
    insnSrc w ≠ 3 ∧ insnOp w = op ∧ (passWith w).mayWrite (insnDst w) = true ∧
      (devWith w).pass 1 = some (passWith w) ∧ (passWith w).todo = [w] := by
  decide +kernel
theorem wit_AluAndForwardInstructions_bad :
    (passWith 0).mayWrite (insnDst (2 ^ 58 + 8 * 2 ^ 32)) = false ∧ insnSrc (2 ^ 58 + 3 * 2 ^ 56) = 3 ∧
      ({ passWith 0 with pipe := 32 }).egress = true := by decide +kernel
theorem wit_AluAndForwardInstructions_ForwardInstructions : ∀ op ∈ [7, 8, 9, 10, 11, 14, 17],
    let w := op * 2 ^ 58 + 7
    insnSrc w ≠ 3 ∧ insnOp w = op ∧ (passWith w).egress = false ∧ (passWith w).stage < (passWith w).source w % 32 ∧
      (devWith w).pass 1 = some (passWith w) := by
  decide +kernel
theorem wit_AluAndForwardInstructions_skipBack : let w := 17 * 2 ^ 58 + 7
    insnOp w = 0x11 ∧ insnSrc w ≠ 3 ∧ ({ passWith w with stage := 9 } : Pass).source w % 32 ≤ ({ passWith w with stage := 9 } : Pass).stage := by
  decide +kernel

theorem wit_PacketState_DroppedNeverForwarded : ({} : Pass).md' mdDropCode = 0 ∧ reset1.tbl.ctrBad.contains 5 = false ∧
    ({ reset1 with tbl := { reset1.tbl with ctrBad := [5] } }).tbl.ctrBad.contains 5 = true := by decide +kernel

theorem wit_CountingInstructions : ∀ op ∈ [12, 13, 15, 16],
    let w := op * 2 ^ 58 + 7
    insnSrc w ≠ 3 ∧ insnOp w = op ∧ (passWith w).egress = false ∧ (passWith w).md' mdDropCode = 0 ∧
      (passWith w).source w < 262144 ∧ (passWith w).meters < 2 ∧ (passWith w).learn = none := by
  decide +kernel

theorem wit_EditInstructions : ∀ op ∈ [0x20, 0x21, 0x22],
    let w := op * 2 ^ 58 + 2 ^ 55 + 7
    let y := { passWith w with pipe := 32, slots := [(0, (3, 14))] }
    insnSrc w ≠ 3 ∧ insnOp w = op ∧ y.egress = true ∧ y.slot (selSlot (insnDst w)) = some (3, 14) ∧
      selHeader (insnDst w) = true ∧ 1 ≤ y.source w ∧ y.source w ≤ 64 := by
  decide +kernel
theorem wit_EditInstructions_ioam :
    let w := 0x23 * 2 ^ 58 + 2 ^ 55 + 2 * 2 ^ 52
    let win : List Byte := List.replicate 40 0 ++ [0, 0] ++ [0x31, 10, 0, 0, 0, 0, 0x08, 0x01, 0x80, 0, 0, 0] ++ List.replicate 202 0
    let y := { passWith w with pipe := 32, win := win, md := mdSet [] mdIoam 1, slots := [(0, (4, 0)), (1, (5, 40)), (2, (13, 42))] }
    y.md' mdIoam ≠ 0 ∧ ((y.ioamOpt (selSlot (insnDst w))).map (fun o => (reset1.ioamCase o).isRight)) = some true := by
  decide +kernel

theorem wit_IngressSlot : (portAt 6).domOn 128 = true ∧ (portAt 6).linkUp 0 = true ∧ (portAt 6).safe = false ∧
    (List.replicate 256 (0 : Byte)).length = 256 ∧ isControl (List.replicate 256 0) = false ∧
    isControl (List.replicate 12 0 ++ [0x88, 0x08] ++ List.replicate 50 0) = true ∧
    ({} : Pass).stages ≤ ({ stage := 16 } : Pass).stage ∧ ((devWith 0).arrive 2 [1, 2, 3] true).pkt 2 ≠ none := by
  decide +kernel
theorem wit_IngressSlot_slot :
    let d := { portAt 6 with dp := { (portAt 6).dp with entries := [{ port := 0, pkt := 2 }] } }
    let e := { portAt 6 with dp := { (portAt 6).dp with inject := [{ port := 3, bytes := [] }] } }
    let arb := fun (d : Dev) => arbitrate (d.entryReady 0) d.entryWeight (fun x => Sparse.get 0 d.dp.entryCredit x)
    (arb d).map (fun a => a.1) = some 0 ∧ (arb e).map (fun a => a.1) = some 1024 ∧
      (d.entriesOf 0).length < d.entryRoom 0 ∧ d.entryRoom 5 ≤ 64 ∧ (List.replicate 64 ({ port := 5, pkt := 2 } : Entry)).length = 64 ∧
      4 ≤ (Sparse.get [] [((0 : Nat), [0, 1, 2, 3])] 0).length := by
  decide +kernel
theorem wit_IngressSlot_pass :
    let d : Dev := { reset1 with dp := { reset1.dp with passes := [{ uid := 1, pkt := 2, stage := 16 }], pkts := [{ uid := 2, resolved := true }] } }
    (d.pass 1).isSome = true ∧ (d.pkt 2).map (fun p => p.kind == .frame && !p.checked && !p.ended && p.resolved) = some true := by
  decide +kernel

theorem wit_TableCommandsStart : reset1.tblAcc .pf0 = true ∧ reset1.hostBlocked .pf0 = false ∧
    reset1.on F.RST_STAT_INIT_DONE [] = true ∧ reset1.on F.TBL_CMD_BUSY [] = false ∧
    (List.range 8).all (fun o => bitsOf (o * 2 ^ 28 + 1) 30 28 == o && bitAt (o * 2 ^ 28 + 1) 0) = true := by decide +kernel

theorem wit_TableCommandResults :
    let e := 2 ^ 255 + 5
    let a := (reset1.emCands 0 0 5).headD 0
    let d := reset1.putEm 0 a e
    let key := fun (op : Nat) => ({ word := op * 2 ^ 28 + 1, mid := 0, idx := 0, data := [5] } : TblCmd)
    (key 7).table = 0 ∧ (key 7).op = 7 ∧ (key 3).op = 3 ∧ (key 4).op = 4 ∧ reset1.on F.TBL_CFG_DUALWR [] = false ∧
      reset1.emMatches 0 0 5 = [] ∧ d.emMatches 0 (emTag ((key 7).num 0 8)) (emKey ((key 7).num 0 8)) = [a] ∧
      emStatic e = false ∧ emHit e = false ∧ emStatic (e + 2 ^ 253) = true ∧ emHit (e + 2 ^ 254) = true ∧
      reset1.onPath 0 0 = false := by decide +kernel
theorem wit_TableCommandResults_checks :
    let c := fun (w i : Nat) => ({ word := w, mid := 0, idx := i, data := [] } : TblCmd)
    reset1.tblCheck (c (0 * 2 ^ 28 + 2 ^ 25) 1572864) = some 3 ∧ reset1.tblCheck (c (2 * 2 ^ 28) 0) = none ∧
      (c (7 * 2 ^ 28) 0).cmdset = 1 ∧ reset1.on F.TBL_CFG_CMDSET [] = false ∧ (c (5 * 2 ^ 25) 0).table = 5 ∧
      (c (2 ^ 26) 0).table = 2 ∧ (c (3 * 2 ^ 25) 0).table = 3 ∧ (c (2 ^ 27) 0).table = 4 ∧ (c (2 ^ 25) 0).table = 1 ∧
      ((reset1.setPath 0 (some { moves := [(1, 2)], target := 1, entry := 2 ^ 255, by_ := .learn, slots := [1, 2], total := 1 })).path
        0).isSome = true := by decide +kernel
theorem wit_TableCommandResults_insert :
    let c : TblCmd := { word := 2 * 2 ^ 28 + 2 ^ 22, mid := 0, idx := 0, data := [5] }
    let e := reset1.insertEntry (c.num 0 8)
    let full := (reset1.emCands 0 0 5).foldl (fun (d : Dev) i => d.putEm 0 i (2 ^ 255 + 2 ^ 248 * 9 + i)) reset1
    c.op = 2 ∧ ({ c with word := 2 * 2 ^ 28 } : TblCmd).evict = false ∧ reset1.emMatches 0 (emTag e) (emKey e) = [] ∧
      ((reset1.emCands 0 (emTag e) (emKey e)).find? (fun i => !emValid (reset1.em 0 i))).isSome = true ∧
      ((reset1.putEm 0 ((reset1.emCands 0 0 5).headD 0) e).emMatches 0 (emTag e) (emKey e)).length = 1 ∧
      (full.emPlace 0 e .cmd matches .none_) = true ∧ c.evict = true ∧
      (full.victim 0 e 2 (fun x => !emStatic x)).2.isSome = true ∧ (full.victim 0 e 2 (fun _ => false)).2 = none := by decide +kernel
theorem wit_TableCommandResults_lpm :
    let e := 24 * 2 ^ 240 + 2 ^ 127
    let c : TblCmd := { word := 2 * 2 ^ 28 + 2 ^ 25, mid := 0, idx := 0, data := dwordsOf 8 e }
    let d := reset1.setLpm 0 9 (lpmStored e)
    c.num 0 8 = e ∧ lpmPlen e ≤ famBits (lpmFam e) ∧ famBits 0 < lpmPlen (33 * 2 ^ 240) ∧
      reset1.lpmFind 0 (lpmName (lpmStored e)) = none ∧ d.lpmFind 0 (lpmName (lpmStored e)) = some 9 ∧ d.lpmFind 0 (lpmName e) = some 9 ∧
      reset1.lpmUsed 0 + lpmUnits (lpmStored e) ≤ lpmMax ∧ lpmMax < lpmMax + lpmUnits (lpmStored e) := by decide +kernel
theorem wit_TableCommandResults_scans :
    let c : TblCmd := { word := 5 * 2 ^ 28, mid := 0, idx := 0, data := [0, 0, 0, 0] }
    let f : TblCmd := { word := 6 * 2 ^ 28, mid := 0, idx := 0, data := [0, 0, 0, 0] }
    let d := reset1.putEm 0 7 (2 ^ 255 + 5)
    (d.startScan c 0 0).tbl.scan = some { cmd := c, pos := 0, n := 0 } ∧ c.op = 5 ∧ c.table = 0 ∧ f.op = 6 ∧ d.path 0 = none ∧
      d.flushPosts f = false ∧ d.on F.TBL_CFG_DUALWR [] = false ∧ (d.tbl.em.map (fun e => e.1)).Nodup ∧ d.flushList f = [7] ∧
      ((d.startScan f 0 0).scanTo emSlots 0).tbl.res.map (fun r => r.count) = some (some 1) ∧
      ((d.startScan c 0 0).scanTo emSlots 0).tbl.res.map (fun r => r.idx) = some (some 7) := by decide +kernel

theorem wit_LearningAndPaths :
    let o : Offer := { tag := 2, key := 5, data := 7 }
    let d := { reset1 with tbl := { reset1.tbl with queue := [o] } }
    let e := d.setPath 0 (some { moves := [(1, 2)], target := 1, entry := 2 ^ 255, by_ := .learn, slots := [1, 2], total := 1 })
    d.on F.TBL_CFG_LEARN_PAUSE [] = false ∧ d.learnHeld = false ∧ d.path d.activeEm = none ∧ d.safe = false ∧
      (e.path 0).map (fun p => p.moves) = some [(1, 2)] ∧ reset1.rd F.TBL_CFG_STAMP_TICK [] ≠ 0 ∧
      (reset1.wr F.TBL_CFG_STAMP_TICK [] 0).rd F.TBL_CFG_STAMP_TICK [] = 0 ∧ bitAt 2 1 = true ∧
      reset1.on F.TBL_CFG_DUALWR [] = false ∧ isPfSvc .pf0 = true ∧
      ({ reset1 with tbl := { reset1.tbl with stalled := [.offer o 0 0] } }).tbl.stalled = [.offer o 0 0] ∧ reset1.path 0 = none := by
  decide +kernel

theorem wit_TableJobs :
    let job := fun (op p0 len p3 : Nat) => ({ id := 1, sub := { opcode := op, len := len, params := [p0, 0, 0, p3] } } : Job)
    let d := fun (j : Job) =>
      (({ reset1 with hif := { reset1.hif with jobs := [j], busMaster := 1 } } : Dev).wr F.HIF_STAT_LINK_UP [] 1)
    let x : TblJob := { job := 1, load := true, table := 0, bank := 1, total := 2, clearing := true }
    let e := { d (job 0x20 0 64 2) with tbl := { reset1.tbl with jobs := [x] } }
    let hdr : ImageHeader := .fault .timeout
    (d (job 0x20 0 64 2)).tableJob 0 0x20 = some (job 0x20 0 64 2) ∧ (d (job 0x20 0 64 2)).loadCheck (job 0x20 0 64 2) hdr = none ∧
      (d (job 0x20 0 64 2)).jobDma 1 = true ∧ e.jobDma 1 = true ∧ (d (job 0x20 0 64 1)).loadCheck (job 0x20 0 64 1) hdr = some (5, false) ∧
      (d (job 0x21 0x10 0x4000040 0)).tableJob 0 0x21 = some (job 0x21 0x10 0x4000040 0) ∧ imageLen 0 ≤ 0x4000040 ∧
      (d (job 0x21 0x10 0x4000040 0)).jobReach (job 0x21 0x10 0x4000040 0) 0 64 = true ∧ e.jobReads x = true ∧
      (d (job 0x21 0 64 0)).tableJob 0 0x21 = some (job 0x21 0 64 0) ∧
      (d (job 0x22 1 0 0)).tableJob 0 0x22 = some (job 0x22 1 0 0) ∧ e.loadOf 0 = some x ∧ e.insertBusy 0 1 = false ∧
      ({ x with ended := some 0, clearing := false } |> fun y =>
        ({ reset1 with tbl := { reset1.tbl with jobs := [y] } } : Dev).tbl.jobs.find? reset1.tableEnded) ≠ none ∧
      (let y : TblJob := { job := 1, dump := true, total := 9 }
       let g := ({ reset1 with tbl := { reset1.tbl with jobs := [y] } } : Dev)
       g.tbl.jobs.find? g.tableEnded = none ∧ g.dumpOf = some y) ∧
      (let p := (d (job 0x22 1 0 0)).setPath 0 (some { moves := [(1, 2)], target := 1, entry := 2 ^ 255, by_ := .learn, slots := [1, 2], total := 1 })
       p.tbl.paths ≠ [] ∧ p.tableJob 0 0x22 = some (job 0x22 1 0 0)) ∧ bitAt 0x20 5 = true ∧
      (d (job 0x20 0x20 64 2)).loadCheck (job 0x20 0x20 64 2) hdr = none := by
  decide +kernel

theorem wit_QuarryEvaluations_copies :
    let a := { reset1 with dp := { reset1.dp with pkts := [{ uid := 2, kind := .mirror, open_ := true, uHeld := 2000000 }] } }
    let f : Pkt := { uid := 2, ct := true, chain := [(0, 0), (1, 1)], refs := 1 }
    let b := { reset1 with dp := { reset1.dp with pkts := [f], copies := [{ uid := 3, pkt := 2, ct := true, loc := .sending }] } }
    a.poolS < a.poolU + 1 ∧ PktKind.isCopy .mirror = true ∧ b.arriving { uid := 3, pkt := 2, ct := true, loc := .sending } = true ∧
      ((b.arrive 2 [0] false).pkt 2).map ctReady = some true ∧
      ((b.arrive 2 [0] false).dp.copies.find? (fun c => c.pkt == 2)).isSome = true := by
  decide +kernel
theorem wit_QuarryEvaluations_xoff :
    let d := reset1.wrC F.QRY_PFC_CFG_EN [7] 4
    let e := { d with dp := { d.dp with pkts := [{ uid := 2, port := 7 }] } }
    let f := (d.wrC F.QRY_PFC_CFG_PFC_ALPHA [7] 15).wrC F.QRY_HDRM_XON_DELTA [7, 2] 0
    let g := d.wrC F.QRY_HDRM_XON_DELTA [7, 2] 65535
    d.pfcEn 7 2 = true ∧ d.pfcEn 7 3 = false ∧ e.ingCharge 7 2 = 0 ∧ f.cm F.QRY_PFC_CFG_PFC_ALPHA [7] = 15 ∧ 0 < d.poolS - d.poolU ∧
      0 < (d.poolS - d.poolU) * 2 ^ min (d.cm F.QRY_PFC_CFG_PFC_ALPHA [7]) 10 / 2 ^ 7 ∧ d.hdrmCharge 7 2 = 0 ∧
      (let h := g.wrC F.QRY_PFC_CFG_PFC_ALPHA [7] 0
       (h.poolS - h.poolU) / 2 ^ 7 < 0 + h.cm F.QRY_HDRM_XON_DELTA [7, 2]) := by decide +kernel
theorem wit_QuarryEvaluations_pfc :
    let d := ((portAt 6).setEgrPort 0 { pfcDue := true }).wr F.QRY_PFC_STAT_XOFF [0] 1
    (d.egrPort 0).pfcDue = true ∧ d.linkUp 0 = true ∧ d.mayTransmit 0 = true ∧ d.rd F.QRY_PFC_STAT_XOFF [0] ≠ 0 := by
  decide +kernel

theorem wit_IndirectTables : isPfSvc .pf0 = true ∧ reset1.hostBlocked .pf0 = false ∧ reset1.domOn 159 = true ∧
    bitAt 0x80000000 31 = true ∧ (idxTarget 5 0x80000000).isSome = true ∧ (idxTarget 5 0x40000000).isSome = true ∧
    bitAt 0xC0000000 30 = true ∧ idxTarget 5 0x8F000000 = none ∧ reset1.gclLocked 0 1 = false ∧ reset1.gclLocked 0 0 = true := by
  decide +kernel

theorem wit_DynamicThreshold : ∀ a ∈ [0, 10, 11, 14, 15],
    let d := reset1.wrC F.QRY_Q_CFG_ALPHA [0, 0] a
    d.poolU < d.poolS ∧ isVoq 0 = true ∧ d.cm F.QRY_Q_CFG_ALPHA [voqPort 0, voqQueue 0] = a := by decide +kernel

theorem wit_SpillTraffic :
    let x := fun (a : BatchAt) => ({ num := 3, voq := 5, chain := [(0, 7)], batches := [{ seq := 0, segs := [{ copy := 9, cells := 2 }], extent := some 7, at_ := a }] } : Ctx)
    let d := fun (a : BatchAt) => ({ reset1 with sump := { reset1.sump with ctxs := [x a], queue := [(3, 0)], wrBucket := 10 ^ 9 } } : Dev)
    (d .open_).ctx 3 = some (x .open_) ∧ ((x .open_).batches.getLast?).isSome = true ∧ (d .waiting).quarryEmpty 5 = true ∧
      ((d .writing).batch 3 0).map (fun b => b.at_) = some .writing ∧ ((d .reading).batch 3 0).map (fun b => b.at_) = some .reading ∧
      ((d .waiting).fillBuckets.batchBoundary.takeExtent (x .waiting) (groupOf 0)).2.2 = true ∧
      ((d .waiting).fillBuckets.batchBoundary.takeExtent { (x .waiting) with chain := [] } 0).2.2 = false ∧
      ((x .waiting).batches.all (fun b => !(d .waiting).batchArriving b)) = true ∧
      ((d .waiting).batch 3 0).isSome = true := by decide +kernel
theorem wit_SpillTraffic_read :
    let x : Ctx := { num := 3, voq := 5, chain := [(0, 7)], batches := [{ seq := 0, segs := [{ copy := 9, cells := 2 }], extent := some 7, at_ := .written }] }
    let d := (({ reset1 with sump := { reset1.sump with ctxs := [x], rdBucket := 10 ^ 9 } } : Dev).wrC F.SMP_CLS_LIM_RB_THR [5] 100).wrC F.QRY_STAGE_CELLS [] 1000
    (d.fillBuckets.batchBoundary.nextReader).map (fun e => e.1.num) = some 3 ∧ reset1.fillBuckets.batchBoundary.nextReader = none := by decide +kernel
theorem wit_SpillTraffic_end :
    let x : Ctx := { num := 3, voq := 5 }
    let d := ({ reset1 with sump := { reset1.sump with ctxs := [x] } } : Dev)
    d.ctx 3 = some x ∧ (d.dp.copies.any (fun c => c.queue == x.voq && !c.released && c.linked != 0)) = false := by decide +kernel

theorem wit_CxlPorts :
    let d := reset1.wr F.CXL_CTL_EN [0] 1
    let e := reset1.wr F.CXL_STAT_LINK_UP [0] 1
    isPfSvc .pf0 = true ∧ reset1.hostBlocked .pf0 = false ∧ reset1.domOn 168 = true ∧ reset1.on F.CXL_CTL_EN [0] = false ∧
      d.on F.CXL_CTL_EN [0] = true ∧ e.cxlUp 0 = true ∧ e.on F.CXL_STAT_LINK_UP [0] = true ∧
      (reset1.wr F.SVC_BOOT_STATE [] 3).coreRuns 0 = true ∧
      bitAt ({ reset1 with sump := { reset1.sump with enumerating := 1 } }).sump.enumerating 0 = true := by decide +kernel

theorem wit_EgressPath_EgressPath :
    let f : Pkt := { uid := 2, ended := true, refs := 1 }
    let c : Copy := { uid := 3, pkt := 2, loc := .ready }
    let d := { portAt 6 with dp := { (portAt 6).dp with pkts := [f], copies := [c] } }
    d.linkUp 0 = true ∧ d.safe = false ∧ d.copy 3 = some c ∧ d.pkt 2 = some f ∧ isVoq c.queue = true ∧
      d.uncheckedCt { c with loc := .held } = false ∧ d.uncheckedCt { c with loc := .held, ct := true } = true ∧
      d.portHolds 0 = false ∧ d.mayTransmit 0 = true := by
  decide +kernel
theorem wit_EgressPath_decision :
    let f : Pkt := { uid := 2, ended := true, refs := 1 }
    let c : Copy := { uid := 3, pkt := 2, len := 100, queue := voqOf 0 0 2 }
    let e : Copy := { uid := 4, pkt := 2, len := 100, queue := voqOf 0 0 3 }
    let d := { portAt 6 with dp := { (portAt 6).dp with pkts := [f], copies := [c, e] } }
    let b := (d.setEgrPort 0 { ptr := [(0, 2)], visited := [0], deficit := [(2, 119)] }).dropOversizeAll 0
    let g := (d.setEgrPort 0 { ptr := [(0, 2)], visited := [0], deficit := [(2, 120)] }).dropOversizeAll 0
    let L := fun (c : Copy) => c.len + b.rd F.EGR_PORT_CFG_OVHD [0]
    b.eligible 0 2 = true ∧ b.eligible 0 3 = true ∧ b.candidate 0 2 = some c ∧ b.candidate 0 3 = some e ∧ L c = 120 ∧ L e ≤ 0 + 64 * 145 ∧
      b.cm F.EGR_Q_CFG_QUANTUM [0, 3] = 145 ∧ (2 + 1 + 0) % 12 = 3 ∧
      (∀ q < 12, b.cm F.EGR_Q_CFG_LEVEL [0, q] = b.cm F.EGR_Q_CFG_LEVEL [0, 2]) ∧
      b.cm F.EGR_Q_CFG_LEVEL [0, 2] = 0 ∧ Sparse.get 0 (g.egrPort 0).deficit 2 = 120 ∧ g.eligible 0 2 = true ∧
      (∀ q < 12, reset1.eligible 0 q = false) := by
  decide +kernel
theorem wit_EgressPath_grant :
    let f : Pkt := { uid := 2, ended := true, refs := 1 }
    let c : Copy := { uid := 3, pkt := 2, loc := .chosen }
    let d := { portAt 6 with dp := { (portAt 6).dp with pkts := [f], copies := [c] } }
    let e := d.newGrantClock 0
    (e.grant 0 []).2 = some 0 ∧ d.domOn 128 = true ∧ d.safe = false ∧ Sparse.get [] e.dp.grants 0 = [] ∧
      4 ≤ (Sparse.get [] ({ d with dp := { d.dp with grants := [(0, [0, 1, 2, 3])] } }).dp.grants 0).length ∧
      (e.grant 0 []).1.chosen 0 = some c ∧ (e.grant 0 []).1.pkt 2 = some f := by
  decide +kernel
theorem wit_EgressPath_pass :
    let x : Pass := { uid := 1, pkt := 2, copy := some 3, pipe := 32, stage := 12 }
    let d := { reset1 with dp := { reset1.dp with passes := [x], pkts := [{ uid := 2 }], copies := [{ uid := 3, pkt := 2 }] } }
    d.pass 1 = some x ∧ x.egress = true ∧ x.stages ≤ x.stage ∧ (d.copy 3).isSome = true ∧ (d.pkt 2).isSome = true := by
  decide +kernel
theorem wit_EgressPath_FrameLeaves : reset1.copyChanged {} = false ∧ reset1.copyChanged { edits := [.remove 0 4] } = true := by
  decide +kernel

theorem wit_PauseFrames :
    let bad : Control := { port := 0, bytes := [1, 2, 3] }
    let d := { reset1 with dp := { reset1.dp with control := [bad] } }
    d.controlFrame 0 = some bad ∧ controlOp bad ≠ some 0x0101 ∧ controlOp bad ≠ some 0x0001 ∧
      ((reset1.wr F.EGR_PORT_STAT_PAUSED [0] 8).priPaused 0 3) = true ∧
      (reset1.wr F.EGR_PORT_STAT_PAUSE_ALL [0] 1).on F.EGR_PORT_STAT_PAUSE_ALL [0] = true := by
  decide +kernel
theorem wit_PauseFrames_good : ∀ op ∈ [0x0101, 0x0001],
    let b : List Byte := [1, 0x80, 0xC2, 0, 0, 1] ++ List.replicate 6 2 ++ [0x88, 0x08] ++ beBytes 2 op ++ List.replicate 44 0
    controlOp { bytes := b ++ fcsBytes b } = some op ∧ controlOp { bytes := b ++ fcsBytes b, bad := true } = none := by
  decide +kernel

theorem wit_WatchdogAndFlush :
    reset1.flushReason 0 = some 2 ∧ (reset1.wr F.EGR_PORT_CFG_GATE_EN [0] 1).on F.EGR_PORT_CFG_GATE_EN [0] = true ∧
    (reset1.wr F.EGR_PORT_STAT_PEND [0] 1).on F.EGR_PORT_STAT_PEND [0] = true ∧ (reset1.egrPort 0).tsw ≤ reset1.ns ∧
    (reset1.wr F.LEHR_Q_RATE_RATE [0, 0] 5).rd F.LEHR_Q_RATE_RATE [0, 0] ≠ 0 ∧ reset1.on F.RST_STAT_INIT_DONE [] = true := by
  decide +kernel
theorem wit_WatchdogAndFlush_drop :
    let c : Copy := { uid := 3, pkt := 2 }
    let d := { reset1 with dp := { reset1.dp with pkts := [{ uid := 2, ended := true, refs := 1 }], copies := [c] } }
    let d := d.setEgrPort 0 { flush := some 2 }
    let e := d.setEgrPort 0 { flush := some 2, flushNext := 383 }
    d.queueFlush 0 0 = some 2 ∧ d.candidate 0 0 = some c ∧ (d.egrPort 0).flushNext = 0 ∧ d.safe = false ∧
      (383 + 1) % 384 = 0 ∧ e.queueFlush 0 0 = some 2 ∧ e.candidate 0 0 = some c ∧ e.candidate 31 11 = none ∧ reset1.candidate 0 0 = none := by
  decide +kernel
theorem wit_WatchdogAndFlush_gate :
    let h := 2 ^ 96 + 1000 * 2 ^ 64
    let d := { reset1 with dp := { reset1.dp with gcl := [(gclAt 0 1 0, h), (gclAt 0 1 1, 2 ^ 31 + 500)] } }
    d.on F.EGR_PORT_STAT_PEND [0] = false ∧ d.rd F.EGR_PORT_STAT_OPER_BANK [0] ≠ bitsOf 0xC0000000 30 30 ∧
      ((d.wr F.EGR_GCL_CTL_NEW_BANK [0] 1).gateList 0 1).valid = true := by
  decide +kernel

theorem wit_MeterCommands : pfOrSvc Master.pf0.mid = true ∧ reset1.hostBlocked .pf0 = false ∧
    reset1.on F.RST_STAT_INIT_DONE [] = true ∧ bitAt 0x40000000 30 = true ∧ bitsOf 0x50000000 29 28 = 1 ∧
    bitsOf 0x60000000 29 28 = 2 ∧ (reset1.wrC F.MTR_PROF_MODE_MODE [0] 1).mtrMode 0 < 2 ∧
    reset1.dp.mtrBusy = false ∧ ({ reset1 with dp := { reset1.dp with mtrBusy := true } }).dp.mtrBusy = true := by
  decide +kernel

theorem wit_GatherJobs :
    let job := fun (op len : Nat) (ps : List Nat) => ({ id := 1, sub := { opcode := op, len := len, params := ps } } : Job)
    let d := fun (j : Job) => ((({ reset1 with hif := { reset1.hif with jobs := [j], busMaster := 1 } } : Dev).wr
      F.HIF_STAT_LINK_UP [] 1).wr F.GTH_EP_CTL_EN [0] 1).wr F.GTH_CFG_ENG_EN [] 1
    let set := job 0x10 96 [5, 1, 2 ^ 16 + 1, 2 ^ 24 + 2 ^ 8 + 8 * 16, 50, 500, 1000]
    let bytes : List Byte := List.replicate 64 0 ++ List.replicate 15 0 ++ [9] ++ List.replicate 16 0
    let g := parseGroup set bytes
    let e := (d set).wrC F.PCS_SHAPE_M0 [0] 1
    let op := job 0x12 0 [5, 1, 0, 10, 100, 64, 0]
    let h : Group := { id := 5, gen := 1, m := 1, engines := 1, window := 1 }
    (d set).newJob 0 0x10 = some set ∧ (d set).hif.jobs.find? (fun y => y.id == 1) = some set ∧ (d set).jobDma 1 = true ∧ g.inRange 96 = true ∧ g.inRange 95 = false ∧ g.slot = 5 ∧
      (({ e with hif := {} } : Dev).groupAllowed g) = true ∧ reset1.groupOf 5 = none ∧
      ((reset1.setGroup h).groupOf 5) = some h ∧ (d op).newJob 0 0x12 = some op ∧ (parseOp op).inRange = true ∧
      h.allows (parseOp op) 1 = true ∧ h.allows (parseOp op) 2 = false := by decide +kernel

theorem wit_GatherFramesAndTimers_GatherFramesTaken :
    let f : Pkt := { uid := 2, refs := 1 }
    let c : Copy := { uid := 3, pkt := 2, queue := intOf 0 1 }
    let d := ({ reset1 with dp := { reset1.dp with pkts := [f], copies := [c] } } : Dev).wr F.GTH_CFG_ENG_EN [] 1
    d.safe = false ∧ d.engineOn 0 = true ∧ d.gatherHead 0 = some (0, c) ∧ d.pkt 2 = some f ∧ (gatherIn f).h.kind ≠ 3 := by
  decide +kernel
theorem wit_GatherFramesAndTimers_GatherFramesTaken_ack : (parseGHdr ([1, 3] ++ List.replicate 30 0) 0).kind = 3 ∨
    (parseGHdr ([0x13] ++ List.replicate 31 0) 0).kind = 3 := by decide +kernel
theorem wit_GatherFramesAndTimers_GatherTimers :
    let o : GOp := { steps := 1, sent := 1, elems := 4, chunk := 64 }
    let g : Group := { id := 5, gen := 1, m := 2, engines := 1, window := 1, ops := [o], steps := [{ step := 0 }], acked := [-1, -1] }
    let c : GCtx := { slot := 5, step := 0, seq := 0, bits := 1 }
    let d := (reset1.setGroup g).setCtxs [c]
    d.safe = false ∧ d.ctxOwner 5 0 0 = some (g, o, c) ∧ c.at_ = .open_ ∧ g.ackedBy 0 = false ∧ d.group 5 = some g := by
  decide +kernel
theorem wit_GatherFramesAndTimers_GatherTimers_dispatch :
    let o : GOp := { steps := 1, elems := 4, chunk := 64 }
    let g : Group := { id := 5, gen := 1, m := 1, engines := 1, window := 1, ops := [o] }
    reset1.pickStep [(g, o)] [] = some (g, o) := by decide +kernel

theorem wit_GatherRows :
    let mem : Member := { ip := 9 }
    let o : GOp := { steps := 1, sent := 1, elems := 4, chunk := 64 }
    let g : Group := { id := 5, gen := 1, m := 1, engines := 1, window := 1, members := [mem], ops := [o], steps := [{ step := 0 }] }
    let d := ((reset1.setGroup g).setCtxs [{ slot := 5, step := 0, seq := 0, bits := 1 }]).wr F.GTH_EP_CTL_EN [0] 1
    let h : GHdr := { ver := 1, kind := 1, group := 5, gen := 1, member := 0, step := 0, seq := 0, op := o.op, dtype := o.dtype, nseq := o.nseq, count := o.count 0 }
    d.groupOf 5 = some g ∧ bitAt g.engines 0 = true ∧ g.retired 0 = false ∧ g.opAt 0 = some o ∧ h.differs o = false ∧
      (d.gctx 5 0 0).isSome = true ∧ (∀ st t, g.steps = st :: t → st.resulted = false) ∧
      (d.gctx 5 0 0).map (fun c => (c.at_, bitAt c.bits 0)) = some (.open_, true) ∧
      (∀ a ∈ [CtxSt.failed, .complete], (((reset1.setGroup g).setCtxs [{ slot := 5, step := 0, seq := 0, at_ := a }]).gctx 5 0 0).map
        (fun c => c.at_) = some a) ∧
      reset1.answerOk 0 = true ∧ (reset1.wr F.GTH_ANS_RATE_KPPS [] 0).answerOk 0 = false := by
  refine ⟨by decide +kernel, by decide +kernel, by decide +kernel, by decide +kernel, by decide +kernel, by decide +kernel, ?_,
    by decide +kernel, by decide +kernel, by decide +kernel, by decide +kernel⟩
  intro st t h
  injection h with h _
  subst h
  rfl

theorem wit_IntegerSums : (∀ x ∈ [2 ^ 31 - 1, 5], x < 2 ^ 32) ∧ [1, 2].Perm [2, 1] := by
  exact ⟨by decide, List.Perm.swap 2 1 []⟩

theorem wit_AnnealerPeriod : max reset1.anl.level reset1.forcedLevel < 4 ∧ reset1.rst.level = none := by decide +kernel

theorem wit_PowerShares : (let dem := fun c => if c = 0 then 5 else if c = 1 then 6 else 7
    decide (dem 0 + dem 1 + dem 2 ≤ 18)) = true := by decide +kernel

theorem wit_MeasurementAndSags_PowerMeasurement : (reset1.wr F.ANL_PMB_CFG_EN [] 1).on F.ANL_PMB_CFG_EN [] = true ∧
    (reset1.wr F.ANL_PMB_CFG_EN [] 1).pmbMismatch = false ∧ ((reset1.wr F.ANL_PMB_CFG_EN [] 1).wr F.ANL_PMB_CFG_NRAIL_M1 [] 7).pmbMismatch = true ∧
    reset1.on F.ANL_STAT_ALERT [] = false ∧
    (let d := (reset1.wr F.ANL_STAT_ALERT [] 1).alertFault
     d.spl.records.any (fun x => x.collector == 53 && x.source == 0x42 && !x.inj && d.anl.alertRecs.contains x.seq) = true ∧
       reset1.rd F.SPL_REC_SEQ_SEQ [] = 0) ∧ ({ reset1 with rst := { reset1.rst with level := some .warm } } : Dev).rst.level ≠ none ∧
    (let d := reset1.wr F.ANL_PMB_CFG_EN [] 1
     ((List.range d.railCount).map (fun r => (r, ([] : List PmbRead).getD r .failed))).any (fun x => x.2 == .failed) = true ∧
       ((List.range d.railCount).map (fun r => (r, (List.replicate 8 (PmbRead.word 0)).getD r .failed))).any (fun x => x.2 == .failed) = false) :=
  by decide +kernel
theorem wit_MeasurementAndSags_SupplySags : (reset1.wr F.ANL_SAG_INHIBIT [] 1).on F.ANL_SAG_INHIBIT [] = true ∧
    reset1.on F.ANL_SAG_INHIBIT [] = false ∧ reset1.coreRuns 7 = false := by decide +kernel

theorem wit_HintsDroopAndHeat : reset1.anl.fires = [] ∧ (List.replicate 64 (0x100 : BitVec 12)).length = 64 ∧
    ((reset1.setTemps (List.replicate 64 100)).tHot < thermEighths (reset1.rd F.ANL_THERM_CRIT []) - 40) ∧
    (let d := { reset1 with anl := { reset1.anl with fires := [(0, 70000)] } }
     max 1 (d.rd F.ANL_DROOP_LIMIT []) ≤ 70000 ∧
       d.rd F.ANL_AVS_STAT_GUARD_MV [] + d.rd F.ANL_DROOP_GUARD_STEP [] ≤ d.rd F.ANL_DROOP_GUARD_MAX [] ∧
       (d.wr F.ANL_DROOP_GUARD_MAX [] 0).rd F.ANL_DROOP_GUARD_MAX [] <
         d.rd F.ANL_AVS_STAT_GUARD_MV [] + d.rd F.ANL_DROOP_GUARD_STEP []) := by decide +kernel

theorem wit_TimeBase : reset1.rst.level = none ∧ reset1.tlm.sweep = none ∧ reset1.spl.inj = none ∧ (∀ p, p < 4 → reset1.auxPortOf p = none) ∧ reset1.tbl.scan = none ∧
    reset1.tbl.jobs = [] ∧ reset1.svc.unloaded = [] ∧ (∀ c, c < 64 → reset1.requestIn c = none ∧ reset1.requestWaits c = false) ∧ reset1.ipfixCollectors = 0 ∧
    reset1.domOn 181 = true ∧ isPfSvc .pf0 = true ∧
    reset1.hostBlocked .pf0 = false := by decide +kernel

theorem wit_TelemetryAndCounters :
    let j : Job := { id := 1, sub := { opcode := 0x30, len := 64 } }
    let d := ({ reset1 with hif := { reset1.hif with jobs := [j] } } : Dev).wr F.TLM_STREAM_CFG_EN [0] 1
    let e := (d.wr F.TLM_STREAM_CFG_FLUSH_US [0] 5).setStream 0 { bufs := [{ job := 1, written := 32 }] }
    d.newJob 0 0x30 = some j ∧ d.on F.TLM_STREAM_CFG_EN [0] = true ∧ d.on F.TLM_STREAM_CFG_DEST [0] = false ∧
      d.rd F.TLM_STREAM_CFG_RING [0] = 0 ∧ (e.stream 0).bufs ≠ [] ∧ e.rd F.TLM_STREAM_CFG_FLUSH_US [0] ≠ 0 ∧
      (reset1.wr F.TLM_QS_CFG_EN [] 1).on F.TLM_QS_CFG_EN [] = true ∧ reset1.tlm.sweep = none ∧ hasWindow .pf0 = true ∧
      ({ reset1 with pmcWraps := [(3, 1)] }).pmcWraps = [(3, 1)] ∧ (devWith 0).pass 1 = some (passWith 0) ∧ (passWith 0).pipe = 0 ∧ pmcWriter .pf0 = true ∧ bitAt 1 0 = true ∧
      (let f := { reset1.wr F.PMC_SNAP_PERIOD_TICKS [] 1 with tlm := { reset1.tlm with snapTicks := 1 } }
       f.rd F.PMC_SNAP_PERIOD_TICKS [] ≠ 0 ∧ f.rd F.PMC_SNAP_PERIOD_TICKS [] ≤ f.tlm.snapTicks) ∧
      reset1.on F.MBX_LOCK_HELD [0] = false := by decide +kernel
theorem wit_TelemetryAndCounters_ipfix :
    ({ reset1.wr F.SVC_BOOT_STATE [] 3 with svc := { reset1.svc with ipfix := [0, 0, 0, 0, 1] } }).ipfixCollectors ≠ 0 := by
  decide +kernel

theorem wit_ReservedDoorbells : reset1.doorbellLive .pf0 = true ∧ reset1.doorbellReserved .pf0 3 0x44 = true ∧
    (withVfs reset1).doorbellLive (.vf 4) = true ∧ reset1.doorbellReserved (.vf 4) 0 0 = true ∧
    reset1.on F.GLB_BAD_ACCESS_VALID [] = false ∧ (3 * 4096 + 0x44) % 4 = 0 ∧ reset1.doorbellReserved .pf0 3 0x46 = true ∧
    (3 * 4096 + 0x46) % 4 ≠ 0 ∧ reset1.hasBar .pf0 .bar2 = true ∧ reset1.hostBlocked .pf0 = false := by decide +kernel

theorem wit_Doorbells :
    let d := ((reset1.wr F.RING_CTL_SQ_EN [3] 1).wr F.RING_SIZE_SQ_LOG2 [3] 4).wr F.RING_CTL_CQ_EN [3] 1
    d.doorbellGate .pf0 3 0 5 = (d, some 3) ∧ d.doorbellGate .pf0 3 0x40 5 = (d, some 3) ∧ d.on F.RING_CTL_OWNMODE [3] = false ∧
      reset1.masterOn .pf0 = true ∧ reset1.cqLive 3 = false ∧ d.cqLive 3 = true ∧ ringDiff 0 0 16 ≤ ringDiff 0 0 16 ∧ ringDiff 0 0 16 < ringDiff 5 0 16 ∧
      d.doorbellRing .pf0 (0x3040 / 4096) = some 3 ∧ d.on F.RING_CTL_SQ_EN [3] = true ∧ reset1.on F.RING_CTL_SQ_EN [3] = false ∧ ringDiff 5 0 16 ≤ 16 ∧ 16 < ringDiff 17 0 16 := by
  decide +kernel

theorem wit_SubmissionFetch :
    let d := (((reset1.wr F.RING_CTL_SQ_EN [3] 1).wr F.RING_SIZE_SQ_LOG2 [3] 4).wr F.HIF_STAT_LINK_UP [] 1).wr F.RING_POLL_INTERVAL [3] 1
    let d := ((d.wr F.RING_CTL_CQ_EN [3] 1).wr F.RING_CTL_CQ [3] 3).wr F.RING_SIZE_CQ_LOG2 [3] 4
    let d := { d with hif := { d.hif with busMaster := 1 } }
    let own := d.wr F.RING_CTL_OWNMODE [3] 1
    let bad := d.setRing 3 { phTry := 1 }
    (d.wr F.RING_SQ_PROD_INDEX [3] 1).canFetch 3 = true ∧ d.mayFetch 3 = true ∧ (d.ring 3).fetched.length < d.prefetch ∧
      d.rd F.RING_POLL_INTERVAL [3] ≠ 0 ∧ d.rd F.RING_SQ_PROD_INDEX [3] = d.rd F.RING_SQ_CONS_INDEX [3] ∧
      own.mayFetch 3 = true ∧ own.on F.RING_CTL_OWNMODE [3] = true ∧ (bad.ring 3).phTry ≠ 0 ∧ bad.mayRead 3 = true := by
  decide +kernel

theorem wit_JobsAndCompletions :
    let job := fun (op len : Nat) => ({ id := 1, sub := { opcode := op, len := len } } : Job)
    let d := fun (j : Job) =>
      (({ reset1 with hif := { reset1.hif with jobs := [j], busMaster := 1 } } : Dev).wr F.HIF_STAT_LINK_UP [] 1)
    (d (job 1 64)).newJob 0 1 = some (job 1 64) ∧ (d (job 1 64)).jobDma 1 = true ∧ (d (job 1 64)).domOn 128 = true ∧ (d (job 2 160)).newJob 0 2 = some (job 2 160) ∧
      (d (job 0x3F 0)).newJob 0 0x3F = some (job 0x3F 0) ∧
      (reset1.setRing 3 { hold := List.replicate 64 {} }).cqStalled 3 = true ∧
      (let e := ((reset1.wr F.RING_IRQ_EN [3] 1).wr F.RING_IRQ_TIMER_US [3] 1).setRing 3 { irqCount := 1 }
       e.on F.RING_IRQ_EN [3] = true ∧ e.rd F.RING_IRQ_TIMER_US [3] ≠ 0 ∧ (e.ring 3).irqCount ≠ 0) := by decide +kernel
theorem wit_JobsAndCompletions_rings :
    let d := (((reset1.wr F.RING_CTL_SQ_EN [3] 1).wr F.RING_CTL_CQ_EN [3] 1).wr F.HIF_STAT_LINK_UP [] 1)
    let d := { d with hif := { d.hif with busMaster := 1 } }
    let own := (d.wr F.RING_CTL_OWNMODE [3] 1).setRing 3 { hold := [{}] }
    (d.setRing 3 { fetched := [{ opcode := 0x3F }] }).nextRing = some 3 ∧ own.on F.RING_CTL_OWNMODE [3] = true ∧
      own.cqMay 3 true = true ∧ (own.ring 3).hold ≠ [] ∧
      (let free := own.setRing 3 {}
       free.cqMay 3 true = true ∧ (free.ring 3).hold = [] ∧ (free.ring 3).late = []) ∧
      (reset1.wr F.SVC_BOOT_STATE [] 3).coreRuns 2 = true ∧ reset1.injectRoom 0 = true ∧
      (reset1.wr F.GLB_PD_ON_ON [4] 0).domOn 128 = false := by decide +kernel
theorem wit_JobsAndCompletions_host :
    let p : Pkt := { uid := 2, kind := .hostCopy }
    let c : Copy := { uid := 3, pkt := 2, queue := intOf 0 0 }
    let d := ({ reset1 with dp := { reset1.dp with pkts := [p], copies := [c] } } : Dev)
    d.rxHead = some (0, c, p) ∧ d.rxTo p = .unmapped ∧ (d.wr F.HIF_TRAP_MAP_EN [0] 1).rxTo p = .ring 0 ∧
      (d.wr F.SVC_TRAP_SEL_SEL [0] 1).rxTo p = .core 0 := by decide +kernel

theorem wit_RingsEnd :
    let d := (reset1.wr F.RING_CTL_SQ_EN [3] 1).wr F.RING_CTL_CQ_EN [3] 1
    isPfSvc .pf0 = true ∧ d.hostBlocked .pf0 = false ∧ d.on F.RING_CTL_SQ_EN [3] = true ∧ d.on F.RING_CTL_CQ_EN [3] = true ∧
      (reset1.setRing 3 { stopSq := true }).sqQuiet 3 = true ∧ ((reset1.setRing 3 { stopCq := true }).ring 3).stopCq = true ∧
      (List.range 256).all (fun k => (reset1.setRing 3 { stopCq := true }).sqState k == 0) = true ∧ reset1.hif.perstHold = false := by
  decide +kernel

theorem wit_HostLink : (reset1.wr F.HIF_STAT_LINK_UP [] 1).on F.HIF_STAT_LINK_UP [] = true ∧ linkOk 16 6 true = true ∧ linkOk 16 6 false = false ∧ reset1.fnOn 0 = true ∧ (withVfs reset1).fnOn 31 = true ∧
    ({ reset1 with hif := { reset1.hif with perstLow := false } }).hif.perstLow = false ∧ reset1.domOn 180 = true ∧
    reset1.on F.HIF_STAT_LINK_UP [] = false := by decide +kernel

theorem wit_Mailboxes :
    let full := reset1.wr F.MBX_STAT_FULL [0] 1
    reset1.mbxDeaf .pf0 = false ∧ reset1.bindEn 0 = true ∧ reset1.mbxHeld 0 = false ∧ reset1.sender 0 = Master.pf0.mid ∧
      reset1.on F.MBX_STAT_FULL [0] = false ∧ full.on F.MBX_STAT_FULL [0] = true ∧ full.receiver 0 = (Master.svc 0).mid ∧
      full.mbxDeaf (.svc 0) = false ∧ full.rd F.MBX_STAT_SEQ [0] = (0 : BitVec 16).toNat ∧ full.rd F.MBX_CFG_TMO_US [0] ≠ 0 ∧
      (full.wr F.MBX_CFG_TMO_US [0] 0).rd F.MBX_CFG_TMO_US [0] = 0 ∧ reset1.bindEn 20 = false ∧
      reset1.on F.SVC_MBX_BIND_LOCK_LOCK [] = false ∧ reset1.sender 0 ≠ (7 : BitVec 8).toNat ∧ reset1.bindEn 0 ≠ false ∧ reset1.receiver 0 ≠ (7 : BitVec 8).toNat ∧
      reset1.raw R.SVC_MBX_BIND [0] = b2n true * 2 ^ 31 + (0 : BitVec 8).toNat * 2 ^ 8 + (0x40 : BitVec 8).toNat ∧
      (reset1.wr F.SVC_MBX_BIND_LOCK_LOCK [] 1).on F.SVC_MBX_BIND_LOCK_LOCK [] = true := by decide +kernel

theorem wit_Locks : reset1.mbxDeaf .pf0 = false ∧ reset1.mbxDeaf (.svc 3) = false ∧ reset1.on F.MBX_LOCK_HELD [4] = false ∧
    reset1.on F.MBX_LOCK_GRANTED [4] = false ∧
    (let d := (reset1.wr F.MBX_LOCK_HELD [4] 1).wr F.MBX_LOCK_OWNER [4] 0x51
     d.on F.MBX_LOCK_HELD [4] = true ∧ d.rd F.MBX_LOCK_OWNER [4] = Master.bmc.mid ∧
       d.rd F.MBX_LOCK_OWNER [4] ≠ Master.pf0.mid) := by decide +kernel

/-- A request for operation `op` of service `sv`, from PF0, with firmware running. -/
def requestOf (sv op : Nat) : Dev :=
  let d := (reset1.wr F.SVC_BOOT_STATE [] 3).wr F.MBX_STAT_FULL [0] 1
  (d.wr F.MBX_STAT_LEN [0] 2).wr F.MBX_DATA_DATA [0, 0] (sv * 2 ^ 24 + op * 2 ^ 16)
theorem wit_ServiceRequests :
    (requestOf 0 1).requestIn 0 = some (0x40, (requestOf 0 1).message 0) ∧ (requestOf 0 1).receiver 0 = 0x40 ∧
      ((requestOf 0 1).wr F.MBX_STAT_FULL [1] 1).requestIn 0 = none ∧ ((requestOf 0 1).wr F.MBX_STAT_FULL [1] 1).requestWaits 0 = true ∧
      (requestOf 0 1).rd F.SVC_BOOT_STATE [] ≠ 5 ∧ (requestOf 0 1).sender 0 = 0 ∧
      bitsOf (((requestOf 7 2).message 0).getD 0 0) 31 24 = 7 ∧ bitsOf (((requestOf 7 2).message 0).getD 0 0) 23 16 = 2 ∧
      msgByte ((requestOf 7 2).message 0) 4 ≤ 3 ∧ ((requestOf 7 2).message 0).length = 2 ∧
      (requestOf 6 1).serviceRuns 6 = true ∧ (requestOf 3 1).serviceRuns 3 = true ∧ (requestOf 0 16).safe = false ∧
      (requestOf 0 16).on F.ANL_SAG_INHIBIT [] = false ∧ (requestOf 7 3).ownedExtents = [] ∧
      ((requestOf 6 1).wr F.SVC_CTL_HALT [7] 1).serviceRuns 6 = false ∧ (requestOf 7 3).regionReach 2 0 64 = false ∧
      (requestOf 6 2).spl.flashLog = [] ∧ ([({} : FaultRec)].filter (fun r => !r.bad && leVal (r.bytes.drop 28) == crcCheck (r.bytes.take 28))) ≠ [] ∧ bitsOf (((requestOf 9 0).message 0).getD 0 0) 31 24 = 9 ∧
      ((requestOf 0 0).wr F.SVC_BOOT_STATE [] 5).mbxHeld 0 = false ∧
      (requestOf 0 0).on F.MBX_STAT_FULL [partner 0] = false := by decide +kernel
theorem wit_ServiceRequests_ipfix : ipfixOk ([0x03010000, 1, 60] ++ List.replicate 35 0) = true ∧
    ipfixOk (List.replicate 38 0) = false := by decide +kernel
/-- A request in a channel of another pair. -/
theorem wit_ServiceRequests_channel :
    let e := ((requestOf 0 1).wr F.MBX_STAT_FULL [2] 1).wr F.MBX_STAT_LEN [2] 1
    wrongChannel 2 = true ∧ e.requestIn 2 = some (0x41, e.message 2) := by decide +kernel

/-- Key and signature of a slot whose header has version 7, rollback index 3 and a length of 4, signed over the image 1, 2, 3, 4
outside the model, by the private key 12345. -/
def slotKey : List Byte :=
  [4, 232, 107, 153, 94, 53, 14, 77, 49, 42, 149, 166, 183, 213, 216, 205, 205, 180, 104, 47, 88, 136, 0, 161, 205, 108,
   151, 46, 29, 203, 42, 90, 195, 141, 144, 4, 105, 81, 176, 60, 203, 59, 23, 154, 137, 253, 168, 139, 27, 72, 91, 159,
   44, 31, 68, 176, 221, 65, 206, 110, 60, 58, 105, 11, 191, 170, 190, 193, 225, 255, 74, 239, 178, 70, 31, 221, 166, 98,
   155, 236, 189, 67, 207, 116, 193, 61, 140, 26, 22, 37, 97, 34, 67, 240, 4, 97, 72]
def slotSig : List Byte :=
  [163, 165, 21, 177, 86, 52, 128, 211, 99, 246, 219, 238, 183, 0, 204, 247, 139, 24, 80, 241, 35, 186, 25, 55, 157, 235,
   231, 252, 52, 24, 249, 243, 17, 95, 13, 131, 158, 248, 177, 185, 86, 76, 181, 163, 240, 54, 110, 134, 122, 154, 63,
   130, 114, 153, 226, 208, 24, 223, 113, 65, 84, 27, 186, 90, 174, 96, 14, 125, 16, 52, 26, 123, 41, 202, 220, 55, 33,
   135, 55, 157, 98, 73, 40, 70, 145, 226, 232, 253, 132, 137, 175, 100, 176, 61, 247, 159]
/-- The SHA-384 of that key as OTP holds it. -/
def slotKeyHash : List Nat :=
  [1983744299, 2910087908, 2087359706, 1908880318, 385014809, 576814873, 281207417, 3617903024, 2480875429, 2190544904,
   1683926600, 288271254]
/-- A slot of version v, with rollback index 3, a length of 4, and that key and signature. -/
def slotOf (v : Nat) : BootSlot :=
  let w := fun n => (List.range 4).map (fun i => BitVec.ofNat 8 (n / 256 ^ i))
  { header := w 0x41535031 ++ w 1 ++ w v ++ w 3 ++ w 4 ++ w 0 ++ List.replicate 104 0 ++ slotKey ++ List.replicate 7 0 ++ slotSig ++
      List.replicate 184 0
    image := .bytes [1, 2, 3, 4] }
/-- The ROM has that image in firmware memory, and the key hash in OTP. -/
def verifying : Dev :=
  let d := { reset1 with otp := { reset1.otp with key := slotKeyHash } }
  let d := { d with svc := { d.svc with bootLeft := [slotCand (slotOf 7) 0] } }
  (d.bootState 1).bootLoad (slotCand (slotOf 7) 0) [] (.bytes [1, 2, 3, 4])
theorem wit_CoresBootAndOtp :
    svcWriter .pf0 = true ∧ reset1.hostBlocked .pf0 = false ∧ reset1.rd F.SVC_BOOT_STATE [] = 0 ∧
      reset1.on F.RST_STAT_BOOT_HOLD [] = false ∧ reset1.domOn 182 = true ∧ reset1.otp.key = [] ∧ slotKeyHash ≠ [] ∧
      slotMagic (slotOf 5) = true ∧ slotMagic { header := [], image := .readError } = false ∧
      (reset1.wr F.SVC_BOOT_STATE [] 4).rd F.SVC_BOOT_STATE [] = 4 ∧ reset1.svc.linkCores.contains 1 = true ∧
      reset1.otp.locked = false ∧ (reset1.wr F.SVC_OTP_CTL_BUSY [] 1).on F.SVC_OTP_CTL_BUSY [] = true ∧
      reset1.svc.otpWait = false ∧ (reset1.wr F.SVC_BOOT_STATE [] 3).mayFlush = true ∧
      ({ reset1 with svc := { reset1.svc with handover := true } }).svc.handover = true := by decide +kernel
theorem wit_CoresBootAndOtp_order :
    (bootOrder (slotOf 5) (slotOf 6)).map (fun x => x.slot) = [1, 0] ∧
      (bootOrder (slotOf 5) (slotOf 5)).map (fun x => x.slot) = [0, 1] ∧
      (slotCand (slotOf 5) 0).length = 4 ∧ (slotCand (slotOf 5) 0).rollback = 3 ∧
      verifying.rd F.SVC_BOOT_STATE [] = 2 ∧ verifying.svc.bootLeft = [slotCand (slotOf 7) 0] ∧
      verifying.fwBytes 4 = [1, 2, 3, 4] := by decide +kernel
/-- The key hash, computed outside the model, is that of the slot. -/
theorem wit_CoresBootAndOtp_key : (slotCand (slotOf 7) 0).keyHash = verifying.otp.key := by decide +kernel
/-- The signature, made outside the model, verifies; not so for a header of another version. -/
theorem wit_CoresBootAndOtp_signature :
    (slotCand (slotOf 7) 0).verifies [1, 2, 3, 4] = true ∧ (slotCand (slotOf 6) 0).verifies [1, 2, 3, 4] = false := by
  decide +kernel

theorem wit_Faults :
    splWriter .pf0 = true ∧ reset1.hostBlocked .pf0 = false ∧ reset1.on F.RST_STAT_INIT_DONE [] = true ∧
      reset1.collectorLive 43 = true ∧ containedSource 2 = true ∧ bitAt (0x80000200 : BitVec 32).toNat 31 = true ∧
      (reset1.wr F.SPL_LATCH_VALID [43] 1).on F.SPL_LATCH_VALID [43] = true ∧
      (reset1.wr F.GLB_PD_ON_ON [5] 0).collectorLive 6 = false ∧
      (reset1.wr F.SPL_CFG_INJ_LOCK [] 1).on F.SPL_CFG_INJ_LOCK [] = true := by decide +kernel
theorem wit_Faults_latch : reset1.onC F.SPL_CFG_SORING_MODE [] = false ∧ (faultClass 43 2).isSome = true ∧ faultSev 43 2 = 2 ∧
    reset1.faultMasked 43 2 = false ∧ reset1.collectorBroken 43 = false ∧ reset1.on F.SPL_LATCH_VALID [43] = false ∧
    reset1.on F.HIF_EVQ_EN_FAULT [] = false ∧ faultHard 43 2 = false ∧ bitAt (reset1.rd F.SPL_MASK_MASK [43, 0]) 2 = false ∧
    reset1.recordRoom false = true ∧ (locate R.SPL_CTL.bar0).isSome = true ∧ (reset1.badWord R.SPL_CTL.bar0).spl.dead ≠ [] := by
  decide +kernel
/-- Soring mode with the severities of reset; a source that may be injected, and the event ring on. -/
theorem wit_Faults_soring :
    let d := (reset1.wrC F.SPL_CFG_SORING_MODE [] 1).wr F.HIF_EVQ_EN_FAULT [] 1
    d.onC F.SPL_CFG_SORING_MODE [] = true ∧ d.cm F.SPL_SEV_SEV [43, 0] / 4 ^ 2 % 4 = 2 ∧ d.faultNum 43 2 = 2 ∧
      d.on F.HIF_EVQ_EN_FAULT [] = true ∧ d.collectorBroken 43 = false ∧ d.on F.SPL_LATCH_VALID [43] = false ∧
      (reset1.plain R.SPL_INJ [43] 0x80000200 31 0).rd F.SPL_INJ_SOURCE [43] = 2 ∧ (faultClass 43 2).isSome = true ∧
      reset1.faultNum 43 2 ≠ 3 ∧ reset1.on F.SPL_CFG_INJ_LOCK [] = false ∧ reset1.on F.SPL_STAT_INJ_PEND [] = false ∧
      (reset1.spl.badCnt.contains 43 = false) := by decide +kernel

theorem wit_ResetKeyAndThermtrip : rstWriter .pf0 = true ∧ reset1.hostBlocked .pf0 = false ∧
    bitsOf (0x5B01 : BitVec 32).toNat 15 8 ≠ 0x5A ∧ bitsOf (0x5A01 : BitVec 32).toNat 15 8 = 0x5A ∧
    bitAt (0x5A01 : BitVec 32).toNat 0 = true ∧ bitAt (0x5A01 : BitVec 32).toNat 1 = false ∧
    bitAt (0x5A02 : BitVec 32).toNat 1 = true ∧
    ({ reset1 with rst := { reset1.rst with thermTrip := true } }).rst.thermTrip = true := by decide +kernel

theorem wit_ResetsBeginAndEnd :
    let held := fun l => ({ reset1 with rst := { reset1.rst with level := some l } } : Dev)
    (held .warm).rst.level = some .warm ∧ (held .powerOn).rst.level.isSome = true ∧ reset1.rst.thermTrip = false ∧
      (held .cold).domReq 182 = true ∧ (held .cold).rst.pdActive = none ∧ rstWriter .jtag = true ∧
      bitAt (0x5A02 : BitVec 32).toNat 1 = true ∧ bitsOf (0x5A02 : BitVec 32).toNat 15 8 = 0x5A ∧
      ({ reset1 with hif := { reset1.hif with perstLow := true } }).hif.perstLow = true ∧
      ({ reset1 with hif := { reset1.hif with perstLow := true, perstHold := true } }).hif.perstHold = true ∧
      (held .warm).spl.dead = [] ∧
      State.reset.dev.on F.RST_STAT_INIT_DONE [] = false ∧ State.reset.dev.rst.waiting = [] := by decide +kernel

theorem wit_BmcPort : reset1.mustWait reset1.bmc.addr = false ∧
    (let d := { reset1 with bmc := { reset1.bmc with addr := R.RST_CTL.bar0 } }
     (d.busWrite .bmc d.bmc.addr false 0x5A02).resets ≠ d.resets ∧ (d.busWrite .bmc d.bmc.addr false 0x0102).resets = d.resets) ∧
    ({ (Dev.wr {} F.RST_STAT_INIT_DONE [] 0) with bmc := { reset1.bmc with addr := R.SPL_CTL.bar0 } }).mustWait R.SPL_CTL.bar0 = true := by
  decide +kernel


end Sys2Proof.Machine
end

/-!
PROOFS of the statements of spec/00_scope.md: the register store, bad accesses, register accesses with their halves, staged
configuration, and doorbells. Each part gives the laws of the operations it speaks of first, then the statement.
-/

namespace Sys2Proof.Machine

/-! ## The register store (spec/00_scope.md R4 to R6, R13) -/

theorem bitAt_eq_testBit (v i : Nat) : bitAt v i = v.testBit i := Nat.testBit_eq_decide_div_mod_eq.symm

theorem Dev.raw_wr_of_key (d : Dev) (f : Fld) (r : Reg) (ix jx : List Nat) (v : Nat) (h : r.key jx ≠ f.reg.key ix) :
    (d.wr f ix v).raw r jx = d.raw r jx := d.raw_setRaw_of_key _ _ _ _ _ h

@[simp] theorem Dev.rawC_wr (d : Dev) (f : Fld) (ix : List Nat) (v : Nat) (r : Reg) (jx : List Nat) :
    (d.wr f ix v).rawC r jx = d.rawC r jx := rfl

/-- A counter narrower than 64 bits rises by one until it is all ones (R13). -/
theorem Dev.rd_inc_saturates (d : Dev) (f : Fld) (ix : List Nat) (hlo : f.lo ≤ f.hi) (hhi : f.hi < 64)
    (hw : f.hi + 1 - f.lo ≠ 64) : (d.inc f ix).rd f ix = min (2 ^ (f.hi + 1 - f.lo) - 1) (d.rd f ix + 1) := by
  have hlt := d.rd_lt f ix
  by_cases h : d.rd f ix + 1 < 2 ^ (f.hi + 1 - f.lo)
  · rw [d.rd_inc_self f ix hlo hhi hw h]
    omega
  · unfold Dev.inc Dev.addTo
    rw [if_neg hw, if_neg h, Dev.rd_wr_self _ _ _ _ hlo hhi, Nat.mod_eq_of_lt (by omega)]
    omega

/-- A counter of 64 bits wraps (R13). -/
theorem Dev.rd_inc_wraps (d : Dev) (f : Fld) (ix : List Nat) (hlo : f.lo ≤ f.hi) (hhi : f.hi < 64)
    (hw : f.hi + 1 - f.lo = 64) : (d.inc f ix).rd f ix = (d.rd f ix + 1) % 2 ^ 64 := by
  unfold Dev.inc Dev.addTo
  rw [if_pos hw, Dev.rd_wr_self _ _ _ _ hlo hhi, hw, Nat.mod_mod]

/-- Settles O6: reads after writes by the laws of the register store, the counters by the two cases of their width. -/
theorem registersReadBack : Obligations.RegistersReadBack := by
  unfold Obligations.RegistersReadBack
  intro d f ix v hhi hlo
  have hw : f.hi - f.lo + 1 = f.hi + 1 - f.lo := by omega
  rw [hw]
  exact ⟨d.rd_wr_self f ix v hlo hhi,
    fun g hg _ hd => d.rd_wr_field f g ix v hg hd hlo hhi,
    fun r jx h => d.raw_wr_of_key f r ix jx v h,
    fun r jx => d.rawC_wr f ix v r jx,
    fun h => d.rd_inc_saturates f ix hlo hhi (by omega),
    fun h => d.rd_inc_wraps f ix hlo hhi (by omega)⟩

/-! ## The device after reset (R418, R419) -/

/-- With nothing stored a register reads its reset value. -/
theorem State.raw_reset (r : Reg) (ix : List Nat) : State.reset.dev.raw r ix = r.resetAt (flatIndex r.dims ix 0) % 2 ^ 64 :=
  BitVec.toNat_ofNat _ _

/-- LINK_UP resets to 0 at every port (R62). -/
theorem State.linkUp_reset (p : Nat) : State.reset.dev.linkUp p = false := by
  have hr : State.reset.dev.raw R.PCS_PORT_STAT (pix p) = 0x4000 := by
    rw [State.raw_reset]
    simp [Reg.resetAt, R.PCS_PORT_STAT, Rst.at, setBitsOf]
  simp [Dev.linkUp, Dev.on, Dev.rd, F.PCS_PORT_STAT_LINK_UP, hr, bitsOf]

/-- Settles O5: the state after reset stores nothing, so that its parts are their defaults and its registers read as reset. -/
theorem afterReset : Obligations.AfterReset := by
  unfold Obligations.AfterReset
  exact ⟨rfl, rfl, rfl, State.raw_reset, rfl, rfl, rfl, rfl, rfl, rfl, State.linkUp_reset, rfl⟩

/-! ## Bad accesses (spec/00_scope.md R17, R20) -/

/-- A bad access changes no register but GLB_BAD_ACCESS. -/
theorem Dev.raw_badAccess_of_key (d : Dev) (b k mid off : Nat) (r : Reg) (ix : List Nat)
    (h : r.key ix ≠ R.GLB_BAD_ACCESS.key []) : (d.badAccess b k mid off).raw r ix = d.raw r ix := by
  have keep : ∀ (e : Dev) (f : Fld) (v : Nat), f.reg = R.GLB_BAD_ACCESS → (e.wr f [] v).raw r ix = e.raw r ix :=
    fun e f v hf => e.raw_wr_of_key f r [] ix v (hf ▸ h)
  unfold Dev.badAccess
  split
  · obtain ⟨v, hv⟩ := (d.wr F.GLB_BAD_ACCESS_OVF [] 1).addTo_eq F.GLB_BAD_ACCESS_COUNT [] 1
    rw [Dev.inc, hv, keep _ _ _ rfl, keep _ _ _ rfl]
  · dsimp only
    iterate 6 rw [keep _ _ _ rfl]
    rw [Dev.raw_setRaw_of_key _ _ _ _ _ _ h]

@[simp] theorem Dev.badAccess_hif (d : Dev) (b k mid off : Nat) : (d.badAccess b k mid off).hif = d.hif := by
  unfold Dev.badAccess
  split
  · rw [Dev.inc_hif, Dev.wr_hif]
  · dsimp only
    iterate 6 rw [Dev.wr_hif]
    rw [Dev.setRaw_hif]

/-- What GLB_BAD_ACCESS holds of the bad access that it has recorded (R17). -/
structure BadRecord (e : Dev) (b kind mid off : Nat) : Prop where
  valid : e.on F.GLB_BAD_ACCESS_VALID [] = true
  ovf : e.on F.GLB_BAD_ACCESS_OVF [] = false
  bar : e.rd F.GLB_BAD_ACCESS_BAR [] = b
  kind : e.rd F.GLB_BAD_ACCESS_KIND [] = kind
  mid : e.rd F.GLB_BAD_ACCESS_MID [] = mid
  count : e.rd F.GLB_BAD_ACCESS_COUNT [] = 1
  offset : e.rd F.GLB_BAD_ACCESS_OFFSET [] = off

/-- The first bad access is recorded whole. -/
theorem Dev.badAccess_first (d : Dev) (b kind mid off : Nat) (hv : d.on F.GLB_BAD_ACCESS_VALID [] = false)
    (hb : b < 4) (hk : kind < 16) (hm : mid < 256) (ho : off < 2 ^ 26) : BadRecord (d.badAccess b kind mid off) b kind mid off := by
  have hc : (d.setRaw R.GLB_BAD_ACCESS [] 0).rd F.GLB_BAD_ACCESS_OVF [] = 0 := by
    rw [Dev.rd, show F.GLB_BAD_ACCESS_OVF.reg = R.GLB_BAD_ACCESS from rfl, Dev.raw_setRaw_self]
    exact bitsOf_zero _ _
  rw [Dev.badAccess, if_neg (by simp [hv])]
  constructor <;>
    simp_all [Dev.on, F.GLB_BAD_ACCESS_VALID, F.GLB_BAD_ACCESS_OVF, F.GLB_BAD_ACCESS_BAR, F.GLB_BAD_ACCESS_KIND,
      F.GLB_BAD_ACCESS_MID, F.GLB_BAD_ACCESS_COUNT, F.GLB_BAD_ACCESS_OFFSET, Dev.rd_wr_self, Dev.rd_wr_field]

/-- A later one sets OVF and is counted. -/
theorem Dev.badAccess_later (d : Dev) (b kind mid off : Nat) (hv : d.on F.GLB_BAD_ACCESS_VALID [] = true) :
    d.badAccess b kind mid off = (d.wr F.GLB_BAD_ACCESS_OVF [] 1).inc F.GLB_BAD_ACCESS_COUNT [] := by
  rw [Dev.badAccess, if_pos hv]

/-- The fields that a later bad access shows: it stays recorded, counted up to 0xFFFF, at the first one's offset. -/
theorem Dev.badAccess_later_fields (d : Dev) (b kind mid off : Nat) (hv : d.on F.GLB_BAD_ACCESS_VALID [] = true) :
    let e := d.badAccess b kind mid off
    e.on F.GLB_BAD_ACCESS_VALID [] = true ∧ e.on F.GLB_BAD_ACCESS_OVF [] = true ∧
      e.rd F.GLB_BAD_ACCESS_COUNT [] = min 0xFFFF (d.rd F.GLB_BAD_ACCESS_COUNT [] + 1) ∧
      e.rd F.GLB_BAD_ACCESS_OFFSET [] = d.rd F.GLB_BAD_ACCESS_OFFSET [] := by
  rw [Dev.badAccess_later _ _ _ _ _ hv]
  have hcount := (d.wr F.GLB_BAD_ACCESS_OVF [] 1).rd_inc_saturates F.GLB_BAD_ACCESS_COUNT [] (by decide) (by decide) (by decide)
  have hovf : (d.wr F.GLB_BAD_ACCESS_OVF [] 1).rd F.GLB_BAD_ACCESS_COUNT [] = d.rd F.GLB_BAD_ACCESS_COUNT [] :=
    d.rd_wr_field _ _ _ _ rfl (by decide) (by decide) (by decide)
  obtain ⟨v, hinc⟩ := (d.wr F.GLB_BAD_ACCESS_OVF [] 1).addTo_eq F.GLB_BAD_ACCESS_COUNT [] 1
  refine ⟨?_, ?_, by rw [hcount, hovf]; rfl, ?_⟩ <;> rw [Dev.inc, hinc] <;>
    simp_all [Dev.on, F.GLB_BAD_ACCESS_VALID, F.GLB_BAD_ACCESS_OVF, F.GLB_BAD_ACCESS_COUNT, F.GLB_BAD_ACCESS_OFFSET,
      Dev.rd_wr_self, Dev.rd_wr_field]

/-! ## Commands on a device that no reset holds -/

/-- A command that lifts an effect runs to what the effect leaves. -/
theorem Runs.of_run {c : Instr} {s : State} {f : Dev → Dev} {d : Dev} (hl : Live s) (hc : exec c s = s.run f)
    (hd : f s.dev = d) : Runs c s d := by
  rw [Runs, hc, State.run_live s f hl.1, hd]

/-! ## Where an access falls -/

/-- The high half of an aligned 8-byte access lies in the window. -/
theorem highHalf_lt {off : BitVec 26} (h : off.toNat % 8 = 0) : off.toNat + 4 < 2 ^ 26 := by
  have := off.isLt
  omega

theorem inWide_eq {off : Nat} {p : Spot} {high : Bool} (ha : off % 4 = 0) (hp : locate off = some p) :
    inWide off high = (p.reg.wide && p.high == high) := by
  simp [inWide, ha, hp]

theorem inNarrow_eq {off : Nat} {p : Spot} (ha : off % 4 = 0) (hp : locate off = some p) : inNarrow off = !p.reg.wide := by
  simp [inNarrow, ha, hp]

/-! ## Writes of one master (R10, R11) -/

section Writes

variable {d : Dev} {m : Master} {off v : Nat} {p : Spot}

theorem Dev.write32_reserved (h : locate off = none) (ho : off < 2 ^ 26) : d.write32 m off v = d.badAccess 0 2 m.mid off := by
  simp only [Dev.write32, h]
  rw [Nat.mod_eq_of_lt ho]

theorem Dev.write32_narrow (h : locate off = some p) (ha : d.mbxAway off = false) (hw : p.reg.wide = false) :
    d.write32 m off v = d.writeReg m p.reg p.ix v 31 0 := by
  simp [Dev.write32, h, ha, hw]

theorem Dev.write32_low (h : locate off = some p) (ha : d.mbxAway off = false) (hw : p.reg.wide = true)
    (hr : d.reaches m p.reg p.ix = true) (hh : p.high = false) :
    let e := d.dropOthers m.mid (p.reg.at_ p.ix)
    d.write32 m off v = { e with holds := Sparse.put e.holds m.mid (some (p.reg.at_ p.ix, v)) } := by
  simp [Dev.write32, h, ha, hw, hr, hh]

theorem Dev.write32_high_held {low : Nat} (h : locate off = some p) (ha : d.mbxAway off = false) (hw : p.reg.wide = true)
    (hr : d.reaches m p.reg p.ix = true) (hh : p.high = true)
    (hk : Sparse.get (0, 0) (d.dropOthers m.mid (p.reg.at_ p.ix)).holds m.mid = (p.reg.at_ p.ix, low)) :
    let e := d.dropOthers m.mid (p.reg.at_ p.ix)
    d.write32 m off v = { e with holds := Sparse.put e.holds m.mid none }.writeReg m p.reg p.ix (v * 2 ^ 32 + low) 63 0 := by
  simp [Dev.write32, h, ha, hw, hr, hh, hk]

theorem Dev.write32_high_alone (h : locate off = some p) (ha : d.mbxAway off = false) (hw : p.reg.wide = true)
    (hr : d.reaches m p.reg p.ix = true) (hh : p.high = true)
    (hk : (Sparse.get (0, 0) (d.dropOthers m.mid (p.reg.at_ p.ix)).holds m.mid).1 ≠ p.reg.at_ p.ix) :
    d.write32 m off v = (d.dropOthers m.mid (p.reg.at_ p.ix)).writeReg m p.reg p.ix (v * 2 ^ 32) 63 32 := by
  simp [Dev.write32, h, ha, hw, hr, hh, hk]

theorem Dev.write64_wide (h : locate off = some p) (ha : d.mbxAway off = false) (hw : p.reg.wide = true)
    (hr : d.reaches m p.reg p.ix = true) (hh : p.high = false) :
    d.write64 m off v = (d.dropOthers m.mid (p.reg.at_ p.ix)).writeReg m p.reg p.ix v 63 0 := by
  simp [Dev.write64, h, ha, hw, hr, hh]

theorem Dev.write64_reserved (h : locate off = none) :
    d.write64 m off v = (d.write32 m off (v % 2 ^ 32)).write32 m (off + 4) (v / 2 ^ 32) := by
  simp [Dev.write64, h]

end Writes

/-! ## Reads of one master (R10, R11) -/

section Reads

variable {d : Dev} {m : Master} {off : Nat} {p : Spot}

theorem Dev.read32_reserved (h : locate off = none) (ho : off < 2 ^ 26) : d.read32 m off = (d.badAccess 0 1 m.mid off, 0) := by
  simp only [Dev.read32, h]
  rw [Nat.mod_eq_of_lt ho]

theorem Dev.read32_narrow (h : locate off = some p) (ha : d.mbxAway off = false) (hw : p.reg.wide = false) :
    d.read32 m off = d.readReg m p.reg p.ix true := by
  simp [Dev.read32, h, ha, hw]

theorem Dev.read32_low (h : locate off = some p) (ha : d.mbxAway off = false) (hw : p.reg.wide = true) (hh : p.high = false) :
    let a := d.readReg m p.reg p.ix true
    d.read32 m off = ({ a.1 with latches := Sparse.put a.1.latches m.mid (some (p.reg.at_ p.ix, a.2 / 2 ^ 32)) }, a.2 % 2 ^ 32) := by
  simp [Dev.read32, h, ha, hw, hh]

theorem Dev.read32_high_latched {v : Nat} (h : locate off = some p) (ha : d.mbxAway off = false) (hw : p.reg.wide = true)
    (hh : p.high = true) (hk : Sparse.get (0, 0) d.latches m.mid = (p.reg.at_ p.ix, v)) :
    d.read32 m off = ({ d with latches := Sparse.put d.latches m.mid none }, v) := by
  simp [Dev.read32, h, ha, hw, hh, hk]

theorem Dev.read32_high_live (h : locate off = some p) (ha : d.mbxAway off = false) (hw : p.reg.wide = true)
    (hh : p.high = true) (hk : (Sparse.get (0, 0) d.latches m.mid).1 ≠ p.reg.at_ p.ix) :
    let a := d.readReg m p.reg p.ix false
    d.read32 m off = (a.1, a.2 / 2 ^ 32) := by
  simp [Dev.read32, h, ha, hw, hh, hk]

theorem Dev.read64_wide (h : locate off = some p) (ha : d.mbxAway off = false) (hw : p.reg.wide = true) (hh : p.high = false) :
    d.read64 m off = d.readReg m p.reg p.ix true := by
  simp [Dev.read64, h, ha, hw, hh]

/-- An 8-byte read whose low half is no 64-bit register reads its halves one after the other. -/
theorem Dev.read64_halves (h : ∀ p, locate off = some p → p.reg.wide = false) :
    let lo := d.read32 m off
    let hi := lo.1.read32 m (off + 4)
    d.read64 m off = (hi.1, hi.2 % 2 ^ 32 * 2 ^ 32 + lo.2 % 2 ^ 32) := by
  unfold Dev.read64
  cases hp : locate off with
  | none => rfl
  | some p => simp [h p hp]

end Reads

/-! ## Accesses taken at once (R9, R360, R420) -/

/-- An access of `m` at `off` is taken at once, and its master has a window and is not the TAP: the hypotheses of the statements
about register accesses. -/
structure Served (s : State) (m : Master) (off : Nat) : Prop where
  takes : Takes s m off
  notTap : m ≠ .jtag
  window : hasWindow m = true

section Served

variable {s : State} {m : Master} {off : Nat}

theorem Served.busWrite (h : Served s m off) (wide : Bool) (v : Nat) :
    s.dev.busWrite m off wide v = if wide then s.dev.write64 m off v else s.dev.write32 m off v := by
  obtain ⟨⟨hb, hw⟩, hj, hm⟩ := h
  simp [Dev.busWrite, Dev.tap, hj, hm, hb, hw]

theorem Served.busRead (h : Served s m off) (wide : Bool) :
    let a := if wide then s.dev.read64 m off else s.dev.read32 m off
    s.dev.busRead m off wide = a.1.emit (readAnswer m off wide a.2) := by
  obtain ⟨⟨hb, hw⟩, hj, hm⟩ := h
  simp [Dev.busRead, Dev.tap, hj, hm, hb, hw]

end Served

/-- An access of one part, alone in its clock, is served as it stands (R9). -/
theorem Dev.arbiter_single (d : Dev) (a : BusAccess) (hw : d.mustWait a.off.toNat = false) (hs : splits a = false) :
    d.arbiter [a] = d.busAccess a := by
  simp [Dev.arbiter, List.partition, List.partition.loop, hw, accessParts, hs, arbiterPut, servePart, completeWide]

/-- An access of 4 bytes, or of 8 to a 64-bit register, has one part (R11). -/
theorem splits_eq_false {a : BusAccess} {p : Spot} (hp : locate a.off.toNat = some p) (h : a.wide = true → p.reg.wide = true) :
    splits a = false := by
  cases hw : a.wide <;> simp_all [splits]

theorem mid_lt (m : Master) : m.mid < 256 := by
  cases m <;> simp only [Master.mid] <;> omega

/-! ## RESERVED_OFFSET_ACCESS, BAD_SIZE_ACCESS, BAR4_WRITE -/

theorem runs_reservedWrite {s : State} {m : Master} {off : BitVec 26} (hl : Live s) (h : Served s m off.toNat)
    (ha : off.toNat % 4 = 0) (hn : locate off.toNat = none) :
    Runs (.reservedOffsetAccess m off true false) s (s.dev.badAccess 0 2 m.mid off.toNat) := by
  refine Runs.of_run hl rfl ?_
  simp [ha, hn, h.busWrite, Dev.write32_reserved hn off.isLt]

theorem runs_reservedRead {s : State} {m : Master} {off : BitVec 26} (hl : Live s) (h : Served s m off.toNat)
    (ha : off.toNat % 4 = 0) (hn : locate off.toNat = none) :
    Runs (.reservedOffsetAccess m off false false) s
      ((s.dev.badAccess 0 1 m.mid off.toNat).emit (.readData m.mid off.toNat 0)) := by
  refine Runs.of_run hl rfl ?_
  simp [ha, hn, h.busRead, Dev.read32_reserved hn off.isLt, readAnswer]

theorem runs_reservedWriteWide {s : State} {m : Master} {off : BitVec 26} (hl : Live s) (h : Served s m off.toNat)
    (ha : off.toNat % 8 = 0) (hn : locate off.toNat = none) (hn4 : locate (off.toNat + 4) = none) :
    Runs (.reservedOffsetAccess m off true true) s
      ((s.dev.badAccess 0 2 m.mid off.toNat).badAccess 0 2 m.mid (off.toNat + 4)) := by
  refine Runs.of_run hl rfl ?_
  simp only [ha, hn, hn4, h.busWrite, and_self, if_true, Dev.write64_reserved hn, Dev.write32_reserved hn off.isLt,
    Dev.write32_reserved hn4 (highHalf_lt ha)]

/-- An 8-byte read at an aligned offset of no 64-bit register, one half of it reserved, answers both halves. -/
theorem runs_reservedReadWide {s : State} {m : Master} {off : BitVec 26} (hl : Live s) (h : Served s m off.toNat)
    (ha : off.toNat % 8 = 0) (hn : locate off.toNat = none ∨ locate (off.toNat + 4) = none)
    (hp : ∀ p, locate off.toNat = some p → p.reg.wide = false) {lo hi : Dev × Nat} (hlo : s.dev.read32 m off.toNat = lo)
    (hhi : lo.1.read32 m (off.toNat + 4) = hi) :
    Runs (.reservedOffsetAccess m off false true) s
      (hi.1.emit (.readWide m.mid off.toNat (hi.2 % 2 ^ 32 * 2 ^ 32 + lo.2 % 2 ^ 32))) := by
  subst hlo hhi
  refine Runs.of_run hl rfl ?_
  simp only [ha, hn, h.busRead, Dev.read64_halves hp, readAnswer, and_self, if_true, if_false, Bool.false_eq_true]

theorem runs_badSizeAccess {s : State} {m : Master} {b : Bar} {off : BitVec 26} {w : Bool} (hl : Live s)
    (hb : s.dev.hasBar m b = true) (hh : s.dev.hostBlocked m = false) :
    Runs (.badSizeAccess m b off w) s
      ((s.dev.badAccess b.num 3 m.mid off.toNat).emit (.unsupported m.mid b.num off.toNat)) :=
  Runs.of_run hl rfl (by simp [hb, hh, Dev.badSize])

theorem runs_bar4Write {s : State} {m : Master} {off : BitVec 16} (hl : Live s) (hb : s.dev.hasBar m .bar4 = true)
    (hh : s.dev.hostBlocked m = false) : Runs (.bar4Write m off) s (s.dev.badAccess 2 5 m.mid off.toNat) :=
  Runs.of_run hl rfl (by simp [hb, hh])

/-- Settles O9: what each command does by where its halves fall, what GLB_BAD_ACCESS holds by whether it is VALID. -/
theorem badAccesses : Obligations.BadAccesses := by
  unfold Obligations.BadAccesses
  refine ⟨?reserved, ?lowRegister, ?badSize, ?bar4, ?record⟩
  case reserved =>
    intro s m off hl ht hj hw ha hn
    have h : Served s m off.toNat := ⟨ht, hj, hw⟩
    have hlo := Dev.read32_reserved (d := s.dev) (m := m) hn off.isLt
    have hp : ∀ p, locate off.toNat = some p → p.reg.wide = false := by simp [hn]
    refine ⟨runs_reservedWrite hl h ha hn, runs_reservedRead hl h ha hn, fun h8 hn4 => ⟨runs_reservedWriteWide hl h h8 hn hn4, ?_⟩,
      fun p h8 hp4 hnar haway => ?_⟩
    · simpa using runs_reservedReadWide hl h h8 (.inl hn) hp hlo (Dev.read32_reserved hn4 (highHalf_lt h8))
    · simpa using runs_reservedReadWide hl h h8 (.inl hn) hp hlo (Dev.read32_narrow hp4 haway hnar)
  case lowRegister =>
    intro s m off p hl ht hj hw h8 hp hnar haway hn4
    have hq : ∀ q, locate off.toNat = some q → q.reg.wide = false := by
      intro q hq
      rw [hp] at hq
      exact Option.some.inj hq ▸ hnar
    simpa using runs_reservedReadWide hl ⟨ht, hj, hw⟩ h8 (.inr hn4) hq (Dev.read32_narrow hp haway hnar)
      (Dev.read32_reserved hn4 (highHalf_lt h8))
  case badSize =>
    intro s m b off w hl hb hh
    exact runs_badSizeAccess hl hb hh
  case bar4 =>
    intro s m off hl hb hh
    exact runs_bar4Write hl hb hh
  case record =>
    intro d b kind mid off hb hk hm ho
    refine ⟨fun hv => ?_, fun hv => d.badAccess_later_fields b kind mid off hv,
      fun r ix hr => d.raw_badAccess_of_key b kind mid off r ix hr⟩
    obtain ⟨valid, ovf, bar, kind, mid, count, offset⟩ := d.badAccess_first b kind mid off hv hb hk hm ho
    exact ⟨valid, ovf, bar, kind, mid, count, offset⟩

/-! ## RESERVED_DOORBELL -/

/-- Settles O47: by the alignment of the access; the record is that of any bad access. -/
theorem reservedDoorbells : Obligations.ReservedDoorbells := by
  unfold Obligations.ReservedDoorbells
  intro s m page off hl hlive hres a
  have hrecord : a < 2 ^ 26 := by
    have := page.isLt
    have := off.isLt
    omega
  refine ⟨fun ha hb hh w => Runs.of_run hl rfl (by simp [a, ha, hb, hh]), fun ha => ⟨?_, ?_⟩, s.dev.badAccess_hif 1 6 m.mid a, ?_, ?_⟩
  · exact Runs.of_run hl rfl (by simp [a, ha, hlive, hres, Dev.doorbellHigh])
  · exact Runs.of_run hl rfl (by simp [a, ha, hlive, hres, Dev.doorbellHigh])
  · intro r ix hw hid
    refine s.dev.raw_badAccess_of_key 1 6 m.mid a r ix (Reg.key_ne ix [] (.inl ?_) hid (by decide))
    rw [hw]
    decide
  · intro hv k hk e
    have hk16 : k < 16 := by
      simp only [List.mem_cons, List.not_mem_nil, or_false] at hk
      omega
    obtain ⟨valid, _, bar, kind, mid, _, offset⟩ := s.dev.badAccess_first 1 k m.mid a hv (by decide) hk16 (mid_lt m) hrecord
    exact ⟨valid, kind, bar, offset, mid⟩

/-! ## Fields put one after the other -/

/-- The fields of a list put into a word, each with its value. -/
def putFields (l : List Field) (g : Field → Nat) (a : Nat) : Nat := l.foldl (fun a f => setBitsOf a f.hi f.lo (g f)) a

/-- Bits that no field covers stay. -/
theorem testBit_putFields_other (l : List Field) (g : Field → Nat) (a i : Nat) (hle : ∀ x ∈ l, x.lo ≤ x.hi)
    (hi : ∀ x ∈ l, ¬ (x.lo ≤ i ∧ i ≤ x.hi)) : (putFields l g a).testBit i = a.testBit i := by
  induction l generalizing a with
  | nil => rfl
  | cons x t ih =>
    rw [putFields, List.foldl_cons]
    refine (ih _ (fun y hy => hle y (.tail _ hy)) (fun y hy => hi y (.tail _ hy))).trans ?_
    rw [testBit_setBitsOf _ _ _ _ _ (hle x (.head _)), if_neg (hi x (.head _))]

/-- A bit of a field that no other field covers is that of the field's value. -/
theorem testBit_putFields_self (l : List Field) (g : Field → Nat) (a i : Nat) {f : Field} (hf : f ∈ l)
    (hle : ∀ x ∈ l, x.lo ≤ x.hi) (hlo : f.lo ≤ i) (hhi : i ≤ f.hi) (hd : ∀ x ∈ l, f = x ∨ f.hi < x.lo ∨ x.hi < f.lo) :
    (putFields l g a).testBit i = (g f).testBit (i - f.lo) := by
  induction l generalizing a with
  | nil => cases hf
  | cons x t ih =>
    rw [putFields, List.foldl_cons]
    have hlet : ∀ y ∈ t, y.lo ≤ y.hi := fun y hy => hle y (.tail _ hy)
    have hdt : ∀ y ∈ t, f = y ∨ f.hi < y.lo ∨ y.hi < f.lo := fun y hy => hd y (.tail _ hy)
    by_cases ht : f ∈ t
    · exact ih _ ht hlet hdt
    · have hx : f = x := (List.mem_cons.1 hf).resolve_right ht
      refine (testBit_putFields_other t g _ i hlet fun y hy hc => ?_).trans ?_
      · rcases hdt y hy with rfl | h | h
        · exact ht hy
        · omega
        · omega
      · rw [← hx, testBit_setBitsOf _ _ _ _ _ (hx ▸ hle x (.head _)), if_pos ⟨hlo, hhi⟩]

/-! ## What a write leaves in a field (R6) -/

/-- The bit that a write of bits [hi:lo] of `v` shows a field, 0 where it does not reach. -/
theorem testBit_writtenBits (v hi lo fhi flo j : Nat) :
    (bitsOf (bitsOf v hi lo * 2 ^ lo) fhi flo).testBit j =
      (decide (j < fhi + 1 - flo) && ((decide (lo ≤ flo + j) && decide (flo + j < hi + 1)) && v.testBit (flo + j))) := by
  rw [testBit_bitsOf, Nat.testBit_mul_two_pow, testBit_bitsOf]
  by_cases h : lo ≤ flo + j
  · have : lo + (flo + j - lo) = flo + j := by omega
    have hlt : flo + j - lo < hi + 1 - lo ↔ flo + j < hi + 1 := by omega
    simp [h, this, hlt]
  · simp [h]

/-- A word less the bits that it shares with `s`, as writing 1 clears them. -/
theorem testBit_sub_land (o s j : Nat) : (o - Nat.land o s).testBit j = (o.testBit j && !s.testBit j) := by
  change (o - (o &&& s)).testBit j = _
  have hle : ∀ a b : Nat, a &&& b ≤ a := fun _ _ => Nat.and_le_left
  have hbit : ∀ a b : Nat, (a &&& b) % 2 = 1 ↔ a % 2 = 1 ∧ b % 2 = 1 := fun _ _ => Nat.and_mod_two_eq_one
  induction j generalizing o s with
  | zero =>
    have hodd : (o - (o &&& s)) % 2 = 1 ↔ o % 2 = 1 ∧ ¬ s % 2 = 1 := by
      have := hle o s
      have := hbit o s
      omega
    rw [Nat.testBit_zero, Nat.testBit_zero, Nat.testBit_zero, decide_eq_decide.2 hodd, Bool.decide_and, decide_not]
  | succ j ih =>
    have hhalf : (o - (o &&& s)) / 2 = o / 2 - (o / 2 &&& s / 2) := by
      have := hle o s
      have := hbit o s
      have : (o &&& s) / 2 = o / 2 &&& s / 2 := Nat.and_div_two
      omega
    rw [Nat.testBit_succ, hhalf, ih, Nat.testBit_succ, Nat.testBit_succ]

/-- A bit of a field after a write of bits [hi:lo] of `v`, by the field's access type. -/
theorem testBit_fieldWritten (f : Field) (old v hi lo i : Nat) (hlohi : lo ≤ hi) (hlo : f.lo ≤ i) (hhi : i ≤ f.hi) :
    (f.written old v hi lo).testBit (i - f.lo) =
      match f.acc with
      | .rw | .rws | .rwl => if decide (lo ≤ i) && decide (i ≤ hi) then v.testBit i else old.testBit i
      | .w1c => old.testBit i && !((decide (lo ≤ i) && decide (i ≤ hi)) && v.testBit i)
      | .w1s => old.testBit i || ((decide (lo ≤ i) && decide (i ≤ hi)) && v.testBit i)
      | .ro | .rc | .wo => old.testBit i := by
  have hi' : i - f.lo < f.hi + 1 - f.lo := by omega
  have heq : f.lo + (i - f.lo) = i := by omega
  have hold : (bitsOf old f.hi f.lo).testBit (i - f.lo) = old.testBit i := by
    rw [testBit_bitsOf, heq]
    simp [hi']
  have hshown := testBit_writtenBits v hi lo f.hi f.lo (i - f.lo)
  rw [heq] at hshown
  have hput : (bitsOf (setBitsOf old hi lo (bitsOf v hi lo)) f.hi f.lo).testBit (i - f.lo) =
      if decide (lo ≤ i) && decide (i ≤ hi) then v.testBit i else old.testBit i := by
    rw [testBit_bitsOf, heq, testBit_setBitsOf _ _ _ _ _ hlohi, testBit_bitsOf]
    by_cases h : lo ≤ i ∧ i ≤ hi
    · simp [h, hi', show i - lo < hi + 1 - lo by omega]
    · simp [h, hi']
  unfold Field.written
  cases f.acc
  case rw => exact hput
  case rws => exact hput
  case rwl => exact hput
  case ro => exact hold
  case rc => exact hold
  case wo => exact hold
  case w1c =>
    simp only [testBit_sub_land, hold, hshown]
    simp [hi']
  case w1s =>
    change (bitsOf old f.hi f.lo ||| _).testBit _ = _
    simp only [Nat.testBit_or, hold, hshown]
    simp [hi']

theorem Reg.written_eq (r : Reg) (old v hi lo : Nat) :
    r.written old v hi lo = putFields r.fields (fun f => f.written old v hi lo) 0 := rfl

/-! ## Clearing the RC fields of a register (R6) -/

theorem Dev.raw_clearRc (d : Dev) (r : Reg) (ix : List Nat) :
    (d.clearRc r ix).raw r ix = putFields (r.fields.filter (fun f => f.acc == .rc)) (fun _ => 0) (d.raw r ix) % 2 ^ 64 := by
  unfold Dev.clearRc
  split
  · rw [Dev.raw_setRaw_self, putFields, List.foldl_filter]
  · rename_i h
    have : r.fields.filter (fun f => f.acc == .rc) = [] := by
      simpa [List.filter_eq_nil_iff] using h
    rw [this, putFields, List.foldl_nil, Nat.mod_eq_of_lt (d.raw_lt r ix)]

theorem Dev.raw_clearRc_of_key (d : Dev) (r q : Reg) (ix jx : List Nat) (h : q.key jx ≠ r.key ix) :
    (d.clearRc r ix).raw q jx = d.raw q jx := by
  unfold Dev.clearRc
  split
  · exact d.raw_setRaw_of_key _ _ _ _ _ h
  · rfl

section ClearRc

variable {r : Reg} {f : Field} (d : Dev) (ix : List Nat) (hf : f ∈ r.fields)
  (hle : ∀ g ∈ r.fields, g.hi < 64 ∧ g.lo ≤ g.hi) (hd : ∀ g ∈ r.fields, f = g ∨ f.hi < g.lo ∨ g.hi < f.lo)

include hf hle hd

/-- An RC field of a register whose fields do not overlap is cleared. -/
theorem Dev.bits_clearRc_rc (hrc : f.acc = .rc) : bitsOf ((d.clearRc r ix).raw r ix) f.hi f.lo = 0 := by
  refine Nat.eq_of_testBit_eq fun i => ?_
  rw [testBit_bitsOf, Dev.raw_clearRc, Nat.testBit_mod_two_pow, Nat.zero_testBit]
  by_cases hi : i < f.hi + 1 - f.lo
  · rw [testBit_putFields_self _ _ _ (f.lo + i) (f := f) (by simp [hf, hrc]) (fun x hx => (hle x (List.mem_of_mem_filter hx)).2)
      (by omega) (by omega) (fun x hx => hd x (List.mem_of_mem_filter hx))]
    simp
  · simp [hi]

/-- A field of another kind stays. -/
theorem Dev.bits_clearRc_other (hrc : f.acc ≠ .rc) :
    bitsOf ((d.clearRc r ix).raw r ix) f.hi f.lo = bitsOf (d.raw r ix) f.hi f.lo := by
  refine Nat.eq_of_testBit_eq fun i => ?_
  obtain ⟨h64, _⟩ := hle f hf
  rw [testBit_bitsOf, testBit_bitsOf, Dev.raw_clearRc, Nat.testBit_mod_two_pow]
  by_cases hi : i < f.hi + 1 - f.lo
  · rw [testBit_putFields_other _ _ _ (f.lo + i) (fun x hx => (hle x (List.mem_of_mem_filter hx)).2)]
    · simp [show f.lo + i < 64 by omega]
    · intro x hx hc
      obtain ⟨hxf, hxrc⟩ := List.mem_filter.1 hx
      rcases hd x hxf with rfl | h | h
      · exact hrc (by simpa using hxrc)
      · omega
      · omega
  · simp [hi]

end ClearRc

/-! ## What a register write does (R6, R12, R14, R56) -/

section WriteReg

variable {d : Dev} {m : Master} {r : Reg} {ix : List Nat} {v hi lo : Nat} (hm : r.win ≠ R.MBX_STAT.win)

include hm

theorem Dev.writeReg_off (h : d.regOff r ix = true) : d.writeReg m r ix v hi lo = d := by
  simp [Dev.writeReg, hm, h]

theorem Dev.writeReg_notWriter (ho : r.off ≠ 0xFF004) (h : d.writer m r = false) : d.writeReg m r ix v hi lo = d := by
  simp [Dev.writeReg, hm, ho, h]

theorem Dev.writeReg_notCommitWriter (ho : r.off = 0xFF004) (h : commitWriter m r.win = false) :
    d.writeReg m r ix v hi lo = d := by
  simp [Dev.writeReg, hm, ho, h]

theorem Dev.writeReg_locked (hon : d.regOff r ix = false) (ho : r.off ≠ 0xFF004) (hw : d.writer m r = true)
    (h : d.regLocked r = true) : d.writeReg m r ix v hi lo = d.badAccess 0 4 m.mid (r.at_ ix) := by
  simp [Dev.writeReg, hm, hon, ho, hw, h]

theorem Dev.writeReg_stored (hon : d.regOff r ix = false) (ho : r.off ≠ 0xFF004) (hw : d.writer m r = true)
    (h : d.regLocked r = false) : d.writeReg m r ix v hi lo = d.store m r ix (d.shownWord r ix v) hi lo := by
  simp [Dev.writeReg, hm, hon, ho, hw, h]

end WriteReg

theorem Dev.shownWord_of_no_dead (d : Dev) (r : Reg) (ix : List Nat) (v : Nat) (h : d.spl.dead = []) : d.shownWord r ix v = v := by
  simp [Dev.shownWord, h]

/-- No rule gives a write of the register an effect of its own, by its offset, number and window. -/
@[reducible] def Ruleless (r : Reg) : Prop :=
  r.off ≠ 0xFF004 ∧
  r.id ∉ [R.GLB_BAD_ACCESS.id, R.GLB_PD_REQ.id, R.RST_CTL.id, R.RST_BOOT_GO.id, R.PCS_FEC_DEG.id, R.PIPE_CHK_EN.id,
    R.PRS_ST_ADDR.id, R.PIPE_IDX_ADDR.id, R.SMP_LVL.id, R.SMP_CFG.id, R.MTR_CMD.id, R.CXL_CTL.id, R.GTH_LVL.id] ∧
  r.win ∉ [R.LANE_CTL.win, R.AUX_MODE.win, R.TBL_CFG.win, R.MTR_CMD.win, R.EGR_STAT.win, R.LEHR_NOW.win, R.PNT_CFG.win,
    R.ANL_CFG.win, R.TLM_STAT.win, R.CUL_CFG.win, R.PMC_CNT.win, R.HIF_CFG.win, R.RING_CTL.win, R.SVC_CTL.win, R.SPL_CTL.win]

/-- A write of such a register acts field by field. -/
theorem Dev.store_of_ruleless (d : Dev) (m : Master) {r : Reg} (ix : List Nat) (v hi lo : Nat) (h : Ruleless r) :
    d.store m r ix v hi lo = d.plain r ix v hi lo := by
  obtain ⟨hoff, hid, hwin⟩ := h
  simp only [List.mem_cons, List.not_mem_nil, or_false, not_or] at hid hwin
  simp [Dev.store, hoff, hid, hwin]

/-- The chapters name no writers of the register's own, by its number and window. -/
@[reducible] def UsualWriters (r : Reg) : Prop :=
  r.id ∉ [R.GLB_PD_REQ.id, R.GLB_PD_DENY.id, R.RST_BOOT_GO.id, R.PIN_BMC.id, R.ANL_CAP.id, R.TBL_CMD.id, R.TBL_CMD_IDX.id,
    R.TBL_CMD_DATA.id, R.HIF_CTL.id, R.SVC_MBX_BIND.id, R.SVC_OTP_KEY.id, R.SVC_OTP_CTL.id, R.SPL_CTL.id] ∧
  r.win ∉ [R.RST_CTL.win, R.PMC_CNT.win, R.SVC_CTL.win, R.SPL_CTL.win]

theorem Dev.writer_of_usual (d : Dev) (m : Master) {r : Reg} (h : UsualWriters r) : d.writer m r = isPfSvc m := by
  obtain ⟨hid, hwin⟩ := h
  simp only [List.mem_cons, List.not_mem_nil, or_false, not_or] at hid hwin
  simp [Dev.writer, hid, hwin]

/-! ## REG_WRITE, LOW_DWORD_WRITE, HIGH_DWORD_WRITE -/

section RunsWrite

variable {s : State} {m : Master} {off : BitVec 26} {p : Spot} (hl : Live s) (h : Served s m off.toNat)
  (hp : locate off.toNat = some p)

include hl h hp

section Dword

variable (ha : off.toNat % 4 = 0) (hw : p.reg.wide = true)

include ha hw

/-- A write of one dword of a 64-bit register is a 32-bit write. -/
theorem runs_lowDwordWrite {d : Dev} (v : BitVec 32) (hh : p.high = false) (hd : s.dev.write32 m off.toNat v.toNat = d) :
    Runs (.lowDwordWrite m off v) s d := by
  refine Runs.of_run hl rfl ?_
  simp only [inWide_eq ha hp, hw, hh, h.busWrite, BEq.rfl, Bool.and_self, if_true, Bool.false_eq_true, if_false, hd]

theorem runs_highDwordWrite {d : Dev} (v : BitVec 32) (hh : p.high = true) (hd : s.dev.write32 m off.toNat v.toNat = d) :
    Runs (.highDwordWrite m off v) s d := by
  refine Runs.of_run hl rfl ?_
  simp only [inWide_eq ha hp, hw, hh, h.busWrite, BEq.rfl, Bool.and_self, if_true, Bool.false_eq_true, if_false, hd]

end Dword

variable (haway : s.dev.mbxAway off.toNat = false)

include haway

theorem runs_regWrite_narrow (ha : off.toNat % 4 = 0) (v : Word) (hw : p.reg.wide = false) :
    Runs (.regWrite m off false v []) s (s.dev.writeReg m p.reg p.ix (v.toNat % 2 ^ 32) 31 0) := by
  refine Runs.of_run hl rfl ?_
  rw [Dev.arbiter_single _ _ h.takes.2 (splits_eq_false hp (by simp))]
  simp only [Dev.busAccess, Bool.false_eq_true, if_false, ha, ne_eq, not_true, if_true, h.busWrite]
  exact Dev.write32_narrow hp haway hw

theorem runs_regWrite_wide (ha : off.toNat % 8 = 0) (v : Word) (hw : p.reg.wide = true) (hr : s.dev.reaches m p.reg p.ix = true)
    (hh : p.high = false) :
    Runs (.regWrite m off true v []) s ((s.dev.dropOthers m.mid (p.reg.at_ p.ix)).writeReg m p.reg p.ix v.toNat 63 0) := by
  refine Runs.of_run hl rfl ?_
  rw [Dev.arbiter_single _ _ h.takes.2 (splits_eq_false hp (fun _ => hw))]
  simp only [Dev.busAccess, if_true, ha, ne_eq, not_true, if_false, h.busWrite]
  exact Dev.write64_wide hp haway hw hr hh

end RunsWrite

/-- Settles O7: the commands by the width of the register and the half they write, the access rules one by one, the fields bit by
bit. -/
theorem registerWrites : Obligations.RegisterWrites := by
  unfold Obligations.RegisterWrites
  refine ⟨?commands, ?rules, ?ruleless, ?fields⟩
  case commands =>
    intro s m off p hl ht hj hm hp haway ha
    have h : Served s m off.toNat := ⟨ht, hj, hm⟩
    refine ⟨fun v hw => runs_regWrite_narrow hl h hp haway ha v hw, fun hw hr => ⟨?_, ?_, ?_, ?_⟩⟩
    · exact fun v hh h8 => runs_regWrite_wide hl h hp haway h8 v hw hr hh
    · exact fun v hh => runs_lowDwordWrite hl h hp ha hw v hh (Dev.write32_low hp haway hw hr hh)
    · exact fun v low hh hk => runs_highDwordWrite hl h hp ha hw v hh (Dev.write32_high_held hp haway hw hr hh hk)
    · exact fun v hh hk => runs_highDwordWrite hl h hp ha hw v hh (Dev.write32_high_alone hp haway hw hr hh hk)
  case rules =>
    intro d m r ix v hi lo hm
    exact ⟨Dev.writeReg_off hm, Dev.writeReg_notWriter hm, Dev.writeReg_notCommitWriter hm, Dev.writeReg_locked hm,
      Dev.writeReg_stored hm, d.shownWord_of_no_dead r ix v⟩
  case ruleless =>
    intro r hr d m ix v hi lo
    have hall : ∀ r ∈ [R.PCS_SHAPE, R.PCS_PORT_CTL, R.PRS_CFG, R.PIPE_CFG, R.QRY_PORT_CFG, R.QRY_PFC_CFG, R.QRY_HDRM, R.QRY_Q_CFG,
        R.QRY_WRED_MIN, R.QRY_WRED_MAX, R.QRY_WRED_CTL, R.SMP_REGION, R.SMP_CLS_THR], Ruleless r ∧ UsualWriters r := by decide
    obtain ⟨hrule, husual⟩ := hall r hr
    exact ⟨d.store_of_ruleless m ix v hi lo hrule, d.writer_of_usual m husual⟩
  case fields =>
    intro r old v hi lo hlohi _ hle hd f hf i hlo hhi
    simp only [bitAt_eq_testBit, Reg.written_eq]
    rw [testBit_putFields_self r.fields _ 0 i hf (fun x hx => (hle x hx).1) hlo hhi (hd f hf),
      testBit_fieldWritten f old v hi lo i hlohi hlo hhi]
    cases hacc : f.acc <;> simp

/-! ## RC_READ, LOW_DWORD_READ, HIGH_DWORD_READ in BAR0 -/

section RunsRead

variable {s : State} {m : Master} {off : BitVec 26} {p : Spot} (hl : Live s) (h : Served s m off.toNat)
  (hp : locate off.toNat = some p)

include hl h hp

section Dword

variable (ha : off.toNat % 4 = 0) (hw : p.reg.wide = true)

include ha hw

/-- A read of one dword of a 64-bit register is a 32-bit read. -/
theorem runs_lowDwordRead {a : Dev × Nat} (hh : p.high = false) (hr : s.dev.read32 m off.toNat = a) :
    Runs (.lowDwordRead m .bar0 off false) s (a.1.emit (.readData m.mid off.toNat a.2)) := by
  subst hr
  refine Runs.of_run hl rfl ?_
  simp only [inWide_eq ha hp, hw, hh, h.busRead, BEq.rfl, Bool.and_self, if_true, Bool.false_eq_true, if_false, readAnswer]

theorem runs_highDwordRead {a : Dev × Nat} (hh : p.high = true) (hr : s.dev.read32 m off.toNat = a) :
    Runs (.highDwordRead m .bar0 off) s (a.1.emit (.readData m.mid off.toNat a.2)) := by
  subst hr
  refine Runs.of_run hl rfl ?_
  simp only [inWide_eq ha hp, hw, hh, h.busRead, BEq.rfl, Bool.and_self, if_true, Bool.false_eq_true, if_false, readAnswer]

end Dword

variable (haway : s.dev.mbxAway off.toNat = false) (ha : off.toNat % 4 = 0)

include haway ha

theorem runs_rcRead (hw : p.reg.wide = false) :
    let a := s.dev.readReg m p.reg p.ix true
    Runs (.rcRead m .bar0 off false []) s (a.1.emit (.readData m.mid off.toNat a.2)) := by
  refine Runs.of_run hl rfl ?_
  simp only [inNarrow_eq ha hp, hw, wideOk, Bool.not_false, Bool.true_or, Bool.and_self, if_true]
  rw [Dev.arbiter_single _ _ h.takes.2 (splits_eq_false hp (by simp))]
  simp only [Dev.busAccess, Bool.false_eq_true, if_false, ha, ne_eq, not_true, h.busRead, readAnswer, Dev.read32_narrow hp haway hw]

theorem runs_lowDwordRead_wide (hw : p.reg.wide = true) (hh : p.high = false) :
    let a := s.dev.readReg m p.reg p.ix true
    Runs (.lowDwordRead m .bar0 off true) s (a.1.emit (.readWide m.mid off.toNat a.2)) := by
  refine Runs.of_run hl rfl ?_
  simp only [inWide_eq ha hp, hw, hh, h.busRead, BEq.rfl, Bool.and_self, if_true, readAnswer, Dev.read64_wide hp haway hw hh]

end RunsRead

/-! ## The counter page in BAR4 (R21, R326) -/

section Page

variable {d : Dev} {m : Master} {at_ : Nat} (hs : at_ / 8 < pageSlots m) (hon : d.masterOn m = true) (hb : d.hostBlocked m = false)

include hs hon hb

theorem Dev.pageReadWide_taken : d.pageReadWide m at_ = d.emit (.readWide m.mid at_ (d.pageSlot m (at_ / 8))) := by
  simp [Dev.pageReadWide, hs, hon, hb]

theorem Dev.pageRead_low :
    d.pageRead m at_ false =
      { d with latches := Sparse.put d.latches m.mid (some (2 ^ 64 + at_ / 8, d.pageSlot m (at_ / 8) / 2 ^ 32)) }.emit
        (.readData m.mid at_ (d.pageSlot m (at_ / 8) % 2 ^ 32)) := by
  simp [Dev.pageRead, hs, hon, hb]

theorem Dev.pageRead_high_latched {x : Nat} (hk : Sparse.get (0, 0) d.latches m.mid = (2 ^ 64 + at_ / 8, x)) :
    d.pageRead m at_ true = { d with latches := Sparse.put d.latches m.mid none }.emit (.readData m.mid at_ x) := by
  simp [Dev.pageRead, hs, hon, hb, hk]

theorem Dev.pageRead_high_live (hk : (Sparse.get (0, 0) d.latches m.mid).1 ≠ 2 ^ 64 + at_ / 8) :
    d.pageRead m at_ true = d.emit (.readData m.mid at_ (d.pageSlot m (at_ / 8) / 2 ^ 32)) := by
  have hk' : ¬ (Sparse.get (0, 0) d.latches m.mid).1 = 2 ^ 64 + at_ / 8 := hk
  simp only [Dev.pageRead, hon, hb, Nat.not_le.2 hs, hk', decide_false, Bool.not_true, Bool.or_self, Bool.false_eq_true, if_false, if_true]

end Page

/-- Settles O8: the commands by the width of the register and the half they read, the slots of a counter page alike, and what a
read clears field by field. -/
theorem registerReads : Obligations.RegisterReads := by
  unfold Obligations.RegisterReads
  refine ⟨?commands, ?page, ?clears⟩
  case commands =>
    intro s m off p hl ht hj hm hp haway ha
    have h : Served s m off.toNat := ⟨ht, hj, hm⟩
    refine ⟨fun hw => runs_rcRead hl h hp haway ha hw, fun hw hh _ => runs_lowDwordRead_wide hl h hp haway ha hw hh, ?_, ?_, ?_⟩
    · exact fun hw hh => runs_lowDwordRead hl h hp ha hw hh (Dev.read32_low hp haway hw hh)
    · exact fun v hw hh hk => runs_highDwordRead hl h hp ha hw hh (Dev.read32_high_latched hp haway hw hh hk)
    · exact fun hw hh hk => runs_highDwordRead hl h hp ha hw hh (Dev.read32_high_live hp haway hw hh hk)
  case page =>
    intro s m off hl hs hon hb
    refine ⟨fun h8 => Runs.of_run hl rfl ?_, fun h8 => Runs.of_run hl rfl ?_, fun x h8 hk => Runs.of_run hl rfl ?_,
      fun h8 hk => Runs.of_run hl rfl ?_⟩
    · simp only [h8, ne_eq, not_true, if_false, if_true, Dev.pageReadWide_taken hs hon hb]
    · simp only [h8, ne_eq, not_true, if_false, Bool.false_eq_true, Dev.pageRead_low hs hon hb]
    · simp only [h8, if_true, Dev.pageRead_high_latched hs hon hb hk]
    · simp only [h8, if_true, Dev.pageRead_high_live hs hon hb hk]
  case clears =>
    intro d r ix hle hd
    exact ⟨fun f hf => d.bits_clearRc_rc ix hf hle (hd f hf), fun f hf => d.bits_clearRc_other ix hf hle (hd f hf),
      fun q jx hk => d.raw_clearRc_of_key r q ix jx hk⟩

/-! ## Entries of a memory, and the swap of two sets (R8) -/

theorem Sparse.find?_cons {α : Type} (e : Nat × α) (m : Sparse α) (k : Nat) :
    Sparse.find? (e :: m) k = if e.1 = k then some e.2 else Sparse.find? m k := by
  by_cases h : e.1 = k <;> simp [Sparse.find?, h]

theorem Sparse.find?_eq_none {α : Type} {m : Sparse α} {k : Nat} (h : k ∉ m.map (fun e => e.1)) : Sparse.find? m k = none := by
  simp only [Sparse.find?, Option.map_eq_none_iff, List.find?_eq_none, beq_iff_eq]
  exact fun e he hk => h (List.mem_map.2 ⟨e, he, hk⟩)

theorem Sparse.find?_insert {α : Type} (m : Sparse α) (j k : Nat) (v : α) :
    Sparse.find? (Sparse.insert m k v) j = if k = j then some v else Sparse.find? m j := by
  induction m with
  | nil => exact Sparse.find?_cons (k, v) [] j
  | cons e t ih =>
    unfold Sparse.insert
    split
    · exact Sparse.find?_cons (k, v) (e :: t) j
    · split
      · rename_i hk
        rw [Sparse.find?_cons, Sparse.find?_cons, ← hk]
        split <;> rfl
      · rename_i hk
        rw [Sparse.find?_cons, ih, Sparse.find?_cons]
        split
        · rename_i hj
          rw [if_neg (hj ▸ hk)]
        · rfl

theorem Sparse.find?_filter {α : Type} (m : Sparse α) (p : Nat → Bool) (k : Nat) :
    Sparse.find? (m.filter (fun e => p e.1)) k = if p k then Sparse.find? m k else none := by
  induction m with
  | nil => simp [Sparse.find?]
  | cons e t ih =>
    rw [Sparse.find?_cons, List.filter_cons]
    by_cases hk : e.1 = k
    · subst hk
      by_cases hp : p e.1 = true
      · rw [if_pos hp, if_pos hp, if_pos rfl, Sparse.find?_cons, if_pos rfl]
      · rw [if_neg hp, if_neg hp, ih, if_neg hp]
    · rw [if_neg hk]
      split
      · rw [Sparse.find?_cons, if_neg hk, ih]
      · exact ih

/-- Entries put into a memory, each key once: the memory reads as the entries where they have the key. -/
theorem Sparse.find?_putAll {α : Type} (l a : Sparse α) (k : Nat) (h : (l.map (fun e => e.1)).Nodup) :
    Sparse.find? (l.foldl (fun a e => Sparse.put a e.1 (some e.2)) a) k = (Sparse.find? l k).or (Sparse.find? a k) := by
  induction l generalizing a with
  | nil => rfl
  | cons e t ih =>
    obtain ⟨hnew, ht⟩ := List.nodup_cons.1 h
    rw [List.foldl_cons, ih _ ht, Sparse.find?_cons]
    change (Sparse.find? t k).or (Sparse.find? (Sparse.insert a e.1 e.2) k) = _
    rw [Sparse.find?_insert]
    by_cases hk : e.1 = k
    · rw [if_pos hk, if_pos hk, Sparse.find?_eq_none (hk ▸ hnew)]
      rfl
    · rw [if_neg hk, if_neg hk]

/-- What a set holds after its swap: the other set's entries where `p` holds, its own elsewhere. -/
theorem find?_swapKeys (m s : Sparse Word) (p : Nat → Bool) (k : Nat) (h : (s.map (fun e => e.1)).Nodup) :
    Sparse.find? (swapKeys m s p) k = if p k then Sparse.find? s k else Sparse.find? m k := by
  have hnodup : ((s.filter (fun e => p e.1)).map (fun e => e.1)).Nodup := h.sublist (List.filter_sublist.map _)
  rw [swapKeys, Sparse.find?_putAll _ _ _ hnodup, Sparse.find?_filter, Sparse.find?_filter m (fun k => !p k)]
  by_cases hp : p k = true <;> simp [hp]

/-! ## BUSY, and the two ends of a commit (R8) -/

theorem commitBusy_bit (w : Nat) : (commitBusy w).lo = 31 ∧ (commitBusy w).hi = 31 := by
  unfold commitBusy
  split <;> exact ⟨rfl, rfl⟩

/-- BUSY reads as it was written. -/
theorem Dev.on_wr_commitBusy (d : Dev) (w : Nat) (b : Bool) : (d.wr (commitBusy w) [] (b2n b)).on (commitBusy w) [] = b := by
  obtain ⟨hlo, hhi⟩ := commitBusy_bit w
  rw [Dev.on, Dev.rd_wr_self _ _ _ _ (by omega) (by omega), hlo, hhi]
  cases b <;> rfl

/-- With no word in error, what is latched changes no field. -/
theorem Dev.on_latched {d : Dev} (e : Dev) (f : Fld) (ix : List Nat) (h : d.spl.dead = []) : (Dev.latched d e).on f ix = e.on f ix := by
  simp only [Dev.on, Dev.rd, Dev.raw, Dev.latched_regs d e h]

theorem Dev.commitGo_idle (d : Dev) (w : Nat) (hs : hasStaged w = true) (hb : d.on (commitBusy w) [] = false) :
    d.commitGo w = { d.wr (commitBusy w) [] 1 with snap := swapKeys d.snap d.regs (stagedKey w) } := by
  simp [Dev.commitGo, hs, hb]

/-- The edge of a block that has no rule of its own at it. -/
theorem Dev.commitEdge_plain (d : Dev) (w : Nat) (hb : d.on (commitBusy w) [] = true)
    (hw : ∀ r ∈ [R.PCS_SHAPE, R.QRY_STAT, R.SMP_CFG, R.EGR_STAT, R.ANL_CFG, R.HIF_CFG], w ≠ r.win) :
    d.commitEdge w =
      ({ d with comm := swapKeys d.comm d.snap (stagedKey w), snap := d.snap.filter (fun e => !stagedKey w e.1) } : Dev).wr
        (commitBusy w) [] 0 := by
  simp only [List.forall_mem_cons, List.not_mem_nil, false_implies, implies_true, and_true] at hw
  simp [Dev.commitEdge, hb, hw]

theorem runs_cfgCommit {s : State} {m : Master} {w : Fin 26} (hl : Live s) (hw : commitWriter m w.val = true)
    (hb : s.dev.hostBlocked m = false) (hi : s.dev.mustWait (w.val * 1048576 + 0xFF004) = false) :
    Runs (.cfgCommit m w) s (s.dev.commitGo w.val) := by
  refine Runs.of_run hl rfl ?_
  rw [Dev.mustWait] at hi
  simp only [hw, if_true, Dev.access, hb, hi, Bool.false_eq_true, if_false]

/-- Settles O10: GO takes the staged entries into the snapshot, the edge takes the snapshot into the committed set. -/
theorem stagedConfiguration : Obligations.StagedConfiguration := by
  unfold Obligations.StagedConfiguration
  intro s m w hl hs hnodup
  obtain ⟨hregs, hsnap, _⟩ : (s.dev.regs.map (fun e => e.1)).Nodup ∧ (s.dev.snap.map (fun e => e.1)).Nodup ∧
      (s.dev.comm.map (fun e => e.1)).Nodup := by simpa using hnodup
  have hedge : Runs (.commitApply w) s (s.dev.commitEdge w.val) := Runs.of_run hl rfl rfl
  refine ⟨fun hw hb hi hidle => ⟨_, runs_cfgCommit hl hw hb hi, ?_, ?_, fun k hk => ?_⟩,
    fun hbusy hplain => ⟨_, hedge, ?_, fun k hk => ?_, fun k hk => ?_⟩, hedge⟩
  · rw [Dev.on_latched _ _ _ hl.2, Dev.commitGo_idle _ _ hs hidle]
    exact s.dev.on_wr_commitBusy w.val true
  · rw [Dev.latched_comm _ _ hl.2, Dev.commitGo_idle _ _ hs hidle, Dev.wr_comm]
  · rw [Dev.latched_snap, Dev.commitGo_idle _ _ hs hidle]
    exact (find?_swapKeys _ _ _ k hregs).trans (if_pos hk)
  · rw [Dev.on_latched _ _ _ hl.2, Dev.commitEdge_plain _ _ hbusy hplain]
    exact Dev.on_wr_commitBusy _ w.val false
  · rw [Dev.latched_comm _ _ hl.2, Dev.commitEdge_plain _ _ hbusy hplain, Dev.wr_comm]
    exact (find?_swapKeys _ _ _ k hsnap).trans (if_pos hk)
  · rw [Dev.latched_comm _ _ hl.2, Dev.commitEdge_plain _ _ hbusy hplain, Dev.wr_comm]
    exact (find?_swapKeys _ _ _ k hsnap).trans (if_neg (by simp [hk]))

/-! ## Fields that no event changes -/

/-- Field `g` lies in a register that resets to the same value at all indices. -/
def Fld.uniform (g : Fld) : Bool := g.reg.fields.all (fun x => x.rst matches .const _)

/-- No write of field `g` is seen in field `f`, at whatever indices: it lies in another register, or in other bits of the same one. -/
def Fld.apart (f g : Fld) : Bool :=
  decide ((f.reg.win ≠ g.reg.win ∨ f.reg.id ≠ g.reg.id) ∧ f.reg.id < 4096 ∧ g.reg.id < 4096) ||
    (decide (f.reg = g.reg ∧ (f.hi < g.lo ∨ g.hi < f.lo) ∧ g.lo ≤ g.hi ∧ g.hi < 64) && g.uniform)

/-- A register whose fields reset alike everywhere has one reset word. -/
theorem Fld.resetWord_uniform {g : Fld} (h : g.uniform = true) (ix jx : List Nat) : g.reg.resetWord ix = g.reg.resetWord jx := by
  have fold : ∀ (l : List Field) (a i j : Nat), l.all (fun x => x.rst matches .const _) = true →
      l.foldl (fun a f => setBitsOf a f.hi f.lo (f.rst.at i)) a = l.foldl (fun a f => setBitsOf a f.hi f.lo (f.rst.at j)) a := by
    intro l
    induction l with
    | nil => exact fun _ _ _ _ => rfl
    | cons x t ih =>
      intro a i j hall
      rw [List.all_cons, Bool.and_eq_true] at hall
      have hx : x.rst.at i = x.rst.at j := by
        cases hr : x.rst <;> simp_all [Rst.at]
      rw [List.foldl_cons, List.foldl_cons, hx]
      exact ih _ i j hall.2
  rw [Reg.resetWord, Reg.resetWord, Reg.resetAt, Reg.resetAt, fold _ _ _ _ h]

theorem Dev.rd_wr_apart (d : Dev) {f g : Fld} (ix jx : List Nat) (v : Nat) (h : f.apart g = true) :
    (d.wr g jx v).rd f ix = d.rd f ix := by
  rw [Fld.apart, Bool.or_eq_true, Bool.and_eq_true, decide_eq_true_eq, decide_eq_true_eq] at h
  rcases h with ⟨hne, hf, hg⟩ | ⟨⟨hreg, hbits, hlo, hhi⟩, hu⟩
  · exact d.rd_wr_other g f jx ix v hne hf hg
  · by_cases hk : f.reg.key ix = g.reg.key jx
    · have hraw : ∀ e : Dev, e.raw f.reg ix = e.raw g.reg jx := by
        intro e
        rw [Dev.raw, Dev.raw, hk, hreg, Fld.resetWord_uniform hu ix jx]
      rw [Dev.rd, hraw, Dev.wr, Dev.raw_setRaw_self, Nat.mod_eq_of_lt (setBitsOf_lt (d.raw_lt _ _) hhi hlo),
        bitsOf_setBitsOf_other _ _ _ _ _ _ hlo hbits, ← hraw, Dev.rd]
    · exact d.rd_wr_of_key g f jx ix v hk

theorem Dev.rd_addTo_apart (d : Dev) {f g : Fld} (ix jx : List Nat) (n : Nat) (h : f.apart g = true) :
    (d.addTo g jx n).rd f ix = d.rd f ix := by
  obtain ⟨v, hv⟩ := d.addTo_eq g jx n
  rw [hv, d.rd_wr_apart ix jx v h]

theorem Dev.rd_inc_apart (d : Dev) {f g : Fld} (ix jx : List Nat) (h : f.apart g = true) : (d.inc g jx).rd f ix = d.rd f ix :=
  d.rd_addTo_apart ix jx 1 h

theorem Dev.rd_hif (d : Dev) (x : Hif) (f : Fld) (ix : List Nat) : ({ d with hif := x } : Dev).rd f ix = d.rd f ix := rfl

theorem Dev.rd_setRing (d : Dev) (n : Nat) (x : Ring) (f : Fld) (ix : List Nat) : (d.setRing n x).rd f ix = d.rd f ix := rfl

/-- What events, completion entries, their interrupts and their counts write. -/
def eventFields : List Fld :=
  [F.PMC_CNT_COUNT, F.PMC_OVF_OVF, F.HIF_MSIX_PBA_PEND, F.RING_STAT_IRQ_REJ, F.RING_CQ_PROD_INDEX, F.RING_JOBS_COUNT,
    F.HIF_EVT_LOST_COUNT, F.HIF_CQ_STALL_CNT_COUNT]

/-- A field that they leave alone. -/
def Fld.eventless (f : Fld) : Bool := eventFields.all (fun g => f.apart g)

theorem Fld.apart_of_eventless {f g : Fld} (h : f.eventless = true) (hg : g ∈ eventFields) : f.apart g = true :=
  List.all_eq_true.1 h g hg

section Eventless

variable {f : Fld} (h : f.eventless = true) (ix : List Nat)

include h

theorem Dev.rd_pmcAdd (d : Dev) (u c n fuel : Nat) : (d.pmcAdd u c n fuel).rd f ix = d.rd f ix := by
  have hcnt := Fld.apart_of_eventless h (g := F.PMC_CNT_COUNT) (by simp [eventFields])
  have hovf := Fld.apart_of_eventless h (g := F.PMC_OVF_OVF) (by simp [eventFields])
  have hwraps : ∀ (e : Dev) (l : List (Nat × Nat)), ({ e with pmcWraps := l } : Dev).rd f ix = e.rd f ix := fun _ _ => rfl
  induction fuel generalizing d c n with
  | zero => rfl
  | succ k ih =>
    simp only [Dev.pmcAdd]
    split
    · exact d.rd_wr_apart ix _ _ hcnt
    · split <;> split <;> simp only [ih, hwraps, Dev.rd_wr_apart _ ix _ _ hcnt, Dev.rd_wr_apart _ ix _ _ hovf]

theorem Dev.rd_pmc (d : Dev) (u code n : Nat) : (d.pmc u code n).rd f ix = d.rd f ix := by
  unfold Dev.pmc
  split
  · refine foldl_proj (fun e : Dev => e.rd f ix) _ (fun b a => ?_) _ _
    dsimp only
    split
    · exact Dev.rd_pmcAdd h ix _ _ _ _ _
    · rfl
  · rfl

omit h in
theorem Dev.rd_charge (d : Dev) (j : Option Nat) (i n : Nat) : (d.charge j i n).rd f ix = d.rd f ix := by
  cases j <;> rfl

theorem Dev.rd_msix (d : Dev) (v : Nat) : (d.msix v).rd f ix = d.rd f ix := by
  unfold Dev.msix
  split
  · exact d.rd_wr_apart ix _ _ (Fld.apart_of_eventless h (by simp [eventFields]))
  · rfl

theorem Dev.rd_signalRing (d : Dev) (m : Nat) : (d.signalRing m).rd f ix = d.rd f ix := by
  unfold Dev.signalRing
  dsimp only
  split
  · rw [Dev.rd_msix h, Dev.rd_setRing]
  · split
    · rw [Dev.rd_wr_apart _ ix _ _ (Fld.apart_of_eventless h (by simp [eventFields])), Dev.rd_setRing]
    · split <;> rfl

theorem Dev.rd_checkIrq (d : Dev) (m : Nat) : (d.checkIrq m).rd f ix = d.rd f ix := by
  unfold Dev.checkIrq
  split
  · exact Dev.rd_signalRing h ix d m
  · rfl

theorem Dev.rd_dmaWrote (d : Dev) (j : Option Nat) (n : Nat) : (d.dmaWrote j n).rd f ix = d.rd f ix := by
  unfold Dev.dmaWrote
  dsimp only
  rw [Dev.rd_charge, Dev.rd_pmc h]
  rfl

/-- An entry is written, its ring's index moves, its job is counted and its vector signalled; then the ring looks at its interrupt. -/
theorem Dev.rd_writeEntry (d : Dev) (m : Nat) (e : RingEntry) : (d.writeEntry m e).rd f ix = d.rd f ix := by
  have hwritten : ∀ (x y : Output) (q n : Nat),
      ((((d.emit x).emit y).wr F.RING_CQ_PROD_INDEX [m] q).dmaWrote none n).rd f ix = d.rd f ix := fun x y q n =>
    (Dev.rd_dmaWrote h ix _ _ _).trans (Dev.rd_wr_apart _ ix _ _ (Fld.apart_of_eventless h (by simp [eventFields])))
  have hcounted : ∀ (c : Dev) (n : Nat), ((c.inc F.RING_JOBS_COUNT [n]).pmc 120 0x69 1).rd f ix = c.rd f ix := fun c n =>
    (Dev.rd_pmc h ix _ _ _ _).trans (Dev.rd_inc_apart _ ix _ (Fld.apart_of_eventless h (by simp [eventFields])))
  unfold Dev.writeEntry
  refine (Dev.rd_checkIrq h ix _ m).trans ((Dev.rd_setRing _ _ _ _ _).trans ?_)
  cases e.vec <;> cases e.sq
  case none.none => exact hwritten _ _ _ _
  case none.some n => exact (hcounted _ n).trans (hwritten _ _ _ _)
  case some.none v => exact (Dev.rd_msix h ix _ v).trans (hwritten _ _ _ _)
  case some.some v n => exact (Dev.rd_msix h ix _ v).trans ((hcounted _ n).trans (hwritten _ _ _ _))

theorem Dev.rd_postEvent (d : Dev) (m : Nat) (e : RingEntry) : (d.postEvent m e).rd f ix = d.rd f ix := by
  unfold Dev.postEvent
  split
  · exact Dev.rd_writeEntry h ix d m e
  · split
    · rfl
    · rw [Dev.rd_hif, d.rd_inc_apart ix _ (Fld.apart_of_eventless h (by simp [eventFields]))]

theorem Dev.rd_ringEvent (d : Dev) (k n v m : Nat) : (d.ringEvent k n v m).rd f ix = d.rd f ix := by
  unfold Dev.ringEvent
  split
  · exact Dev.rd_postEvent h ix d _ _
  · rfl

/-! ### What room in a completion ring lets go (R352, R354) -/

theorem Dev.rd_drainHold (d : Dev) (m fuel : Nat) : (d.drainHold m fuel).rd f ix = d.rd f ix := by
  induction fuel generalizing d with
  | zero => rfl
  | succ k ih =>
    unfold Dev.drainHold
    split
    · rfl
    · split
      · rw [ih]
        exact Dev.rd_writeEntry h ix d m _
      · rfl

theorem Dev.rd_holdEntry (d : Dev) (m : Nat) (e : RingEntry) : (d.holdEntry m e).rd f ix = d.rd f ix := by
  unfold Dev.holdEntry
  dsimp only
  split
  · split
    · refine (Dev.rd_ringEvent h ix _ _ _ _ _).trans ?_
      exact Dev.rd_inc_apart _ ix _ (Fld.apart_of_eventless h (g := F.HIF_CQ_STALL_CNT_COUNT) (by simp [eventFields]))
    · rfl
  · rfl

theorem Dev.rd_admitLate (d : Dev) (m fuel : Nat) : (d.admitLate m fuel).rd f ix = d.rd f ix := by
  induction fuel generalizing d with
  | zero => rfl
  | succ k ih =>
    unfold Dev.admitLate
    split
    · rfl
    · split
      · rw [ih]
        exact Dev.rd_holdEntry h ix _ m _
      · rfl

theorem Dev.rd_drainRounds (d : Dev) (m fuel : Nat) : (d.drainRounds m fuel).rd f ix = d.rd f ix := by
  induction fuel generalizing d with
  | zero => rfl
  | succ k ih =>
    unfold Dev.drainRounds
    rw [ih, Dev.rd_admitLate h, Dev.rd_drainHold h]

theorem Dev.rd_drainList (d : Dev) (l : List (Nat × RingEntry)) : (d.drainList l).rd f ix = d.rd f ix := by
  induction l generalizing d with
  | nil => rfl
  | cons x t ih =>
    unfold Dev.drainList
    split
    · rw [ih, Dev.rd_writeEntry h]
    · exact ih _

theorem Dev.rd_drainBacklog (d : Dev) : d.drainBacklog.rd f ix = d.rd f ix := by
  unfold Dev.drainBacklog
  dsimp only
  split
  · exact (Dev.rd_postEvent h ix _ _ _).trans (Dev.rd_drainList h ix _ _)
  · exact Dev.rd_drainList h ix _ _

theorem Dev.rd_drainRing (d : Dev) (m : Nat) : (d.drainRing m).rd f ix = d.rd f ix :=
  (Dev.rd_drainBacklog h ix _).trans (Dev.rd_drainRounds h ix _ _ _)

end Eventless

/-! ## Ring errors and refused doorbells (spec/11_host_rings.md R333, R334) -/

/-- A ring error changes, beside what its event writes, RING_ERR and RING_ERR_INFO alone. -/
theorem Dev.rd_ringError (d : Dev) {f : Fld} (ix : List Nat) (kind n v mid : Nat) (h : f.eventless = true)
    (herr : f.apart F.RING_STAT_RING_ERR = true) (hkind : f.apart F.RING_ERR_INFO_KIND = true)
    (hvalue : f.apart F.RING_ERR_INFO_VALUE = true) : (d.ringError kind n v mid).rd f ix = d.rd f ix := by
  unfold Dev.ringError
  split
  · rfl
  · rw [Dev.rd_ringEvent h, Dev.rd_wr_apart _ ix _ _ hvalue, Dev.rd_wr_apart _ ix _ _ hkind, Dev.rd_wr_apart _ ix _ _ herr]

/-- After a ring error RING_ERR is set. -/
theorem Dev.on_ringError (d : Dev) (kind n v mid : Nat) : (d.ringError kind n v mid).on F.RING_STAT_RING_ERR [n] = true := by
  unfold Dev.ringError
  split
  · assumption
  · rw [Dev.on, Dev.rd_ringEvent (by decide), Dev.rd_wr_apart _ _ _ _ (by decide), Dev.rd_wr_apart _ _ _ _ (by decide),
      Dev.rd_wr_self _ _ _ _ (by decide) (by decide)]
    rfl

/-- The first ring error since RING_ERR was cleared records its kind. -/
theorem Dev.kind_ringError (d : Dev) (kind n v mid : Nat) (hk : kind < 16) (h : d.on F.RING_STAT_RING_ERR [n] = false) :
    (d.ringError kind n v mid).rd F.RING_ERR_INFO_KIND [n] = kind := by
  unfold Dev.ringError
  rw [if_neg (by simp [h]), Dev.rd_ringEvent (by decide), Dev.rd_wr_apart _ _ _ _ (by decide),
    Dev.rd_wr_self _ _ _ _ (by decide) (by decide)]
  exact Nat.mod_eq_of_lt hk

/-- A counted refusal: RING_DB_REJ rises by one and saturates. -/
theorem Dev.rd_dbRej_inc (d : Dev) (n : Nat) :
    (d.inc F.RING_DB_REJ_COUNT [n]).rd F.RING_DB_REJ_COUNT [n] = min (2 ^ 32 - 1) (d.rd F.RING_DB_REJ_COUNT [n] + 1) :=
  d.rd_inc_saturates _ _ (by decide) (by decide) (by decide)

/-- A refused doorbell changes no ring index. -/
theorem Dev.rd_refuseDoorbell (d : Dev) {f : Fld} (ix : List Nat) (kind n v mid : Nat) (h : f.eventless = true)
    (hrej : f.apart F.RING_DB_REJ_COUNT = true) (herr : f.apart F.RING_STAT_RING_ERR = true)
    (hkind : f.apart F.RING_ERR_INFO_KIND = true) (hvalue : f.apart F.RING_ERR_INFO_VALUE = true) :
    (d.refuseDoorbell kind n v mid).rd f ix = d.rd f ix := by
  rw [Dev.refuseDoorbell, Dev.rd_pmc h, Dev.rd_ringError _ ix _ _ _ _ h herr hkind hvalue, Dev.rd_inc_apart _ ix _ hrej]

/-- What a refused doorbell leaves in its ring's registers: RING_ERR set, RING_DB_REJ counted, its kind where no error was held. -/
theorem Dev.refuseDoorbell_records (d : Dev) (kind n v mid : Nat) (hk : kind < 16) :
    let e := d.refuseDoorbell kind n v mid
    e.on F.RING_STAT_RING_ERR [n] = true ∧
      e.rd F.RING_DB_REJ_COUNT [n] = min (2 ^ 32 - 1) (d.rd F.RING_DB_REJ_COUNT [n] + 1) ∧
      (d.on F.RING_STAT_RING_ERR [n] = false → e.rd F.RING_ERR_INFO_KIND [n] = kind) := by
  refine ⟨?_, ?_, fun h => ?_⟩
  · rw [Dev.on, Dev.refuseDoorbell, Dev.rd_pmc (by decide)]
    exact Dev.on_ringError _ kind n v mid
  · rw [Dev.refuseDoorbell, Dev.rd_pmc (by decide), Dev.rd_ringError _ _ _ _ _ _ (by decide) (by decide) (by decide) (by decide),
      Dev.rd_dbRej_inc]
  · rw [Dev.refuseDoorbell, Dev.rd_pmc (by decide)]
    refine Dev.kind_ringError _ kind n v mid hk ?_
    rwa [Dev.on, Dev.rd_inc_apart _ _ _ (by decide)]

/-- A doorbell of a ring that is not enabled is counted, and nothing else. -/
theorem Dev.disabledDoorbell_fields (d : Dev) (n : Nat) {f : Fld} (ix : List Nat) (h : f.eventless = true)
    (hrej : f.apart F.RING_DB_REJ_COUNT = true) :
    let e := (d.inc F.RING_DB_REJ_COUNT [n]).pmc 120 0x6B 1
    e.rd f ix = d.rd f ix ∧ e.rd F.RING_DB_REJ_COUNT [n] = min (2 ^ 32 - 1) (d.rd F.RING_DB_REJ_COUNT [n] + 1) := by
  refine ⟨?_, ?_⟩
  · rw [Dev.rd_pmc h, Dev.rd_inc_apart _ ix _ hrej]
  · rw [Dev.rd_pmc (by decide), Dev.rd_dbRej_inc]

/-! ## Doorbells in phase mode, case by case -/

section Phase

variable {d : Dev} {n v mid : Nat}

theorem Dev.sqDoorbell_disabled (h : d.on F.RING_CTL_SQ_EN [n] = false) :
    d.sqDoorbell n v mid = (d.inc F.RING_DB_REJ_COUNT [n]).pmc 120 0x6B 1 := by
  simp [Dev.sqDoorbell, h]

theorem Dev.sqDoorbell_refused (hmode : d.on F.RING_CTL_OWNMODE [n] = false) (h : d.on F.RING_CTL_SQ_EN [n] = true)
    (hv : 2 ^ 17 ≤ v ∨ 2 * d.sqSize n ≤ v ∨ d.sqSize n < ringDiff v (d.rd F.RING_SQ_CONS_INDEX [n]) (d.sqSize n)) :
    d.sqDoorbell n v mid = d.refuseDoorbell 1 n v mid := by
  simp only [Dev.sqDoorbell, h, hmode, Bool.not_true, Bool.false_eq_true, if_false, Bool.or_eq_true, decide_eq_true_eq, or_assoc]
  rw [if_pos hv]

theorem Dev.sqDoorbell_accepted (hmode : d.on F.RING_CTL_OWNMODE [n] = false) (h : d.on F.RING_CTL_SQ_EN [n] = true)
    (hv : v < 2 ^ 17) (hs : v < 2 * d.sqSize n) (hc : ringDiff v (d.rd F.RING_SQ_CONS_INDEX [n]) (d.sqSize n) ≤ d.sqSize n) :
    d.sqDoorbell n v mid =
      if ringDiff (d.rd F.RING_SQ_PROD_INDEX [n]) (d.rd F.RING_SQ_CONS_INDEX [n]) (d.sqSize n) <
          ringDiff v (d.rd F.RING_SQ_CONS_INDEX [n]) (d.sqSize n)
      then (d.pmc 120 0x6A 1).wr F.RING_SQ_PROD_INDEX [n] v else d.pmc 120 0x6A 1 := by
  have hrefuse : ¬ (2 ^ 17 ≤ v ∨ 2 * d.sqSize n ≤ v ∨ d.sqSize n < ringDiff v (d.rd F.RING_SQ_CONS_INDEX [n]) (d.sqSize n)) := by
    omega
  simp only [Dev.sqDoorbell, h, hmode, Bool.not_true, Bool.false_eq_true, if_false, Bool.or_eq_true, decide_eq_true_eq, or_assoc]
  rw [if_neg hrefuse]

theorem Dev.cqDoorbell_disabled (h : d.cqLive n = false) :
    d.cqDoorbell n v mid = (d.inc F.RING_DB_REJ_COUNT [n]).pmc 120 0x6B 1 := by
  simp [Dev.cqDoorbell, h]

theorem Dev.cqDoorbell_refused (hmode : d.on F.RING_CTL_OWNMODE [n] = false) (h : d.cqLive n = true)
    (hv : 2 ^ 17 ≤ v ∨ 2 * d.cqSize n ≤ v ∨ ringDiff (d.rd F.RING_CQ_PROD_INDEX [n]) (d.rd F.RING_CQ_CONS_INDEX [n]) (d.cqSize n) <
      ringDiff v (d.rd F.RING_CQ_CONS_INDEX [n]) (d.cqSize n)) :
    d.cqDoorbell n v mid = d.refuseDoorbell 2 n v mid := by
  simp only [Dev.cqDoorbell, h, hmode, Bool.not_true, Bool.false_eq_true, if_false, Bool.or_eq_true, decide_eq_true_eq, or_assoc]
  rw [if_pos hv]

theorem Dev.cqDoorbell_accepted (hmode : d.on F.RING_CTL_OWNMODE [n] = false) (h : d.cqLive n = true) (hv : v < 2 ^ 17)
    (hs : v < 2 * d.cqSize n) (hq : ringDiff v (d.rd F.RING_CQ_CONS_INDEX [n]) (d.cqSize n) ≤
      ringDiff (d.rd F.RING_CQ_PROD_INDEX [n]) (d.rd F.RING_CQ_CONS_INDEX [n]) (d.cqSize n)) :
    d.cqDoorbell n v mid = ((d.pmc 120 0x6A 1).wr F.RING_CQ_CONS_INDEX [n] v).drainRing n := by
  have hrefuse : ¬ (2 ^ 17 ≤ v ∨ 2 * d.cqSize n ≤ v ∨
      ringDiff (d.rd F.RING_CQ_PROD_INDEX [n]) (d.rd F.RING_CQ_CONS_INDEX [n]) (d.cqSize n) <
        ringDiff v (d.rd F.RING_CQ_CONS_INDEX [n]) (d.cqSize n)) := by
    omega
  simp only [Dev.cqDoorbell, h, hmode, Bool.not_true, Bool.false_eq_true, if_false, Bool.or_eq_true, decide_eq_true_eq, or_assoc]
  rw [if_neg hrefuse]

/-- An accepted submission index is the producer index when it is ahead of it. -/
theorem Dev.prod_sqDoorbell_accepted (hmode : d.on F.RING_CTL_OWNMODE [n] = false) (h : d.on F.RING_CTL_SQ_EN [n] = true)
    (hv : v < 2 ^ 17) (hs : v < 2 * d.sqSize n) (hc : ringDiff v (d.rd F.RING_SQ_CONS_INDEX [n]) (d.sqSize n) ≤ d.sqSize n) :
    (d.sqDoorbell n v mid).rd F.RING_SQ_PROD_INDEX [n] =
      if ringDiff (d.rd F.RING_SQ_PROD_INDEX [n]) (d.rd F.RING_SQ_CONS_INDEX [n]) (d.sqSize n) <
          ringDiff v (d.rd F.RING_SQ_CONS_INDEX [n]) (d.sqSize n)
      then v else d.rd F.RING_SQ_PROD_INDEX [n] := by
  rw [Dev.sqDoorbell_accepted hmode h hv hs hc]
  split
  · exact (Dev.rd_wr_self _ _ _ _ (by decide) (by decide)).trans (Nat.mod_eq_of_lt hv)
  · exact Dev.rd_pmc (by decide) _ _ _ _ _

/-- An accepted completion index is the consumer index. -/
theorem Dev.cons_cqDoorbell_accepted (hmode : d.on F.RING_CTL_OWNMODE [n] = false) (h : d.cqLive n = true) (hv : v < 2 ^ 17)
    (hs : v < 2 * d.cqSize n) (hq : ringDiff v (d.rd F.RING_CQ_CONS_INDEX [n]) (d.cqSize n) ≤
      ringDiff (d.rd F.RING_CQ_PROD_INDEX [n]) (d.rd F.RING_CQ_CONS_INDEX [n]) (d.cqSize n)) :
    (d.cqDoorbell n v mid).rd F.RING_CQ_CONS_INDEX [n] = v := by
  rw [Dev.cqDoorbell_accepted hmode h hv hs hq, Dev.rd_drainRing (by decide)]
  exact (Dev.rd_wr_self _ _ _ _ (by decide) (by decide)).trans (Nat.mod_eq_of_lt hv)

end Phase

/-! ## SQ_DB, CQ_DB, and RC_READ in BAR2 -/

theorem runs_sqDb {s : State} {m : Master} {page : Fin 256} {v : BitVec 32} {n : Nat} (hl : Live s)
    (hg : s.dev.doorbellGate m page.val 0 v.toNat = (s.dev, some n)) :
    Runs (.sqDb m page v false) s (s.dev.sqDoorbell n v.toNat m.mid) :=
  Runs.of_run hl rfl (by simp [hg, Dev.doorbellHigh])

theorem runs_cqDb {s : State} {m : Master} {page : Fin 256} {v : BitVec 32} {n : Nat} (hl : Live s)
    (hg : s.dev.doorbellGate m page.val 0x40 v.toNat = (s.dev, some n)) :
    Runs (.cqDb m page v false) s (s.dev.cqDoorbell n v.toNat m.mid) :=
  Runs.of_run hl rfl (by simp [hg, Dev.doorbellHigh])

theorem runs_rcRead_doorbell {s : State} {m : Master} {off : BitVec 26} {n : Nat} (hl : Live s) (hoff : off.toNat < 2 ^ 20)
    (hon : s.dev.masterOn m = true) (hr : s.dev.doorbellRing m (off.toNat / 4096) = some n)
    (hdb : off.toNat % 4096 = 0 ∨ off.toNat % 4096 = 0x40) :
    Runs (.rcRead m .bar2 off false []) s (s.dev.emit (.readData m.mid off.toNat
      (if s.dev.hostBlocked m then 0 else s.dev.doorbellValue n (off.toNat % 4096)))) := by
  have hpage : off.toNat / 4096 < 256 := by omega
  exact Runs.of_run hl rfl (by simp [wideOk, Dev.doorbellRead, hr, hpage, hdb, hon, Dev.doorbellHigh])

/-- Settles O48: the commands, then each doorbell by whether its ring is enabled and its value in bounds; the events that a refusal
posts and the entries that an acceptance lets go leave the indices alone. -/
theorem doorbells : Obligations.Doorbells := by
  unfold Obligations.Doorbells
  refine ⟨fun s m page v n hl => ⟨runs_sqDb hl, runs_cqDb hl⟩, fun s m off n hl => runs_rcRead_doorbell hl, ?submission, ?completion⟩
  case submission =>
    intro d n v mid hmode
    refine ⟨fun hoff => ?_, fun hon hv => ?_, fun hon hv hs hc => Dev.prod_sqDoorbell_accepted hmode hon hv hs hc⟩
    · rw [Dev.sqDoorbell_disabled hoff]
      exact d.disabledDoorbell_fields n [n] (by decide) (by decide)
    · rw [Dev.sqDoorbell_refused hmode hon hv]
      exact ⟨d.rd_refuseDoorbell _ _ _ _ _ (by decide) (by decide) (by decide) (by decide) (by decide),
        d.refuseDoorbell_records 1 n v mid (by decide)⟩
  case completion =>
    intro d n v mid hmode
    refine ⟨fun hoff => ?_, fun hon hv => ?_, fun hon hv hs hq => Dev.cons_cqDoorbell_accepted hmode hon hv hs hq⟩
    · rw [Dev.cqDoorbell_disabled hoff]
      exact d.disabledDoorbell_fields n [n] (by decide) (by decide)
    · rw [Dev.cqDoorbell_refused hmode hon hv]
      exact ⟨d.rd_refuseDoorbell _ _ _ _ _ (by decide) (by decide) (by decide) (by decide) (by decide),
        d.refuseDoorbell_records 2 n v mid (by decide)⟩

end Sys2Proof.Machine

/-!
PROOFS of the statements of spec/01_parts_and_paths.md: a step and the commands (R33, R415, R417), then the power domains (R37 to
R41). The laws of the power domains rest on one fact of the shared operations: what registers they leave alone.
-/

namespace Sys2Proof.Machine

/-! ## The command at the front of the queue -/

/-- Settles O1: with a command at the front, `step` is its first case. -/
theorem stepTakesFront : Obligations.StepTakesFront := fun _ _ => rfl

/-- Every command lifts an effect on the device; one that may act in a reset lifts it with `State.runAny`, every other with
`State.run`, which a reset holds back. -/
theorem exec_lifts (c : Instr) :
    ∃ f : Dev → Dev, ∀ s : State, exec c s = if actsInReset c then s.runAny f else s.run f := by
  cases c <;> exact ⟨_, fun _ => rfl⟩

/-- Settles O2: every command is an effect lifted by `State.run` or `State.runAny`, and both leave the queue as it is. -/
theorem everyCommandAnswers : Obligations.EveryCommandAnswers := by
  unfold Obligations.EveryCommandAnswers
  refine ⟨fun c s => ?answers, fun c s hheld hc => ?held⟩ <;> obtain ⟨f, hf⟩ := exec_lifts c
  case answers =>
    rw [hf s]
    split
    · exact s.runAny_next f
    · exact s.run_next f
  case held =>
    rw [hf s, hc]
    exact s.run_held f (Option.isSome_iff_ne_none.1 hheld)

/-! ## Registers that no shared operation writes -/

/-- The windows of the registers that ports, queues, the deep store, jobs, rings, streams and faults write. -/
def workWindows : List Nat :=
  [R.PCS_PORT_STAT.win, R.LANE_STAT.win, R.QRY_PFC_STAT.win, R.CXL_STAT.win, R.SMP_DROP.win, R.ANL_RING_ENERGY.win, R.HIF_STAT.win,
    R.RING_STAT.win, R.PMC_CNT.win, R.TLM_STREAM_SEQ.win, R.SPL_LATCH.win]

/-- Register `r` lies in one of those windows. -/
def Reg.works (r : Reg) : Bool := workWindows.contains r.win && decide (r.id < 4096)

/-- Register `r` lies outside them. -/
def Reg.rests (r : Reg) : Bool := !workWindows.contains r.win && decide (r.id < 4096)

theorem Reg.win_ne_of_rests {q r : Reg} (hq : q.rests = true) (hr : r.works = true) : q.win ≠ r.win := by
  intro hwin
  simp_all [Reg.rests, Reg.works]

theorem Reg.id_lt_of_rests {r : Reg} (h : r.rests = true) : r.id < 4096 := of_decide_eq_true (Bool.and_eq_true_iff.1 h).2

theorem Reg.id_lt_of_works {r : Reg} (h : r.works = true) : r.id < 4096 := of_decide_eq_true (Bool.and_eq_true_iff.1 h).2

/-- What the registers outside the working windows hold. An operation that writes working registers alone keeps it whole, and so
does a branch or a fold of such operations. -/
def Dev.resting (d : Dev) (r : Reg) (ix : List Nat) : Nat := if r.rests then d.raw r ix else 0

theorem Dev.raw_of_resting {d e : Dev} (h : e.resting = d.resting) {r : Reg} (hr : r.rests = true) (ix : List Nat) :
    e.raw r ix = d.raw r ix := by
  have := congrFun (congrFun h r) ix
  simpa only [Dev.resting, hr, if_true] using this

theorem Dev.rd_of_resting {d e : Dev} (h : e.resting = d.resting) {f : Fld} (hf : f.reg.rests = true) (ix : List Nat) :
    e.rd f ix = d.rd f ix := by
  rw [Dev.rd, Dev.raw_of_resting h hf, Dev.rd]

@[simp] theorem Dev.resting_setRaw (d : Dev) {r : Reg} (ix : List Nat) (v : Nat) (hr : r.works = true) :
    (d.setRaw r ix v).resting = d.resting := by
  funext q jx
  unfold Dev.resting
  split
  next hq =>
    exact d.raw_setRaw_other r q ix jx v (.inl (Reg.win_ne_of_rests hq hr)) (Reg.id_lt_of_rests hq) (Reg.id_lt_of_works hr)
  · rfl

@[simp] theorem Dev.resting_wr (d : Dev) {g : Fld} (ix : List Nat) (v : Nat) (hg : g.reg.works = true) :
    (d.wr g ix v).resting = d.resting := d.resting_setRaw ix _ hg

@[simp] theorem Dev.resting_addTo (d : Dev) {g : Fld} (ix : List Nat) (n : Nat) (hg : g.reg.works = true) :
    (d.addTo g ix n).resting = d.resting := by
  obtain ⟨v, hv⟩ := d.addTo_eq g ix n
  rw [hv, d.resting_wr ix v hg]

@[simp] theorem Dev.resting_inc (d : Dev) {g : Fld} (ix : List Nat) (hg : g.reg.works = true) :
    (d.inc g ix).resting = d.resting := d.resting_addTo ix 1 hg

/-- What every field outside the event registers keeps, the resting registers keep. -/
theorem Dev.resting_of_eventless {d e : Dev} (h : ∀ f : Fld, f.eventless = true → ∀ ix, e.rd f ix = d.rd f ix) :
    e.resting = d.resting := by
  have hevents : ∀ g ∈ eventFields, g.reg.works = true := by decide
  have hwhole : ∀ (x : Dev) (r : Reg) (ix : List Nat), x.rd ⟨r, 63, 0⟩ ix = x.raw r ix := fun x r ix => by
    have := x.raw_lt r ix
    simp only [Dev.rd, bitsOf, pow_zero, Nat.div_one]
    omega
  funext r ix
  unfold Dev.resting
  split
  next hr =>
    rw [← hwhole e, ← hwhole d]
    refine h ⟨r, 63, 0⟩ (List.all_eq_true.2 fun g hg => ?_) ix
    have hw := hevents g hg
    rw [Fld.apart, Bool.or_eq_true, decide_eq_true_eq]
    exact .inl ⟨.inl (Reg.win_ne_of_rests hr hw), Reg.id_lt_of_rests hr, Reg.id_lt_of_works hw⟩
  · rfl

@[simp] theorem Dev.resting_pmc (d : Dev) (u code n : Nat) : (d.pmc u code n).resting = d.resting :=
  Dev.resting_of_eventless fun _ h ix => Dev.rd_pmc h ix d u code n

@[simp] theorem Dev.resting_charge (d : Dev) (j : Option Nat) (i n : Nat) : (d.charge j i n).resting = d.resting := by
  cases j <;> rfl

@[simp] theorem Dev.resting_dmaWrote (d : Dev) (j : Option Nat) (n : Nat) : (d.dmaWrote j n).resting = d.resting :=
  Dev.resting_of_eventless fun _ h ix => Dev.rd_dmaWrote h ix d j n

@[simp] theorem Dev.resting_signalRing (d : Dev) (m : Nat) : (d.signalRing m).resting = d.resting :=
  Dev.resting_of_eventless fun _ h ix => Dev.rd_signalRing h ix d m

@[simp] theorem Dev.resting_postEvent (d : Dev) (m : Nat) (e : RingEntry) : (d.postEvent m e).resting = d.resting :=
  Dev.resting_of_eventless fun _ h ix => Dev.rd_postEvent h ix d m e

@[simp] theorem Dev.resting_drainBacklog (d : Dev) : d.drainBacklog.resting = d.resting :=
  Dev.resting_of_eventless fun _ h ix => Dev.rd_drainBacklog h ix d

@[simp] theorem Dev.resting_drainRing (d : Dev) (m : Nat) : (d.drainRing m).resting = d.resting :=
  Dev.resting_of_eventless fun _ h ix => Dev.rd_drainRing h ix d m

/-! ### Updates of the blocks' own state -/

@[simp] theorem Dev.resting_hif (d : Dev) (x : Hif) : ({ d with hif := x } : Dev).resting = d.resting := rfl
@[simp] theorem Dev.resting_emit (d : Dev) (o : Output) : (d.emit o).resting = d.resting := rfl
@[simp] theorem Dev.resting_setRing (d : Dev) (n : Nat) (x : Ring) : (d.setRing n x).resting = d.resting := rfl
@[simp] theorem Dev.resting_setPort (d : Dev) (n : Nat) (x : PortSt) : (d.setPort n x).resting = d.resting := rfl
@[simp] theorem Dev.resting_setLane (d : Dev) (n : Nat) (x : LaneSt) : (d.setLane n x).resting = d.resting := rfl
@[simp] theorem Dev.resting_setStream (d : Dev) (n : Nat) (x : Stream) : (d.setStream n x).resting = d.resting := rfl
@[simp] theorem Dev.resting_setEgrPort (d : Dev) (n : Nat) (x : EgrPort) : (d.setEgrPort n x).resting = d.resting := rfl
@[simp] theorem Dev.resting_setLehrQ (d : Dev) (p q : Nat) (x : LehrQ) : (d.setLehrQ p q x).resting = d.resting := rfl
@[simp] theorem Dev.resting_setCtx (d : Dev) (x : Ctx) : (d.setCtx x).resting = d.resting := rfl
@[simp] theorem Dev.resting_modPkt (d : Dev) (u : Nat) (f : Pkt → Pkt) : (d.modPkt u f).resting = d.resting := rfl
@[simp] theorem Dev.resting_modCopy (d : Dev) (u : Nat) (f : Copy → Copy) : (d.modCopy u f).resting = d.resting := rfl

/-! ### Jobs and faults -/

@[simp] theorem Dev.resting_finishJob (d : Dev) (id st r0 r1 r2 : Nat) : (d.finishJob id st r0 r1 r2).resting = d.resting := by
  unfold Dev.finishJob
  split
  · rfl
  · rw [Dev.resting_hif, Dev.resting_addTo _ _ _ (by decide)]

@[simp] theorem Dev.resting_abortJob (d : Dev) (id : Nat) : (d.abortJob id).resting = d.resting := d.resting_finishJob _ _ _ _ _

@[simp] theorem Dev.resting_enterSafe (d : Dev) (k : Nat) : (d.enterSafe k).resting = d.resting := by
  unfold Dev.enterSafe
  split
  · rfl
  · exact (foldl_proj Dev.resting _ (fun b _ => b.resting_emit _) _ _).trans
      (foldl_proj Dev.resting (fun d id => d.abortJob id) (fun b id => b.resting_abortJob id) _ _)

@[simp] theorem Dev.resting_fatal (d : Dev) (k : Nat) (f : FaultIn) : (d.fatal k f).resting = d.resting := by
  simp (disch := decide) only [Dev.fatal, Dev.resting_enterSafe, apply_ite Dev.resting, Dev.resting_wr, ite_self]

@[simp] theorem Dev.resting_fillLatch (d : Dev) (k : Nat) (f : FaultIn) : (d.fillLatch k f).resting = d.resting := by
  simp (disch := decide) only [Dev.fillLatch, Dev.resting_wr, Dev.resting_setRaw]

@[simp] theorem Dev.resting_storeRecord (d : Dev) (r : FaultRec) : (d.storeRecord r).resting = d.resting := by
  simp (disch := decide) only [Dev.storeRecord, Dev.resting_wr]
  rfl

theorem Dev.resting_recordOrLose (e : Dev × Nat) (r : FaultRec) (b c : Bool) :
    (Dev.recordOrLose e r b c).1.resting = e.1.resting := by
  simp (disch := decide) only [Dev.recordOrLose, apply_ite Prod.fst, apply_ite Dev.resting, Dev.resting_storeRecord,
    Dev.resting_inc, ite_self]

@[simp] theorem Dev.resting_faultEvent (d : Dev) (k : Nat) (f : FaultIn) : (d.faultEvent k f).resting = d.resting := by
  simp only [Dev.faultEvent, apply_ite Dev.resting, Dev.resting_postEvent, ite_self]

@[simp] theorem Dev.resting_countFault (d : Dev) (k : Nat) (f : FaultIn) : (d.countFault k f).resting = d.resting := by
  simp (disch := decide) only [Dev.countFault, apply_ite Dev.resting, Dev.resting_inc, ite_self]

theorem Dev.resting_clockFaults (d : Dev) (k : Nat) (fs : List FaultIn) (c : Bool) :
    (d.clockFaults k fs c).1.resting = d.resting := by
  have count : ∀ (l : List FaultIn) (e : Dev), (l.foldl (fun e f => e.countFault k f) e).resting = e.resting := fun l e =>
    foldl_proj Dev.resting _ (fun b f => b.resting_countFault k f) l e
  have fatals : ∀ (l : List FaultIn) (first : Option FaultIn) (e : Dev × Nat),
      (l.foldl (fun e f =>
        let e := if first = some f || e.1.faultMasked k f.src then e
          else Dev.recordOrLose e (e.1.faultRecord k f true (e.1.on F.SPL_LATCH_INJ_SEEN [k])) true c
        (e.1.fatal k f, e.2)) e).1.resting = e.1.resting :=
    fun l first e => foldl_proj (fun e : Dev × Nat => e.1.resting) _ (fun b f => by
      simp only [Dev.resting_fatal, apply_ite Prod.fst, apply_ite Dev.resting, Dev.resting_recordOrLose, ite_self]) l e
  unfold Dev.clockFaults
  dsimp only
  split
  · rw [Dev.resting_faultEvent, fatals, Dev.resting_recordOrLose]
    simp (disch := decide) only [apply_ite Dev.resting, Dev.resting_wr, Dev.resting_fillLatch, ite_self, count]
  · rw [fatals]
    simp (disch := decide) only [apply_ite Dev.resting, Dev.resting_wr, ite_self, count]

theorem Dev.resting_lossFaults (d : Dev) (n : Nat) : (d.lossFaults n).resting = d.resting := by
  induction n generalizing d with
  | zero => rfl
  | succ n ih => rw [Dev.lossFaults, ih, Dev.resting_clockFaults]

@[simp] theorem Dev.resting_raise (d : Dev) (k src syn : Nat) : (d.raise k src syn).resting = d.resting := by
  rw [Dev.raise, Dev.raiseAll, Dev.resting_lossFaults, Dev.resting_clockFaults]

/-! ### Ports and lanes -/

@[simp] theorem Dev.resting_linkEvent (d : Dev) (sub p stat : Nat) : (d.linkEvent sub p stat).resting = d.resting := by
  simp only [Dev.linkEvent, apply_ite Dev.resting, Dev.resting_postEvent, ite_self]

@[simp] theorem Dev.resting_portSignal (d : Dev) (p : Nat) (s : PortSignal) (was now : Bool) :
    (d.portSignal p s was now).resting = d.resting := by
  simp only [Dev.portSignal, apply_ite Dev.resting, Dev.resting_emit, ite_self]

@[simp] theorem Dev.resting_setTxLpi (d : Dev) (p : Nat) (b : Bool) : (d.setTxLpi p b).resting = d.resting := by
  rw [Dev.setTxLpi, Dev.resting_setPort, Dev.resting_portSignal]

@[simp] theorem Dev.resting_wakeLpi (d : Dev) (p : Nat) : (d.wakeLpi p).resting = d.resting := by
  simp only [Dev.wakeLpi, apply_ite Dev.resting, Dev.resting_setPort, Dev.resting_setTxLpi, ite_self]

@[simp] theorem Dev.resting_updateLink (d : Dev) (p : Nat) : (d.updateLink p).resting = d.resting := by
  have rose : ∀ x : Dev, (x.linkRose p).resting = x.resting := fun _ => rfl
  simp (disch := decide) only [Dev.updateLink, Dev.settleFault, Dev.dropMarks, apply_ite Dev.resting, Dev.resting_linkEvent,
    Dev.resting_setPort, Dev.resting_portSignal, rose, Dev.resting_wr, Dev.resting_inc, ite_self]

theorem Dev.resting_laneOff (d : Dev) (n : Nat) : (d.laneOff n).resting = d.resting := by
  simp (disch := decide) only [Dev.laneOff, apply_ite Dev.resting, Dev.resting_setLane, Dev.resting_wr, ite_self]

@[simp] theorem Dev.resting_portDown (d : Dev) (p phase : Nat) : (d.portDown p phase).resting = d.resting := by
  have lanesOff : ∀ (l : List Nat) (x : Dev), (l.foldl Dev.laneOff x).resting = x.resting :=
    foldl_proj Dev.resting Dev.laneOff Dev.resting_laneOff
  have reaches : ∀ (l : List Nat) (x : Dev), (l.foldl Dev.takeReach x).resting = x.resting :=
    foldl_proj Dev.resting Dev.takeReach fun x n => x.resting_setLane n _
  simp (disch := decide) only [Dev.portDown, Dev.setDegraded, apply_ite Dev.resting, Dev.resting_updateLink, Dev.resting_setPort,
    Dev.resting_setTxLpi, Dev.resting_portSignal, Dev.resting_wr, lanesOff, reaches, ite_self]

@[simp] theorem Dev.resting_checkMismatch (d : Dev) (p : Nat) : (d.checkMismatch p).resting = d.resting := by
  simp only [Dev.checkMismatch, apply_ite Dev.resting, Dev.resting_linkEvent, Dev.resting_portDown, Dev.resting_setPort, ite_self]

@[simp] theorem Dev.resting_laneChanged (d : Dev) (n : Nat) : (d.laneChanged n).resting = d.resting := by
  unfold Dev.laneChanged
  split
  · exact d.resting_checkMismatch _
  · rfl

@[simp] theorem Dev.resting_checkHandover (d : Dev) : d.checkHandover.resting = d.resting := by
  unfold Dev.checkHandover
  split <;> rfl

/-! ### Telemetry records -/

@[simp] theorem Dev.resting_scatter (d : Dev) (fn : Nat) (l : List (Nat × Nat)) (off : Nat) (bytes : List Byte) :
    (d.scatter fn l off bytes).resting = d.resting := by
  induction l generalizing d off bytes with
  | nil => rfl
  | cons a t ih =>
    rw [Dev.scatter]
    simp only [apply_ite Dev.resting, ih, Dev.resting_emit, ite_self]

theorem Dev.resting_streamFull (d : Dev) (s : Nat) : (d.streamFull s).resting = d.resting := by
  unfold Dev.streamFull
  split
  · rfl
  · simp only [apply_ite Dev.resting, Dev.resting_finishJob, Dev.resting_setStream, ite_self]

theorem Dev.resting_keepSample (d : Dev) (s : Nat) (r : List Byte) : (d.keepSample s r).resting = d.resting := by
  unfold Dev.keepSample
  split <;> rfl

theorem Dev.resting_streamWrite (d : Dev) (s : Nat) : (d.streamWrite s).resting = d.resting := by
  unfold Dev.streamWrite
  dsimp only
  split
  · rfl
  · split
    · rfl
    · split
      · rw [Dev.resting_keepSample, Dev.resting_emit, Dev.resting_setStream]
      · split
        · rfl
        · simp only [apply_ite Dev.resting, Dev.resting_streamFull, Dev.resting_setStream, Dev.resting_dmaWrote,
            Dev.resting_scatter, ite_self]

theorem Dev.resting_streamPump (d : Dev) (s fuel : Nat) : (d.streamPump s fuel).resting = d.resting := by
  induction fuel generalizing d with
  | zero => rfl
  | succ n ih => rw [Dev.streamPump, ih, Dev.resting_streamWrite]

@[simp] theorem Dev.resting_record (d : Dev) (s : Nat) (body : List Byte) : (d.record s body).resting = d.resting := by
  unfold Dev.record
  split
  · rfl
  · dsimp only
    split
    · rw [Dev.resting_inc _ _ (by decide), Dev.resting_wr _ _ _ (by decide)]
    · rw [Dev.resting_streamPump, Dev.resting_setStream, Dev.resting_wr _ _ _ (by decide)]

@[simp] theorem Dev.resting_cullet (d : Dev) (trace : Option Nat) (cp : Nat) (bit port : Option Nat) (data : List Byte) :
    (d.cullet trace cp bit port data).resting = d.resting := by
  cases trace with
  | none => rfl
  | some id => simp only [Dev.cullet, apply_ite Dev.resting, Dev.resting_record, ite_self]

/-! ### Frames, copies and queues -/

theorem Dev.resting_writeCell (d : Dev) (u j code : Nat) (job : Option Nat) : (d.writeCell u j code job).resting = d.resting := by
  unfold Dev.writeCell
  split
  · rfl
  · split
    · rfl
    · simp only [Dev.resting_charge, Dev.resting_pmc, Dev.resting_modPkt]

theorem Dev.resting_refit (d : Dev) (u : Nat) : (d.refit u).resting = d.resting := by
  unfold Dev.refit
  split
  · rfl
  · split
    · rfl
    · exact foldl_proj Dev.resting _ (fun x j => x.resting_writeCell u j 0x32 none) _ _

theorem Dev.resting_setXoff (d : Dev) (i g : Nat) (b : Bool) : (d.setXoff i g b).resting = d.resting := by
  simp (disch := decide) only [Dev.setXoff, apply_ite Dev.resting, Dev.resting_wakeLpi, Dev.resting_setEgrPort, Dev.resting_wr,
    ite_self]

theorem Dev.resting_evalCopy (d : Dev) (ig : Option (Nat × Nat)) : (d.evalCopy ig).resting = d.resting := by
  cases ig with
  | none => rfl
  | some x => simp only [Dev.evalCopy, Dev.evalXoff, apply_ite Dev.resting, Dev.resting_setXoff, ite_self]

theorem Dev.resting_resetDeficit (d : Dev) (v : Nat) : (d.resetDeficit v).resting = d.resting := by
  simp only [Dev.resetDeficit, apply_ite Dev.resting, Dev.resting_setEgrPort, ite_self]

@[simp] theorem Dev.resting_releaseCopy (d : Dev) (u : Nat) : (d.releaseCopy u).resting = d.resting := by
  unfold Dev.releaseCopy
  split
  · rfl
  · split
    · rfl
    · dsimp only
      rw [Dev.resting_resetDeficit, Dev.resting_evalCopy]
      split
      · simp only [Dev.freeFrame, apply_ite Dev.resting, Dev.resting_pmc, Dev.resting_refit, Dev.resting_modPkt,
          Dev.resting_modCopy, ite_self]
      · rfl

theorem Dev.resting_queueLost (d : Dev) (v : Nat) : (d.queueLost v).resting = d.resting := by
  simp only [Dev.queueLost, apply_ite Dev.resting, Dev.resting_setEgrPort, ite_self]

@[simp] theorem Dev.resting_removeCopy (d : Dev) (u : Nat) : (d.removeCopy u).resting = d.resting := by
  unfold Dev.removeCopy
  dsimp only
  split
  · exact (Dev.resting_queueLost _ _).trans (d.resting_releaseCopy u)
  · exact d.resting_releaseCopy u

@[simp] theorem Dev.resting_finalRecord (d : Dev) (c : Copy) (cp : Nat) (data : List Byte) :
    (d.finalRecord c cp data).resting = d.resting := by
  have free : ∀ (x : Dev) (t : Option Nat), (x.freeTrace t).resting = x.resting := fun _ t => by cases t <;> rfl
  unfold Dev.finalRecord
  split
  · rfl
  · simp only [apply_ite Dev.resting, Dev.resting_modPkt, free, Dev.resting_cullet, ite_self]

/-! ### The deep store -/

theorem Dev.resting_loseCopy (d : Dev) (r u : Nat) : (d.loseCopy r u).resting = d.resting := by
  have unbatch : ∀ (x : Dev), (x.unbatch u).resting = x.resting := fun _ => rfl
  unfold Dev.loseCopy
  split
  · rfl
  · split
    · rfl
    · simp (disch := decide) only [Dev.resting_removeCopy, unbatch, Dev.resting_finalRecord, Dev.resting_inc]

theorem Dev.resting_batchRecord (d : Dev) (u cp n seq : Nat) (rest : List Byte) :
    (d.batchRecord u cp n seq rest).resting = d.resting := by
  unfold Dev.batchRecord
  split
  · exact d.resting_cullet _ _ _ _ _
  · rfl

theorem Dev.resting_linkBatches (d : Dev) (n fuel : Nat) : (d.linkBatches n fuel).resting = d.resting := by
  have segs : ∀ (l : List Seg) (seq : Nat) (x : Dev),
      (l.foldl (fun d s => (d.linkSeg s).batchRecord s.copy 0x24 n seq []) x).resting = x.resting := fun l seq =>
    foldl_proj Dev.resting _ (fun b s => (Dev.resting_batchRecord _ _ _ _ _ _).trans (b.resting_modCopy _ _)) l
  induction fuel generalizing d with
  | zero => rfl
  | succ k ih =>
    unfold Dev.linkBatches
    split
    · rfl
    · split
      · rfl
      · simp only [apply_ite Dev.resting, ih, Dev.resting_setCtx, segs, ite_self]

theorem Dev.resting_lehrUpdate (d : Dev) (p q l : Nat) : (d.lehrUpdate p q l).resting = d.resting := by
  simp only [Dev.lehrUpdate, apply_ite Dev.resting, Dev.resting_setLehrQ, Dev.resting_pmc, ite_self]

theorem resting_wakeQueues (old new : Dev) (l : List Nat) : (wakeQueues old new l).resting = new.resting :=
  foldl_proj Dev.resting _ (fun d e => by
    simp only [apply_ite Dev.resting, Dev.resting_lehrUpdate, ite_self]) l new

theorem Dev.resting_linkBack (d : Dev) (n : Nat) : (d.linkBack n).resting = d.resting := by
  unfold Dev.linkBack
  split
  · rw [resting_wakeQueues, Dev.resting_linkBatches]
  · rfl

theorem Dev.resting_dropPort (d : Dev) (k : Nat) (x : Ctx) : (d.dropPort k x).resting = d.resting := by
  have lose : ∀ (l : List Batch) (e : Dev), (l.foldl (fun d b => d.loseBatch 2 b) e).resting = e.resting :=
    foldl_proj Dev.resting _ fun e b => foldl_proj Dev.resting _ (fun e u => e.resting_loseCopy 2 u) _ e
  unfold Dev.dropPort
  dsimp only
  split
  · rw [Dev.resting_linkBack, Dev.resting_setCtx, lose]
  · exact lose _ _

@[simp] theorem Dev.resting_cxlDown (d : Dev) (k src : Nat) : (d.cxlDown k src).resting = d.resting := by
  have drop : ∀ (l : List Ctx) (e : Dev), (l.foldl (fun d x => d.dropPort k x) e).resting = e.resting :=
    foldl_proj Dev.resting _ fun e x => e.resting_dropPort k x
  have image : ∀ e : Dev, (e.imageLost k).resting = e.resting := fun _ => rfl
  simp (disch := decide) only [Dev.cxlDown, Dev.sumpFault, Dev.resting_raise, Dev.resting_wr, Dev.resting_inc,
    apply_ite Dev.resting, image, drop, ite_self]

/-! ### The host's link -/

theorem Dev.resting_msixPending (d : Dev) : d.msixPending.resting = d.resting := by
  unfold Dev.msixPending
  refine foldl_proj Dev.resting _ (fun e v => ?_) _ d
  dsimp only
  split
  · rw [Dev.resting_emit, Dev.resting_wr _ _ _ (by decide)]
  · rfl

theorem Dev.resting_sendOwed (d : Dev) : d.sendOwed.resting = d.resting := by
  refine (foldl_proj Dev.resting _ (fun e x => by rw [Dev.resting_signalRing, Dev.resting_setRing]) _ _).trans ?_
  rw [apply_ite Dev.resting, Dev.resting_msixPending, ite_self]

@[simp] theorem Dev.resting_drainAll (d : Dev) : d.drainAll.resting = d.resting := by
  rw [Dev.drainAll, Dev.resting_sendOwed, foldl_proj Dev.resting _ (fun e m => e.resting_drainRing m), Dev.resting_drainBacklog]

@[simp] theorem Dev.resting_pcieDown (d : Dev) : d.pcieDown.resting = d.resting := d.resting_setRaw [] _ (by decide)

@[simp] theorem Dev.resting_pcieTrain (d : Dev) (w : Nat) : (d.pcieTrain w).resting = d.resting := by
  simp (disch := decide) only [Dev.pcieTrain, apply_ite Dev.resting, Dev.resting_drainAll, Dev.resting_setRaw, ite_self]

/-! ## Registers of the global window when a domain is cleared (R41) -/

theorem Sparse.get_eq_find? {α : Type} (dflt : α) (m : Sparse α) (k : Nat) :
    Sparse.get dflt m k = (Sparse.find? m k).getD dflt := by
  induction m with
  | nil => rfl
  | cons e t ih =>
    rw [Sparse.find?_cons, Sparse.get, ih]
    by_cases h : k = e.1
    · rw [if_pos h, if_pos h.symm, Option.getD_some]
    · rw [if_neg h, if_neg (Ne.symm h)]

theorem Dev.raw_keepRegs (d : Dev) {p : Nat → Bool} (r : Reg) (ix : List Nat) (h : p (r.key ix) = true) :
    (d.keepRegs p).raw r ix = d.raw r ix := by
  simp only [Dev.raw, Dev.keepRegs, Sparse.keep, Sparse.get_eq_find?, Sparse.find?_filter, h, if_true]

theorem keyWin_key (r : Reg) (ix : List Nat) (h : r.id < 4096) : keyWin (r.key ix) = r.win := by
  unfold keyWin Reg.key Reg.keyAt
  omega

/-- No register of the global window lies in a switched domain. -/
theorem keyDomain_glb {k : Nat} (h : keyWin k = R.GLB_PD_ON.win) : keyDomain k = none := by
  have hwin : ∀ r ∈ regsOfWindow R.GLB_PD_ON.win, r.win = R.GLB_PD_ON.win := by decide
  rw [keyDomain, h]
  split
  next r hr =>
    have hr := hwin r (List.mem_of_find?_eq_some hr)
    simp [Reg.domain, hr, R.GLB_PD_ON, R.LANE_CTL, R.AUX_MODE, R.PRS_CFG, R.PIPE_CFG, R.CXL_CTL, R.GTH_RX]
  · rfl

theorem Reg.rests_of_glb {r : Reg} (hw : r.win = R.GLB_PD_ON.win) (hid : r.id < 4096) : r.rests = true := by
  rw [Reg.rests, hw, decide_eq_true hid]
  rfl

/-- A register of the global window is not cleared with a domain. -/
theorem Dev.raw_clearDomain_glb (d : Dev) (n : Nat) {r : Reg} (ix : List Nat) (hw : r.win = R.GLB_PD_ON.win) (hid : r.id < 4096) :
    (d.clearDomain n).raw r ix = d.raw r ix := by
  have hkey : keyWin (r.key ix) = R.GLB_PD_ON.win := (keyWin_key r ix hid).trans hw
  have hkeep : (!(keyDomain (r.key ix) == some n || pmcKeyIn n (r.key ix))) = true := by
    simp [keyDomain_glb hkey, pmcKeyIn, hkey, R.GLB_PD_ON, R.PMC_CNT]
  have inject : (d.dropInjections n).resting = d.resting := by
    refine (foldl_proj Dev.resting _ (fun e x => ?_) _ _).trans rfl
    split
    · exact e.resting_finishJob _ _ _ _ _
    · rfl
  have ended : ∀ (e : Dev) (f : Nat → Bool), (e.sealedEnd f).resting = e.resting := fun e _ => by
    unfold Dev.sealedEnd
    exact foldl_proj Dev.resting _ (fun e (j : Job) => e.resting_finishJob j.id 0 0 0 0) _ e
  exact (Dev.raw_keepRegs _ (p := fun k => !(keyDomain k == some n || pmcKeyIn n k)) r ix hkeep).trans
    (Dev.raw_of_resting ((ended _ _).trans inject) (Reg.rests_of_glb hw hid) ix)

/-! ## Bits of the power-domain registers (R37) -/

/-- One bit put in an array of 32-bit fields, one bit for each domain: it reads as put, and every other bit is left alone. -/
theorem Dev.domainBit_wr (d : Dev) {f : Fld} (b : Bool) {j n : Nat} (hj : j < 192) (hn : n < 192)
    (hdims : f.reg.dims = [⟨0, 6, 4⟩]) (hlo : f.lo = 0) (hhi : f.hi = 31) :
    bitAt ((d.wr f [n / 32] (putBit (d.rd f [n / 32]) (n % 32) b)).rd f [j / 32]) (j % 32) =
      if j = n then b else bitAt (d.rd f [j / 32]) (j % 32) := by
  by_cases hq : j / 32 = n / 32
  · have hlow : ∀ v, bitAt (v % 2 ^ 32) (j % 32) = bitAt v (j % 32) := fun v => by
      rw [bitAt_eq_testBit, bitAt_eq_testBit, Nat.testBit_mod_two_pow, decide_eq_true (Nat.mod_lt j (by decide)), Bool.true_and]
    have hbit : j % 32 = n % 32 ↔ j = n := by omega
    rw [hq, Dev.rd_wr_self _ _ _ _ (by omega) (by omega), hlo, hhi, hlow, bitAt_putBit]
    simp only [hbit]
  · have hkey : f.reg.key [j / 32] ≠ f.reg.key [n / 32] := by
      simp only [Reg.key, Reg.keyAt, hdims, flatIndex]
      omega
    rw [Dev.rd_wr_of_key _ _ _ _ _ _ hkey, if_neg (mt (congrArg (· / 32)) hq)]

theorem Dev.domOn_setOn (d : Dev) (b : Bool) {j n : Nat} (hj : j < 192) (hn : n < 192) :
    (d.setOn n b).domOn j = if j = n then b else d.domOn j :=
  d.domainBit_wr b hj hn rfl rfl rfl

theorem Dev.domReq_setReq (d : Dev) (b : Bool) {n : Nat} (hn : n < 192) : (d.setReq n b).domReq n = b :=
  (d.domainBit_wr b hn hn rfl rfl rfl).trans (if_pos rfl)

/-! ## Requests -/

/-- An off-request that is refused sets DENY and changes nothing else (R38). -/
theorem Dev.pdAsk_refused (d : Dev) (m : Master) (n : Nat) (hseq : d.rst.seq.contains n = false) (hok : d.offOk m n = false) :
    d.pdAsk m n false = d.wr F.GLB_PD_DENY_DENY [n / 32] (putBit (d.rd F.GLB_PD_DENY_DENY [n / 32]) (n % 32) true) := by
  simp only [Dev.pdAsk, Bool.false_eq_true, if_false, hseq, hok]

/-- A request that is not refused stands. -/
theorem Dev.domReq_pdAsk (d : Dev) (m : Master) {n : Nat} (b : Bool) (hn : n < 192)
    (h : b = true ∨ d.offOk m n = true) : (d.pdAsk m n b).domReq n = b := by
  have drain : ∀ (x : Dev) (g : Nat) (c : Bool), (x.setDrain g c).domReq n = x.domReq n := fun _ _ _ => rfl
  cases b with
  | true => simp only [Dev.pdAsk, if_true, apply_ite (fun x : Dev => x.domReq n), drain, d.domReq_setReq true hn, ite_self]
  | false =>
    have hok : d.offOk m n = true := h.resolve_left Bool.false_ne_true
    simp only [Dev.pdAsk, Bool.false_eq_true, if_false, hok, if_true, apply_ite (fun x : Dev => x.domReq n), drain,
      d.domReq_setReq false hn, ite_self]

theorem runs_pdRequest {s : State} {m : Master} {k : Fin 6} {v : BitVec 32} (hl : Live s) (hm : pdWriter m = true)
    (hb : s.dev.hostBlocked m = false) : Runs (.pdRequest m k v) s (s.dev.pdRequest m k.val v.toNat) := by
  have hready : ∀ k : Fin 6, initWindow (R.GLB_PD_REQ.bar0At k.val / 1048576) = false := by decide
  exact Runs.of_run hl rfl (by simp [hm, Dev.access, hb, hready k])

theorem runs_qryGroupDrained {s : State} {g : Fin 8} (hl : Live s) (hd : bitAt s.dev.rst.drain g.val = true)
    (he : s.dev.groupHeld g.val = 0) (hn : g.val ∉ s.dev.rst.drained) :
    Runs (.qryGroupDrained g) s ({ s.dev with rst := { s.dev.rst with drained := s.dev.rst.drained ++ [g.val] } }.pdNext) :=
  Runs.of_run hl rfl (by simp [hd, he, hn])

/-! ## The start of the next transition (R40, R419) -/

/-- The device with the sequencer's state `x`. -/
def Dev.setRst (d : Dev) (x : RstSt) : Dev := { d with rst := x }

@[simp] theorem Dev.setRst_setRst (d : Dev) (x y : RstSt) : (d.setRst x).setRst y = d.setRst y := rfl

@[simp] theorem Dev.setRst_hif (d : Dev) (x : RstSt) : (d.setRst x).hif = d.hif := rfl

@[simp] theorem Dev.rd_setRst (d : Dev) (x : RstSt) (f : Fld) (ix : List Nat) : (d.setRst x).rd f ix = d.rd f ix := rfl

@[simp] theorem Dev.resting_setRst (d : Dev) (x : RstSt) : (d.setRst x).resting = d.resting := rfl

/-- The sequence's next step changes the sequencer's state, and at its end PD_DONE. -/
theorem Dev.seqNext_eq (d : Dev) : ∃ x, d.seqNext = d.setRst x ∨ d.seqNext = (d.wr F.RST_STAT_PD_DONE [] 1).setRst x := by
  unfold Dev.seqNext
  split
  · exact ⟨_, .inl rfl⟩
  · exact ⟨_, .inr rfl⟩

/-- The start of the next transition changes the sequencer's state, and PD_DONE where the sequence of R419 ends. -/
theorem Dev.pdNext_eq (d : Dev) : ∃ x, d.pdNext = d.setRst x ∨ d.pdNext = (d.wr F.RST_STAT_PD_DONE [] 1).setRst x := by
  unfold Dev.pdNext
  generalize List.range 190 = l
  split
  · exact ⟨d.rst, .inl rfl⟩
  · have hseq : ∃ x, (if d.rst.seqOn then d.seqNext else d) = d.setRst x ∨
        (if d.rst.seqOn then d.seqNext else d) = (d.wr F.RST_STAT_PD_DONE [] 1).setRst x := by
      split
      · exact d.seqNext_eq
      · exact ⟨d.rst, .inl rfl⟩
    generalize (if d.rst.seqOn then d.seqNext else d) = e at hseq ⊢
    dsimp only
    split
    · exact hseq
    · split
      · change ∃ x, e.setRst _ = d.setRst x ∨ e.setRst _ = (d.wr F.RST_STAT_PD_DONE [] 1).setRst x
        obtain ⟨x, hx | hx⟩ := hseq <;> rw [hx, Dev.setRst_setRst]
        · exact ⟨_, .inl rfl⟩
        · exact ⟨_, .inr rfl⟩
      · exact hseq

theorem Dev.rd_pdNext (d : Dev) {f : Fld} (ix : List Nat) (h : f.apart F.RST_STAT_PD_DONE = true) :
    d.pdNext.rd f ix = d.rd f ix := by
  obtain ⟨x, hx | hx⟩ := d.pdNext_eq <;> rw [hx, Dev.rd_setRst]
  exact d.rd_wr_apart ix [] 1 h

@[simp] theorem Dev.hif_pdNext (d : Dev) : d.pdNext.hif = d.hif := by
  obtain ⟨x, hx | hx⟩ := d.pdNext_eq <;> rw [hx, Dev.setRst_hif]
  exact d.wr_hif _ _ _

/-! ## A transition that completes (R40, R41) -/

/-- Domain `n` as its transition leaves it: what it held lost, its GLB_PD_ON bit as asked. -/
def Dev.pdSwitch (d : Dev) (n : Nat) (up : Bool) : Dev :=
  let d := d.setRst { d.rst with pdActive := none }
  let d := if 168 ≤ n && n < 172 && d.cxlUp (n - 168) then d.cxlDown (n - 168) 0x43 else d
  (d.clearDomain n).setOn n up

/-- What the switch of domain `n` brings with it outside the domain. -/
def Dev.pdSettle (d : Dev) (n : Nat) (up : Bool) : Dev :=
  let d := if 160 ≤ n && n < 168 then d.setDrain (n - 160) (up && !d.domReq n) else d
  let d := if n < 128 then (List.range 8).foldl (fun d i => d.laneChanged (8 * n + i)) d else d
  let d := if n = 180 then d.clearEndpoint else d
  let d := if n = 180 && up then d.pcieTrain d.hif.train else d
  if 182 ≤ n && n < 186 then d.checkHandover else d

theorem Dev.pdDone_eq (d : Dev) {n : Nat} {up : Bool} (h : d.rst.pdActive = some (n, up)) :
    d.pdDone = ((d.pdSwitch n up).pdSettle n up).pdNext := by
  unfold Dev.pdDone
  rw [h]
  rfl

theorem Dev.domOn_of_resting {d e : Dev} (h : e.resting = d.resting) (j : Nat) : e.domOn j = d.domOn j := by
  rw [Dev.domOn, Dev.rd_of_resting h (by decide), Dev.domOn]

theorem Dev.domOn_clearDomain (d : Dev) (n j : Nat) : (d.clearDomain n).domOn j = d.domOn j := by
  rw [Dev.domOn, Dev.rd, d.raw_clearDomain_glb n (r := F.GLB_PD_ON_ON.reg) _ rfl (by decide)]
  rfl

theorem Dev.domOn_pdSwitch (d : Dev) (up : Bool) {j n : Nat} (hj : j < 192) (hn : n < 192) :
    (d.pdSwitch n up).domOn j = if j = n then up else d.domOn j := by
  rw [Dev.pdSwitch, Dev.domOn_setOn _ _ hj hn, Dev.domOn_clearDomain]
  refine if_congr Iff.rfl rfl (Dev.domOn_of_resting ?_ j)
  simp only [apply_ite Dev.resting, Dev.resting_cxlDown, Dev.resting_setRst, ite_self]

theorem Dev.resting_pdSettle (d : Dev) (n : Nat) (up : Bool) : (d.pdSettle n up).resting = d.resting := by
  have drain : ∀ (x : Dev) (g : Nat) (b : Bool), (x.setDrain g b).resting = x.resting := fun _ _ _ => rfl
  have lanes : ∀ (l : List Nat) (x : Dev), (l.foldl (fun d i => d.laneChanged (8 * n + i)) x).resting = x.resting :=
    foldl_proj Dev.resting _ fun x i => x.resting_laneChanged _
  have endpoint : ∀ x : Dev, x.clearEndpoint.resting = x.resting := fun x => (Dev.resting_hif _ _).trans x.resting_pcieDown
  simp only [Dev.pdSettle, apply_ite Dev.resting, Dev.resting_checkHandover, Dev.resting_pcieTrain, endpoint, lanes, drain, ite_self]

theorem Dev.domOn_pdDone (d : Dev) {j n : Nat} {up : Bool} (h : d.rst.pdActive = some (n, up)) (hj : j < 192) (hn : n < 192) :
    d.pdDone.domOn j = if j = n then up else d.domOn j := by
  rw [d.pdDone_eq h, Dev.domOn, Dev.rd_pdNext _ _ (by decide), ← Dev.domOn, Dev.domOn_of_resting (Dev.resting_pdSettle _ n up),
    Dev.domOn_pdSwitch d up hj hn]

theorem Dev.pdSettle_endpoint_off (d : Dev) : d.pdSettle 180 false = d.clearEndpoint := by
  simp [Dev.pdSettle]

theorem Dev.linkUp_pcieDown (d : Dev) : d.pcieDown.rd F.HIF_STAT_LINK_UP [] = 0 := by
  have low : ∀ v, bitsOf ((v - pcieFields v) % 2 ^ 64) 0 0 = 0 := fun v => by
    simp only [bitsOf, pcieFields]
    omega
  rw [Dev.rd, Dev.pcieDown, show F.HIF_STAT_LINK_UP.reg = R.HIF_STAT from rfl, Dev.raw_setRaw_self]
  exact low _

/-- With the PCIe endpoint off its link is down and no function is a bus master. -/
theorem Dev.pdDone_endpoint_off (d : Dev) (h : d.rst.pdActive = some (180, false)) :
    d.pdDone.on F.HIF_STAT_LINK_UP [] = false ∧ d.pdDone.hif.busMaster = 0 := by
  rw [d.pdDone_eq h, Dev.pdSettle_endpoint_off, Dev.on, Dev.rd_pdNext _ _ (by decide), Dev.hif_pdNext, Dev.clearEndpoint,
    Dev.rd_hif, Dev.linkUp_pcieDown]
  exact ⟨rfl, rfl⟩

theorem Dev.not_coreRuns_of_off (d : Dev) {k : Nat} (h : d.domOn (182 + k / 2) = false) : d.coreRuns k = false := by
  rw [Dev.coreRuns, h]
  rfl

/-- Settles O11: requests by the bit that they put, the commands by their effects; of a transition GLB_PD_ON is written by the switch
alone, and what the switch brings with it writes no register of the global window. -/
theorem powerDomains : Obligations.PowerDomains := by
  unfold Obligations.PowerDomains
  refine ⟨⟨fun s m k v hl hm hb => runs_pdRequest hl hm hb, ?requests, fun s hl _ => Runs.of_run hl rfl rfl,
    fun s g hl hd he hn => runs_qryGroupDrained hl hd he hn⟩, ?transition⟩
  case requests =>
    intro d m n hn
    refine ⟨d.domReq_pdAsk m true (by omega) (.inl rfl), fun _ hok => d.domReq_pdAsk m false (by omega) (.inr hok),
      fun hseq hok => ?_⟩
    rw [d.pdAsk_refused m n hseq hok]
    exact ⟨(d.domainBit_wr true (by omega) (by omega) rfl rfl rfl).trans (if_pos rfl),
      congrArg (bitAt · _) (d.rd_wr_apart _ _ _ (by decide))⟩
  case transition =>
    intro d n up hn hact
    have hon := fun {j} (hj : j < 192) => d.domOn_pdDone hact hj (by omega : n < 192)
    have hself : d.pdDone.domOn n = up := (hon (by omega)).trans (if_pos rfl)
    refine ⟨hself, fun j hj hne => (hon (by omega)).trans (if_neg hne), fun hup hep => ?_, fun hup k _ hpair => ?_⟩
    · subst hup hep
      exact d.pdDone_endpoint_off hact
    · exact Dev.not_coreRuns_of_off _ (hpair ▸ hself.trans hup)

end Sys2Proof.Machine

/-!
PROOFS of the statements of spec/02_lanes_and_ports.md: the corrected symbols of an interval (R59), adaptation (R67, R68), the link
and bring-up (R62, R64, R65), what a running port follows (R58 to R63), and the side port (R71 to R75). The laws of the operations
that several of them share come first.
-/

namespace Sys2Proof.Machine

/-! ## Reading what a command leaves -/

theorem Dev.raw_latched {d : Dev} (e : Dev) (r : Reg) (ix : List Nat) (h : d.spl.dead = []) : (Dev.latched d e).raw r ix = e.raw r ix := by
  rw [Dev.raw, Dev.latched_regs d e h, Dev.raw]

theorem Dev.rd_latched {d : Dev} (e : Dev) (f : Fld) (ix : List Nat) (h : d.spl.dead = []) : (Dev.latched d e).rd f ix = e.rd f ix := by
  rw [Dev.rd, Dev.raw_latched e _ _ h, Dev.rd]

/-- A value that fits its field reads as written. -/
theorem Dev.rd_wr_fits (d : Dev) (f : Fld) (ix : List Nat) (v : Nat) (hlo : f.lo ≤ f.hi) (hhi : f.hi < 64)
    (hv : v < 2 ^ (f.hi + 1 - f.lo)) : (d.wr f ix v).rd f ix = v := by
  rw [d.rd_wr_self f ix v hlo hhi, Nat.mod_eq_of_lt hv]

theorem b2n_bne_zero (b : Bool) : (b2n b != 0) = b := by
  cases b <;> rfl

/-- A one-bit field reads the bit written. -/
theorem Dev.rd_wr_bit (d : Dev) (f : Fld) (ix : List Nat) (b : Bool) (hlo : f.lo = f.hi) (hhi : f.hi < 64) :
    (d.wr f ix (b2n b)).rd f ix = b2n b := by
  refine d.rd_wr_fits f ix _ hlo.le hhi ?_
  rw [hlo, Nat.add_sub_cancel_left]
  cases b <;> decide

theorem Dev.on_wr_bit (d : Dev) (f : Fld) (ix : List Nat) (b : Bool) (hlo : f.lo = f.hi) (hhi : f.hi < 64) :
    (d.wr f ix (b2n b)).on f ix = b := by
  rw [Dev.on, d.rd_wr_bit f ix b hlo hhi, b2n_bne_zero]

/-! ## Signals to the partner (R59, R62, R63) -/

theorem Dev.portSignal_eq (d : Dev) (p : Nat) (s : PortSignal) (was now : Bool) :
    ∃ l, d.portSignal p s was now = { d with out := d.out ++ l } := by
  unfold Dev.portSignal
  split
  · exact ⟨[], by rw [List.append_nil]⟩
  · exact ⟨_, rfl⟩

theorem Dev.raw_portSignal (d : Dev) (p : Nat) (s : PortSignal) (was now : Bool) (r : Reg) (ix : List Nat) :
    (d.portSignal p s was now).raw r ix = d.raw r ix := by
  obtain ⟨l, h⟩ := d.portSignal_eq p s was now
  rw [h]
  rfl

@[simp] theorem Dev.port_portSignal (d : Dev) (p : Nat) (s : PortSignal) (was now : Bool) : (d.portSignal p s was now).port = d.port := by
  obtain ⟨l, h⟩ := d.portSignal_eq p s was now
  rw [h]
  rfl

theorem Dev.rd_setDegraded (d : Dev) (p : Nat) (b : Bool) :
    (d.setDegraded p b).rd F.PCS_PORT_STAT_FEC_DEG_LOC (pix p) = b2n b := by
  rw [Dev.setDegraded, Dev.rd_wr_bit _ _ _ _ (by decide) (by decide)]

theorem Dev.raw_setDegraded_of_key (d : Dev) (p : Nat) (b : Bool) (r : Reg) (ix : List Nat)
    (h : r.key ix ≠ R.PCS_PORT_STAT.key (pix p)) : (d.setDegraded p b).raw r ix = d.raw r ix := by
  rw [Dev.setDegraded, Dev.raw_wr_of_key _ F.PCS_PORT_STAT_FEC_DEG_LOC _ _ _ _ h, Dev.raw_portSignal]

@[simp] theorem Dev.port_setDegraded (d : Dev) (p : Nat) (b : Bool) : (d.setDegraded p b).port = d.port :=
  d.port_portSignal _ _ _ _

/-! ## FEC_DEG_INTERVAL (R59) -/

/-- The count of port `p`'s interval starts again. -/
def Dev.symsCleared (d : Dev) (p : Nat) : Dev := d.setPort p { d.port p with syms := 0 }

/-- An interval that ends with the verdict `b` leaves it in FEC_DEG_LOC. -/
theorem fecDegInterval_verdict {s : State} {p : Fin 1024} (b : Bool) (hl : Live s)
    (h : Runs (.fecDegInterval p) s ((s.dev.symsCleared p.val).setDegraded p.val b)) :
    ∃ t, exec (.fecDegInterval p) s = .next t ∧ (t.dev.port p.val).syms = 0 ∧
      t.dev.rd F.PCS_PORT_STAT_FEC_DEG_LOC (pix p.val) = b2n b ∧
      ∀ r ix, r.key ix ≠ R.PCS_PORT_STAT.key (pix p.val) → t.dev.raw r ix = s.dev.raw r ix := by
  refine ⟨_, h, ?_, ?_, fun r ix hr => ?_⟩
  · change ((Dev.setDegraded _ p.val b).port p.val).syms = 0
    rw [Dev.port_setDegraded, Dev.symsCleared, Dev.port_setPort_self]
  · rw [Dev.rd_latched _ _ _ hl.2, Dev.rd_setDegraded]
  · rw [Dev.raw_latched _ _ _ hl.2, Dev.raw_setDegraded_of_key _ _ _ _ _ hr]
    rfl

/-- Between the thresholds nothing but the count changes. -/
theorem fecDegInterval_between {s : State} {p : Fin 1024} (hl : Live s)
    (h : Runs (.fecDegInterval p) s (s.dev.symsCleared p.val)) :
    ∃ t, exec (.fecDegInterval p) s = .next t ∧ (t.dev.port p.val).syms = 0 ∧ ∀ r ix, t.dev.raw r ix = s.dev.raw r ix := by
  refine ⟨_, h, ?_, fun r ix => Dev.raw_latched _ _ _ hl.2⟩
  change ((s.dev.symsCleared p.val).port p.val).syms = 0
  rw [Dev.symsCleared, Dev.port_setPort_self]

/-- Settles O14, by the place of the count against the two thresholds. -/
theorem fecDegraded : Obligations.FecDegraded := by
  unfold Obligations.FecDegraded
  intro s p hl
  dsimp only
  by_cases hoff : s.dev.rd F.PCS_FEC_DEG_ACT_THR (pix p.val) ≤ s.dev.rd F.PCS_FEC_DEG_DEACT_THR (pix p.val)
  case pos =>
    obtain ⟨t, ht, hsyms, hloc, hframe⟩ := fecDegInterval_verdict false hl (Runs.of_run hl rfl (if_pos hoff))
    rw [b2n] at hloc
    exact ⟨t, ht, hsyms, fun _ => hloc, by omega, by omega, by omega, hframe⟩
  by_cases habove : s.dev.rd F.PCS_FEC_DEG_ACT_THR (pix p.val) < (s.dev.port p.val).syms
  case pos =>
    obtain ⟨t, ht, hsyms, hloc, hframe⟩ :=
      fecDegInterval_verdict true hl (Runs.of_run hl rfl ((if_neg hoff).trans (if_pos habove)))
    exact ⟨t, ht, hsyms, by omega, fun _ _ => hloc, by omega, by omega, hframe⟩
  by_cases hbelow : (s.dev.port p.val).syms < s.dev.rd F.PCS_FEC_DEG_DEACT_THR (pix p.val)
  case pos =>
    obtain ⟨t, ht, hsyms, hloc, hframe⟩ :=
      fecDegInterval_verdict false hl (Runs.of_run hl rfl ((if_neg hoff).trans ((if_neg habove).trans (if_pos hbelow))))
    exact ⟨t, ht, hsyms, by omega, by omega, fun _ _ => hloc, by omega, hframe⟩
  case neg =>
    obtain ⟨t, ht, hsyms, hraw⟩ :=
      fecDegInterval_between hl (Runs.of_run hl rfl ((if_neg hoff).trans ((if_neg habove).trans (if_neg hbelow))))
    exact ⟨t, ht, hsyms, by omega, by omega, by omega, fun _ _ _ => congrArg (bitsOf · _ _) (hraw _ _), fun r ix _ => hraw r ix⟩


@[simp] theorem Dev.lane_latched (d e : Dev) : (Dev.latched d e).lane = e.lane := rfl

theorem Dev.on_wr_apart (d : Dev) {f g : Fld} (ix jx : List Nat) (v : Nat) (h : f.apart g = true) :
    (d.wr g jx v).on f ix = d.on f ix := by
  rw [Dev.on, d.rd_wr_apart ix jx v h, Dev.on]

@[simp] theorem Dev.rd_setLane (d : Dev) (n : Nat) (x : LaneSt) (f : Fld) (ix : List Nat) : (d.setLane n x).rd f ix = d.rd f ix := by
  rw [Dev.rd, Dev.setLane_raw, Dev.rd]

@[simp] theorem Dev.on_setLane (d : Dev) (n : Nat) (x : LaneSt) (f : Fld) (ix : List Nat) : (d.setLane n x).on f ix = d.on f ix := by
  rw [Dev.on, Dev.rd_setLane, Dev.on]

@[simp] theorem Dev.lane_wr (d : Dev) (f : Fld) (ix : List Nat) (v : Nat) : (d.wr f ix v).lane = d.lane :=
  funext fun _ => rfl

theorem Dev.lane_inc (d : Dev) (f : Fld) (ix : List Nat) : (d.inc f ix).lane = d.lane := by
  funext n
  rw [Dev.lane, Dev.inc_phy, Dev.lane]

/-! ## Freeze reasons (R67) -/

theorem Dev.freezeWhy_lt (d : Dev) (n : Nat) : d.freezeWhy n < 4 := by
  unfold Dev.freezeWhy
  split_ifs <;> decide

theorem Dev.freezeWhy_forced {d : Dev} {n : Nat} (h : d.on F.LANE_ADAPT_FORCE_FRZ [n] = true) : d.freezeWhy n = 3 := if_pos h

/-- Without FORCE_FRZ the quiet reason is shown before the idle-only one. -/
theorem Dev.freezeWhy_free {d : Dev} {n : Nat} (h : d.on F.LANE_ADAPT_FORCE_FRZ [n] = false) :
    d.freezeWhy n = if (d.lane n).quiet then 1 else if (d.lane n).idle && d.on F.LANE_ADAPT_IDLE_FRZ [n] then 2 else 0 := by
  rw [Dev.freezeWhy, h, if_neg Bool.false_ne_true]

/-! ## What a freeze reason does to a lane (R67, R68, log 305) -/

section EvalFreeze

variable {d : Dev} {n : Nat}

theorem Dev.evalFreeze_training (h : (d.lane n).training = true) : d.evalFreeze n = d := if_pos h

variable (ht : (d.lane n).training = false)

include ht

theorem Dev.evalFreeze_tracking (ha : d.rd F.LANE_STAT_ADAPT [n] = 2) (hw : d.freezeWhy n ≠ 0) :
    d.evalFreeze n =
      ((d.wr F.LANE_STAT_ADAPT [n] 3).wr F.LANE_STAT_FRZ_WHY [n] (d.freezeWhy n)).inc F.LANE_FRZ_CNT_COUNT [n] := by
  simp [Dev.evalFreeze, ht, ha, hw]

theorem Dev.evalFreeze_acquiring (ha : d.rd F.LANE_STAT_ADAPT [n] = 1) (hw : d.freezeWhy n ≠ 0) :
    d.evalFreeze n =
      ((d.wr F.LANE_STAT_ADAPT [n] 3).wr F.LANE_STAT_FRZ_WHY [n] (d.freezeWhy n)).setLane n { d.lane n with fresh := true } := by
  simp [Dev.evalFreeze, ht, ha, hw]

theorem Dev.evalFreeze_released (ha : d.rd F.LANE_STAT_ADAPT [n] = 3) (hw : d.freezeWhy n = 0) :
    d.evalFreeze n =
      ((d.wr F.LANE_STAT_ADAPT [n] (if (d.lane n).fresh then 1 else 2)).wr F.LANE_STAT_FRZ_WHY [n] 0).setLane n
        { d.lane n with fresh := false } := by
  simp [Dev.evalFreeze, ht, ha, hw]

/-- A tracking lane freezes, shows its reason and is counted. -/
theorem Dev.evalFreeze_tracking_fields (ha : d.rd F.LANE_STAT_ADAPT [n] = 2) (hw : d.freezeWhy n ≠ 0) :
    (d.evalFreeze n).rd F.LANE_STAT_ADAPT [n] = 3 ∧ (d.evalFreeze n).rd F.LANE_STAT_FRZ_WHY [n] = d.freezeWhy n ∧
      (d.evalFreeze n).rd F.LANE_FRZ_CNT_COUNT [n] = min (2 ^ 32 - 1) (d.rd F.LANE_FRZ_CNT_COUNT [n] + 1) ∧
      (d.evalFreeze n).on F.LANE_STAT_SIG_DET [n] = d.on F.LANE_STAT_SIG_DET [n] ∧ (d.evalFreeze n).lane = d.lane := by
  rw [d.evalFreeze_tracking ht ha hw]
  refine ⟨?_, ?_, ?_, ?_, ?_⟩
  · rw [Dev.rd_inc_apart _ _ _ (by decide), Dev.rd_wr_apart _ _ _ _ (by decide), Dev.rd_wr_fits _ _ _ _ (by decide) (by decide) (by decide)]
  · rw [Dev.rd_inc_apart _ _ _ (by decide), Dev.rd_wr_fits _ _ _ _ (by decide) (by decide) (d.freezeWhy_lt n)]
  · rw [Dev.rd_inc_saturates _ _ _ (by decide) (by decide) (by decide), Dev.rd_wr_apart _ _ _ _ (by decide),
      Dev.rd_wr_apart _ _ _ _ (by decide)]
    rfl
  · rw [Dev.on, Dev.rd_inc_apart _ _ _ (by decide), Dev.rd_wr_apart _ _ _ _ (by decide), Dev.rd_wr_apart _ _ _ _ (by decide), Dev.on]
  · rw [Dev.lane_inc, Dev.lane_wr, Dev.lane_wr]

/-- An acquiring lane freezes and shows its reason; it is not counted, and it is kept that it had not tracked. -/
theorem Dev.evalFreeze_acquiring_fields (ha : d.rd F.LANE_STAT_ADAPT [n] = 1) (hw : d.freezeWhy n ≠ 0) :
    (d.evalFreeze n).rd F.LANE_STAT_ADAPT [n] = 3 ∧ (d.evalFreeze n).rd F.LANE_STAT_FRZ_WHY [n] = d.freezeWhy n ∧
      ((d.evalFreeze n).lane n).fresh = true ∧
      ∀ r ix, r.key ix ≠ R.LANE_STAT.key [n] → (d.evalFreeze n).raw r ix = d.raw r ix := by
  rw [d.evalFreeze_acquiring ht ha hw]
  refine ⟨?_, ?_, ?_, fun r ix hr => ?_⟩
  · rw [Dev.rd_setLane, Dev.rd_wr_apart _ _ _ _ (by decide), Dev.rd_wr_fits _ _ _ _ (by decide) (by decide) (by decide)]
  · rw [Dev.rd_setLane, Dev.rd_wr_fits _ _ _ _ (by decide) (by decide) (d.freezeWhy_lt n)]
  · rw [Dev.lane_setLane_self]
  · rw [Dev.setLane_raw, Dev.raw_wr_of_key _ F.LANE_STAT_FRZ_WHY _ _ _ _ hr, Dev.raw_wr_of_key _ F.LANE_STAT_ADAPT _ _ _ _ hr]

/-- A frozen lane whose last reason goes tracks again, or acquires where it froze before it had tracked. -/
theorem Dev.evalFreeze_released_fields (ha : d.rd F.LANE_STAT_ADAPT [n] = 3) (hw : d.freezeWhy n = 0) :
    (d.evalFreeze n).rd F.LANE_STAT_ADAPT [n] = (if (d.lane n).fresh then 1 else 2) ∧
      (d.evalFreeze n).rd F.LANE_STAT_FRZ_WHY [n] = 0 ∧
      (d.evalFreeze n).on F.LANE_STAT_SIG_DET [n] = d.on F.LANE_STAT_SIG_DET [n] ∧
      (d.evalFreeze n).lane n = { d.lane n with fresh := false } := by
  rw [d.evalFreeze_released ht ha hw]
  refine ⟨?_, ?_, ?_, ?_⟩
  · rw [Dev.rd_setLane, Dev.rd_wr_apart _ _ _ _ (by decide), Dev.rd_wr_fits _ _ _ _ (by decide) (by decide)]
    split <;> decide
  · rw [Dev.rd_setLane, Dev.rd_wr_fits _ _ _ _ (by decide) (by decide) (by decide)]
  · rw [Dev.on_setLane, Dev.on_wr_apart _ _ _ _ (by decide), Dev.on_wr_apart _ _ _ _ (by decide)]
  · rw [Dev.lane_setLane_self]

end EvalFreeze

/-! ## ADAPT_FREEZE, ADAPT_UNFREEZE -/

/-- Reason `why` comes to hold on lane `n`, or ends; a quiet lane has no signal. -/
def Dev.setReason (d : Dev) (n : Nat) (why : FreezeWhy) (b : Bool) : Dev :=
  match why with
  | .quiet => (d.wr F.LANE_STAT_SIG_DET [n] (b2n (!b))).setLane n { d.lane n with quiet := b }
  | .idleOnly => d.setLane n { d.lane n with idle := b }

theorem runs_adaptFreeze {s : State} {n : Fin 1024} (why : FreezeWhy) (hl : Live s) :
    Runs (.adaptFreeze n why) s ((s.dev.setReason n.val why true).evalFreeze n.val) :=
  Runs.of_run hl rfl (by cases why <;> rfl)

theorem runs_adaptUnfreeze {s : State} {n : Fin 1024} (why : FreezeWhy) (hl : Live s) :
    Runs (.adaptUnfreeze n why) s ((s.dev.setReason n.val why false).evalFreeze n.val) :=
  Runs.of_run hl rfl (by cases why <;> rfl)

section SetReason

variable (d : Dev) (n : Nat) (why : FreezeWhy) (b : Bool)

theorem Dev.rd_setReason {f : Fld} (ix : List Nat) (h : f.apart F.LANE_STAT_SIG_DET = true) :
    (d.setReason n why b).rd f ix = d.rd f ix := by
  cases why
  case quiet => exact d.rd_wr_apart ix [n] _ h
  case idleOnly => rfl

theorem Dev.on_setReason {f : Fld} (ix : List Nat) (h : f.apart F.LANE_STAT_SIG_DET = true) :
    (d.setReason n why b).on f ix = d.on f ix := by
  rw [Dev.on, d.rd_setReason n why b ix h, Dev.on]

theorem Dev.sigDet_setReason_quiet : (d.setReason n .quiet b).on F.LANE_STAT_SIG_DET [n] = !b :=
  (Dev.on_setLane _ _ _ _ _).trans (d.on_wr_bit _ _ _ (by decide) (by decide))

theorem Dev.lane_setReason_quiet : (d.setReason n .quiet b).lane n = { d.lane n with quiet := b } := Dev.lane_setLane_self _ _ _

theorem Dev.lane_setReason_idleOnly : (d.setReason n .idleOnly b).lane n = { d.lane n with idle := b } := Dev.lane_setLane_self _ _ _

theorem Dev.raw_setReason_of_key (r : Reg) (ix : List Nat) (h : r.key ix ≠ R.LANE_STAT.key [n]) :
    (d.setReason n why b).raw r ix = d.raw r ix := by
  cases why
  case quiet => exact d.raw_wr_of_key F.LANE_STAT_SIG_DET r [n] ix _ h
  case idleOnly => rfl

end SetReason


/-! ## A write of LANE_ADAPT (R67, R68) -/

/-- A one-bit field is on when its bit is set. -/
theorem bitsOf_bit (v i : Nat) : (bitsOf v i i != 0) = bitAt v i := by
  have : v / 2 ^ i % 2 < 2 := Nat.mod_lt _ (by decide)
  rw [bitsOf, Nat.add_sub_cancel_left, pow_one, bitAt, Bool.eq_iff_iff]
  simp only [bne_iff_ne, ne_eq, decide_eq_true_eq]
  omega

/-- A field of another register is left alone by a plain write. -/
theorem Dev.rd_plain_other (d : Dev) (r : Reg) (ix jx : List Nat) (v hi lo : Nat) (f : Fld)
    (h : f.reg.win ≠ r.win ∨ f.reg.id ≠ r.id) (hf : f.reg.id < 4096) (hr : r.id < 4096) :
    (d.plain r ix v hi lo).rd f jx = d.rd f jx := by
  rw [Dev.rd, Dev.plain, d.raw_setRaw_other r f.reg ix jx _ h hf hr, Dev.rd]

@[simp] theorem Dev.lane_plain (d : Dev) (r : Reg) (ix : List Nat) (v hi lo : Nat) : (d.plain r ix v hi lo).lane = d.lane := rfl

/-- FORCE_FRZ follows a write of its register. -/
theorem Dev.forceFrz_plain (d : Dev) (n v : Nat) :
    (d.plain R.LANE_ADAPT [n] v 31 0).on F.LANE_ADAPT_FORCE_FRZ [n] = bitAt v 1 := by
  have hfields : ∀ x ∈ R.LANE_ADAPT.fields, x.lo ≤ x.hi := by decide
  change (bitsOf ((d.plain R.LANE_ADAPT [n] v 31 0).raw R.LANE_ADAPT [n]) 1 1 != 0) = _
  rw [bitsOf_bit, Dev.plain, Dev.raw_setRaw_self, Reg.written_eq, bitAt_eq_testBit, bitAt_eq_testBit, Nat.testBit_mod_two_pow,
    testBit_putFields_self R.LANE_ADAPT.fields _ 0 1 (f := ⟨"FORCE_FRZ", 1, 1, .rw, .const 0⟩) (by decide) hfields (by decide)
      (by decide) (by decide),
    testBit_fieldWritten _ _ _ _ _ 1 (by decide) (by decide) (by decide)]
  rfl

theorem Dev.writeReg_laneAdapt (d : Dev) (n v : Nat) {m : Master} (hm : isPfSvc m = true)
    (hon : d.regOff R.LANE_ADAPT [n] = false) (hdead : d.spl.dead = []) :
    d.writeReg m R.LANE_ADAPT [n] v 31 0 = d.storeLane R.LANE_ADAPT [n] v := by
  rw [Dev.writeReg_stored (by decide) hon (by decide) ((d.writer_of_usual m (by decide)).trans hm) rfl,
    d.shownWord_of_no_dead _ _ _ hdead]
  simp [Dev.store, R.LANE_ADAPT, R.GLB_BAD_ACCESS, R.GLB_PD_REQ, R.RST_CTL, R.RST_BOOT_GO, R.LANE_CTL]

/-- RESTART has no effect on a lane that does not track or is forced to freeze. -/
theorem Dev.adaptRestart_idle {d : Dev} {n : Nat}
    (h : d.rd F.LANE_STAT_ADAPT [n] ≠ 2 ∨ d.on F.LANE_ADAPT_FORCE_FRZ [n] = true ∨ (d.lane n).training = true) :
    d.adaptRestart n = d := by
  rcases h with h | h | h <;> simp [Dev.adaptRestart, h]

/-- So a write that finds the lane not tracking, or forces it to freeze, is a plain one after which the reasons are looked at. -/
theorem Dev.storeLane_adapt (d : Dev) (n v : Nat) (h : d.rd F.LANE_STAT_ADAPT [n] ≠ 2 ∨ bitAt v 1 = true) :
    d.storeLane R.LANE_ADAPT [n] v = (d.plain R.LANE_ADAPT [n] v 31 0).evalFreeze n := by
  have hrestart : (d.plain R.LANE_ADAPT [n] v 31 0).adaptRestart n = d.plain R.LANE_ADAPT [n] v 31 0 := by
    refine Dev.adaptRestart_idle (h.imp (fun h => ?_) fun h => .inl ?_)
    · rwa [Dev.rd_plain_other _ _ _ _ _ _ _ _ (by decide) (by decide) (by decide)]
    · rw [Dev.forceFrz_plain, h]
  rw [Dev.storeLane, if_neg (by decide), if_neg (by decide), if_pos rfl, List.headD_cons, hrestart, ite_self]

theorem Dev.writeReg_forceFrz {d : Dev} {n v : Nat} {m : Master} (hm : isPfSvc m = true) (hon : d.regOff R.LANE_ADAPT [n] = false)
    (ht : (d.lane n).training = false) (hdead : d.spl.dead = []) (ha : d.rd F.LANE_STAT_ADAPT [n] = 2) (hv : bitAt v 1 = true) :
    let e := d.writeReg m R.LANE_ADAPT [n] v 31 0
    e.rd F.LANE_STAT_ADAPT [n] = 3 ∧ e.rd F.LANE_STAT_FRZ_WHY [n] = 3 ∧
      e.rd F.LANE_FRZ_CNT_COUNT [n] = min (2 ^ 32 - 1) (d.rd F.LANE_FRZ_CNT_COUNT [n] + 1) := by
  have hrd := d.rd_plain_other R.LANE_ADAPT [n] [n] v 31 0
  have hw : (d.plain R.LANE_ADAPT [n] v 31 0).freezeWhy n = 3 := Dev.freezeWhy_forced (by rw [Dev.forceFrz_plain, hv])
  obtain ⟨hadapt, hwhy, hcount, _⟩ := Dev.evalFreeze_tracking_fields (d := d.plain R.LANE_ADAPT [n] v 31 0) (by rwa [Dev.lane_plain])
    ((hrd _ (by decide) (by decide) (by decide)).trans ha) (by rw [hw]; decide)
  rw [hrd _ (by decide) (by decide) (by decide)] at hcount
  rw [d.writeReg_laneAdapt n v hm hon hdead, d.storeLane_adapt n v (.inr hv)]
  exact ⟨hadapt, hwhy.trans hw, hcount⟩

theorem Dev.writeReg_endForceFrz {d : Dev} {n v : Nat} {m : Master} (hm : isPfSvc m = true) (hon : d.regOff R.LANE_ADAPT [n] = false)
    (ht : (d.lane n).training = false) (hdead : d.spl.dead = []) (ha : d.rd F.LANE_STAT_ADAPT [n] = 3) (hv : bitAt v 1 = false)
    (hquiet : (d.lane n).quiet = false) (hidle : (d.lane n).idle = false) :
    let e := d.writeReg m R.LANE_ADAPT [n] v 31 0
    e.rd F.LANE_STAT_ADAPT [n] = (if (d.lane n).fresh then 1 else 2) ∧ e.rd F.LANE_STAT_FRZ_WHY [n] = 0 := by
  have hw : (d.plain R.LANE_ADAPT [n] v 31 0).freezeWhy n = 0 := by
    rw [Dev.freezeWhy_free (by rw [Dev.forceFrz_plain, hv]), Dev.lane_plain, hquiet, hidle]
    rfl
  obtain ⟨hadapt, hwhy, _⟩ := Dev.evalFreeze_released_fields (d := d.plain R.LANE_ADAPT [n] v 31 0) (by rwa [Dev.lane_plain])
    ((d.rd_plain_other _ _ _ _ _ _ _ (by decide) (by decide) (by decide)).trans ha) hw
  rw [d.writeReg_laneAdapt n v hm hon hdead, d.storeLane_adapt n v (.inl (by omega))]
  rw [Dev.lane_plain] at hadapt
  exact ⟨hadapt, hwhy⟩

/-! ## The commands about adaptation -/

section Adaptation

variable {s : State} {n : Fin 1024} (hl : Live s) (ht : (s.dev.lane n.val).training = false)
  (hforce : s.dev.on F.LANE_ADAPT_FORCE_FRZ [n.val] = false)

include hl ht hforce

theorem adaptFreeze_quiet_tracking (ha : s.dev.rd F.LANE_STAT_ADAPT [n.val] = 2) :
    ∃ t, exec (.adaptFreeze n .quiet) s = .next t ∧ t.dev.rd F.LANE_STAT_ADAPT [n.val] = 3 ∧
      t.dev.rd F.LANE_STAT_FRZ_WHY [n.val] = 1 ∧ t.dev.on F.LANE_STAT_SIG_DET [n.val] = false ∧
      (t.dev.lane n.val).quiet = true ∧
      t.dev.rd F.LANE_FRZ_CNT_COUNT [n.val] = min (2 ^ 32 - 1) (s.dev.rd F.LANE_FRZ_CNT_COUNT [n.val] + 1) := by
  have hlane := s.dev.lane_setReason_quiet n.val true
  have hw : (s.dev.setReason n.val .quiet true).freezeWhy n.val = 1 := by
    rw [Dev.freezeWhy_free ((s.dev.on_setReason _ _ _ _ (by decide)).trans hforce), hlane]
    rfl
  obtain ⟨hadapt, hwhy, hcount, hsig, hkept⟩ := Dev.evalFreeze_tracking_fields (by rw [hlane, ht])
    ((s.dev.rd_setReason n.val .quiet true _ (by decide)).trans ha) (by rw [hw]; decide)
  refine ⟨_, runs_adaptFreeze .quiet hl, ?_⟩
  simp only [Dev.rd_latched _ _ _ hl.2, Dev.on_latched _ _ _ hl.2, Dev.lane_latched]
  refine ⟨hadapt, hwhy.trans hw, hsig.trans (s.dev.sigDet_setReason_quiet n.val true), ?_, ?_⟩
  · rw [hkept, hlane]
  · rw [hcount, s.dev.rd_setReason _ _ _ _ (by decide)]

theorem adaptFreeze_quiet_acquiring (ha : s.dev.rd F.LANE_STAT_ADAPT [n.val] = 1) :
    ∃ t, exec (.adaptFreeze n .quiet) s = .next t ∧ t.dev.rd F.LANE_STAT_ADAPT [n.val] = 3 ∧
      t.dev.rd F.LANE_STAT_FRZ_WHY [n.val] = 1 ∧ (t.dev.lane n.val).fresh = true ∧
      t.dev.rd F.LANE_FRZ_CNT_COUNT [n.val] = s.dev.rd F.LANE_FRZ_CNT_COUNT [n.val] ∧
      ∀ r ix, r.key ix ≠ R.LANE_STAT.key [n.val] → t.dev.raw r ix = s.dev.raw r ix := by
  have hlane := s.dev.lane_setReason_quiet n.val true
  have hw : (s.dev.setReason n.val .quiet true).freezeWhy n.val = 1 := by
    rw [Dev.freezeWhy_free ((s.dev.on_setReason _ _ _ _ (by decide)).trans hforce), hlane]
    rfl
  obtain ⟨hadapt, hwhy, hfresh, hraw⟩ := Dev.evalFreeze_acquiring_fields (by rw [hlane, ht])
    ((s.dev.rd_setReason n.val .quiet true _ (by decide)).trans ha) (by rw [hw]; decide)
  have hkept : ∀ r ix, r.key ix ≠ R.LANE_STAT.key [n.val] →
      ((s.dev.setReason n.val .quiet true).evalFreeze n.val).raw r ix = s.dev.raw r ix := fun r ix hr =>
    (hraw r ix hr).trans (s.dev.raw_setReason_of_key n.val .quiet true r ix hr)
  refine ⟨_, runs_adaptFreeze .quiet hl, ?_⟩
  simp only [Dev.rd_latched _ _ _ hl.2, Dev.raw_latched _ _ _ hl.2, Dev.lane_latched]
  refine ⟨hadapt, hwhy.trans hw, hfresh, ?_, hkept⟩
  exact congrArg (bitsOf · _ _) (hkept R.LANE_FRZ_CNT [n.val] (Reg.key_ne _ _ (by decide) (by decide) (by decide)))

theorem adaptFreeze_idleOnly (ha : s.dev.rd F.LANE_STAT_ADAPT [n.val] = 2) (hquiet : (s.dev.lane n.val).quiet = false)
    (hen : s.dev.on F.LANE_ADAPT_IDLE_FRZ [n.val] = true) :
    ∃ t, exec (.adaptFreeze n .idleOnly) s = .next t ∧ t.dev.rd F.LANE_STAT_ADAPT [n.val] = 3 ∧
      t.dev.rd F.LANE_STAT_FRZ_WHY [n.val] = 2 ∧ (t.dev.lane n.val).idle = true := by
  have hlane := s.dev.lane_setReason_idleOnly n.val true
  have hw : (s.dev.setReason n.val .idleOnly true).freezeWhy n.val = 2 := by
    rw [Dev.freezeWhy_free ((s.dev.on_setReason _ _ _ _ (by decide)).trans hforce), hlane, hquiet,
      s.dev.on_setReason _ _ _ _ (by decide), hen]
    rfl
  obtain ⟨hadapt, hwhy, _, _, hkept⟩ := Dev.evalFreeze_tracking_fields (by rw [hlane, ht])
    ((s.dev.rd_setReason n.val .idleOnly true _ (by decide)).trans ha) (by rw [hw]; decide)
  refine ⟨_, runs_adaptFreeze .idleOnly hl, ?_⟩
  simp only [Dev.rd_latched _ _ _ hl.2, Dev.lane_latched]
  exact ⟨hadapt, hwhy.trans hw, by rw [hkept, hlane]⟩

theorem adaptUnfreeze_quiet (ha : s.dev.rd F.LANE_STAT_ADAPT [n.val] = 3)
    (hidle : (s.dev.lane n.val).idle = false ∨ s.dev.on F.LANE_ADAPT_IDLE_FRZ [n.val] = false) :
    ∃ t, exec (.adaptUnfreeze n .quiet) s = .next t ∧
      t.dev.rd F.LANE_STAT_ADAPT [n.val] = (if (s.dev.lane n.val).fresh then 1 else 2) ∧
      t.dev.rd F.LANE_STAT_FRZ_WHY [n.val] = 0 ∧ (t.dev.lane n.val).quiet = false ∧
      t.dev.on F.LANE_STAT_SIG_DET [n.val] = true := by
  have hlane := s.dev.lane_setReason_quiet n.val false
  have hw : (s.dev.setReason n.val .quiet false).freezeWhy n.val = 0 := by
    rw [Dev.freezeWhy_free ((s.dev.on_setReason _ _ _ _ (by decide)).trans hforce), hlane,
      s.dev.on_setReason _ _ _ _ (by decide)]
    rcases hidle with h | h <;> simp [h]
  obtain ⟨hadapt, hwhy, hsig, hkept⟩ := Dev.evalFreeze_released_fields (by rw [hlane, ht])
    ((s.dev.rd_setReason n.val .quiet false _ (by decide)).trans ha) hw
  rw [hlane] at hadapt hkept
  refine ⟨_, runs_adaptUnfreeze .quiet hl, ?_⟩
  simp only [Dev.rd_latched _ _ _ hl.2, Dev.on_latched _ _ _ hl.2, Dev.lane_latched]
  exact ⟨hadapt, hwhy, by rw [hkept], hsig.trans (s.dev.sigDet_setReason_quiet n.val false)⟩

theorem adaptUnfreeze_idleOnly (ha : s.dev.rd F.LANE_STAT_ADAPT [n.val] = 3) (hquiet : (s.dev.lane n.val).quiet = false) :
    ∃ t, exec (.adaptUnfreeze n .idleOnly) s = .next t ∧
      t.dev.rd F.LANE_STAT_ADAPT [n.val] = (if (s.dev.lane n.val).fresh then 1 else 2) ∧
      t.dev.rd F.LANE_STAT_FRZ_WHY [n.val] = 0 ∧ (t.dev.lane n.val).idle = false := by
  have hlane := s.dev.lane_setReason_idleOnly n.val false
  have hw : (s.dev.setReason n.val .idleOnly false).freezeWhy n.val = 0 := by
    rw [Dev.freezeWhy_free ((s.dev.on_setReason _ _ _ _ (by decide)).trans hforce), hlane, hquiet]
    rfl
  obtain ⟨hadapt, hwhy, _, hkept⟩ := Dev.evalFreeze_released_fields (by rw [hlane, ht])
    ((s.dev.rd_setReason n.val .idleOnly false _ (by decide)).trans ha) hw
  rw [hlane] at hadapt hkept
  refine ⟨_, runs_adaptUnfreeze .idleOnly hl, ?_⟩
  simp only [Dev.rd_latched _ _ _ hl.2, Dev.lane_latched]
  exact ⟨hadapt, hwhy, by rw [hkept]⟩

theorem runs_adaptRestart {m : Master} (hm : isPfSvc m = true) (hb : s.dev.hostBlocked m = false)
    (hd : s.dev.domOn (n.val / 8) = true) (ha : s.dev.rd F.LANE_STAT_ADAPT [n.val] = 2) :
    Runs (.adaptRestart m n) s ((s.dev.wr F.LANE_STAT_ADAPT [n.val] 1).setLane n.val
      { s.dev.lane n.val with left := some s.dev.rst.mono }) :=
  Runs.of_run hl rfl (by simp [hm, hb, hd, Dev.adaptRestart, ha, hforce, ht])

end Adaptation

theorem runs_adaptRestart_discarded {s : State} {n : Fin 1024} {m : Master} (hl : Live s)
    (h : s.dev.on F.LANE_ADAPT_FORCE_FRZ [n.val] = true ∨ (s.dev.lane n.val).training = true) : Runs (.adaptRestart m n) s s.dev := by
  refine Runs.of_run hl rfl ?_
  rw [Dev.adaptRestart_idle (.inr h), ite_self]

/-- Settles O15: ADAPT_FREEZE and ADAPT_UNFREEZE set and clear a reason and then look at the lane, as a write of LANE_ADAPT does. -/
theorem laneAdaptation : Obligations.LaneAdaptation := by
  unfold Obligations.LaneAdaptation
  refine ⟨?commands, fun s n m hl ht => runs_adaptRestart_discarded hl (.inr ht), ?writes⟩
  case commands =>
    intro s n hl ht
    exact ⟨fun ha hf => adaptFreeze_quiet_tracking hl ht hf ha, fun ha hf => adaptFreeze_quiet_acquiring hl ht hf ha,
      fun ha hf hq he => adaptFreeze_idleOnly hl ht hf ha hq he, fun ha hf hi => adaptUnfreeze_quiet hl ht hf ha hi,
      fun ha hf hq => adaptUnfreeze_idleOnly hl ht hf ha hq, fun m hm hb hd ha hf => runs_adaptRestart hl ht hf hm hb hd ha,
      fun m _ _ hf => runs_adaptRestart_discarded hl (.inl hf)⟩
  case writes =>
    intro d n v m _ hm hon ht hdead
    exact ⟨fun ha hv => Dev.writeReg_forceFrz hm hon ht hdead ha hv,
      fun ha hv hq hi => Dev.writeReg_endForceFrz hm hon ht hdead ha hv hq hi⟩


/-! ## What a port's state rests on (R49, R52, R55, R62) -/

section Congr

variable {d e : Dev} (hc : e.comm = d.comm) (p : Nat)

include hc

theorem Dev.cm_congr (f : Fld) (ix : List Nat) : e.cm f ix = d.cm f ix := by
  rw [Dev.cm, Dev.rawC, hc, Dev.cm, Dev.rawC]

theorem Dev.onC_congr (f : Fld) (ix : List Nat) : e.onC f ix = d.onC f ix := by
  rw [Dev.onC, Dev.cm_congr hc, Dev.onC]

theorem Dev.portShape_congr : e.portShape p = d.portShape p := by
  rw [Dev.portShape, Dev.shape, Dev.cm_congr hc, Dev.portShape, Dev.shape]

theorem Dev.absent_congr : e.absent p = d.absent p := by
  rw [Dev.absent, Dev.portShape_congr hc, Dev.absent]

theorem Dev.portLanes_congr : e.portLanes p = d.portLanes p := by
  rw [Dev.portLanes, Dev.portShape_congr hc, Dev.portLanes]

variable (hen : ∀ n, e.rd F.LANE_CTL_EN [n] = d.rd F.LANE_CTL_EN [n])

include hen

theorem Dev.portMismatch_congr : e.portMismatch p = d.portMismatch p := by
  simp only [Dev.portMismatch, Dev.portEn, Dev.on, hen, Dev.onC_congr hc, Dev.cm_congr hc, Dev.portShape_congr hc, Dev.portLanes_congr hc]

theorem Dev.portLive_congr : e.portLive p = d.portLive p := by
  rw [Dev.portLive, Dev.portMismatch_congr hc p hen, Dev.portEn, Dev.onC_congr hc, Dev.portLive, Dev.portEn]

/-- The status of a port that is shown rests on its register, on the committed shapes and settings, and on its lanes. -/
theorem Dev.portStat_congr (hppm : ∀ n, e.rd F.LANE_STAT_PPM [n] = d.rd F.LANE_STAT_PPM [n])
    (hstat : e.raw R.PCS_PORT_STAT (pix p) = d.raw R.PCS_PORT_STAT (pix p)) : e.portStat p = d.portStat p := by
  simp only [Dev.portStat, Dev.portMismatch_congr hc p hen, Dev.portShape_congr hc, Dev.portLanes_congr hc, Dev.ppmBad, hppm, hstat]

end Congr

/-- A whole register, as a field. -/
def Reg.whole (r : Reg) : Fld := ⟨r, 63, 0⟩

theorem Dev.rd_whole (d : Dev) (r : Reg) (ix : List Nat) : d.rd r.whole ix = d.raw r ix := by
  have := d.raw_lt r ix
  simp only [Dev.rd, Reg.whole, bitsOf, pow_zero, Nat.div_one]
  omega

/-! ## A link and its conditions (R62) -/

/-- What the conditions of LINK_UP say. -/
def Dev.linkGoes (d : Dev) (p : Nat) : Bool :=
  d.portLive p && d.alignLocked p && !d.on F.PCS_PORT_STAT_HI_SER (pix p) && !d.locFault p && !d.on F.PCS_PORT_STAT_REM_FAULT (pix p)

/-- The registers of port `p` once LOC_FAULT and LINK_UP have followed their conditions. -/
def Dev.linkWritten (d : Dev) (p : Nat) : Dev :=
  let e := (d.wr F.PCS_PORT_STAT_LOC_FAULT (pix p) (b2n (d.locFault p))).wr F.PCS_PORT_STAT_LINK_UP (pix p) (b2n (d.linkGoes p))
  if d.linkUp p && !d.linkGoes p then (e.inc F.PCS_LINK_FLAP_COUNT (pix p)).wr F.PCS_PORT_STAT_LINK_DOWN_EVT (pix p) 1 else e

/-- The device once the link of port `p` has followed its conditions, before the event. -/
def Dev.linkSettled (d : Dev) (p : Nat) : Dev :=
  let e := (if d.linkGoes p && !d.linkUp p then (d.linkWritten p).linkRose p else d.linkWritten p).settleFault p
  if d.linkGoes p && d.linkUp p then e else e.dropMarks p

/-- The write of LOC_FAULT changes no condition of LINK_UP. -/
theorem Dev.linkGoes_wr_locFault (d : Dev) (p v : Nat) :
    (d.wr F.PCS_PORT_STAT_LOC_FAULT (pix p) v).linkGoes p = d.linkGoes p := by
  have hlive : (d.wr F.PCS_PORT_STAT_LOC_FAULT (pix p) v).portLive p = d.portLive p :=
    Dev.portLive_congr (d.wr_comm _ _ _) p fun n => d.rd_wr_apart _ _ _ (by decide)
  have hport : (d.wr F.PCS_PORT_STAT_LOC_FAULT (pix p) v).port = d.port := rfl
  simp (disch := decide) only [Dev.linkGoes, Dev.locFault, Dev.alignLocked, hlive, hport, Dev.on_wr_apart]

theorem Dev.updateLink_eq (d : Dev) (p : Nat) :
    d.updateLink p =
      if d.linkUp p = d.linkGoes p then d.linkSettled p else (d.linkSettled p).linkEvent 1 p ((d.linkSettled p).portStat p) := by
  have hgoes := d.linkGoes_wr_locFault p (b2n (d.locFault p))
  have hup : (d.wr F.PCS_PORT_STAT_LOC_FAULT (pix p) (b2n (d.locFault p))).linkUp p = d.linkUp p := d.on_wr_apart _ _ _ (by decide)
  rw [Dev.linkGoes] at hgoes
  simp only [Dev.updateLink, hgoes, hup, Dev.linkSettled, Dev.linkWritten]

/-! ### What the link's conditions write -/

/-- The fields that they write. -/
def linkFlds : List Fld :=
  [F.PCS_PORT_STAT_LOC_FAULT, F.PCS_PORT_STAT_LINK_UP, F.PCS_LINK_FLAP_COUNT, F.PCS_PORT_STAT_LINK_DOWN_EVT]

/-- A field that they leave alone. -/
def Fld.linkless (f : Fld) : Bool := linkFlds.all (fun g => f.apart g)

/-- What ports and lanes that settle leave alone, but for registers that are written by name: registers, host interface, faults,
time. -/
def Dev.beside (d : Dev) : (Sparse Word × Sparse Word) × Hif × Spl × Bool × Nat := ((d.regs, d.comm), d.hif, d.spl, d.safe, d.ns)

@[simp] theorem Dev.beside_setPort (d : Dev) (p : Nat) (x : PortSt) : (d.setPort p x).beside = d.beside := rfl

@[simp] theorem Dev.beside_portSignal (d : Dev) (p : Nat) (s : PortSignal) (was now : Bool) :
    (d.portSignal p s was now).beside = d.beside := by
  obtain ⟨l, h⟩ := d.portSignal_eq p s was now
  rw [h]
  rfl

@[simp] theorem Dev.beside_settleFault (d : Dev) (p : Nat) : (d.settleFault p).beside = d.beside := by
  rw [Dev.settleFault, Dev.beside_setPort, Dev.beside_portSignal]

theorem Dev.port_settleFault (d : Dev) (p : Nat) : (d.settleFault p).port p = { d.port p with txFault := d.sendsFault p } :=
  Dev.port_setPort_self _ _ _

theorem Dev.beside_linkSettled (d : Dev) (p : Nat) : (d.linkSettled p).beside = (d.linkWritten p).beside := by
  have rose : ∀ x : Dev, (x.linkRose p).beside = x.beside := fun _ => rfl
  simp only [Dev.linkSettled, Dev.dropMarks, apply_ite Dev.beside, Dev.beside_setPort, Dev.beside_settleFault, rose, ite_self]

theorem Dev.linkWritten_regs_only (d : Dev) (p : Nat) : d.linkWritten p = { d with regs := (d.linkWritten p).regs } := by
  unfold Dev.linkWritten
  dsimp only
  split
  · rw [Dev.inc, Dev.addTo_regs_only]
    rfl
  · rfl

/-- Of its port's state a link that settles changes the fault that it sends and the marks of frames to come. -/
theorem Dev.port_linkSettled (d : Dev) (p : Nat) : ∃ b l, (d.linkSettled p).port p = { d.port p with txFault := b, marks := l } := by
  have hport : (d.linkWritten p).port = d.port := by
    rw [d.linkWritten_regs_only p]
    rfl
  have hrose : ∀ b : Bool, (if b then (d.linkWritten p).linkRose p else d.linkWritten p).port = d.port := by
    intro b
    cases b <;> exact hport
  unfold Dev.linkSettled
  dsimp only
  split
  · exact ⟨_, _, by rw [Dev.port_settleFault, hrose]⟩
  · exact ⟨_, _, by rw [Dev.dropMarks, Dev.port_setPort_self, Dev.port_settleFault, hrose]⟩

section Linkless

variable {f : Fld} (h : f.linkless = true) (ix : List Nat)

include h

theorem Dev.rd_linkWritten (d : Dev) (p : Nat) : (d.linkWritten p).rd f ix = d.rd f ix := by
  have hap : ∀ g ∈ linkFlds, f.apart g = true := List.all_eq_true.1 h
  simp only [linkFlds, List.forall_mem_cons, List.not_mem_nil, false_implies, implies_true, and_true] at hap
  obtain ⟨hfault, hup, hflap, hevt⟩ := hap
  unfold Dev.linkWritten
  dsimp only
  split
  · rw [Dev.rd_wr_apart _ _ _ _ hevt, Dev.rd_inc_apart _ _ _ hflap, Dev.rd_wr_apart _ _ _ _ hup, Dev.rd_wr_apart _ _ _ _ hfault]
  · rw [Dev.rd_wr_apart _ _ _ _ hup, Dev.rd_wr_apart _ _ _ _ hfault]

end Linkless

theorem Dev.raw_of_beside {d e : Dev} (h : e.beside = d.beside) (r : Reg) (ix : List Nat) : e.raw r ix = d.raw r ix := by
  have hregs : e.regs = d.regs := congrArg (fun x => x.1.1) h
  rw [Dev.raw, hregs, Dev.raw]

theorem Dev.rd_of_beside {d e : Dev} (h : e.beside = d.beside) (f : Fld) (ix : List Nat) : e.rd f ix = d.rd f ix := by
  rw [Dev.rd, Dev.raw_of_beside h, Dev.rd]

theorem Dev.rd_linkSettled (d : Dev) (p : Nat) (f : Fld) (ix : List Nat) : (d.linkSettled p).rd f ix = (d.linkWritten p).rd f ix :=
  Dev.rd_of_beside (d.beside_linkSettled p) f ix

/-- The parts of the device beside its registers, its ports and lanes, its frames and what it has sent. -/
theorem Dev.linkSettled_parts (d : Dev) (p : Nat) :
    (d.linkSettled p).comm = d.comm ∧ (d.linkSettled p).hif = d.hif ∧ (d.linkSettled p).spl = d.spl ∧
      (d.linkSettled p).safe = d.safe ∧ (d.linkSettled p).ns = d.ns := by
  have h := d.beside_linkSettled p
  rw [d.linkWritten_regs_only p] at h
  simp only [Dev.beside, Prod.mk.injEq] at h
  obtain ⟨⟨_, hcomm⟩, hhif, hspl, hsafe, hns⟩ := h
  exact ⟨hcomm, hhif, hspl, hsafe, hns⟩

/-! ### The link event -/

theorem Dev.rd_linkEvent {f : Fld} (h : f.eventless = true) (ix : List Nat) (d : Dev) (sub p stat : Nat) :
    (d.linkEvent sub p stat).rd f ix = d.rd f ix := by
  unfold Dev.linkEvent
  split
  · exact Dev.rd_postEvent h ix d _ _
  · rfl

@[simp] theorem Dev.kept_linkEvent (d : Dev) (sub p stat : Nat) : (d.linkEvent sub p stat).kept = d.kept := by
  simp only [Dev.linkEvent, apply_ite Dev.kept, Dev.kept_postEvent, ite_self]

theorem Dev.phy_of_kept {d e : Dev} (h : e.kept = d.kept) : e.phy = d.phy := congrArg (fun x => x.2.2.1) h

theorem Dev.comm_of_kept {d e : Dev} (h : e.kept = d.kept) : e.comm = d.comm := congrArg (fun x => x.1.1) h

theorem Dev.kept_updateLink (d : Dev) (p : Nat) : (d.updateLink p).kept = (d.linkSettled p).kept := by
  rw [Dev.updateLink_eq, apply_ite Dev.kept, Dev.kept_linkEvent, ite_self]

theorem Dev.rd_updateLink {f : Fld} (h : f.eventless = true) (ix : List Nat) (d : Dev) (p : Nat) :
    (d.updateLink p).rd f ix = (d.linkWritten p).rd f ix := by
  rw [← Dev.rd_linkSettled, Dev.updateLink_eq]
  split
  · rfl
  · exact Dev.rd_linkEvent h ix _ _ _ _

/-- A field that neither the link's conditions nor events write. -/
theorem Dev.rd_updateLink_other {f : Fld} (h : f.eventless = true) (hl : f.linkless = true) (ix : List Nat) (d : Dev) (p : Nat) :
    (d.updateLink p).rd f ix = d.rd f ix :=
  (d.rd_updateLink h ix p).trans (d.rd_linkWritten hl ix p)

/-- A port keeps its phase when its link follows its conditions. -/
theorem Dev.phase_updateLink (d : Dev) (p : Nat) : ((d.updateLink p).port p).phase = (d.port p).phase := by
  obtain ⟨b, l, hport⟩ := d.port_linkSettled p
  rw [Dev.port, Dev.phy_of_kept (d.kept_updateLink p), ← Dev.port, hport]


/-! ## The end of a bring-up phase (R64, R65) -/

theorem Dev.phase_of_inPhase {d : Dev} {p k : Nat} (h : d.inPhase p k = true) : (d.port p).phase = k := by
  simp only [Dev.inPhase, Bool.and_eq_true, beq_iff_eq] at h
  exact h.1.2

/-- A port is in one phase. -/
theorem Dev.not_inPhase {d : Dev} {p k j : Nat} (h : d.inPhase p k = true) (hne : k ≠ j) : d.inPhase p j = false := by
  simp [Dev.inPhase, Dev.phase_of_inPhase h, hne]

section Commands

variable {s : State} {p : Fin 1024} (hl : Live s)

include hl

theorem runs_bringupStart (h : s.dev.inPhase p.val 0 = true) : Runs (.bringupStart p) s (s.dev.portDown p.val 1) :=
  Runs.of_run hl rfl (if_pos h)

theorem runs_laneReady (h : s.dev.inPhase p.val 1 = true) (hready : s.dev.canBeReady p.val = true) :
    Runs (.laneReady p) s
      ((((s.dev.portLanes p.val).foldl (fun d n => d.wr F.LANE_STAT_READY [n] 1) s.dev).wr
        F.LANE_MACRO_STAT_CAL_DONE [p.val / 8] 1).enterPhase p.val (s.dev.nextPhase p.val 1)) := by
  have hcomm : ∀ e : Dev, e.comm = s.dev.comm → e.nextPhase p.val 1 = s.dev.nextPhase p.val 1 := fun e he => by
    rw [Dev.nextPhase, Dev.onC_congr he, Dev.onC_congr he, Dev.nextPhase]
  have hlanes := foldl_proj Dev.comm (fun d n => d.wr F.LANE_STAT_READY [n] 1) (fun d n => d.wr_comm _ _ _)
    (s.dev.portLanes p.val) s.dev
  refine Runs.of_run hl rfl ((if_pos (by rw [h, hready]; rfl)).trans ?_)
  exact congrArg (Dev.enterPhase _ p.val) (hcomm _ hlanes)

theorem runs_anResolve (h : s.dev.inPhase p.val 2 = true) :
    Runs (.anResolve p) s
      (((s.dev.portLanes p.val).foldl (fun d n => d.wr F.LANE_STAT_LT_STATE [n] 0) s.dev).enterPhase p.val
        (s.dev.nextPhase p.val 2)) := by
  have hcomm : ∀ e : Dev, e.comm = s.dev.comm → e.nextPhase p.val 2 = s.dev.nextPhase p.val 2 := fun e he => by
    rw [Dev.nextPhase, Dev.onC_congr he, Dev.onC_congr he, Dev.nextPhase]
  have hlanes := foldl_proj Dev.comm (fun d n => d.wr F.LANE_STAT_LT_STATE [n] 0) (fun d n => d.wr_comm _ _ _)
    (s.dev.portLanes p.val) s.dev
  refine Runs.of_run hl rfl ((if_pos h).trans ?_)
  exact congrArg (Dev.enterPhase _ p.val) (hcomm _ hlanes)

theorem runs_ltComplete (taps : List (BitVec 30)) (h : s.dev.inPhase p.val 3 = true) :
    Runs (.ltComplete p taps) s
      (((s.dev.portLanes p.val).zipIdx.foldl (fun d e => d.laneTrained e.1 ((taps.getD e.2 0).toNat)) s.dev).enterPhase p.val 4) :=
  Runs.of_run hl rfl (if_pos h)

/-- Every lane tracks: phase 4 ends. -/
theorem runs_adaptTracking_bringup (meas : List LaneMeas) (h : s.dev.inPhase p.val 4 = true)
    (hfree : ∀ n ∈ s.dev.portLanes p.val, s.dev.rd F.LANE_STAT_ADAPT [n] ≠ 3) :
    Runs (.adaptTracking p meas) s
      ((((s.dev.portLanes p.val).zip meas).foldl (fun d x => d.laneTracks x.1 x.2) s.dev).enterPhase p.val 5) := by
  have hany : (s.dev.portLanes p.val).any (fun n => s.dev.rd F.LANE_STAT_ADAPT [n] == 3) = false := by simpa using hfree
  exact Runs.of_run hl rfl ((if_neg (by simp [hany])).trans (if_pos h))

/-- A frozen lane holds phase 4. -/
theorem runs_adaptTracking_frozen (meas : List LaneMeas) (h : s.dev.inPhase p.val 4 = true)
    (hfrozen : ∃ n ∈ s.dev.portLanes p.val, s.dev.rd F.LANE_STAT_ADAPT [n] = 3) : Runs (.adaptTracking p meas) s s.dev := by
  have hany : (s.dev.portLanes p.val).any (fun n => s.dev.rd F.LANE_STAT_ADAPT [n] == 3) = true := by simpa using hfrozen
  exact Runs.of_run hl rfl (if_pos (by rw [h, hany]; rfl))

/-- On a running port the lanes that acquire again track. -/
theorem runs_adaptTracking_running (meas : List LaneMeas) (h : s.dev.inPhase p.val 6 = true) :
    Runs (.adaptTracking p meas) s
      (((s.dev.portLanes p.val).zip meas).foldl (fun d x => if d.rd F.LANE_STAT_ADAPT [x.1] = 1 then d.laneTracks x.1 x.2 else d)
        s.dev) := by
  have h4 := Dev.not_inPhase h (j := 4) (by decide)
  exact Runs.of_run hl rfl ((if_neg (by simp [h4])).trans ((if_neg (by simp [h4])).trans (if_pos h)))

theorem runs_alignLock (skew : Fin 201) (h : s.dev.inPhase p.val 5 = true) :
    Runs (.alignLock p skew) s
      ((((s.dev.wr F.PCS_PORT_STAT_ALIGN_LOCK (pix p.val) 1).wr F.PCS_PORT_STAT_SKEW (pix p.val) skew.val).enterPhase
        p.val 6).updateLink p.val) :=
  Runs.of_run hl rfl (if_pos h)

theorem runs_bringupTimeout {k : Nat} (h1 : 1 ≤ k) (h5 : k ≤ 5) (h : s.dev.inPhase p.val k = true) :
    Runs (.bringupTimeout p) s
      (((s.dev.portDown p.val 7).portLanes p.val).foldl (fun d n => d.wr F.LANE_STAT_LT_STATE [n] 4) (s.dev.portDown p.val 7)) := by
  refine Runs.of_run hl rfl (if_pos ?_)
  rw [Dev.phase_of_inPhase h, h]
  simp [h1, h5]

theorem runs_bringupRetry (h : s.dev.inPhase p.val 7 = true) : Runs (.bringupRetry p) s (s.dev.portDown p.val 1) :=
  Runs.of_run hl rfl (if_pos h)

end Commands

/-! ## Lanes that stop, start to train or to adapt -/

@[simp] theorem Dev.port_wr (d : Dev) (f : Fld) (ix : List Nat) (v : Nat) : (d.wr f ix v).port = d.port :=
  funext fun _ => rfl

/-- Not by `rfl`, so that `simp` leaves no unfolding of the lane's new state to the kernel. -/
theorem Dev.port_setLane (d : Dev) (n : Nat) (x : LaneSt) : (d.setLane n x).port = d.port :=
  funext fun _ => rfl

theorem Dev.port_inc (d : Dev) (f : Fld) (ix : List Nat) : (d.inc f ix).port = d.port := by
  funext n
  rw [Dev.port, Dev.inc_phy, Dev.port]

theorem Dev.port_evalFreeze (d : Dev) (n : Nat) : (d.evalFreeze n).port = d.port := by
  simp only [Dev.evalFreeze, apply_ite Dev.port, Dev.port_inc, Dev.port_setLane, Dev.port_wr, ite_self]

theorem Dev.port_useTaps (d : Dev) (n : Nat) : (d.useTaps n).port = d.port := by
  simp only [Dev.useTaps, apply_ite Dev.port, Dev.port_setLane, ite_self]

theorem Dev.port_startTraining (d : Dev) (n : Nat) : (d.startTraining n).port = d.port := by
  simp only [Dev.startTraining, Dev.port_wr, Dev.port_setLane]

/-- A lane that stops writes fields of LANE_STAT alone. -/
theorem Dev.rd_laneOff (d : Dev) (n : Nat) {f : Fld} (ix : List Nat) (ha : f.apart F.LANE_STAT_ADAPT = true)
    (hw : f.apart F.LANE_STAT_FRZ_WHY = true) (ht : f.apart F.LANE_STAT_LT_STATE = true) : (d.laneOff n).rd f ix = d.rd f ix := by
  simp only [Dev.laneOff, apply_ite (fun e : Dev => e.rd f ix), Dev.rd_setLane, Dev.rd_wr_apart _ _ _ _ ha,
    Dev.rd_wr_apart _ _ _ _ hw, Dev.rd_wr_apart _ _ _ _ ht, ite_self]

/-! ## A port that goes down (R64) -/

theorem Dev.phase_portDown (d : Dev) (p k : Nat) : ((d.portDown p k).port p).phase = k := by
  rw [Dev.portDown, Dev.phase_updateLink, Dev.port_setPort_self]

theorem Dev.alignLock_portDown (d : Dev) (p k : Nat) : (d.portDown p k).on F.PCS_PORT_STAT_ALIGN_LOCK (pix p) = false := by
  have hoff : ∀ (l : List Nat) (e : Dev),
      (l.foldl Dev.laneOff e).rd F.PCS_PORT_STAT_ALIGN_LOCK (pix p) = e.rd F.PCS_PORT_STAT_ALIGN_LOCK (pix p) :=
    foldl_proj (fun e : Dev => e.rd F.PCS_PORT_STAT_ALIGN_LOCK (pix p)) Dev.laneOff
      (fun e n => e.rd_laneOff n _ (by decide) (by decide) (by decide))
  have hreach : ∀ (l : List Nat) (e : Dev),
      (l.foldl Dev.takeReach e).rd F.PCS_PORT_STAT_ALIGN_LOCK (pix p) = e.rd F.PCS_PORT_STAT_ALIGN_LOCK (pix p) :=
    foldl_proj (fun e : Dev => e.rd F.PCS_PORT_STAT_ALIGN_LOCK (pix p)) Dev.takeReach (fun e n => rfl)
  have hsignal : ∀ (e : Dev) (x : PortSignal) (was now : Bool),
      (e.portSignal p x was now).rd F.PCS_PORT_STAT_ALIGN_LOCK (pix p) = e.rd F.PCS_PORT_STAT_ALIGN_LOCK (pix p) :=
    fun e x was now => Dev.rd_of_beside (e.beside_portSignal p x was now) _ _
  have hport : ∀ (e : Dev) (x : PortSt),
      (e.setPort p x).rd F.PCS_PORT_STAT_ALIGN_LOCK (pix p) = e.rd F.PCS_PORT_STAT_ALIGN_LOCK (pix p) := fun _ _ => rfl
  rw [Dev.on, Dev.portDown, Dev.rd_updateLink_other (by decide) (by decide), hport, Dev.setTxLpi, hport, hsignal,
    apply_ite (fun e : Dev => e.rd F.PCS_PORT_STAT_ALIGN_LOCK (pix p)), hreach, ite_self, hoff, Dev.setDegraded,
    Dev.rd_wr_apart _ _ _ _ (by decide), hsignal, Dev.rd_wr_apart _ _ _ _ (by decide), Dev.rd_wr_apart _ _ _ _ (by decide),
    Dev.rd_wr_fits _ _ _ _ (by decide) (by decide) (by decide)]
  rfl

/-! ## A phase that is entered (R64 to R68) -/

/-- Port `p` is in phase `k`; its lanes have not begun yet. -/
def Dev.phaseSet (d : Dev) (p k : Nat) : Dev := (d.setPort p { d.port p with phase := k }).settleFault p

/-- Lane `n` of port `p` begins to adapt: in phase 4. -/
def Dev.beginAdapt (p : Nat) (d : Dev) (n : Nat) : Dev :=
  ((if d.onC F.PCS_PORT_CTL_LT_EN (pix p) then d else d.useTaps n).wr F.LANE_STAT_ADAPT [n] 1).evalFreeze n

theorem Dev.enterPhase_two (d : Dev) (p : Nat) :
    d.enterPhase p 2 = (((d.phaseSet p 2).portLanes p).take 1).foldl (fun d n => d.wr F.LANE_STAT_LT_STATE [n] 1) (d.phaseSet p 2) :=
  rfl

theorem Dev.enterPhase_four (d : Dev) (p : Nat) :
    d.enterPhase p 4 = ((d.phaseSet p 4).portLanes p).foldl (Dev.beginAdapt p) (d.phaseSet p 4) := rfl

theorem Dev.enterPhase_other (d : Dev) (p : Nat) {k : Nat} (h2 : k ≠ 2) (h3 : k ≠ 3) (h4 : k ≠ 4) :
    d.enterPhase p k = d.phaseSet p k := by
  unfold Dev.enterPhase
  split
  · exact absurd rfl h2
  · exact absurd rfl h3
  · exact absurd rfl h4
  · rfl

theorem Dev.phase_phaseSet (d : Dev) (p k : Nat) : ((d.phaseSet p k).port p).phase = k := by
  rw [Dev.phaseSet, Dev.port_settleFault, Dev.port_setPort_self]

theorem Dev.beside_phaseSet (d : Dev) (p k : Nat) : (d.phaseSet p k).beside = d.beside := by
  rw [Dev.phaseSet, Dev.beside_settleFault, Dev.beside_setPort]

theorem Dev.comm_of_beside {d e : Dev} (h : e.beside = d.beside) : e.comm = d.comm := congrArg (fun x => x.1.2) h

theorem Dev.lane_phaseSet (d : Dev) (p k : Nat) : (d.phaseSet p k).lane = d.lane := by
  obtain ⟨l, h⟩ := (d.setPort p { d.port p with phase := k }).portSignal_eq p .remoteFault
    ((d.setPort p { d.port p with phase := k }).port p).txFault ((d.setPort p { d.port p with phase := k }).sendsFault p)
  rw [Dev.phaseSet, Dev.settleFault, Dev.setPort_lane, h]
  rfl

theorem Dev.phase_enterPhase (d : Dev) (p k : Nat) : ((d.enterPhase p k).port p).phase = k := by
  have hlanes : ∀ (step : Dev → Nat → Dev), (∀ e n, (step e n).port = e.port) → ∀ (l : List Nat),
      ((l.foldl step (d.phaseSet p k)).port p).phase = k := fun step hstep l => by
    rw [foldl_proj Dev.port step hstep, Dev.phase_phaseSet]
  by_cases h2 : k = 2
  · subst h2
    exact hlanes _ (fun e n => e.port_wr _ _ _) _
  by_cases h3 : k = 3
  · subst h3
    exact hlanes _ Dev.port_startTraining _
  by_cases h4 : k = 4
  · subst h4
    refine hlanes (Dev.beginAdapt p) (fun e n => ?_) _
    rw [Dev.beginAdapt, Dev.port_evalFreeze, Dev.port_wr, apply_ite Dev.port, Dev.port_useTaps, ite_self]
  · rw [d.enterPhase_other p h2 h3 h4, Dev.phase_phaseSet]

/-- Auto-negotiation is shown on the first lane. -/
theorem Dev.ltState_enterPhase_two (d : Dev) (p n : Nat) (h : (d.portLanes p).head? = some n) :
    (d.enterPhase p 2).rd F.LANE_STAT_LT_STATE [n] = 1 := by
  obtain ⟨t, ht⟩ : ∃ t, d.portLanes p = n :: t := List.head?_eq_some_iff.1 h
  rw [Dev.enterPhase_two, Dev.portLanes_congr (Dev.comm_of_beside (d.beside_phaseSet p 2)), ht, List.take_one, List.head?_cons]
  exact Dev.rd_wr_fits _ _ _ _ (by decide) (by decide) (by decide)

/-! ### Lanes that begin to adapt -/

/-- What ADAPT shows of lane `n` when its adaptation begins. -/
def Dev.adaptShown (d : Dev) (n : Nat) : Nat := if (d.lane n).training || d.freezeWhy n == 0 then 1 else 3

theorem Dev.evalFreeze_none {d : Dev} {n : Nat} (ha : d.rd F.LANE_STAT_ADAPT [n] = 1) (hw : d.freezeWhy n = 0) : d.evalFreeze n = d := by
  simp [Dev.evalFreeze, ha, hw]

/-- An acquiring lane whose reasons are looked at stays as it is, or freezes. -/
theorem Dev.adapt_evalFreeze_acquiring {d : Dev} {n : Nat} (ha : d.rd F.LANE_STAT_ADAPT [n] = 1) :
    (d.evalFreeze n).rd F.LANE_STAT_ADAPT [n] = d.adaptShown n := by
  unfold Dev.adaptShown
  cases ht : (d.lane n).training
  case true => rw [Dev.evalFreeze_training ht, ha, Bool.true_or, if_pos rfl]
  case false =>
    by_cases hw : d.freezeWhy n = 0
    · rw [Dev.evalFreeze_none ha hw, ha, hw]
      rfl
    · rw [(Dev.evalFreeze_acquiring_fields ht ha hw).1, if_neg (by simp [hw])]

/-- What is shown rests on the lane's state and on its LANE_ADAPT. -/
theorem Dev.adaptShown_congr {d e : Dev} {n : Nat} (ht : (e.lane n).training = (d.lane n).training)
    (hq : (e.lane n).quiet = (d.lane n).quiet) (hi : (e.lane n).idle = (d.lane n).idle)
    (hrd : ∀ f : Fld, f.reg = R.LANE_ADAPT → e.rd f [n] = d.rd f [n]) : e.adaptShown n = d.adaptShown n := by
  have hon : ∀ f : Fld, f.reg = R.LANE_ADAPT → e.on f [n] = d.on f [n] := fun f hf => by
    rw [Dev.on, hrd f hf, Dev.on]
  have hwhy : e.freezeWhy n = d.freezeWhy n := by
    simp only [Dev.freezeWhy, hq, hi, hon F.LANE_ADAPT_FORCE_FRZ rfl, hon F.LANE_ADAPT_IDLE_FRZ rfl]
  rw [Dev.adaptShown, ht, hwhy, Dev.adaptShown]

/-- Adaptation that begins at a lane writes registers of that lane alone. -/
theorem Dev.rd_evalFreeze_of_key (d : Dev) (n : Nat) (f : Fld) (ix : List Nat) (hstat : f.reg.key ix ≠ R.LANE_STAT.key [n])
    (hcnt : f.reg.key ix ≠ R.LANE_FRZ_CNT.key [n]) : (d.evalFreeze n).rd f ix = d.rd f ix := by
  have hwr : ∀ (e : Dev) (g : Fld) (v : Nat), g.reg = R.LANE_STAT → (e.wr g [n] v).rd f ix = e.rd f ix := fun e g v hg =>
    e.rd_wr_of_key g f [n] ix v (hg ▸ hstat)
  have hinc : ∀ e : Dev, (e.inc F.LANE_FRZ_CNT_COUNT [n]).rd f ix = e.rd f ix := fun e => e.rd_addTo_of_key _ f _ _ 1 hcnt
  simp only [Dev.evalFreeze, apply_ite (fun e : Dev => e.rd f ix), Dev.rd_setLane, hinc, hwr _ F.LANE_STAT_ADAPT _ rfl,
    hwr _ F.LANE_STAT_FRZ_WHY _ rfl, ite_self]

theorem Dev.lane_evalFreeze_other (d : Dev) {m n : Nat} (h : m ≠ n) : (d.evalFreeze n).lane m = d.lane m := by
  simp only [Dev.evalFreeze, apply_ite (fun e : Dev => e.lane m), Dev.lane_inc, Dev.lane_setLane_other _ _ _ _ h, Dev.lane_wr, ite_self]

/-- A lane that drives its taps changes no register. -/
theorem Dev.rd_useTaps (d : Dev) (n : Nat) (f : Fld) (ix : List Nat) : (d.useTaps n).rd f ix = d.rd f ix := by
  simp only [Dev.useTaps, apply_ite (fun e : Dev => e.rd f ix), Dev.rd_setLane, ite_self]

theorem Dev.adaptShown_useTaps (d : Dev) (m n : Nat) : (d.useTaps n).adaptShown m = d.adaptShown m := by
  unfold Dev.useTaps
  split
  · rfl
  · by_cases hm : m = n
    · subst hm
      have hself := d.lane_setLane_self m { d.lane m with taps := d.txTaps m }
      exact Dev.adaptShown_congr (by rw [hself]) (by rw [hself]) (by rw [hself]) fun f _ => rfl
    · have hother := d.lane_setLane_other n m { d.lane n with taps := d.txTaps n } hm
      exact Dev.adaptShown_congr (by rw [hother]) (by rw [hother]) (by rw [hother]) fun f _ => rfl

theorem Dev.adaptShown_wr_adapt (d : Dev) (m n v : Nat) : (d.wr F.LANE_STAT_ADAPT [n] v).adaptShown m = d.adaptShown m :=
  Dev.adaptShown_congr rfl rfl rfl fun f hf => d.rd_wr_other F.LANE_STAT_ADAPT f [n] [m] v (by rw [hf]; decide) (by rw [hf]; decide) (by decide)

section BeginAdapt

variable (p : Nat) (d : Dev) {m n : Nat}

/-- Before its reasons are looked at a lane that begins to adapt acquires. -/
theorem Dev.beginAdapt_eq : ∃ e : Dev, Dev.beginAdapt p d n = (e.wr F.LANE_STAT_ADAPT [n] 1).evalFreeze n ∧
    (∀ f ix, e.rd f ix = d.rd f ix) ∧ (∀ k, e.adaptShown k = d.adaptShown k) := by
  refine ⟨_, rfl, ?_⟩
  split
  · exact ⟨fun _ _ => rfl, fun _ => rfl⟩
  · exact ⟨d.rd_useTaps n, fun k => d.adaptShown_useTaps k n⟩

theorem Dev.adapt_beginAdapt : (Dev.beginAdapt p d n).rd F.LANE_STAT_ADAPT [n] = d.adaptShown n := by
  obtain ⟨e, he, _, hshown⟩ := Dev.beginAdapt_eq p d (n := n)
  have hacquires := e.rd_wr_fits F.LANE_STAT_ADAPT [n] 1 (by decide) (by decide) (by decide)
  rw [he, Dev.adapt_evalFreeze_acquiring hacquires, Dev.adaptShown_wr_adapt, hshown]

theorem Dev.adapt_beginAdapt_other (h : R.LANE_STAT.key [m] ≠ R.LANE_STAT.key [n]) :
    (Dev.beginAdapt p d n).rd F.LANE_STAT_ADAPT [m] = d.rd F.LANE_STAT_ADAPT [m] := by
  obtain ⟨e, he, hrd, _⟩ := Dev.beginAdapt_eq p d (n := n)
  rw [he, Dev.rd_evalFreeze_of_key _ n F.LANE_STAT_ADAPT [m] h (Reg.key_ne _ _ (by decide) (by decide) (by decide)),
    e.rd_wr_of_key F.LANE_STAT_ADAPT F.LANE_STAT_ADAPT _ _ _ h, hrd]

theorem Dev.adaptShown_evalFreeze_other (h : m ≠ n) : (d.evalFreeze n).adaptShown m = d.adaptShown m := by
  have hlane := d.lane_evalFreeze_other h
  refine Dev.adaptShown_congr (by rw [hlane]) (by rw [hlane]) (by rw [hlane]) fun f hf => ?_
  exact d.rd_evalFreeze_of_key n f [m] (by rw [hf]; exact Reg.key_ne _ _ (by decide) (by decide) (by decide))
    (by rw [hf]; exact Reg.key_ne _ _ (by decide) (by decide) (by decide))

theorem Dev.adaptShown_beginAdapt_other (h : m ≠ n) : (Dev.beginAdapt p d n).adaptShown m = d.adaptShown m := by
  obtain ⟨e, he, _, hshown⟩ := Dev.beginAdapt_eq p d (n := n)
  rw [he, Dev.adaptShown_evalFreeze_other _ h, Dev.adaptShown_wr_adapt, hshown]

end BeginAdapt

/-- A projection that a fold's steps at the members of its list keep is kept by the fold. -/
theorem foldl_proj_mem {α β γ : Type} (π : β → γ) (f : β → α → β) (l : List α) (h : ∀ a ∈ l, ∀ b, π (f b a) = π b) (b : β) :
    π (l.foldl f b) = π b := by
  induction l generalizing b with
  | nil => rfl
  | cons a t ih => rw [List.foldl_cons, ih fun x hx => h x (.tail _ hx), h a (.head _)]

/-- Lanes with registers of their own begin to adapt one after the other, each by its own state. -/
theorem Dev.adapt_beginAll (p : Nat) (l : List Nat) (hl : l.Pairwise (fun a b => R.LANE_STAT.key [a] ≠ R.LANE_STAT.key [b])) (d : Dev)
    {n : Nat} (hn : n ∈ l) : (l.foldl (Dev.beginAdapt p) d).rd F.LANE_STAT_ADAPT [n] = d.adaptShown n := by
  induction l generalizing d with
  | nil => cases hn
  | cons x t ih =>
    obtain ⟨hx, ht⟩ := List.pairwise_cons.1 hl
    rw [List.foldl_cons]
    by_cases hnt : n ∈ t
    · have hne : n ≠ x := fun h => hx n hnt (by rw [h])
      rw [ih ht _ hnt, Dev.adaptShown_beginAdapt_other p d hne]
    · obtain rfl : n = x := (List.mem_cons.1 hn).resolve_right hnt
      rw [foldl_proj_mem (fun e : Dev => e.rd F.LANE_STAT_ADAPT [n]) (Dev.beginAdapt p) t
        (fun y hy e => Dev.adapt_beginAdapt_other p e (hx y hy)), Dev.adapt_beginAdapt]

theorem shapeOf_lanes {code r k : Nat} (h : shapeOf code = some (r, k)) : k ≤ 8 := by
  unfold shapeOf at h
  split at h <;> simp_all <;> omega

theorem laneStat_key (n : Nat) : R.LANE_STAT.key [n] = 3 * 4294967296 + 21 * 1048576 + n % 1048576 := by
  simp [Reg.key, Reg.keyAt, flatIndex, R.LANE_STAT]

/-- The lanes of a port, at most 8 in a row, have registers of their own. -/
theorem Dev.portLanes_keys (d : Dev) (p : Nat) : (d.portLanes p).Pairwise (fun a b => R.LANE_STAT.key [a] ≠ R.LANE_STAT.key [b]) := by
  unfold Dev.portLanes
  split
  next r k hport =>
    have hk : k ≤ 8 := by
      unfold Dev.portShape Dev.shape at hport
      split at hport
      · rename_i hshape
        split at hport
        · obtain ⟨rfl, rfl⟩ : _ = r ∧ _ = k := by simpa using hport
          exact shapeOf_lanes hshape
        · cases hport
      · cases hport
    rw [List.pairwise_map]
    refine List.pairwise_lt_range.imp_of_mem fun {i j} _ hj hij => ?_
    have := List.mem_range.1 hj
    rw [laneStat_key, laneStat_key]
    omega
  · exact List.Pairwise.nil

/-- Settles O12: a command that finds its port in the phase that it ends is the first branch of its meaning; what a phase shows is
written as it is entered, and no later part of the entry writes it again. -/
theorem bringupPhases : Obligations.BringupPhases := by
  unfold Obligations.BringupPhases
  refine ⟨fun s p hl => ?commands, fun d p k => ?shown⟩
  case commands =>
    exact ⟨runs_bringupStart hl, runs_laneReady hl, runs_anResolve hl, runs_ltComplete hl, runs_adaptTracking_bringup hl,
      runs_adaptTracking_frozen hl, runs_adaptTracking_running hl, runs_alignLock hl, fun k => runs_bringupTimeout hl,
      runs_bringupRetry hl⟩
  case shown =>
    refine ⟨d.phase_enterPhase p k, d.phase_portDown p k, d.alignLock_portDown p k, d.ltState_enterPhase_two p, fun n hn => ?_⟩
    have hbeside := d.beside_phaseSet p 4
    have hlane := d.lane_phaseSet p 4
    rw [Dev.enterPhase_four, Dev.portLanes_congr (Dev.comm_of_beside hbeside), Dev.adapt_beginAll p _ (d.portLanes_keys p) _ hn]
    exact Dev.adaptShown_congr (by rw [hlane]) (by rw [hlane]) (by rw [hlane]) fun f _ => Dev.rd_of_beside hbeside f [n]


/-! ## What the side port's reception leaves alone (R71 to R73)

A code-group is counted first; what its symbol then does to frames, to the deskew and to the negotiation changes neither the
disparity of a lane, nor SIG_DET, nor the two error counters. -/

/-- The counters and the lane state that a code-group changes as it comes. -/
def Dev.received (d : Dev) : ((Nat → Bool) × (Nat → Nat)) × (Nat → Nat) × (Nat → Nat) :=
  ((fun l => (d.auxLane l).rdPos, fun l => d.rd F.AUX_LANE_STAT_SIG_DET [l]), fun p => d.rd F.AUX_DISP_ERR_COUNT [p],
    fun p => d.rd F.AUX_CODE_ERR_COUNT [p])

/-- A field whose writes leave SIG_DET and the two counters alone. -/
def Fld.uncounted (g : Fld) : Bool :=
  [F.AUX_LANE_STAT_SIG_DET, F.AUX_DISP_ERR_COUNT, F.AUX_CODE_ERR_COUNT].all (fun f => f.apart g)

@[simp] theorem Dev.auxLane_wr (d : Dev) (f : Fld) (ix : List Nat) (v : Nat) : (d.wr f ix v).auxLane = d.auxLane :=
  funext fun _ => rfl

@[simp] theorem Dev.auxRx_wr (d : Dev) (f : Fld) (ix : List Nat) (v : Nat) : (d.wr f ix v).auxRx = d.auxRx :=
  funext fun _ => rfl

theorem Dev.received_of_rd {d e : Dev} (hlane : ∀ l, (e.auxLane l).rdPos = (d.auxLane l).rdPos)
    (hrd : ∀ f ∈ [F.AUX_LANE_STAT_SIG_DET, F.AUX_DISP_ERR_COUNT, F.AUX_CODE_ERR_COUNT], ∀ ix, e.rd f ix = d.rd f ix) :
    e.received = d.received := by
  simp only [List.forall_mem_cons, List.not_mem_nil, false_implies, implies_true, and_true] at hrd
  obtain ⟨hsig, hdisp, hcode⟩ := hrd
  simp only [Dev.received, hlane, hsig, hdisp, hcode]

theorem Dev.received_wr (d : Dev) (g : Fld) (ix : List Nat) (v : Nat) (h : g.uncounted = true) :
    (d.wr g ix v).received = d.received :=
  Dev.received_of_rd (fun l => by rw [Dev.auxLane_wr]) fun _ hf jx => d.rd_wr_apart jx ix v (List.all_eq_true.1 h _ hf)

/-- An update of the device's ports and lanes that leaves the disparities alone. -/
theorem Dev.received_phy (d : Dev) (x : Phy) (h : ∀ l, (({ d with phy := x } : Dev).auxLane l).rdPos = (d.auxLane l).rdPos) :
    ({ d with phy := x } : Dev).received = d.received :=
  Dev.received_of_rd h fun _ _ _ => rfl

theorem Dev.received_setAuxLane (d : Dev) (n : Nat) (x : AuxLane) (h : x.rdPos = (d.auxLane n).rdPos) :
    (d.setAuxLane n x).received = d.received := by
  refine d.received_phy _ fun l => ?_
  change ((d.setAuxLane n x).auxLane l).rdPos = _
  by_cases hl : l = n
  · rw [hl, Dev.auxLane_setAuxLane_self, h]
  · rw [Dev.auxLane_setAuxLane_other _ _ _ _ hl]

theorem Dev.received_setAuxRx (d : Dev) (n : Nat) (x : AuxRx) : (d.setAuxRx n x).received = d.received :=
  d.received_phy _ fun _ => rfl

theorem Dev.received_setAuxAn (d : Dev) (n : Nat) (x : AuxAn) : (d.setAuxAn n x).received = d.received :=
  d.received_phy _ fun _ => rfl

theorem Dev.received_align (d : Dev) (x : AuxAlign) : ({ d with phy := { d.phy with auxAlign := x } } : Dev).received = d.received :=
  d.received_phy _ fun _ => rfl

theorem Dev.auxLane_of_kept {d e : Dev} (h : e.kept = d.kept) (l : Nat) : e.auxLane l = d.auxLane l := by
  rw [Dev.auxLane, Dev.phy_of_kept h, Dev.auxLane]

theorem Dev.received_pmc (d : Dev) (u code n : Nat) : (d.pmc u code n).received = d.received := by
  have hevents : ∀ f ∈ [F.AUX_LANE_STAT_SIG_DET, F.AUX_DISP_ERR_COUNT, F.AUX_CODE_ERR_COUNT], f.eventless = true := by decide
  exact Dev.received_of_rd (fun l => by rw [Dev.auxLane_of_kept (d.kept_pmc u code n)]) fun f hf ix => Dev.rd_pmc (hevents f hf) ix d u code n

theorem Dev.received_auxAnNew (d : Dev) (p : Nat) : (d.auxAnNew p).received = d.received := d.received_setAuxAn _ _

/-! ### Symbols -/

theorem Dev.received_auxStart (d : Dev) (p : Nat) : (d.auxStart p).received = d.received := by
  rw [Dev.auxStart, Dev.received_setAuxRx]
  exact foldl_proj Dev.received _ (fun e i => e.received_wr _ _ _ (by decide)) _ _

theorem Dev.received_auxFrameEnd (d : Dev) (p : Nat) : (d.auxFrameEnd p).received = d.received := by
  have hdeliver : ∀ (e : Dev) (l : List (Nat × List Byte)),
      ({ e with phy := { e.phy with delivered := l } } : Dev).received = e.received := fun e l => e.received_phy _ fun _ => rfl
  simp only [Dev.auxFrameEnd, apply_ite Dev.received, Dev.received_pmc, hdeliver, Dev.received_setAuxRx, ite_self]

theorem Dev.received_auxSymbol (d : Dev) (p v : Nat) : (d.auxSymbol p v).received = d.received := by
  simp only [Dev.auxSymbol, apply_ite Dev.received, Dev.received_setAuxRx, Dev.received_auxStart, Dev.received_auxFrameEnd, ite_self]

/-! ### Mode 1 -/

theorem Dev.received_auxUnalign (d : Dev) : d.auxUnalign.received = d.received := by
  refine (foldl_proj Dev.received _ (fun e l => ?_) _ _).trans (d.received_align _)
  exact e.received_setAuxLane l _ rfl

theorem Dev.received_auxDeskew (d : Dev) (col : List Nat) : (d.auxDeskew col).received = d.received := by
  simp only [Dev.auxDeskew, apply_ite Dev.received, Dev.received_align, Dev.received_auxUnalign, ite_self]

theorem Dev.received_auxFaultRx (d : Dev) (col : List Nat) : (d.auxFaultRx col).received = d.received := by
  have hwr : ∀ (e : Dev) (v : Nat), (e.wr F.AUX_PORT_STAT_RX_FAULT [0] v).received = e.received := fun e v =>
    e.received_wr _ _ _ (by decide)
  simp only [Dev.auxFaultRx, apply_ite Dev.received, hwr, Dev.received_align, ite_self]

theorem Dev.received_auxColumnIn (d : Dev) (col : List Nat) : (d.auxColumnIn col).received = d.received := by
  simp only [Dev.auxColumnIn, apply_ite Dev.received, foldl_proj Dev.received _ (fun e v => e.received_auxSymbol 0 v),
    Dev.received_auxFaultRx, Dev.received_auxDeskew, ite_self]

theorem Dev.received_auxColumns (d : Dev) (fuel : Nat) : (d.auxColumns fuel).received = d.received := by
  induction fuel generalizing d with
  | zero => rfl
  | succ k ih =>
    rw [Dev.auxColumns]
    split
    · rfl
    · rw [ih, Dev.received_auxColumnIn]
      refine foldl_proj Dev.received _ (fun e l => ?_) _ _
      exact e.received_setAuxLane l _ rfl

theorem Dev.received_auxHold (d : Dev) (l v : Nat) : (d.auxHold l v).received = d.received := by
  have hheld : ∀ (e : Dev) (x : Option (List Nat)), (e.setAuxLane l { e.auxLane l with held := x }).received = e.received :=
    fun e x => e.received_setAuxLane l _ rfl
  unfold Dev.auxHold
  dsimp only
  cases (d.auxLane l).held <;>
    simp only [apply_ite Dev.received, Dev.received_auxUnalign, Dev.received_auxColumns, hheld, ite_self]

/-! ### Mode 2 and the link -/

theorem Dev.received_auxResolve (d : Dev) (p : Nat) : (d.auxResolve p).received = d.received := by
  unfold Dev.auxResolve
  split
  · exact d.received_wr _ _ _ (by decide)
  · exact d.received_wr _ _ _ (by decide)
  · rfl

theorem Dev.received_auxNegotiate (d : Dev) (p : Nat) : (d.auxNegotiate p).received = d.received := by
  unfold Dev.auxNegotiate
  dsimp only
  split
  · rfl
  · split
    · exact d.received_auxAnNew p
    · split <;> simp only [apply_ite Dev.received, Dev.received_auxAnNew, Dev.received_setAuxAn, Dev.received_auxResolve, ite_self]

theorem Dev.received_auxOrderedSet (d : Dev) (p : Nat) (last : List Nat) : (d.auxOrderedSet p last).received = d.received := by
  unfold Dev.auxOrderedSet
  split
  · simp only [apply_ite Dev.received, Dev.received_setAuxAn, ite_self]
  · simp only [apply_ite Dev.received, Dev.received_setAuxAn, ite_self]
  · rfl

theorem Dev.received_auxLink (d : Dev) (p : Nat) : (d.auxLink p).received = d.received := by
  rw [Dev.auxLink, Dev.received_wr _ _ _ _ (by decide), Dev.received_wr _ _ _ _ (by decide), Dev.received_wr _ _ _ _ (by decide)]

/-! ## AUX_CODE_GROUP (R71, R72) -/

theorem rdPos_auxSync (mode : Nat) (x : AuxLane) (err comma : Bool) : (auxSync mode x err comma).rdPos = x.rdPos := by
  simp only [auxSync, apply_ite AuxLane.rdPos, ite_self]

/-- Lane `l` has received a code-group and goes on as `x`; a disparity error and a code error of its port `p` are counted. -/
def Dev.groupCounted (d : Dev) (l p : Nat) (x : AuxLane) (disp code : Bool) : Dev :=
  let d := ((d.setAuxLane l x).wr F.AUX_LANE_STAT_SIG_DET [l] 1).wr F.AUX_LANE_STAT_CDR_LOCK [l] 1
  let d := if disp then d.inc F.AUX_DISP_ERR_COUNT [p] else d
  if code then (d.inc F.AUX_CODE_ERR_COUNT [p]).pmc 130 0x7E 1 else d

@[simp] theorem Dev.auxLane_latched (d e : Dev) : (Dev.latched d e).auxLane = e.auxLane := rfl
@[simp] theorem Dev.auxRx_latched (d e : Dev) : (Dev.latched d e).auxRx = e.auxRx := rfl

theorem Dev.auxLane_inc (d : Dev) (f : Fld) (ix : List Nat) : (d.inc f ix).auxLane = d.auxLane := by
  funext l
  rw [Dev.auxLane, Dev.inc_phy, Dev.auxLane]

theorem Dev.auxLane_groupCounted (d : Dev) (l p : Nat) (x : AuxLane) (disp code : Bool) :
    (d.groupCounted l p x disp code).auxLane l = x := by
  have hpmc : ∀ e : Dev, (e.pmc 130 0x7E 1).auxLane = e.auxLane := fun e => funext (Dev.auxLane_of_kept (e.kept_pmc _ _ _))
  simp only [Dev.groupCounted, apply_ite Dev.auxLane, hpmc, Dev.auxLane_inc, Dev.auxLane_wr, ite_self, Dev.auxLane_setAuxLane_self]

theorem Dev.sigDet_groupCounted (d : Dev) (l p : Nat) (x : AuxLane) (disp code : Bool) :
    (d.groupCounted l p x disp code).rd F.AUX_LANE_STAT_SIG_DET [l] = 1 := by
  have hpmc : ∀ e : Dev, (e.pmc 130 0x7E 1).rd F.AUX_LANE_STAT_SIG_DET [l] = e.rd F.AUX_LANE_STAT_SIG_DET [l] := fun e =>
    Dev.rd_pmc (by decide) _ e _ _ _
  simp only [Dev.groupCounted, apply_ite (fun e : Dev => e.rd F.AUX_LANE_STAT_SIG_DET [l]), hpmc,
    Dev.rd_inc_apart _ _ _ (show F.AUX_LANE_STAT_SIG_DET.apart F.AUX_CODE_ERR_COUNT = true by decide),
    Dev.rd_inc_apart _ _ _ (show F.AUX_LANE_STAT_SIG_DET.apart F.AUX_DISP_ERR_COUNT = true by decide), ite_self]
  rw [Dev.rd_wr_apart _ _ _ _ (by decide), Dev.rd_wr_fits _ _ _ _ (by decide) (by decide) (by decide)]

/-- Before the counts, the counters of port `p` are as they were. -/
theorem Dev.rd_signalled (d : Dev) (l : Nat) (x : AuxLane) {f : Fld} (ix : List Nat) (hs : f.apart F.AUX_LANE_STAT_SIG_DET = true)
    (hc : f.apart F.AUX_LANE_STAT_CDR_LOCK = true) :
    (((d.setAuxLane l x).wr F.AUX_LANE_STAT_SIG_DET [l] 1).wr F.AUX_LANE_STAT_CDR_LOCK [l] 1).rd f ix = d.rd f ix := by
  rw [Dev.rd_wr_apart _ _ _ _ hc, Dev.rd_wr_apart _ _ _ _ hs, Dev.rd, Dev.setAuxLane_raw, Dev.rd]

theorem Dev.dispErr_groupCounted (d : Dev) (l p : Nat) (x : AuxLane) (disp code : Bool) :
    (d.groupCounted l p x disp code).rd F.AUX_DISP_ERR_COUNT [p] =
      if disp then min (2 ^ 32 - 1) (d.rd F.AUX_DISP_ERR_COUNT [p] + 1) else d.rd F.AUX_DISP_ERR_COUNT [p] := by
  have hpmc : ∀ e : Dev, (e.pmc 130 0x7E 1).rd F.AUX_DISP_ERR_COUNT [p] = e.rd F.AUX_DISP_ERR_COUNT [p] := fun e =>
    Dev.rd_pmc (by decide) _ e _ _ _
  have hinc : ∀ e : Dev, (e.inc F.AUX_DISP_ERR_COUNT [p]).rd F.AUX_DISP_ERR_COUNT [p] =
      min (2 ^ 32 - 1) (e.rd F.AUX_DISP_ERR_COUNT [p] + 1) := fun e => e.rd_inc_saturates _ _ (by decide) (by decide) (by decide)
  simp only [Dev.groupCounted, apply_ite (fun e : Dev => e.rd F.AUX_DISP_ERR_COUNT [p]), hpmc, hinc,
    Dev.rd_inc_apart _ _ _ (show F.AUX_DISP_ERR_COUNT.apart F.AUX_CODE_ERR_COUNT = true by decide), ite_self,
    d.rd_signalled l x [p] (show F.AUX_DISP_ERR_COUNT.apart F.AUX_LANE_STAT_SIG_DET = true by decide) (by decide)]

theorem Dev.codeErr_groupCounted (d : Dev) (l p : Nat) (x : AuxLane) (disp code : Bool) :
    (d.groupCounted l p x disp code).rd F.AUX_CODE_ERR_COUNT [p] =
      if code then min (2 ^ 32 - 1) (d.rd F.AUX_CODE_ERR_COUNT [p] + 1) else d.rd F.AUX_CODE_ERR_COUNT [p] := by
  have hpmc : ∀ e : Dev, (e.pmc 130 0x7E 1).rd F.AUX_CODE_ERR_COUNT [p] = e.rd F.AUX_CODE_ERR_COUNT [p] := fun e =>
    Dev.rd_pmc (by decide) _ e _ _ _
  have hinc : ∀ e : Dev, (e.inc F.AUX_CODE_ERR_COUNT [p]).rd F.AUX_CODE_ERR_COUNT [p] =
      min (2 ^ 32 - 1) (e.rd F.AUX_CODE_ERR_COUNT [p] + 1) := fun e => e.rd_inc_saturates _ _ (by decide) (by decide) (by decide)
  simp only [Dev.groupCounted, apply_ite (fun e : Dev => e.rd F.AUX_CODE_ERR_COUNT [p]), hpmc, hinc,
    Dev.rd_inc_apart _ _ _ (show F.AUX_CODE_ERR_COUNT.apart F.AUX_DISP_ERR_COUNT = true by decide), ite_self,
    d.rd_signalled l x [p] (show F.AUX_CODE_ERR_COUNT.apart F.AUX_LANE_STAT_SIG_DET = true by decide) (by decide)]

/-- What symbol `sym` does once its code-group is counted: in mode 1 it goes to the deskew, else to the frame and the negotiation; then
the link follows. -/
def Dev.groupActs (d : Dev) (l p sym : Nat) (err : Bool) (last : List Nat) : Dev :=
  let v := if err then sym + 512 else sym
  (if d.auxMode = 1 then d.auxHold l v
    else (if err then d.auxSymbol p v else (d.auxSymbol p v).auxOrderedSet p last).auxNegotiate p).auxLink p

theorem Dev.received_groupActs (d : Dev) (l p v : Nat) (err : Bool) (last : List Nat) :
    (d.groupActs l p v err last).received = d.received := by
  simp only [Dev.groupActs, Dev.received_auxLink, apply_ite Dev.received, Dev.received_auxHold, Dev.received_auxNegotiate,
    Dev.received_auxOrderedSet, Dev.received_auxSymbol, ite_self]

/-- The symbol of a code-group: a byte, or a special plus 256. -/
def groupSym (cg : AuxCodeGroup) : Nat := cg.byte.toNat + (if cg.special then 256 else 0)

/-- The lane after a code-group, its disparity adopted and its synchronisation looked at. -/
def groupLane (cg : AuxCodeGroup) (mode : Nat) (x : AuxLane) (err : Bool) : AuxLane :=
  auxSync mode { x with rdPos := if cg.inNeg || cg.inPos then cg.endsPos else x.rdPos,
                        last := (groupSym cg :: x.last).take 4 } err (cg.special && cg.byte == 0xBC)

/-- A code-group in neither column, or a special one where it is not used. -/
def groupCodeErr (cg : AuxCodeGroup) (mode l : Nat) (x : AuxLane) : Bool :=
  !(cg.inNeg || cg.inPos) || (cg.special && (cg.misplaced || auxMisplaced mode l cg.byte.toNat (x.last.headD 0)))

/-- A code-group in the wrong column alone. -/
def groupDispErr (cg : AuxCodeGroup) (x : AuxLane) : Bool :=
  (cg.inNeg || cg.inPos) && !(if x.rdPos then cg.inPos else cg.inNeg)

theorem runs_auxCodeGroup {s : State} {l : Fin 4} {p : Nat} (cg : AuxCodeGroup) (hl : Live s) (hp : s.dev.auxPortOf l.val = some p) :
    let x := s.dev.auxLane l.val
    let code := groupCodeErr cg s.dev.auxMode l.val x
    let disp := groupDispErr cg x
    let y := groupLane cg s.dev.auxMode x (code || disp)
    Runs (.auxCodeGroup l cg) s
      ((s.dev.groupCounted l.val p y disp code).groupActs l.val p (groupSym cg) (code || disp) y.last) := by
  refine Runs.of_run hl rfl ?_
  dsimp only
  rw [hp]
  rfl

theorem auxCodeGroup_counts {s : State} {l : Fin 4} {p : Nat} (cg : AuxCodeGroup) (hl : Live s) (hp : s.dev.auxPortOf l.val = some p) :
    let x := s.dev.auxLane l.val
    ∃ t, exec (.auxCodeGroup l cg) s = .next t ∧ t.dev.on F.AUX_LANE_STAT_SIG_DET [l.val] = true ∧
      (t.dev.auxLane l.val).rdPos = (if cg.inNeg || cg.inPos then cg.endsPos else x.rdPos) ∧
      t.dev.rd F.AUX_DISP_ERR_COUNT [p] = (if groupDispErr cg x then min (2 ^ 32 - 1) (s.dev.rd F.AUX_DISP_ERR_COUNT [p] + 1)
        else s.dev.rd F.AUX_DISP_ERR_COUNT [p]) ∧
      t.dev.rd F.AUX_CODE_ERR_COUNT [p] = (if groupCodeErr cg s.dev.auxMode l.val x then
        min (2 ^ 32 - 1) (s.dev.rd F.AUX_CODE_ERR_COUNT [p] + 1) else s.dev.rd F.AUX_CODE_ERR_COUNT [p]) := by
  intro x
  refine ⟨_, runs_auxCodeGroup cg hl hp, ?_⟩
  have hkept := Dev.received_groupActs (s.dev.groupCounted l.val p
    (groupLane cg s.dev.auxMode x (groupCodeErr cg s.dev.auxMode l.val x || groupDispErr cg x)) (groupDispErr cg x)
    (groupCodeErr cg s.dev.auxMode l.val x)) l.val p (groupSym cg) (groupCodeErr cg s.dev.auxMode l.val x || groupDispErr cg x)
    (groupLane cg s.dev.auxMode x (groupCodeErr cg s.dev.auxMode l.val x || groupDispErr cg x)).last
  simp only [Dev.received, Prod.mk.injEq] at hkept
  obtain ⟨⟨hpos, hsig⟩, hdisp, hcode⟩ := hkept
  simp only [Dev.rd_latched _ _ _ hl.2, Dev.on_latched _ _ _ hl.2, Dev.auxLane_latched]
  refine ⟨?_, (congrFun hpos l.val).trans ?_, (congrFun hdisp p).trans ?_, (congrFun hcode p).trans ?_⟩
  · rw [Dev.on, congrFun hsig l.val, Dev.sigDet_groupCounted]
    rfl
  · rw [Dev.auxLane_groupCounted, groupLane, rdPos_auxSync]
  · rw [Dev.dispErr_groupCounted]
  · rw [Dev.codeErr_groupCounted]

/-! ## AUX_RATE_MATCH, AUX_TDENS_WINDOW (R74, R75) -/

theorem runs_auxRateMatch {s : State} {p : Fin 4} (insert : Bool) (hl : Live s) (hsync : s.dev.on F.AUX_PORT_STAT_SYNC [p.val] = true)
    (hidle : (s.dev.auxRx p.val).active = false) :
    Runs (.auxRateMatch p insert) s
      (if insert then s.dev.inc F.AUX_RM_INS_COUNT [p.val] else s.dev.inc F.AUX_RM_DEL_COUNT [p.val]) :=
  Runs.of_run hl rfl (if_neg (by simp [hsync, hidle]))

/-- The port of a lane rests on the mode, the ports' settings and the power of the side port. -/
theorem Dev.auxPortOf_congr {d e : Dev} (h : ∀ f : Fld, f.reg ∈ [R.AUX_MODE, R.AUX_PORT_CTL, R.GLB_PD_ON] → ∀ ix, e.rd f ix = d.rd f ix)
    (l : Nat) : e.auxPortOf l = d.auxPortOf l := by
  have hon : ∀ f : Fld, f.reg ∈ [R.AUX_MODE, R.AUX_PORT_CTL, R.GLB_PD_ON] → ∀ ix, e.on f ix = d.on f ix := fun f hf ix => by
    rw [Dev.on, h f hf, Dev.on]
  have hmode : e.auxMode = d.auxMode := by
    rw [Dev.auxMode, h F.AUX_MODE_MODE (by decide), Dev.auxMode]
  have hdom : ∀ n, e.domOn n = d.domOn n := fun n => by
    rw [Dev.domOn, h F.GLB_PD_ON_ON (by decide), Dev.domOn]
  have hmismatch : e.auxMismatch = d.auxMismatch := by
    simp only [Dev.auxMismatch, Dev.auxSgmii, hmode, hon F.AUX_PORT_CTL_EN (by decide), hon F.AUX_PORT_CTL_AN_EN (by decide),
      h F.AUX_PORT_CTL_TYPE (by decide), h F.AUX_PORT_CTL_SPEED (by decide)]
  rw [Dev.auxPortOf, hmismatch, hdom, hmode, hon F.AUX_PORT_CTL_EN (by decide), hon F.AUX_PORT_CTL_EN (by decide), Dev.auxPortOf]

/-- Lane `l` belongs to a port that receives a frame. -/
def Dev.auxInFrame (d : Dev) (l : Nat) : Bool := (d.auxPortOf l).any (fun p => (d.auxRx p).active)

/-- What a window of `t` transitions leaves of lane `l`, by what was true before it. -/
theorem runs_auxTdensWindow {s : State} {l : Fin 4} (t : Fin 1025) (hl : Live s) :
    Runs (.auxTdensWindow l t) s
      (let d := s.dev.wr F.AUX_LANE_STAT_TDENS [l.val] t.val
       if s.dev.on F.AUX_LANE_STAT_FROZEN [l.val] then
         if s.dev.rd F.AUX_LANE_CTL_TDENS_MIN [l.val] + 32 ≤ t.val then d.wr F.AUX_LANE_STAT_FROZEN [l.val] 0 else d
       else if !s.dev.auxInFrame l.val && s.dev.on F.AUX_LANE_CTL_FRZ_EN [l.val] &&
           t.val < s.dev.rd F.AUX_LANE_CTL_TDENS_MIN [l.val] then
         (d.wr F.AUX_LANE_STAT_FROZEN [l.val] 1).inc F.AUX_LANE_FRZ_CNT_COUNT [l.val]
       else d) := by
  have hrd : ∀ f : Fld, f.apart F.AUX_LANE_STAT_TDENS = true →
      ∀ ix, (s.dev.wr F.AUX_LANE_STAT_TDENS [l.val] t.val).rd f ix = s.dev.rd f ix := fun f hf ix => s.dev.rd_wr_apart ix _ _ hf
  have hport : (s.dev.wr F.AUX_LANE_STAT_TDENS [l.val] t.val).auxPortOf l.val = s.dev.auxPortOf l.val := by
    refine Dev.auxPortOf_congr (fun f hf ix => s.dev.rd_wr_other F.AUX_LANE_STAT_TDENS f _ ix _ ?_ ?_ (by decide)) _ <;>
      simp only [List.mem_cons, List.not_mem_nil, or_false] at hf <;> rcases hf with hf | hf | hf <;> rw [hf] <;> decide
  refine Runs.of_run hl rfl ?_
  have hon : ∀ f : Fld, f.apart F.AUX_LANE_STAT_TDENS = true →
      ∀ ix, (s.dev.wr F.AUX_LANE_STAT_TDENS [l.val] t.val).on f ix = s.dev.on f ix := fun f hf ix => s.dev.on_wr_apart ix _ _ hf
  cases hp : s.dev.auxPortOf l.val <;>
    simp only [hport, hp, hrd F.AUX_LANE_CTL_TDENS_MIN (by decide), hon F.AUX_LANE_STAT_FROZEN (by decide),
      hon F.AUX_LANE_CTL_FRZ_EN (by decide), Dev.auxRx_wr, Dev.auxInFrame, Option.any_none, Option.any_some]

/-! ## AUX_SIGNAL_LOSS (R71 to R73) -/

/-- Lane `l` loses its signal, and its receiver begins anew. -/
def Dev.laneDark (d : Dev) (l : Nat) : Dev :=
  ((d.wr F.AUX_LANE_STAT_SIG_DET [l] 0).wr F.AUX_LANE_STAT_CDR_LOCK [l] 0).auxLaneNew l

/-- What a lane without a partner shows and holds: no signal, no lock, a receiver that begins anew. -/
structure Dark (d : Dev) (l : Nat) : Prop where
  sigDet : d.rd F.AUX_LANE_STAT_SIG_DET [l] = 0
  cdrLock : d.rd F.AUX_LANE_STAT_CDR_LOCK [l] = 0
  lane : d.auxLane l = { txPos := (d.auxLane l).txPos }

theorem Dev.rd_setAuxLane (d : Dev) (n : Nat) (x : AuxLane) (f : Fld) (ix : List Nat) : (d.setAuxLane n x).rd f ix = d.rd f ix := by
  rw [Dev.rd, Dev.setAuxLane_raw, Dev.rd]

theorem Dev.rd_laneDark (d : Dev) (l : Nat) (f : Fld) (ix : List Nat) :
    (d.laneDark l).rd f ix = ((d.wr F.AUX_LANE_STAT_SIG_DET [l] 0).wr F.AUX_LANE_STAT_CDR_LOCK [l] 0).rd f ix := by
  rw [Dev.laneDark, Dev.auxLaneNew, Dev.rd_setAuxLane]

theorem Dev.auxLane_laneDark_self (d : Dev) (l : Nat) : (d.laneDark l).auxLane l = { txPos := (d.auxLane l).txPos } := by
  rw [Dev.laneDark, Dev.auxLaneNew, Dev.auxLane_setAuxLane_self, Dev.auxLane_wr, Dev.auxLane_wr]

theorem Dev.auxLane_laneDark_other (d : Dev) {k l : Nat} (h : k ≠ l) : (d.laneDark l).auxLane k = d.auxLane k := by
  rw [Dev.laneDark, Dev.auxLaneNew, Dev.auxLane_setAuxLane_other _ _ _ _ h, Dev.auxLane_wr, Dev.auxLane_wr]

/-- The transmitter of every lane goes on at its disparity. -/
theorem Dev.txPos_laneDark (d : Dev) (k l : Nat) : ((d.laneDark l).auxLane k).txPos = (d.auxLane k).txPos := by
  by_cases h : k = l
  · rw [h, Dev.auxLane_laneDark_self]
  · rw [d.auxLane_laneDark_other h]

theorem dark_laneDark (d : Dev) (l : Nat) : Dark (d.laneDark l) l where
  sigDet := by
    rw [Dev.rd_laneDark, Dev.rd_wr_apart _ _ _ _ (by decide), Dev.rd_wr_fits _ _ _ _ (by decide) (by decide) (by decide)]
  cdrLock := by rw [Dev.rd_laneDark, Dev.rd_wr_fits _ _ _ _ (by decide) (by decide) (by decide)]
  lane := by rw [Dev.auxLane_laneDark_self]

theorem auxLaneStat_key (l : Nat) : R.AUX_LANE_STAT.key [l] = 5 * 4294967296 + 56 * 1048576 + l % 1048576 := by
  simp [Reg.key, Reg.keyAt, flatIndex, R.AUX_LANE_STAT]

/-- A lane that is dark stays so when another one becomes dark, or itself again. -/
theorem Dark.laneDark {d : Dev} {k : Nat} (h : Dark d k) (hk : k < 4) {l : Nat} (hl : l < 4) : Dark (d.laneDark l) k := by
  by_cases hkl : k = l
  · subst hkl
    exact dark_laneDark d k
  · have hkey : R.AUX_LANE_STAT.key [k] ≠ R.AUX_LANE_STAT.key [l] := by
      rw [auxLaneStat_key, auxLaneStat_key]
      omega
    have hrd : ∀ f : Fld, f.reg = R.AUX_LANE_STAT → (d.laneDark l).rd f [k] = d.rd f [k] := fun f hf => by
      rw [Dev.rd_laneDark, Dev.rd_wr_of_key _ F.AUX_LANE_STAT_CDR_LOCK _ _ _ _ (by rw [hf]; exact hkey),
        Dev.rd_wr_of_key _ F.AUX_LANE_STAT_SIG_DET _ _ _ _ (by rw [hf]; exact hkey)]
    exact ⟨(hrd _ rfl).trans h.sigDet, (hrd _ rfl).trans h.cdrLock, by rw [d.auxLane_laneDark_other hkl]; exact h.lane⟩

/-- All lanes of a list become dark. -/
theorem dark_foldl (l : List Nat) (hl : ∀ a ∈ l, a < 4) (d : Dev) {k : Nat} (hk : k ∈ l) : Dark (l.foldl Dev.laneDark d) k := by
  induction l generalizing d with
  | nil => cases hk
  | cons a t ih =>
    have ht : ∀ b ∈ t, b < 4 := fun b hb => hl b (.tail _ hb)
    rw [List.foldl_cons]
    by_cases hkt : k ∈ t
    · exact ih ht _ hkt
    · obtain rfl : k = a := (List.mem_cons.1 hk).resolve_right hkt
      exact List.foldlRecOn t Dev.laneDark (motive := fun e => Dark e k) (dark_laneDark d k) fun e he b hb =>
        he.laneDark (hl k hk) (ht b hb)

theorem Dev.auxLanesOf_lt (d : Dev) (p : Fin 4) : ∀ a ∈ d.auxLanesOf p.val, a < 4 := by
  unfold Dev.auxLanesOf
  split
  · decide
  · intro a ha
    rw [List.mem_singleton.1 ha]
    exact p.isLt

/-! ### The port of lanes that are dark -/

theorem Dev.auxRx_align (d : Dev) (x : AuxAlign) : ({ d with phy := { d.phy with auxAlign := x } } : Dev).auxRx = d.auxRx :=
  funext fun _ => rfl

theorem Dev.auxLane_align (d : Dev) (x : AuxAlign) : ({ d with phy := { d.phy with auxAlign := x } } : Dev).auxLane = d.auxLane :=
  funext fun _ => rfl

theorem Dev.auxRx_auxAnNew (d : Dev) (p : Nat) : (d.auxAnNew p).auxRx = d.auxRx := funext fun _ => rfl

theorem Dev.auxLane_auxAnNew (d : Dev) (p : Nat) : (d.auxAnNew p).auxLane = d.auxLane := funext fun _ => rfl

theorem Dev.rd_auxUnalign (d : Dev) (f : Fld) (ix : List Nat) : d.auxUnalign.rd f ix = d.rd f ix := by
  refine (foldl_proj (fun e : Dev => e.rd f ix) _ (fun e l => ?_) _ _).trans rfl
  exact e.rd_setAuxLane l _ f ix

theorem Dev.auxRx_auxUnalign (d : Dev) : d.auxUnalign.auxRx = d.auxRx := by
  refine (foldl_proj Dev.auxRx _ (fun e l => ?_) _ _).trans (d.auxRx_align _)
  exact e.setAuxLane_auxRx l _

/-- A lane that holds no symbols is not changed. -/
theorem Dev.auxLane_auxUnalign (d : Dev) {k : Nat} (h : (d.auxLane k).held = none) : d.auxUnalign.auxLane k = d.auxLane k := by
  refine List.foldlRecOn _ _ (motive := fun e : Dev => e.auxLane k = d.auxLane k) rfl fun e he l _ => ?_
  by_cases hkl : k = l
  · subst hkl
    rw [Dev.auxLane_setAuxLane_self, he, ← h]
  · rw [Dev.auxLane_setAuxLane_other _ _ _ _ hkl, he]

/-- Port `p` has lost its partner: no frame, the negotiation anew, and in mode 1 no deskew. -/
def Dev.portDark (d : Dev) (p : Nat) : Dev :=
  let e := (d.setAuxRx p {}).auxAnNew p
  if e.auxMode = 1 then { e.auxUnalign with phy := { e.auxUnalign.phy with auxAlign := {} } } else e

theorem Dev.rd_portDark (d : Dev) (p : Nat) (f : Fld) (ix : List Nat) : (d.portDark p).rd f ix = d.rd f ix := by
  have halign : ∀ (e : Dev) (x : AuxAlign), ({ e with phy := { e.phy with auxAlign := x } } : Dev).rd f ix = e.rd f ix := fun _ _ => rfl
  have hnew : ((d.setAuxRx p {}).auxAnNew p).rd f ix = d.rd f ix := rfl
  simp only [Dev.portDark, apply_ite (fun e : Dev => e.rd f ix), halign, Dev.rd_auxUnalign, hnew, ite_self]

theorem Dev.auxRx_portDark (d : Dev) (p : Nat) : (d.portDark p).auxRx p = {} := by
  simp only [Dev.portDark, apply_ite Dev.auxRx, Dev.auxRx_align, Dev.auxRx_auxUnalign, Dev.auxRx_auxAnNew, ite_self,
    Dev.auxRx_setAuxRx_self]

theorem Dev.auxLane_portDark (d : Dev) (p : Nat) {k : Nat} (h : (d.auxLane k).held = none) : (d.portDark p).auxLane k = d.auxLane k := by
  have hlane : ((d.setAuxRx p {}).auxAnNew p).auxLane = d.auxLane := by
    rw [Dev.auxLane_auxAnNew, Dev.setAuxRx_auxLane]
  unfold Dev.portDark
  dsimp only
  split
  · rw [Dev.auxLane_align, Dev.auxLane_auxUnalign _ (by rw [hlane, h]), hlane]
  · rw [hlane]

theorem Dev.rd_auxLink (d : Dev) (p : Nat) {f : Fld} (ix : List Nat) (hs : f.apart F.AUX_PORT_STAT_SYNC = true)
    (ha : f.apart F.AUX_PORT_STAT_ALIGN = true) (hu : f.apart F.AUX_PORT_STAT_LINK_UP = true) : (d.auxLink p).rd f ix = d.rd f ix := by
  rw [Dev.auxLink, Dev.rd_wr_apart _ _ _ _ hu, Dev.rd_wr_apart _ _ _ _ ha, Dev.rd_wr_apart _ _ _ _ hs]

theorem Dev.auxLane_auxLink (d : Dev) (p : Nat) : (d.auxLink p).auxLane = d.auxLane := by
  rw [Dev.auxLink, Dev.auxLane_wr, Dev.auxLane_wr, Dev.auxLane_wr]

theorem Dev.auxRx_auxLink (d : Dev) (p : Nat) : (d.auxLink p).auxRx = d.auxRx := by
  rw [Dev.auxLink, Dev.auxRx_wr, Dev.auxRx_wr, Dev.auxRx_wr]

theorem runs_auxSignalLoss {s : State} {p : Fin 4} (hl : Live s) :
    Runs (.auxSignalLoss p) s
      (((((s.dev.auxLanesOf p.val).foldl Dev.laneDark s.dev).portDark p.val).wr F.AUX_PORT_STAT_RX_FAULT [p.val] 0).auxLink p.val) :=
  Runs.of_run hl rfl rfl

theorem auxSignalLoss_clears {s : State} (p : Fin 4) (hl : Live s) :
    ∃ t, exec (.auxSignalLoss p) s = .next t ∧ t.dev.auxRx p.val = {} ∧ t.dev.on F.AUX_PORT_STAT_RX_FAULT [p.val] = false ∧
      ∀ l ∈ s.dev.auxLanesOf p.val, t.dev.on F.AUX_LANE_STAT_SIG_DET [l] = false ∧ t.dev.on F.AUX_LANE_STAT_CDR_LOCK [l] = false ∧
        t.dev.auxLane l = { txPos := (s.dev.auxLane l).txPos } := by
  refine ⟨_, runs_auxSignalLoss hl, ?_⟩
  simp only [Dev.on_latched _ _ _ hl.2, Dev.auxLane_latched, Dev.auxRx_latched]
  refine ⟨?_, ?_, fun l hmem => ?_⟩
  · rw [Dev.auxRx_auxLink, Dev.auxRx_wr, Dev.auxRx_portDark]
  · rw [Dev.on, Dev.rd_auxLink _ _ _ (by decide) (by decide) (by decide), Dev.rd_wr_fits _ _ _ _ (by decide) (by decide) (by decide)]
    rfl
  · have hdark := dark_foldl _ (s.dev.auxLanesOf_lt p) s.dev hmem
    have hpos := congrFun (foldl_proj (fun (e : Dev) (k : Nat) => (e.auxLane k).txPos) Dev.laneDark
      (fun e a => funext fun k => e.txPos_laneDark k a) (s.dev.auxLanesOf p.val) s.dev) l
    refine ⟨?_, ?_, ?_⟩
    · rw [Dev.on, Dev.rd_auxLink _ _ _ (by decide) (by decide) (by decide), Dev.rd_wr_apart _ _ _ _ (by decide), Dev.rd_portDark,
        hdark.sigDet]
      rfl
    · rw [Dev.on, Dev.rd_auxLink _ _ _ (by decide) (by decide) (by decide), Dev.rd_wr_apart _ _ _ _ (by decide), Dev.rd_portDark,
        hdark.cdrLock]
      rfl
    · rw [Dev.auxLane_auxLink, Dev.auxLane_wr, Dev.auxLane_portDark _ _ (by rw [hdark.lane]), hdark.lane, hpos]

/-- Settles O17: a code-group is counted before its symbol acts, which changes no count; the other commands by the conditions of
their branches, and the loss of the partner lane by lane. -/
theorem sidePortLanes : Obligations.SidePortLanes := by
  unfold Obligations.SidePortLanes
  intro s hl
  refine ⟨fun l p cg hp => ?group, fun p insert => runs_auxRateMatch insert hl, fun l t hfrozen hmin => ?resumes,
    fun l t hfree hidle hen hmin => ?freezes, fun l t p hfree hp hactive => ?inFrame, fun p => auxSignalLoss_clears p hl⟩
  case group => exact auxCodeGroup_counts cg hl hp
  case resumes => simpa only [hfrozen, hmin, if_true] using runs_auxTdensWindow (l := l) t hl
  case freezes =>
    have hframe : s.dev.auxInFrame l.val = false := by
      rw [Dev.auxInFrame, Option.any_eq_false]
      exact fun p hp => by simpa using hidle p hp
    simpa [hfree, hframe, hen, hmin] using runs_auxTdensWindow (l := l) t hl
  case inFrame =>
    have hframe : s.dev.auxInFrame l.val = true := by
      rw [Dev.auxInFrame, hp, Option.any_some, hactive]
    simpa [hfree, hframe] using runs_auxTdensWindow (l := l) t hl


/-! ## What the conditions of a link leave in its port's registers (R62) -/

section LinkFields

variable (d : Dev) (p : Nat)

/-- A fall of LINK_UP. -/
def Dev.linkFalls : Bool := d.linkUp p && !d.linkGoes p

theorem Dev.linkUp_updateLink : (d.updateLink p).linkUp p = d.linkGoes p := by
  rw [Dev.linkUp, Dev.on, Dev.rd_updateLink (by decide), Dev.linkWritten]
  split
  · rw [Dev.rd_wr_apart _ _ _ _ (by decide), Dev.rd_inc_apart _ _ _ (by decide), Dev.rd_wr_bit _ _ _ _ (by decide) (by decide),
      b2n_bne_zero]
  · rw [Dev.rd_wr_bit _ _ _ _ (by decide) (by decide), b2n_bne_zero]

theorem Dev.locFault_updateLink : (d.updateLink p).on F.PCS_PORT_STAT_LOC_FAULT (pix p) = d.locFault p := by
  rw [Dev.on, Dev.rd_updateLink (by decide), Dev.linkWritten]
  split
  · rw [Dev.rd_wr_apart _ _ _ _ (by decide), Dev.rd_inc_apart _ _ _ (by decide), Dev.rd_wr_apart _ _ _ _ (by decide),
      Dev.rd_wr_bit _ _ _ _ (by decide) (by decide), b2n_bne_zero]
  · rw [Dev.rd_wr_apart _ _ _ _ (by decide), Dev.rd_wr_bit _ _ _ _ (by decide) (by decide), b2n_bne_zero]

theorem Dev.flaps_updateLink :
    (d.updateLink p).rd F.PCS_LINK_FLAP_COUNT (pix p) =
      if d.linkFalls p then min (2 ^ 32 - 1) (d.rd F.PCS_LINK_FLAP_COUNT (pix p) + 1) else d.rd F.PCS_LINK_FLAP_COUNT (pix p) := by
  rw [Dev.rd_updateLink (by decide), Dev.linkWritten, ← Dev.linkFalls]
  split
  · rw [Dev.rd_wr_apart _ _ _ _ (by decide), Dev.rd_inc_saturates _ _ _ (by decide) (by decide) (by decide),
      Dev.rd_wr_apart _ _ _ _ (by decide), Dev.rd_wr_apart _ _ _ _ (by decide)]
    rfl
  · rw [Dev.rd_wr_apart _ _ _ _ (by decide), Dev.rd_wr_apart _ _ _ _ (by decide)]

theorem Dev.linkDownEvt_updateLink :
    (d.updateLink p).on F.PCS_PORT_STAT_LINK_DOWN_EVT (pix p) = (d.linkFalls p || d.on F.PCS_PORT_STAT_LINK_DOWN_EVT (pix p)) := by
  rw [Dev.on, Dev.rd_updateLink (by decide), Dev.linkWritten, ← Dev.linkFalls]
  split
  next h => rw [h, Dev.rd_wr_fits _ _ _ _ (by decide) (by decide) (by decide), Bool.true_or]; rfl
  next h =>
    rw [Dev.rd_wr_apart _ _ _ _ (by decide), Dev.rd_wr_apart _ _ _ _ (by decide), Bool.eq_false_of_not_eq_true h, Bool.false_or, Dev.on]

/-- Without a local fault the other conditions decide. -/
theorem Dev.linkGoes_of_no_locFault (h : d.locFault p = false) :
    d.linkGoes p = (d.alignLocked p && d.portLive p && !d.on F.PCS_PORT_STAT_REM_FAULT (pix p)) := by
  have hser : d.on F.PCS_PORT_STAT_HI_SER (pix p) = false := by
    simp only [Dev.locFault, Bool.or_eq_false_iff] at h
    exact h.1.2
  rw [Dev.linkGoes, h, hser, Bool.not_false, Bool.and_true, Bool.and_true, Bool.and_comm (d.portLive p)]

/-- A link that stays as it is posts nothing and writes PCS_PORT_STAT of its port alone. -/
theorem Dev.updateLink_same (h : d.linkUp p = d.linkGoes p) :
    (d.updateLink p).hif = d.hif ∧ ∀ r ix, r.key ix ≠ R.PCS_PORT_STAT.key (pix p) → (d.updateLink p).raw r ix = d.raw r ix := by
  obtain ⟨_, hhif, _⟩ := d.linkSettled_parts p
  rw [Dev.updateLink_eq, if_pos h]
  refine ⟨hhif, fun r ix hr => ?_⟩
  rw [Dev.raw_of_beside (d.beside_linkSettled p), Dev.linkWritten, if_neg (by simp [h]),
    Dev.raw_wr_of_key _ F.PCS_PORT_STAT_LINK_UP _ _ _ _ hr, Dev.raw_wr_of_key _ F.PCS_PORT_STAT_LOC_FAULT _ _ _ _ hr]

end LinkFields

/-! ## An entry that is written (R336, R353) -/

/-- What an operation on rings keeps: the event backlog and its losses, and what has been sent before. -/
structure Sends (d e : Dev) : Prop where
  backlog : e.hif.backlog = d.hif.backlog
  lostSince : e.hif.lostSince = d.hif.lostSince
  out : ∀ o ∈ d.out, o ∈ e.out

theorem Sends.refl (d : Dev) : Sends d d := ⟨rfl, rfl, fun _ h => h⟩

theorem Sends.trans {a b c : Dev} (h : Sends a b) (k : Sends b c) : Sends a c :=
  ⟨k.backlog.trans h.backlog, k.lostSince.trans h.lostSince, fun o ho => k.out o (h.out o ho)⟩

theorem Sends.of_eq {d e : Dev} (hh : e.hif = d.hif) (ho : e.out = d.out) : Sends d e :=
  ⟨by rw [hh], by rw [hh], fun o h => by rwa [ho]⟩

theorem sends_wr (d : Dev) (f : Fld) (ix : List Nat) (v : Nat) : Sends d (d.wr f ix v) := .of_eq rfl rfl

theorem sends_emit (d : Dev) (o : Output) : Sends d (d.emit o) := ⟨rfl, rfl, fun _ h => List.mem_append_left _ h⟩

theorem sends_setRing (d : Dev) (m : Nat) (r : Ring) : Sends d (d.setRing m r) := ⟨rfl, rfl, fun _ h => h⟩

/-- The host interface and what has been sent. -/
def Dev.sent (d : Dev) : Hif × List Output := (d.hif, d.out)

theorem Dev.sent_wr (d : Dev) (f : Fld) (ix : List Nat) (v : Nat) : (d.wr f ix v).sent = d.sent := by unfold Dev.sent; rfl

theorem Dev.sent_pmcWraps (d : Dev) (l : List (Nat × Nat)) : ({ d with pmcWraps := l } : Dev).sent = d.sent := by unfold Dev.sent; rfl

theorem Dev.sent_pmcAdd (d : Dev) (u c n fuel : Nat) : (d.pmcAdd u c n fuel).sent = d.sent := by
  induction fuel generalizing d c n with
  | zero => rfl
  | succ k ih =>
    simp only [Dev.pmcAdd]
    split
    · exact d.sent_wr _ _ _
    · split <;> split <;> simp only [ih, Dev.sent_pmcWraps, Dev.sent_wr]

theorem Dev.sent_pmc (d : Dev) (u code n : Nat) : (d.pmc u code n).sent = d.sent := by
  unfold Dev.pmc
  split
  · refine foldl_proj Dev.sent _ (fun e c => ?_) _ _
    dsimp only
    split
    · exact e.sent_pmcAdd _ _ _ _
    · rfl
  · rfl

theorem sends_pmc (d : Dev) (u code n : Nat) : Sends d (d.pmc u code n) :=
  .of_eq (congrArg Prod.fst (d.sent_pmc u code n)) (congrArg Prod.snd (d.sent_pmc u code n))

theorem sends_msix (d : Dev) (v : Nat) : Sends d (d.msix v) := by
  unfold Dev.msix
  split
  · exact sends_wr _ _ _ _
  · exact sends_emit _ _

theorem sends_signalRing (d : Dev) (m : Nat) : Sends d (d.signalRing m) := by
  have hset := sends_setRing d m { d.ring m with irqCount := 0 }
  unfold Dev.signalRing
  dsimp only
  split
  · exact hset.trans (sends_msix _ _)
  · split
    · exact hset.trans (sends_wr _ _ _ _)
    · split
      · exact hset.trans (sends_emit _ _)
      · exact hset.trans (sends_setRing _ _ _)

theorem sends_checkIrq (d : Dev) (m : Nat) : Sends d (d.checkIrq m) := by
  unfold Dev.checkIrq
  split
  · exact sends_signalRing d m
  · exact .refl d

/-- Bytes that no job causes. -/
theorem sends_dmaWrote (d : Dev) (n : Nat) : Sends d (d.dmaWrote none n) := by
  have hrem : ∀ k, Sends d { d with hif := { d.hif with dmaWriteRem := k } } := fun _ => ⟨rfl, rfl, fun _ h => h⟩
  have hcharge : ∀ (e : Dev) (i k : Nat), Sends e (e.charge none i k) := fun _ _ _ => ⟨rfl, rfl, fun _ h => h⟩
  exact ((hrem _).trans (sends_pmc _ _ _ _)).trans (hcharge _ _ _)

/-- An event's entry is written: its body goes to the host, and no event waits more or less. -/
theorem sends_writeEntry (d : Dev) (m ty sub : Nat) (body : List Nat) :
    let e := d.writeEntry m (eventEntry ty sub body)
    (∃ o a, Output.dmaDwords o a body ∈ e.out) ∧ Sends d e := by
  have hbody : ∀ (o a : Nat) (x : Output) (q : Nat),
      let b := (((d.emit (.dmaDwords o a body)).emit x).wr F.RING_CQ_PROD_INDEX [m] q).dmaWrote none 32
      Output.dmaDwords o a body ∈ b.out ∧ Sends d b := fun o a x q => by
    have hafter := ((sends_emit (d.emit (.dmaDwords o a body)) x).trans (sends_wr _ F.RING_CQ_PROD_INDEX [m] q)).trans (sends_dmaWrote _ 32)
    exact ⟨hafter.out _ (List.mem_append_right _ (List.mem_singleton.2 rfl)), (sends_emit d _).trans hafter⟩
  have hend : ∀ b : Dev, Sends b ((b.setRing m { b.ring m with irqCount := (b.ring m).irqCount + 1 }).checkIrq m) := fun b =>
    (sends_setRing b m _).trans (sends_checkIrq _ m)
  exact ⟨⟨_, _, (hend _).out _ (hbody _ _ _ _).1⟩, (hbody _ _ _ _).2.trans (hend _)⟩


/-! ## The link event (R353, R354) -/

/-- The fields that decide whether a completion ring can take an event. -/
def ringFlds : List Fld :=
  [F.RING_CTL_CQ_EN, F.RING_CTL_OWNMODE, F.RING_CQ_PROD_INDEX, F.RING_CQ_CONS_INDEX, F.RING_SIZE_CQ_LOG2, F.HIF_STAT_LINK_UP,
    F.HIF_STAT_RST_BUSY, F.GLB_PD_ON_ON]

section Congr

variable {d e : Dev} (hc : e.comm = d.comm)

include hc

theorem Dev.vfRange_congr : e.vfRange = d.vfRange := funext fun v => by
  rw [Dev.vfRange, Dev.cm_congr hc, Dev.cm_congr hc, Dev.vfRange]

theorem Dev.owner_congr (n : Nat) : e.owner n = d.owner n := by
  have howns : e.vfOwns = d.vfOwns := funext fun v => funext fun n => by rw [Dev.vfOwns, Dev.vfRange_congr hc, Dev.vfOwns]
  rw [Dev.owner, howns, Dev.owner]

theorem Dev.vfBad_congr (v : Nat) : e.vfBad v = d.vfBad v := by
  rw [Dev.vfBad, Dev.vfRange_congr hc, Dev.vfBad]

/-- Whether a ring can take an event rests on its fields, the committed VF ranges, the host interface, the faults and the safe
state. -/
theorem Dev.eventMay_congr (hh : e.hif = d.hif) (hs : e.spl = d.spl) (hsafe : e.safe = d.safe)
    (hf : ∀ f ∈ ringFlds, ∀ ix, e.rd f ix = d.rd f ix) (m : Nat) : e.eventMay m = d.eventMay m := by
  simp only [ringFlds, List.forall_mem_cons, List.not_mem_nil, false_implies, implies_true, and_true] at hf
  obtain ⟨hen, hown, hprod, hcons, hsize, hup, hbusy, hpd⟩ := hf
  have hring : e.ring m = d.ring m := by rw [Dev.ring, hh, Dev.ring]
  have hlive : e.cqLive m = d.cqLive m := by rw [Dev.cqLive, Dev.on, hen, hring, Dev.cqLive, Dev.on]
  have hroom : e.cqRoom m = d.cqRoom m := by
    rw [Dev.cqRoom, Dev.on, Dev.cqSize, hown, hprod, hcons, hsize, Dev.cqRoom, Dev.on, Dev.cqSize]
  have hdma : ∀ fn, e.dmaOk fn = d.dmaOk fn := fun fn => by
    simp only [Dev.dmaOk, Dev.domOn, Dev.on, hh, hs, hsafe, hup, hbusy, hpd]
  rw [Dev.eventMay, Dev.cqMay, hlive, hroom, hring, Dev.owner_congr hc, hdma, Dev.vfBad_congr hc, Dev.eventMay, Dev.cqMay]

end Congr

theorem Dev.eventMay_linkSettled (d : Dev) (p m : Nat) : (d.linkSettled p).eventMay m = d.eventMay m := by
  obtain ⟨hcomm, hhif, hspl, hsafe, _⟩ := d.linkSettled_parts p
  have hfree : ∀ f ∈ ringFlds, f.linkless = true := by decide
  exact Dev.eventMay_congr hcomm hhif hspl hsafe (fun f hf ix => (d.rd_linkSettled p f ix).trans (d.rd_linkWritten (hfree f hf) ix p)) m

/-- The event of port `p` whose link changed. -/
def Dev.linkNotice (d : Dev) (p : Nat) : RingEntry :=
  eventEntry 2 1 [p, (d.updateLink p).portStat p, d.ns % 2 ^ 32, d.ns / 2 ^ 32 % 2 ^ 32, 0, 0, 0]

section Post

variable {d : Dev} {p : Nat} (hne : d.linkUp p ≠ d.linkGoes p)

/-- The event of ring `m` cannot be written at once: the ring cannot take it, or an earlier one waits for it. -/
def Dev.eventWaits (d : Dev) (m : Nat) : Prop := d.eventMay m = false ∨ d.hif.backlog.any (fun x => x.1 == m) = true

theorem Dev.postEvent_written {m : Nat} (h : ¬ d.eventWaits m) (x : RingEntry) : d.postEvent m x = d.writeEntry m x := by
  rw [Dev.eventWaits, not_or, Bool.not_eq_false, Bool.not_eq_true] at h
  rw [Dev.postEvent, h.1, h.2]
  rfl

theorem Dev.postEvent_queued {m : Nat} (h : d.eventWaits m) (hroom : d.hif.backlog.length < 256) (x : RingEntry) :
    d.postEvent m x = { d with hif := { d.hif with backlog := d.hif.backlog ++ [(m, x)] } } := by
  rw [Dev.postEvent, if_neg (by rcases h with h | h <;> simp [h]), if_pos hroom]

theorem Dev.postEvent_lost {m : Nat} (h : d.eventWaits m) (hfull : 256 ≤ d.hif.backlog.length) (x : RingEntry) :
    d.postEvent m x = { d.inc F.HIF_EVT_LOST_COUNT [] with hif := { d.hif with lostSince := d.hif.lostSince + 1 } } := by
  rw [Dev.postEvent, if_neg (by rcases h with h | h <;> simp [h]), if_neg (Nat.not_lt.2 hfull)]

theorem Dev.eventWaits_linkSettled (d : Dev) (p m : Nat) : (d.linkSettled p).eventWaits m ↔ d.eventWaits m := by
  obtain ⟨_, hhif, _⟩ := d.linkSettled_parts p
  rw [Dev.eventWaits, Dev.eventMay_linkSettled, hhif, Dev.eventWaits]

/-- The status that the event tells is the one that the port shows afterwards. -/
theorem Dev.portStat_updateLink : (d.updateLink p).portStat p = (d.linkSettled p).portStat p := by
  have hread : ∀ (f : Fld) (ix : List Nat), f.eventless = true → (d.updateLink p).rd f ix = (d.linkSettled p).rd f ix := fun f ix h =>
    (d.rd_updateLink h ix p).trans (d.rd_linkSettled p f ix).symm
  refine Dev.portStat_congr (Dev.comm_of_kept (d.kept_updateLink p)) p (fun n => hread _ _ (by decide)) (fun n => hread _ _ (by decide)) ?_
  have hraw := hread R.PCS_PORT_STAT.whole (pix p) (by decide)
  rwa [Dev.rd_whole, Dev.rd_whole] at hraw

include hne

theorem Dev.updateLink_unposted (hen : d.on F.HIF_EVQ_EN_LINK [] = false) : (d.updateLink p).hif = d.hif := by
  have hoff : (d.linkSettled p).on F.HIF_EVQ_EN_LINK [] = false := by
    rwa [Dev.on, Dev.rd_linkSettled, Dev.rd_linkWritten (by decide), ← Dev.on]
  obtain ⟨_, hhif, _⟩ := d.linkSettled_parts p
  rw [Dev.updateLink_eq, if_neg hne, Dev.linkEvent, if_neg (by simp [hoff]), hhif]

theorem Dev.updateLink_posted (hen : d.on F.HIF_EVQ_EN_LINK [] = true) :
    d.updateLink p = (d.linkSettled p).postEvent (d.rd F.HIF_EVQ_CFG_LINK []) (d.linkNotice p) := by
  have hon : (d.linkSettled p).on F.HIF_EVQ_EN_LINK [] = true := by
    rwa [Dev.on, Dev.rd_linkSettled, Dev.rd_linkWritten (by decide), ← Dev.on]
  have hring : (d.linkSettled p).rd F.HIF_EVQ_CFG_LINK [] = d.rd F.HIF_EVQ_CFG_LINK [] := by
    rw [Dev.rd_linkSettled, Dev.rd_linkWritten (by decide)]
  obtain ⟨_, _, _, _, hns⟩ := d.linkSettled_parts p
  rw [Dev.linkNotice, Dev.portStat_updateLink, Dev.updateLink_eq, if_neg hne, Dev.linkEvent, if_pos hon, hring, Dev.eventBody, hns]

end Post

/-- Each change of a link posts its event where link events are enabled: it is written, waits, or is lost (R354). -/
theorem Dev.updateLink_event {d : Dev} {p : Nat} (hne : d.linkUp p ≠ d.linkGoes p) (hen : d.on F.HIF_EVQ_EN_LINK [] = true) :
    let e := d.updateLink p
    let m := d.rd F.HIF_EVQ_CFG_LINK []
    let ev := d.linkNotice p
    (¬ d.eventWaits m → (∃ b : Dev, b.hif = d.hif ∧ e = b.writeEntry m ev) ∧ (∃ o a, Output.dmaDwords o a ev.body ∈ e.out) ∧
      e.hif.backlog = d.hif.backlog ∧ e.hif.lostSince = d.hif.lostSince) ∧
    (d.eventWaits m → d.hif.backlog.length < 256 →
      e.hif.backlog = d.hif.backlog ++ [(m, ev)] ∧ e.hif.lostSince = d.hif.lostSince) ∧
    (d.eventWaits m → 256 ≤ d.hif.backlog.length → e.hif.backlog = d.hif.backlog ∧ e.hif.lostSince = d.hif.lostSince + 1 ∧
      e.rd F.HIF_EVT_LOST_COUNT [] = min (2 ^ 32 - 1) (d.rd F.HIF_EVT_LOST_COUNT [] + 1)) := by
  intro e m ev
  have he : e = (d.linkSettled p).postEvent m ev := Dev.updateLink_posted hne hen
  have hhif : (d.linkSettled p).hif = d.hif := (d.linkSettled_parts p).2.1
  have hwaits : (d.linkSettled p).eventWaits m ↔ d.eventWaits m := d.eventWaits_linkSettled p m
  have hlost : (d.linkSettled p).rd F.HIF_EVT_LOST_COUNT [] = d.rd F.HIF_EVT_LOST_COUNT [] := by
    rw [Dev.rd_linkSettled, Dev.rd_linkWritten (by decide)]
  clear_value e m
  generalize d.linkSettled p = b at he hhif hwaits hlost
  rw [← hwaits]
  refine ⟨fun hw => ?written, fun hw hroom => ?queued, fun hw hfull => ?lost⟩
  case written =>
    rw [Dev.postEvent_written hw] at he
    obtain ⟨hsent, hsends⟩ := sends_writeEntry b m 2 1 ev.body
    rw [he]
    exact ⟨⟨b, hhif, rfl⟩, hsent, by rw [← hhif]; exact hsends.backlog, by rw [← hhif]; exact hsends.lostSince⟩
  case queued =>
    rw [he, Dev.postEvent_queued hw (by rwa [hhif]), hhif]
    exact ⟨rfl, rfl⟩
  case lost =>
    rw [he, Dev.postEvent_lost hw (by rwa [hhif]), hhif, Dev.rd_hif, Dev.rd_inc_saturates _ _ _ (by decide) (by decide) (by decide), hlost]
    exact ⟨rfl, rfl, rfl⟩


/-! ## What a running port counts (R57 to R63) -/

/-- Lane `n` loses its signal. -/
def Dev.loseSignal (d : Dev) (n : Nat) : Dev := (d.wr F.LANE_STAT_SIG_DET [n] 0).wr F.LANE_STAT_CDR_LOCK [n] 0

theorem Dev.laneEn_loseSignal (d : Dev) (n m : Nat) : (d.loseSignal n).rd F.LANE_CTL_EN [m] = d.rd F.LANE_CTL_EN [m] := by
  rw [Dev.loseSignal, Dev.rd_wr_apart _ _ _ _ (by decide), Dev.rd_wr_apart _ _ _ _ (by decide)]

/-- What a codeword or block of port `p` counts and errs, by its form. -/
def Dev.codewordCounted (d : Dev) (p : Nat) : Codeword → Dev
  | .clean => d
  | .corrected k =>
    let e := ((d.inc F.PCS_FEC_CORR_COUNT (pix p)).addTo F.PCS_FEC_SYM_COUNT (pix p) (k.val + 1)).inc
      F.PCS_FEC_BIN_COUNT (pix p ++ [k.val + 1])
    let e := e.pmc (64 + p / 32) 0x22 1
    e.setPort p { e.port p with syms := (e.port p).syms + (k.val + 1) }
  | .uncorrectable cur next => ((d.inc F.PCS_FEC_UNCORR_COUNT (pix p)).pmc (64 + p / 32) 0x23 1).errFrames p cur next.val
  | .badBlock cur next => (d.inc F.PCS_BAD_BLK_COUNT (pix p)).errFrames p cur next.val

section Commands

variable {s : State} {p : Fin 1024} (hl : Live s)

include hl

theorem runs_signalLoss (ha : s.dev.absent p.val = false) (hlive : s.dev.portLive p.val = true) :
    Runs (.signalLoss p) s (((s.dev.portLanes p.val).foldl Dev.loseSignal s.dev).portDown p.val 1) := by
  have hcomm := foldl_proj Dev.comm Dev.loseSignal (fun _ _ => rfl) (s.dev.portLanes p.val) s.dev
  have hen : ∀ m, ((s.dev.portLanes p.val).foldl Dev.loseSignal s.dev).rd F.LANE_CTL_EN [m] = s.dev.rd F.LANE_CTL_EN [m] := fun m =>
    foldl_proj (fun d => d.rd F.LANE_CTL_EN [m]) Dev.loseSignal (fun d n => d.laneEn_loseSignal n m) _ _
  have hshape : ¬((s.dev.portLanes p.val).foldl Dev.loseSignal s.dev).absent p.val = true := by simp [Dev.absent_congr hcomm, ha]
  have hphase : (if ((s.dev.portLanes p.val).foldl Dev.loseSignal s.dev).portLive p.val then 1 else 0) = 1 :=
    if_pos ((Dev.portLive_congr hcomm _ hen).trans hlive)
  rw [← hphase]
  exact Runs.of_run hl rfl (if_neg hshape)

theorem runs_linkUpChange (lf rf : Bool) (ha : s.dev.absent p.val = false) :
    Runs (.linkUpChange p lf rf) s
      (((s.dev.setPort p.val { s.dev.port p.val with locRx := lf && s.dev.alignLocked p.val }).wr
        F.PCS_PORT_STAT_REM_FAULT (pix p.val) (b2n rf)).updateLink p.val) :=
  Runs.of_run hl rfl (if_neg (by simp [ha]))

/-- A codeword of a locked port: what its form counts, and then what every form shows. -/
theorem runs_fecCodeword (c : Codeword) {hi lpi deg : Bool} {skew : Fin 256} (hlock : s.dev.alignLocked p.val = true) :
    let d := s.dev.codewordCounted p.val c
    Runs (.fecCodeword p c hi lpi deg skew) s
      (((((d.wr F.PCS_PORT_STAT_SKEW (pix p.val) (max (d.rd F.PCS_PORT_STAT_SKEW (pix p.val)) skew.val)).wr F.PCS_PORT_STAT_HI_SER
        (pix p.val) (b2n hi)).wr F.PCS_PORT_STAT_RX_LPI (pix p.val) (b2n lpi)).wr F.PCS_PORT_STAT_FEC_DEG_REM (pix p.val)
        (b2n deg)).updateLink p.val) := by
  refine Runs.of_run hl rfl ((if_neg (by simp [hlock])).trans ?_)
  cases c <;> rfl

theorem runs_rateMatch (insert : Bool) (hlock : s.dev.alignLocked p.val = true) (hw : s.dev.wireArriving p.val = false)
    (hsets : insert = true ∨ s.dev.setsOnly p.val = false) :
    Runs (.rateMatch p insert) s
      (if insert then (s.dev.inc F.PCS_RM_INS_COUNT (pix p.val)).pmc (64 + p.val / 32) 0x25 1
       else (s.dev.inc F.PCS_RM_DEL_COUNT (pix p.val)).pmc (64 + p.val / 32) 0x24 1) :=
  Runs.of_run hl rfl (if_neg (by rcases hsets with h | h <;> simp [hlock, hw, h]))

theorem runs_rateMatch_held (insert : Bool)
    (h : s.dev.wireArriving p.val = true ∨ (insert = false ∧ s.dev.setsOnly p.val = true)) : Runs (.rateMatch p insert) s s.dev :=
  Runs.of_run hl rfl (if_pos (by rcases h with h | ⟨h, hsets⟩ <;> simp [*]))

theorem runs_rmOvf (ha : s.dev.absent p.val = false) :
    let d := (s.dev.inc F.PCS_RM_OVF_COUNT (pix p.val)).wr F.PCS_PORT_STAT_RM_OVF (pix p.val) 1
    Runs (.rmOvf p) s (if d.wireArriving p.val then d.markArriving p.val .truncated true
      else if s.dev.linkUp p.val then d.markNext p.val 1 .truncated else d) := by
  intro d
  have hup : d.linkUp p.val = s.dev.linkUp p.val := by
    rw [Dev.linkUp, Dev.on, Dev.rd_wr_apart _ _ _ _ (by decide), Dev.rd_inc_apart _ _ _ (by decide), Dev.linkUp, Dev.on]
  rw [← hup]
  exact Runs.of_run hl rfl (if_neg (by simp [ha]))

end Commands

/-! ### Low-power idle (R63) -/

section Lpi

variable (d : Dev) (p : Nat)

theorem Dev.port_setTxLpi (b : Bool) : (d.setTxLpi p b).port p = { d.port p with txLpi := b } := Dev.port_setPort_self _ _ _

theorem Dev.kept_by_setTxLpi (b : Bool) : (d.setTxLpi p b).regs = d.regs ∧ (d.setTxLpi p b).dp = d.dp := by
  obtain ⟨l, h⟩ := d.portSignal_eq p .lpi (d.port p).txLpi b
  rw [Dev.setTxLpi, h]
  exact ⟨rfl, rfl⟩

theorem Dev.wakeLpi_idle (h : (d.port p).txLpi = false) : d.wakeLpi p = d := if_neg (by simp [h])

theorem Dev.port_wakeLpi (h : (d.port p).txLpi = true) : (d.wakeLpi p).port p = { d.port p with txLpi := false, waking := true } := by
  rw [Dev.wakeLpi, if_pos h, Dev.port_setPort_self, Dev.port_setTxLpi]

theorem Dev.txLpi_wakeLpi : ((d.wakeLpi p).port p).txLpi = false := by
  cases h : (d.port p).txLpi with
  | false => rw [d.wakeLpi_idle p h, h]
  | true => rw [d.port_wakeLpi p h]

end Lpi

theorem lpiEnter_next {s : State} {p : Fin 1024} (hl : Live s) (hen : s.dev.onC F.PCS_PORT_CTL_LPI_EN (pix p.val) = true)
    (hup : s.dev.linkUp p.val = true) (hf : s.dev.hasFrame p.val = false) (hw : (s.dev.port p.val).waking = false) :
    ∃ t, exec (.lpiEnter p) s = .next t ∧ (t.dev.port p.val).txLpi = true ∧ t.dev.regs = s.dev.regs ∧ t.dev.dp = s.dev.dp := by
  have hruns : Runs (.lpiEnter p) s (s.dev.setTxLpi p.val true) := Runs.of_run hl rfl (if_pos (by simp [hen, hup, hf, hw]))
  obtain ⟨hregs, hdp⟩ := s.dev.kept_by_setTxLpi p.val true
  have htx : ((s.dev.setTxLpi p.val true).port p.val).txLpi = true := by rw [Dev.port_setTxLpi]
  exact ⟨_, hruns, htx, (Dev.latched_regs _ _ hl.2).trans hregs, hdp⟩

theorem lpiWake_next {s : State} (p : Fin 1024) (hl : Live s) :
    ∃ t, exec (.lpiWake p) s = .next t ∧ (t.dev.port p.val).waking = false ∧ (t.dev.port p.val).txLpi = (s.dev.port p.val).txLpi ∧
      t.dev.regs = s.dev.regs ∧ t.dev.dp = s.dev.dp := by
  cases hw : (s.dev.port p.val).waking with
  | true =>
    have hruns : Runs (.lpiWake p) s (s.dev.setPort p.val { s.dev.port p.val with waking := false }) := Runs.of_run hl rfl (if_pos hw)
    have hport := s.dev.port_setPort_self p.val { s.dev.port p.val with waking := false }
    exact ⟨_, hruns, congrArg PortSt.waking hport, (congrArg PortSt.txLpi hport).trans rfl, Dev.latched_regs _ _ hl.2, rfl⟩
  | false =>
    have hruns : Runs (.lpiWake p) s s.dev := Runs.of_run hl rfl (if_neg (by simp [hw]))
    exact ⟨_, hruns, hw, rfl, Dev.latched_regs _ _ hl.2, rfl⟩

/-- Settles O13: each command by the branch that its conditions choose; LINK_UP by the registers that `Dev.linkWritten` leaves, and
its event by what `Dev.postEvent` does with it. -/
theorem runningPort : Obligations.RunningPort := by
  unfold Obligations.RunningPort
  refine ⟨fun s p hl => ⟨runs_signalLoss hl, fun lf rf => runs_linkUpChange hl lf rf, ?codewords, runs_rateMatch hl,
    runs_rateMatch_held hl, runs_rmOvf hl, lpiEnter_next hl, lpiWake_next p hl⟩, ?wake, ?link⟩
  case codewords =>
    intro hi lpi deg hlock skew
    exact ⟨runs_fecCodeword hl .clean hlock, fun k => runs_fecCodeword hl (.corrected k) hlock,
      fun cur next => runs_fecCodeword hl (.uncorrectable cur next) hlock, fun cur next => runs_fecCodeword hl (.badBlock cur next) hlock⟩
  case wake =>
    exact fun d p => ⟨d.txLpi_wakeLpi p, fun h => by rw [d.port_wakeLpi p h], d.wakeLpi_idle p⟩
  case link =>
    exact fun d p => ⟨d.linkUp_updateLink p, d.locFault_updateLink p, d.linkGoes_of_no_locFault p, d.flaps_updateLink p,
      d.linkDownEvt_updateLink p, d.updateLink_same p, Dev.updateLink_unposted, Dev.updateLink_event⟩

end Sys2Proof.Machine

namespace Sys2Proof.Machine

/-! ## A packet's next instruction (R88, R92, R96) -/

/-- Packet `u`, as `x`, executes `w` next, on a device that no reset holds; `t` are the instructions after it. -/
structure NextInsn (s : State) (u : Nat) (x : Pass) (w : Nat) (t : List Nat) : Prop where
  live : Live s
  pass : s.dev.pass u = some x
  todo : x.todo = w :: t

section NextInsn

variable {s : State} {u : Nat} {x : Pass} {w : Nat} {t : List Nat} {c : Instr} {names : Nat → Bool} {f : Dev → Pass → Nat → Dev × Pass}

/-- An instruction whose source is not reserved acts as its operation says, and the packet goes on. -/
theorem NextInsn.runs_named (h : NextInsn s u x w t) (hsrc : insnSrc w ≠ 3) {a : Dev × Pass}
    (hc : exec c s = s.run (fun d => d.insn u names f)) (ha : f s.dev { x with todo := t } w = a) (hn : names (insnOp w) = true) :
    Runs c s (afterInsn a) := by
  refine Runs.of_run h.live hc ?_
  simp only [Dev.insn, h.pass, h.todo, hn, if_true, if_neg hsrc, ha, afterInsn]

/-- The same for a command of one operation code. -/
theorem NextInsn.runs (h : NextInsn s u x w t) (hsrc : insnSrc w ≠ 3) {op : Nat} {a : Dev × Pass}
    (hc : exec c s = s.run (fun d => d.insn u (· == op) f)) (ha : f s.dev { x with todo := t } w = a) (hop : insnOp w = op) :
    Runs c s (afterInsn a) :=
  h.runs_named hsrc hc ha (beq_iff_eq.2 hop)

/-- An instruction with the reserved source is counted and acts as NOP, whatever its operation (R96, log 308). -/
theorem NextInsn.runs_reserved (h : NextInsn s u x w t) (hsrc : insnSrc w = 3)
    (hc : exec c s = s.run (fun d => d.insn u names f)) (hn : names (insnOp w) = true) :
    Runs c s (afterInsn (s.dev.badInsn { x with todo := t })) := by
  refine Runs.of_run h.live hc ?_
  simp only [Dev.insn, h.pass, h.todo, hn, if_true, if_pos hsrc, afterInsn]

end NextInsn

/-- The commands that execute an instruction, by operation code (R94). -/
def insnCommands (u : Nat) : List (Nat × Instr) :=
  [(0x00, .nop u), (0x01, .set u), (0x02, .add u), (0x03, .sub u), (0x04, .and u), (0x05, .or u), (0x06, .xor u),
    (0x07, .fwdPort u), (0x08, .fwdMc u), (0x09, .fwdHost u), (0x0A, .copyHost u), (0x0B, .drop u), (0x0C, .meter u),
    (0x0D, .count u), (0x0E, .mirror u), (0x0F, .learn u), (0x10, .hash u), (0x11, .skip u), (0x20, .insert4 u),
    (0x21, .remove u), (0x22, .decTtl u), (0x23, .insertIoam u)]

/-- Each of them is a step of the packet's program that its operation code admits. -/
theorem exec_insnCommands (u : Nat) : ∀ c ∈ insnCommands u, ∃ (names : Nat → Bool) (f : Dev → Pass → Nat → Dev × Pass),
    (∀ s, exec c.2 s = s.run (fun d => d.insn u names f)) ∧ names c.1 = true := by
  simp only [insnCommands, List.forall_mem_cons, List.not_mem_nil, false_imp_iff, implies_true, and_true]
  and_intros
  all_goals exact ⟨_, _, fun _ => rfl, rfl⟩

/-! ## Writes of the destination (R93 to R96) -/

section Alu

variable {d : Dev} {x : Pass} {w : Nat} {g : Nat → Nat → Nat → Nat}

theorem Dev.alu_writes {v : Nat} (h : x.mayWrite (insnDst w) = true)
    (hv : g (2 ^ selWidth (insnDst w)) (x.readSel (insnDst w) % 2 ^ selWidth (insnDst w))
      (x.source w % 2 ^ selWidth (insnDst w)) % 2 ^ selWidth (insnDst w) = v) :
    d.alu x w g = (d, x.writeSel (insnDst w) v) := by
  rw [Dev.alu, if_pos h, hv]

theorem Dev.alu_refused (h : x.mayWrite (insnDst w) = false) : d.alu x w g = d.badInsn x := by
  simp [Dev.alu, h]

theorem Dev.ingressOnly_ingress {g : Pass → Pass} (h : x.egress = false) : d.ingressOnly x g = (d, g x) := by
  simp [Dev.ingressOnly, h]

theorem Dev.ingressOnly_egress {g : Pass → Pass} (h : x.egress = true) : d.ingressOnly x g = d.badInsn x := if_pos h

end Alu

/-- Settles O18: each command executes the packet's next instruction; what that does is a branch of its operation. -/
theorem aluAndForwardInstructions : Obligations.AluAndForwardInstructions := by
  unfold Obligations.AluAndForwardInstructions
  refine ⟨fun s u x w t hl hx ht hsrc => ?alu, fun s u x w t hl hx ht hsrc => ?forward,
    fun s u x w t hl hx ht hsrc c hc hop => ?reserved⟩
  case alu =>
    intro y sel n a b
    have h : NextInsn s u x w t := ⟨hl, hx, ht⟩
    have ha : a < n := Nat.mod_lt _ (Nat.two_pow_pos _)
    have hb : b < n := Nat.mod_lt _ (Nat.two_pow_pos _)
    refine ⟨fun hop => h.runs_named hsrc rfl (if_pos hop) (by simp [hop]), fun hmay => ?writes, fun hmay => ?refused⟩
    case writes =>
      have write {c : Instr} {op : Nat} {g : Nat → Nat → Nat → Nat} {v : Nat}
          (hc : exec c s = s.run (fun d => d.insn u (· == op) (fun d x w => d.alu x w g))) (hv : g n a b % n = v) :
          insnOp w = op → Runs c s (afterInsn (s.dev, y.writeSel sel v)) :=
        h.runs hsrc hc (Dev.alu_writes hmay hv)
      exact ⟨write rfl (Nat.mod_eq_of_lt hb), write rfl rfl, write rfl rfl,
        write rfl (Nat.mod_eq_of_lt (Nat.and_lt_two_pow _ hb)), write rfl (Nat.mod_eq_of_lt (Nat.or_lt_two_pow ha hb)),
        write rfl (Nat.mod_eq_of_lt (Nat.xor_lt_two_pow ha hb))⟩
    case refused =>
      have refuse {c : Instr} {op : Nat} {g : Nat → Nat → Nat → Nat}
          (hc : exec c s = s.run (fun d => d.insn u (· == op) (fun d x w => d.alu x w g))) :
          insnOp w = op → Runs c s (afterInsn (s.dev.badInsn y)) :=
        h.runs hsrc hc (Dev.alu_refused hmay)
      simp only [List.forall_mem_cons, List.not_mem_nil, false_imp_iff, implies_true, and_true]
      exact ⟨refuse rfl, refuse rfl, refuse rfl, refuse rfl, refuse rfl, refuse rfl⟩
  case forward =>
    intro y b
    have h : NextInsn s u x w t := ⟨hl, hx, ht⟩
    refine ⟨fun hin => ?ingress, fun hout => ?egress, h.runs hsrc rfl rfl, h.runs hsrc rfl rfl, h.runs hsrc rfl rfl,
      fun hop hup => h.runs hsrc rfl (congrArg (Prod.mk s.dev) (if_pos hup)) hop,
      fun hop hback => h.runs hsrc rfl (congrArg (Prod.mk s.dev) (if_neg (Nat.not_lt.2 hback))) hop⟩
    case ingress =>
      exact ⟨h.runs hsrc rfl (Dev.ingressOnly_ingress hin), h.runs hsrc rfl (Dev.ingressOnly_ingress hin),
        h.runs hsrc rfl (Dev.ingressOnly_ingress hin)⟩
    case egress =>
      simp only [List.forall_mem_cons, List.not_mem_nil, false_imp_iff, implies_true, and_true]
      exact ⟨h.runs hsrc rfl (Dev.ingressOnly_egress hout), h.runs hsrc rfl (Dev.ingressOnly_egress hout),
        h.runs hsrc rfl (Dev.ingressOnly_egress hout)⟩
  case reserved =>
    obtain ⟨names, f, hexec, hn⟩ := exec_insnCommands u c hc
    exact NextInsn.runs_reserved ⟨hl, hx, ht⟩ hsrc (hexec s) (hop ▸ hn)


/-! ## What a packet carries and what it counts (R86, R99, R104) -/

section Metadata

variable (x : Pass) (id v : Nat)

theorem Pass.md'_setMd : (x.setMd id v).md' id = if id = mdColour ∧ v % 2 ^ mdWidth id = 3 then 2 else v % 2 ^ mdWidth id := by
  rw [Pass.md', Pass.setMd, mdGet, mdSet, Sparse.get_set_self]
  simp only [Bool.and_eq_true, decide_eq_true_eq]

theorem Pass.md'_setMd_other {j : Nat} (h : j ≠ id) : (x.setMd id v).md' j = x.md' j := Sparse.get_set_other _ _ _ _ _ _ h

theorem Pass.md'_setMd_plain {id : Nat} (h : id ≠ mdColour) : (x.setMd id v).md' id = v % 2 ^ mdWidth id := by
  rw [x.md'_setMd, if_neg (fun hc => h hc.1)]

/-- COLOUR has two bits; 3 is written as 2. -/
theorem Pass.md'_setMd_colour : (x.setMd mdColour v).md' mdColour = min 2 (v % 4) := by
  have hw : 2 ^ mdWidth mdColour = 4 := rfl
  have := Nat.mod_lt v (show 4 > 0 by decide)
  rw [x.md'_setMd, hw]
  split <;> omega

end Metadata

section FlowCounters

variable (d : Dev) (i len : Nat)

theorem Dev.countFlow_good (h : d.tbl.ctrBad.contains i = false) :
    Sparse.get (0, 0) (d.countFlow i len).tbl.ctr i =
      (((Sparse.get (0, 0) d.tbl.ctr i).1 + 1) % 2 ^ 64, ((Sparse.get (0, 0) d.tbl.ctr i).2 + len) % 2 ^ 64) := by
  rw [Dev.countFlow, if_neg (ne_true_of_eq_false h)]
  exact Sparse.get_set_self _ _ _ _

/-- A pair in error is no longer listed (R393, log 295). -/
theorem Dev.countFlow_bad (h : d.tbl.ctrBad.contains i = true) : Sparse.get (0, 0) (d.countFlow i len).tbl.ctr i = (0, 0) := by
  rw [Dev.countFlow, if_pos h]
  exact Sparse.get_put_self (0, 0) d.tbl.ctr i none

theorem Dev.countFlow_other {j : Nat} (h : j ≠ i) :
    Sparse.get (0, 0) (d.countFlow i len).tbl.ctr j = Sparse.get (0, 0) d.tbl.ctr j := by
  rw [Dev.countFlow]
  split
  · exact Sparse.get_put_other (0, 0) d.tbl.ctr j i none h
  · exact Sparse.get_set_other (0, 0) (0, 0) d.tbl.ctr j i _ h

end FlowCounters

/-- Of the code that a packet carries and one raised on it the lower stays; 0 is no code. -/
theorem Pass.dropCode_raise (x : Pass) {c : Nat} (hc : c < 64) :
    (x.raise c).md' mdDropCode = if x.md' mdDropCode = 0 then c else min (x.md' mdDropCode) c := by
  have hset : (x.setMd mdDropCode c).md' mdDropCode = c := by
    rw [x.md'_setMd_plain c (by decide)]
    exact Nat.mod_eq_of_lt hc
  simp only [Pass.raise, Bool.or_eq_true, decide_eq_true_eq, apply_ite (fun p : Pass => p.md' mdDropCode), hset]
  split <;> split <;> omega

theorem Pass.dropCode_raise_raise {x : Pass} {a b : Nat} (ha : 1 ≤ a) (ha' : a < 64) (hb : b < 64) (h : x.md' mdDropCode = 0) :
    ((x.raise a).raise b).md' mdDropCode = min a b := by
  rw [Pass.dropCode_raise _ hb, Pass.dropCode_raise _ ha', if_pos h, if_neg (by omega)]

/-- Settles O19: metadata and flow counters by the laws of a sparse memory, drop codes by what one more code leaves. -/
theorem packetState : Obligations.PacketState := by
  unfold Obligations.PacketState
  refine ⟨fun x id v => ?metadata, fun d i len => ?counters, fun x a b ha ha' hb hb' h => ?codes⟩
  case metadata => exact ⟨x.md'_setMd_plain v, x.md'_setMd_colour v, fun j hj => x.md'_setMd_other id v hj⟩
  case counters => exact ⟨d.countFlow_good i len, d.countFlow_bad i len, fun j hj => d.countFlow_other i len hj⟩
  case codes =>
    have hab := Pass.dropCode_raise_raise ha ha' hb' h
    have hba := Pass.dropCode_raise_raise hb hb' ha' h
    exact ⟨hab, by rw [hab, hba, Nat.min_comm]⟩

/-! ## Meters, counters, learning and hashing (R97, R99, R100, R131) -/

section Counting

variable {d : Dev} {x : Pass} {w : Nat}

theorem Dev.runMeter_charges {e : Dev} {c : Nat} (hdrop : x.md' mdDropCode = 0) (hi : x.source w < 262144) (hm : x.meters < 2)
    (h : d.meterPacket (x.source w) (x.md' mdPktLen) (x.md' mdColour) = (e, c)) :
    d.runMeter x w = (e,
      if c = 2 && bitAt (insnDst w) 0 then ({ x with meters := x.meters + 1 }.setMd mdColour c).raise (if x.egress then 0x05 else 0x12)
      else { x with meters := x.meters + 1 }.setMd mdColour c) := by
  simp only [Dev.runMeter, hdrop, h]
  have hmeter : ¬(decide (262144 ≤ x.source w) || decide (2 ≤ x.meters)) = true := by
    simp only [Bool.or_eq_true, decide_eq_true_eq]
    omega
  rw [if_neg (not_not.2 rfl), if_neg hmeter]
  rfl

theorem Dev.runLearn_first (hin : x.egress = false) (hdrop : x.md' mdDropCode = 0) (hfirst : x.learn = none) :
    d.runLearn x w = (d.pmc x.pipe 0x16 1, { x with learn := some {
      tag := bitsOf (insnDst w) 11 8, key := beVal (padKey 18 (x.key (bitsOf (insnDst w) 4 0))), data := x.source w % 2 ^ 32 } }) := by
  simp [Dev.runLearn, hin, hdrop, hfirst]

end Counting

/-- Settles O20: each of the four is the branch of its operation that its conditions choose. -/
theorem countingInstructions : Obligations.CountingInstructions := by
  unfold Obligations.CountingInstructions
  intro s u x w t hl hx ht hsrc y b
  have h : NextInsn s u x w t := ⟨hl, hx, ht⟩
  refine ⟨fun hop hdrop hi hm => ?meter, fun hop hi => ?count, fun hop hin hdrop hfirst => ?learn, fun hop => ?hash⟩
  case meter => exact ⟨_, _, rfl, h.runs hsrc rfl (Dev.runMeter_charges hdrop hi hm rfl) hop⟩
  case count => exact h.runs hsrc rfl (if_neg (Nat.not_le.2 hi)) hop
  case learn => exact h.runs hsrc rfl (Dev.runLearn_first hin hdrop hfirst) hop
  case hash => exact h.runs hsrc rfl rfl hop

/-! ## Edits of the frame (R94, R96, R106, R311) -/

section Edits

variable {d : Dev} {x : Pass} {w : Nat} (hout : x.egress = true)

include hout

theorem Dev.editAt_edits {cls off : Nat} {e : Nat → Edit} (hslot : x.slot (selSlot (insnDst w)) = some (cls, off))
    (hsel : selHeader (insnDst w) = true) : d.editAt x w e = d.edited x (e (selByte (insnDst w) off)) := by
  simp [Dev.editAt, hout, hsel, hslot]

theorem Dev.runDecTtl_ip {cls off : Nat} (hslot : x.slot (selSlot (insnDst w)) = some (cls, off)) (hip : cls = 3 ∨ cls = 4) :
    d.runDecTtl x w = (d,
      if winBits x.win (8 * (off + if cls = 3 then 8 else 7)) 8 ≤ 1 then x.raise 0x03
      else x.putBits (8 * (off + if cls = 3 then 8 else 7)) 8 (winBits x.win (8 * (off + if cls = 3 then 8 else 7)) 8 - 1)) := by
  have hclass : ¬(decide (cls ≠ 3) && decide (cls ≠ 4)) = true := by rcases hip with rfl | rfl <;> decide
  simp only [Dev.runDecTtl, hout, hslot, if_neg hclass]
  rfl

variable (hioam : x.md' mdIoam ≠ 0)

include hioam

theorem Dev.runIoam_served {o : IoamOpt} {k : Nat} (hopt : x.ioamOpt (selSlot (insnDst w)) = some o) (hcase : d.ioamCase o = .inr k) :
    d.runIoam x w = d.ioamServe x o k := by
  simp [Dev.runIoam, hout, hioam, hopt, hcase]

theorem Dev.runIoam_unserved {o : IoamOpt} {r : Nat} (hopt : x.ioamOpt (selSlot (insnDst w)) = some o) (hcase : d.ioamCase o = .inl r) :
    d.runIoam x w = (d.inc F.TLM_IOAM_CNT_COUNT [r], x) := by
  simp [Dev.runIoam, hout, hioam, hopt, hcase]

theorem Dev.runIoam_no_option (hopt : x.ioamOpt (selSlot (insnDst w)) = none) :
    d.runIoam x w = (d.inc F.TLM_IOAM_CNT_COUNT [1], x) := by
  simp [Dev.runIoam, hout, hioam, hopt]

end Edits

/-- Settles O21: each of the four is the branch of its operation that the slot, or the option in it, chooses. -/
theorem editInstructions : Obligations.EditInstructions := by
  unfold Obligations.EditInstructions
  intro s u x w t hl hx ht hsrc y sel hout
  have h : NextInsn s u x w t := ⟨hl, hx, ht⟩
  refine ⟨fun cls off hslot => ⟨fun hop hsel => ?insert4, fun hop hsel h1 h64 => ?remove, fun hop hip => ?decTtl⟩,
    fun o k hop hioam hopt hcase => ?served, fun o r hop hioam hopt hcase => ?unserved, fun hop hioam hopt => ?noOption⟩
  case insert4 => exact h.runs hsrc rfl (Dev.editAt_edits hout hslot hsel) hop
  case remove =>
    have hcount : ¬(decide (y.source w = 0) || decide (64 < y.source w)) = true := by simp only [Bool.or_eq_true, decide_eq_true_eq]; omega
    exact h.runs hsrc rfl ((if_neg hcount).trans (Dev.editAt_edits hout hslot hsel)) hop
  case decTtl => exact h.runs hsrc rfl (Dev.runDecTtl_ip hout hslot hip) hop
  case served => exact h.runs hsrc rfl (Dev.runIoam_served hout hioam hopt hcase) hop
  case unserved => exact h.runs hsrc rfl (Dev.runIoam_unserved hout hioam hopt hcase) hop
  case noOption => exact h.runs hsrc rfl (Dev.runIoam_no_option hout hioam hopt) hop


/-! ## What a frame's arrival leaves alone (R79, R151, R169)

While a frame is written, cells are taken, copies grow or are given up, and events are counted; the committed set, the headers that
wait for a slot and the count of those that found no room stay. -/

/-- What the entries of a port go by. -/
def Dev.slotView (d : Dev) : Sparse Word × List Entry × (List Nat → Nat) :=
  (d.comm, d.dp.entries, fun ix => d.rd F.PIPE_IN_OVR_COUNT ix)

theorem Dev.dp_of_kept {d e : Dev} (h : e.kept = d.kept) : e.dp = d.dp := congrArg (fun x => x.2.2.2.1) h

section SlotView

variable (d : Dev)

theorem Dev.slotView_of_kept {d e : Dev} (h : e.kept = d.kept)
    (hrd : ∀ ix, e.rd F.PIPE_IN_OVR_COUNT ix = d.rd F.PIPE_IN_OVR_COUNT ix) : e.slotView = d.slotView := by
  rw [Dev.slotView, Dev.comm_of_kept h, Dev.dp_of_kept h, funext hrd, Dev.slotView]

theorem Dev.slotView_pmc (u code n : Nat) : (d.pmc u code n).slotView = d.slotView :=
  Dev.slotView_of_kept (d.kept_pmc u code n) fun ix => Dev.rd_pmc (by decide) ix d u code n

theorem Dev.slotView_charge (j : Option Nat) (i n : Nat) : (d.charge j i n).slotView = d.slotView := by
  cases j <;> rfl

theorem Dev.slotView_inc {f : Fld} (ix : List Nat) (h : F.PIPE_IN_OVR_COUNT.apart f = true) : (d.inc f ix).slotView = d.slotView :=
  Dev.slotView_of_kept (d.kept_inc f ix) fun jx => d.rd_inc_apart jx ix h

theorem Dev.slotView_modPkt (u : Nat) (f : Pkt → Pkt) : (d.modPkt u f).slotView = d.slotView := rfl

theorem Dev.slotView_addPkt (p : Pkt) : (d.addPkt p).slotView = d.slotView := rfl

theorem Dev.slotView_newUid : d.newUid.2.slotView = d.slotView := rfl

theorem Dev.slotView_firstGroup (n : Nat) : (d.firstGroup n).2.slotView = d.slotView := rfl

theorem Dev.slotView_setPort (p : Nat) (x : PortSt) : (d.setPort p x).slotView = d.slotView := rfl

theorem Dev.slotView_writeCell (u j code : Nat) (job : Option Nat) : (d.writeCell u j code job).slotView = d.slotView := by
  unfold Dev.writeCell
  split
  · rfl
  · split
    · rfl
    · rw [Dev.slotView_charge, Dev.slotView_pmc, Dev.slotView_modPkt]

theorem Dev.slotView_writeCells (u n : Nat) : (d.writeCells u n).slotView = d.slotView := by
  induction n generalizing d with
  | zero => rfl
  | succ n ih =>
    simp only [Dev.writeCells]
    split
    · rfl
    · split
      · exact d.slotView_writeCell _ _ _ _
      · rw [ih, Dev.slotView_writeCell]

theorem Dev.slotView_dropPkt (u : Nat) : (d.dropPkt u).slotView = d.slotView :=
  Dev.slotView_pmc (d.modPkt u _) 104 0x3A _

theorem Dev.slotView_copyDrop (p : Pkt) : (d.copyDrop p).slotView = d.slotView := by
  cases h : p.kind <;> simp only [Dev.copyDrop, h] <;> exact d.slotView_inc _ (by decide)

theorem Dev.slotView_abandon (p : Pkt) : (d.abandon p).slotView = d.slotView := by
  rw [Dev.abandon, Dev.slotView_dropPkt, Dev.slotView_copyDrop]

theorem Dev.slotView_growCopy (u target fuel : Nat) : (d.growCopy u target fuel).slotView = d.slotView := by
  induction fuel generalizing d with
  | zero => rfl
  | succ n ih =>
    simp only [Dev.growCopy]
    split
    · rfl
    · split
      · rfl
      · split
        · exact d.slotView_abandon _
        · split
          · exact d.slotView_writeCells u 1
          · split
            · rw [Dev.slotView_abandon, Dev.slotView_writeCells]
            · rw [ih, Dev.slotView_modPkt, Dev.slotView_writeCells]

theorem Dev.slotView_growTo (c : Pkt) (n : Nat) : (d.growTo c n).slotView = d.slotView := d.slotView_growCopy _ _ _

theorem Dev.slotView_arrive (u : Nat) (more : List Byte) (ended : Bool) : (d.arrive u more ended).slotView = d.slotView := by
  simp only [Dev.arrive]
  split
  · rfl
  · refine (foldl_proj Dev.slotView _ (fun b c => b.slotView_growTo c _) _ _).trans ?_
    split
    · rfl
    · exact Dev.slotView_writeCells _ _ _

theorem Dev.slotView_newFrame (p : Nat) (bytes : List Byte) (ended : Bool) (job : Option Nat) :
    (d.newFrame p bytes ended job).1.slotView = d.slotView := by
  change (Dev.arrive ((d.firstGroup (p / 32)).2.newUid.2.addPkt _) _ _ _).slotView = _
  rw [Dev.slotView_arrive, Dev.slotView_addPkt, Dev.slotView_newUid, Dev.slotView_firstGroup]

theorem Dev.slotView_wireFrame (p : Nat) (w : List Byte) (ended : Bool) : (d.wireFrame p w ended).1.slotView = d.slotView := by
  simp only [Dev.wireFrame, Dev.takeMark]
  rw [Dev.slotView_modPkt, Dev.slotView_newFrame, Dev.slotView_setPort, Dev.slotView_pmc]

end SlotView

section SlotViewCongr

variable {d e : Dev} (h : e.slotView = d.slotView)

include h

theorem Dev.entries_of_slotView : e.dp.entries = d.dp.entries := congrArg (fun v => v.2.1) h

theorem Dev.entriesOf_of_slotView (p : Nat) : e.entriesOf p = d.entriesOf p := by
  rw [Dev.entriesOf, Dev.entries_of_slotView h, Dev.entriesOf]

theorem Dev.entryRoom_of_slotView (p : Nat) : e.entryRoom p = d.entryRoom p := by
  rw [Dev.entryRoom, Dev.portLanes_congr (congrArg (fun v => v.1) h), Dev.entryRoom]

theorem Dev.inOvr_of_slotView (ix : List Nat) : e.rd F.PIPE_IN_OVR_COUNT ix = d.rd F.PIPE_IN_OVR_COUNT ix :=
  congrFun (congrArg (fun v => v.2.2) h) ix

end SlotViewCongr

/-! ## The entries of a port (R79) -/

section HeaderIn

variable {d : Dev} {p : Nat} {w : List Byte} {ended : Bool} {sfd : Nat}

/-- The header's frame begins to be stored; the header then enters, unless its port has no room left. -/
theorem Dev.headerIn_eq (d : Dev) (p : Nat) (w : List Byte) (ended : Bool) (sfd : Nat) :
    let a := d.wireFrame p w ended
    d.headerIn p w ended sfd = if a.1.entryRoom p ≤ (a.1.entriesOf p).length then a.1.entryOvr a.2 p
      else { a.1 with dp := { a.1.dp with entries :=
        a.1.dp.entries ++ [{ port := p, pkt := a.2, ts := tsAdjust sfd (a.1.rd F.TLM_TS_ADJ_RX_ADJ [p]) }] } } := rfl

theorem Dev.entriesOf_headerIn (h : (d.entriesOf p).length < d.entryRoom p) :
    ((d.headerIn p w ended sfd).entriesOf p).length = (d.entriesOf p).length + 1 := by
  have hview := d.slotView_wireFrame p w ended
  have hroom : ¬(d.wireFrame p w ended).1.entryRoom p ≤ ((d.wireFrame p w ended).1.entriesOf p).length := by
    rw [Dev.entryRoom_of_slotView hview, Dev.entriesOf_of_slotView hview]
    exact Nat.not_le.2 h
  rw [Dev.headerIn_eq, if_neg hroom, Dev.entriesOf, List.filter_append, List.length_append]
  change ((d.wireFrame p w ended).1.entriesOf p).length + _ = _
  rw [Dev.entriesOf_of_slotView hview]
  simp

theorem Dev.headerIn_full (h : d.entryRoom p ≤ (d.entriesOf p).length) :
    d.headerIn p w ended sfd = (d.wireFrame p w ended).1.entryOvr (d.wireFrame p w ended).2 p := by
  have hview := d.slotView_wireFrame p w ended
  have hroom : (d.wireFrame p w ended).1.entryRoom p ≤ ((d.wireFrame p w ended).1.entriesOf p).length := by
    rw [Dev.entryRoom_of_slotView hview, Dev.entriesOf_of_slotView hview]
    exact h
  rw [Dev.headerIn_eq, if_pos hroom]

theorem Dev.entries_entryOvr (d : Dev) (u p : Nat) : (d.entryOvr u p).dp.entries = d.dp.entries := by
  have hkept : (((d.inc F.PIPE_IN_OVR_COUNT [p / 32, p % 32]).inc F.PIPE_DROP_COUNT [p / 32, 1]).pmc (p / 32) 0x18 1).kept = d.kept := by
    rw [Dev.kept_pmc, Dev.kept_inc, Dev.kept_inc]
  rw [Dev.entryOvr, Dev.entries_of_slotView (Dev.slotView_modPkt _ _ _), Dev.dp_of_kept hkept]

theorem Dev.inOvr_entryOvr (d : Dev) (u p : Nat) : (d.entryOvr u p).rd F.PIPE_IN_OVR_COUNT [p / 32, p % 32] =
    min (2 ^ 32 - 1) (d.rd F.PIPE_IN_OVR_COUNT [p / 32, p % 32] + 1) := by
  rw [Dev.entryOvr, Dev.inOvr_of_slotView (Dev.slotView_modPkt _ _ _), Dev.rd_pmc (by decide), Dev.rd_inc_apart _ _ _ (by decide),
    d.rd_inc_saturates _ _ (by decide) (by decide) (by decide)]
  rfl

/-- A header whose port has no room left enters nothing and is counted. -/
theorem Dev.headerIn_full_counts (h : d.entryRoom p ≤ (d.entriesOf p).length) :
    (d.headerIn p w ended sfd).dp.entries = d.dp.entries ∧ (d.headerIn p w ended sfd).rd F.PIPE_IN_OVR_COUNT [p / 32, p % 32] =
      min (2 ^ 32 - 1) (d.rd F.PIPE_IN_OVR_COUNT [p / 32, p % 32] + 1) := by
  have hview := d.slotView_wireFrame p w ended
  rw [Dev.headerIn_full h, Dev.entries_entryOvr, Dev.inOvr_entryOvr, Dev.entries_of_slotView hview, Dev.inOvr_of_slotView hview]
  exact ⟨rfl, rfl⟩

end HeaderIn

/-! ## The entry arbiter (R79, R204) -/

/-- The first grant of a clock looks at every source that is ready. -/
theorem Dev.entryGrant_first {d : Dev} {n x : Nat} {credits : List (Nat × Int)}
    (h : arbitrate (d.entryReady n) d.entryWeight (fun x => Sparse.get 0 d.dp.entryCredit x) = some (x, credits)) :
    let e := { d with dp := { d.dp with
      entryTook := Sparse.set [] (Sparse.set [] d.dp.entryTook n []) n [x]
      entryCredit := credits.foldl (fun m (c : Nat × Int) => Sparse.set 0 m c.1 c.2) d.dp.entryCredit } }
    d.entryGrant n false = (if x < 1024 then e.serveEntry x else e.serveInject n).settleEntries := by
  have hall : (d.entryReady n).filter (fun x => !([] : List Nat).contains x) = d.entryReady n := by simp
  have hready := (congrArg (fun l => arbitrate l d.entryWeight (fun x => Sparse.get 0 d.dp.entryCredit x)) hall).trans h
  simp only [Dev.entryGrant, Bool.false_eq_true, if_false]
  rw [if_neg (by decide)]
  split
  next hnone => exact absurd (hnone.symm.trans hready) (by simp)
  next y l hsome =>
    obtain ⟨rfl, rfl⟩ : y = x ∧ l = credits := by simpa using hsome.symm.trans hready
    rfl

/-- After four grants in a clock nothing more is served. -/
theorem Dev.entryGrant_spent {d : Dev} {n : Nat} (h : 4 ≤ (Sparse.get [] d.dp.entryTook n).length) :
    (d.entryGrant n true).dp.passes = d.dp.passes ∧ (d.entryGrant n true).dp.entries = d.dp.entries := by
  simp only [Dev.entryGrant, if_true]
  rw [if_pos h]
  exact ⟨rfl, rfl⟩

/-! ## The commands of the ingress slot -/

/-- A command's next state shows the frame path and the fields that its effect leaves. -/
theorem Runs.shows {c : Instr} {s : State} {d : Dev} (hl : Live s) (h : Runs c s d) :
    ∃ t, exec c s = .next t ∧ t.dev.dp = d.dp ∧ ∀ f ix, t.dev.rd f ix = d.rd f ix :=
  ⟨_, h, rfl, fun f ix => Dev.rd_latched d f ix hl.2⟩

section IngressCommands

variable {s : State} (hl : Live s)

include hl

section HeaderSlot

variable {p : Fin 1024} (hdom : s.dev.domOn (128 + p.val / 32) = true) (hsafe : s.dev.safe = false)

include hdom hsafe

theorem runs_headerSlot_wire {w : List Byte} {ended sc : Bool} {sfd : BitVec 40} (hup : s.dev.linkUp p.val = true)
    (hlen : w.length ≤ 256) (hend : ended = true ∨ w.length = 256) (hctl : isControl w = false) :
    Runs (.headerSlot p (.wire w ended sfd) sc) s ((s.dev.headerIn p.val w ended sfd.toNat).entryGrant (p.val / 32) sc) :=
  Runs.of_run hl rfl ((if_neg (by simp [hdom, hsafe])).trans (if_pos (by rcases hend with h | h <;> simp [hup, hlen, hctl, h])))

theorem runs_headerSlot_control {w : List Byte} {ended sc : Bool} {sfd : BitVec 40} (hctl : isControl w = true) :
    Runs (.headerSlot p (.wire w ended sfd) sc) s s.dev :=
  Runs.of_run hl rfl ((if_neg (by simp [hdom, hsafe])).trans (if_neg (by simp [hctl])))

theorem runs_headerSlot_waiting {sc : Bool} {e : Dev} (h : s.dev.entryGrant (p.val / 32) sc = e) :
    Runs (.headerSlot p .waiting sc) s e :=
  Runs.of_run hl rfl ((if_neg (by simp [hdom, hsafe])).trans h)

end HeaderSlot

/-- A MAC control frame is kept with its port and its mark; frames, packets and entries stay (R78). -/
theorem macControlTerminate_next {p : Fin 1024} {f : List Byte} (hup : s.dev.linkUp p.val = true) (hctl : isControl f = true) :
    ∃ t bad, exec (.macControlTerminate p f) s = .next t ∧
      t.dev.dp.control = s.dev.dp.control ++ [{ port := p.val, bytes := f, bad := bad }] ∧
      (bad = true ↔ (s.dev.port p.val).marks.headD .ok ≠ .ok) ∧
      t.dev.dp.pkts = s.dev.dp.pkts ∧ t.dev.dp.passes = s.dev.dp.passes ∧ t.dev.dp.entries = s.dev.dp.entries := by
  have hkept := s.dev.kept_pmc (64 + p.val / 32) 0x20 1
  let a := (s.dev.pmc (64 + p.val / 32) 0x20 1).takeMark p.val
  have hrun : Runs (.macControlTerminate p f) s
      { a.1 with dp := { a.1.dp with control := a.1.dp.control ++ [{ port := p.val, bytes := f, bad := a.2 != .ok }] } } :=
    Runs.of_run hl rfl (if_pos (by simp [hup, hctl]))
  have hdp : a.1.dp = s.dev.dp := (Dev.dp_of_kept hkept :)
  have hmark : a.2 = (s.dev.port p.val).marks.headD .ok := by
    rw [Dev.port, ← Dev.phy_of_kept hkept]
    rfl
  obtain ⟨t, ht, hshown, -⟩ := hrun.shows hl
  rw [hdp] at hshown
  exact ⟨t, a.2 != .ok, ht, by rw [hshown], by rw [bne_iff_ne, hmark], by rw [hshown], by rw [hshown], by rw [hshown]⟩

theorem runs_ingressEnd {u : Nat} {x : Pass} {f : Pkt} (hx : s.dev.pass u = some x) (hin : x.egress = false) (htodo : x.todo = [])
    (hover : x.stages ≤ x.stage) (hsafe : s.dev.safe = false) (hf : s.dev.pkt x.pkt = some f) :
    Runs (.ingressEnd u) s (s.dev.ingressEnd x f) := by
  refine Runs.of_run hl rfl ?_
  simp only [hx, hf]
  exact if_neg (by simp [hin, htodo, hover, hsafe])

/-- In the safe state a packet stays where it is (R408, log 178). -/
theorem runs_ingressEnd_safe (u : Nat) (hsafe : s.dev.safe = true) : Runs (.ingressEnd u) s s.dev := by
  refine Runs.of_run hl rfl ?_
  split
  · rfl
  · exact if_pos (by simp [hsafe])

section FrameEnd

variable {u : Nat} {p q : Pkt} {tail : List Byte} {mark : FrameMark} (hp : s.dev.pkt u = some p) (hkind : p.kind = .frame)
  (hopen : p.checked = false) (hsafe : s.dev.safe = false)
  (hq : (if p.ended then s.dev else s.dev.arrive u tail true).pkt u = some q)

include hp hkind hopen hsafe hq

/-- What FRAME_END_CHECKS does with a frame whose rest has arrived. -/
theorem runs_frameEndChecks :
    let d := if p.ended then s.dev else s.dev.arrive u tail true
    Runs (.frameEndChecks u tail mark) s (if q.resolved || q.dropped then d.frameEnd q mark
      else d.modPkt u (fun p => { p with mark := joinMark p.mark mark })) := by
  refine Runs.of_run hl rfl ?_
  simp only [hp, hq]
  rw [if_neg (by simp [hkind, hopen]), if_neg (by simp [hsafe])]

end FrameEnd

end IngressCommands

/-- Settles O22: the commands by the branches that their conditions choose; the entries of a port by what a frame's arrival leaves
alone. -/
theorem ingressSlot : Obligations.IngressSlot := by
  unfold Obligations.IngressSlot
  refine ⟨fun s hl => ⟨?headers, ?arbiter, ?control, ?ingressEnd, fun u => runs_ingressEnd_safe hl u, ?frameEnd⟩,
    fun d p w ended sfd => ⟨Dev.entriesOf_headerIn, Dev.headerIn_full_counts⟩, fun d n => Dev.entryGrant_spent⟩
  case headers =>
    exact fun p w ended sc sfd hdom hsafe hup hlen hend =>
      ⟨runs_headerSlot_wire hl hdom hsafe hup hlen hend, runs_headerSlot_control hl hdom hsafe⟩
  case arbiter =>
    exact fun p x credits hdom hsafe h => runs_headerSlot_waiting hl hdom hsafe (Dev.entryGrant_first h)
  case control => exact fun p f => macControlTerminate_next hl
  case ingressEnd => exact fun u x f => runs_ingressEnd hl
  case frameEnd =>
    intro u p tail mark hp hkind hopen hsafe d q hq
    have hruns := runs_frameEndChecks hl (mark := mark) hp hkind hopen hsafe hq
    exact ⟨fun h => by simpa only [h, if_true] using hruns, fun h => by simpa only [h, Bool.false_eq_true, if_false] using hruns⟩

/-! ## Data registers behind an address register (R455) -/

section Dwords

variable (d : Dev) {f : Fld} (ix : List Nat) {n : Nat} (v : Nat)

theorem Dev.setDwords_succ :
    d.setDwords f ix (n + 1) v = (d.setDwords f ix n v).wr f (ix ++ [n]) (v / 2 ^ (32 * n) % 2 ^ 32) := by
  rw [Dev.setDwords, List.range_succ, List.foldl_append]
  rfl

theorem Dev.dp_setDwords : (d.setDwords f ix n v).dp = d.dp := by
  unfold Dev.setDwords
  exact foldl_proj Dev.dp _ (fun e _ => e.wr_dp _ _ _) _ _

theorem Dev.rd_setDwords_apart {g : Fld} (jx : List Nat) (h : g.apart f = true) : (d.setDwords f ix n v).rd g jx = d.rd g jx := by
  unfold Dev.setDwords
  exact foldl_proj (fun e : Dev => e.rd g jx) _ (fun e _ => e.rd_wr_apart jx _ _ h) _ _

theorem Dev.dwords_wr {g : Fld} (jx : List Nat) (h : f.apart g = true) : (d.wr g jx v).dwords f ix n = d.dwords f ix n := by
  simp only [Dev.dwords, d.rd_wr_apart _ jx v h]

/-- Data registers of 32 bits that are all different read back as put. -/
theorem Dev.rd_setDwords (hlo : f.lo = 0) (hhi : f.hi = 31)
    (hkey : ∀ j k, j < k → k < n → f.reg.key (ix ++ [j]) ≠ f.reg.key (ix ++ [k])) {j : Nat} (hj : j < n) :
    (d.setDwords f ix n v).rd f (ix ++ [j]) = v / 2 ^ (32 * j) % 2 ^ 32 := by
  induction n with
  | zero => omega
  | succ n ih =>
    rw [Dev.setDwords_succ]
    rcases Nat.lt_succ_iff_lt_or_eq.1 hj with hlt | rfl
    · rw [Dev.rd_wr_of_key _ _ _ _ _ _ (hkey j n hlt (Nat.lt_succ_self n))]
      exact ih (fun j k hjk hk => hkey j k hjk (Nat.lt_succ_of_lt hk)) hlt
    · rw [Dev.rd_wr_fits _ _ _ _ (by omega) (by omega)]
      rw [hlo, hhi]
      exact Nat.mod_lt _ (Nat.two_pow_pos 32)

end Dwords

/-- RD of an address register: the place named goes into the `n` data registers. -/
def Dev.readBack (d : Dev) (rd : Bool) (f : Fld) (ix : List Nat) (n : Nat) (place : Dp → Nat) : Dev :=
  if rd then d.setDwords f ix n (place d.dp) else d

section ReadBack

variable (d : Dev) (rd : Bool) {f : Fld} (ix : List Nat) {n : Nat} (place : Dp → Nat)

theorem Dev.dp_readBack : (d.readBack rd f ix n place).dp = d.dp := by
  rw [Dev.readBack, apply_ite Dev.dp, Dev.dp_setDwords, ite_self]

theorem Dev.rd_readBack_apart {g : Fld} (jx : List Nat) (h : g.apart f = true) : (d.readBack rd f ix n place).rd g jx = d.rd g jx := by
  rw [Dev.readBack, apply_ite (fun e : Dev => e.rd g jx), Dev.rd_setDwords_apart _ _ _ _ h, ite_self]

/-- The data registers then hold the place as it is. -/
theorem Dev.rd_readBack (hlo : f.lo = 0) (hhi : f.hi = 31)
    (hkey : ∀ j k, j < k → k < n → f.reg.key (ix ++ [j]) ≠ f.reg.key (ix ++ [k])) {j : Nat} (hj : j < n) :
    (d.readBack true f ix n place).rd f (ix ++ [j]) = place (d.readBack true f ix n place).dp / 2 ^ (32 * j) % 2 ^ 32 := by
  rw [Dev.dp_readBack, Dev.readBack, if_pos rfl, Dev.rd_setDwords _ _ _ hlo hhi hkey hj]

end ReadBack

theorem Dev.accessPf_taken {d : Dev} {m : Master} {off : Nat} (v : Nat) (f : Dev → Dev) (hm : isPfSvc m = true)
    (hb : d.hostBlocked m = false) (hw : initWindow (off / 1048576) = false) : d.accessPf m off v f = f d := by
  simp [Dev.accessPf, Dev.access, hm, hb, hw]

/-! ### Parser state tables (R85) -/

section PrsAddr

variable (d : Dev) (n v : Nat)

/-- The parser entry that a write of PRS_ST_ADDR[n] names. -/
def prsPlace (n v : Nat) : Nat := prsAt n (bitsOf v 29 29) (bitsOf v 8 0)

/-- PRS_ST_ADDR[n] written. -/
def Dev.prsNamed (d : Dev) (n v : Nat) : Dev :=
  (d.wr F.PRS_ST_ADDR_BANK [n] (bitsOf v 29 29)).wr F.PRS_ST_ADDR_INDEX [n] (bitsOf v 8 0)

/-- What WR then stores. -/
def Dev.prsStored (d : Dev) (n v : Nat) : Dev :=
  let d := d.prsNamed n v
  if bitAt v 31 then
    { d with dp := { d.dp with
      prs := Sparse.set 0 d.dp.prs (prsPlace n v) (d.dwords F.PRS_ST_DATA_DATA [n] 4)
      badPrs := Sparse.set 0 d.dp.badPrs (prsPlace n v) 0 } }
  else d

theorem Dev.prsAddr_eq : d.prsAddr n v =
    (d.prsStored n v).readBack (bitAt v 30) F.PRS_ST_DATA_DATA [n] 4 (fun x => Sparse.get 0 x.prs (prsPlace n v)) := rfl

theorem Dev.dp_prsNamed : (d.prsNamed n v).dp = d.dp := by
  rw [Dev.prsNamed, Dev.wr_dp, Dev.wr_dp]

theorem Dev.prs_prsAddr_wr (hwr : bitAt v 31 = true) :
    (d.prsAddr n v).dp.prs = Sparse.set 0 d.dp.prs (prsPlace n v) (d.dwords F.PRS_ST_DATA_DATA [n] 4) := by
  have hdata : (d.prsNamed n v).dwords F.PRS_ST_DATA_DATA [n] 4 = d.dwords F.PRS_ST_DATA_DATA [n] 4 := by
    rw [Dev.prsNamed, Dev.dwords_wr _ _ _ _ (by decide), Dev.dwords_wr _ _ _ _ (by decide)]
  rw [Dev.prsAddr_eq, Dev.dp_readBack, Dev.prsStored, if_pos hwr, hdata, Dev.dp_prsNamed]

theorem Dev.dp_prsAddr_rd (hwr : bitAt v 31 = false) : (d.prsAddr n v).dp = d.dp := by
  rw [Dev.prsAddr_eq, Dev.dp_readBack, Dev.prsStored, if_neg (ne_true_of_eq_false hwr), Dev.dp_prsNamed]

theorem Dev.rd_prsAddr (hrd : bitAt v 30 = true) {j : Nat} (hj : j < 4) : (d.prsAddr n v).rd F.PRS_ST_DATA_DATA [n, j] =
    Sparse.get 0 (d.prsAddr n v).dp.prs (prsPlace n v) / 2 ^ (32 * j) % 2 ^ 32 := by
  have hkey : ∀ j k, j < k → k < 4 → R.PRS_ST_DATA.key ([n] ++ [j]) ≠ R.PRS_ST_DATA.key ([n] ++ [k]) := by
    simp only [Reg.key, Reg.keyAt, flatIndex, R.PRS_ST_DATA, List.cons_append, List.nil_append]
    omega
  rw [Dev.prsAddr_eq, hrd]
  exact Dev.rd_readBack _ (f := F.PRS_ST_DATA_DATA) [n] _ rfl rfl hkey hj

end PrsAddr

/-! ### Pipeline programs (R455) -/

section PipeAddr

variable (d : Dev) {n v off w : Nat}

/-- PIPE_IDX_ADDR[n] written. -/
def Dev.pipeNamed (d : Dev) (n v : Nat) : Dev :=
  (((d.wr F.PIPE_IDX_ADDR_BANK [n] (bitsOf v 29 29)).wr F.PIPE_IDX_ADDR_TARGET [n] (bitsOf v 27 24)).wr
    F.PIPE_IDX_ADDR_STAGE [n] (bitsOf v 23 20)).wr F.PIPE_IDX_ADDR_INDEX [n] (bitsOf v 10 0)

/-- The program word at `off` of the bank that a write of PIPE_IDX_ADDR[n] names. -/
def pipePlace (n v off : Nat) : Nat := (2 * n + bitsOf v 29 29) * 65536 + off

/-- What WR then stores at a place of `w` dwords. -/
def Dev.pipeStored (d : Dev) (n v off w : Nat) : Dev :=
  let d := d.pipeNamed n v
  if bitAt v 31 then
    { d with dp := { d.dp with
      prog := Sparse.set 0 d.dp.prog (pipePlace n v off) (d.dwords F.PIPE_IDX_DATA_DATA [n] w)
      badProg := Sparse.set 0 d.dp.badProg (pipePlace n v off) 0 } }
  else d

theorem Dev.dp_pipeNamed (n v : Nat) : (d.pipeNamed n v).dp = d.dp := by
  rw [Dev.pipeNamed, Dev.wr_dp, Dev.wr_dp, Dev.wr_dp, Dev.wr_dp]

theorem Dev.rd_pipeNamed (n v : Nat) (ix : List Nat) : (d.pipeNamed n v).rd F.PIPE_IDX_DATA_DATA ix = d.rd F.PIPE_IDX_DATA_DATA ix := by
  rw [Dev.pipeNamed, Dev.rd_wr_apart _ _ _ _ (by decide), Dev.rd_wr_apart _ _ _ _ (by decide), Dev.rd_wr_apart _ _ _ _ (by decide),
    Dev.rd_wr_apart _ _ _ _ (by decide)]

/-- An address that names no place is stored alone. -/
theorem Dev.pipeAddr_none (h : idxTarget n v = none) : d.pipeAddr n v = d.pipeNamed n v := by
  simp only [Dev.pipeAddr, h]
  rfl

theorem Dev.pipeAddr_some (h : idxTarget n v = some (off, w)) : d.pipeAddr n v =
    (d.pipeStored n v off w).readBack (bitAt v 30) F.PIPE_IDX_DATA_DATA [n] w (fun x => Sparse.get 0 x.prog (pipePlace n v off)) := by
  simp only [Dev.pipeAddr, h]
  rfl

/-- No place is wider than the eight data registers. -/
theorem idxTarget_size (h : idxTarget n v = some (off, w)) : w ≤ 8 := by
  simp only [idxTarget, progTarget] at h
  split at h
  · simp only [Option.ite_none_left_eq_some, Option.some.injEq, Prod.mk.injEq] at h
    omega
  · simp only [Option.ite_none_left_eq_some, Option.some.injEq, Prod.mk.injEq] at h
    omega
  · simp only [Option.ite_none_left_eq_some, Option.some.injEq, Prod.mk.injEq] at h
    omega
  · cases h

theorem Dev.prog_pipeAddr_wr (h : idxTarget n v = some (off, w)) (hwr : bitAt v 31 = true) :
    (d.pipeAddr n v).dp.prog = Sparse.set 0 d.dp.prog (pipePlace n v off) (d.dwords F.PIPE_IDX_DATA_DATA [n] w) := by
  have hdata : (d.pipeNamed n v).dwords F.PIPE_IDX_DATA_DATA [n] w = d.dwords F.PIPE_IDX_DATA_DATA [n] w := by
    simp only [Dev.dwords, Dev.rd_pipeNamed]
  rw [d.pipeAddr_some h, Dev.dp_readBack, Dev.pipeStored, if_pos hwr, hdata, Dev.dp_pipeNamed]

theorem Dev.dp_pipeAddr_rd (h : idxTarget n v = some (off, w)) (hwr : bitAt v 31 = false) : (d.pipeAddr n v).dp = d.dp := by
  rw [d.pipeAddr_some h, Dev.dp_readBack, Dev.pipeStored, if_neg (ne_true_of_eq_false hwr), Dev.dp_pipeNamed]

theorem Dev.rd_pipeAddr (h : idxTarget n v = some (off, w)) (hrd : bitAt v 30 = true) {j : Nat} (hj : j < w) :
    (d.pipeAddr n v).rd F.PIPE_IDX_DATA_DATA [n, j] =
      Sparse.get 0 (d.pipeAddr n v).dp.prog (pipePlace n v off) / 2 ^ (32 * j) % 2 ^ 32 := by
  have hw := idxTarget_size h
  have hkey : ∀ j k, j < k → k < w → R.PIPE_IDX_DATA.key ([n] ++ [j]) ≠ R.PIPE_IDX_DATA.key ([n] ++ [k]) := by
    simp only [Reg.key, Reg.keyAt, flatIndex, R.PIPE_IDX_DATA, List.cons_append, List.nil_append]
    omega
  rw [d.pipeAddr_some h, hrd]
  exact Dev.rd_readBack _ (f := F.PIPE_IDX_DATA_DATA) [n] _ rfl rfl hkey hj

end PipeAddr

/-! ### Gate lists (R213) -/

section GclAddr

variable (d : Dev) {v : Nat}

/-- EGR_GCL_ADDR written. -/
def Dev.gclNamed (d : Dev) (v : Nat) : Dev :=
  (((d.wr F.EGR_GCL_ADDR_BANK [] (bitsOf v 29 29)).wr F.EGR_GCL_ADDR_TARGET [] (b2n (bitAt v 28))).wr
    F.EGR_GCL_ADDR_PORT [] (bitsOf v 25 16)).wr F.EGR_GCL_ADDR_ENTRY [] (bitsOf v 5 0)

/-- The list entry or bank header that a write of EGR_GCL_ADDR names. -/
def gclPlace (v : Nat) : Nat := gclAt (bitsOf v 25 16) (bitsOf v 29 29) (if bitAt v 28 then 0 else 1 + bitsOf v 5 0)

/-- What WR then stores, or refuses. -/
def Dev.gclStored (d : Dev) (v : Nat) : Dev :=
  let d := d.gclNamed v
  if !bitAt v 31 then d
  else if d.gclLocked (bitsOf v 25 16) (bitsOf v 29 29) then d.wr F.EGR_STAT_GCL_WR_REJ [] 1
  else { d with dp := { d.dp with gcl := Sparse.set 0 d.dp.gcl (gclPlace v) (d.gclData (bitAt v 28)) } }

theorem Dev.gclAddr_eq (v : Nat) : d.gclAddr v =
    (d.gclStored v).readBack (bitAt v 30) F.EGR_GCL_DATA_DATA [] 4 (fun x => Sparse.get 0 x.gcl (gclPlace v)) := rfl

theorem Dev.dp_gclNamed (v : Nat) : (d.gclNamed v).dp = d.dp := by
  rw [Dev.gclNamed, Dev.wr_dp, Dev.wr_dp, Dev.wr_dp, Dev.wr_dp]

theorem Dev.rd_gclNamed (v : Nat) {f : Fld} (ix : List Nat) (h : [F.EGR_GCL_ADDR_BANK, F.EGR_GCL_ADDR_TARGET, F.EGR_GCL_ADDR_PORT,
    F.EGR_GCL_ADDR_ENTRY].all f.apart = true) : (d.gclNamed v).rd f ix = d.rd f ix := by
  simp only [List.all_cons, List.all_nil, Bool.and_true, Bool.and_eq_true] at h
  obtain ⟨hbank, htarget, hport, hentry⟩ := h
  rw [Dev.gclNamed, Dev.rd_wr_apart _ _ _ _ hentry, Dev.rd_wr_apart _ _ _ _ hport, Dev.rd_wr_apart _ _ _ _ htarget,
    Dev.rd_wr_apart _ _ _ _ hbank]

theorem Dev.gclLocked_gclNamed (v p b : Nat) : (d.gclNamed v).gclLocked p b = d.gclLocked p b := by
  rw [Dev.gclLocked, Dev.on, d.rd_gclNamed v _ (by decide), d.rd_gclNamed v _ (by decide), Dev.gclLocked, Dev.on]

theorem Dev.gclData_gclNamed (v : Nat) (header : Bool) : (d.gclNamed v).gclData header = d.gclData header := by
  have hdata : ∀ ix, (d.gclNamed v).rd F.EGR_GCL_DATA_DATA ix = d.rd F.EGR_GCL_DATA_DATA ix := fun ix => d.rd_gclNamed v ix (by decide)
  simp only [Dev.gclData, Dev.dwords, hdata]

theorem Dev.gcl_gclAddr_wr (hwr : bitAt v 31 = true) (hfree : d.gclLocked (bitsOf v 25 16) (bitsOf v 29 29) = false) :
    (d.gclAddr v).dp.gcl = Sparse.set 0 d.dp.gcl (gclPlace v) (d.gclData (bitAt v 28)) := by
  rw [Dev.gclAddr_eq, Dev.dp_readBack, Dev.gclStored, if_neg (by simp [hwr]), Dev.gclLocked_gclNamed,
    if_neg (ne_true_of_eq_false hfree), Dev.gclData_gclNamed, Dev.dp_gclNamed]

/-- The operating bank, and either while a switch is pending, is not written; the refusal is shown. -/
theorem Dev.gclAddr_locked (hwr : bitAt v 31 = true) (hlocked : d.gclLocked (bitsOf v 25 16) (bitsOf v 29 29) = true) :
    (d.gclAddr v).dp = d.dp ∧ (d.gclAddr v).on F.EGR_STAT_GCL_WR_REJ [] = true := by
  have hstored : d.gclStored v = (d.gclNamed v).wr F.EGR_STAT_GCL_WR_REJ [] 1 := by
    rw [Dev.gclStored, if_neg (by simp [hwr]), Dev.gclLocked_gclNamed, if_pos hlocked]
  rw [Dev.gclAddr_eq, Dev.dp_readBack, Dev.on, Dev.rd_readBack_apart _ _ _ _ _ (by decide), hstored, Dev.wr_dp, Dev.dp_gclNamed]
  exact ⟨rfl, Dev.on_wr_bit _ F.EGR_STAT_GCL_WR_REJ [] true rfl (by decide)⟩

theorem Dev.dp_gclAddr_rd (hwr : bitAt v 31 = false) : (d.gclAddr v).dp = d.dp := by
  rw [Dev.gclAddr_eq, Dev.dp_readBack, Dev.gclStored, if_pos (by simp [hwr]), Dev.dp_gclNamed]

theorem Dev.rd_gclAddr (hrd : bitAt v 30 = true) {j : Nat} (hj : j < 4) : (d.gclAddr v).rd F.EGR_GCL_DATA_DATA [j] =
    Sparse.get 0 (d.gclAddr v).dp.gcl (gclPlace v) / 2 ^ (32 * j) % 2 ^ 32 := by
  have hkey : ∀ j k, j < k → k < 4 → R.EGR_GCL_DATA.key ([] ++ [j]) ≠ R.EGR_GCL_DATA.key ([] ++ [k]) := by
    simp only [Reg.key, Reg.keyAt, flatIndex, R.EGR_GCL_DATA, List.nil_append]
    omega
  rw [Dev.gclAddr_eq, hrd]
  exact Dev.rd_readBack _ (f := F.EGR_GCL_DATA_DATA) [] _ rfl rfl hkey hj

end GclAddr

/-! ### The commands

The blocks of the three address registers need no initialisation (R420), so an access to them is taken at once. -/

theorem prsStAddr_ready : ∀ n : Fin 32, initWindow (R.PRS_ST_ADDR.bar0At n.val / 1048576) = false := by decide

theorem pipeIdxAddr_ready : ∀ n : Fin 64, initWindow (R.PIPE_IDX_ADDR.bar0At n.val / 1048576) = false := by decide

theorem gclAddr_ready : initWindow (R.EGR_GCL_ADDR.bar0 / 1048576) = false := by decide

section IndirectCommands

variable {s : State} {m : Master} {v : BitVec 32} (hl : Live s) (hm : isPfSvc m = true) (hb : s.dev.hostBlocked m = false)

include hl hm hb

theorem runs_prsStWr (n : Fin 32) (hwr : bitAt v.toNat 31 = true) (hdom : s.dev.domOn (128 + n.val) = true) :
    Runs (.prsStWr m n v) s (s.dev.prsAddr n.val v.toNat) :=
  Runs.of_run hl rfl ((if_pos (by simp [hwr, hdom])).trans (Dev.accessPf_taken _ _ hm hb (prsStAddr_ready n)))

theorem runs_prsStRd (n : Fin 32) (hrd : bitAt v.toNat 30 = true) (hwr : bitAt v.toNat 31 = false)
    (hdom : s.dev.domOn (128 + n.val) = true) : Runs (.prsStRd m n v) s (s.dev.prsAddr n.val v.toNat) :=
  Runs.of_run hl rfl ((if_pos (by simp [hrd, hwr, hdom])).trans (Dev.accessPf_taken _ _ hm hb (prsStAddr_ready n)))

theorem runs_pipeIdxWr (n : Fin 64) (hwr : bitAt v.toNat 31 = true) (hdom : s.dev.domOn (128 + n.val % 32) = true) :
    Runs (.pipeIdxWr m n v) s (s.dev.pipeAddr n.val v.toNat) :=
  Runs.of_run hl rfl ((if_pos (by simp [hwr, hdom])).trans (Dev.accessPf_taken _ _ hm hb (pipeIdxAddr_ready n)))

theorem runs_pipeIdxRd (n : Fin 64) (hrd : bitAt v.toNat 30 = true) (hwr : bitAt v.toNat 31 = false)
    (hdom : s.dev.domOn (128 + n.val % 32) = true) : Runs (.pipeIdxRd m n v) s (s.dev.pipeAddr n.val v.toNat) :=
  Runs.of_run hl rfl ((if_pos (by simp [hrd, hwr, hdom])).trans (Dev.accessPf_taken _ _ hm hb (pipeIdxAddr_ready n)))

theorem runs_gclWr (hwr : bitAt v.toNat 31 = true) : Runs (.gclWr m v) s (s.dev.gclAddr v.toNat) :=
  Runs.of_run hl rfl ((if_pos hwr).trans (Dev.accessPf_taken _ _ hm hb gclAddr_ready))

theorem runs_gclRd (hrd : bitAt v.toNat 30 = true) (hwr : bitAt v.toNat 31 = false) : Runs (.gclRd m v) s (s.dev.gclAddr v.toNat) :=
  Runs.of_run hl rfl ((if_pos (by simp [hrd, hwr])).trans (Dev.accessPf_taken _ _ hm hb gclAddr_ready))

end IndirectCommands

/-- Settles O28: a command that takes its access writes its address register, and WR and RD of that are read off the place named. -/
theorem indirectTables : Obligations.IndirectTables := by
  unfold Obligations.IndirectTables
  intro s m v hl hm hb
  refine ⟨?prsWr, ?prsRd, ?pipeWr, ?pipeNone, ?pipeRd, ?gclWr, ?gclLocked, ?gclBack, ?gclRd⟩
  case prsWr =>
    intro n hwr hdom
    obtain ⟨t, ht, hdp, hfields⟩ := (runs_prsStWr hl hm hb n hwr hdom).shows hl
    refine ⟨t, ht, ?_, fun k hk => ?_, fun hrd j hj => ?_⟩
    · rw [hdp, Dev.prs_prsAddr_wr _ _ _ hwr]
      exact Sparse.get_set_self _ _ _ _
    · rw [hdp, Dev.prs_prsAddr_wr _ _ _ hwr]
      exact Sparse.get_set_other _ _ _ _ _ _ hk
    · rw [hfields, hdp, Dev.rd_prsAddr _ _ _ hrd hj, prsPlace]
  case prsRd =>
    intro n hrd hwr hdom
    obtain ⟨t, ht, hdp, hfields⟩ := (runs_prsStRd hl hm hb n hrd hwr hdom).shows hl
    have hsame := Dev.dp_prsAddr_rd s.dev n.val v.toNat hwr
    refine ⟨t, ht, hdp.trans hsame, fun j hj => ?_⟩
    rw [hfields, Dev.rd_prsAddr _ _ _ hrd hj, hsame, prsPlace]
  case pipeWr =>
    intro n off w hwr hdom htarget
    obtain ⟨t, ht, hdp, hfields⟩ := (runs_pipeIdxWr hl hm hb n hwr hdom).shows hl
    refine ⟨t, ht, ?_, fun k hk => ?_, fun hrd j hj => ?_⟩
    · rw [hdp, Dev.prog_pipeAddr_wr _ htarget hwr]
      exact Sparse.get_set_self _ _ _ _
    · rw [hdp, Dev.prog_pipeAddr_wr _ htarget hwr]
      exact Sparse.get_set_other _ _ _ _ _ _ hk
    · rw [hfields, hdp, Dev.rd_pipeAddr _ htarget hrd hj, pipePlace]
  case pipeNone =>
    intro n hwr hdom htarget
    obtain ⟨t, ht, hdp, hfields⟩ := (runs_pipeIdxWr hl hm hb n hwr hdom).shows hl
    have hnone := s.dev.pipeAddr_none htarget
    refine ⟨t, ht, ?_, fun j _ => ?_⟩
    · rw [hdp, hnone, Dev.dp_pipeNamed]
    · rw [hfields, hnone, Dev.rd_pipeNamed]
  case pipeRd =>
    intro n off w hrd hwr hdom htarget
    obtain ⟨t, ht, hdp, hfields⟩ := (runs_pipeIdxRd hl hm hb n hrd hwr hdom).shows hl
    have hsame := Dev.dp_pipeAddr_rd s.dev htarget hwr
    refine ⟨t, ht, hdp.trans hsame, fun j hj => ?_⟩
    rw [hfields, Dev.rd_pipeAddr _ htarget hrd hj, hsame, pipePlace]
  case gclWr =>
    intro hwr hfree
    obtain ⟨t, ht, hdp, -⟩ := (runs_gclWr hl hm hb hwr).shows hl
    refine ⟨t, ht, ?_, fun k hk => ?_⟩
    · rw [hdp, Dev.gcl_gclAddr_wr _ hwr hfree]
      exact Sparse.get_set_self _ _ _ _
    · rw [hdp, Dev.gcl_gclAddr_wr _ hwr hfree]
      exact Sparse.get_set_other _ _ _ _ _ _ hk
  case gclLocked =>
    intro hwr hlocked
    obtain ⟨t, ht, hdp, hfields⟩ := (runs_gclWr hl hm hb hwr).shows hl
    obtain ⟨hsame, hrej⟩ := s.dev.gclAddr_locked hwr hlocked
    exact ⟨t, ht, hdp.trans hsame, by rw [Dev.on, hfields, ← Dev.on, hrej]⟩
  case gclBack =>
    intro hwr hrd
    obtain ⟨t, ht, hdp, hfields⟩ := (runs_gclWr hl hm hb hwr).shows hl
    refine ⟨t, ht, fun j hj => ?_⟩
    rw [hfields, hdp, Dev.rd_gclAddr _ hrd hj, gclPlace]
  case gclRd =>
    intro hrd hwr
    obtain ⟨t, ht, hdp, hfields⟩ := (runs_gclRd hl hm hb hrd hwr).shows hl
    have hsame := Dev.dp_gclAddr_rd s.dev hwr
    refine ⟨t, ht, hdp.trans hsame, fun j hj => ?_⟩
    rw [hfields, Dev.rd_gclAddr _ hrd hj, hsame, gclPlace]

end Sys2Proof.Machine

/-!
PROOFS of the statements of spec/04_forwarding_tables.md: the table commands and what they report, learning with its relocation
paths, and the table jobs. The laws of the shared operations on the tables come first.
-/

namespace Sys2Proof.Machine

/-! ## What counts and charges leave of the tables -/

/-- What register writes and the list of overflow samples leave alone, counts leave alone. -/
theorem Dev.proj_pmcAdd {γ : Type} (π : Dev → γ) (hwr : ∀ (e : Dev) (f : Fld) (ix : List Nat) (v : Nat), π (e.wr f ix v) = π e)
    (hwraps : ∀ (e : Dev) (l : List (Nat × Nat)), π { e with pmcWraps := l } = π e) (d : Dev) (u c n fuel : Nat) :
    π (d.pmcAdd u c n fuel) = π d := by
  induction fuel generalizing d c n with
  | zero => rfl
  | succ k ih =>
    simp only [Dev.pmcAdd]
    split
    · exact hwr _ _ _ _
    · split <;> split <;> simp only [ih, hwr, hwraps]

@[simp] theorem Dev.pmc_tbl (d : Dev) (u code n : Nat) : (d.pmc u code n).tbl = d.tbl := by
  unfold Dev.pmc
  split
  · refine foldl_proj Dev.tbl _ (fun e k => ?_) _ _
    dsimp only
    split
    · exact Dev.proj_pmcAdd Dev.tbl Dev.wr_tbl (fun _ _ => rfl) _ _ _ _ _
    · rfl
  · rfl

@[simp] theorem Dev.charge_tbl (d : Dev) (j : Option Nat) (i n : Nat) : (d.charge j i n).tbl = d.tbl := by
  have hjob : (d.charge j i n).tbl = (d.activity i n).tbl := by cases j <;> rfl
  rw [hjob, Dev.activity_tbl]

/-- The registers of the tables are none that a count touches. -/
theorem Dev.on_of_resting {d e : Dev} (h : e.resting = d.resting) {f : Fld} (hf : f.reg.rests = true) (ix : List Nat) :
    e.on f ix = d.on f ix := by
  rw [Dev.on, Dev.rd_of_resting h hf, Dev.on]

/-- A field of a register other than the one set. -/
theorem Dev.rd_setRaw_other (d : Dev) {r : Reg} {f : Fld} (ix jx : List Nat) (v : Nat) (h : f.reg.win ≠ r.win ∨ f.reg.id ≠ r.id)
    (h1 : f.reg.id < 4096) (h2 : r.id < 4096) : (d.setRaw r ix v).rd f jx = d.rd f jx := by
  rw [Dev.rd, Dev.raw_setRaw_other _ _ _ _ _ _ h h1 h2, Dev.rd]

/-- A command's next state shows the tables and the fields that its effect leaves. -/
theorem Runs.showsTables {c : Instr} {s : State} {d : Dev} (hl : Live s) (h : Runs c s d) :
    ∃ t, exec c s = .next t ∧ t.dev.tbl = d.tbl ∧ ∀ f ix, t.dev.rd f ix = d.rd f ix :=
  ⟨_, h, rfl, fun f ix => Dev.rd_latched d f ix hl.2⟩

/-! ## Commands start (R122 to R124) -/

/-- A write to a block that is initialised, from a master that no HIF reset turns away, has its effect. -/
theorem Dev.access_initialised {d : Dev} {m : Master} (off v : Nat) (f : Dev → Dev) (hb : d.hostBlocked m = false)
    (hi : d.on F.RST_STAT_INIT_DONE [] = true) : d.access m off v f = f d := by
  simp [Dev.access, hb, hi]

/-- The command that a GO write of `v` by `m` starts: its index and data are the registers as they stand (R122). -/
def Dev.cmdOf (d : Dev) (m : Master) (v : Nat) : TblCmd :=
  { word := v, mid := m.mid, idx := d.rd F.TBL_CMD_IDX_INDEX [], data := (List.range 32).map (fun k => d.rd F.TBL_CMD_DATA_DATA [k]) }

/-- TBL_CMD written with GO: BUSY stands. -/
def Dev.cmdBusy (d : Dev) (v : Nat) : Dev :=
  (d.setRaw R.TBL_CMD [] (setBitsOf (setBitsOf v 31 31 0) 15 0 0)).wr F.TBL_CMD_BUSY [] 1

theorem Dev.tblCmd_go {d : Dev} {m : Master} {v : Nat} (hacc : d.tblAcc m = true) (hbusy : d.on F.TBL_CMD_BUSY [] = false)
    (hgo : bitAt v 0 = true) : d.tblCmd m v = (d.cmdBusy v).tblRun (d.cmdOf m v) := by
  have hidx : ∀ x, (d.setRaw R.TBL_CMD [] x).rd F.TBL_CMD_IDX_INDEX [] = d.rd F.TBL_CMD_IDX_INDEX [] := fun x =>
    d.rd_setRaw_other _ _ _ (by decide) (by decide) (by decide)
  have hdata : ∀ x k, (d.setRaw R.TBL_CMD [] x).rd F.TBL_CMD_DATA_DATA [k] = d.rd F.TBL_CMD_DATA_DATA [k] := fun x k =>
    d.rd_setRaw_other _ _ _ (by decide) (by decide) (by decide)
  simp [Dev.tblCmd, hacc, hbusy, hgo, hidx, hdata, Dev.cmdBusy, Dev.cmdOf]

/-- A command row runs the command that it names. -/
theorem runs_tblRow {c : Instr} {s : State} {m : Master} {v : BitVec 32} {op : Nat} (hl : Live s)
    (hc : exec c s = s.run (fun d => d.tblRow m op v.toNat)) (hacc : s.dev.tblAcc m = true) (hb : s.dev.hostBlocked m = false)
    (hi : s.dev.on F.RST_STAT_INIT_DONE [] = true) (hbusy : s.dev.on F.TBL_CMD_BUSY [] = false) (hgo : bitAt v.toNat 0 = true)
    (hop : bitsOf v.toNat 30 28 = op) : Runs c s ((s.dev.cmdBusy v.toNat).tblRun (s.dev.cmdOf m v.toNat)) := by
  refine Runs.of_run hl hc ?_
  rw [Dev.tblRow, if_pos (by simp [hgo, hop]), Dev.access_initialised _ _ _ hb hi, Dev.tblCmd_go hacc hbusy hgo]

/-- Settles O23: each row is a write of TBL_CMD that names its command. -/
theorem tableCommandsStart : Obligations.TableCommandsStart := by
  unfold Obligations.TableCommandsStart
  intro s m v hl hacc hb hi hbusy hgo
  have row : ∀ {c : Instr} (op : Nat), exec c s = s.run (fun d => d.tblRow m op v.toNat) → bitsOf v.toNat 30 28 = op →
      Runs c s ((s.dev.cmdBusy v.toNat).tblRun (s.dev.cmdOf m v.toNat)) :=
    fun op hc hop => runs_tblRow hl hc hacc hb hi hbusy hgo hop
  exact ⟨row 0 rfl, row 1 rfl, row 2 rfl, row 3 rfl, row 4 rfl, row 5 rfl, row 6 rfl, row 7 rfl⟩

/-! ## Learning, relocation moves and the stamp (R115, R132, R134, R136, R143) -/

/-- An offer taken from the queue, counted. -/
def Dev.offerTaken (d : Dev) (t : List Offer) : Dev := ({ d with tbl := { d.tbl with queue := t } } : Dev).pmc 105 0x45 1

section LearnTake

variable {s : State} {o : Offer} {t : List Offer} (hl : Live s) (hq : s.dev.tbl.queue = o :: t)
  (hpause : s.dev.on F.TBL_CFG_LEARN_PAUSE [] = false) (hheld : s.dev.learnHeld = false)
  (hpath : s.dev.path s.dev.activeEm = none) (hsafe : s.dev.safe = false)

include hl hq hpause hheld hpath hsafe

/-- The learning logic takes the offer: what it does then goes by LEARN_EN of the offer's tag. -/
theorem runs_learnTake :
    let d := s.dev.offerTaken t
    Runs .learnTake s (if !d.on F.TBL_TAG_CFG_LEARN_EN [o.tag % 16] then d.inc F.TBL_LEARN_DROP_COUNT [2]
      else (d.learnAct o (d.rd F.TBL_TAG_CFG_LEARN_ACT [o.tag % 16]) s.dev.activeEm 0).tblResume) := by
  refine Runs.of_run hl rfl ?_
  simp only [hq]
  exact if_neg (by simp [hpause, hheld, hpath, hsafe])

theorem runs_learnTake_dropped (hen : (s.dev.offerTaken t).on F.TBL_TAG_CFG_LEARN_EN [o.tag % 16] = false) :
    Runs .learnTake s ((s.dev.offerTaken t).inc F.TBL_LEARN_DROP_COUNT [2]) := by
  simpa [hen] using runs_learnTake hl hq hpause hheld hpath hsafe

theorem runs_learnTake_taken (hen : (s.dev.offerTaken t).on F.TBL_TAG_CFG_LEARN_EN [o.tag % 16] = true) :
    Runs .learnTake s (((s.dev.offerTaken t).learnAct o ((s.dev.offerTaken t).rd F.TBL_TAG_CFG_LEARN_ACT [o.tag % 16])
      s.dev.activeEm 0).tblResume) := by
  simpa [hen] using runs_learnTake hl hq hpause hheld hpath hsafe

end LearnTake

section LearnResume

variable {s : State} (hl : Live s) (n : Fin 65537)

include hl

theorem runs_learnResume_offer {o : Offer} {act b : Nat} {t : List Stalled} (h : s.dev.tbl.stalled = .offer o act b :: t)
    (hpath : s.dev.path b = none) :
    Runs (.learnEventResume n) s (s.dev.unstall.learnAct o act b n.val).tblResume :=
  Runs.of_run hl rfl (by simp [h, hpath])

theorem runs_learnResume_path {b : Nat} {t : List Stalled} {p : Path} (h : s.dev.tbl.stalled = .path b :: t)
    (hpath : s.dev.path b = some p) : Runs (.learnEventResume n) s (s.dev.unstall.pathEnd b p n.val) :=
  Runs.of_run hl rfl (by simp only [h, hpath])

theorem runs_learnResume_flush {i k : Nat} {c : TblCmd} {t : List Stalled} (h : s.dev.tbl.stalled = .flush i k c :: t) :
    Runs (.learnEventResume n) s ((s.dev.unstall.startScan c i k).scanTo (i + 1) n.val) :=
  Runs.of_run hl rfl (by simp only [h])

end LearnResume

/-- A path's next move made: its bank's move, and the path without it. -/
theorem runs_relocationMove {s : State} {b : Fin 2} {p : Path} {m : Nat × Nat} {t : List (Nat × Nat)} (hl : Live s)
    (hp : s.dev.path b.val = some p) (hm : p.moves = m :: t) :
    let q := { p with moves := t }
    let d := (if p.by_ = .bulk then s.dev.bulkMove b.val m else s.dev.emMove b.val m).setPath b.val (some q)
    Runs (.relocationMove b) s (if t.isEmpty then d.pathEnd b.val q 0 else d) :=
  Runs.of_run hl rfl (by simp only [hp, hm])

theorem runs_stampTick_off {s : State} (hl : Live s) (h : s.dev.rd F.TBL_CFG_STAMP_TICK [] = 0) : Runs .stampTick s s.dev :=
  Runs.of_run hl rfl (if_pos h)

theorem runs_stampTick {s : State} (hl : Live s) (h : s.dev.rd F.TBL_CFG_STAMP_TICK [] ≠ 0) :
    Runs .stampTick s (s.dev.wr F.TBL_STAMP_NOW [] ((s.dev.rd F.TBL_STAMP_NOW [] + 1) % 65536)) :=
  Runs.of_run hl rfl (if_neg h)

/-- What a write of TBL_CFG stores; its reserved bits are 0. -/
theorem Dev.raw_tblCfg (d : Dev) (v : Nat) (r : Reg) (ix : List Nat) :
    (d.tblCfg v).raw r ix = (d.setRaw R.TBL_CFG [] (setBitsOf v 11 3 0 % 2 ^ 24)).raw r ix := by
  unfold Dev.tblCfg
  dsimp only
  split <;> rfl

theorem Dev.rd_tblCfg_other (d : Dev) (v : Nat) {f : Fld} (ix : List Nat) (h : f.reg.win ≠ R.TBL_CFG.win ∨ f.reg.id ≠ R.TBL_CFG.id)
    (hid : f.reg.id < 4096) : (d.tblCfg v).rd f ix = d.rd f ix := by
  rw [Dev.rd, Dev.raw_tblCfg, ← Dev.rd, Dev.rd_setRaw_other _ _ _ _ h hid (by decide)]

theorem Dev.on_tblCfg_dualwr (d : Dev) {v : Nat} (h : bitAt v 1 = true) : (d.tblCfg v).on F.TBL_CFG_DUALWR [] = true := by
  have hraw : (d.tblCfg v).raw R.TBL_CFG [] = setBitsOf v 11 3 0 % 2 ^ 24 := by
    rw [Dev.raw_tblCfg, Dev.raw_setRaw_self]
    omega
  have hbit : (d.tblCfg v).rd F.TBL_CFG_DUALWR [] = 1 := by
    rw [Dev.rd, show F.TBL_CFG_DUALWR.reg = R.TBL_CFG from rfl, hraw]
    refine Nat.eq_of_testBit_eq fun i => ?_
    rw [testBit_bitsOf, Nat.testBit_mod_two_pow, testBit_setBitsOf _ _ _ _ _ (by decide)]
    cases i with
    | zero => simpa [F.TBL_CFG_DUALWR, bitAt_eq_testBit] using h
    | succ i => simp [F.TBL_CFG_DUALWR, Nat.testBit_succ]
  rw [Dev.on, hbit]
  rfl

theorem Dev.tblCfg_rises (d : Dev) {v : Nat} (h : bitAt v 1 = true) (hoff : d.on F.TBL_CFG_DUALWR [] = false) :
    (d.tblCfg v).tbl.dlog = [] ∧ (d.tblCfg v).tbl.dlogLpm = [] := by
  simp [Dev.tblCfg, h, hoff]

section TblCfg

variable {s : State} {m : Master} {v : BitVec 32} (hl : Live s) (hm : isPfSvc m = true) (hb : s.dev.hostBlocked m = false)
  (hi : s.dev.on F.RST_STAT_INIT_DONE [] = true)

include hl hm hb hi

theorem runs_stampTickWrite : Runs (.stampTickWrite m v) s (s.dev.tblCfg v.toNat) :=
  Runs.of_run hl rfl ((if_pos hm).trans (Dev.access_initialised _ _ _ hb hi))

theorem runs_dualwrEnable (h : bitAt v.toNat 1 = true) (hoff : s.dev.on F.TBL_CFG_DUALWR [] = false) :
    Runs (.dualwrEnable m v) s (s.dev.tblCfg v.toNat) :=
  Runs.of_run hl rfl ((if_pos (by simp [h, hoff])).trans ((if_pos hm).trans (Dev.access_initialised _ _ _ hb hi)))

end TblCfg

/-- Settles O25: each row by the branch that its conditions choose; the stamp and DUALWR are read off the register written. -/
theorem learningAndPaths : Obligations.LearningAndPaths := by
  unfold Obligations.LearningAndPaths
  intro s hl
  refine ⟨fun o t hq hpause hheld hpath hsafe => ⟨runs_learnTake_dropped hl hq hpause hheld hpath hsafe,
      runs_learnTake_taken hl hq hpause hheld hpath hsafe⟩,
    fun n o act b t => runs_learnResume_offer hl n, fun n b t p => runs_learnResume_path hl n,
    fun n i k c t => runs_learnResume_flush hl n, fun b p m t => runs_relocationMove hl, fun htick => ?tick,
    runs_stampTick_off hl, fun m v hm hb hi => ⟨runs_stampTickWrite hl hm hb hi, ?now, fun h hoff => ?dualwr⟩⟩
  case tick =>
    obtain ⟨t, ht, htbl, hfields⟩ := (runs_stampTick hl htick).showsTables hl
    refine ⟨t, ht, ?_, htbl⟩
    rw [hfields]
    exact Dev.rd_wr_fits _ _ _ _ (by decide) (by decide) (Nat.mod_lt _ (by decide))
  case now => exact s.dev.rd_tblCfg_other _ _ (by decide) (by decide)
  case dualwr =>
    obtain ⟨t, ht, htbl, hfields⟩ := (runs_dualwrEnable hl hm hb hi h hoff).showsTables hl
    obtain ⟨hem, hlpm⟩ := s.dev.tblCfg_rises h hoff
    refine ⟨t, ht, ?_, by rw [htbl, hem], by rw [htbl, hlpm]⟩
    rw [Dev.on, hfields, ← Dev.on, s.dev.on_tblCfg_dualwr h]

/-! ## Table jobs (R138 to R145) -/

/-- What is kept of a memory reads as before, and the rest as the default. -/
theorem Sparse.get_keep {α : Type} (dflt : α) (m : Sparse α) (p : Nat → Bool) (k : Nat) :
    Sparse.get dflt (Sparse.keep m p) k = if p k then Sparse.get dflt m k else dflt := by
  rw [Sparse.get_eq_find?, Sparse.keep, Sparse.find?_filter, Sparse.get_eq_find?]
  split <;> rfl

theorem emAt_div {i : Nat} (b : Nat) (h : i < emSlots) : emAt b i / emSlots = b := by
  simp only [emAt, emSlots] at *
  omega

theorem emAt_mod {i : Nat} (b : Nat) (h : i < emSlots) : emAt b i % emSlots = i := by
  simp only [emAt, emSlots] at *
  omega

/-- Slot numbers below the size of a bank name different slots. -/
theorem emAt_inj {a b i j : Nat} (hi : i < emSlots) (hj : j < emSlots) : emAt a i = emAt b j ↔ a = b ∧ i = j := by
  simp only [emAt, emSlots] at *
  omega

theorem Dev.em_of_tbl {d e : Dev} (h : e.tbl.em = d.tbl.em) (b i : Nat) : e.em b i = d.em b i := by
  rw [Dev.em, h, Dev.em]

theorem Dev.lpm_of_tbl {d e : Dev} (h : e.tbl.lpm = d.tbl.lpm) (b i : Nat) : e.lpm b i = d.lpm b i := by
  rw [Dev.lpm, h, Dev.lpm]

/-! ### What a load's start changes (R140, R141) -/

@[simp] theorem Dev.imageLines_tbl (d : Dev) (j : Job) (code at_ bytes : Nat) : (d.imageLines j code at_ bytes).tbl = d.tbl :=
  foldl_proj Dev.tbl _ (fun e _ => e.pmc_tbl _ _ _) _ _

@[simp] theorem Dev.dmaRead_tbl (d : Dev) (j : Option Nat) (n : Nat) : (d.dmaRead j n).tbl = d.tbl := by
  unfold Dev.dmaRead
  rw [Dev.charge_tbl, Dev.pmc_tbl]

@[simp] theorem Dev.loadRead_tbl (d : Dev) (j : TblJob) (at_ bytes : Nat) : (d.loadRead j at_ bytes).tbl = d.tbl := by
  unfold Dev.loadRead
  split
  · exact d.dmaRead_tbl _ _
  · dsimp only
    split
    · rw [Dev.imageLines_tbl, Dev.charge_tbl]
    · exact d.charge_tbl _ _ _

@[simp] theorem Dev.loadSeeds_tbl (d : Dev) (t b : Nat) (hdr : ImageHeader) : (d.loadSeeds t b hdr).tbl = d.tbl := by
  unfold Dev.loadSeeds
  split
  · split
    · rw [Dev.wr_tbl, Dev.wr_tbl]
    · rfl
  · rfl

/-- The job that a load without an earlier end starts (R140). -/
def Dev.loadJob (d : Dev) (j : Job) : TblJob :=
  let t := j.p 0 % 8
  let image := bitAt (j.p 0) 4
  let total := if image then tblSlots t else j.p 3
  { job := j.id, load := true, table := t, bank := 1 - d.activeOf t, image := image, sump := j.inSump, clearing := bitAt (j.p 0) 5
    total := total, ended := if total = 0 && !bitAt (j.p 0) 5 then some stDone else none }

/-- The device with the failure counts at 0, an image's seeds taken and its header read. -/
def Dev.loadBegun (d : Dev) (j : Job) (hdr : ImageHeader) : Dev :=
  let t := j.p 0 % 8
  let e := (d.wr F.TBL_BULK_FAIL_COUNT [] 0).wr F.TBL_BULK_FAIL_IDX_COUNT [] 0
  if bitAt (j.p 0) 4 then (e.loadSeeds t (1 - d.activeOf t) hdr).loadRead (d.loadJob j) 0 64 else e

/-- CLEAR = 1: the bank cleared and charged to the job. -/
def Dev.loadCleared (d : Dev) (j : Job) (b : Nat) : Dev :=
  let t := j.p 0 % 8
  if bitAt (j.p 0) 5 then (d.clearBank t b).charge (some j.id) 1 (d.clearedSlots t b) else d

theorem Dev.loadBegun_tbl (d : Dev) (j : Job) (hdr : ImageHeader) : (d.loadBegun j hdr).tbl = d.tbl := by
  rw [Dev.loadBegun]
  split
  · rw [Dev.loadRead_tbl, Dev.loadSeeds_tbl, Dev.wr_tbl, Dev.wr_tbl]
  · rw [Dev.wr_tbl, Dev.wr_tbl]

theorem runs_tableBulkLoad {s : State} {n : Fin 256} {hdr : ImageHeader} {j : Job} (hl : Live s)
    (hj : s.dev.tableJob n.val 0x20 = some j) (hcheck : s.dev.loadCheck j hdr = none)
    (hdma : s.dev.readsHeader j = true → s.dev.jobDma j.id = true) :
    Runs (.tableBulkLoad n hdr) s
      (((s.dev.loadBegun j hdr).loadCleared j (1 - s.dev.activeOf (j.p 0 % 8))).addTableJob (s.dev.loadJob j)) := by
  refine Runs.of_run hl rfl ?_
  simp only [hj]
  rw [if_neg (by simpa using hdma)]
  simp only [hcheck]
  rw [Dev.loadBegun, Dev.loadCleared, Dev.loadJob]
  cases bitAt (j.p 0) 4 <;> cases bitAt (j.p 0) 5 <;> simp only [if_true, Bool.false_eq_true, if_false]

theorem runs_tableBulkLoad_refused {s : State} {n : Fin 256} {hdr : ImageHeader} {j : Job} {st : Nat} (hl : Live s)
    (hj : s.dev.tableJob n.val 0x20 = some j) (hcheck : s.dev.loadCheck j hdr = some (st, false))
    (hdma : s.dev.readsHeader j = true → s.dev.jobDma j.id = true) :
    Runs (.tableBulkLoad n hdr) s (s.dev.refuseTableJob j st) := by
  refine Runs.of_run hl rfl ?_
  simp only [hj]
  rw [if_neg (by simpa using hdma)]
  simp only [hcheck, Bool.false_eq_true, if_false]

/-- A load of a table without one of EM's or LPM's IDs is refused (R140). -/
theorem Dev.table_of_loadCheck {d : Dev} {j : Job} {hdr : ImageHeader} (h : d.loadCheck j hdr = none) :
    j.p 0 % 8 = 0 ∨ j.p 0 % 8 = 1 := by
  by_contra hne
  unfold Dev.loadCheck at h
  rw [if_pos (by omega)] at h
  cases h

theorem Dev.em_clearBank (d : Dev) (t b a i : Nat) (hi : i < emSlots) :
    (d.clearBank t b).em a i = if a == b && t == 0 && !d.tbl.repEm.contains (emAt a i) then 0 else d.em a i := by
  rw [Dev.clearBank]
  by_cases ht : t = 0
  · rw [if_pos ht, Dev.em, Sparse.get_keep, emAt_div a hi, ← Dev.em]
    by_cases hab : a = b <;> cases d.tbl.repEm.contains (emAt a i) <;> simp_all
  · rw [if_neg ht]
    simp [ht, Dev.em]

theorem Dev.lpm_clearBank (d : Dev) {t : Nat} (b a i : Nat) (ht : t = 0 ∨ t = 1) (hi : i < emSlots) :
    (d.clearBank t b).lpm a i = if a == b && t == 1 && !d.tbl.repLpm.contains (emAt a i) then 0 else d.lpm a i := by
  rw [Dev.clearBank]
  rcases ht with rfl | rfl
  · simp [Dev.lpm]
  · rw [if_neg (by decide), Dev.lpm, Sparse.get_keep, emAt_div a hi, ← Dev.lpm]
    by_cases hab : a = b <;> cases d.tbl.repLpm.contains (emAt a i) <;> simp_all

/-- The tables of a load that has started: its bank as CLEAR leaves it, the other as it was. -/
theorem Dev.em_loadStarted (d : Dev) (j : Job) (hdr : ImageHeader) (b a i : Nat) (hi : i < emSlots) :
    (((d.loadBegun j hdr).loadCleared j b).addTableJob (d.loadJob j)).em a i =
      if bitAt (j.p 0) 5 && a == b && j.p 0 % 8 == 0 && !d.tbl.repEm.contains (emAt a i) then 0 else d.em a i := by
  have hbegun := d.loadBegun_tbl j hdr
  have hcleared : (((d.loadBegun j hdr).loadCleared j b).addTableJob (d.loadJob j)).em a i = ((d.loadBegun j hdr).loadCleared j b).em a i :=
    rfl
  rw [hcleared, Dev.loadCleared]
  cases bitAt (j.p 0) 5
  · simpa using Dev.em_of_tbl (congrArg Tbl.em hbegun) a i
  · rw [if_pos rfl, Dev.em_of_tbl (congrArg Tbl.em (Dev.charge_tbl _ _ _ _)), Dev.em_clearBank _ _ _ _ _ hi, hbegun,
      Dev.em_of_tbl (congrArg Tbl.em hbegun), Bool.true_and]

theorem Dev.lpm_loadStarted (d : Dev) {j : Job} (hdr : ImageHeader) (b a i : Nat) (ht : j.p 0 % 8 = 0 ∨ j.p 0 % 8 = 1)
    (hi : i < emSlots) :
    (((d.loadBegun j hdr).loadCleared j b).addTableJob (d.loadJob j)).lpm a i =
      if bitAt (j.p 0) 5 && a == b && j.p 0 % 8 == 1 && !d.tbl.repLpm.contains (emAt a i) then 0 else d.lpm a i := by
  have hbegun := d.loadBegun_tbl j hdr
  have hcleared : (((d.loadBegun j hdr).loadCleared j b).addTableJob (d.loadJob j)).lpm a i = ((d.loadBegun j hdr).loadCleared j b).lpm a i :=
    rfl
  rw [hcleared, Dev.loadCleared]
  cases bitAt (j.p 0) 5
  · simpa using Dev.lpm_of_tbl (congrArg Tbl.lpm hbegun) a i
  · rw [if_pos rfl, Dev.lpm_of_tbl (congrArg Tbl.lpm (Dev.charge_tbl _ _ _ _)), Dev.lpm_clearBank _ _ _ _ ht hi, hbegun,
      Dev.lpm_of_tbl (congrArg Tbl.lpm hbegun), Bool.true_and]

theorem Dev.addTableJob_mem (d : Dev) (x : TblJob) : x ∈ (d.addTableJob x).tbl.jobs :=
  List.mem_append_right _ (List.mem_singleton_self x)

/-! ### Records, dumps and ends -/

/-- How load `k` ends with its next record: with the last one, TABLE_FULL where records failed (R140). -/
def recordEnd (k : TblJob) : Option Nat :=
  if k.next + 1 = k.total then some (if k.r1 = 0 then stDone else stTableFull) else none

/-- A record or slot of load `j` put into its bank. -/
def Dev.placeRecord (d : Dev) (j : TblJob) (v : Nat) : Dev × TblJob :=
  if j.image then d.loadSlot j v else if j.table = 0 then d.loadEm j v else d.loadLpm j v

theorem Dev.placeRecord_eq (d : Dev) (j : TblJob) (v : Nat) :
    d.placeRecord j v = if j.image then d.loadSlot j v else if j.table = 0 then d.loadEm j v else d.loadLpm j v := rfl

/-- The banks that a swap names changed over (R138). -/
def Dev.swapped (d : Dev) (em lpm : Bool) : Dev :=
  let d := if em then d.clearHits.wr F.TBL_STAT_ACTIVE_EM [] (1 - d.activeEm) else d
  if lpm then d.wr F.TBL_STAT_ACTIVE_LPM [] (1 - d.activeLpm) else d

theorem Dev.active_swapped (d : Dev) (em lpm : Bool) :
    (d.swapped em lpm).activeEm = (if em then 1 - d.activeEm else d.activeEm) ∧
      (d.swapped em lpm).activeLpm = (if lpm then 1 - d.activeLpm else d.activeLpm) := by
  have hem : ∀ e : Dev, (e.wr F.TBL_STAT_ACTIVE_EM [] (1 - d.activeEm)).activeEm = 1 - d.activeEm := fun e =>
    e.rd_wr_fits _ _ _ (by decide) (by decide) (Nat.lt_of_le_of_lt (Nat.sub_le _ _) (by decide))
  have hlpm : ∀ e : Dev, (e.wr F.TBL_STAT_ACTIVE_LPM [] (1 - d.activeLpm)).activeLpm = 1 - d.activeLpm := fun e =>
    e.rd_wr_fits _ _ _ (by decide) (by decide) (Nat.lt_of_le_of_lt (Nat.sub_le _ _) (by decide))
  have hkeepEm : ∀ (e : Dev) (v : Nat), (e.wr F.TBL_STAT_ACTIVE_LPM [] v).activeEm = e.activeEm := fun e v =>
    e.rd_wr_apart _ _ _ (by decide)
  have hkeepLpm : ∀ (v : Nat), (d.clearHits.wr F.TBL_STAT_ACTIVE_EM [] v).activeLpm = d.activeLpm := fun v =>
    Dev.rd_wr_apart _ _ _ _ (by decide)
  cases em <;> cases lpm <;> simp [Dev.swapped, hem, hlpm, hkeepEm, hkeepLpm]

theorem Dev.lpm_swapped (d : Dev) (em lpm : Bool) : (d.swapped em lpm).tbl.lpm = d.tbl.lpm := by
  cases em <;> cases lpm <;> rfl

theorem Dev.ctr_swapped (d : Dev) (em lpm : Bool) : (d.swapped em lpm).tbl.ctr = d.tbl.ctr := by
  cases em <;> cases lpm <;> rfl

section TableJobs

variable {s : State} (hl : Live s)

include hl

theorem runs_bulkClearDone {b : Fin 2} {j : TblJob} (hj : s.dev.loadOf b.val = some j) (hc : j.clearing = true) :
    Runs (.bulkClearDone b) s
      (s.dev.setTableJob { j with clearing := false, ended := if j.total = 0 then some stDone else none }) :=
  Runs.of_run hl rfl (by simp only [hj, hc, if_true])

theorem runs_bulkRecord {b : Fin 2} {j : TblJob} {bytes : List Byte} (hj : s.dev.loadOf b.val = some j) (hc : j.clearing = false)
    (hmore : j.next < j.total) (hfree : s.dev.insertBusy b.val j.bank = false) (hdma : j.sump = false → s.dev.jobDma j.job = true)
    (hreads : s.dev.jobReads j = true) {e : Dev} {k : TblJob}
    (hplaced : (s.dev.loadRead j j.source 32).placeRecord j (leVal (padKey 32 bytes)) = (e, k)) :
    Runs (.bulkRecord b (.data bytes)) s (e.setTableJob { k with next := k.next + 1, ended := recordEnd k }) := by
  refine Runs.of_run hl rfl ?_
  simp only [hj]
  have hgo : ¬ (j.clearing || decide (j.total ≤ j.next) || s.dev.insertBusy b.val j.bank || (!j.sump && !s.dev.jobDma j.job)) = true := by
    simpa [hc, hfree, hmore] using hdma
  rw [if_neg hgo]
  simp only [hreads, Bool.not_true, Bool.false_eq_true, if_false, ← Dev.placeRecord_eq, hplaced]
  rfl

/-- A dump whose table, place, length and reach pass its checks starts; an image begins with its header. -/
theorem runs_tableBulkDump {n : Fin 256} {j : Job} (hj : s.dev.tableJob n.val 0x21 = some j) (htable : j.p 0 % 8 ≤ 3)
    (hpaged : j.p 0 % 8 ≤ 1 ∨ bitAt (j.p 0) 4 = true) (hplace : j.inSump = true → s.dev.imageOk j.sumpOff j.sub.len = true)
    (hfits : bitAt (j.p 0) 4 = true → imageLen (j.p 0 % 8) ≤ j.sub.len) (hreach : bitAt (j.p 0) 4 = true → s.dev.jobReach j 0 64 = true)
    (hdma : j.inSump = false → s.dev.jobDma j.id = true) :
    let t := j.p 0 % 8
    let b := if t < 2 then bitsOf (j.p 0) 8 8 else 0
    let image := bitAt (j.p 0) 4
    Runs (.tableBulkDump n) s ((if image then s.dev.tableOut j 0 (s.dev.imageHead t b) else s.dev).addTableJob
      { job := j.id, dump := true, table := t, bank := b, image := image, sump := j.inSump, total := tblSlots t
        r0 := if image then 64 else 0 }) := by
  have hkind : ¬ (decide (3 < j.p 0 % 8) || (decide (1 < j.p 0 % 8) && !bitAt (j.p 0) 4)) = true := by
    rcases hpaged with h | h <;> simp [htable, h]
  refine Runs.of_run hl rfl ?_
  simp only [hj]
  rw [if_neg hkind, if_neg (by simpa using hplace), if_neg (by simpa using hfits), if_neg (by simpa using hreach),
    if_neg (by simpa using hdma)]

theorem runs_tableJobDone_dump {x : TblJob} (hnone : s.dev.tbl.jobs.find? s.dev.tableEnded = none) (hx : s.dev.dumpOf = some x) :
    Runs .tableJobDone s (s.dev.dumpTo x x.total).tableFinish :=
  Runs.of_run hl rfl (by simp only [hnone, hx])

theorem runs_tableJobDone {j : TblJob} (hj : s.dev.tbl.jobs.find? s.dev.tableEnded = some j) :
    Runs .tableJobDone s (Dev.finishJob
      { s.dev with tbl := { s.dev.tbl with jobs := s.dev.tbl.jobs.filter (fun x => x.job != j.job) } } j.job (j.ended.getD 0)
      j.r0 j.r1 0) :=
  Runs.of_run hl rfl (by simp only [hj, Dev.tableFinish])

/-- A swap waits while a relocation path is in progress (R138). -/
theorem runs_tableBankSwap_waits {n : Fin 256} {j : Job} (hj : s.dev.tableJob n.val 0x22 = some j)
    (hnames : (bitAt (j.p 0) 0 || bitAt (j.p 0) 1) = true) (hpaths : s.dev.tbl.paths ≠ []) : Runs (.tableBankSwap n) s s.dev := by
  refine Runs.of_run hl rfl ?_
  simp only [hj]
  rw [if_neg (by simpa [or_iff_not_imp_left] using hnames), if_pos (by simpa using hpaths)]

theorem runs_tableBankSwap {n : Fin 256} {j : Job} (hj : s.dev.tableJob n.val 0x22 = some j)
    (hnames : (bitAt (j.p 0) 0 || bitAt (j.p 0) 1) = true) (hpaths : s.dev.tbl.paths = []) :
    let d := s.dev.swapped (bitAt (j.p 0) 0) (bitAt (j.p 0) 1)
    Runs (.tableBankSwap n) s (d.addTableJob
      { job := j.id, table := 8, r0 := d.activeLpm * 2 + d.activeEm, ended := some stDone }) := by
  refine Runs.of_run hl rfl ?_
  simp only [hj]
  rw [if_neg (by simpa [or_iff_not_imp_left] using hnames), if_neg (by simp [hpaths])]
  rfl

end TableJobs

/-- Settles O26: each row by its checks; the tables of a load and of a swap are read off what its start writes. -/
theorem tableJobs : Obligations.TableJobs := by
  unfold Obligations.TableJobs
  intro s hl
  refine ⟨fun n hdr j hj hcheck hdma => ?load, fun n hdr j st => runs_tableBulkLoad_refused hl, fun b j => runs_bulkClearDone hl,
    fun b j bytes hj hc hmore hfree hdma hreads =>
      ⟨_, _, (Prod.mk.eta).symm, runs_bulkRecord hl hj hc hmore hfree hdma hreads (Prod.mk.eta).symm⟩,
    fun n j hj htable himage hplace hfits hreach hdma => ?image, fun n j hj htable hkeyed hplace hdma => ?records,
    fun x => runs_tableJobDone_dump hl, fun n j hj hnames hpaths => ?swap, fun n j => runs_tableBankSwap_waits hl,
    fun j => runs_tableJobDone hl⟩
  case load =>
    obtain ⟨t, ht, htbl, -⟩ := (runs_tableBulkLoad hl hj hcheck hdma).showsTables hl
    refine ⟨t, ht, ?_, fun b i hi => ⟨?_, ?_⟩⟩
    · rw [htbl, List.any_eq_true]
      exact ⟨_, Dev.addTableJob_mem _ _, by simp [Dev.loadJob]⟩
    · rw [Dev.em_of_tbl (congrArg Tbl.em htbl), Dev.em_loadStarted _ _ _ _ _ _ hi]
    · rw [Dev.lpm_of_tbl (congrArg Tbl.lpm htbl), Dev.lpm_loadStarted _ _ _ _ _ (Dev.table_of_loadCheck hcheck) hi]
  case image =>
    simpa only [himage, if_true] using
      runs_tableBulkDump hl hj htable (.inr himage) hplace (fun _ => hfits) (fun _ => hreach) hdma
  case records =>
    have hruns := runs_tableBulkDump hl hj (by omega) (.inl htable) hplace (by simp [hkeyed]) (by simp [hkeyed]) hdma
    simpa only [hkeyed, Bool.false_eq_true, if_false, if_pos (show j.p 0 % 8 < 2 by omega)] using hruns
  case swap =>
    obtain ⟨t, ht, htbl, hfields⟩ := (runs_tableBankSwap hl hj hnames hpaths).showsTables hl
    obtain ⟨hem, hlpm⟩ := s.dev.active_swapped (bitAt (j.p 0) 0) (bitAt (j.p 0) 1)
    exact ⟨t, ht, (hfields _ _).trans hem, (hfields _ _).trans hlpm, by rw [htbl]; exact Dev.lpm_swapped _ _ _,
      by rw [htbl]; exact Dev.ctr_swapped _ _ _⟩

/-! ## The bits of entries (R110, R117, R127) -/

theorem bitsOf_putBit_other (v hi lo i : Nat) (b : Bool) (h : hi < i ∨ i < lo) : bitsOf (putBit v i b) hi lo = bitsOf v hi lo :=
  bitsOf_setBitsOf_other v i i hi lo _ le_rfl h

/-- A bit put as it stands changes nothing. -/
theorem putBit_bitAt (v i : Nat) : putBit v i (bitAt v i) = v := by
  refine Nat.eq_of_testBit_eq fun j => ?_
  rw [← bitAt_eq_testBit, bitAt_putBit, ← bitAt_eq_testBit]
  split
  · next h => rw [h]
  · rfl

theorem putBit_putBit (v i : Nat) (b : Bool) : putBit (putBit v i b) i b = putBit v i b := by
  have h := putBit_bitAt (putBit v i b) i
  rwa [bitAt_putBit, if_pos rfl] at h

@[simp] theorem emValid_emClear (e : Nat) : emValid (emClear e) = false := by
  rw [emValid, emClear, bitAt_putBit, if_pos rfl]

/-- Clearing an entry that is not valid changes nothing. -/
theorem emClear_of_invalid {e : Nat} (h : emValid e = false) : emClear e = e := by
  rw [emClear, ← h, emValid, putBit_bitAt]

section InsertEntry

variable (d : Dev) (e : Nat)

theorem Dev.emValid_insertEntry : emValid (d.insertEntry e) = true := by
  rw [emValid, Dev.insertEntry, bitAt_putBit, if_pos rfl]

theorem Dev.emHit_insertEntry : emHit (d.insertEntry e) = false := by
  rw [emHit, Dev.insertEntry, bitAt_putBit, if_neg (by decide), bitAt_putBit, if_pos rfl]

theorem Dev.emStamp_insertEntry : emStamp (d.insertEntry e) = d.rd F.TBL_STAMP_NOW [] := by
  rw [emStamp, Dev.insertEntry, bitsOf_putBit_other _ _ _ _ _ (by decide), bitsOf_putBit_other _ _ _ _ _ (by decide),
    bitsOf_setBitsOf_self _ _ _ _ (by decide)]
  exact Nat.mod_eq_of_lt (d.rd_lt F.TBL_STAMP_NOW [])

end InsertEntry

/-! ## Slots, handles and results written -/

section TblEnd

variable (d : Dev) (r : TblRes)

@[simp] theorem Dev.tblEnd_em : (d.tblEnd r).tbl.em = d.tbl.em := rfl
@[simp] theorem Dev.tblEnd_lpm : (d.tblEnd r).tbl.lpm = d.tbl.lpm := rfl
@[simp] theorem Dev.tblEnd_tcam : (d.tblEnd r).tbl.tcam = d.tbl.tcam := rfl
@[simp] theorem Dev.tblEnd_mcg : (d.tblEnd r).tbl.mcg = d.tbl.mcg := rfl
@[simp] theorem Dev.tblEnd_ctr : (d.tblEnd r).tbl.ctr = d.tbl.ctr := rfl

end TblEnd

/-- Between `d` and `t` one EM slot has been written. -/
structure EmWritten (d t : Dev) (b i e : Nat) : Prop where
  here : t.em b i = e
  other : ∀ a j, emAt a j ≠ emAt b i → t.em a j = d.em a j

theorem Dev.emWritten_setEm (d : Dev) (b i e : Nat) : EmWritten d (d.setEm b i e) b i e where
  here := Sparse.get_set_self _ _ _ _
  other _ _ h := Sparse.get_set_other _ _ _ _ _ _ h

/-- What follows the write of a slot and leaves the slots alone. -/
theorem EmWritten.of_tbl {d t u : Dev} {b i e : Nat} (h : EmWritten d t b i e) (hu : u.tbl.em = t.tbl.em) : EmWritten d u b i e where
  here := (Dev.em_of_tbl hu b i).trans h.here
  other a j hj := (Dev.em_of_tbl hu a j).trans (h.other a j hj)

/-- What goes before it and leaves them alone. -/
theorem EmWritten.after {d t u : Dev} {b i e : Nat} (h : EmWritten d t b i e) (hu : d.tbl.em = u.tbl.em) : EmWritten u t b i e where
  here := h.here
  other a j hj := (h.other a j hj).trans (Dev.em_of_tbl hu a j)

theorem Dev.emWritten_emPlaced (d : Dev) (b i e : Nat) : EmWritten d (d.emPlaced b i e) b i e :=
  (d.emWritten_setEm b i e).of_tbl (congrArg Tbl.em (Dev.pmc_tbl _ _ _ _))

theorem Dev.lpm_setLpm (d : Dev) (b h e : Nat) : (d.setLpm b h e).lpm b h = e := Sparse.get_set_self _ _ _ _

theorem Dev.lpm_setLpm_other (d : Dev) {a b g h : Nat} (e : Nat) (hne : emAt a g ≠ emAt b h) : (d.setLpm b h e).lpm a g = d.lpm a g :=
  Sparse.get_set_other _ _ _ _ _ _ hne

@[simp] theorem Dev.resting_setEm (d : Dev) (b i e : Nat) : (d.setEm b i e).resting = d.resting := rfl

@[simp] theorem Dev.resting_setLpm (d : Dev) (b h e : Nat) : (d.setLpm b h e).resting = d.resting := rfl

@[simp] theorem Dev.resting_emPlaced (d : Dev) (b i e : Nat) : (d.emPlaced b i e).resting = d.resting := Dev.resting_pmc _ _ _ _

/-! ## No repeats while DUALWR = 0 (R142) -/

theorem Dev.dualwr_of_resting {d e : Dev} (h : e.resting = d.resting) (hoff : d.on F.TBL_CFG_DUALWR [] = false) :
    e.on F.TBL_CFG_DUALWR [] = false := (Dev.on_of_resting h (by decide) []).trans hoff

section DualwrOff

variable {d : Dev} (hoff : d.on F.TBL_CFG_DUALWR [] = false) (b e : Nat)

include hoff

theorem Dev.dualInsert_off (learn : Bool) : d.dualInsert b e learn = (d, false) := if_neg (by simp [hoff])

theorem Dev.dualDelete_off (keepStatic : Bool) : d.dualDelete b e keepStatic = d := if_neg (by simp [hoff])

theorem Dev.dualLpmInsert_off : d.dualLpmInsert b e = (d, false) := if_neg (by simp [hoff])

theorem Dev.dualLpmDelete_off : d.dualLpmDelete b e = d := if_neg (by simp [hoff])

end DualwrOff

/-! ## A command's checks and its operation (R123, R126) -/

section TblRun

variable {d : Dev} {c : TblCmd}

theorem Dev.tblRun_refused {st : Nat} (h : d.tblCheck c = some st) : d.tblRun c = d.tblEnd (c.fail st) := by
  simp only [Dev.tblRun, h]

variable (h : d.tblCheck c = none)

include h

theorem Dev.tblRun_read (hop : c.op = 0) : d.tblRun c = d.tblRead c := by
  simp only [Dev.tblRun, h, hop]

theorem Dev.tblRun_write (hop : c.op = 1) : d.tblRun c = d.tblWrite c := by
  simp only [Dev.tblRun, h, hop]

theorem Dev.tblRun_next (hop : c.op = 5) : d.tblRun c = (d.startScan c c.idx 0).scanTo (c.idx + 1) 0 := by
  simp only [Dev.tblRun, h, hop]

theorem Dev.tblRun_flush (hop : c.op = 6) : d.tblRun c = d.startScan c 0 0 := by
  simp only [Dev.tblRun, h, hop]

/-- A command addressed by key goes to LPM, or to EM once no path is in progress in its bank. -/
theorem Dev.tblRun_byKey (hop : c.op ∈ [2, 3, 4, 7]) : d.tblRun c =
    if c.table = 1 then d.keyLpm c
    else if (d.path c.bank).isSome then { d with tbl := { d.tbl with wait := some c } } else d.keyEm c := by
  simp only [List.mem_cons, List.not_mem_nil, or_false] at hop
  rcases hop with hop | hop | hop | hop <;> simp only [Dev.tblRun, h, hop]

end TblRun

theorem Dev.tblCheck_disabled {d : Dev} {c : TblCmd} (h : c.cmdset = 1 ∧ d.on F.TBL_CFG_CMDSET [] = false) :
    d.tblCheck c = some stNotPermitted := if_pos (by simp [h])

theorem Dev.tblCheck_badTable {d : Dev} {c : TblCmd} (h : ¬ (c.cmdset = 1 ∧ d.on F.TBL_CFG_CMDSET [] = false)) (ht : 4 < c.table) :
    d.tblCheck c = some stBadAddress := (if_neg (by simpa using h)).trans (if_pos ht)

/-! ## READ and WRITE (R116, R119 to R121, R126) -/

section ByIndex

variable (d : Dev) {c : TblCmd}

theorem Dev.tblRead_em (ht : c.table = 0) (hpath : d.onPath c.bank c.idx = false) : d.tblRead c =
    (if d.clrOn c then d.setEm c.bank c.idx (emSetHit (d.em c.bank c.idx) false) else d).tblEnd
      { mid := c.mid, idx := some c.idx, data := some (dwordsOf 8 (d.em c.bank c.idx)), found := emValid (d.em c.bank c.idx)
        hitWas := emHit (d.em c.bank c.idx) } := by
  simp only [Dev.tblRead, ht, hpath, Bool.false_eq_true, if_false]

theorem Dev.tblRead_lpm (ht : c.table = 1) : d.tblRead c = d.tblEnd
    { mid := c.mid, idx := some c.idx, data := some (dwordsOf 8 (d.lpm c.bank c.idx)), found := lpmValid (d.lpm c.bank c.idx) } := by
  simp only [Dev.tblRead, ht]

theorem Dev.tblRead_tcam (ht : c.table = 2) : d.tblRead c = d.tblEnd
    { mid := c.mid, idx := some c.idx, data := some (dwordsOf 23 (Sparse.get 0 d.tbl.tcam c.idx))
      found := tcamValid (Sparse.get 0 d.tbl.tcam c.idx) } := by
  simp only [Dev.tblRead, ht]

theorem Dev.tblRead_mcg (ht : c.table = 3) : d.tblRead c = d.tblEnd
    { mid := c.mid, idx := some c.idx, data := some (dwordsOf 32 (Sparse.get 0 d.tbl.mcg c.idx)), found := true } := by
  simp only [Dev.tblRead, ht]

theorem Dev.tblRead_ctr (ht : c.table = 4) : d.tblRead c =
    (if d.clrOn c then { d with tbl := { d.tbl with ctr := Sparse.set (0, 0) d.tbl.ctr c.idx (0, 0) } } else d : Dev).tblEnd
      { mid := c.mid, idx := some c.idx
        data := some (dwordsOf 2 (Sparse.get (0, 0) d.tbl.ctr c.idx).1 ++ dwordsOf 2 (Sparse.get (0, 0) d.tbl.ctr c.idx).2)
        found := true } := by
  simp only [Dev.tblRead, ht]

theorem Dev.tblWrite_em (ht : c.table = 0) (hpath : d.onPath c.bank c.idx = false) :
    EmWritten d (d.tblWrite c) c.bank c.idx (c.num 0 8) := by
  have heq : d.tblWrite c = (d.setEm c.bank c.idx (c.num 0 8)).tblEnd
      { mid := c.mid, idx := some c.idx, found := emValid (d.em c.bank c.idx) } := by
    unfold Dev.tblWrite
    rw [ht]
    exact if_neg (ne_true_of_eq_false hpath)
  rw [heq]
  exact (d.emWritten_setEm c.bank c.idx (c.num 0 8)).of_tbl (Dev.tblEnd_em _ _)

theorem Dev.tcam_tblWrite (ht : c.table = 2) :
    (d.tblWrite c).tbl.tcam = Sparse.set 0 d.tbl.tcam c.idx (setBitsOf (c.num 0 23) 734 715 0) := by
  unfold Dev.tblWrite
  simp only [ht, Dev.tblEnd_tcam, Dev.activity_tbl]

theorem Dev.mcg_tblWrite (ht : c.table = 3) : (d.tblWrite c).tbl.mcg = Sparse.set 0 d.tbl.mcg c.idx (c.num 0 32) := by
  unfold Dev.tblWrite
  simp only [ht, Dev.tblEnd_mcg, Dev.activity_tbl]

theorem Dev.ctr_tblWrite (ht : c.table = 4) :
    (d.tblWrite c).tbl.ctr = Sparse.set (0, 0) d.tbl.ctr c.idx (c.num 0 2, c.num 2 2) := by
  unfold Dev.tblWrite
  simp only [ht, Dev.tblEnd_ctr, Dev.activity_tbl]

end ByIndex

/-! ## EM commands addressed by key (R114, R127, R130, R133) -/

/-- The device with an insertion's entry in slot `i` of the victim's place, counted as an eviction. -/
def Dev.evicted (d : Dev) (b i e : Nat) : Dev := ((d.emPlaced b i e).inc F.TBL_EVICT_COUNT []).pmc 105 0x46 1

theorem Dev.emWritten_evicted (d : Dev) (b i e : Nat) : EmWritten d (d.evicted b i e) b i e :=
  (d.emWritten_emPlaced b i e).of_tbl (congrArg Tbl.em ((Dev.pmc_tbl _ _ _ _).trans (Dev.inc_tbl _ _ _)))

theorem Dev.dualwr_evicted {d : Dev} (b i e : Nat) (hoff : d.on F.TBL_CFG_DUALWR [] = false) :
    (d.evicted b i e).on F.TBL_CFG_DUALWR [] = false := by
  rw [Dev.evicted, Dev.dualwr_of_resting (Dev.resting_pmc _ _ _ _)]
  rw [Dev.on, Dev.rd_inc_apart _ _ _ (by decide), ← Dev.on, Dev.dualwr_of_resting (Dev.resting_emPlaced _ _ _ _) hoff]

/-- TBL_EVICT rises by one, whatever else an eviction does. -/
theorem Dev.count_evicted {d e : Dev} (b i x : Nat) (h : e.resting = d.resting) :
    (e.evicted b i x).rd F.TBL_EVICT_COUNT [] = (d.inc F.TBL_EVICT_COUNT []).rd F.TBL_EVICT_COUNT [] := by
  rw [Dev.evicted, Dev.rd_pmc (by decide), Dev.rd_inc_wraps _ _ _ (by decide) (by decide) (by decide),
    Dev.rd_inc_wraps _ _ _ (by decide) (by decide) (by decide),
    Dev.rd_of_resting ((Dev.resting_emPlaced _ _ _ _).trans h) (by decide)]

theorem Dev.emEvict_off {d : Dev} (b i e : Nat) (hoff : d.on F.TBL_CFG_DUALWR [] = false) :
    d.emEvict b i e false = (d.evicted b i e, false) := by
  have h := Dev.dualwr_evicted b i e hoff
  unfold Dev.emEvict
  dsimp only
  rw [← Dev.evicted, Dev.dualDelete_off h, Dev.dualInsert_off h]

/-- The choice of a victim takes at most a free value. -/
theorem Dev.victim_free (d : Dev) (b e policy : Nat) (ok : Nat → Bool) : ∃ n, (d.victim b e policy ok).1 = { d with freeIdx := n } := by
  unfold Dev.victim
  dsimp only
  split
  · exact ⟨_, rfl⟩
  · split
    · exact ⟨_, rfl⟩
    · exact ⟨_, rfl⟩

section EmPlace

variable {d : Dev} {b e : Nat} {by_ : InsBy}

theorem Dev.emPlace_update {i : Nat} {l : List Nat} (h : d.emMatches b (emTag e) (emKey e) = i :: l) :
    d.emPlace b e by_ = .update i := by
  simp only [Dev.emPlace, h]

theorem Dev.emPlace_empty {i : Nat} (h : d.emMatches b (emTag e) (emKey e) = [])
    (hfree : (d.emCands b (emTag e) (emKey e)).find? (fun i => !emValid (d.em b i)) = some i) : d.emPlace b e by_ = .empty i := by
  simp only [Dev.emPlace, h, hfree]

end EmPlace

/-- What an INSERT of entry `e` does at the place found for it (R114, R127). -/
def Dev.insertAt (d : Dev) (c : TblCmd) (e : Nat) (p : Place) : Dev :=
  let b := c.bank
  match p with
  | .update i =>
    let (d, f) := (d.emPlaced b i e).dualInsert b e false
    d.tblEnd (c.placed i e 0 true f false)
  | .empty i =>
    let (d, f) := (d.emPlaced b i e).dualInsert b e false
    d.tblEnd (c.placed i e 0 false f false)
  | .path p => { d.setPath b (some p) with tbl := { (d.setPath b (some p)).tbl with wait := some c } }
  | .none_ =>
    if !c.evict then d.tblEnd { c.fail stTableFull with count := some 0 }
    else
      match d.victim b e (d.rd F.TBL_TAG_CFG_EVICT [emTag e]) (fun x => !emStatic x) with
      | (d, none) => d.tblEnd { c.fail stTableFull with count := some 0 }
      | (d, some i) =>
        let (d, f) := d.emEvict b i e false
        d.tblEnd (c.placed i e 0 false f true)

theorem Dev.insertEm_eq (d : Dev) (c : TblCmd) : d.insertEm c =
    d.insertAt c (d.insertEntry (c.num 0 8)) (d.emPlace c.bank (d.insertEntry (c.num 0 8)) .cmd) := rfl

section InsertAt

variable {d : Dev} {c : TblCmd} {e : Nat}

theorem Dev.insertAt_update (i : Nat) (hoff : d.on F.TBL_CFG_DUALWR [] = false) :
    d.insertAt c e (.update i) = (d.emPlaced c.bank i e).tblEnd (c.placed i e 0 true false false) := by
  simp only [Dev.insertAt, Dev.dualInsert_off (Dev.dualwr_of_resting (Dev.resting_emPlaced _ _ _ _) hoff)]

theorem Dev.insertAt_empty (i : Nat) (hoff : d.on F.TBL_CFG_DUALWR [] = false) :
    d.insertAt c e (.empty i) = (d.emPlaced c.bank i e).tblEnd (c.placed i e 0 false false false) := by
  simp only [Dev.insertAt, Dev.dualInsert_off (Dev.dualwr_of_resting (Dev.resting_emPlaced _ _ _ _) hoff)]

/-- Without EVICT an insertion that finds no place ends TABLE_FULL. -/
theorem Dev.insertAt_full (hev : c.evict = false) :
    d.insertAt c e .none_ = d.tblEnd { c.fail stTableFull with count := some 0 } := if_pos (by rw [hev]; rfl)

variable (hev : c.evict = true) {d' : Dev}

include hev

theorem Dev.insertAt_noVictim
    (hv : d.victim c.bank e (d.rd F.TBL_TAG_CFG_EVICT [emTag e]) (fun x => !emStatic x) = (d', none)) :
    d.insertAt c e .none_ = d'.tblEnd { c.fail stTableFull with count := some 0 } := by
  refine (if_neg (by rw [hev]; decide)).trans ?_
  simp only [hv]

theorem Dev.insertAt_victim : d.insertAt c e .none_ =
    match d.victim c.bank e (d.rd F.TBL_TAG_CFG_EVICT [emTag e]) (fun x => !emStatic x) with
    | (d, none) => d.tblEnd { c.fail stTableFull with count := some 0 }
    | (d, some i) =>
      let (d, f) := d.emEvict c.bank i e false
      d.tblEnd (c.placed i e 0 false f true) := if_neg (by rw [hev]; decide)

omit hev in
/-- The branch of an eviction, for any operation `evict` and any choice of a victim. -/
theorem insertOver_eq {evict : Dev → Nat → Nat → Nat → Bool → Dev × Bool} {x : Dev} {b i : Nat}
    (h : evict d' b i e false = (x, false)) (v : Dev × Option Nat) : v = (d', some i) →
      (match v with
      | (d, none) => d.tblEnd { c.fail stTableFull with count := some 0 }
      | (d, some i) =>
        let (d, f) := evict d b i e false
        d.tblEnd (c.placed i e 0 false f true)) = x.tblEnd (c.placed i e 0 false false true) := by
  rintro rfl
  simp only [h]

theorem Dev.insertAt_evict {i : Nat}
    (hv : d.victim c.bank e (d.rd F.TBL_TAG_CFG_EVICT [emTag e]) (fun x => !emStatic x) = (d', some i))
    (hoff : d'.on F.TBL_CFG_DUALWR [] = false) :
    d.insertAt c e .none_ = (d'.evicted c.bank i e).tblEnd (c.placed i e 0 false false true) :=
  (Dev.insertAt_victim hev).trans (insertOver_eq (Dev.emEvict_off c.bank i e hoff) _ hv)

end InsertAt

section KeyEm

variable {d : Dev} {c : TblCmd}

theorem Dev.keyEm_insert (hop : c.op = 2) : d.keyEm c = d.insertEm c := if_pos hop

theorem Dev.keyEm_absent (hop : c.op ≠ 2) (h : d.emMatches c.bank (emTag (c.num 0 8)) (emKey (c.num 0 8)) = []) :
    d.keyEm c = d.tblEnd { mid := c.mid } := by
  simp only [Dev.keyEm, if_neg hop, h]

/-- What a command reports of the slot that has its key. -/
def TblCmd.keyed (c : TblCmd) (i e : Nat) : TblRes := { mid := c.mid, found := true, idx := some i, hitWas := emHit e }

variable {i : Nat} {l : List Nat} (h : d.emMatches c.bank (emTag (c.num 0 8)) (emKey (c.num 0 8)) = i :: l)

include h

theorem Dev.keyEm_search (hop : c.op = 4) :
    d.keyEm c = d.tblEnd { c.keyed i (d.em c.bank i) with data := some (dwordsOf 8 (d.em c.bank i)) } := by
  simp only [Dev.keyEm, hop, h]
  rfl

theorem Dev.keyEm_delete (hop : c.op = 3) (hoff : d.on F.TBL_CFG_DUALWR [] = false) :
    d.keyEm c = (d.setEm c.bank i (emClear (d.em c.bank i))).tblEnd
      { c.keyed i (d.em c.bank i) with data := some (dwordsOf 8 (d.em c.bank i)) } := by
  simp only [Dev.keyEm, hop, h]
  rw [Dev.dualDelete_off (Dev.dualwr_of_resting (Dev.resting_setEm _ _ _ _) hoff)]
  rfl

/-- DELETE_IF_IDLE: refused for a STATIC entry, and for one that has been hit. -/
theorem Dev.keyEm_deleteIfIdle (hop : c.op = 7) (hoff : d.on F.TBL_CFG_DUALWR [] = false) :
    d.keyEm c =
      if emStatic (d.em c.bank i) then d.tblEnd { c.keyed i (d.em c.bank i) with status := stNotPermitted }
      else if emHit (d.em c.bank i) then d.tblEnd { c.keyed i (d.em c.bank i) with status := stHitRace }
      else (d.setEm c.bank i (emClear (d.em c.bank i))).tblEnd (c.keyed i (d.em c.bank i)) := by
  simp only [Dev.keyEm, if_neg (show c.op ≠ 2 by omega), if_neg (show c.op ≠ 3 by omega), if_neg (show c.op ≠ 4 by omega), h]
  rw [Dev.dualDelete_off (Dev.dualwr_of_resting (Dev.resting_setEm _ _ _ _) hoff)]
  rfl

end KeyEm

/-! ## LPM commands addressed by key (R117, R118) -/

section LpmInsert

variable {d : Dev} {b e : Nat}

theorem Dev.lpmInsert_replaced {h : Nat} (hfind : d.lpmFind b (lpmName (lpmStored e)) = some h) :
    d.lpmInsert b e = (d.setLpm b h (lpmStored e), some (h, true)) := by
  simp only [Dev.lpmInsert, hfind]

theorem Dev.lpmInsert_full (hfind : d.lpmFind b (lpmName (lpmStored e)) = none)
    (hfull : lpmMax < d.lpmUsed b + lpmUnits (lpmStored e)) : d.lpmInsert b e = (d, none) := by
  simp only [Dev.lpmInsert, hfind]
  exact if_neg (Nat.not_le.2 hfull)

theorem Dev.lpmInsert_new (hfind : d.lpmFind b (lpmName (lpmStored e)) = none)
    (hroom : d.lpmUsed b + lpmUnits (lpmStored e) ≤ lpmMax) : d.lpmInsert b e =
      ((d.lpmHandle b).1.setLpm b (d.lpmHandle b).2 (lpmStored e), some ((d.lpmHandle b).2, false)) := by
  simp only [Dev.lpmInsert, hfind, if_pos hroom]

end LpmInsert

section KeyLpm

variable {d : Dev} {c : TblCmd}

theorem Dev.keyLpm_long (hlen : famBits (lpmFam (c.num 0 8)) < lpmPlen (c.num 0 8)) :
    d.keyLpm c = d.tblEnd (c.fail stLengthError) := if_pos hlen

variable (hlen : lpmPlen (c.num 0 8) ≤ famBits (lpmFam (c.num 0 8)))

include hlen

/-- An insertion that found no room. -/
theorem Dev.keyLpm_full (hop : c.op = 2) (h : d.lpmInsert c.bank (c.num 0 8) = (d, none)) :
    d.keyLpm c = d.tblEnd { c.fail stTableFull with count := some 0 } := by
  simp only [Dev.keyLpm, if_neg (Nat.not_lt.2 hlen), hop, if_true, h]

/-- An insertion at handle `g`, counted; the entry that it stored stands there. -/
theorem Dev.keyLpm_insert {e : Dev} {g : Nat} {upd : Bool} (hop : c.op = 2)
    (h : d.lpmInsert c.bank (c.num 0 8) = (e.setLpm c.bank g (lpmStored (c.num 0 8)), some (g, upd)))
    (hoff : e.on F.TBL_CFG_DUALWR [] = false) :
    d.keyLpm c = ((e.setLpm c.bank g (lpmStored (c.num 0 8))).pmc 105 0x43 1).tblEnd
      (c.placed g (lpmStored (c.num 0 8)) 0 upd false false) := by
  simp only [Dev.keyLpm, if_neg (Nat.not_lt.2 hlen), hop, if_true, h]
  rw [Dev.dualLpmInsert_off (Dev.dualwr_of_resting ((Dev.resting_pmc _ _ _ _).trans (Dev.resting_setLpm _ _ _ _)) hoff)]

variable (hop : c.op ≠ 2)

include hop

theorem Dev.keyLpm_absent (h : d.lpmFind c.bank (lpmName (c.num 0 8)) = none) : d.keyLpm c = d.tblEnd { mid := c.mid } := by
  simp only [Dev.keyLpm, if_neg (Nat.not_lt.2 hlen), if_neg hop, h]

/-- DELETE and SEARCH of a name that is present. -/
theorem Dev.keyLpm_found {g : Nat} (h : d.lpmFind c.bank (lpmName (c.num 0 8)) = some g) (hoff : d.on F.TBL_CFG_DUALWR [] = false) :
    d.keyLpm c = (if c.op = 3 then d.clearLpm c.bank g else d).tblEnd
      { mid := c.mid, found := true, idx := some g, data := some (dwordsOf 8 (d.lpm c.bank g)) } := by
  simp only [Dev.keyLpm, if_neg (Nat.not_lt.2 hlen), if_neg hop, h]
  have hclear : (d.clearLpm c.bank g).on F.TBL_CFG_DUALWR [] = false := Dev.dualwr_of_resting (Dev.resting_setLpm _ _ _ _) hoff
  rw [Dev.dualLpmDelete_off hclear]
  split <;> rfl

end KeyLpm

/-! ## The scans of NEXT (R124, R126, R128) -/

theorem tblSize_le (t : Nat) : tblSize t ≤ emSlots := by
  unfold tblSize
  repeat' split
  all_goals decide

/-- The scan that a device has, taken from it. -/
def Dev.scanTaken (d : Dev) : Dev := { d with tbl := { d.tbl with scan := none } }

section ScanTo

variable {d : Dev} {x : Scan} (hscan : d.tbl.scan = some x)

include hscan

theorem Dev.scanTo_next (hop : x.cmd.op = 5) : d.scanTo emSlots 0 = d.scanTaken.nextTo x (tblSize x.cmd.table) := by
  simp only [Dev.scanTo, hscan, hop, if_true, Nat.min_eq_right (tblSize_le _)]
  rfl

/-- A flush that no path stands in the way of, taken to its end. -/
theorem Dev.scanTo_flush (hop : x.cmd.op = 6) (hpos : x.pos = 0) (hpath : d.path x.cmd.bank = none) :
    d.scanTo emSlots 0 = d.scanTaken.flushRun x.cmd x.n 0 (tblSize x.cmd.table)
      ((d.flushList x.cmd).filter (fun i => decide (i < tblSize x.cmd.table))) := by
  have hpath' : d.scanTaken.path x.cmd.bank = none := hpath
  have hbulk : (if x.cmd.table = 0 then d.scanTaken.finishBulk x.cmd.bank else d.scanTaken) = d.scanTaken := by
    rw [Dev.finishBulk, hpath', ite_self]
  have hend : d.scanTo emSlots 0 = if x.cmd.op = 5 then d.scanTaken.nextTo x (min emSlots (tblSize x.cmd.table)) else
      (if x.cmd.table = 0 then d.scanTaken.finishBulk x.cmd.bank else d.scanTaken).flushRun x.cmd x.n 0
        (min emSlots (tblSize x.cmd.table)) (((if x.cmd.table = 0 then d.scanTaken.finishBulk x.cmd.bank else d.scanTaken).flushList
          x.cmd).filter (fun i => decide (x.pos ≤ i) && decide (i < min emSlots (tblSize x.cmd.table)))) := by
    simp only [Dev.scanTo, hscan]
    rfl
  rw [hend, if_neg (by omega), hbulk, Nat.min_eq_right (tblSize_le _), hpos]
  simp only [Nat.zero_le, decide_true, Bool.true_and]
  rfl

end ScanTo

section NextTo

variable {d : Dev} {x : Scan}

/-- A valid EM entry that a NEXT from its position on reports. -/
def Scan.meets (x : Scan) (e : Nat × Nat) : Bool :=
  e.1 / emSlots == x.cmd.bank && decide (x.pos ≤ e.1 % emSlots) && emValid e.2 && (!x.cmd.tagf || emTag e.2 == x.cmd.tag)

/-- The search of a NEXT that stops at the end of an EM bank stops at no slot before it. -/
theorem Scan.meets_eq (x : Scan) : (fun (e : Nat × Nat) => e.1 / emSlots == x.cmd.bank && decide (x.pos ≤ e.1 % emSlots) &&
    decide (e.1 % emSlots < tblSize 0) && emValid e.2 && (!x.cmd.tagf || emTag e.2 == x.cmd.tag)) = x.meets := by
  funext e
  have hlt : e.1 % emSlots < tblSize 0 := Nat.mod_lt _ (by decide)
  simp only [Scan.meets, hlt, decide_true, Bool.and_true]

section Em

variable (ht : x.cmd.table = 0) (hpath : d.path x.cmd.bank = none)

include ht hpath

/-! A NEXT of EM taken to the end of its bank, no path being in progress there. -/

theorem Dev.nextTo_em_none (h : List.find? x.meets d.tbl.em = none) :
    d.nextTo x (tblSize x.cmd.table) = d.tblEnd { mid := x.cmd.mid } := by
  simp only [Dev.nextTo, ht, hpath, Scan.meets_eq, List.filter_nil, le_refl, if_true, h]
  rfl

theorem Dev.nextTo_em_some {e : Nat × Nat} (h : List.find? x.meets d.tbl.em = some e) : d.nextTo x (tblSize x.cmd.table) =
    (if d.clrOn x.cmd then d.setEm x.cmd.bank (e.1 % emSlots) (emSetHit e.2 false) else d).tblEnd
      { mid := x.cmd.mid, idx := some (e.1 % emSlots), data := some (dwordsOf 8 e.2), found := true, hitWas := emHit e.2 } := by
  simp only [Dev.nextTo, ht, hpath, Scan.meets_eq, List.filter_nil, h]
  rfl

end Em

/-- A valid TCAM entry that a NEXT from its position on reports. -/
def Scan.meetsTcam (x : Scan) (e : Nat × Nat) : Bool := decide (x.pos ≤ e.1) && decide (e.1 < 49152) && tcamValid e.2

theorem Scan.meetsTcam_eq (x : Scan) : (fun (e : Nat × Nat) => decide (x.pos ≤ e.1) && decide (e.1 < tblSize 2) &&
    tcamValid e.2) = x.meetsTcam := rfl

section Tcam

variable (ht : x.cmd.table = 2)

include ht

theorem Dev.nextTo_tcam_none (h : List.find? x.meetsTcam d.tbl.tcam = none) :
    d.nextTo x (tblSize x.cmd.table) = d.tblEnd { mid := x.cmd.mid } := by
  simp only [Dev.nextTo, ht, Scan.meetsTcam_eq, le_refl, if_true, h]

theorem Dev.nextTo_tcam_some {e : Nat × Nat} (h : List.find? x.meetsTcam d.tbl.tcam = some e) :
    d.nextTo x (tblSize x.cmd.table) =
      d.tblEnd { mid := x.cmd.mid, idx := some e.1, data := some (dwordsOf 23 e.2), found := true } := by
  simp only [Dev.nextTo, ht, Scan.meetsTcam_eq, h]

end Tcam

end NextTo

/-! ## FLUSH_BY_PORT (R129) -/

/-- Deletions one after the other: where each step clears one place and nothing else, all places of the list are cleared. -/
theorem foldl_clears {f : Dev → Nat → Dev} {v : Dev → Nat → Nat → Nat} {clear : Nat → Nat} {P : Dev → Prop} {c : Nat}
    (hidem : ∀ n, clear (clear n) = clear n) (hP : ∀ d i, P d → P (f d i))
    (hstep : ∀ d i, P d → i < emSlots → ∀ b j, j < emSlots → v (f d i) b j = if b = c ∧ j = i then clear (v d b j) else v d b j)
    (l : List Nat) (hl : ∀ i ∈ l, i < emSlots) (d : Dev) (hd : P d) (b j : Nat) (hj : j < emSlots) :
    v (l.foldl f d) b j = if b = c ∧ j ∈ l then clear (v d b j) else v d b j := by
  induction l generalizing d with
  | nil => simp
  | cons i t ih =>
    rw [List.foldl_cons, ih (fun k hk => hl k (.tail _ hk)) _ (hP d i hd), hstep d i hd (hl i (.head _)) b j hj]
    by_cases hb : b = c <;> by_cases hji : j = i <;> by_cases hjt : j ∈ t <;> simp [hb, hji, hjt, hidem]

/-- A flush of `c` posts no events and is not repeated. -/
structure Dev.FlushesHere (c : TblCmd) (d : Dev) : Prop where
  off : d.on F.TBL_CFG_DUALWR [] = false
  quiet : d.flushPosts c = false

theorem Dev.FlushesHere.of_resting {c : TblCmd} {d e : Dev} (h : d.FlushesHere c) (he : e.resting = d.resting) : e.FlushesHere c where
  off := Dev.dualwr_of_resting he h.off
  quiet := by
    rw [← h.quiet]
    simp only [Dev.flushPosts, Dev.activeOf, Dev.activeEm, Dev.activeLpm,
      Dev.rd_of_resting he (f := F.TBL_STAT_ACTIVE_EM) (by decide) [], Dev.rd_of_resting he (f := F.TBL_STAT_ACTIVE_LPM) (by decide) []]

section FlushOne

variable {d : Dev} {c : TblCmd} (h : d.FlushesHere c) (i : Nat)

include h

theorem Dev.flushOne_em (ht : c.table = 0) :
    d.flushOne c i = if emValid (d.em c.bank i) then d.setEm c.bank i (emClear (d.em c.bank i)) else d := by
  have hset := h.of_resting (d.resting_setEm c.bank i (emClear (d.em c.bank i)))
  unfold Dev.flushOne
  rw [if_pos ht]
  dsimp only
  rw [Dev.dualDelete_off hset.off, if_neg (ne_true_of_eq_false hset.quiet)]
  by_cases hv : emValid (d.em c.bank i) = true
  · rw [if_neg (by simp [hv]), if_pos hv]
  · rw [if_pos (by simpa using hv), if_neg hv]

theorem Dev.flushOne_lpm (ht : c.table ≠ 0) :
    d.flushOne c i = if lpmValid (d.lpm c.bank i) then d.clearLpm c.bank i else d := by
  have hset : (d.clearLpm c.bank i).FlushesHere c := h.of_resting (d.resting_setLpm _ _ _)
  unfold Dev.flushOne
  rw [if_neg ht]
  dsimp only
  rw [Dev.dualLpmDelete_off hset.off, if_neg (ne_true_of_eq_false hset.quiet)]
  by_cases hv : lpmValid (d.lpm c.bank i) = true
  · rw [if_neg (by simp [hv]), if_pos hv]
  · rw [if_pos (by simpa using hv), if_neg hv]

theorem Dev.FlushesHere.flushOne : (d.flushOne c i).FlushesHere c := by
  by_cases ht : c.table = 0
  · rw [Dev.flushOne_em h i ht]
    split
    · exact h.of_resting (d.resting_setEm _ _ _)
    · exact h
  · rw [Dev.flushOne_lpm h i ht]
    split
    · exact h.of_resting (d.resting_setLpm _ _ _)
    · exact h

theorem Dev.em_flushOne (ht : c.table = 0) (hi : i < emSlots) (b j : Nat) (hj : j < emSlots) :
    (d.flushOne c i).em b j = if b = c.bank ∧ j = i then emClear (d.em b j) else d.em b j := by
  rw [Dev.flushOne_em h i ht]
  have hwritten := d.emWritten_setEm c.bank i (emClear (d.em c.bank i))
  by_cases hbj : b = c.bank ∧ j = i
  · obtain ⟨rfl, rfl⟩ := hbj
    rw [if_pos (c := c.bank = c.bank ∧ j = j) ⟨rfl, rfl⟩]
    split
    · exact hwritten.here
    next hv => exact (emClear_of_invalid (by simpa using hv)).symm
  · rw [if_neg (c := b = c.bank ∧ j = i) hbj]
    split
    · exact hwritten.other b j fun heq => hbj ((emAt_inj hj hi).1 heq)
    · rfl

theorem Dev.lpm_flushOne (ht : c.table ≠ 0) (hi : i < emSlots) (b j : Nat) (hj : j < emSlots) :
    (d.flushOne c i).lpm b j = if b = c.bank ∧ j = i then putBit (d.lpm b j) 255 false else d.lpm b j := by
  rw [Dev.flushOne_lpm h i ht]
  by_cases hbj : b = c.bank ∧ j = i
  · obtain ⟨rfl, rfl⟩ := hbj
    rw [if_pos (c := c.bank = c.bank ∧ j = j) ⟨rfl, rfl⟩]
    split
    · exact d.lpm_setLpm _ _ _
    next hv =>
      have hbit : bitAt (d.lpm c.bank j) 255 = false := by simpa [lpmValid] using hv
      rw [← hbit, putBit_bitAt]
  · rw [if_neg (c := b = c.bank ∧ j = i) hbj]
    split
    · exact d.lpm_setLpm_other _ fun heq => hbj ((emAt_inj hj hi).1 heq)
    · rfl

end FlushOne

/-- A flush that posts nothing never stalls: its whole list is deleted, and counted. -/
theorem Dev.flushRun_ends {d : Dev} {c : TblCmd} (h : d.FlushesHere c) (n slots : Nat) {hi : Nat} (hhi : tblSize c.table ≤ hi)
    (l : List Nat) : d.flushRun c n slots hi l =
      (l.foldl (fun d i => d.flushOne c i) d).tblEnd { mid := c.mid, found := n + l.length != 0, count := some (n + l.length) } := by
  induction l generalizing d n slots with
  | nil => exact if_pos hhi
  | cons i t ih =>
    rw [Dev.flushRun, if_neg (by simp [h.quiet]), ih (h.flushOne i), List.foldl_cons, List.length_cons, Nat.add_right_comm,
      Nat.add_assoc]

section Flushed

variable {d : Dev} {c : TblCmd} (h : d.FlushesHere c) {l : List Nat} (hl : ∀ i ∈ l, i < emSlots) (b j : Nat) (hj : j < emSlots)

include h hl hj

/-- The EM slots after a flush: those of its list are cleared, the others are as they were. -/
theorem Dev.em_flushed (ht : c.table = 0) : (l.foldl (fun d i => d.flushOne c i) d).em b j =
    if b = c.bank ∧ j ∈ l then emClear (d.em b j) else d.em b j :=
  foldl_clears (v := Dev.em) (clear := emClear) (P := Dev.FlushesHere c) (fun n => putBit_putBit n 255 false)
    (fun _ i h => h.flushOne i) (fun _ i h hi => Dev.em_flushOne h i ht hi) l hl _ h b j hj

theorem Dev.lpm_flushed (ht : c.table ≠ 0) : (l.foldl (fun d i => d.flushOne c i) d).lpm b j =
    if b = c.bank ∧ j ∈ l then putBit (d.lpm b j) 255 false else d.lpm b j :=
  foldl_clears (v := Dev.lpm) (clear := fun n => putBit n 255 false) (P := Dev.FlushesHere c) (fun n => putBit_putBit n 255 false)
    (fun _ i h => h.flushOne i) (fun _ i h hi => Dev.lpm_flushOne h i ht hi) l hl _ h b j hj

end Flushed

/-! ### The slots that a flush deletes -/

/-- In a memory that lists each key once, a listed value is what its key reads. -/
theorem Sparse.get_of_mem {α : Type} (dflt : α) {m : Sparse α} (hnodup : (m.map (fun e => e.1)).Nodup) {e : Nat × α} (he : e ∈ m) :
    Sparse.get dflt m e.1 = e.2 := by
  induction m with
  | nil => cases he
  | cons x t ih =>
    obtain ⟨hnew, ht⟩ := List.nodup_cons.1 hnodup
    rcases List.mem_cons.1 he with rfl | he
    · exact if_pos rfl
    · have hne : e.1 ≠ x.1 := fun heq => hnew (List.mem_map.2 ⟨e, he, heq⟩)
      exact (if_neg hne).trans (ih ht he)

/-- What does not read as the default is listed. -/
theorem Sparse.mem_of_get_ne {α : Type} {dflt : α} {m : Sparse α} {k : Nat} (h : Sparse.get dflt m k ≠ dflt) :
    (k, Sparse.get dflt m k) ∈ m := by
  induction m with
  | nil => exact absurd rfl h
  | cons x t ih =>
    by_cases hk : k = x.1
    · rw [show Sparse.get dflt (x :: t) k = x.2 from if_pos hk, hk]
      exact .head _
    · have heq : Sparse.get dflt (x :: t) k = Sparse.get dflt t k := if_neg hk
      rw [heq] at h ⊢
      exact .tail _ (ih h)

theorem Dev.em_of_mem {d : Dev} (hnodup : (d.tbl.em.map (fun e => e.1)).Nodup) {x : Nat × Nat} (hx : x ∈ d.tbl.em) :
    d.em (x.1 / emSlots) (x.1 % emSlots) = x.2 := by
  have hkey : emAt (x.1 / emSlots) (x.1 % emSlots) = x.1 := by
    simp only [emAt, emSlots]
    omega
  rw [Dev.em, hkey]
  exact Sparse.get_of_mem 0 hnodup hx

/-- An entry that a flush by `c` deletes: valid, not STATIC, matching under the mask, of the tag asked for (R129). -/
def TblCmd.flushes (c : TblCmd) (e : Nat) : Bool :=
  emValid e && !emStatic e && Nat.land (emActData e) (c.num 2 2) == Nat.land (c.num 0 2) (c.num 2 2) && (!c.tagf || emTag e == c.tag)

theorem Dev.flushList_em (d : Dev) {c : TblCmd} (ht : c.table = 0) : d.flushList c =
    (d.tbl.em.filter (fun x => x.1 / emSlots == c.bank && c.flushes x.2)).map (fun x => x.1 % emSlots) := by
  simp only [Dev.flushList, ht, if_true, TblCmd.flushes, Bool.and_assoc]

theorem Dev.flushList_lpm (d : Dev) {c : TblCmd} (ht : c.table ≠ 0) : d.flushList c =
    ((d.lpmBank c.bank).filter (fun x => Nat.land (lpmActData x.2) (c.num 2 2) == Nat.land (c.num 0 2) (c.num 2 2))).map
      (fun x => x.1) := if_neg ht

theorem Dev.mem_flushList_em {d : Dev} {c : TblCmd} (hnodup : (d.tbl.em.map (fun e => e.1)).Nodup) (ht : c.table = 0) {i : Nat}
    (hi : i < emSlots) : i ∈ d.flushList c ↔ c.flushes (d.em c.bank i) = true := by
  simp only [d.flushList_em ht, List.mem_map, List.mem_filter, Bool.and_eq_true, beq_iff_eq]
  constructor
  · rintro ⟨x, ⟨hx, hbank, hflush⟩, rfl⟩
    rwa [← hbank, Dev.em_of_mem hnodup hx]
  · intro hflush
    have hne : d.em c.bank i ≠ 0 := by
      intro hzero
      rw [hzero] at hflush
      simp [TblCmd.flushes, emValid, bitAt] at hflush
    exact ⟨_, ⟨Sparse.mem_of_get_ne hne, emAt_div _ hi, hflush⟩, emAt_mod _ hi⟩

/-- The slots of one bank's entries are all different. -/
theorem nodup_slots {m : Sparse Nat} (hnodup : (m.map (fun e => e.1)).Nodup) {p : Nat × Nat → Bool} {b : Nat}
    (hp : ∀ x, p x = true → x.1 / emSlots = b) : ((m.filter p).map (fun x => x.1 % emSlots)).Nodup := by
  rw [List.Nodup, List.pairwise_map] at hnodup ⊢
  refine (hnodup.sublist List.filter_sublist).imp_of_mem fun hx hy hne heq => hne ?_
  have hbx := hp _ (List.mem_filter.1 hx).2
  have hby := hp _ (List.mem_filter.1 hy).2
  simp only [emSlots] at *
  omega

theorem Dev.nodup_flushList {d : Dev} {c : TblCmd} (hem : (d.tbl.em.map (fun e => e.1)).Nodup)
    (hlpm : (d.tbl.lpm.map (fun e => e.1)).Nodup) : (d.flushList c).Nodup := by
  by_cases ht : c.table = 0
  · rw [d.flushList_em ht]
    exact nodup_slots hem (b := c.bank) fun x hx => by simp_all
  · have hbank : ((d.lpmBank c.bank).map (fun x => x.1)).Nodup := by
      rw [Dev.lpmBank, List.map_map]
      exact nodup_slots hlpm (b := c.bank) fun x hx => by simp_all
    rw [d.flushList_lpm ht]
    exact hbank.sublist (List.filter_sublist.map _)

/-! ## TBL_CMD_DONE (R124, R456) -/

/-- A result's index, data dwords and count in their registers; what it does not bring stays. -/
def Dev.indexShown (d : Dev) (r : TblRes) : Dev :=
  match r.idx with
  | some i => d.wr F.TBL_CMD_IDX_INDEX [] i
  | none => d
def Dev.dataShown (d : Dev) (r : TblRes) : Dev :=
  match r.data with
  | some l => (List.range l.length).foldl (fun (d : Dev) k => d.wr F.TBL_CMD_DATA_DATA [k] (l.getD k 0)) d
  | none => d
def Dev.countShown (d : Dev) (r : TblRes) : Dev :=
  match r.count with
  | some n => d.wr F.TBL_CMD_RES_COUNT [] n
  | none => d

/-- The fields of TBL_CMD_STAT that a result sets, and BUSY. -/
def Dev.resultShown (d : Dev) (r : TblRes) : Dev :=
  let d := ((d.wr F.TBL_CMD_STAT_STATUS [] r.status).wr F.TBL_CMD_STAT_MID [] r.mid).wr F.TBL_CMD_STAT_FOUND [] (b2n r.found)
  let d := (d.wr F.TBL_CMD_STAT_HIT_WAS [] (b2n r.hitWas)).wr F.TBL_CMD_STAT_DUAL_FAIL [] (b2n r.dualFail)
  (d.wr F.TBL_CMD_STAT_EVICTED [] (b2n r.evicted)).wr F.TBL_CMD_BUSY [] 0

/-- The result that stands, taken from the device. -/
def Dev.resultTaken (d : Dev) : Dev := { d with tbl := { d.tbl with res := none } }

theorem Dev.tblPublish_eq (d : Dev) (r : TblRes) :
    d.tblPublish r = (((d.resultTaken.indexShown r).dataShown r).countShown r).resultShown r := rfl

theorem Dev.tbl_indexShown (d : Dev) (r : TblRes) : (d.indexShown r).tbl = d.tbl := by
  unfold Dev.indexShown
  split
  · exact d.wr_tbl _ _ _
  · rfl

theorem Dev.tbl_dataShown (d : Dev) (r : TblRes) : (d.dataShown r).tbl = d.tbl := by
  unfold Dev.dataShown
  split
  · exact foldl_proj Dev.tbl _ (fun e _ => e.wr_tbl _ _ _) _ _
  · rfl

theorem Dev.tbl_countShown (d : Dev) (r : TblRes) : (d.countShown r).tbl = d.tbl := by
  unfold Dev.countShown
  split
  · exact d.wr_tbl _ _ _
  · rfl

theorem Dev.tbl_resultShown (d : Dev) (r : TblRes) : (d.resultShown r).tbl = d.tbl := by
  unfold Dev.resultShown
  dsimp only
  iterate 7 rw [Dev.wr_tbl]

/-- Publishing a result leaves the tables as they are. -/
theorem Dev.tbl_tblPublish (d : Dev) (r : TblRes) : (d.tblPublish r).tbl = { d.tbl with res := none } := by
  rw [Dev.tblPublish_eq, Dev.tbl_resultShown, Dev.tbl_countShown, Dev.tbl_dataShown, Dev.tbl_indexShown, Dev.resultTaken]

theorem Dev.busy_resultShown (d : Dev) (r : TblRes) : (d.resultShown r).on F.TBL_CMD_BUSY [] = false :=
  Dev.on_wr_bit _ F.TBL_CMD_BUSY [] false rfl (by decide)

theorem Dev.status_resultShown (d : Dev) (r : TblRes) : (d.resultShown r).rd F.TBL_CMD_STAT_STATUS [] = r.status % 2 ^ 8 := by
  unfold Dev.resultShown
  dsimp only
  iterate 6 rw [Dev.rd_wr_apart _ _ _ _ (by decide)]
  exact Dev.rd_wr_self _ _ _ _ (by decide) (by decide)

theorem Dev.found_resultShown (d : Dev) (r : TblRes) : (d.resultShown r).on F.TBL_CMD_STAT_FOUND [] = r.found := by
  unfold Dev.resultShown
  dsimp only
  rw [Dev.on]
  iterate 4 rw [Dev.rd_wr_apart _ _ _ _ (by decide)]
  rw [← Dev.on]
  exact Dev.on_wr_bit _ _ _ _ rfl (by decide)

theorem runs_tblCmdDone {s : State} {r : TblRes} (hl : Live s) (h : s.dev.tbl.res = some r) :
    Runs .tblCmdDone s (s.dev.tblPublish r) :=
  Runs.of_run hl rfl (by simp only [h])

theorem runs_tblCmdDone_scan {s : State} {r : TblRes} (hl : Live s) (hnone : s.dev.tbl.res = none)
    (h : (s.dev.scanTo emSlots 0).tbl.res = some r) : Runs .tblCmdDone s ((s.dev.scanTo emSlots 0).tblPublish r) :=
  Runs.of_run hl rfl (by simp only [hnone, h])

/-- A published result stands in the registers, with BUSY down, and the tables as they were. -/
theorem tblCmdDone_shows {s : State} {r : TblRes} (hl : Live s) (h : s.dev.tbl.res = some r) :
    ∃ t, exec .tblCmdDone s = .next t ∧ t.dev.on F.TBL_CMD_BUSY [] = false ∧ t.dev.tbl.res = none ∧
      t.dev.rd F.TBL_CMD_STAT_STATUS [] = r.status % 2 ^ 8 ∧ t.dev.on F.TBL_CMD_STAT_FOUND [] = r.found ∧
      t.dev.tbl.em = s.dev.tbl.em ∧ t.dev.tbl.lpm = s.dev.tbl.lpm := by
  obtain ⟨t, ht, htbl, hfields⟩ := (runs_tblCmdDone hl h).showsTables hl
  rw [Dev.tbl_tblPublish] at htbl
  rw [Dev.tblPublish_eq] at hfields
  refine ⟨t, ht, ?_, by rw [htbl], ?_, ?_, by rw [htbl], by rw [htbl]⟩
  · rw [Dev.on, hfields, ← Dev.on, Dev.busy_resultShown]
  · rw [hfields, Dev.status_resultShown]
  · rw [Dev.on, hfields, ← Dev.on, Dev.found_resultShown]

/-! ## What each command reports -/

/-- A READ of a flow counter clears that pair with CLR, and no other. -/
theorem Dev.ctr_tblRead (d : Dev) {c : TblCmd} (ht : c.table = 4) (i : Nat) : Sparse.get (0, 0) (d.tblRead c).tbl.ctr i =
    if d.clrOn c = true ∧ i = c.idx then (0, 0) else Sparse.get (0, 0) d.tbl.ctr i := by
  rw [d.tblRead_ctr ht, Dev.tblEnd_ctr]
  by_cases hclr : d.clrOn c = true
  · rw [if_pos hclr]
    change Sparse.get (0, 0) (Sparse.set (0, 0) d.tbl.ctr c.idx (0, 0)) i = _
    by_cases hi : i = c.idx
    · rw [if_pos ⟨hclr, hi⟩, hi, Sparse.get_set_self]
    · rw [if_neg fun h => hi h.2, Sparse.get_set_other _ _ _ _ _ _ hi]
  · rw [if_neg hclr, if_neg fun h => hclr h.1]

/-- A deletion from LPM, reported, has cleared VALID at the handle. -/
theorem Dev.lpm_cleared (d : Dev) (b h : Nat) (r : TblRes) :
    ((d.clearLpm b h).tblEnd r).lpm b h = putBit (d.lpm b h) 255 false :=
  (Dev.lpm_of_tbl (Dev.tblEnd_lpm (d.clearLpm b h) r) b h).trans (d.lpm_setLpm b h _)

theorem Dev.rd_tblEnd (d : Dev) (r : TblRes) (f : Fld) (l : List Nat) : (d.tblEnd r).rd f l = d.rd f l := rfl

/-! A command that has ended reports its result, and ending it leaves the slots alone. -/

section Ended

variable {d t : Dev} {r : TblRes} (h : t = d.tblEnd r)

include h

theorem Dev.res_of_end : t.tbl.res = some r := h ▸ rfl

theorem Dev.em_of_end : t.tbl.em = d.tbl.em := h ▸ rfl

theorem EmWritten.of_end {u : Dev} {b i e : Nat} (hw : EmWritten u d b i e) : EmWritten u t b i e := hw.of_tbl (Dev.em_of_end h)

end Ended

/-- The slot of a command that clears VALID in it is not valid afterwards. -/
theorem Dev.emValid_cleared (d : Dev) (b i n : Nat) (r : TblRes) :
    emValid (((d.setEm b i (emClear n)).tblEnd r).em b i) = false := by
  rw [((d.emWritten_setEm b i (emClear n)).of_tbl (Dev.tblEnd_em _ r)).here, emValid_emClear]

/-- An insertion into LPM, counted and reported, has its entry at the handle. -/
theorem Dev.lpm_inserted (d : Dev) (b h n : Nat) (r : TblRes) :
    (((d.setLpm b h n).pmc 105 0x43 1).tblEnd r).lpm b h = n :=
  (Dev.lpm_of_tbl (congrArg Tbl.lpm (Dev.pmc_tbl (d.setLpm b h n) 105 0x43 1)) b h).trans (d.lpm_setLpm b h n)

@[simp] theorem Dev.resting_lpmHandle (d : Dev) (b : Nat) : (d.lpmHandle b).1.resting = d.resting := rfl

/-- Settles O24: a command by its checks, its operation and the branches that its conditions choose; scans taken to their end see
the slots in turn, and publishing a result leaves the tables alone. -/
theorem tableCommandResults : Obligations.TableCommandResults := by
  unfold Obligations.TableCommandResults
  refine ⟨fun d c _ => ?run, fun d c => ?byIndex, fun d c hop hoff => ?insert, fun d c hoff => ?lpm, fun d x hscan hop => ?next,
    fun d c hnodup ht i hi => ?flushed, fun d x hscan hop hpos hn hquiet hoff hpath hem hlpm => ?flush, fun d c ht hpath => ?em,
    fun d c _ hoff hop => ?keyed, fun s r hl => runs_tblCmdDone_scan hl, fun s r => tblCmdDone_shows⟩
  case run =>
    refine ⟨fun st h => ?_, fun h => ⟨Dev.tblRun_read h, Dev.tblRun_write h, Dev.tblRun_next h, Dev.tblRun_flush h,
      fun hop ht => (Dev.tblRun_byKey h hop).trans (if_pos ht),
      fun hop ht hnone => (Dev.tblRun_byKey h hop).trans ((if_neg ht).trans (if_neg (by simp [hnone]))), fun hop ht hsome => ?_⟩,
      Dev.tblCheck_disabled, Dev.tblCheck_badTable⟩
    · rw [Dev.tblRun_refused h]
      exact ⟨_, rfl, rfl, rfl, rfl, rfl, rfl, rfl, rfl, rfl⟩
    · rw [Dev.tblRun_byKey h hop, if_neg ht, if_pos hsome]
      exact ⟨rfl, rfl⟩
  case byIndex =>
    refine ⟨fun ht => ?_, fun ht => ?_, fun ht => ?_, fun ht => ?_, fun ht => ?_, fun ht => ?_, fun ht => ?_⟩
    · rw [d.tblRead_lpm ht]
      exact ⟨_, rfl, rfl, rfl, rfl⟩
    · rw [d.tblRead_tcam ht]
      exact ⟨_, rfl, rfl, rfl, rfl⟩
    · rw [d.tblRead_mcg ht]
      exact ⟨_, rfl, rfl, rfl⟩
    · refine ⟨_, by rw [d.tblRead_ctr ht]; rfl, rfl, rfl, ?_, fun i hi => ?_⟩
      · rw [d.ctr_tblRead ht]
        simp only [and_true]
      · rw [d.ctr_tblRead ht, if_neg fun h => hi h.2]
    · rw [d.tcam_tblWrite ht]
      exact ⟨Sparse.get_set_self _ _ _ _, fun i hi => Sparse.get_set_other _ _ _ _ _ _ hi⟩
    · rw [d.mcg_tblWrite ht]
      exact ⟨Sparse.get_set_self _ _ _ _, fun i hi => Sparse.get_set_other _ _ _ _ _ _ hi⟩
    · rw [d.ctr_tblWrite ht]
      exact ⟨Sparse.get_set_self _ _ _ _, fun i hi => Sparse.get_set_other _ _ _ _ _ _ hi⟩
  case insert =>
    intro e b t only
    have ht : t = d.insertAt c e (d.emPlace b e .cmd) := (Dev.keyEm_insert hop).trans (d.insertEm_eq c)
    have honly : ∀ {i : Nat}, EmWritten d t b i e → only i := fun h => ⟨h.here, h.other⟩
    refine ⟨d.emValid_insertEntry _, d.emHit_insertEntry _, d.emStamp_insertEntry _, fun i l h => ?_, fun h i hfree => ?_,
      fun h hev => ?_, fun h hev => ⟨fun hv => ?_, fun i hv => ?_⟩⟩
    · rw [Dev.emPlace_update h, Dev.insertAt_update i hoff] at ht
      exact ⟨_, Dev.res_of_end ht, rfl, rfl, rfl, rfl, rfl, honly (.of_end ht (d.emWritten_emPlaced b i e))⟩
    · rw [Dev.emPlace_empty h hfree, Dev.insertAt_empty i hoff] at ht
      exact ⟨_, Dev.res_of_end ht, rfl, rfl, rfl, rfl, honly (.of_end ht (d.emWritten_emPlaced b i e))⟩
    · rw [h, Dev.insertAt_full hev] at ht
      exact ⟨_, Dev.res_of_end ht, rfl, Dev.em_of_end ht⟩
    all_goals
      obtain ⟨n, hn⟩ := d.victim_free b e (d.rd F.TBL_TAG_CFG_EVICT [emTag e]) (fun x => !emStatic x)
    · rw [h, Dev.insertAt_noVictim hev (Prod.ext hn hv)] at ht
      exact ⟨_, Dev.res_of_end ht, rfl, (Dev.em_of_end ht).trans rfl⟩
    · have hrest : ({ d with freeIdx := n } : Dev).resting = d.resting := rfl
      rw [h, Dev.insertAt_evict hev (Prod.ext hn hv) (Dev.dualwr_of_resting hrest hoff)] at ht
      refine ⟨_, Dev.res_of_end ht, rfl, rfl, rfl,
        honly (.of_end ht ((Dev.emWritten_evicted _ b i e).after rfl)), ?_⟩
      rw [ht, Dev.rd_tblEnd]
      exact Dev.count_evicted b i e hrest
  case lpm =>
    intro e b t
    refine ⟨fun hlong => ?_, fun hlen hop => ⟨fun h hfind => ?_, fun hfind hfull => ?_, fun hfind hroom => ?_⟩,
      fun hlen hop => ⟨fun hfind => ?_, fun h hfind => ?_⟩⟩
    · have ht : t = _ := Dev.keyLpm_long hlong
      rw [ht]
      exact ⟨_, rfl, rfl, rfl⟩
    · have ht : t = _ := Dev.keyLpm_insert hlen hop (Dev.lpmInsert_replaced hfind) hoff
      rw [ht]
      exact ⟨_, rfl, rfl, rfl, rfl, Dev.lpm_inserted _ _ _ _ _⟩
    · have ht : t = _ := Dev.keyLpm_full hlen hop (Dev.lpmInsert_full hfind hfull)
      rw [ht]
      exact ⟨_, rfl, rfl, rfl⟩
    · have ht : t = _ := Dev.keyLpm_insert hlen hop (Dev.lpmInsert_new hfind hroom)
        (Dev.dualwr_of_resting (d.resting_lpmHandle b) hoff)
      rw [ht]
      exact ⟨_, rfl, rfl, rfl, rfl, Dev.lpm_inserted _ _ _ _ _⟩
    · have ht : t = _ := Dev.keyLpm_absent hlen hop hfind
      rw [ht]
      exact ⟨_, rfl, rfl, rfl, rfl⟩
    · have ht : t = _ := Dev.keyLpm_found hlen hop hfind hoff
      refine ⟨_, Dev.res_of_end ht, rfl, rfl, rfl, rfl, fun hdel => ?_, fun hdel => ?_⟩
      · rw [ht, if_pos hdel]
        exact d.lpm_cleared b h _
      · rw [ht, if_neg hdel]
        rfl
  case next =>
    have hstart := Dev.scanTo_next hscan hop
    intro t
    refine ⟨fun htable hpath => ⟨fun h => ?_, fun e h => ?_⟩, fun htable => ⟨fun h => ?_, fun e h => ?_⟩⟩
    · have ht : t = _ := hstart.trans (Dev.nextTo_em_none (d := d.scanTaken) htable hpath h)
      exact ⟨_, Dev.res_of_end ht, rfl, rfl, (Dev.em_of_end ht).trans rfl⟩
    · have ht : t = _ := hstart.trans (Dev.nextTo_em_some (d := d.scanTaken) htable hpath h)
      refine ⟨_, Dev.res_of_end ht, rfl, rfl, rfl, rfl, rfl, fun hclr => ?_, fun hclr => ?_⟩
      · rw [if_neg (show ¬ d.scanTaken.clrOn x.cmd = true from ne_true_of_eq_false hclr)] at ht
        exact (Dev.em_of_end ht).trans rfl
      · rw [if_pos (show d.scanTaken.clrOn x.cmd = true from hclr)] at ht
        exact (EmWritten.of_end ht (Dev.emWritten_setEm _ _ _ _)).here
    · have ht : t = _ := hstart.trans (Dev.nextTo_tcam_none (d := d.scanTaken) htable h)
      exact ⟨_, Dev.res_of_end ht, rfl, rfl⟩
    · have ht : t = _ := hstart.trans (Dev.nextTo_tcam_some (d := d.scanTaken) htable h)
      exact ⟨_, Dev.res_of_end ht, rfl, rfl, rfl, rfl⟩
  case flushed =>
    intro e
    rw [Dev.mem_flushList_em hnodup ht hi]
    simp [TblCmd.flushes, and_assoc, e]
  case flush =>
    intro l t
    have hhere : d.scanTaken.FlushesHere x.cmd := ⟨hoff, hquiet⟩
    have hlt : ∀ i ∈ l, i < emSlots := fun i hi => (of_decide_eq_true (List.mem_filter.1 hi).2).trans_le (tblSize_le _)
    have ht : t = _ := (Dev.scanTo_flush hscan hop hpos hpath).trans (Dev.flushRun_ends hhere x.n 0 le_rfl l)
    rw [hn, Nat.zero_add] at ht
    refine ⟨_, Dev.res_of_end ht, rfl, rfl, rfl, (Dev.nodup_flushList hem hlpm).filter _,
      fun htable b j _ hj => ?_, fun htable b j _ hj => ?_⟩
    · rw [ht]
      exact Dev.em_flushed hhere hlt b j hj htable
    · rw [ht]
      exact Dev.lpm_flushed hhere hlt b j hj (by omega)
  case em =>
    have hwritten := d.tblWrite_em ht hpath
    refine ⟨?_, hwritten.here, hwritten.other⟩
    rw [d.tblRead_em ht hpath]
    exact ⟨_, rfl, rfl, rfl, rfl, rfl⟩
  case keyed =>
    refine ⟨fun habsent => ?_, fun i l h => ?_⟩
    · rw [Dev.keyEm_absent (by omega) habsent]
      exact ⟨_, rfl, rfl, rfl, rfl⟩
    intro e
    refine ⟨fun hop => ?_, fun hop => ?_, fun hop hst => ?_, fun hop hst hhit => ?_, fun hop hst hhit => ?_⟩
    · rw [Dev.keyEm_search h hop]
      exact ⟨_, rfl, rfl, rfl, rfl, rfl⟩
    · rw [Dev.keyEm_delete h hop hoff]
      exact ⟨_, rfl, rfl, rfl, d.emValid_cleared _ _ _ _⟩
    · rw [Dev.keyEm_deleteIfIdle h hop hoff, if_pos hst]
      exact ⟨_, rfl, rfl, rfl⟩
    · rw [Dev.keyEm_deleteIfIdle h hop hoff, if_neg (ne_true_of_eq_false hst), if_pos hhit]
      exact ⟨_, rfl, rfl, rfl⟩
    · rw [Dev.keyEm_deleteIfIdle h hop hoff, if_neg (ne_true_of_eq_false hst), if_neg (ne_true_of_eq_false hhit)]
      exact ⟨_, rfl, rfl, rfl, d.emValid_cleared _ _ _ _⟩

end Sys2Proof.Machine

/-!
PROOFS of the statements of spec/05_quarry_central_store.md: the dynamic threshold, and the Quarry's abandoned copies,
cut-through arrival, averages and PFC. What an evaluation does to one queue or one priority comes before what its pass over all of
them does.
-/

namespace Sys2Proof.Machine

/-! ## The dynamic threshold (R158) -/

theorem scaled_of_full {s u : Nat} (h : s ≤ u) (a : Nat) : scaled s u a = 0 := by
  simp [scaled, Nat.sub_eq_zero_of_le h]

theorem scaled_of_ne {a : Nat} (h : a ≠ 15) (s u : Nat) : scaled s u a = (s - u) * 2 ^ min a 10 / 128 := if_neg h

/-- A factor of 2^(a − 7), rounded down. -/
theorem scaled_eq_floor {s u a : Nat} (h : u ≤ s) (ha : a ≤ 10) :
    scaled s u a = ⌊((s : ℚ) - u) * (2 : ℚ) ^ ((a : ℤ) - 7)⌋₊ := by
  have hquot : ((s : ℚ) - u) * (2 : ℚ) ^ ((a : ℤ) - 7) = ((s - u) * 2 ^ a : Nat) / (128 : Nat) := by
    rw [zpow_sub₀ two_ne_zero, zpow_natCast]
    push_cast [Nat.cast_sub h]
    norm_num [mul_div_assoc]
  rw [scaled_of_ne (by omega), hquot, Nat.floor_div_eq_div, min_eq_left ha]

/-- Above 10 the factor stays 8. -/
theorem scaled_of_top {a : Nat} (h1 : 10 ≤ a) (h2 : a ≤ 14) (s u : Nat) : scaled s u a = (s - u) * 8 := by
  rw [scaled_of_ne (by omega), min_eq_right h1]
  omega

/-- Settles O29: `Dev.threshold` is `scaled` of S, U and the queue's ALPHA, by the range of ALPHA. -/
theorem dynamicThreshold : Obligations.DynamicThreshold := by
  unfold Obligations.DynamicThreshold
  intro d v s u a
  have hT : d.threshold v = scaled s u a := rfl
  rw [hT]
  exact ⟨fun h => scaled_of_full h a, fun h ha => scaled_eq_floor h.le ha, fun _ h1 h2 => scaled_of_top (by omega) h2 s u,
    fun h => if_pos h⟩

/-! ## The entries of a register that a store lists -/

theorem Reg.keyAt_inj (r : Reg) {i j : Nat} (hi : i < 2 ^ 20) (hj : j < 2 ^ 20) (h : r.keyAt i = r.keyAt j) : i = j := by
  unfold Reg.keyAt at h
  omega

/-- The flat index of a register with one index, from 0, is that index. -/
theorem Reg.key_row {r : Reg} {n st i : Nat} (h : r.dims = [⟨0, n, st⟩]) : r.key [i] = r.keyAt i := by
  simp [Reg.key, h, flatIndex]

/-- The flat indices of `r` that `m` lists. -/
def Reg.listed (r : Reg) (m : Sparse Word) : List Nat :=
  (m.filter (fun e => keyWin e.1 == r.win && keyId e.1 == r.id)).map (fun e => keyFlat e.1)

theorem Reg.lt_of_mem_listed {r : Reg} {m : Sparse Word} {i : Nat} (h : i ∈ r.listed m) : i < 2 ^ 20 := by
  obtain ⟨e, _, rfl⟩ := List.mem_map.1 h
  exact Nat.mod_lt _ (by norm_num)

/-- A key that is not listed reads as the default. -/
theorem Sparse.get_of_not_mem {α : Type} (dflt : α) {m : Sparse α} {k : Nat} (h : ∀ e ∈ m, e.1 ≠ k) :
    Sparse.get dflt m k = dflt := by
  induction m with
  | nil => rfl
  | cons e t ih =>
    rw [Sparse.get, if_neg (h e (.head _)).symm]
    exact ih fun x hx => h x (.tail _ hx)

/-- A flat index that is not listed reads as the default. -/
theorem Reg.get_of_not_listed {r : Reg} (hid : r.id < 4096) {m : Sparse Word} {i : Nat} (hi : i < 2 ^ 20) (h : i ∉ r.listed m)
    (dflt : Word) : Sparse.get dflt m (r.keyAt i) = dflt := by
  refine Sparse.get_of_not_mem dflt fun e he hk => h (List.mem_map.2 ⟨e, List.mem_filter.2 ⟨he, ?_⟩, ?_⟩)
  · have hwin : keyWin e.1 = r.win := by rw [hk, keyWin, Reg.keyAt]; omega
    have hnum : keyId e.1 = r.id := by rw [hk, keyId, Reg.keyAt]; omega
    simp [hwin, hnum]
  · rw [hk, keyFlat, Reg.keyAt]
    omega

/-! ## The average of a queue (R162) -/

/-- The queues that WRED_AVG_UPDATE visits: those with a copy, and those with an average. -/
def Dev.avgQueues (d : Dev) : List Nat :=
  ((d.dp.copies.filter (fun c => isVoq c.queue)).map (fun c => eqOf c.queue) ++ R.QRY_Q_AVG.listed d.regs).eraseDups

/-- avg + floor((depth − avg) / 2^W) of egress queue `e`, which is queue e mod 12 of port e / 12. -/
def Dev.avgNext (d : Dev) (e : Nat) : Int :=
  let a : Int := d.rd F.QRY_Q_AVG_CELLS [e / 12, e % 12]
  a + ((d.queueDepth (e / 12) (e % 12) : Int) - a) / (2 ^ d.cm F.QRY_Q_CFG_AVG_W [e / 12, e % 12] : Nat)

/-- The average of queue `e` is updated. -/
def Dev.avgStep (d : Dev) (e : Nat) : Dev := d.wr F.QRY_Q_AVG_CELLS [e / 12, e % 12] (d.avgNext e).toNat

theorem exec_wredAvgUpdate (s : State) : exec .wredAvgUpdate s = s.run (fun d => d.avgQueues.foldl Dev.avgStep d) := rfl

theorem nodup_eraseDups {α : Type} [BEq α] [LawfulBEq α] (l : List α) : l.eraseDups.Nodup := by
  induction h : l.length using Nat.strong_induction_on generalizing l with
  | _ n ih =>
    cases l with
    | nil => simp
    | cons a t =>
      have hlen := List.length_filter_le (fun b => !b == a) t
      rw [List.length_cons] at h
      rw [List.eraseDups_cons, List.nodup_cons, List.mem_eraseDups]
      exact ⟨by simp, ih _ (by omega) _ rfl⟩

theorem Dev.lt_of_mem_avgQueues {d : Dev} {e : Nat} (h : e ∈ d.avgQueues) : e < 2 ^ 20 := by
  rcases List.mem_append.1 (List.mem_eraseDups.1 h) with h | h
  · obtain ⟨c, _, rfl⟩ := List.mem_map.1 h
    exact (Nat.mod_lt _ (by norm_num)).trans (by norm_num : 12288 < 2 ^ 20)
  · exact Reg.lt_of_mem_listed h

theorem key_queueAvg (e : Nat) : R.QRY_Q_AVG.key [e / 12, e % 12] = R.QRY_Q_AVG.keyAt e := by
  have : flatIndex R.QRY_Q_AVG.dims [e / 12, e % 12] 0 = e := by
    simp only [R.QRY_Q_AVG, flatIndex]
    omega
  rw [Reg.key, this]

theorem sumBy_eq_zero {α : Type} {l : List α} {f : α → Nat} (h : ∀ x ∈ l, f x = 0) : sumBy l f = 0 :=
  foldl_proj_mem id _ l (fun x hx a => by simp [h x hx]) 0

section Average

variable {d : Dev} {e : Nat}

/-- The average never falls below 0. -/
theorem Dev.avgNext_nonneg (d : Dev) (e : Nat) : 0 ≤ d.avgNext e := by
  rw [Dev.avgNext]
  generalize d.rd F.QRY_Q_AVG_CELLS [e / 12, e % 12] = a
  generalize d.queueDepth (e / 12) (e % 12) = n
  generalize d.cm F.QRY_Q_CFG_AVG_W [e / 12, e % 12] = w
  have hpos : 0 < 2 ^ w := Nat.two_pow_pos w
  have hle : -(a : Int) ≤ ((n : Int) - a) / (2 ^ w : Nat) := by
    refine Int.le_ediv_of_mul_le (by exact_mod_cast hpos) ?_
    have : a * 1 ≤ a * 2 ^ w := Nat.mul_le_mul_left a hpos
    push_cast
    nlinarith
  omega

/-- A queue that is not visited has average 0. -/
theorem Dev.avg_of_not_visited (he : e < 2 ^ 20) (h : e ∉ d.avgQueues) : d.rd F.QRY_Q_AVG_CELLS [e / 12, e % 12] = 0 := by
  have hlisted : e ∉ R.QRY_Q_AVG.listed d.regs := fun hl => h (List.mem_eraseDups.2 (List.mem_append_right _ hl))
  have hraw : d.raw R.QRY_Q_AVG [e / 12, e % 12] = 0 := by
    rw [Dev.raw, key_queueAvg, Reg.get_of_not_listed (by decide) he hlisted]
    simp [Reg.resetWord, Reg.resetAt, R.QRY_Q_AVG, Rst.at, setBitsOf]
  rw [Dev.rd, show F.QRY_Q_AVG_CELLS.reg = R.QRY_Q_AVG from rfl, hraw, bitsOf_zero]

/-- A queue that is not visited holds no cell. -/
theorem Dev.queueDepth_of_not_visited (h : e ∉ d.avgQueues) : d.queueDepth (e / 12) (e % 12) = 0 := by
  refine sumBy_eq_zero fun c hc => if_neg fun hq => h (List.mem_eraseDups.2 (List.mem_append_left _ ?_))
  obtain ⟨hv, heq⟩ := Bool.and_eq_true_iff.1 hq
  exact List.mem_map.2 ⟨c, List.mem_filter.2 ⟨hc, hv⟩, by rw [beq_iff_eq.1 heq]; omega⟩

/-- So its average stays as it is. -/
theorem Dev.avgNext_of_not_visited (he : e < 2 ^ 20) (h : e ∉ d.avgQueues) : d.avgNext e = 0 := by
  rw [Dev.avgNext, Dev.avg_of_not_visited he h, Dev.queueDepth_of_not_visited h]
  simp

theorem Dev.avgStep_dp (d : Dev) (a : Nat) : (d.avgStep a).dp = d.dp := by
  rw [Dev.avgStep, Dev.wr_dp]

theorem Dev.avgStep_comm (d : Dev) (a : Nat) : (d.avgStep a).comm = d.comm := by
  rw [Dev.avgStep, Dev.wr_comm]

theorem Dev.raw_avgStep_of_key {r : Reg} {ix : List Nat} (h : ∀ jx, r.key ix ≠ R.QRY_Q_AVG.key jx) (d : Dev) (a : Nat) :
    (d.avgStep a).raw r ix = d.raw r ix := d.raw_wr_of_key _ _ _ _ _ (h _)

theorem Dev.avg_avgStep_self (d : Dev) (e : Nat) :
    (d.avgStep e).rd F.QRY_Q_AVG_CELLS [e / 12, e % 12] = (d.avgNext e).toNat % 2 ^ 21 :=
  d.rd_wr_self F.QRY_Q_AVG_CELLS _ _ (by decide) (by decide)

theorem Dev.avg_avgStep_other {a : Nat} (ha : a < 2 ^ 20) (he : e < 2 ^ 20) (h : e ≠ a) :
    (d.avgStep a).rd F.QRY_Q_AVG_CELLS [e / 12, e % 12] = d.rd F.QRY_Q_AVG_CELLS [e / 12, e % 12] := by
  refine d.rd_wr_of_key _ _ _ _ _ fun hk => h ?_
  rw [show F.QRY_Q_AVG_CELLS.reg = R.QRY_Q_AVG from rfl, key_queueAvg, key_queueAvg] at hk
  exact R.QRY_Q_AVG.keyAt_inj he ha hk

theorem Dev.avgNext_avgStep_other {a : Nat} (ha : a < 2 ^ 20) (he : e < 2 ^ 20) (h : e ≠ a) :
    (d.avgStep a).avgNext e = d.avgNext e := by
  simp only [Dev.avgNext, Dev.avg_avgStep_other ha he h, Dev.queueDepth, Dev.cellsWhere, Dev.avgStep_dp, Dev.cm, Dev.rawC,
    Dev.avgStep_comm]

/-- A pass over different queues updates each from the state before the pass. -/
theorem Dev.avg_foldl {l : List Nat} (hl : ∀ a ∈ l, a < 2 ^ 20) (hn : l.Nodup) (he : e < 2 ^ 20) :
    (l.foldl Dev.avgStep d).rd F.QRY_Q_AVG_CELLS [e / 12, e % 12] =
      if e ∈ l then (d.avgNext e).toNat % 2 ^ 21 else d.rd F.QRY_Q_AVG_CELLS [e / 12, e % 12] := by
  induction l generalizing d with
  | nil => rfl
  | cons a t ih =>
    obtain ⟨ha, ht⟩ := List.forall_mem_cons.1 hl
    obtain ⟨hat, hnt⟩ := List.nodup_cons.1 hn
    rw [List.foldl_cons, ih ht hnt]
    by_cases h : e = a
    · subst h
      rw [if_neg hat, if_pos (.head _), Dev.avg_avgStep_self]
    · simp only [List.mem_cons, h, false_or, Dev.avgNext_avgStep_other ha he h, Dev.avg_avgStep_other ha he h]

/-- WRED_AVG_UPDATE makes the average of every queue the next one, visited or not. -/
theorem Dev.avg_update (he : e < 2 ^ 20) :
    ((d.avgQueues.foldl Dev.avgStep d).rd F.QRY_Q_AVG_CELLS [e / 12, e % 12] : Int) = d.avgNext e % 2 ^ 21 := by
  rw [Dev.avg_foldl (fun _ => Dev.lt_of_mem_avgQueues) (nodup_eraseDups _) he]
  split
  next => rw [Int.natCast_mod, Int.toNat_of_nonneg (d.avgNext_nonneg e)]; rfl
  next h => rw [Dev.avg_of_not_visited he h, Dev.avgNext_of_not_visited he h]; rfl

end Average

/-! ## XOFF of a priority (R165) -/

/-- A port that wakes from LPI changes its own state and what has been sent, and nothing else. -/
theorem Dev.wakeLpi_eq (d : Dev) (p : Nat) : ∃ l x, d.wakeLpi p = { d with out := d.out ++ l, phy := x } := by
  unfold Dev.wakeLpi
  split
  · obtain ⟨l, hl⟩ := d.portSignal_eq p .lpi (d.port p).txLpi false
    rw [Dev.setTxLpi, hl]
    exact ⟨l, _, rfl⟩
  · exact ⟨[], d.phy, by rw [List.append_nil]⟩

/-- A change of XOFF writes QRY_PFC_STAT, and changes what the port owes and whether it sleeps. -/
theorem Dev.setXoff_eq {d : Dev} {i g : Nat} {b : Bool} (h : d.xoff i g ≠ b) : ∃ l x y, d.setXoff i g b =
    { d.wr F.QRY_PFC_STAT_XOFF [i] (putBit (d.rd F.QRY_PFC_STAT_XOFF [i]) g b) with
      out := d.out ++ l, phy := x, dp := { d.dp with egr := y } } := by
  rw [Dev.setXoff, if_neg h]
  obtain ⟨l, x, hwake⟩ := Dev.wakeLpi_eq _ i
  exact ⟨l, x, _, hwake⟩

theorem Dev.setXoff_same {d : Dev} {i g : Nat} {b : Bool} (h : d.xoff i g = b) : d.setXoff i g b = d := if_pos h

/-- `e` is `d` but for QRY_PFC_STAT, what ports owe and send, and whether they sleep: what a change of XOFF leaves alone. -/
structure XoffFrame (d e : Dev) : Prop where
  comm : e.comm = d.comm
  rst : e.rst = d.rst
  pkts : e.dp.pkts = d.dp.pkts
  copies : e.dp.copies = d.dp.copies
  raw : ∀ r ix, (∀ jx, r.key ix ≠ R.QRY_PFC_STAT.key jx) → e.raw r ix = d.raw r ix

theorem Dev.xoffFrame_setXoff (d : Dev) (i g : Nat) (b : Bool) : XoffFrame d (d.setXoff i g b) := by
  by_cases h : d.xoff i g = b
  · rw [Dev.setXoff_same h]
    exact ⟨rfl, rfl, rfl, rfl, fun _ _ _ => rfl⟩
  · obtain ⟨l, x, y, hset⟩ := Dev.setXoff_eq h
    rw [hset]
    exact ⟨rfl, rfl, rfl, rfl, fun r ix hr => d.raw_wr_of_key F.QRY_PFC_STAT_XOFF r [i] ix _ (hr [i])⟩

section XoffFrame

variable {d e : Dev} (h : XoffFrame d e)

include h

theorem XoffFrame.cm (f : Fld) (ix : List Nat) : e.cm f ix = d.cm f ix := by
  rw [Dev.cm, Dev.rawC, h.comm, ← Dev.rawC, ← Dev.cm]

theorem XoffFrame.pfcEn (i g : Nat) : e.pfcEn i g = d.pfcEn i g := by
  rw [Dev.pfcEn, h.cm, ← Dev.pfcEn]

theorem XoffFrame.groupLive : e.groupLive = d.groupLive := by
  funext n
  have hraw : ∀ ix, e.raw R.GLB_PD_ON ix = d.raw R.GLB_PD_ON ix := fun ix =>
    h.raw _ _ fun jx => Reg.key_ne ix jx (by decide) (by decide) (by decide)
  have hdom : ∀ k, e.domOn k = d.domOn k := fun k => congrArg (fun v => bitAt (bitsOf v _ _) (k % 32)) (hraw [k / 32])
  rw [Dev.groupLive, hdom, h.rst, ← Dev.groupLive]

theorem XoffFrame.poolS : e.poolS = d.poolS := by
  simp only [Dev.poolS, Dev.cAlloc, h.groupLive, Dev.poolOther, Dev.sumCommitted, h.comm, h.cm]

theorem XoffFrame.poolU : e.poolU = d.poolU := by
  rw [Dev.poolU, h.pkts, ← Dev.poolU]

theorem XoffFrame.ingCharge : e.ingCharge = d.ingCharge := by
  funext i g
  rw [Dev.ingCharge, Dev.charged, h.copies, ← Dev.charged, ← Dev.ingCharge]

theorem XoffFrame.hdrmCharge : e.hdrmCharge = d.hdrmCharge := by
  funext i g
  rw [Dev.hdrmCharge, Dev.charged, h.copies, ← Dev.charged, ← Dev.hdrmCharge]

end XoffFrame

/-- A change of XOFF is seen in its own priority alone. -/
theorem Dev.xoff_setXoff (d : Dev) {i g j k : Nat} (hi : i < 2 ^ 20) (hj : j < 2 ^ 20) (hk : k < 8) (b : Bool) :
    (d.setXoff i g b).xoff j k = if j = i ∧ k = g then b else d.xoff j k := by
  by_cases h : d.xoff i g = b
  · rw [Dev.setXoff_same h]
    split
    next heq => rw [heq.1, heq.2, h]
    next => rfl
  obtain ⟨l, x, y, hset⟩ := Dev.setXoff_eq h
  have hrd : (d.setXoff i g b).rd F.QRY_PFC_STAT_XOFF [j] =
      (d.wr F.QRY_PFC_STAT_XOFF [i] (putBit (d.rd F.QRY_PFC_STAT_XOFF [i]) g b)).rd F.QRY_PFC_STAT_XOFF [j] := by
    rw [hset]
    rfl
  rw [Dev.xoff, hrd]
  by_cases hij : j = i
  · subst hij
    have hfield : ∀ v, bitAt (v % 2 ^ 8) k = bitAt v k := fun v => by
      simp only [bitAt_eq_testBit, Nat.testBit_mod_two_pow, hk, decide_true, Bool.true_and]
    rw [d.rd_wr_self F.QRY_PFC_STAT_XOFF _ _ (by decide) (by decide)]
    exact (hfield _).trans ((bitAt_putBit _ _ _ _).trans (by simp only [true_and, Dev.xoff]))
  · rw [if_neg (fun h => hij h.1), Dev.xoff, d.rd_wr_of_key F.QRY_PFC_STAT_XOFF F.QRY_PFC_STAT_XOFF]
    intro hk
    rw [show F.QRY_PFC_STAT_XOFF.reg = R.QRY_PFC_STAT from rfl, Reg.key_row rfl, Reg.key_row rfl] at hk
    exact hij (R.QRY_PFC_STAT.keyAt_inj hj hi hk)

/-- X of R165, which the shared cells from port i are held against. -/
def Dev.xoffLimit (d : Dev) (i : Nat) : Nat := scaled d.poolS d.poolU (d.cm F.QRY_PFC_CFG_PFC_ALPHA [i])

/-- XOFF of (i, g) by R165, from what it was: raised, let fall or kept where the priority is lossless, and kept where it is
not. -/
def Dev.xoffRule (d : Dev) (i g : Nat) (was : Bool) : Bool :=
  if d.pfcEn i g = false then was
  else if d.xoffLimit i ≤ d.ingCharge i g ∨ 0 < d.hdrmCharge i g then true
  else if d.ingCharge i g + d.cm F.QRY_HDRM_XON_DELTA [i, g] ≤ d.xoffLimit i then false
  else was

theorem XoffFrame.xoffRule {d e : Dev} (h : XoffFrame d e) : e.xoffRule = d.xoffRule := by
  funext i g was
  have hlimit : e.xoffLimit i = d.xoffLimit i := by rw [Dev.xoffLimit, h.poolS, h.poolU, h.cm, ← Dev.xoffLimit]
  rw [Dev.xoffRule, hlimit, h.pfcEn, h.cm, h.ingCharge, h.hdrmCharge, ← Dev.xoffRule]

/-- Evaluated again at once, XOFF stays. -/
theorem Dev.xoffRule_idem (d : Dev) (i g : Nat) (was : Bool) : d.xoffRule i g (d.xoffRule i g was) = d.xoffRule i g was := by
  unfold Dev.xoffRule
  split_ifs <;> rfl

section XoffRule

variable {d : Dev} {i g : Nat} {was : Bool}

theorem Dev.xoffRule_off (h : d.pfcEn i g = false) : d.xoffRule i g was = was := if_pos h

theorem Dev.xoffRule_raised (h : d.pfcEn i g = true) (hx : d.xoffLimit i ≤ d.ingCharge i g ∨ 0 < d.hdrmCharge i g) :
    d.xoffRule i g was = true := by
  simp only [Dev.xoffRule, h, hx, Bool.true_eq_false, if_false, if_true]

theorem Dev.xoffRule_fallen (h : d.pfcEn i g = true) (hlt : d.ingCharge i g < d.xoffLimit i)
    (hle : d.ingCharge i g + d.cm F.QRY_HDRM_XON_DELTA [i, g] ≤ d.xoffLimit i) (h0 : d.hdrmCharge i g = 0) :
    d.xoffRule i g was = false := by
  simp [Dev.xoffRule, h, hlt.not_ge, hle, h0]

theorem Dev.xoffRule_between (h : d.pfcEn i g = true) (hlt : d.ingCharge i g < d.xoffLimit i)
    (hgt : d.xoffLimit i < d.ingCharge i g + d.cm F.QRY_HDRM_XON_DELTA [i, g]) (h0 : d.hdrmCharge i g = 0) :
    d.xoffRule i g was = was := by
  simp [Dev.xoffRule, h, hlt.not_ge, hgt.not_ge, h0]

end XoffRule

/-! ## The pass of PFC_EVAL -/

/-- The priorities that PFC_EVAL visits: all eight of every port whose QRY_PFC_CFG has been committed. -/
def Dev.pfcPriorities (d : Dev) : List (Nat × Nat) := (R.QRY_PFC_CFG.listed d.comm) ×ˢ (List.range 8)

/-- XOFF of a priority evaluated where it is lossless. -/
def Dev.pfcStep (d : Dev) (x : Nat × Nat) : Dev := if d.pfcEn x.1 x.2 then d.evalXoff x.1 x.2 else d

theorem exec_pfcEval (s : State) : exec .pfcEval s = s.run (fun d => d.pfcPriorities.foldl Dev.pfcStep d) := by
  have hpass : ∀ d : Dev, d.pfcPriorities.foldl Dev.pfcStep d =
      (R.QRY_PFC_CFG.listed d.comm).foldl (fun d i => (List.range 8).foldl (fun d g => d.pfcStep (i, g)) d) d := fun d => by
    simp only [Dev.pfcPriorities, SProd.sprod, List.product, List.foldl_flatMap, List.foldl_map]
  simp only [hpass]
  rfl

/-- That is XOFF set by the rule. -/
theorem Dev.pfcStep_eq (d : Dev) (i g : Nat) : d.pfcStep (i, g) = d.setXoff i g (d.xoffRule i g (d.xoff i g)) := by
  cases hen : d.pfcEn i g with
  | false => rw [Dev.xoffRule_off hen, Dev.setXoff_same rfl, Dev.pfcStep, if_neg (ne_true_of_eq_false hen)]
  | true =>
    rw [Dev.pfcStep, if_pos hen, Dev.evalXoff, if_neg (by simp [hen]), ← Dev.xoffLimit]
    dsimp only
    by_cases hx : d.xoffLimit i ≤ d.ingCharge i g ∨ 0 < d.hdrmCharge i g
    · rw [Dev.xoffRule_raised hen hx, if_pos (by simpa [Nat.pos_iff_ne_zero] using hx)]
    obtain ⟨hlt, h0⟩ : d.ingCharge i g < d.xoffLimit i ∧ d.hdrmCharge i g = 0 := by omega
    rw [if_neg (by simp [hlt, h0])]
    by_cases hle : d.ingCharge i g + d.cm F.QRY_HDRM_XON_DELTA [i, g] ≤ d.xoffLimit i
    · rw [Dev.xoffRule_fallen hen hlt hle h0, if_pos (by simp [hle, h0])]
    · rw [Dev.xoffRule_between hen hlt (not_le.1 hle) h0, Dev.setXoff_same rfl, if_neg (by simp [hle])]

theorem Dev.xoffFrame_pfcStep (d : Dev) (x : Nat × Nat) : XoffFrame d (d.pfcStep x) := by
  rw [Dev.pfcStep_eq]
  exact d.xoffFrame_setXoff _ _ _

theorem Dev.pfcPriorities_bounds {d : Dev} {x : Nat × Nat} (h : x ∈ d.pfcPriorities) : x.1 < 2 ^ 20 ∧ x.2 < 8 := by
  obtain ⟨hi, hg⟩ := List.mem_product.1 h
  exact ⟨Reg.lt_of_mem_listed hi, List.mem_range.1 hg⟩

/-- A lossless priority is visited: EN resets to 0. -/
theorem Dev.mem_pfcPriorities {d : Dev} {i g : Nat} (hi : i < 2 ^ 20) (hg : g < 8) (h : d.pfcEn i g = true) :
    (i, g) ∈ d.pfcPriorities := by
  refine List.mem_product.2 ⟨by_contra fun hl => ?_, List.mem_range.2 hg⟩
  have hen : d.cm F.QRY_PFC_CFG_EN [i] = 0 := by
    rw [Dev.cm, Dev.rawC, show F.QRY_PFC_CFG_EN.reg = R.QRY_PFC_CFG from rfl, Reg.key_row rfl,
      Reg.get_of_not_listed (by decide) hi hl]
    simp [Reg.resetWord, Reg.resetAt, R.QRY_PFC_CFG, Rst.at, setBitsOf, bitsOf, F.QRY_PFC_CFG_EN]
  simp [Dev.pfcEn, hen, bitAt] at h

section PfcPass

variable {d : Dev} {i g : Nat} (hi : i < 2 ^ 20) (hg : g < 8)

include hi hg

theorem Dev.xoff_pfcStep {x : Nat × Nat} (hx : x.1 < 2 ^ 20) :
    (d.pfcStep x).xoff i g = if (i, g) = x then d.xoffRule i g (d.xoff i g) else d.xoff i g := by
  obtain ⟨j, k⟩ := x
  rw [Dev.pfcStep_eq, Dev.xoff_setXoff _ hx hi hg]
  simp only [Prod.mk.injEq]
  split
  next h => rw [h.1, h.2]
  next => rfl

/-- A pass decides every priority that it visits, however often, by the conditions that stood before it. -/
theorem Dev.xoff_foldl {l : List (Nat × Nat)} (hl : ∀ x ∈ l, x.1 < 2 ^ 20) :
    (l.foldl Dev.pfcStep d).xoff i g = if (i, g) ∈ l then d.xoffRule i g (d.xoff i g) else d.xoff i g := by
  induction l generalizing d with
  | nil => rfl
  | cons x t ih =>
    obtain ⟨hx, ht⟩ := List.forall_mem_cons.1 hl
    rw [List.foldl_cons, ih ht, (d.xoffFrame_pfcStep x).xoffRule, Dev.xoff_pfcStep hi hg hx]
    by_cases h : (i, g) = x
    · simp only [h, List.mem_cons, true_or, if_true, Dev.xoffRule_idem, ite_self]
    · simp only [h, List.mem_cons, false_or, if_false]

/-- PFC_EVAL decides every priority by R165, visited or not. -/
theorem Dev.xoff_pfcPass : (d.pfcPriorities.foldl Dev.pfcStep d).xoff i g = d.xoffRule i g (d.xoff i g) := by
  rw [Dev.xoff_foldl hi hg fun x hx => (Dev.pfcPriorities_bounds hx).1]
  cases hen : d.pfcEn i g with
  | false => rw [Dev.xoffRule_off hen, ite_self]
  | true => exact if_pos (Dev.mem_pfcPriorities hi hg hen)

end PfcPass

/-! ## PFC frames (R166) -/

theorem Dev.out_sendPfc (d : Dev) (p : Nat) : (d.sendPfc p).out = d.out ++ [.control p (d.pfcFrame p)] :=
  congrArg Prod.snd (Dev.sent_pmc (d.emit (.control p (d.pfcFrame p))) (64 + p / 32) 0x21 1)

theorem Dev.egrPort_setEgrPort_self (d : Dev) (p : Nat) (x : EgrPort) : (d.setEgrPort p x).egrPort p = x :=
  Sparse.get_set_self _ _ _ _

/-- The port owes nothing once it has sent. -/
theorem Dev.egrPort_sendPfc (d : Dev) (p : Nat) :
    ((d.sendPfc p).egrPort p).pfcDue = false ∧ ((d.sendPfc p).egrPort p).pfcFell = 0 := by
  simp only [Dev.sendPfc, Dev.egrPort_setEgrPort_self, and_self]

/-! ## The commands -/

section Commands

variable {s : State} (hl : Live s)

include hl

theorem runs_copyAbandon {u : Nat} {p : Pkt} (hp : s.dev.pkt u = some p) (hcopy : p.kind.isCopy = true) (hopen : p.open_ = true)
    (hsafe : s.dev.safe = false) (hfull : s.dev.poolS < s.dev.poolU + 1) :
    Runs (.copyAbandon u) s ((s.dev.copyDrop p).dropPkt p.uid) :=
  Runs.of_run hl rfl (by simp [hp, hcopy, hopen, hsafe, hfull, Dev.abandon])

theorem runs_ctCandidate {u : Nat} {p q : Pkt} {more : List Byte} {c : Copy} (hp : s.dev.pkt u = some p) (hkind : p.kind = .frame)
    (hct : p.ct = true) (hended : p.ended = false) (hsafe : s.dev.safe = false) (hq : (s.dev.arrive u more false).pkt u = some q)
    (hc : (s.dev.arrive u more false).dp.copies.find? (fun c => c.pkt == u) = some c) (hready : ctReady q = true) :
    Runs (.ctCandidate u more) s
      (wakeQueues s.dev ((s.dev.arrive u more false).modCopy c.uid (fun c => { c with ready := true })) [eqOf c.queue]) :=
  Runs.of_run hl rfl (by simp [hp, hkind, hct, hended, hsafe, hq, hc, hready])

/-- A frame stored and forwarded only grows. -/
theorem runs_ctCandidate_stored {u : Nat} {p : Pkt} (more : List Byte) (hp : s.dev.pkt u = some p) (hkind : p.kind = .frame)
    (hct : p.ct = false) (hended : p.ended = false) (hsafe : s.dev.safe = false) :
    Runs (.ctCandidate u more) s (s.dev.arrive u more false) := by
  refine Runs.of_run hl rfl ?_
  simp only [hp, hkind, hct, hended, hsafe, bne_self_eq_false, Bool.or_self, Bool.false_and, Bool.false_eq_true, if_false]
  split <;> rfl

theorem runs_ctStomp {u : Nat} {c : Copy} (hc : s.dev.copy u = some c) (hloc : c.loc = .sending)
    (harr : s.dev.arriving c = true) : Runs (.ctStomp u) s (s.dev.ctSent c false false) :=
  Runs.of_run hl rfl (by simp [hc, hloc, harr])

theorem runs_wredAvgUpdate : Runs .wredAvgUpdate s (s.dev.avgQueues.foldl Dev.avgStep s.dev) :=
  Runs.of_run hl (exec_wredAvgUpdate s) rfl

theorem runs_pfcEval : Runs .pfcEval s (s.dev.pfcPriorities.foldl Dev.pfcStep s.dev) :=
  Runs.of_run hl (exec_pfcEval s) rfl

theorem runs_pfcFrameSend {p : Fin 1024} (hdue : (s.dev.egrPort p.val).pfcDue = true) (hup : s.dev.linkUp p.val = true)
    (hmay : s.dev.mayTransmit p.val = true) : Runs (.pfcFrameSend p) s (s.dev.sendPfc p.val) :=
  Runs.of_run hl rfl (by simp [hdue, hup, hmay])

theorem runs_pfcResend {p : Fin 1024} (hx : s.dev.rd F.QRY_PFC_STAT_XOFF [p.val] ≠ 0) (hup : s.dev.linkUp p.val = true)
    (hmay : s.dev.mayTransmit p.val = true) : Runs (.pfcResend p) s (s.dev.sendPfc p.val) :=
  Runs.of_run hl rfl (by simp [hx, hup, hmay])

end Commands

/-- Settles O27: each command by the branch that its conditions choose; averages and XOFF by what their passes leave of one queue
and one priority. -/
theorem quarryEvaluations : Obligations.QuarryEvaluations := by
  unfold Obligations.QuarryEvaluations
  intro s hl
  have hxoff : ∀ i g, i < 1024 → g < 8 → (Dev.latched s.dev (s.dev.pfcPriorities.foldl Dev.pfcStep s.dev)).xoff i g =
      s.dev.xoffRule i g (s.dev.xoff i g) := fun i g hi hg => by
    rw [Dev.xoff, Dev.rd_latched _ _ _ hl.2, ← Dev.xoff, Dev.xoff_pfcPass (by omega) hg]
  refine ⟨fun _ _ => runs_copyAbandon hl, fun _ _ _ _ _ => runs_ctCandidate hl, fun _ _ more => runs_ctCandidate_stored hl more,
    fun _ _ => runs_ctStomp hl, ⟨_, runs_wredAvgUpdate hl, foldl_proj Dev.dp _ Dev.avgStep_dp _ _, ?average, ?otherThanAvg⟩,
    ⟨_, runs_pfcEval hl, foldl_proj (fun e : Dev => e.dp.copies) _ (fun d x => (d.xoffFrame_pfcStep x).copies) _ _, ?lossless,
      fun i g hi hg hen => (hxoff i g hi hg).trans (Dev.xoffRule_off hen), ?otherThanXoff⟩,
    fun p hdue hup hmay => ⟨_, runs_pfcFrameSend hl hdue hup hmay, s.dev.out_sendPfc p.val, s.dev.egrPort_sendPfc p.val⟩,
    fun p hx hup hmay => ⟨_, runs_pfcResend hl hx hup hmay, s.dev.out_sendPfc p.val⟩⟩
  case average =>
    intro p q hp hq avg
    have hnext := Dev.avg_update (d := s.dev) (e := 12 * p + q) (by omega)
    rw [Dev.avgNext, show (12 * p + q) / 12 = p by omega, show (12 * p + q) % 12 = q by omega] at hnext
    rw [Dev.rd_latched _ _ _ hl.2, hnext]
    push_cast
    rfl
  case otherThanAvg =>
    intro r ix hr
    rw [Dev.raw_latched _ _ _ hl.2]
    exact foldl_proj (fun e : Dev => e.raw r ix) _ (Dev.raw_avgStep_of_key hr) _ _
  case lossless =>
    intro i g hi hg hen a x ing
    have hx : x = s.dev.xoffLimit i := rfl
    rw [hx, hxoff i g hi hg]
    exact ⟨Dev.xoffRule_raised hen, Dev.xoffRule_fallen hen, Dev.xoffRule_between hen⟩
  case otherThanXoff =>
    intro r ix hr
    rw [Dev.raw_latched _ _ _ hl.2]
    exact foldl_proj (fun e : Dev => e.raw r ix) _ (fun d x => (d.xoffFrame_pfcStep x).raw r ix hr) _ _

end Sys2Proof.Machine

/-!
PROOFS of the statements of spec/06_sump_deep_store.md: the traffic of the Sump, and the CXL root ports. What a command leaves of the
parts that a statement names comes before the commands.
-/

namespace Sys2Proof.Machine

/-! ## What counts and charges leave of the outputs and of the deep store -/

theorem Dev.sump_of_kept {d e : Dev} (h : e.kept = d.kept) : e.sump = d.sump := congrArg (fun x => x.2.2.2.2.1) h

@[simp] theorem Dev.pmc_sump (d : Dev) (u code n : Nat) : (d.pmc u code n).sump = d.sump := Dev.sump_of_kept (d.kept_pmc u code n)

@[simp] theorem Dev.charge_sump (d : Dev) (j : Option Nat) (i n : Nat) : (d.charge j i n).sump = d.sump :=
  Dev.sump_of_kept (d.kept_charge j i n)

@[simp] theorem Dev.pmc_out (d : Dev) (u code n : Nat) : (d.pmc u code n).out = d.out := congrArg Prod.snd (d.sent_pmc u code n)

@[simp] theorem Dev.charge_out (d : Dev) (j : Option Nat) (i n : Nat) : (d.charge j i n).out = d.out := by
  cases j <;> rfl

/-- Filling the buckets changes the state of the Sump alone. -/
theorem Dev.fillBuckets_eq (d : Dev) : ∃ x, d.fillBuckets = { d with sump := x } := ⟨_, rfl⟩

theorem Dev.out_batchBoundary (d : Dev) : d.batchBoundary.out = d.out := by
  rw [Dev.batchBoundary, Dev.smpRates, Dev.wr_out, Dev.wr_out]

/-- A look at the buckets sends nothing. -/
theorem Dev.out_looked (d : Dev) : d.fillBuckets.batchBoundary.out = d.out := by
  obtain ⟨x, h⟩ := d.fillBuckets_eq
  rw [Dev.out_batchBoundary, h]

/-! ## Batches and extents (R185, R189) -/

/-- A batch lies in its context: changing it changes the contexts alone. -/
theorem Dev.modBatch_eq (d : Dev) (n seq : Nat) (f : Batch → Batch) :
    ∃ l, d.modBatch n seq f = { d with sump := { d.sump with ctxs := l } } := by
  unfold Dev.modBatch
  split
  · exact ⟨_, rfl⟩
  · exact ⟨_, rfl⟩

@[simp] theorem Dev.readForWrite_sump (d : Dev) (x : Ctx) (b : Batch) : (d.readForWrite x b).sump = d.sump :=
  (Dev.charge_sump _ _ _ _).trans (foldl_proj Dev.sump _ (fun e _ => e.pmc_sump _ _ _) _ d)

@[simp] theorem Dev.readForWrite_out (d : Dev) (x : Ctx) (b : Batch) : (d.readForWrite x b).out = d.out :=
  (Dev.charge_out _ _ _ _).trans (foldl_proj Dev.out _ (fun e _ => e.pmc_out _ _ _) _ d)

/-- The extent that a context's chain has for the group of a batch. -/
def Ctx.extentFor (x : Ctx) (seq : Nat) : Nat := ((x.chain.find? (fun g => g.1 == groupOf seq)).map (fun g => g.2)).getD 0

theorem Ctx.extentFor_mem {x : Ctx} {seq : Nat} (h : ∃ g ∈ x.chain, g.1 = groupOf seq) :
    (groupOf seq, x.extentFor seq) ∈ x.chain := by
  obtain ⟨g, hg, hseq⟩ := h
  cases hf : x.chain.find? (fun g => g.1 == groupOf seq) with
  | none => exact absurd (beq_iff_eq.2 hseq) (List.find?_eq_none.1 hf g hg)
  | some a =>
    have ha : a.1 = groupOf seq := by simpa using List.find?_some hf
    rw [Ctx.extentFor, hf, ← ha]
    exact List.mem_of_find?_eq_some hf

/-- A context that has, or gets, an extent for a group has it in its chain; its VOQ and number stay, and nothing is sent. -/
theorem Dev.takeExtent_found {d e : Dev} {x y : Ctx} {g : Nat} (h : d.takeExtent x g = (e, y, true)) :
    (∃ a ∈ y.chain, a.1 = g) ∧ y.voq = x.voq ∧ y.num = x.num ∧ e.out = d.out := by
  unfold Dev.takeExtent at h
  split at h
  next hany =>
    cases h
    exact ⟨by simpa using hany, rfl, rfl, rfl⟩
  · split at h
    · cases h
      exact ⟨⟨_, List.mem_append_right _ (.head _), rfl⟩, rfl, rfl, rfl⟩
    · cases h

/-- Batch `b` issued for its write from device `e`, in which context `x` has an extent for it; `t` waits behind it. -/
def Dev.writeIssued (e : Dev) (x : Ctx) (b : Batch) (n seq : Nat) (t : List (Nat × Nat)) : Dev :=
  let ext := x.extentFor seq
  let k := e.extentPort ext
  let d := e.free.2.setCtx x
  let d := { d with sump := { d.sump with queue := t, wrBucket := d.sump.wrBucket - b.bytes * 1000 } }
  let d := (d.modBatch n seq (fun b => { b with at_ := .writing, extent := some ext })).readForWrite x b
  ((d.emit (.cxlWrite k ext b.bytes (e.free.2.slotImage x b e.free.1.toNat))).charge none 4 b.bytes).pmc (108 + k) 0x59
    (ceilDiv b.bytes 64)

theorem Dev.writeIssued_parts (e : Dev) (x : Ctx) (b : Batch) (n seq : Nat) (t : List (Nat × Nat)) :
    (e.writeIssued x b n seq t).sump.queue = t ∧
      (e.writeIssued x b n seq t).out = e.out ++ [.cxlWrite (e.extentPort (x.extentFor seq)) (x.extentFor seq) b.bytes
        (e.free.2.slotImage x b e.free.1.toNat)] := by
  unfold Dev.writeIssued
  obtain ⟨l, hmod⟩ := Dev.modBatch_eq { e.free.2.setCtx x with
    sump := { (e.free.2.setCtx x).sump with queue := t, wrBucket := (e.free.2.setCtx x).sump.wrBucket - b.bytes * 1000 } } n seq
    (fun b => { b with at_ := .writing, extent := some (x.extentFor seq) })
  refine ⟨by simp [hmod], ?_⟩
  simp only [Dev.pmc_out, Dev.charge_out, Dev.emit, Dev.readForWrite_out, hmod]
  rfl

/-! ## The reader whose turn it is (R191) -/

/-- What a fold that keeps its choice or takes the element at hand has chosen is one of the list. -/
theorem mem_of_foldl_choice {α : Type} {f : Option α → α → Option α} (hf : ∀ o a, f o a = o ∨ f o a = some a) {l : List α}
    {o : Option α} {y : α} (h : l.foldl f o = some y) : o = some y ∨ y ∈ l := by
  induction l generalizing o with
  | nil => exact .inl h
  | cons a t ih =>
    rcases ih h with h | h
    · rcases hf o a with hkeep | htake
      · exact .inl (hkeep ▸ h)
      · rw [htake] at h
        exact .inr (Option.some.inj h ▸ .head _)
    · exact .inr (.tail _ h)

theorem Dev.readReady_of_nextReader {d : Dev} {x : Ctx} {b : Batch} (h : d.nextReader = some (x, b)) : d.readReady x = some b := by
  rcases mem_of_foldl_choice (fun o a => by
    cases o
    · exact .inr rfl
    · dsimp only
      split
      · exact .inr rfl
      · exact .inl rfl) h with h | h
  · cases h
  · obtain ⟨c, _, hc⟩ := List.mem_filterMap.1 h
    obtain ⟨a, ha, hxb⟩ := Option.map_eq_some_iff.1 hc
    cases hxb
    exact ha

/-- A batch whose read may be issued has been written, and the read bucket holds its bytes. -/
theorem Dev.of_readReady {d : Dev} {x : Ctx} {b : Batch} (h : d.readReady x = some b) :
    b.at_ = .written ∧ b.bytes * 1000 ≤ d.sump.rdBucket := by
  unfold Dev.readReady at h
  dsimp only at h
  split at h
  · split at h
    next hc =>
      cases h
      simp only [Bool.and_eq_true, beq_iff_eq, decide_eq_true_eq] at hc
      exact ⟨hc.1.1.1.1, hc.2⟩
    · cases h
  · cases h

/-- Batch `b` of context `x` issued for its read. -/
def Dev.readIssued (f : Dev) (x : Ctx) (b : Batch) : Dev :=
  let ext := b.extent.getD 0
  let k := f.extentPort ext
  let d := { f with sump := { f.sump with rdBucket := f.sump.rdBucket - b.bytes * 1000, rrCtx := x.num + 1 } }
  let d := d.modBatch x.num b.seq (fun b => { b with at_ := .reading })
  (((d.emit (.cxlRead k ext b.bytes)).charge none 4 b.bytes).activity 16 b.bytes).pmc (108 + k) 0x58 (ceilDiv b.bytes 64)

theorem Dev.readIssued_parts (f : Dev) (x : Ctx) (b : Batch) :
    (f.readIssued x b).sump.rdBucket = f.sump.rdBucket - b.bytes * 1000 ∧
      (f.readIssued x b).out = f.out ++ [.cxlRead (f.extentPort (b.extent.getD 0)) (b.extent.getD 0) b.bytes] := by
  unfold Dev.readIssued
  obtain ⟨l, hmod⟩ := Dev.modBatch_eq
    { f with sump := { f.sump with rdBucket := f.sump.rdBucket - b.bytes * 1000, rrCtx := x.num + 1 } } x.num b.seq
    (fun b => { b with at_ := .reading })
  refine ⟨by simp [hmod], ?_⟩
  simp only [Dev.pmc_out, Dev.activity_out, Dev.charge_out, hmod]
  rfl

/-! ## What a read brings back (R192, R199) -/

/-- A batch has returned and is counted. -/
def Dev.batchReturned (d : Dev) (n seq : Nat) : Dev :=
  ((d.modBatch n seq (fun b => { b with at_ := .returned })).inc F.SMP_RD_BATCH_COUNT []).pmc 107 0x51 1

/-- What a read's errors drop, once its poisoned lines have been counted: the whole batch, or the frames that poison has hit. -/
def Dev.readLosses (d : Dev) (b : Batch) (k : Nat) : ReadBack → Dev
  | .clean => d
  | .badHeader lines => (d.loseBatch (if lines.val = 0 then 1 else 0) b).sumpFault (if lines.val = 0 then 0x41 else 0x40) k
  | .poison cells records _ =>
    ((b.poisoned (cells.map (fun c => c.val)) (records.map (fun c => c.val))).foldl (fun (d : Dev) u => d.loseCopy 0 u) d).sumpFault
      0x40 k

section Commands

variable {s : State} (hl : Live s)

include hl

/-! ## Writes of batches (R189, R199) -/

theorem runs_batchClose {n : BitVec 16} {x : Ctx} {b : Batch} (hx : s.dev.ctx n.toNat = some x) (hb : x.batches.getLast? = some b)
    (hopen : b.at_ = .open_) (hcells : b.cells ≠ 0) : Runs (.batchClose n) s (s.dev.closeBatch n.toNat b.seq) :=
  Runs.of_run hl rfl (by simp [hx, hb, hopen, hcells])

section WriteIssue

variable {n seq : Nat} {t : List (Nat × Nat)} {x y : Ctx} {b : Batch} {e : Dev} {ok : Bool}
  (hq : s.dev.sump.queue = (n, seq) :: t) (hx : s.dev.ctx n = some x) (hb : s.dev.batch n seq = some b)
  (htake : s.dev.fillBuckets.batchBoundary.takeExtent x (groupOf seq) = (e, y, ok))

include hq hx hb htake

theorem runs_batchWriteIssue_waits (h : ok = false ∨ s.dev.fillBuckets.batchBoundary.sump.wrBucket < b.bytes * 1000 ∨
    s.dev.fillBuckets.batchBoundary.batchArriving b = true) : Runs .batchWriteIssue s s.dev.fillBuckets.batchBoundary :=
  Runs.of_run hl rfl (by
    simp only [hq, hx, hb, htake]
    exact if_pos (by rcases h with h | h | h <;> simp [h]))

theorem runs_batchWriteIssue (hok : ok = true) (hsafe : s.dev.safe = false)
    (hbytes : b.bytes * 1000 ≤ s.dev.fillBuckets.batchBoundary.sump.wrBucket)
    (hin : s.dev.fillBuckets.batchBoundary.batchArriving b = false) : Runs .batchWriteIssue s (e.writeIssued y b n seq t) :=
  Runs.of_run hl rfl (by
    simp only [hq, hx, hb, htake]
    exact if_neg (by simp [hok, hsafe, hin, hbytes, Dev.smpLive]))

end WriteIssue

section WriteDone

variable {n : BitVec 16} {seq : Nat} {b : Batch} (hb : s.dev.batch n.toNat seq = some b) (hat : b.at_ = .writing)

include hb hat

theorem runs_batchWriteDone :
    let k := s.dev.extentPort (b.extent.getD 0)
    let d := ((s.dev.modBatch n.toNat seq (fun b => { b with at_ := .written })).inc F.SMP_WR_BATCH_COUNT []).pmc 107 0x50 1
    Runs (.batchWriteDone n seq true) s
      ((b.segs.foldl (fun d g => d.batchRecord g.copy 0x23 n.toNat seq [BitVec.ofNat 8 k]) d).refitBatch b) :=
  Runs.of_run hl rfl (by simp only [hb, hat, ne_eq, not_true, if_false, if_true])

theorem runs_batchWriteDone_failed :
    let k := s.dev.extentPort (b.extent.getD 0)
    let e := (s.dev.wr F.CXL_ERR_UNCOR [k] 1).loseBatch 2 b
    Runs (.batchWriteDone n seq false) s
      (((e.modBatch n.toNat seq (fun b => { b with at_ := .returned })).linkBack n.toNat).sumpFault 0x42 k) :=
  Runs.of_run hl rfl (by simp only [hb, hat, ne_eq, not_true, if_false, Bool.false_eq_true])

end WriteDone

/-! ## Reads of batches (R191, R192, R199) -/

theorem runs_batchReadIssue_none (h : s.dev.fillBuckets.batchBoundary.nextReader = none) :
    Runs .batchReadIssue s s.dev.fillBuckets.batchBoundary :=
  Runs.of_run hl rfl (by simp only [h])

theorem runs_batchReadIssue {x : Ctx} {b : Batch} (h : s.dev.fillBuckets.batchBoundary.nextReader = some (x, b))
    (hsafe : s.dev.safe = false) : Runs .batchReadIssue s (s.dev.fillBuckets.batchBoundary.readIssued x b) :=
  Runs.of_run hl rfl (by
    simp only [h]
    exact if_neg (by simp [hsafe, Dev.smpLive]))

section ReadReturn

variable {n : BitVec 16} {seq : Nat} {b : Batch} (hb : s.dev.batch n.toNat seq = some b) (hat : b.at_ = .reading)

include hb hat

theorem runs_batchReadReturn (r : ReadBack) :
    let k := s.dev.extentPort (b.extent.getD 0)
    Runs (.batchReadReturn n seq r) s
      (((((s.dev.batchReturned n.toNat seq).cxlPoison k (poisonedLines r)).readLosses b k r).refitBatch b).linkBack n.toNat) :=
  Runs.of_run hl rfl (by
    simp only [hb, hat, ne_eq, not_true, if_false]
    cases r <;> rfl)

end ReadReturn

/-! ## Folding and ending a spill (R193, R194) -/

theorem runs_spillFold {n : BitVec 16} {x : Ctx} (hx : s.dev.ctx n.toNat = some x) (hempty : s.dev.quarryEmpty x.voq = true)
    (hplace : (x.batches.all (fun b => (b.at_ == .waiting || b.at_ == .open_) && !s.dev.batchArriving b)) = true)
    (hcells : x.batches.filter (fun b => b.cells != 0) ≠ []) :
    let d := s.dev.setCtx { x with batches := x.batches.map (fun b => { b with at_ := .returned }) }
    let d := { d with sump := { d.sump with queue := d.sump.queue.filter (fun e => e.1 != n.toNat) } }
    Runs (.spillFold n) s (((d.addTo F.SMP_FOLD_COUNT [] (x.batches.filter (fun b => b.cells != 0)).length).pmc 107 0x52
      (x.batches.filter (fun b => b.cells != 0)).length).linkBack n.toNat) :=
  Runs.of_run hl rfl (by
    simp only [hx]
    exact if_neg (by simp [hempty, hplace, List.isEmpty_iff, hcells]))

theorem runs_spillEnd {n : BitVec 16} {x : Ctx} (hx : s.dev.ctx n.toNat = some x)
    (hbatches : (x.batches.any (fun b => b.cells != 0 || b.at_ == .writing || b.at_ == .reading)) = false)
    (hcopies : (s.dev.dp.copies.any (fun c => c.queue == x.voq && !c.released && c.linked != 0)) = false) :
    Runs (.spillEnd n) s { s.dev with sump := { s.dev.sump with
      ctxs := s.dev.sump.ctxs.filter (fun c => c.num != n.toNat)
      queue := s.dev.sump.queue.filter (fun e => e.1 != n.toNat) } } :=
  Runs.of_run hl rfl (by simp [hx, hbatches, hcopies])

end Commands

/-- Settles O30: each command by the branch that its conditions choose; what is sent and what the buckets hold by what an issue
leaves of them. -/
theorem spillTraffic : Obligations.SpillTraffic := by
  unfold Obligations.SpillTraffic
  intro s hl
  refine ⟨fun _ _ _ => runs_batchClose hl, ?write, fun n seq t x b e y hq hx hb htake =>
    runs_batchWriteIssue_waits hl hq hx hb htake (.inl rfl), fun _ _ _ hb hat =>
    ⟨runs_batchWriteDone hl hb hat, runs_batchWriteDone_failed hl hb hat⟩, ⟨runs_batchReadIssue_none hl, ?read⟩, ?back,
    fun _ _ => runs_spillFold hl, ?ended⟩
  case write =>
    intro n seq t x b e y hq hx hb hsafe f htake
    obtain ⟨hgroup, hvoq, hnum, hout⟩ := Dev.takeExtent_found htake
    obtain ⟨hqueue, hsent⟩ := e.writeIssued_parts y b n seq t
    exact ⟨fun h => runs_batchWriteIssue_waits hl hq hx hb htake (.inr h), fun hbytes hin =>
      ⟨_, _, _, _, runs_batchWriteIssue hl hq hx hb htake rfl hsafe hbytes hin, hqueue,
        by rw [Dev.latched_out, hsent, hout, Dev.out_looked], y.extentFor_mem hgroup, rfl, rfl, hvoq, hnum, rfl, rfl⟩⟩
  case read =>
    intro x b h hsafe
    obtain ⟨hat, hbytes⟩ := Dev.of_readReady (Dev.readReady_of_nextReader h)
    obtain ⟨hbucket, hout⟩ := Dev.readIssued_parts s.dev.fillBuckets.batchBoundary x b
    exact ⟨hbytes, hat, _, runs_batchReadIssue hl h hsafe, hbucket, by rw [Dev.latched_out, hout, Dev.out_looked]⟩
  case back =>
    intro n seq b hb hat d hurt
    have hrun := runs_batchReadReturn hl hb hat
    have hclean : ∀ (e : Dev) k, e.cxlPoison k 0 = e := fun _ _ => if_pos rfl
    have hpoison : ∀ l : Nat, l ≠ 0 → (s.dev.batchReturned n.toNat seq).cxlPoison (s.dev.extentPort (b.extent.getD 0)) l = hurt l :=
      fun l h => if_neg h
    refine ⟨?_, ?_, fun lines h => ?_, fun cells records lines h => ?_⟩
    · have h := hrun .clean
      simp only [poisonedLines, hclean, Dev.readLosses] at h
      exact h
    · have h := hrun (.badHeader 0)
      simp only [poisonedLines, hclean, Dev.readLosses, Fin.val_zero, if_true] at h
      exact h
    · have hne : lines.val ≠ 0 := fun h0 => h (Fin.ext h0)
      have h := hrun (.badHeader lines)
      simp only [poisonedLines, hpoison _ hne, Dev.readLosses, hne, if_false] at h
      exact h
    · have hne : lines.val ≠ 0 := fun h0 => h (Fin.ext h0)
      have h := hrun (.poison cells records lines)
      simp only [poisonedLines, hpoison _ hne, Dev.readLosses] at h
      exact h
  case ended =>
    intro n x hx hbatches hcopies
    exact ⟨_, runs_spillEnd hl hx hbatches hcopies, rfl, List.find?_eq_none.2 fun c hc => by simpa using (List.mem_filter.1 hc).2, rfl,
      Dev.latched_regs _ _ hl.2⟩

/-! ## The CXL ports beside the rest (R178, R179)

Faults that are raised, frames that are lost and batches that are linked write no register of the CXL window, and leave alone which
ports enumerate. -/

/-- A register of the CXL window. -/
def Reg.isCxl (r : Reg) : Bool := decide (r.win = R.CXL_STAT.win ∧ r.id < 4096)

/-- A register of another window. -/
def Reg.notCxl (r : Reg) : Bool := decide (r.win ≠ R.CXL_STAT.win ∧ r.id < 4096)

/-- What the registers of the CXL window hold, and the ports that enumerate. -/
def Dev.cxlSide (d : Dev) : (Reg → List Nat → Nat) × Nat := (fun r ix => if r.isCxl then d.raw r ix else 0, d.sump.enumerating)

theorem Dev.rd_of_cxlSide {d e : Dev} (h : e.cxlSide = d.cxlSide) {f : Fld} (hf : f.reg.isCxl = true) (ix : List Nat) :
    e.rd f ix = d.rd f ix := by
  have hraw := congrFun (congrFun (congrArg Prod.fst h) f.reg) ix
  simp only [Dev.cxlSide, hf, if_true] at hraw
  rw [Dev.rd, hraw, Dev.rd]

theorem Dev.on_of_cxlSide {d e : Dev} (h : e.cxlSide = d.cxlSide) {f : Fld} (hf : f.reg.isCxl = true) (ix : List Nat) :
    e.on f ix = d.on f ix := by
  rw [Dev.on, Dev.rd_of_cxlSide h hf, Dev.on]

theorem Dev.enumerating_of_cxlSide {d e : Dev} (h : e.cxlSide = d.cxlSide) : e.sump.enumerating = d.sump.enumerating :=
  congrArg Prod.snd h

theorem Dev.cxlSide_setRaw (d : Dev) {r : Reg} (ix : List Nat) (v : Nat) (hr : r.notCxl = true) :
    (d.setRaw r ix v).cxlSide = d.cxlSide := by
  obtain ⟨hwin, hid⟩ := of_decide_eq_true hr
  refine Prod.ext (funext fun q => funext fun jx => ?_) rfl
  dsimp only [Dev.cxlSide]
  split
  next hq =>
    obtain ⟨hcxl, hq⟩ := of_decide_eq_true hq
    exact d.raw_setRaw_other r q ix jx v (.inl fun h => hwin (h ▸ hcxl)) hq hid
  · rfl

theorem Dev.cxlSide_wr (d : Dev) {f : Fld} (ix : List Nat) (v : Nat) (hf : f.reg.notCxl = true) : (d.wr f ix v).cxlSide = d.cxlSide :=
  d.cxlSide_setRaw ix _ hf

theorem Dev.cxlSide_addTo (d : Dev) {f : Fld} (ix : List Nat) (n : Nat) (hf : f.reg.notCxl = true) :
    (d.addTo f ix n).cxlSide = d.cxlSide := by
  obtain ⟨v, hv⟩ := d.addTo_eq f ix n
  rw [hv, d.cxlSide_wr ix v hf]

theorem Dev.cxlSide_inc (d : Dev) {f : Fld} (ix : List Nat) (hf : f.reg.notCxl = true) : (d.inc f ix).cxlSide = d.cxlSide :=
  d.cxlSide_addTo ix 1 hf

/-- What writes the registers of events alone, and no part of the Sump. -/
theorem Dev.cxlSide_of_eventless {d e : Dev} (hk : e.kept = d.kept) (h : ∀ f : Fld, f.eventless = true → ∀ ix, e.rd f ix = d.rd f ix) :
    e.cxlSide = d.cxlSide := by
  have hevents : ∀ g ∈ eventFields, g.reg.notCxl = true := by decide
  refine Prod.ext (funext fun r => funext fun ix => ?_) (congrArg (fun x => x.2.2.2.2.1.enumerating) hk)
  dsimp only [Dev.cxlSide]
  split
  next hr =>
    obtain ⟨hcxl, hr⟩ := of_decide_eq_true hr
    rw [← e.rd_whole, ← d.rd_whole]
    refine h r.whole (List.all_eq_true.2 fun g hg => ?_) ix
    obtain ⟨hwin, hid⟩ := of_decide_eq_true (hevents g hg)
    rw [Fld.apart, Bool.or_eq_true, decide_eq_true_eq]
    exact .inl ⟨.inl fun h => hwin (h ▸ hcxl), hr, hid⟩
  · rfl

section CxlSide

variable (d : Dev)

@[simp] theorem Dev.cxlSide_hif (x : Hif) : ({ d with hif := x } : Dev).cxlSide = d.cxlSide := rfl
@[simp] theorem Dev.cxlSide_svc (x : Svc) : ({ d with svc := x } : Dev).cxlSide = d.cxlSide := rfl
@[simp] theorem Dev.cxlSide_emit (o : Output) : (d.emit o).cxlSide = d.cxlSide := rfl
@[simp] theorem Dev.cxlSide_setStream (n : Nat) (x : Stream) : (d.setStream n x).cxlSide = d.cxlSide := rfl
@[simp] theorem Dev.cxlSide_setEgrPort (n : Nat) (x : EgrPort) : (d.setEgrPort n x).cxlSide = d.cxlSide := rfl
@[simp] theorem Dev.cxlSide_setLehrQ (p q : Nat) (x : LehrQ) : (d.setLehrQ p q x).cxlSide = d.cxlSide := rfl
@[simp] theorem Dev.cxlSide_setCtx (x : Ctx) : (d.setCtx x).cxlSide = d.cxlSide := rfl
@[simp] theorem Dev.cxlSide_modPkt (u : Nat) (f : Pkt → Pkt) : (d.modPkt u f).cxlSide = d.cxlSide := rfl
@[simp] theorem Dev.cxlSide_modCopy (u : Nat) (f : Copy → Copy) : (d.modCopy u f).cxlSide = d.cxlSide := rfl

@[simp] theorem Dev.cxlSide_pmc (u code n : Nat) : (d.pmc u code n).cxlSide = d.cxlSide :=
  Dev.cxlSide_of_eventless (d.kept_pmc u code n) fun _ h ix => Dev.rd_pmc h ix d u code n

@[simp] theorem Dev.cxlSide_charge (j : Option Nat) (i n : Nat) : (d.charge j i n).cxlSide = d.cxlSide :=
  Dev.cxlSide_of_eventless (d.kept_charge j i n) fun _ _ ix => Dev.rd_charge ix d j i n

@[simp] theorem Dev.cxlSide_dmaWrote (j : Option Nat) (n : Nat) : (d.dmaWrote j n).cxlSide = d.cxlSide :=
  Dev.cxlSide_of_eventless (d.kept_dmaWrote j n) fun _ h ix => Dev.rd_dmaWrote h ix d j n

@[simp] theorem Dev.cxlSide_postEvent (m : Nat) (e : RingEntry) : (d.postEvent m e).cxlSide = d.cxlSide :=
  Dev.cxlSide_of_eventless (d.kept_postEvent m e) fun _ h ix => Dev.rd_postEvent h ix d m e

@[simp] theorem Dev.cxlSide_finishJob (id st r0 r1 r2 : Nat) : (d.finishJob id st r0 r1 r2).cxlSide = d.cxlSide := by
  unfold Dev.finishJob
  split
  · rfl
  · rw [Dev.cxlSide_hif, Dev.cxlSide_addTo _ _ _ (by decide)]

/-! ### Faults (R391 to R406) -/

theorem Dev.cxlSide_fatal (k : Nat) (f : FaultIn) : (d.fatal k f).cxlSide = d.cxlSide := by
  have safe : ∀ e : Dev, (e.enterSafe k).cxlSide = e.cxlSide := fun e => by
    unfold Dev.enterSafe
    split
    · rfl
    · exact (foldl_proj Dev.cxlSide _ (fun b _ => b.cxlSide_emit _) _ _).trans
        (foldl_proj Dev.cxlSide (fun d id => d.abortJob id) (fun b _ => b.cxlSide_finishJob _ _ _ _ _) _ _)
  simp (disch := decide) only [Dev.fatal, safe, apply_ite Dev.cxlSide, Dev.cxlSide_wr, ite_self]

theorem Dev.cxlSide_recordOrLose (e : Dev × Nat) (r : FaultRec) (b c : Bool) : (Dev.recordOrLose e r b c).1.cxlSide = e.1.cxlSide := by
  have store : (e.1.storeRecord r).cxlSide = e.1.cxlSide := by
    simp (disch := decide) only [Dev.storeRecord, Dev.cxlSide_wr]
    rfl
  simp (disch := decide) only [Dev.recordOrLose, apply_ite Prod.fst, apply_ite Dev.cxlSide, store, Dev.cxlSide_inc, ite_self]

theorem Dev.cxlSide_clockFaults (k : Nat) (fs : List FaultIn) (c : Bool) : (d.clockFaults k fs c).1.cxlSide = d.cxlSide := by
  have count : ∀ (l : List FaultIn) (e : Dev), (l.foldl (fun e f => e.countFault k f) e).cxlSide = e.cxlSide :=
    foldl_proj Dev.cxlSide _ fun b f => by
      simp (disch := decide) only [Dev.countFault, apply_ite Dev.cxlSide, Dev.cxlSide_inc, ite_self]
  have latch : ∀ (e : Dev) (f : FaultIn), (e.fillLatch k f).cxlSide = e.cxlSide := fun e f => by
    simp (disch := decide) only [Dev.fillLatch, Dev.cxlSide_wr, Dev.cxlSide_setRaw]
  have fatals : ∀ (l : List FaultIn) (first : Option FaultIn) (e : Dev × Nat),
      (l.foldl (fun e f =>
        let e := if first = some f || e.1.faultMasked k f.src then e
          else Dev.recordOrLose e (e.1.faultRecord k f true (e.1.on F.SPL_LATCH_INJ_SEEN [k])) true c
        (e.1.fatal k f, e.2)) e).1.cxlSide = e.1.cxlSide := fun l first =>
    foldl_proj (fun e : Dev × Nat => e.1.cxlSide) _ (fun b f => by
      simp only [Dev.cxlSide_fatal, apply_ite Prod.fst, apply_ite Dev.cxlSide, Dev.cxlSide_recordOrLose, ite_self]) l
  have event : ∀ (e : Dev) (f : FaultIn), (e.faultEvent k f).cxlSide = e.cxlSide := fun e f => by
    simp only [Dev.faultEvent, apply_ite Dev.cxlSide, Dev.cxlSide_postEvent, ite_self]
  unfold Dev.clockFaults
  dsimp only
  split
  · rw [event, fatals, Dev.cxlSide_recordOrLose]
    simp (disch := decide) only [apply_ite Dev.cxlSide, Dev.cxlSide_wr, latch, ite_self, count]
  · rw [fatals]
    simp (disch := decide) only [apply_ite Dev.cxlSide, Dev.cxlSide_wr, ite_self, count]

@[simp] theorem Dev.cxlSide_raise (k src syn : Nat) : (d.raise k src syn).cxlSide = d.cxlSide := by
  have loss : ∀ (n : Nat) (e : Dev), (e.lossFaults n).cxlSide = e.cxlSide := fun n => by
    induction n with
    | zero => exact fun _ => rfl
    | succ n ih => exact fun e => (ih _).trans (e.cxlSide_clockFaults _ _ _)
  exact (loss _ _).trans (d.cxlSide_clockFaults _ _ _)

/-! ### Records of frames (R302, R311) -/

theorem Dev.cxlSide_scatter (fn : Nat) (l : List (Nat × Nat)) (off : Nat) (bytes : List Byte) :
    (d.scatter fn l off bytes).cxlSide = d.cxlSide := by
  induction l generalizing d off bytes with
  | nil => rfl
  | cons a t ih =>
    rw [Dev.scatter]
    simp only [apply_ite Dev.cxlSide, ih, Dev.cxlSide_emit, ite_self]

theorem Dev.cxlSide_streamFull (s : Nat) : (d.streamFull s).cxlSide = d.cxlSide := by
  unfold Dev.streamFull
  split
  · rfl
  · simp only [apply_ite Dev.cxlSide, Dev.cxlSide_finishJob, Dev.cxlSide_setStream, ite_self]

theorem Dev.cxlSide_streamWrite (s : Nat) : (d.streamWrite s).cxlSide = d.cxlSide := by
  have keep : ∀ (e : Dev) (r : List Byte), (e.keepSample s r).cxlSide = e.cxlSide := fun e r => by
    simp only [Dev.keepSample, apply_ite Dev.cxlSide, Dev.cxlSide_svc, ite_self]
  unfold Dev.streamWrite
  dsimp only
  split
  · rfl
  · split
    · rfl
    · split
      · rw [keep, Dev.cxlSide_emit, Dev.cxlSide_setStream]
      · split
        · rfl
        · simp only [apply_ite Dev.cxlSide, Dev.cxlSide_streamFull, Dev.cxlSide_setStream, Dev.cxlSide_dmaWrote,
            Dev.cxlSide_scatter, ite_self]

theorem Dev.cxlSide_streamPump (s fuel : Nat) : (d.streamPump s fuel).cxlSide = d.cxlSide := by
  induction fuel generalizing d with
  | zero => rfl
  | succ n ih => rw [Dev.streamPump, ih, Dev.cxlSide_streamWrite]

theorem Dev.cxlSide_record (s : Nat) (body : List Byte) : (d.record s body).cxlSide = d.cxlSide := by
  unfold Dev.record
  split
  · rfl
  · dsimp only
    split
    · rw [Dev.cxlSide_inc _ _ (by decide), Dev.cxlSide_wr _ _ _ (by decide)]
    · rw [Dev.cxlSide_streamPump, Dev.cxlSide_setStream, Dev.cxlSide_wr _ _ _ (by decide)]

theorem Dev.cxlSide_cullet (trace : Option Nat) (cp : Nat) (bit port : Option Nat) (data : List Byte) :
    (d.cullet trace cp bit port data).cxlSide = d.cxlSide := by
  cases trace with
  | none => rfl
  | some id => simp only [Dev.cullet, apply_ite Dev.cxlSide, Dev.cxlSide_record, ite_self]

theorem Dev.cxlSide_finalRecord (c : Copy) (cp : Nat) (data : List Byte) : (d.finalRecord c cp data).cxlSide = d.cxlSide := by
  have free : ∀ (e : Dev) (t : Option Nat), (e.freeTrace t).cxlSide = e.cxlSide := fun _ t => by cases t <;> rfl
  unfold Dev.finalRecord
  split
  · rfl
  · simp only [apply_ite Dev.cxlSide, Dev.cxlSide_modPkt, free, Dev.cxlSide_cullet, ite_self]

theorem Dev.cxlSide_batchRecord (u cp n seq : Nat) (rest : List Byte) : (d.batchRecord u cp n seq rest).cxlSide = d.cxlSide := by
  unfold Dev.batchRecord
  split
  · exact d.cxlSide_cullet _ _ _ _ _
  · rfl

/-! ### Frames and copies -/

theorem Dev.cxlSide_refit (u : Nat) : (d.refit u).cxlSide = d.cxlSide := by
  have cell : ∀ (e : Dev) (j : Nat), (e.writeCell u j 0x32 none).cxlSide = e.cxlSide := fun e j => by
    unfold Dev.writeCell
    split
    · rfl
    · split
      · rfl
      · simp only [Dev.cxlSide_charge, Dev.cxlSide_pmc, Dev.cxlSide_modPkt]
  unfold Dev.refit
  split
  · rfl
  · split
    · rfl
    · exact foldl_proj Dev.cxlSide _ cell _ _

theorem Dev.cxlSide_evalCopy (ig : Option (Nat × Nat)) : (d.evalCopy ig).cxlSide = d.cxlSide := by
  have xoff : ∀ (i g : Nat) (b : Bool), (d.setXoff i g b).cxlSide = d.cxlSide := fun i g b => by
    by_cases h : d.xoff i g = b
    · rw [Dev.setXoff_same h]
    · obtain ⟨l, x, y, heq⟩ := Dev.setXoff_eq h
      rw [heq]
      exact d.cxlSide_wr [i] _ (by decide)
  cases ig with
  | none => rfl
  | some x => simp only [Dev.evalCopy, Dev.evalXoff, apply_ite Dev.cxlSide, xoff, ite_self]

theorem Dev.cxlSide_releaseCopy (u : Nat) : (d.releaseCopy u).cxlSide = d.cxlSide := by
  have deficit : ∀ (e : Dev) (v : Nat), (e.resetDeficit v).cxlSide = e.cxlSide := fun e v => by
    simp only [Dev.resetDeficit, apply_ite Dev.cxlSide, Dev.cxlSide_setEgrPort, ite_self]
  unfold Dev.releaseCopy
  split
  · rfl
  · split
    · rfl
    · dsimp only
      rw [deficit, Dev.cxlSide_evalCopy]
      split
      · simp only [Dev.freeFrame, apply_ite Dev.cxlSide, Dev.cxlSide_pmc, Dev.cxlSide_refit, Dev.cxlSide_modPkt,
          Dev.cxlSide_modCopy, ite_self]
      · rfl

theorem Dev.cxlSide_removeCopy (u : Nat) : (d.removeCopy u).cxlSide = d.cxlSide := by
  have lost : ∀ (e : Dev) (v : Nat), (e.queueLost v).cxlSide = e.cxlSide := fun e v => by
    simp only [Dev.queueLost, apply_ite Dev.cxlSide, Dev.cxlSide_setEgrPort, ite_self]
  unfold Dev.removeCopy
  dsimp only
  split
  · exact (lost _ _).trans (d.cxlSide_releaseCopy u)
  · exact d.cxlSide_releaseCopy u

/-! ### Batches that are lost and linked -/

theorem Dev.cxlSide_loseCopy (r u : Nat) : (d.loseCopy r u).cxlSide = d.cxlSide := by
  have unbatch : ∀ (e : Dev), (e.unbatch u).cxlSide = e.cxlSide := fun _ => rfl
  unfold Dev.loseCopy
  split
  · rfl
  · split
    · rfl
    · simp (disch := decide) only [Dev.cxlSide_removeCopy, unbatch, Dev.cxlSide_finalRecord, Dev.cxlSide_inc]

theorem Dev.cxlSide_linkBatches (n fuel : Nat) : (d.linkBatches n fuel).cxlSide = d.cxlSide := by
  have segs : ∀ (l : List Seg) (seq : Nat) (e : Dev),
      (l.foldl (fun d s => (d.linkSeg s).batchRecord s.copy 0x24 n seq []) e).cxlSide = e.cxlSide := fun l seq =>
    foldl_proj Dev.cxlSide _ (fun b s => (Dev.cxlSide_batchRecord _ _ _ _ _ _).trans (b.cxlSide_modCopy _ _)) l
  induction fuel generalizing d with
  | zero => rfl
  | succ k ih =>
    unfold Dev.linkBatches
    split
    · rfl
    · split
      · rfl
      · simp only [apply_ite Dev.cxlSide, ih, Dev.cxlSide_setCtx, segs, ite_self]

theorem Dev.cxlSide_linkBack (n : Nat) : (d.linkBack n).cxlSide = d.cxlSide := by
  have wake : ∀ (l : List Nat) (e : Dev), (wakeQueues d e l).cxlSide = e.cxlSide :=
    foldl_proj Dev.cxlSide _ fun e q => by
      simp only [Dev.lehrUpdate, apply_ite Dev.cxlSide, Dev.cxlSide_setLehrQ, Dev.cxlSide_pmc, ite_self]
  unfold Dev.linkBack
  split
  · rw [wake, Dev.cxlSide_linkBatches]
  · rfl

theorem Dev.cxlSide_dropPort (k : Nat) (x : Ctx) : (d.dropPort k x).cxlSide = d.cxlSide := by
  have lose : ∀ (l : List Batch) (e : Dev), (l.foldl (fun d b => d.loseBatch 2 b) e).cxlSide = e.cxlSide :=
    foldl_proj Dev.cxlSide _ fun e b => foldl_proj Dev.cxlSide _ (fun e u => e.cxlSide_loseCopy 2 u) _ e
  unfold Dev.dropPort
  dsimp only
  split
  · rw [Dev.cxlSide_linkBack, Dev.cxlSide_setCtx, lose]
  · exact lose _ _

end CxlSide

/-! ## A port that goes down (R199) -/

/-- The losses of a port that goes down. -/
def Dev.portLosses (d : Dev) (k : Nat) : Dev :=
  if d.safe then d else (d.sump.ctxs.foldl (fun d x => d.dropPort k x) d).imageLost k

theorem Dev.cxlSide_portLosses (d : Dev) (k : Nat) : (d.portLosses k).cxlSide = d.cxlSide := by
  have image : ∀ e : Dev, (e.imageLost k).cxlSide = e.cxlSide := fun _ => rfl
  have drop := foldl_proj Dev.cxlSide (fun e x => e.dropPort k x) (fun e x => e.cxlSide_dropPort k x) d.sump.ctxs d
  rw [Dev.portLosses, apply_ite Dev.cxlSide, image, drop, ite_self]

/-- A port that goes down, seen in the CXL registers: LINK_DOWN and its count, then MEM_READY. -/
theorem Dev.cxlSide_cxlDown (d : Dev) (k src : Nat) : ∃ e : Dev, (d.cxlDown k src).cxlSide = (e.wr F.CXL_STAT_MEM_READY [k] 0).cxlSide ∧
    e.cxlSide = ((d.wr F.CXL_ERR_LINK_DOWN [k] 1).inc F.CXL_LINK_DOWN_CNT_COUNT [k]).cxlSide :=
  ⟨((d.wr F.CXL_ERR_LINK_DOWN [k] 1).inc F.CXL_LINK_DOWN_CNT_COUNT [k]).portLosses k, Dev.cxlSide_raise _ _ _ _,
    Dev.cxlSide_portLosses _ k⟩

theorem Dev.cxlDown_parts (d : Dev) (k src : Nat) : (d.cxlDown k src).on F.CXL_ERR_LINK_DOWN [k] = true ∧
    (d.cxlDown k src).on F.CXL_STAT_MEM_READY [k] = false ∧ (d.cxlDown k src).sump.enumerating = d.sump.enumerating := by
  obtain ⟨e, hdown, hlost⟩ := d.cxlSide_cxlDown k src
  refine ⟨?_, ?_, ?_⟩
  · rw [Dev.on_of_cxlSide hdown (by decide), Dev.on_wr_apart _ _ _ _ (by decide), Dev.on_of_cxlSide hlost (by decide), Dev.on,
      Dev.rd_inc_apart _ _ _ (by decide)]
    exact d.on_wr_bit F.CXL_ERR_LINK_DOWN [k] true rfl (by decide)
  · rw [Dev.on_of_cxlSide hdown (by decide)]
    exact e.on_wr_bit F.CXL_STAT_MEM_READY [k] false rfl (by decide)
  · rw [Dev.enumerating_of_cxlSide hdown, Dev.wr_sump, Dev.enumerating_of_cxlSide hlost, Dev.inc_sump, Dev.wr_sump]

/-! ## A write of CXL_CTL (R179) -/

section CxlCtl

variable (d : Dev) (k v : Nat)

/-- CXL_CTL[k] written: its four fields, of which RETRAIN is not stored. -/
def Dev.cxlCtlSet (d : Dev) (k v : Nat) : Dev := d.setRaw R.CXL_CTL [k] (setBitsOf (v % 64) 1 1 0)

/-- Port k no longer enumerates. -/
def Dev.enumStopped (d : Dev) (k : Nat) : Dev := { d with sump := { d.sump with enumerating := putBit d.sump.enumerating k false } }

/-- A port that is disabled: enumeration stopped, link and memory lost where there are any. -/
def Dev.cxlStopped (d : Dev) (k : Nat) : Dev :=
  (if (d.enumStopped k).cxlUp k then (d.enumStopped k).cxlDown k 0x43 else d.enumStopped k).wr F.CXL_STAT_LINK_UP [k] 0

variable {d k v}

theorem Dev.cxlCtl_rises (hwas : d.on F.CXL_CTL_EN [k] = false) (hen : bitAt v 0 = true) :
    d.cxlCtl k v = (d.cxlCtlSet k v).cxlStart k := by
  simp only [Dev.cxlCtl, hwas, hen, Bool.not_false, Bool.and_self, if_true]
  rfl

theorem Dev.cxlCtl_falls (hwas : d.on F.CXL_CTL_EN [k] = true) (hen : bitAt v 0 = false) :
    d.cxlCtl k v = (d.cxlCtlSet k v).cxlStopped k := by
  simp only [Dev.cxlCtl, hwas, hen, Bool.not_false, Bool.not_true, Bool.and_self, Bool.false_eq_true, if_false, if_true]
  rfl

theorem Dev.cxlCtl_retrains (hwas : d.on F.CXL_CTL_EN [k] = true) (hen : bitAt v 0 = true) (hre : bitAt v 1 = true) :
    d.cxlCtl k v =
      if (d.cxlCtlSet k v).cxlUp k then (d.cxlCtlSet k v).cxlLost k 0x43 else (d.cxlCtlSet k v).cxlStart k := by
  simp only [Dev.cxlCtl, hwas, hen, hre, Bool.not_true, Bool.and_false, Bool.false_and, Bool.false_eq_true, Bool.and_self, if_false,
    if_true]
  rfl

/-- What the port has to lose does not rest on CXL_CTL. -/
theorem Dev.cxlUp_cxlCtlSet : (d.cxlCtlSet k v).cxlUp k = d.cxlUp k := by
  have hstat : ∀ f : Fld, f.reg = R.CXL_STAT → (d.cxlCtlSet k v).on f [k] = d.on f [k] := fun f hf => by
    rw [Dev.on, Dev.cxlCtlSet, Dev.rd_setRaw_other _ _ _ _ (by rw [hf]; decide) (by rw [hf]; decide) (by decide), Dev.on]
  simp only [Dev.cxlUp, Dev.memReady, hstat F.CXL_STAT_LINK_UP rfl, hstat F.CXL_STAT_MEM_READY rfl]

theorem Dev.cxlStopped_parts : bitAt (d.cxlStopped k).sump.enumerating k = false ∧
    (d.cxlStopped k).on F.CXL_STAT_MEM_READY [k] = false ∧ (d.cxlStopped k).on F.CXL_STAT_LINK_UP [k] = false ∧
    (d.cxlUp k = true → (d.cxlStopped k).on F.CXL_ERR_LINK_DOWN [k] = true) := by
  have hup : (d.enumStopped k).cxlUp k = d.cxlUp k := rfl
  have hbit : bitAt (d.enumStopped k).sump.enumerating k = false := (bitAt_putBit _ k k false).trans (if_pos rfl)
  obtain ⟨hdown, hready, henum⟩ := (d.enumStopped k).cxlDown_parts k 0x43
  have hlink := fun e : Dev => e.on_wr_bit F.CXL_STAT_LINK_UP [k] false rfl (by decide)
  rw [Dev.cxlStopped, hup]
  cases h : d.cxlUp k with
  | true =>
    refine ⟨by rw [if_pos rfl, Dev.wr_sump, henum, hbit], ?_, hlink _, fun _ => ?_⟩
    · rw [if_pos rfl, Dev.on_wr_apart _ _ _ _ (by decide), hready]
    · rw [if_pos rfl, Dev.on_wr_apart _ _ _ _ (by decide), hdown]
  | false =>
    have hnone : d.on F.CXL_STAT_MEM_READY [k] = false := (Bool.or_eq_false_iff.1 h).2
    exact ⟨hbit, (Dev.on_wr_apart _ _ _ _ (by decide)).trans hnone, hlink _, nofun⟩

end CxlCtl

/-! ## Enumeration ends (R179) -/

section EnumEnds

variable (d : Dev) (k : Nat)

theorem Dev.rd_emit (o : Output) (f : Fld) (ix : List Nat) : (d.emit o).rd f ix = d.rd f ix := rfl

theorem Dev.mem_emit (o : Output) : o ∈ (d.emit o).out := List.mem_append_right _ (.head _)

theorem Dev.enumErr_cxlFail {code : Nat} (h : code < 16) : (d.cxlFail k code).rd F.CXL_STAT_ENUM_ERR [k] = code :=
  Dev.rd_wr_fits _ _ _ _ (by decide) (by decide) h

theorem Dev.enumDone_cxlFail (code : Nat) : (d.cxlFail k code).on F.CXL_STAT_ENUM_DONE [k] = true :=
  (Dev.on_wr_apart _ _ _ _ (by decide)).trans (d.on_wr_bit F.CXL_STAT_ENUM_DONE [k] true rfl (by decide))

theorem Dev.rd_cxlFail_apart (code : Nat) {f : Fld} (ix : List Nat) (hdone : f.apart F.CXL_STAT_ENUM_DONE = true)
    (herr : f.apart F.CXL_STAT_ENUM_ERR = true) : (d.cxlFail k code).rd f ix = d.rd f ix := by
  rw [Dev.cxlFail, Dev.rd_wr_apart _ _ _ _ herr, Dev.rd_wr_apart _ _ _ _ hdone]

theorem Dev.linkUp_cxlLink (speed width : Nat) : (d.cxlLink k speed width).on F.CXL_STAT_LINK_UP [k] = true :=
  Dev.on_wr_bit _ F.CXL_STAT_LINK_UP [k] true rfl (by decide)

/-- A port whose enumeration has passed, with `cap` units of memory. -/
def Dev.enumPassed (d : Dev) (k cap : Nat) : Dev :=
  (((d.wr F.CXL_STAT_CAP [k] cap).wr F.CXL_STAT_MEM_READY [k] 1).cxlFail k 0).emit (.cxlHdm k (hdmBase k) (cap * 268435456))

/-- What an enumeration of port k that ends as `r` leaves. -/
def Dev.enumEnded (d : Dev) (k : Nat) : CxlEnum → Dev
  | .noLink => (d.enumStopped k).cxlFail k 1
  | .failed speed width step => ((d.enumStopped k).cxlLink k speed.val width.val).cxlFail k (step.val + 2)
  | .passed speed width bytes =>
    let cap := min bytes.toNat 137438953472 / 268435456
    let e := (d.enumStopped k).cxlLink k speed.val width.val
    if cap = 0 then e.cxlFail k 6 else e.enumPassed k cap

theorem Dev.enumPassed_parts {cap : Nat} (h : cap < 1024) : (d.enumPassed k cap).on F.CXL_STAT_MEM_READY [k] = true ∧
    (d.enumPassed k cap).rd F.CXL_STAT_ENUM_ERR [k] = 0 ∧
    (d.enumPassed k cap).on F.CXL_STAT_LINK_UP [k] = d.on F.CXL_STAT_LINK_UP [k] ∧
    (d.enumPassed k cap).rd F.CXL_STAT_CAP [k] = cap ∧ .cxlHdm k (hdmBase k) (cap * 268435456) ∈ (d.enumPassed k cap).out := by
  have hrd : ∀ f ix, (d.enumPassed k cap).rd f ix =
      (((d.wr F.CXL_STAT_CAP [k] cap).wr F.CXL_STAT_MEM_READY [k] 1).cxlFail k 0).rd f ix := fun f ix => Dev.rd_emit _ _ f ix
  rw [Dev.on, Dev.on, Dev.on, hrd, hrd, hrd, hrd]
  refine ⟨?_, Dev.enumErr_cxlFail _ k (by decide), ?_, ?_, Dev.mem_emit _ _⟩
  · rw [Dev.rd_cxlFail_apart _ _ _ _ (by decide) (by decide)]
    exact Dev.on_wr_bit _ F.CXL_STAT_MEM_READY [k] true rfl (by decide)
  · rw [Dev.rd_cxlFail_apart _ _ _ _ (by decide) (by decide), Dev.rd_wr_apart _ _ _ _ (by decide),
      Dev.rd_wr_apart _ _ _ _ (by decide)]
  · rw [Dev.rd_cxlFail_apart _ _ _ _ (by decide) (by decide), Dev.rd_wr_apart _ _ _ _ (by decide),
      Dev.rd_wr_fits _ _ _ _ (by decide) (by decide) h]

/-- With less than one unit of memory the enumeration has failed. -/
theorem Dev.enumEnded_small (speed width : Fin 3) {bytes : BitVec 64} (h : bytes.toNat < 268435456) :
    d.enumEnded k (.passed speed width bytes) = ((d.enumStopped k).cxlLink k speed.val width.val).cxlFail k 6 :=
  if_pos (by omega)

theorem Dev.enumEnded_big (speed width : Fin 3) {bytes : BitVec 64} (h : 268435456 ≤ bytes.toNat) :
    d.enumEnded k (.passed speed width bytes) =
      ((d.enumStopped k).cxlLink k speed.val width.val).enumPassed k (min bytes.toNat 137438953472 / 268435456) :=
  if_neg (by omega)

end EnumEnds

/-- No write of CXL_CTL waits for the initialisation. -/
theorem accessPf_cxlCtl {d : Dev} {m : Master} {k : Fin 4} {v : Nat} (f : Dev → Dev) (hm : isPfSvc m = true)
    (hb : d.hostBlocked m = false) : d.accessPf m (cxlCtlOff k.val) v f = f d :=
  Dev.accessPf_taken v f hm hb ((by decide : ∀ k : Fin 4, initWindow (cxlCtlOff k.val / 1048576) = false) k)

section PortCommands

variable {s : State} (hl : Live s) {k : Fin 4}

include hl

section CtlWrites

variable {m : Master} {v : BitVec 32} (hm : isPfSvc m = true) (hb : s.dev.hostBlocked m = false)
  (hdom : s.dev.domOn (168 + k.val) = true)

include hm hb hdom

theorem runs_cxlEnumerate (hwas : s.dev.on F.CXL_CTL_EN [k.val] = false) (hen : bitAt v.toNat 0 = true) :
    Runs (.cxlEnumerate m k v) s ((s.dev.cxlCtlSet k.val v.toNat).cxlStart k.val) :=
  Runs.of_run hl rfl ((if_pos (by simp [hwas, hen, hdom])).trans ((accessPf_cxlCtl _ hm hb).trans (Dev.cxlCtl_rises hwas hen)))

theorem runs_cxlRetrain (hwas : s.dev.on F.CXL_CTL_EN [k.val] = true) (hen : bitAt v.toNat 0 = true) (hre : bitAt v.toNat 1 = true) :
    Runs (.cxlRetrain m k v) s (if (s.dev.cxlCtlSet k.val v.toNat).cxlUp k.val then (s.dev.cxlCtlSet k.val v.toNat).cxlLost k.val 0x43
      else (s.dev.cxlCtlSet k.val v.toNat).cxlStart k.val) :=
  Runs.of_run hl rfl
    ((if_pos (by simp [hwas, hen, hre, hdom])).trans ((accessPf_cxlCtl _ hm hb).trans (Dev.cxlCtl_retrains hwas hen hre)))

theorem runs_cxlDisable (hwas : s.dev.on F.CXL_CTL_EN [k.val] = true) (hen : bitAt v.toNat 0 = false) :
    Runs (.cxlDisable m k v) s ((s.dev.cxlCtlSet k.val v.toNat).cxlStopped k.val) :=
  Runs.of_run hl rfl ((if_pos (by simp [hwas, hen, hdom])).trans ((accessPf_cxlCtl _ hm hb).trans (Dev.cxlCtl_falls hwas hen)))

end CtlWrites

section EnumComplete

variable (henum : bitAt s.dev.sump.enumerating k.val = true) (hsafe : s.dev.safe = false) (hcore : s.dev.coreRuns 0 = true)

include henum hsafe hcore

theorem runs_cxlEnumComplete (r : CxlEnum) : Runs (.cxlEnumComplete k r) s (s.dev.enumEnded k.val r) :=
  Runs.of_run hl rfl (by
    refine (if_neg (by simp [henum, hsafe, hcore])).trans ?_
    cases r <;> rfl)

end EnumComplete

theorem runs_cxlLinkDown (hup : s.dev.cxlUp k.val = true) : Runs (.cxlLinkDown k) s (s.dev.cxlLost k.val 0x43) :=
  Runs.of_run hl rfl (if_pos hup)

theorem runs_cxlViral (hup : s.dev.cxlUp k.val = true) :
    Runs (.cxlViral k) s ((s.dev.wr F.CXL_ERR_VIRAL [k.val] 1).cxlLost k.val 0x44) :=
  Runs.of_run hl rfl (if_pos hup)

theorem runs_cxlFlitReplay (hup : s.dev.on F.CXL_STAT_LINK_UP [k.val] = true) :
    Runs (.cxlFlitReplay k) s ((((s.dev.inc F.CXL_RETRY_CNT_COUNT [k.val]).wr F.CXL_ERR_CE [k.val] 1).pmc (108 + k.val) 0x5A 1).raise
      (46 + k.val) 0x40 0) :=
  Runs.of_run hl rfl (if_pos hup)

end PortCommands

/-- Settles O31: each command by the branch that its conditions choose; what an enumeration and a disabled port show by the fields
that they write last, which faults and losses leave alone. -/
theorem cxlPorts : Obligations.CxlPorts := by
  unfold Obligations.CxlPorts
  intro s k hl
  refine ⟨fun m v hm hb hdom => ⟨runs_cxlEnumerate hl hm hb hdom, runs_cxlRetrain hl hm hb hdom, ?disable⟩, ?complete,
    fun hup => ⟨runs_cxlLinkDown hl hup, runs_cxlViral hl hup⟩, runs_cxlFlitReplay hl⟩
  case disable =>
    intro hwas hen
    obtain ⟨henum, hready, hlink, hdown⟩ := Dev.cxlStopped_parts (d := s.dev.cxlCtlSet k.val v.toNat) (k := k.val)
    rw [Dev.cxlUp_cxlCtlSet] at hdown
    refine ⟨_, runs_cxlDisable hl hm hb hdom hwas hen, henum, ?_, ?_, fun hup => ?_⟩
    all_goals rw [Dev.on_latched _ _ _ hl.2]
    exacts [hready, hlink, hdown hup]
  case complete =>
    intro henum hsafe hcore
    have hrun := runs_cxlEnumComplete hl henum hsafe hcore
    refine ⟨⟨_, hrun .noLink, ?_, ?_⟩, fun sp w step => ⟨_, hrun (.failed sp w step), ?_⟩,
      fun sp w b hsmall => ⟨_, hrun (.passed sp w b), ?_⟩, fun sp w b hbig => ⟨_, hrun (.passed sp w b), ?_⟩⟩
    · rw [Dev.rd_latched _ _ _ hl.2]
      exact Dev.enumErr_cxlFail _ _ (by decide)
    · rw [Dev.on_latched _ _ _ hl.2]
      exact Dev.enumDone_cxlFail _ _ _
    · rw [Dev.rd_latched _ _ _ hl.2]
      exact Dev.enumErr_cxlFail _ _ (by omega)
    · rw [Dev.rd_latched _ _ _ hl.2, Dev.enumEnded_small _ _ _ _ hsmall]
      exact Dev.enumErr_cxlFail _ _ (by decide)
    · obtain ⟨hready, herr, hlink, hcap, hout⟩ := Dev.enumPassed_parts ((s.dev.enumStopped k.val).cxlLink k.val sp.val w.val) k.val
        (cap := min b.toNat 137438953472 / 268435456) (by omega)
      rw [Dev.linkUp_cxlLink] at hlink
      rw [Dev.on_latched _ _ _ hl.2, Dev.on_latched _ _ _ hl.2, Dev.rd_latched _ _ _ hl.2, Dev.rd_latched _ _ _ hl.2,
        Dev.latched_out, Dev.enumEnded_big _ _ _ _ hbig]
      exact ⟨hready, herr, hlink, hcap, hout⟩

end Sys2Proof.Machine

/-!
PROOFS of the statements of spec/07_egress_scheduling.md: control frames received, meters, and the watchdog with flushes, gates and the
Lehr's clock. What a command leaves of the parts that a statement names comes before the commands.
-/

namespace Sys2Proof.Machine

/-! ## Control frames received (R220, R221) -/

@[simp] theorem Dev.egrPort_latched (d e : Dev) (p : Nat) : (Dev.latched d e).egrPort p = e.egrPort p := rfl

/-- The port's timer loaded with `t` quanta: PAUSE_ALL stands while it runs. -/
def Dev.loadPortPause (d : Dev) (p t : Nat) : Dev :=
  (d.wr F.EGR_PORT_STAT_PAUSE_ALL [p] (b2n (t != 0))).setEgrPort p { d.egrPort p with quanta := Sparse.set 0 (d.egrPort p).quanta 8 t }

/-- A PAUSE frame counted. -/
def Dev.pauseCounted (d : Dev) (p : Nat) (f : Control) : Dev := (d.takeControl f).inc F.EGR_RX_PAUSE_COUNT [p]

theorem Dev.pauseAll_loadPortPause (d : Dev) (p t : Nat) : (d.loadPortPause p t).on F.EGR_PORT_STAT_PAUSE_ALL [p] = (t != 0) :=
  d.on_wr_bit F.EGR_PORT_STAT_PAUSE_ALL [p] (t != 0) rfl (by decide)

theorem Dev.rd_loadPortPause_apart (d : Dev) (p t : Nat) {f : Fld} (ix : List Nat) (h : f.apart F.EGR_PORT_STAT_PAUSE_ALL = true) :
    (d.loadPortPause p t).rd f ix = d.rd f ix := d.rd_wr_apart ix [p] _ h

theorem Dev.control_loadPortPause (d : Dev) (p t : Nat) : (d.loadPortPause p t).dp.control = d.dp.control := rfl

theorem Dev.quanta_loadPortPause (d : Dev) (p t : Nat) : Sparse.get 0 ((d.loadPortPause p t).egrPort p).quanta 8 = t := by
  rw [Dev.loadPortPause, Dev.egrPort_setEgrPort_self, Sparse.get_set_self]

theorem Dev.control_pauseCounted (d : Dev) (p : Nat) (f : Control) : (d.pauseCounted p f).dp.control = d.dp.control.erase f := by
  rw [Dev.pauseCounted, Dev.inc_dp, Dev.takeControl]

theorem Dev.rd_pauseCounted_apart (d : Dev) (p : Nat) (f : Control) {g : Fld} (ix : List Nat) (h : g.apart F.EGR_RX_PAUSE_COUNT = true) :
    (d.pauseCounted p f).rd g ix = d.rd g ix := (d.takeControl f).rd_inc_apart ix [p] h

theorem Dev.count_pauseCounted (d : Dev) (p : Nat) (f : Control) :
    (d.pauseCounted p f).rd F.EGR_RX_PAUSE_COUNT [p] = min (2 ^ 32 - 1) (d.rd F.EGR_RX_PAUSE_COUNT [p] + 1) :=
  (d.takeControl f).rd_inc_saturates F.EGR_RX_PAUSE_COUNT [p] (by decide) (by decide) (by decide)

theorem bne_eq_decide_ne (n : Nat) : (n != 0) = decide (n ≠ 0) := by
  by_cases h : n = 0 <;> simp [h]

section PauseCommands

variable {s : State} (hl : Live s) {p : Fin 1024}

include hl

section Taken

variable {f : Control} (hf : s.dev.controlFrame p.val = some f)

include hf

theorem runs_pfcRx (hop : controlOp f = some 0x0101) : Runs (.pfcRx p) s ((s.dev.takeControl f).pfcRx p.val f.bytes) :=
  Runs.of_run hl rfl (by simp [hf, hop])

theorem runs_pauseRx (hop : controlOp f = some 0x0001) (hen : s.dev.on F.EGR_PORT_CFG_PAUSE_RX_EN [p.val] = true) :
    Runs (.pauseRx p) s ((s.dev.pauseCounted p.val f).loadPortPause p.val (beVal (sliceOf f.bytes 16 2))) := by
  have hen' : (s.dev.pauseCounted p.val f).on F.EGR_PORT_CFG_PAUSE_RX_EN [p.val] = true := by
    rw [Dev.on, Dev.rd_pauseCounted_apart _ _ _ _ (by decide), ← Dev.on, hen]
  refine Runs.of_run hl rfl ?_
  simp only [hf, hop, if_true]
  exact if_pos hen'

theorem runs_pauseRx_off (hop : controlOp f = some 0x0001) (hen : s.dev.on F.EGR_PORT_CFG_PAUSE_RX_EN [p.val] = false) :
    Runs (.pauseRx p) s (s.dev.pauseCounted p.val f) := by
  have hen' : (s.dev.pauseCounted p.val f).on F.EGR_PORT_CFG_PAUSE_RX_EN [p.val] = false := by
    rw [Dev.on, Dev.rd_pauseCounted_apart _ _ _ _ (by decide), ← Dev.on, hen]
  refine Runs.of_run hl rfl ?_
  simp only [hf, hop, if_true]
  exact if_neg (ne_true_of_eq_false hen')

theorem runs_ctlFrameBad (hpfc : controlOp f ≠ some 0x0101) (hpause : controlOp f ≠ some 0x0001) :
    Runs (.ctlFrameBad p) s ((s.dev.takeControl f).inc F.EGR_RX_CTL_BAD_COUNT [p.val]) :=
  Runs.of_run hl rfl (by simp [hf, hpfc, hpause])

end Taken

theorem runs_pauseTimerExpiry_pri {g : Fin 8} (h : s.dev.priPaused p.val g.val = true) :
    Runs (.pauseTimerExpiry p (some g)) s (s.dev.loadPause p.val g.val 0) :=
  Runs.of_run hl rfl (by simp [h])

theorem runs_pauseTimerExpiry_port (h : s.dev.on F.EGR_PORT_STAT_PAUSE_ALL [p.val] = true) :
    Runs (.pauseTimerExpiry p none) s (s.dev.loadPortPause p.val 0) :=
  Runs.of_run hl rfl (if_pos h)

end PauseCommands

/-- Settles O33: each frame by what it is, the PAUSE timer by its load. -/
theorem pauseFrames : Obligations.PauseFrames := by
  unfold Obligations.PauseFrames
  intro s p f hl
  refine ⟨fun hf => ⟨runs_pfcRx hl hf, fun hop hen => ⟨_, runs_pauseRx hl hf hop hen, ?_, ?_, ?_, ?_⟩, runs_pauseRx_off hl hf,
    runs_ctlFrameBad hl hf⟩, fun g => runs_pauseTimerExpiry_pri hl, fun hall => ⟨_, runs_pauseTimerExpiry_port hl hall, ?_⟩⟩
  · rw [Dev.on_latched _ _ _ hl.2, Dev.pauseAll_loadPortPause]
    exact bne_eq_decide_ne _
  · rw [Dev.egrPort_latched, Dev.quanta_loadPortPause]
  · rw [Dev.latched_dp, Dev.control_loadPortPause, Dev.control_pauseCounted]
  · rw [Dev.rd_latched _ _ _ hl.2, Dev.rd_loadPortPause_apart _ _ _ _ (by decide), Dev.count_pauseCounted]
  · rw [Dev.on_latched _ _ _ hl.2, Dev.pauseAll_loadPortPause]
    rfl

/-! ## Meters (R226 to R230) -/

/-- A field just written reads as written, with its width by its number. -/
theorem Dev.rd_wr_width (d : Dev) {f : Fld} (ix : List Nat) (v : Nat) {w : Nat} (hw : f.hi + 1 - f.lo = w) (hlo : f.lo ≤ f.hi)
    (hhi : f.hi < 64) : (d.wr f ix v).rd f ix = v % 2 ^ w := by
  rw [d.rd_wr_self f ix v hlo hhi, hw]

def Dev.setMtrBusy (d : Dev) : Dev := { d with dp := { d.dp with mtrBusy := true } }

theorem Dev.rd_setMtrBusy (d : Dev) (f : Fld) (ix : List Nat) : d.setMtrBusy.rd f ix = d.rd f ix := rfl

/-- MTR_CMD as a write of `v` leaves it. -/
def mtrWord (v : Nat) : Nat := setBitsOf (setBitsOf (v % 2 ^ 32) 31 30 0) 26 18 0

/-- MTR_CMD written with GO: BUSY stands (log 41). -/
def Dev.mtrStarted (d : Dev) (v : Nat) : Dev := (d.setRaw R.MTR_CMD [] (mtrWord v)).setMtrBusy

theorem Dev.mtrCmd_busy (d : Dev) (mid v : Nat) (h : d.dp.mtrBusy = true) : d.mtrCmd mid v = d := if_pos (by simp [h])

theorem Dev.mtrCmd_go {d : Dev} {mid v : Nat} (hacc : pfOrSvc mid = true) (hidle : d.dp.mtrBusy = false) (hgo : bitAt v 30 = true) :
    d.mtrCmd mid v = match bitsOf v 29 28 with
      | 0 => (d.mtrStarted v).mtrRead (bitsOf v 17 0)
      | 1 => (d.mtrStarted v).mtrWrite (bitsOf v 17 0) (bitAt v 27)
      | 2 => (d.mtrStarted v).mtrClear (bitsOf v 17 0)
      | _ => d.mtrStarted v := by
  simp only [Dev.mtrCmd, hacc, hidle, hgo, Bool.not_true, Bool.or_self, Bool.false_eq_true, if_false, if_true]
  rfl

@[simp] theorem Dev.meter_latched (d e : Dev) (i : Nat) : (Dev.latched d e).meter i = e.meter i := rfl

theorem Dev.meter_setMeter_self (d : Dev) (i : Nat) (x : Meter) : (d.setMeter i x).meter i = x := Sparse.get_set_self _ _ _ _

theorem Dev.meter_setMeter_other (d : Dev) {i j : Nat} (x : Meter) (h : j ≠ i) : (d.setMeter i x).meter j = d.meter j :=
  Sparse.get_set_other _ _ _ _ _ _ h

theorem Dev.refill_profile (d : Dev) (x : Meter) : (d.refill x).profile = x.profile := by
  unfold Dev.refill
  dsimp only
  split <;> rfl

/-- A byte count shown in two dwords from `x.1` on. -/
def Dev.showBytes (d : Dev) (x : Nat × Nat) : Dev :=
  (d.wr F.MTR_DATA_BYTES_BYTES [x.1] (x.2 % 2 ^ 32)).wr F.MTR_DATA_BYTES_BYTES [x.1 + 1] (x.2 / 2 ^ 32)

/-- The profile and the bucket levels of meter `i` shown. -/
def Dev.showLevels (d : Dev) (i : Nat) : Dev :=
  ((d.wr F.MTR_DATA_PROFILE_PROFILE [] (d.meter i).profile).wr F.MTR_DATA_LEVEL_LEVEL [1] ((d.refill (d.meter i)).tc / 256)).wr
    F.MTR_DATA_LEVEL_LEVEL [2] ((d.refill (d.meter i)).te / 256)

theorem Dev.mtrRead_eq (d : Dev) (i : Nat) : d.mtrRead i = [(3, (d.refill (d.meter i)).green), (5, (d.refill (d.meter i)).yellow),
    (7, (d.refill (d.meter i)).red)].foldl Dev.showBytes (d.showLevels i) := by
  rw [Dev.showLevels, ← d.refill_profile (d.meter i)]
  rfl

theorem Dev.dp_mtrRead (d : Dev) (i : Nat) : (d.mtrRead i).dp = d.dp := by
  rw [Dev.mtrRead_eq, foldl_proj Dev.dp Dev.showBytes fun e x => by rw [Dev.showBytes, Dev.wr_dp, Dev.wr_dp]]
  rw [Dev.showLevels, Dev.wr_dp, Dev.wr_dp, Dev.wr_dp]

/-- The registers of the byte counts lie apart from those of the profile and the levels. -/
theorem Dev.rd_mtrRead (d : Dev) (i : Nat) {f : Fld} (ix : List Nat) (h : f.apart F.MTR_DATA_BYTES_BYTES = true) :
    (d.mtrRead i).rd f ix = (d.showLevels i).rd f ix := by
  rw [Dev.mtrRead_eq]
  exact foldl_proj (fun e : Dev => e.rd f ix) _ (fun e x => by rw [Dev.showBytes, Dev.rd_wr_apart _ _ _ _ h, Dev.rd_wr_apart _ _ _ _ h]) _ _

theorem Dev.profile_mtrRead (d : Dev) (i : Nat) : (d.mtrRead i).rd F.MTR_DATA_PROFILE_PROFILE [] = (d.meter i).profile % 2 ^ 12 := by
  rw [Dev.rd_mtrRead _ _ _ (by decide), Dev.showLevels, Dev.rd_wr_apart _ _ _ _ (by decide), Dev.rd_wr_apart _ _ _ _ (by decide),
    Dev.rd_wr_width (w := 12) _ _ _ (by decide) (by decide) (by decide)]

theorem Dev.committed_mtrRead (d : Dev) (i : Nat) :
    (d.mtrRead i).rd F.MTR_DATA_LEVEL_LEVEL [1] = (d.refill (d.meter i)).tc / 256 % 2 ^ 25 := by
  rw [Dev.rd_mtrRead _ _ _ (by decide), Dev.showLevels, Dev.rd_wr_of_key _ _ _ _ _ _ (by decide),
    Dev.rd_wr_width (w := 25) _ _ _ (by decide) (by decide) (by decide)]

theorem Dev.excess_mtrRead (d : Dev) (i : Nat) :
    (d.mtrRead i).rd F.MTR_DATA_LEVEL_LEVEL [2] = (d.refill (d.meter i)).te / 256 % 2 ^ 25 := by
  rw [Dev.rd_mtrRead _ _ _ (by decide), Dev.showLevels, Dev.rd_wr_width (w := 25) _ _ _ (by decide) (by decide) (by decide)]

/-! A command in MTR_CMD leaves the meters, the profiles and the profile that a WRITE names as they are until it acts. -/

section Started

variable (d : Dev) (v : Nat)

theorem Dev.comm_setMtrBusy : d.setMtrBusy.comm = d.comm := rfl
theorem Dev.rst_setMtrBusy : d.setMtrBusy.rst = d.rst := rfl
theorem Dev.meter_setMtrBusy (i : Nat) : d.setMtrBusy.meter i = d.meter i := rfl
theorem Dev.meter_setRaw (r : Reg) (ix : List Nat) (i : Nat) : (d.setRaw r ix v).meter i = d.meter i := rfl

theorem Dev.dp_mtrStarted : (d.mtrStarted v).dp = { d.dp with mtrBusy := true } := by
  rw [Dev.mtrStarted, Dev.setMtrBusy, Dev.setRaw_dp]

theorem Dev.meter_mtrStarted (i : Nat) : (d.mtrStarted v).meter i = d.meter i := by
  rw [Dev.mtrStarted, Dev.meter_setMtrBusy, Dev.meter_setRaw]

theorem Dev.cm_mtrStarted (f : Fld) (ix : List Nat) : (d.mtrStarted v).cm f ix = d.cm f ix :=
  Dev.cm_congr (by rw [Dev.mtrStarted, Dev.comm_setMtrBusy, Dev.setRaw_comm]) f ix

theorem Dev.mtrCbs_mtrStarted (k : Nat) : (d.mtrStarted v).mtrCbs k = d.mtrCbs k := by
  rw [Dev.mtrCbs, Dev.cm_mtrStarted, Dev.mtrCbs]

theorem Dev.mtrEbs_mtrStarted (k : Nat) : (d.mtrStarted v).mtrEbs k = d.mtrEbs k := by
  rw [Dev.mtrEbs, Dev.cm_mtrStarted, Dev.mtrEbs]

theorem Dev.refill_mtrStarted (x : Meter) : (d.mtrStarted v).refill x = d.refill x := by
  have hrst : (d.mtrStarted v).rst = d.rst := by rw [Dev.mtrStarted, Dev.rst_setMtrBusy, Dev.setRaw_rst]
  simp only [Dev.refill, Dev.mtrMode, Dev.mtrCbs_mtrStarted, Dev.mtrEbs_mtrStarted, Dev.cm_mtrStarted, hrst]

theorem Dev.profile_mtrStarted : (d.mtrStarted v).rd F.MTR_DATA_PROFILE_PROFILE [] = d.rd F.MTR_DATA_PROFILE_PROFILE [] := by
  rw [Dev.mtrStarted, Dev.rd_setMtrBusy, d.rd_setRaw_other [] [] _ (by decide) (by decide) (by decide)]

/-- A WRITE with profile `k` in MTR_DATA leaves meter `i` with that profile, its buckets filled or clamped to the bursts of it. -/
theorem Dev.meter_mtrWrite (i : Nat) (fill : Bool) {k : Nat} (hk : d.rd F.MTR_DATA_PROFILE_PROFILE [] = k) :
    ((d.mtrStarted v).mtrWrite i fill).meter i = { d.meter i with
      profile := k
      tc := if fill then d.mtrCbs k else min (d.mtrCbs k) (d.meter i).tc
      te := if fill then d.mtrEbs k else min (d.mtrEbs k) (d.meter i).te } := by
  rw [Dev.mtrWrite, Dev.meter_setMeter_self, Dev.profile_mtrStarted, hk, Dev.mtrCbs_mtrStarted, Dev.mtrEbs_mtrStarted,
    Dev.meter_mtrStarted]

end Started

section MeterRows

variable {s : State} {m : Master} {v : BitVec 32} (hl : Live s) (hb : s.dev.hostBlocked m = false)
  (hi : s.dev.on F.RST_STAT_INIT_DONE [] = true) (hgo : bitAt v.toNat 30 = true)

include hl hb hi hgo

/-- A row of MTR_CMD writes the command that it names. -/
theorem runs_mtrRow {c : Instr} {op : Nat} (hc : exec c s = s.run (fun d =>
    if mtrNames v.toNat op then d.access m R.MTR_CMD.bar0 v.toNat (fun d => d.mtrCmd m.mid v.toNat) else d))
    (hop : bitsOf v.toNat 29 28 = op) : Runs c s (s.dev.mtrCmd m.mid v.toNat) := by
  refine Runs.of_run hl hc ?_
  rw [if_pos (by simp [mtrNames, hgo, hop]), Dev.access_initialised _ _ _ hb hi]

theorem runs_mtrRow_busy (hbusy : s.dev.dp.mtrBusy = true) : ∀ c ∈ [(0, Instr.mtrRead m v), (1, .mtrWrite m v), (2, .mtrClear m v)],
    bitsOf v.toNat 29 28 = c.1 → Runs c.2 s s.dev := by
  have row := fun {c : Instr} {op : Nat} => runs_mtrRow hl hb hi hgo (c := c) (op := op)
  rw [Dev.mtrCmd_busy _ _ _ hbusy] at row
  simp only [List.forall_mem_cons, List.not_mem_nil, false_imp_iff, implies_true, and_true]
  exact ⟨row rfl, row rfl, row rfl⟩

variable (hacc : pfOrSvc m.mid = true) (hidle : s.dev.dp.mtrBusy = false)

include hacc hidle

theorem runs_mtrRead (hop : bitsOf v.toNat 29 28 = 0) :
    Runs (.mtrRead m v) s ((s.dev.mtrStarted v.toNat).mtrRead (bitsOf v.toNat 17 0)) := by
  have h := runs_mtrRow hl hb hi hgo (c := .mtrRead m v) rfl hop
  rwa [Dev.mtrCmd_go hacc hidle hgo, hop] at h

theorem runs_mtrWrite (hop : bitsOf v.toNat 29 28 = 1) :
    Runs (.mtrWrite m v) s ((s.dev.mtrStarted v.toNat).mtrWrite (bitsOf v.toNat 17 0) (bitAt v.toNat 27)) := by
  have h := runs_mtrRow hl hb hi hgo (c := .mtrWrite m v) rfl hop
  rwa [Dev.mtrCmd_go hacc hidle hgo, hop] at h

theorem runs_mtrClear (hop : bitsOf v.toNat 29 28 = 2) :
    Runs (.mtrClear m v) s ((s.dev.mtrStarted v.toNat).mtrClear (bitsOf v.toNat 17 0)) := by
  have h := runs_mtrRow hl hb hi hgo (c := .mtrClear m v) rfl hop
  rwa [Dev.mtrCmd_go hacc hidle hgo, hop] at h

end MeterRows

/-- srTCM takes tokens of one bucket at most, and of the committed one for green (R226, R227). -/
theorem Dev.police_srTcm {d : Dev} {x : Meter} (b c : Nat) (hmode : d.mtrMode x.profile = 0) :
    (d.police x b c).1.tc ≤ x.tc ∧ (d.police x b c).1.te ≤ x.te ∧ ((d.police x b c).2 = 2 → (d.police x b c).1 = x) ∧
      ((d.police x b c).2 = 0 → c = 0 ∧ b * 256 ≤ x.tc) := by
  simp only [Dev.police, hmode]
  split
  next hgreen => simpa using hgreen
  · split <;> simp

/-- trTCM takes tokens of the peak bucket for yellow, and of both for green (R226, R227). -/
theorem Dev.police_trTcm {d : Dev} {x : Meter} (b c : Nat) (hmode : d.mtrMode x.profile = 1) :
    (d.police x b c).1.tc ≤ x.tc ∧ (d.police x b c).1.te ≤ x.te ∧ ((d.police x b c).2 = 2 → (d.police x b c).1 = x) ∧
      ((d.police x b c).2 = 0 → c = 0 ∧ b * 256 ≤ x.tc) := by
  simp only [Dev.police, hmode]
  split
  · simp
  · split
    next hgreen => simpa using hgreen
    · simp

/-- Settles O35: the rows of MTR_CMD by the command that each names, policing by the two algorithms. -/
theorem meterCommands : Obligations.MeterCommands := by
  unfold Obligations.MeterCommands
  refine ⟨fun s m v hl hacc hb hi hgo => ⟨runs_mtrRow_busy hl hb hi hgo, fun hop hidle => ?read, fun hop hidle => ?write,
    fun hop hidle => ?clear⟩, fun d x b c hmode => ?police⟩
  case read =>
    refine ⟨_, runs_mtrRead hl hb hi hgo hacc hidle hop, ?_, ?_, ?_, ?_⟩
    · rw [Dev.latched_dp, Dev.dp_mtrRead, Dev.dp_mtrStarted]
    · rw [Dev.rd_latched _ _ _ hl.2, Dev.profile_mtrRead, Dev.meter_mtrStarted]
    · rw [Dev.rd_latched _ _ _ hl.2, Dev.committed_mtrRead, Dev.meter_mtrStarted, Dev.refill_mtrStarted]
    · rw [Dev.rd_latched _ _ _ hl.2, Dev.excess_mtrRead, Dev.meter_mtrStarted, Dev.refill_mtrStarted]
  case write =>
    have hx := fun fill => s.dev.meter_mtrWrite v.toNat (bitsOf v.toNat 17 0) fill rfl
    refine ⟨_, runs_mtrWrite hl hb hi hgo hacc hidle hop, fun hfill => ?_, fun hfill => ?_, ?_, fun j hj => ?_⟩
    · rw [Dev.meter_latched, hx, hfill]
      exact ⟨rfl, rfl⟩
    · rw [Dev.meter_latched, hx, hfill]
      exact ⟨rfl, rfl⟩
    · rw [Dev.meter_latched, hx]
    · rw [Dev.meter_latched, Dev.mtrWrite, Dev.meter_setMeter_other _ _ hj, Dev.meter_mtrStarted]
  case clear =>
    refine ⟨_, runs_mtrClear hl hb hi hgo hacc hidle hop, ?_, fun j hj => ?_⟩ <;> rw [Dev.meter_latched, Dev.mtrClear]
    · rw [Dev.meter_setMeter_self, Dev.meter_mtrStarted]
    · rw [Dev.meter_setMeter_other _ _ hj, Dev.meter_mtrStarted]
  case police =>
    obtain hmode | hmode : d.mtrMode x.profile = 0 ∨ d.mtrMode x.profile = 1 := by omega
    · exact Dev.police_srTcm b c hmode
    · exact Dev.police_trTcm b c hmode

/-! ## The watchdog and the flush (R222 to R225) -/

theorem Dev.flushReason_setEgrPort (d : Dev) (p q : Nat) (x : EgrPort) : (d.setEgrPort p x).flushReason q = d.flushReason q := rfl

/-- The flush of port `p` begun for reason `r`. -/
def Dev.flushBegun (d : Dev) (p r : Nat) : Dev := d.setEgrPort p { d.egrPort p with flush := some r }

theorem Dev.flush_flushBegun (d : Dev) (p r : Nat) : ((d.flushBegun p r).egrPort p).flush = some r := by
  rw [Dev.flushBegun, Dev.egrPort_setEgrPort_self]

/-- A port whose state gives reason `r` is flushed for it once the flush has begun. -/
theorem Dev.flushing_flushBegun {d : Dev} {p r : Nat} (h : d.flushReason p = some r) : (d.flushBegun p r).flushing p = true := by
  simp [Dev.flushing, Dev.flushNow, Dev.flushBegun, Dev.egrPort_setEgrPort_self, Dev.flushReason_setEgrPort, h]

/-- What the flush engine of cluster `n` finds at queue `i` of its 384: the reason of its flush and its candidate. -/
def Dev.flushAt (d : Dev) (n i : Nat) : Option (Nat × Nat × Copy) :=
  match d.queueFlush (32 * n + i / 12) (i % 12), d.candidate (32 * n + i / 12) (i % 12) with
  | some r, some c => some (i, r, c)
  | _, _ => none

theorem Dev.flushAt_some {d : Dev} {n i r : Nat} {c : Copy} (hr : d.queueFlush (32 * n + i / 12) (i % 12) = some r)
    (hc : d.candidate (32 * n + i / 12) (i % 12) = some c) : d.flushAt n i = some (i, r, c) := by
  rw [Dev.flushAt, hr, hc]

theorem Dev.flushAt_none {d : Dev} {n i : Nat}
    (h : d.queueFlush (32 * n + i / 12) (i % 12) = none ∨ d.candidate (32 * n + i / 12) (i % 12) = none) : d.flushAt n i = none := by
  unfold Dev.flushAt
  split
  next hr hc => simp [hr, hc] at h
  · rfl

/-- The round of the flush engine of cluster `n`: its queues from the pointer on, the first that is due. -/
def Dev.flushFound (d : Dev) (n : Nat) : Option (Nat × Nat × Copy) :=
  (List.range 384).findSome? (fun j => d.flushAt n (((d.egrPort (32 * n)).flushNext + j) % 384))

/-- The candidate `c` of queue `i` dropped for reason `r`; the pointer names the queue after it. -/
def Dev.flushed (d : Dev) (n i r : Nat) (c : Copy) : Dev :=
  (((d.setEgrPort (32 * n) { d.egrPort (32 * n) with flushNext := (i + 1) % 384 }).pmc 106 0x4C 1).nextVoq c).schedDrop r c

theorem exec_flushDrop (n : Fin 32) (s : State) : exec (.flushDrop n) s = s.run (fun d =>
    match if d.safe then none else d.flushFound n.val with
    | none => d
    | some (i, r, c) => d.flushed n.val i r c) := by
  have hport : ∀ i, (384 * n.val + i) / 12 = 32 * n.val + i / 12 := fun i => by omega
  have hqueue : ∀ i, (384 * n.val + i) % 12 = i % 12 := fun i => by omega
  refine congrArg s.run (funext fun d => ?_)
  simp only [Dev.flushFound, List.findSome?_map, hport, hqueue]
  rfl

/-- The first hit of a search over the numbers below `n`. -/
theorem findSome?_range_first {α : Type} {g : Nat → Option α} {n k : Nat} {y : α} (hk : k < n) (hy : g k = some y)
    (hlt : ∀ j < k, g j = none) : (List.range n).findSome? g = some y := by
  obtain ⟨m, rfl⟩ : ∃ m, n = k + (m + 1) := ⟨n - k - 1, by omega⟩
  rw [List.range_add, List.findSome?_append, List.findSome?_eq_none_iff.2 fun j hj => hlt j (List.mem_range.1 hj), List.range_succ_eq_map]
  simp [hy]

section FlushCommands

variable {s : State} (hl : Live s)

include hl

theorem runs_pfcwdPeriod : Runs .pfcwdPeriod s (s.dev.wdPorts.foldl (fun d p =>
    let d := (List.range 8).foldl (fun d g => d.wdPeriod p g) d
    d.setEgrPort p { d.egrPort p with
      rxPause := 0, held := bitsFrom 8 (d.priPaused p), heldQ := bitsFrom 12 (fun q => (d.candidate p q).isSome) }) s.dev) :=
  Runs.of_run hl rfl rfl

theorem flushStart_next {p : Fin 1024} {r : Nat} (h : s.dev.flushReason p.val = some r) :
    exec (.flushStart p) s = .next { s with dev := s.dev.flushBegun p.val r } := by
  have hrun : Runs (.flushStart p) s (s.dev.flushBegun p.val r) := Runs.of_run hl rfl (by simp [h, Dev.flushBegun])
  rwa [Runs, Dev.latched_eq s.dev (s.dev.flushBegun p.val r) hl.2 rfl rfl rfl] at hrun

theorem runs_flushDrop {n : Fin 32} {i r : Nat} {c : Copy} (hsafe : s.dev.safe = false)
    (h : s.dev.flushFound n.val = some (i, r, c)) : Runs (.flushDrop n) s (s.dev.flushed n.val i r c) :=
  Runs.of_run hl (exec_flushDrop n s) (by simp [hsafe, h])

theorem runs_flushDrop_none {n : Fin 32} (h : s.dev.flushFound n.val = none) : Runs (.flushDrop n) s s.dev :=
  Runs.of_run hl (exec_flushDrop n s) (by simp [h])

end FlushCommands

/-! ## Gates (R209, R213) -/

theorem Dev.rd_setEgrPort (d : Dev) (p : Nat) (x : EgrPort) (f : Fld) (ix : List Nat) : (d.setEgrPort p x).rd f ix = d.rd f ix := rfl

/-- A port accepts the other bank: a switch to it waits. -/
theorem Dev.gclCtl_accepted {d : Dev} {p v : Nat} (hgo : bitAt v 31 = true) (hpend : d.on F.EGR_PORT_STAT_PEND [p] = false)
    (hbank : d.rd F.EGR_PORT_STAT_OPER_BANK [p] ≠ bitsOf v 30 30)
    (hvalid : ((d.wr F.EGR_GCL_CTL_NEW_BANK [p] (bitsOf v 30 30)).gateList p (bitsOf v 30 30)).valid = true) :
    (d.gclCtl p v).on F.EGR_PORT_STAT_PEND [p] = true := by
  have hbank' : (d.wr F.EGR_GCL_CTL_NEW_BANK [p] (bitsOf v 30 30)).rd F.EGR_PORT_STAT_OPER_BANK [p] ≠ bitsOf v 30 30 := by
    rwa [Dev.rd_wr_apart _ _ _ _ (by decide)]
  simp only [Dev.gclCtl, hgo, hpend, hbank', hvalid, Bool.not_true, Bool.false_eq_true, if_false, decide_false, Bool.or_self]
  rw [Dev.on, Dev.rd_setEgrPort]
  exact Dev.on_wr_bit _ F.EGR_PORT_STAT_PEND [p] true rfl (by decide)

theorem gclCtl_ready (p : Fin 1024) : initWindow (R.EGR_GCL_CTL.bar0At p.val / 1048576) = false := by
  have hwin : R.EGR_GCL_CTL.bar0At p.val / 1048576 = 13 := by
    rw [show R.EGR_GCL_CTL.bar0At p.val = 13 * 1048576 + 0x10 + p.val * 0x200 from rfl]
    omega
  rw [hwin]
  decide

section GateCommands

variable {s : State} (hl : Live s) {p : Fin 1024}

include hl

theorem runs_gateIntervalEnd (h : s.dev.on F.EGR_PORT_CFG_GATE_EN [p.val] = true) :
    Runs (.gateIntervalEnd p) s (s.dev.dropOversizeAll p.val) := Runs.of_run hl rfl (if_pos h)

/-- The other bank in operation. -/
def Dev.gclSwitched (d : Dev) (p : Nat) : Dev :=
  ((d.noteGates p).wr F.EGR_PORT_STAT_OPER_BANK [p] (1 - d.rd F.EGR_PORT_STAT_OPER_BANK [p])).wr F.EGR_PORT_STAT_PEND [p] 0

theorem runs_gclSwitch (hpend : s.dev.on F.EGR_PORT_STAT_PEND [p.val] = true) (htsw : (s.dev.egrPort p.val).tsw ≤ s.dev.ns) :
    Runs (.gclSwitch p) s (((s.dev.gclSwitched p.val).setEgrPort p.val
      { (s.dev.gclSwitched p.val).egrPort p.val with tsw := 0 }).dropOversizeAll p.val) :=
  Runs.of_run hl rfl (if_pos (by simp [hpend, htsw]))

theorem runs_gclSwitchReq {m : Master} {v : BitVec 32} (hm : isPfSvc m = true) (hb : s.dev.hostBlocked m = false)
    (hgo : bitAt v.toNat 31 = true) : Runs (.gclSwitchReq m p v) s (s.dev.gclCtl p.val v.toNat) :=
  Runs.of_run hl rfl ((if_pos hgo).trans (Dev.accessPf_taken _ _ hm hb (gclCtl_ready p)))

end GateCommands

/-! ## The Lehr's clock (R217, R218) -/

theorem Dev.lehrQ_setLehrQ_self (d : Dev) (p q : Nat) (x : LehrQ) : (d.setLehrQ p q x).lehrQ p q = x := Sparse.get_set_self _ _ _ _

theorem Dev.rd_setLehrQ (d : Dev) (p q : Nat) (x : LehrQ) (f : Fld) (ix : List Nat) : (d.setLehrQ p q x).rd f ix = d.rd f ix := rfl

theorem Dev.lehrEligible_latched (d e : Dev) (p q : Nat) : (Dev.latched d e).lehrEligible p q = e.lehrEligible p q := rfl

section LehrWrite

variable (d : Dev) (p q v : Nat)

theorem Dev.rate_lehrWrite : (d.lehrWrite p q false v).rd F.LEHR_Q_RATE_RATE [p, q] = v % 2 ^ 21 := by
  have hrate : (d.wr F.LEHR_Q_RATE_RATE [p, q] (v % 2 ^ 21)).rd F.LEHR_Q_RATE_RATE [p, q] = v % 2 ^ 21 := by
    rw [Dev.rd_wr_width (w := 21) _ _ _ (by decide) (by decide) (by decide), Nat.mod_mod]
  rw [Dev.lehrWrite, if_neg Bool.false_ne_true]
  dsimp only
  split
  · rw [Dev.rd_setLehrQ, hrate]
  · exact hrate

theorem Dev.burst_lehrWrite : (d.lehrWrite p q true v).rd F.LEHR_Q_BURST_BYTES [p, q] = v % 2 ^ 24 := by
  rw [Dev.lehrWrite, if_pos rfl, Dev.rd_wr_width (w := 24) _ _ _ (by decide) (by decide) (by decide), Nat.mod_mod]

theorem Dev.lehrEligible_lehrWrite (hold : d.rd F.LEHR_Q_RATE_RATE [p, q] ≠ 0) (hnew : v % 2 ^ 21 = 0) :
    (d.lehrWrite p q false v).lehrEligible p q = true := by
  rw [Dev.lehrWrite, if_neg Bool.false_ne_true]
  dsimp only
  rw [if_pos (by rw [decide_eq_true hold, decide_eq_true hnew]; rfl), Dev.lehrEligible, Dev.lehrQ_setLehrQ_self]
  rfl

end LehrWrite

theorem runs_lehrRateWrite {s : State} {m : Master} {p : Fin 1024} {q : Fin 12} {v : BitVec 32} (burst : Bool) (hl : Live s)
    (hm : isPfSvc m = true) (hb : s.dev.hostBlocked m = false) (hi : s.dev.on F.RST_STAT_INIT_DONE [] = true) :
    Runs (.lehrRateWrite m p q burst v) s (s.dev.lehrWrite p.val q.val burst v.toNat) :=
  Runs.of_run hl rfl ((if_pos hm).trans (Dev.access_initialised _ _ _ hb hi))

/-- Settles O34: the flush by the round of its engine, each other command by the branch that its conditions choose. -/
theorem watchdogAndFlush : Obligations.WatchdogAndFlush := by
  unfold Obligations.WatchdogAndFlush
  intro s hl
  refine ⟨runs_pfcwdPeriod hl, fun p r hr => ⟨_, flushStart_next hl hr, Dev.flushing_flushBegun hr, Dev.flush_flushBegun _ _ _⟩,
    ?drop, ?noDrop, fun _ => runs_gateIntervalEnd hl, fun _ => runs_gclSwitch hl, ?switchReq, ⟨_, rfl, Runs.of_run hl rfl rfl⟩, ?write⟩
  case drop =>
    intro n k r c hsafe hk at_ due cand hdue hcand hlt
    have hfound : s.dev.flushFound n.val = some (at_ k, r, c) :=
      findSome?_range_first hk (Dev.flushAt_some (i := at_ k) hdue hcand) fun j hj => Dev.flushAt_none (i := at_ j) (hlt j hj)
    exact runs_flushDrop hl hsafe hfound
  case noDrop =>
    intro n h
    refine runs_flushDrop_none hl (List.findSome?_eq_none_iff.2 fun j _ => Dev.flushAt_none (h _ _ ?_ ?_)) <;> omega
  case switchReq =>
    intro m p v hm hb hgo hpend hbank hvalid
    refine ⟨_, runs_gclSwitchReq hl hm hb hgo, ?_⟩
    rw [Dev.on_latched _ _ _ hl.2, Dev.gclCtl_accepted hgo hpend hbank hvalid]
  case write =>
    intro m p q v hm hb hi
    refine ⟨⟨_, runs_lehrRateWrite false hl hm hb hi, ?_, fun hold hnew => ?_⟩, ⟨_, runs_lehrRateWrite true hl hm hb hi, ?_⟩⟩
    · rw [Dev.rd_latched _ _ _ hl.2, Dev.rate_lehrWrite]
    · rw [Dev.lehrEligible_latched, Dev.lehrEligible_lehrWrite _ _ _ _ hold hnew]
    · rw [Dev.rd_latched _ _ _ hl.2, Dev.burst_lehrWrite]

end Sys2Proof.Machine

/-!
PROOFS of the statements of spec/07_egress_scheduling.md: the path of a frame from the scheduler's decision to the wire. The round robin
by itself comes first, then what the scheduler decides by, then one decision, then the commands.
-/

namespace Sys2Proof.Machine

/-! ## Deficit round robin (R206) -/

section Drr

variable {elig : Nat → Option Nat} {quantum next : Nat → Nat} {fuel q l : Nat} {fresh : Bool} {old new : Sparse Nat}

/-- The deficit of queue `q` at a visit: a fresh one adds its quantum. -/
def visitDeficit (quantum : Nat → Nat) (old : Sparse Nat) (q : Nat) (fresh : Bool) : Nat := Sparse.get 0 old q + b2n fresh * quantum q

theorem visitDeficit_fresh (quantum : Nat → Nat) (old : Sparse Nat) (q : Nat) :
    visitDeficit quantum old q true = Sparse.get 0 old q + quantum q := by
  rw [visitDeficit, b2n, if_pos rfl, Nat.one_mul]

theorem drr_succ_some (h : elig q = some l) : drr elig quantum next (fuel + 1) q fresh old =
    if l ≤ visitDeficit quantum old q fresh then some (q, Sparse.set 0 old q (visitDeficit quantum old q fresh - l))
    else drr elig quantum next fuel (next q) true (Sparse.set 0 old q (visitDeficit quantum old q fresh)) := by
  have hvisit : Sparse.get 0 old q + (if fresh then quantum q else 0) = visitDeficit quantum old q fresh := by
    cases fresh <;> simp [visitDeficit, b2n]
  rw [drr, h]
  simp only [hvisit]

/-- A queue that takes no part is passed over. -/
theorem drr_absent (h : elig q = none) :
    drr elig quantum next (fuel + 1) q fresh old = drr elig quantum next fuel (next q) true old := by
  rw [drr, h]

/-- A queue whose deficit suffices sends. -/
theorem drr_sends (h : elig q = some l) (hle : l ≤ visitDeficit quantum old q fresh) : drr elig quantum next (fuel + 1) q fresh old =
    some (q, Sparse.set 0 old q (visitDeficit quantum old q fresh - l)) := by
  rw [drr_succ_some h, if_pos hle]

/-- A queue whose deficit does not suffice keeps it, and the next one is visited. -/
theorem drr_passes (h : elig q = some l) (hlt : visitDeficit quantum old q fresh < l) : drr elig quantum next (fuel + 1) q fresh old =
    drr elig quantum next fuel (next q) true (Sparse.set 0 old q (visitDeficit quantum old q fresh)) := by
  rw [drr_succ_some h, if_neg (Nat.not_le.2 hlt)]

/-- Queue `q` sends `l` bytes, with `n` quanta given to each queue: each keeps its own deficit and its quanta, less `l` for `q`; only
queues that take part get quanta, and one that got them and did not send has less than its L. -/
structure Dealt (elig : Nat → Option Nat) (quantum : Nat → Nat) (old new : Sparse Nat) (q l : Nat) (n : Nat → Nat) : Prop where
  takesPart : elig q = some l
  sent : Sparse.get 0 new q + l = Sparse.get 0 old q + n q * quantum q
  kept : ∀ j, j ≠ q → Sparse.get 0 new j = Sparse.get 0 old j + n j * quantum j
  given : ∀ j, 0 < n j → (elig j).isSome = true
  short : ∀ j, j ≠ q → 0 < n j → ∃ k, elig j = some k ∧ Sparse.get 0 new j < k

/-- A visit of queue `q` counted. -/
def visitOf (q : Nat) (fresh : Bool) (j : Nat) : Nat := if j = q then b2n fresh else 0

theorem visitOf_self (q : Nat) (fresh : Bool) : visitOf q fresh q = b2n fresh := if_pos rfl

theorem visitOf_other {j q : Nat} (h : j ≠ q) (fresh : Bool) : visitOf q fresh j = 0 := if_neg h

theorem dealt_of_sends (h : elig q = some l) (hle : l ≤ visitDeficit quantum old q fresh) :
    Dealt elig quantum old (Sparse.set 0 old q (visitDeficit quantum old q fresh - l)) q l (visitOf q fresh) where
  takesPart := h
  sent := by rw [Sparse.get_set_self, visitOf_self, Nat.sub_add_cancel hle, visitDeficit]
  kept j hj := by rw [Sparse.get_set_other _ _ _ _ _ _ hj, visitOf_other hj, Nat.zero_mul, Nat.add_zero]
  given j hn := by
    by_cases hj : j = q
    · rw [hj, h]
      rfl
    · rw [visitOf_other hj] at hn
      omega
  short j hj hn := by
    rw [visitOf_other hj] at hn
    omega

/-- A visit that did not suffice comes before the rest of the round. -/
theorem Dealt.after_visit {n : Nat → Nat} {v k : Nat} (hv : elig v = some k) (hlt : visitDeficit quantum old v fresh < k)
    (h : Dealt elig quantum (Sparse.set 0 old v (visitDeficit quantum old v fresh)) new q l n) :
    Dealt elig quantum old new q l (fun j => n j + visitOf v fresh j) := by
  have hold : ∀ j, Sparse.get 0 (Sparse.set 0 old v (visitDeficit quantum old v fresh)) j + n j * quantum j =
      Sparse.get 0 old j + (n j + visitOf v fresh j) * quantum j := fun j => by
    by_cases hj : j = v
    · rw [hj, Sparse.get_set_self, visitOf_self, visitDeficit]
      ring
    · rw [Sparse.get_set_other _ _ _ _ _ _ hj, visitOf_other hj, Nat.add_zero]
  refine ⟨h.takesPart, (hold q) ▸ h.sent, fun j hj => (hold j) ▸ h.kept j hj, fun j hn => ?_, fun j hj hn => ?_⟩
  · by_cases hjv : j = v
    · rw [hjv, hv]
      rfl
    · exact h.given j (by rwa [visitOf_other hjv] at hn)
  · by_cases hnj : 0 < n j
    · exact h.short j hj hnj
    · have hjv : j = v := by
        by_contra hne
        rw [visitOf_other hne] at hn
        exact hnj hn
      subst hjv
      refine ⟨k, hv, ?_⟩
      rw [h.kept j hj, Nat.eq_zero_of_not_pos hnj, Nat.zero_mul, Sparse.get_set_self]
      exact hlt

/-- What a decision leaves of the deficits. -/
theorem dealt_of_drr {e : Nat} (h : drr elig quantum next fuel q fresh old = some (e, new)) :
    ∃ k n, Dealt elig quantum old new e k n := by
  induction fuel generalizing q fresh old with
  | zero => cases h
  | succ fuel ih =>
    cases hq : elig q with
    | none => exact ih (drr_absent hq ▸ h)
    | some k =>
      by_cases hle : k ≤ visitDeficit quantum old q fresh
      · rw [drr_sends hq hle] at h
        obtain ⟨rfl, rfl⟩ := Prod.mk.inj (Option.some.inj h)
        exact ⟨k, _, dealt_of_sends hq hle⟩
      · rw [drr_passes hq (Nat.not_le.1 hle)] at h
        obtain ⟨m, n, hdealt⟩ := ih h
        exact ⟨m, _, hdealt.after_visit hq (Nat.not_le.1 hle)⟩

/-- Queues of the twelve from the one after `q` up to queue `e`. -/
def ringGap (e q : Nat) : Nat := (e + 11 - q % 12) % 12

/-- Visits before queue `e` is reached from queue `q`. -/
def visitsTo (e q : Nat) : Nat := if q = e then 0 else ringGap e q + 1

theorem visitsTo_of_ne {e q : Nat} (h : q ≠ e) : visitsTo e q = ringGap e q + 1 := if_neg h

theorem ringGap_lt (e q : Nat) : ringGap e q < 12 := Nat.mod_lt _ (by decide)

/-- A step along the twelve that does not pass `e` comes nearer to it. -/
theorem visitsTo_step {e q i : Nat} (he : e < 12) (hi : i ≤ ringGap e q) : visitsTo e ((q + 1 + i) % 12) ≤ ringGap e q := by
  unfold visitsTo ringGap at *
  split <;> omega

/-- A decision with `r` rounds of at least 64 bytes to go until queue `e` may send ends within the visits of those rounds. -/
theorem drr_ends {e k r : Nat} (he : elig e = some k) (hquantum : 64 ≤ quantum e) (hnext : ∀ q, visitsTo e (next q) ≤ ringGap e q)
    (hneed : k ≤ Sparse.get 0 old e + 64 * r) (hfuel : 12 * r + visitsTo e q < fuel) :
    (drr elig quantum next fuel q true old).isSome = true := by
  induction fuel generalizing q old r with
  | zero => omega
  | succ fuel ih =>
    have hstep := hnext q
    have hgap := ringGap_lt e q
    cases hq : elig q with
    | none =>
      have hne : q ≠ e := fun h => by simp [h, he] at hq
      rw [visitsTo_of_ne hne] at hfuel
      rw [drr_absent hq]
      exact ih hneed (by omega)
    | some l =>
      by_cases hle : l ≤ visitDeficit quantum old q true
      · rw [drr_sends hq hle]
        rfl
      · rw [drr_passes hq (Nat.not_le.1 hle)]
        by_cases hqe : q = e
        · subst hqe
          obtain rfl : l = k := Option.some.inj (hq.symm.trans he)
          have hvisit := visitDeficit_fresh quantum old q
          obtain ⟨r, rfl⟩ : ∃ m, r = m + 1 := ⟨r - 1, by omega⟩
          refine ih (r := r) ?_ (by omega)
          rw [Sparse.get_set_self]
          omega
        · rw [visitsTo_of_ne hqe] at hfuel
          refine ih (r := r) ?_ (by omega)
          rwa [Sparse.get_set_other _ _ _ _ _ _ (Ne.symm hqe)]

/-- The first visit may find its turn begun: it adds no quantum. -/
theorem drr_ends_any {e k r : Nat} (he : elig e = some k) (hquantum : 64 ≤ quantum e) (hnext : ∀ q, visitsTo e (next q) ≤ ringGap e q)
    (hneed : k ≤ Sparse.get 0 old e + 64 * r) (hfuel : 12 * r + 12 < fuel) :
    (drr elig quantum next fuel q fresh old).isSome = true := by
  obtain ⟨fuel, rfl⟩ : ∃ m, fuel = m + 1 := ⟨fuel - 1, by omega⟩
  have hstep := hnext q
  have hgap := ringGap_lt e q
  cases hq : elig q with
  | none =>
    rw [drr_absent hq]
    exact drr_ends he hquantum hnext hneed (by omega)
  | some l =>
    by_cases hle : l ≤ visitDeficit quantum old q fresh
    · rw [drr_sends hq hle]
      rfl
    · rw [drr_passes hq (Nat.not_le.1 hle)]
      refine drr_ends (r := r) he hquantum hnext ?_ (by omega)
      by_cases hqe : e = q
      · rw [hqe, Sparse.get_set_self, visitDeficit, ← hqe]
        omega
      · rwa [Sparse.get_set_other _ _ _ _ _ _ hqe]

end Drr

/-! ## What leaves (R107) -/

theorem length_fcsBytes (b : List Byte) : (fcsBytes b).length = 4 := by simp [fcsBytes, leBytes]

/-- A frame ends in the FCS of what it sends. -/
theorem fcsGood_append (b : List Byte) : fcsGood (b ++ fcsBytes b) = true := by
  have hlen : (b ++ fcsBytes b).length - 4 = b.length := by rw [List.length_append, length_fcsBytes]; omega
  rw [fcsGood, hlen, List.drop_left, List.take_left, beq_self_eq_true, Bool.and_true, decide_eq_true_eq, List.length_append,
    length_fcsBytes]
  omega

theorem Dev.frameOut_unchanged {d : Dev} {c : Copy} (h : d.copyChanged c = false) : d.frameOut c = d.copySource c :=
  if_neg (ne_true_of_eq_false h)

/-- The body of a changed copy, padded to 60 bytes. -/
def Dev.paddedBody (d : Dev) (c : Copy) : List Byte :=
  let b := d.copyBody c ((d.copySource c).take ((d.copySource c).length - 4))
  b ++ List.replicate (60 - b.length) 0

theorem Dev.frameOut_changed {d : Dev} {c : Copy} (h : d.copyChanged c = true) :
    d.frameOut c = d.paddedBody c ++ fcsBytes (d.paddedBody c) := if_pos h

theorem Dev.length_paddedBody (d : Dev) (c : Copy) : 60 ≤ (d.paddedBody c).length := by
  rw [Dev.paddedBody, List.length_append, List.length_replicate]
  omega

/-! ## The scheduler beside counts and records

Performance counts change nothing that the scheduler decides by, and Cullet records no frame, copy or queue. -/

/-- `e` holds what the scheduler of `d` decides by. -/
structure SchedSame (d e : Dev) : Prop where
  dp : e.dp = d.dp
  comm : e.comm = d.comm
  ns : e.ns = d.ns
  frac : e.frac = d.frac
  rd : ∀ f : Fld, f.eventless = true → ∀ ix, e.rd f ix = d.rd f ix

theorem SchedSame.symm {a b : Dev} (h : SchedSame a b) : SchedSame b a :=
  ⟨h.dp.symm, h.comm.symm, h.ns.symm, h.frac.symm, fun f hf ix => (h.rd f hf ix).symm⟩

theorem SchedSame.trans {a b c : Dev} (h : SchedSame a b) (k : SchedSame b c) : SchedSame a c :=
  ⟨k.dp.trans h.dp, k.comm.trans h.comm, k.ns.trans h.ns, k.frac.trans h.frac, fun f hf ix => (k.rd f hf ix).trans (h.rd f hf ix)⟩

theorem schedSame_pmc (d : Dev) (u code n : Nat) : SchedSame d (d.pmc u code n) where
  dp := Dev.dp_of_kept (d.kept_pmc u code n)
  comm := congrArg (fun x => x.1.1) (d.kept_pmc u code n)
  ns := congrArg (fun x => x.1.2.2.1) (d.kept_pmc u code n)
  frac := congrArg (fun x => x.1.2.2.2) (d.kept_pmc u code n)
  rd _ h ix := Dev.rd_pmc h ix d u code n

section SchedSame

variable {d e : Dev} (h : SchedSame d e)

include h

theorem SchedSame.on {f : Fld} (hf : f.eventless = true) (ix : List Nat) : e.on f ix = d.on f ix := by
  rw [Dev.on, h.rd f hf ix, Dev.on]

theorem SchedSame.egrPort (p : Nat) : e.egrPort p = d.egrPort p := by
  rw [Dev.egrPort, h.dp, Dev.egrPort]

theorem SchedSame.levelOf (p q : Nat) : e.levelOf p q = d.levelOf p q := Dev.cm_congr h.comm _ _

theorem SchedSame.quantum (p q : Nat) : e.quantum p q = d.quantum p q := by
  rw [Dev.quantum, Dev.cm_congr h.comm, Dev.quantum]

theorem SchedSame.chargeLen (p : Nat) (c : Copy) : e.chargeLen p c = d.chargeLen p c := by
  rw [Dev.chargeLen, h.rd _ (by decide), Dev.chargeLen]

theorem SchedSame.candidate (p q : Nat) : e.candidate p q = d.candidate p q := by
  simp only [Dev.candidate, Dev.voqHead, h.egrPort, h.dp]

theorem SchedSame.portSpeed (p : Nat) : e.portSpeed p = d.portSpeed p := by
  rw [Dev.portSpeed, Dev.portShape_congr h.comm, Dev.portSpeed]

theorem SchedSame.gatesAt (p t : Nat) : e.gatesAt p t = d.gatesAt p t := by
  have hlist : ∀ b, e.gateList p b = d.gateList p b := fun b => by simp only [Dev.gateList, h.dp]
  simp only [Dev.gatesAt, hlist, h.egrPort, h.rd F.EGR_PORT_STAT_OPER_BANK (by decide), h.on (f := F.EGR_PORT_STAT_PEND) (by decide)]

theorem SchedSame.openFor (p q t need fuel : Nat) : e.openFor p q t need fuel = d.openFor p q t need fuel := by
  induction fuel generalizing t need with
  | zero => rfl
  | succ fuel ih => simp only [Dev.openFor, h.gatesAt, ih]

theorem SchedSame.gateFits (p q : Nat) (c : Copy) : e.gateFits p q c = d.gateFits p q c := by
  simp only [Dev.gateFits, Dev.windowBits, h.openFor, h.chargeLen, h.portSpeed, h.ns, h.frac,
    h.on (f := F.EGR_PORT_CFG_GATE_EN) (by decide), h.rd F.EGR_PORT_CFG_GROW (by decide)]

theorem SchedSame.readyBut (p q : Nat) : e.readyBut p q = d.readyBut p q := by
  have hpri : e.pfcPri p q = d.pfcPri p q := Dev.cm_congr h.comm _ _
  have htripped : ∀ g, e.wdTripped p g = d.wdTripped p g := fun g => by rw [Dev.wdTripped, h.rd _ (by decide), Dev.wdTripped]
  have hpaused : ∀ g, e.priPaused p g = d.priPaused p g := fun g => by rw [Dev.priPaused, h.rd _ (by decide), Dev.priPaused]
  simp only [Dev.readyBut, Dev.queuePaused, Dev.wdFlushes, Dev.lehrEligible, Dev.lehrQ, h.candidate, hpri, htripped, hpaused, h.dp,
    h.on (f := F.EGR_PORT_STAT_PAUSE_ALL) (by decide), h.on (f := F.EGR_PFCWD_ACTION) (by decide)]

theorem SchedSame.eligible (p q : Nat) : e.eligible p q = d.eligible p q := by
  simp only [Dev.eligible, h.readyBut, h.candidate, h.gateFits]

end SchedSame

/-! ### Records (R302, R314) -/

section Records

variable (d : Dev)

theorem Dev.dp_pmc (u code n : Nat) : (d.pmc u code n).dp = d.dp := Dev.dp_of_kept (d.kept_pmc u code n)

theorem Dev.dp_scatter (fn : Nat) (l : List (Nat × Nat)) (off : Nat) (bytes : List Byte) : (d.scatter fn l off bytes).dp = d.dp := by
  induction l generalizing d off bytes with
  | nil => rfl
  | cons a t ih =>
    rw [Dev.scatter]
    simp only [apply_ite Dev.dp, ih, Dev.emit_dp, ite_self]

theorem Dev.dp_setStream (n : Nat) (x : Stream) : (d.setStream n x).dp = d.dp := rfl

theorem Dev.dp_streamFull (s : Nat) : (d.streamFull s).dp = d.dp := by
  have hend : ∀ (e : Dev) (id st r0 r1 r2 : Nat), (e.finishJob id st r0 r1 r2).dp = e.dp := fun e id st r0 r1 r2 =>
    Dev.dp_of_kept (e.kept_finishJob id st r0 r1 r2)
  unfold Dev.streamFull
  split
  · rfl
  · rw [apply_ite Dev.dp, hend, Dev.dp_setStream, ite_self]

theorem Dev.dp_streamWrite (s : Nat) : (d.streamWrite s).dp = d.dp := by
  have hkeep : ∀ (e : Dev) (r : List Byte), (e.keepSample s r).dp = e.dp := fun e r => by
    rw [Dev.keepSample, apply_ite Dev.dp, ite_self]
  have hdma : ∀ (e : Dev) (j : Option Nat) (n : Nat), (e.dmaWrote j n).dp = e.dp := fun e j n => Dev.dp_of_kept (e.kept_dmaWrote j n)
  unfold Dev.streamWrite
  dsimp only
  split
  · rfl
  · split
    · rfl
    · split
      · rw [hkeep, Dev.emit_dp, Dev.dp_setStream]
      · split
        · rfl
        · rw [apply_ite Dev.dp, Dev.dp_streamFull, Dev.dp_setStream, hdma, Dev.dp_scatter, ite_self]

theorem Dev.dp_streamPump (s fuel : Nat) : (d.streamPump s fuel).dp = d.dp := by
  induction fuel generalizing d with
  | zero => rfl
  | succ n ih => rw [Dev.streamPump, ih, Dev.dp_streamWrite]

theorem Dev.dp_record (s : Nat) (body : List Byte) : (d.record s body).dp = d.dp := by
  unfold Dev.record
  split
  · rfl
  · dsimp only
    split
    · rw [Dev.inc_dp, Dev.wr_dp]
    · rw [Dev.dp_streamPump, Dev.dp_setStream, Dev.wr_dp]

/-- A Cullet record touches no frame, copy or queue. -/
theorem Dev.dp_cullet (trace : Option Nat) (cp : Nat) (bit port : Option Nat) (data : List Byte) :
    (d.cullet trace cp bit port data).dp = d.dp := by
  cases trace with
  | none => rfl
  | some id =>
    simp only [Dev.cullet, apply_ite Dev.dp, Dev.dp_record, ite_self]

end Records

/-! ### Candidates (R202, R208) -/

/-- A candidate of queue (p, q) is listed in a VOQ of that queue. -/
theorem Dev.candidate_listed {d : Dev} {p q : Nat} {c : Copy} (h : d.candidate p q = some c) :
    c ∈ d.dp.copies ∧ ∃ n < 32, c.queue = voqOf n p q := by
  obtain ⟨n, hn, hhead⟩ := List.exists_of_findSome?_eq_some h
  obtain ⟨i, -, rfl⟩ := List.mem_map.1 hn
  rw [Dev.voqHead] at hhead
  split at hhead
  next x hx =>
    obtain ⟨-, rfl⟩ : _ ∧ x = c := by simpa using hhead
    have hq := List.find?_some hx
    simp only [Bool.and_eq_true, beq_iff_eq] at hq
    exact ⟨List.mem_of_find?_eq_some hx, _, Nat.mod_lt _ (by decide), hq.1⟩
  · cases hhead

theorem voqPort_voqOf {n p q : Nat} (hp : p < 1024) (hq : q < 12) : voqPort (voqOf n p q) = p := by
  unfold voqPort voqOf
  omega

theorem voqQueue_voqOf {n p q : Nat} (hq : q < 12) : voqQueue (voqOf n p q) = q := by
  unfold voqQueue voqOf
  omega

/-! ### The queue that sends (R206, R208) -/

/-- Port `p` after queue `q` has sent `c`: deficits, the pointer of the level, its visit begun, and the VOQ pointer of the queue. -/
def EgrPort.turned (x : EgrPort) (lvl q : Nat) (def_ : Sparse Nat) (c : Copy) : EgrPort :=
  { x with deficit := def_, ptr := Sparse.set 0 x.ptr lvl q
           visited := if x.visited.contains lvl then x.visited else x.visited ++ [lvl]
           rr := Sparse.set 0 x.rr q ((voqPipe c.queue + 1) % 32) }

section Turned

variable (x : EgrPort) (lvl q : Nat) (def_ : Sparse Nat) (c : Copy)

theorem EgrPort.ptr_turned : Sparse.get 0 (x.turned lvl q def_ c).ptr lvl = q := Sparse.get_set_self _ _ _ _

theorem EgrPort.ptr_turned_other {l : Nat} (h : l ≠ lvl) : Sparse.get 0 (x.turned lvl q def_ c).ptr l = Sparse.get 0 x.ptr l :=
  Sparse.get_set_other _ _ _ _ _ _ h

theorem EgrPort.rr_turned : Sparse.get 0 (x.turned lvl q def_ c).rr q = (voqPipe c.queue + 1) % 32 := Sparse.get_set_self _ _ _ _

theorem EgrPort.rr_turned_other {j : Nat} (h : j ≠ q) : Sparse.get 0 (x.turned lvl q def_ c).rr j = Sparse.get 0 x.rr j :=
  Sparse.get_set_other _ _ _ _ _ _ h

end Turned

section Choose

variable {d : Dev} {p lvl q : Nat} {def_ : Sparse Nat} {c : Copy}

/-- The Lehr and its counts leave the ports and the copies alone. -/
theorem Dev.lehrUpdate_leaves (d : Dev) (p q l : Nat) :
    (d.lehrUpdate p q l).dp.egr = d.dp.egr ∧ (d.lehrUpdate p q l).dp.copies = d.dp.copies := by
  unfold Dev.lehrUpdate
  dsimp only
  split
  · exact ⟨rfl, rfl⟩
  · split
    · exact ⟨rfl, rfl⟩
    · split <;> rw [Dev.dp_pmc] <;> exact ⟨rfl, rfl⟩

theorem Dev.choose_leaves (hp : voqPort c.queue = p) (hq : voqQueue c.queue = q) :
    (d.choose p lvl q def_ c).egrPort p = (d.egrPort p).turned lvl q def_ c ∧
      (d.choose p lvl q def_ c).dp.copies = d.dp.copies.map (fun x => if x.uid = c.uid then { x with loc := .chosen } else x) := by
  unfold Dev.choose
  dsimp only
  rw [Dev.egrPort, Dev.dp_cullet, (Dev.lehrUpdate_leaves _ _ _ _).1, (Dev.lehrUpdate_leaves _ _ _ _).2]
  refine ⟨?_, rfl⟩
  subst hp hq
  exact (Dev.egrPort_setEgrPort_self _ _ _).trans (by rw [Dev.egrPort_setEgrPort_self, EgrPort.turned])

end Choose

section Chosen

variable {d : Dev} {p lvl q : Nat} {def_ : Sparse Nat} {c : Copy} (hp : p < 1024) (hq : q < 12) (hc : d.candidate p q = some c)

include hp hq hc

theorem Dev.egrPort_choose : (d.choose p lvl q def_ c).egrPort p = (d.egrPort p).turned lvl q def_ c := by
  obtain ⟨-, n, -, hqueue⟩ := Dev.candidate_listed hc
  exact (Dev.choose_leaves (hqueue ▸ voqPort_voqOf hp hq) (hqueue ▸ voqQueue_voqOf hq)).1

/-- The candidate stands chosen. -/
theorem Dev.loc_choose : ((d.choose p lvl q def_ c).copy c.uid).map (fun x => x.loc) = some .chosen := by
  obtain ⟨hmem, n, -, hqueue⟩ := Dev.candidate_listed hc
  have hcopies := (Dev.choose_leaves (d := d) (lvl := lvl) (def_ := def_) (hqueue ▸ voqPort_voqOf hp hq)
    (hqueue ▸ voqQueue_voqOf hq)).2
  cases hfind : (d.choose p lvl q def_ c).copy c.uid with
  | none =>
    rw [Dev.copy, hcopies, List.find?_eq_none] at hfind
    exact absurd (by simp) (hfind _ (List.mem_map_of_mem hmem))
  | some x =>
    rw [Dev.copy, hcopies] at hfind
    obtain ⟨y, -, rfl⟩ := List.mem_map.1 (List.mem_of_find?_eq_some hfind)
    have huid := List.find?_some hfind
    by_cases hy : y.uid = c.uid
    · rw [if_pos hy]
      rfl
    · rw [if_neg hy] at huid
      exact absurd (beq_iff_eq.1 huid) hy

end Chosen

/-! ### One decision (R201, R205 to R207) -/

/-- L of the candidate of each queue of level `lvl` that is eligible. -/
def Dev.levelElig (d : Dev) (p lvl q : Nat) : Option Nat :=
  if (indicesWhere 12 (fun q => d.eligible p q)).contains q && d.levelOf p q == lvl then (d.candidate p q).map (d.chargeLen p) else none

/-- The visit of the queue at the pointer of level `lvl` is fresh. -/
def Dev.levelFresh (d : Dev) (p lvl : Nat) : Bool :=
  !(d.egrPort p).visited.contains lvl || d.levelOf p (Sparse.get 0 (d.egrPort p).ptr lvl) != lvl

/-- The round robin of level `lvl`. -/
def Dev.levelRound (d : Dev) (p lvl : Nat) : Option (Nat × Sparse Nat) :=
  drr (d.levelElig p lvl) (d.quantum p) (d.nextOfLevel p lvl) drrVisits (Sparse.get 0 (d.egrPort p).ptr lvl) (d.levelFresh p lvl)
    (d.egrPort p).deficit

/-- The decision once what no gate can pass is dropped and the events are counted. -/
def Dev.portTurn (d : Dev) (p : Nat) : Dev :=
  match ((indicesWhere 12 (fun q => d.eligible p q)).map (d.levelOf p)).max? with
  | none => d
  | some lvl => match d.levelRound p lvl with
    | none => d
    | some (q, def_) => match d.candidate p q with
      | some c => d.choose p lvl q def_ c
      | none => d

theorem Dev.decide_eq_portTurn (d : Dev) (p : Nat) : ∃ e, SchedSame (d.dropOversizeAll p) e ∧ d.decide_ p = e.portTurn p :=
  ⟨_, (schedSame_pmc _ 106 0x48 1).trans (schedSame_pmc _ 106 0x4B _), rfl⟩

/-- Queue `q` is eligible, and no eligible queue has a higher level. -/
structure Dev.Heads (d : Dev) (p q : Nat) : Prop where
  lt : q < 12
  eligible : d.eligible p q = true
  top : ∀ j < 12, d.eligible p j = true → d.levelOf p j ≤ d.levelOf p q

theorem mem_indicesWhere {n i : Nat} {f : Nat → Bool} : i ∈ indicesWhere n f ↔ i < n ∧ f i = true := by
  rw [indicesWhere, List.mem_filter, List.mem_range]

section PortTurn

variable {d : Dev} {p : Nat}

theorem Dev.portTurn_none (h : ∀ q < 12, d.eligible p q = false) : d.portTurn p = d := by
  have hnone : indicesWhere 12 (fun q => d.eligible p q) = [] :=
    List.filter_eq_nil_iff.2 fun q hq => ne_true_of_eq_false (h q (List.mem_range.1 hq))
  rw [Dev.portTurn, hnone]
  rfl

theorem Dev.exists_heads (h : ∃ q < 12, d.eligible p q = true) : ∃ q, d.Heads p q := by
  have hnonempty : ((Finset.range 12).filter (fun q => d.eligible p q = true)).Nonempty := by
    obtain ⟨q, hq, hel⟩ := h
    exact ⟨q, by simp [hq, hel]⟩
  obtain ⟨q, hq, htop⟩ := Finset.exists_max_image _ (d.levelOf p) hnonempty
  obtain ⟨hlt, hel⟩ : q < 12 ∧ d.eligible p q = true := by simpa using hq
  exact ⟨q, hlt, hel, fun j hj hjel => htop j (by simp [hj, hjel])⟩

variable {q : Nat}

theorem Dev.Heads.level (h : d.Heads p q) :
    ((indicesWhere 12 (fun q => d.eligible p q)).map (d.levelOf p)).max? = some (d.levelOf p q) := by
  refine List.max?_eq_some_iff.2 ⟨List.mem_map_of_mem (mem_indicesWhere.2 ⟨h.lt, h.eligible⟩), fun l hl => ?_⟩
  obtain ⟨j, hj, rfl⟩ := List.mem_map.1 hl
  exact h.top j (mem_indicesWhere.1 hj).1 (mem_indicesWhere.1 hj).2

theorem Dev.Heads.portTurn {e : Nat} {def_ : Sparse Nat} {c : Copy} (h : d.Heads p q)
    (hround : d.levelRound p (d.levelOf p q) = some (e, def_)) (hc : d.candidate p e = some c) :
    d.portTurn p = d.choose p (d.levelOf p q) e def_ c := by
  rw [Dev.portTurn, h.level]
  simp only [hround, hc]

theorem Dev.levelElig_of {lvl : Nat} {c : Copy} (hq : q < 12) (hel : d.eligible p q = true) (hlvl : d.levelOf p q = lvl)
    (hc : d.candidate p q = some c) : d.levelElig p lvl q = some (d.chargeLen p c) := by
  rw [Dev.levelElig, if_pos (by simp [mem_indicesWhere, hq, hel, hlvl]), hc]
  rfl

theorem Dev.of_levelElig {lvl l : Nat} (h : d.levelElig p lvl q = some l) :
    q < 12 ∧ d.eligible p q = true ∧ d.levelOf p q = lvl ∧ ∃ c, d.candidate p q = some c ∧ l = d.chargeLen p c := by
  rw [Dev.levelElig] at h
  split at h
  next hq =>
    obtain ⟨hq, hlvl⟩ : q ∈ indicesWhere 12 (fun q => d.eligible p q) ∧ d.levelOf p q = lvl := by simpa using hq
    obtain ⟨c, hc, rfl⟩ := Option.map_eq_some_iff.1 h
    exact ⟨(mem_indicesWhere.1 hq).1, (mem_indicesWhere.1 hq).2, hlvl, c, hc, rfl⟩
  · cases h

theorem Dev.candidate_of_eligible (h : d.eligible p q = true) : ∃ c, d.candidate p q = some c := by
  cases hc : d.candidate p q with
  | some c => exact ⟨c, rfl⟩
  | none => simp [Dev.eligible, hc] at h

/-- The first queue of the level after `q`. -/
theorem Dev.nextOfLevel_eq {lvl i : Nat} (hi : i < 12) (hbefore : ∀ k < i, d.levelOf p ((q + 1 + k) % 12) ≠ lvl)
    (hlvl : d.levelOf p ((q + 1 + i) % 12) = lvl) : d.nextOfLevel p lvl q = (q + 1 + i) % 12 := by
  have hfind : (List.range 12).find? (fun k => d.levelOf p ((q + 1 + k) % 12) == lvl) = some i :=
    List.find?_range_eq_some.2 ⟨by simp [hlvl], List.mem_range.2 hi, fun k hk => by simpa using hbefore k hk⟩
  rw [Dev.nextOfLevel, List.find?_map]
  exact congrArg (fun o => (Option.map (fun i => (q + 1 + i) % 12) o).getD q) hfind

/-- The rotation passes no queue of its level. -/
theorem Dev.visitsTo_nextOfLevel {e : Nat} (he : e < 12) (q : Nat) : visitsTo e (d.nextOfLevel p (d.levelOf p e) q) ≤ ringGap e q := by
  have hgap : (q + 1 + ringGap e q) % 12 = e := by unfold ringGap; omega
  have hex : ∃ i, d.levelOf p ((q + 1 + i) % 12) = d.levelOf p e := ⟨ringGap e q, by rw [hgap]⟩
  have hle : Nat.find hex ≤ ringGap e q := Nat.find_min' hex (by rw [hgap])
  rw [Dev.nextOfLevel_eq (hle.trans_lt (ringGap_lt e q)) (fun k hk => Nat.find_min hex hk) (Nat.find_spec hex)]
  exact visitsTo_step he hle

theorem Dev.quantum_ge (d : Dev) (p q : Nat) : 64 ≤ d.quantum p q := by
  rw [Dev.quantum]
  omega

theorem Dev.chargeLen_le {c : Copy} (h : c.len ≤ 2 ^ 15) : d.chargeLen p c ≤ 64 * 516 := by
  have hovhd := d.rd_lt F.EGR_PORT_CFG_OVHD [p]
  rw [show F.EGR_PORT_CFG_OVHD.hi + 1 - F.EGR_PORT_CFG_OVHD.lo = 8 from rfl] at hovhd
  rw [Dev.chargeLen]
  omega

/-- A decision with candidates of at most 32,768 bytes sends. -/
theorem Dev.Heads.sends (h : d.Heads p q) (hlen : ∀ q < 12, ∀ c, d.candidate p q = some c → c.len ≤ 2 ^ 15) :
    ∃ e c def_ n, d.Heads p e ∧ d.candidate p e = some c ∧ d.portTurn p = d.choose p (d.levelOf p e) e def_ c ∧
      Dealt (d.levelElig p (d.levelOf p e)) (d.quantum p) (d.egrPort p).deficit def_ e (d.chargeLen p c) n := by
  obtain ⟨c, hc⟩ := Dev.candidate_of_eligible h.eligible
  have hneed : d.chargeLen p c ≤ 64 * 516 := Dev.chargeLen_le (hlen q h.lt c hc)
  have hround : (d.levelRound p (d.levelOf p q)).isSome = true :=
    drr_ends_any (r := 516) (Dev.levelElig_of h.lt h.eligible rfl hc) (d.quantum_ge p q) (Dev.visitsTo_nextOfLevel h.lt)
      (by omega) (by rw [drrVisits]; omega)
  obtain ⟨⟨e, def_⟩, hround⟩ := Option.isSome_iff_exists.1 hround
  obtain ⟨l, n, hdealt⟩ := dealt_of_drr hround
  obtain ⟨hlt, hel, hlvl, a, ha, rfl⟩ := Dev.of_levelElig hdealt.takesPart
  have hturn := h.portTurn hround ha
  rw [← hlvl] at hdealt hturn
  exact ⟨e, a, def_, n, ⟨hlt, hel, fun j hj hjel => (h.top j hj hjel).trans hlvl.ge⟩, ha, hturn, hdealt⟩

/-- The deficit of the queue at the pointer of its level, with its quantum where its visit is fresh. -/
def Dev.nowDeficit (d : Dev) (p q : Nat) : Nat :=
  visitDeficit (d.quantum p) (d.egrPort p).deficit q (!(d.egrPort p).visited.contains (d.levelOf p q))

/-- The visit of a queue whose turn has begun adds nothing. -/
theorem Dev.nowDeficit_eq (d : Dev) (p q : Nat) : d.nowDeficit p q = Sparse.get 0 (d.egrPort p).deficit q +
    if (d.egrPort p).visited.contains (d.levelOf p q) then 0 else d.quantum p q := by
  rw [Dev.nowDeficit, visitDeficit]
  cases (d.egrPort p).visited.contains (d.levelOf p q) <;> simp [b2n]

section AtPointer

variable {c : Copy} (h : d.Heads p q) (hc : d.candidate p q = some c) (hptr : Sparse.get 0 (d.egrPort p).ptr (d.levelOf p q) = q)

include hptr

theorem Dev.levelRound_at_pointer : d.levelRound p (d.levelOf p q) = drr (d.levelElig p (d.levelOf p q)) (d.quantum p)
    (d.nextOfLevel p (d.levelOf p q)) drrVisits q (!(d.egrPort p).visited.contains (d.levelOf p q)) (d.egrPort p).deficit := by
  rw [Dev.levelRound, Dev.levelFresh, hptr, bne_self_eq_false, Bool.or_false]

include h hc

/-- The queue at the pointer sends where its deficit suffices. -/
theorem Dev.Heads.sends_first (hle : d.chargeLen p c ≤ d.nowDeficit p q) : d.portTurn p =
    d.choose p (d.levelOf p q) q (Sparse.set 0 (d.egrPort p).deficit q (d.nowDeficit p q - d.chargeLen p c)) c :=
  h.portTurn ((Dev.levelRound_at_pointer hptr).trans (drr_sends (Dev.levelElig_of h.lt h.eligible rfl hc) hle)) hc

/-- Else the next queue of the level does, where its deficit with its quantum suffices. -/
theorem Dev.Heads.sends_next {i r : Nat} {e : Copy} (hi : i < 11) (hr : (q + 1 + i) % 12 = r)
    (hlt : d.nowDeficit p q < d.chargeLen p c) (hbefore : ∀ k < i, d.levelOf p ((q + 1 + k) % 12) ≠ d.levelOf p q)
    (hlvl : d.levelOf p r = d.levelOf p q) (hel : d.eligible p r = true) (he : d.candidate p r = some e)
    (hle : d.chargeLen p e ≤ Sparse.get 0 (d.egrPort p).deficit r + d.quantum p r) :
    d.portTurn p = d.choose p (d.levelOf p q) r (Sparse.set 0 (Sparse.set 0 (d.egrPort p).deficit q (d.nowDeficit p q)) r
      (Sparse.get 0 (d.egrPort p).deficit r + d.quantum p r - d.chargeLen p e)) e := by
  have hq := h.lt
  have hne : r ≠ q := by omega
  have hvisit : visitDeficit (d.quantum p) (Sparse.set 0 (d.egrPort p).deficit q (d.nowDeficit p q)) r true =
      Sparse.get 0 (d.egrPort p).deficit r + d.quantum p r := by
    rw [visitDeficit_fresh, Sparse.get_set_other _ _ _ _ _ _ hne]
  have hnext : d.nextOfLevel p (d.levelOf p q) q = r := hr ▸ Dev.nextOfLevel_eq (by omega) hbefore (hr ▸ hlvl)
  refine h.portTurn ((Dev.levelRound_at_pointer hptr).trans ?_) he
  rw [show drrVisits = 8190 + 1 + 1 from rfl, drr_passes (Dev.levelElig_of h.lt h.eligible rfl hc) hlt, hnext, ← hvisit]
  exact drr_sends (Dev.levelElig_of (by omega) hel hlvl he) (hvisit ▸ hle)

end AtPointer

end PortTurn

section SchedSame

variable {b e : Dev} (he : SchedSame b e) {p q : Nat}

include he

theorem SchedSame.heads (h : b.Heads p q) : e.Heads p q where
  lt := h.lt
  eligible := (he.eligible p q).trans h.eligible
  top j hj hel := by
    rw [he.levelOf, he.levelOf]
    exact h.top j hj ((he.eligible p j).symm.trans hel)

theorem SchedSame.levelElig (lvl : Nat) : e.levelElig p lvl = b.levelElig p lvl := by
  funext q
  simp only [Dev.levelElig, he.eligible, he.levelOf, he.candidate, funext (he.chargeLen p)]

theorem SchedSame.nowDeficit : e.nowDeficit p q = b.nowDeficit p q := by
  rw [Dev.nowDeficit, he.egrPort, he.levelOf, funext (he.quantum p), Dev.nowDeficit]

variable {lvl : Nat} {def_ : Sparse Nat} {c : Copy} (hp : p < 1024) (hq : q < 12) (hc : b.candidate p q = some c)

include hp hq hc

theorem SchedSame.egrPort_choose : (e.choose p lvl q def_ c).egrPort p = (b.egrPort p).turned lvl q def_ c := by
  rw [Dev.egrPort_choose hp hq ((he.candidate p q).trans hc), he.egrPort]

theorem SchedSame.loc_choose : ((e.choose p lvl q def_ c).copy c.uid).map (fun x => x.loc) = some .chosen :=
  Dev.loc_choose hp hq ((he.candidate p q).trans hc)

end SchedSame

theorem Dev.copy_latched (d e : Dev) (u : Nat) : (Dev.latched d e).copy u = e.copy u := rfl

/-! ## The commands -/

/-- Queue `q` of level `lvl` of port `p` sends copy `c` in a decision on device `b`, which leaves the deficits `def_`. -/
def DecisionSends (s : State) (b : Dev) (p : Fin 1024) (q lvl : Nat) (c : Copy) (def_ : Sparse Nat) : Prop :=
  ∃ t, exec (.schedDecision p) s = .next t ∧ t.dev.egrPort p.val = (b.egrPort p.val).turned lvl q def_ c ∧
    (t.dev.copy c.uid).map (fun x => x.loc) = some .chosen

theorem SchedSame.decisionSends {s : State} {b e : Dev} (he : SchedSame b e) {p : Fin 1024} {q lvl : Nat} {def_ : Sparse Nat} {c : Copy}
    (hq : q < 12) (hc : b.candidate p.val q = some c) (hrun : Runs (.schedDecision p) s (e.choose p.val lvl q def_ c)) :
    DecisionSends s b p q lvl c def_ := by
  refine ⟨_, hrun, ?_, ?_⟩
  · rw [Dev.egrPort_latched, he.egrPort_choose p.isLt hq hc]
  · rw [Dev.copy_latched, he.loc_choose p.isLt hq hc]

section EgressCommands

variable {s : State} (hl : Live s)

include hl

section Safe

variable (hsafe : s.dev.safe = false)

include hsafe

section Decision

variable {p : Fin 1024} (hup : s.dev.linkUp p.val = true) (hfree : s.dev.portHolds p.val = false)
  {b : Dev} (hb : s.dev.dropOversizeAll p.val = b)

include hup hfree hb

theorem runs_schedDecision : ∃ e, SchedSame b e ∧ Runs (.schedDecision p) s (e.portTurn p.val) := by
  obtain ⟨e, he, hturn⟩ := s.dev.decide_eq_portTurn p.val
  exact ⟨e, hb ▸ he, Runs.of_run hl rfl ((if_pos (by simp [hup, hfree, hsafe])).trans hturn)⟩

theorem schedDecision_none (h : ∀ q < 12, b.eligible p.val q = false) :
    ∃ t, exec (.schedDecision p) s = .next t ∧ t.dev.dp = b.dp := by
  obtain ⟨e, he, hrun⟩ := runs_schedDecision hl hsafe hup hfree hb
  rw [Dev.portTurn_none fun q hq => (he.eligible p.val q).trans (h q hq)] at hrun
  exact ⟨_, hrun, he.dp⟩

theorem schedDecision_sends (hex : ∃ q < 12, b.eligible p.val q = true)
    (hlen : ∀ q < 12, ∀ c, b.candidate p.val q = some c → c.len ≤ 2 ^ 15) :
    ∃ q c def_ n, b.Heads p.val q ∧ b.candidate p.val q = some c ∧ DecisionSends s b p q (b.levelOf p.val q) c def_ ∧
      Dealt (b.levelElig p.val (b.levelOf p.val q)) (b.quantum p.val) (b.egrPort p.val).deficit def_ q (b.chargeLen p.val c) n := by
  obtain ⟨e, he, hrun⟩ := runs_schedDecision hl hsafe hup hfree hb
  obtain ⟨q₀, hq₀⟩ := Dev.exists_heads hex
  obtain ⟨q, c, def_, n, hheads, hc, hturn, hdealt⟩ := (he.heads hq₀).sends fun q hq c hc =>
    hlen q hq c ((he.candidate _ q).symm.trans hc)
  rw [hturn, he.levelOf] at hrun
  rw [he.levelElig, funext (he.quantum p.val), he.egrPort, he.chargeLen, he.levelOf] at hdealt
  rw [he.candidate] at hc
  exact ⟨q, c, def_, n, he.symm.heads hheads, hc, he.decisionSends hheads.lt hc hrun, hdealt⟩

section AtPointer

variable {q : Nat} {c : Copy} (hheads : b.Heads p.val q) (hc : b.candidate p.val q = some c)
  (hptr : Sparse.get 0 (b.egrPort p.val).ptr (b.levelOf p.val q) = q)

include hheads hc hptr

theorem schedDecision_first (hle : b.chargeLen p.val c ≤ b.nowDeficit p.val q) : DecisionSends s b p q (b.levelOf p.val q) c
    (Sparse.set 0 (b.egrPort p.val).deficit q (b.nowDeficit p.val q - b.chargeLen p.val c)) := by
  obtain ⟨e, he, hrun⟩ := runs_schedDecision hl hsafe hup hfree hb
  rw [← he.levelOf, ← he.egrPort] at hptr
  rw [← he.chargeLen, ← he.nowDeficit] at hle
  rw [(he.heads hheads).sends_first ((he.candidate _ q).trans hc) hptr hle, he.levelOf, he.egrPort, he.nowDeficit, he.chargeLen] at hrun
  exact he.decisionSends hheads.lt hc hrun

theorem schedDecision_next {i r : Nat} {a : Copy} (hi : i < 11) (hr : (q + 1 + i) % 12 = r)
    (hlt : b.nowDeficit p.val q < b.chargeLen p.val c)
    (hbefore : ∀ k < i, b.levelOf p.val ((q + 1 + k) % 12) ≠ b.levelOf p.val q) (hlvl : b.levelOf p.val r = b.levelOf p.val q)
    (hel : b.eligible p.val r = true) (ha : b.candidate p.val r = some a)
    (hle : b.chargeLen p.val a ≤ Sparse.get 0 (b.egrPort p.val).deficit r + b.quantum p.val r) :
    DecisionSends s b p r (b.levelOf p.val r) a (Sparse.set 0 (Sparse.set 0 (b.egrPort p.val).deficit q (b.nowDeficit p.val q)) r
      (Sparse.get 0 (b.egrPort p.val).deficit r + b.quantum p.val r - b.chargeLen p.val a)) := by
  obtain ⟨e, he, hrun⟩ := runs_schedDecision hl hsafe hup hfree hb
  have hturn := (he.heads hheads).sends_next ((he.candidate _ q).trans hc) (i := i) (r := r) (e := a)
  simp only [he.levelOf, he.egrPort, he.nowDeficit, he.chargeLen, he.eligible, he.candidate, he.quantum] at hturn
  rw [hturn hptr hi hr hlt hbefore hlvl hel ha hle, ← hlvl] at hrun
  exact he.decisionSends (hr ▸ Nat.mod_lt _ (by decide)) ha hrun

end AtPointer

end Decision

theorem runs_egressEnter {n : Fin 32} {same : Bool} {clock d : Dev} {p : Nat} {c : Copy} {f : Pkt}
    (hclock : (if same then s.dev else s.dev.newGrantClock n.val) = clock) (hdom : s.dev.domOn (128 + n.val) = true)
    (hfew : (Sparse.get [] clock.dp.grants n.val).length < 4)
    (hgrant : clock.grant n.val (Sparse.get [] clock.dp.grants n.val) = (d, some p)) {e : Dev}
    (he : { d with dp := { d.dp with grants := Sparse.set [] d.dp.grants n.val (Sparse.get [] clock.dp.grants n.val ++ [p]) } } = e)
    (hchosen : e.chosen p = some c) (hf : e.pkt c.pkt = some f) :
    Runs (.egressEnter n same) s ((e.egressEnter c p f).queueLost c.queue) := by
  have hdom' : clock.domOn (128 + n.val) = true := by
    rw [← hclock]
    cases same <;> exact hdom
  have hsafe' : clock.safe = false := by
    rw [← hclock]
    cases same <;> exact hsafe
  refine Runs.of_run hl rfl ?_
  simp only [hclock, hdom', hsafe', Nat.not_le.2 hfew, hgrant, he, hchosen, hf, decide_false, Bool.not_true, Bool.or_self,
    Bool.false_eq_true, if_false]

theorem runs_egressEnd {u : Nat} {x : Pass} {c : Copy} {f : Pkt} (hx : s.dev.pass u = some x) (heg : x.egress = true)
    (htodo : x.todo = []) (hstage : x.stages ≤ x.stage) (hc : s.dev.copy (x.copy.getD 0) = some c) (hf : s.dev.pkt x.pkt = some f) :
    Runs (.egressEnd u) s (s.dev.egressEnd x c f) :=
  Runs.of_run hl rfl (by simp [hx, heg, htodo, Nat.not_lt.2 hstage, hsafe, hc, hf])

theorem runs_copyReadDone {u : Nat} {c : Copy} {f : Pkt} (hc : s.dev.copy u = some c) (hf : s.dev.pkt c.pkt = some f)
    (hvoq : isVoq c.queue = true) (hloc : c.loc = .ready ∨ c.loc = .egress) (hheld : c.released = false) (hended : f.ended = true) :
    Runs (.copyReadDone u) s ((s.dev.readForSend c).releaseCopy u) := by
  have hreading : (isVoq c.queue && (c.loc == .egress || c.loc == .ready)) = true := by
    rcases hloc with h | h <;> simp [hvoq, h]
  refine Runs.of_run hl rfl ?_
  simp only [hc, hf, hreading, hheld, hended, hsafe, Bool.not_false, Bool.and_self, if_true]

end Safe

/-- An egress pipeline that has granted four ports in a clock grants no more. -/
theorem runs_egressEnter_spent {n : Fin 32} (hspent : 4 ≤ (Sparse.get [] s.dev.dp.grants n.val).length) :
    Runs (.egressEnter n true) s s.dev :=
  Runs.of_run hl rfl (if_pos (by simp [hspent]))

section Held

variable {u : Nat} {c : Copy} (hc : s.dev.copy u = some c)

include hc

theorem runs_ctFallback (hloc : c.loc = .held) (hchecked : s.dev.uncheckedCt c = false) : Runs (.ctFallback u) s
    ((s.dev.modCopy u (fun c => { c with loc := .ready })).inc F.QRY_CT_FALLBACK_COUNT [voqPort c.queue]) :=
  Runs.of_run hl rfl (by simp [hc, hloc, hchecked])

theorem runs_ctFallback_unchecked (hchecked : s.dev.uncheckedCt c = true) : Runs (.ctFallback u) s s.dev :=
  Runs.of_run hl rfl (by simp [hc, hchecked])

theorem runs_frameTransmit (hloc : c.loc = .ready) (hmay : s.dev.mayTransmit (voqPort c.queue) = true) :
    Runs (.frameTransmit u) s (s.dev.transmit c) :=
  Runs.of_run hl rfl (by simp [hc, hloc, hmay])

end Held

end EgressCommands

/-- Settles O32: a decision by what its round leaves of the deficits and by its first two visits, each other command by the branch that
its conditions choose, and a frame by its FCS over what is sent. -/
theorem egressPath : Obligations.EgressPath := by
  unfold Obligations.EgressPath
  refine ⟨fun s hl hsafe => ⟨?decision, ?enter, fun n _ => runs_egressEnter_spent hl, fun u x c f => runs_egressEnd hl hsafe,
    fun u c => runs_ctFallback hl, fun u c hc _ => runs_ctFallback_unchecked hl hc, fun u c => runs_frameTransmit hl,
    fun u c f => runs_copyReadDone hl hsafe⟩, fun d c => ⟨Dev.frameOut_unchanged, fun h => ?frame⟩⟩
  case enter =>
    intro n same d p c f hdom clock took hfew hgrant e
    exact runs_egressEnter hl hsafe rfl hdom hfew hgrant rfl
  case frame =>
    have hlen := d.length_paddedBody c
    rw [Dev.frameOut_changed h, List.length_append, length_fcsBytes]
    exact ⟨by omega, fcsGood_append _⟩
  case decision =>
    intro p hup hfree b D Q level L sends
    have hshows : ∀ {q c def_} {t : State}, t.dev.egrPort p.val = (b.egrPort p.val).turned (level q) q def_ c →
        (t.dev.copy c.uid).map (fun x => x.loc) = some .chosen → sends t q c := fun {q c def_ t} hport hloc => by
      refine ⟨hloc, ?_, ?_⟩ <;> rw [hport]
      exacts [EgrPort.ptr_turned _ _ _ _ _, EgrPort.rr_turned _ _ _ _ _]
    have hdef : ∀ {q lvl c def_} {t : State}, t.dev.egrPort p.val = (b.egrPort p.val).turned lvl q def_ c →
        ∀ j, D t.dev j = Sparse.get 0 def_ j := fun hport j => congrArg (fun x => Sparse.get 0 x.deficit j) hport
    refine ⟨schedDecision_none hl hsafe hup hfree rfl, fun hex hlen => ?some, fun q c hq hel htop hc hptr => ?atPointer⟩
    case some =>
      obtain ⟨q, c, def_, n, hheads, hc, ⟨t, ht, hport, hloc⟩, hdealt⟩ := schedDecision_sends hl hsafe hup hfree rfl hex hlen
      refine ⟨t, q, c, ht, hheads.lt, hheads.eligible, hheads.top, hc, hshows hport hloc, fun j _ hj => ?_, fun l hlvl => ?_, n,
        (congrArg (· + L c) (hdef hport q)).trans hdealt.sent, fun j _ hj => (hdef hport j).trans (hdealt.kept j hj), fun j _ hn => ?_,
        fun j _ hj hn => ?_⟩
      · exact (congrArg (fun x => Sparse.get 0 x.rr j) hport).trans (EgrPort.rr_turned_other _ _ _ _ _ hj)
      · exact (congrArg (fun x => Sparse.get 0 x.ptr l) hport).trans (EgrPort.ptr_turned_other _ _ _ _ _ hlvl)
      · obtain ⟨k, hk⟩ := Option.isSome_iff_exists.1 (hdealt.given j hn)
        obtain ⟨-, hel, hlvl, -⟩ := Dev.of_levelElig hk
        exact ⟨hel, hlvl⟩
      · obtain ⟨k, hk, hlt⟩ := hdealt.short j hj hn
        obtain ⟨-, -, -, e, he, rfl⟩ := Dev.of_levelElig hk
        exact ⟨e, he, (hdef hport j).trans_lt hlt⟩
    case atPointer =>
      intro now
      have hnow : b.nowDeficit p.val q = now := b.nowDeficit_eq p.val q
      refine ⟨fun hle => ?_, fun i e hi => ?_⟩
      · obtain ⟨t, ht, hport, hloc⟩ := schedDecision_first hl hsafe hup hfree rfl ⟨hq, hel, htop⟩ hc hptr (hle.trans hnow.ge)
        refine ⟨t, ht, hshows hport hloc, ?_, fun j _ hj => ?_⟩ <;> rw [hdef hport]
        · rw [Sparse.get_set_self, hnow]
          exact Nat.sub_add_cancel hle
        · rw [Sparse.get_set_other _ _ _ _ _ _ hj]
      · intro r hlt hbefore hlvl her hce hle
        obtain ⟨t, ht, hport, hloc⟩ := schedDecision_next hl hsafe hup hfree rfl ⟨hq, hel, htop⟩ hc hptr hi rfl
          (hnow.trans_lt hlt) hbefore hlvl her hce hle
        have hne : q ≠ r := by omega
        refine ⟨t, ht, hshows hport hloc, ?_, ?_, fun j _ hjq hjr => ?_⟩ <;> rw [hdef hport]
        · rw [Sparse.get_set_other _ _ _ _ _ _ hne, Sparse.get_set_self, hnow]
        · rw [Sparse.get_set_self]
          exact Nat.sub_add_cancel hle
        · rw [Sparse.get_set_other _ _ _ _ _ _ hjr, Sparse.get_set_other _ _ _ _ _ _ hjq]

end Sys2Proof.Machine

/-!
PROOFS of the statements of spec/08_gather_collectives.md: the integer sums, then what a received frame leaves of the groups and their
contexts, then the ring jobs, the dispatcher and the timers. What an engine sends takes the way of any frame, which leaves the engines'
own state alone.
-/

namespace Sys2Proof.Machine

/-! ## Sums of the Gather engines (R256, R257) -/

theorem toSigned_ofSigned {x : Int} (hlo : -2 ^ 31 ≤ x) (hhi : x ≤ 2 ^ 31 - 1) : toSigned 32 (ofSigned 32 x) = x := by
  unfold toSigned ofSigned
  dsimp only
  split <;> omega

theorem ofSigned_of_nonneg {n : Nat} (h : n < 2 ^ 32) : ofSigned 32 n = n := by
  unfold ofSigned
  omega

theorem Accum.v_add_int32 (a : Accum) (x : Nat) : (a.add 0 5 x).v = a.v + toSigned 32 x := rfl

theorem Accum.v_add_uint32 (a : Accum) (x : Nat) : (a.add 0 6 x).v = a.v + x := rfl

theorem Accum.result_int32 (a : Accum) :
    a.result 0 5 = (ofSigned 32 (max (-2 ^ 31) (min (2 ^ 31 - 1) a.v)), decide (max (-2 ^ 31) (min (2 ^ 31 - 1) a.v) ≠ a.v)) := rfl

theorem Accum.result_uint32 (a : Accum) :
    a.result 0 6 = (ofSigned 32 (max 0 (min (2 ^ 32 - 1) a.v)), decide (max 0 (min (2 ^ 32 - 1) a.v) ≠ a.v)) := rfl

/-- Where a contribution adds its value, the contributions add the sum of theirs. -/
theorem Accum.v_foldl_add {t : Nat} {val : Nat → Int} (h : ∀ (a : Accum) x, (a.add 0 t x).v = a.v + val x) (l : List Nat)
    (a : Accum) : (l.foldl (fun a x => a.add 0 t x) a).v = a.v + (l.map val).sum := by
  induction l generalizing a with
  | nil => simp
  | cons x t ih => rw [List.foldl_cons, ih, h, List.map_cons, List.sum_cons, add_assoc]

theorem Accum.v_sum_int32 (l : List Nat) :
    (l.foldl (fun a x => a.add 0 5 x) ({} : Accum)).v = (l.map (fun x => toSigned 32 x)).sum :=
  (Accum.v_foldl_add Accum.v_add_int32 l _).trans (zero_add _)

theorem Accum.v_sum_uint32 (l : List Nat) : (l.foldl (fun a x => a.add 0 6 x) ({} : Accum)).v = (l.sum : Nat) := by
  rw [Accum.v_foldl_add Accum.v_add_uint32, Nat.cast_list_sum]
  exact zero_add _

/-- An FP16 or FP8 contribution: a NaN and an infinity leave a mark, a finite value is added exactly (R257). -/
theorem Accum.add_exact {t : Nat} {f : FloatType} (hf : floatType t = some f) (ht : 1 < t) (a : Accum) (b : Nat) :
    a.add 0 t b =
      if f.isNan b then { a with some_ := true, nan := true }
      else if f.isInf b then
        (if f.neg b then { a with some_ := true, ninf := true } else { a with some_ := true, pinf := true })
      else { a with some_ := true, v := a.v + f.value b, negZero := a.negZero && f.neg b && f.mag b == 0 } := by
  simp [Accum.add, hf, Nat.not_le.2 ht]

theorem Accum.add_exact_comm {t : Nat} (ht : t = 2 ∨ t = 3 ∨ t = 4) (a : Accum) (x y : Nat) :
    (a.add 0 t x).add 0 t y = (a.add 0 t y).add 0 t x := by
  obtain ⟨f, hf⟩ : ∃ f, floatType t = some f := by rcases ht with rfl | rfl | rfl <;> exact ⟨_, rfl⟩
  have hlt : 1 < t := by omega
  simp only [Accum.add_exact hf hlt]
  split_ifs <;> simp [add_right_comm, Bool.and_assoc, Bool.and_comm, Bool.and_left_comm]

/-- Settles O39: each integer contribution adds its value, so that the accumulator holds the exact sum, which the result holds to the
type once; contributions of an exact floating-point type commute. -/
theorem integerSums : Obligations.IntegerSums := by
  unfold Obligations.IntegerSums
  refine ⟨?sums, fun t l m ht hperm => ?order⟩
  case sums =>
    intro l _ _ a b sum
    have ha : a.v = sum := Accum.v_sum_int32 l
    have hb : b.v = (l.sum : Nat) := Accum.v_sum_uint32 l
    rw [Accum.result_int32, Accum.result_uint32, ha, hb]
    refine ⟨toSigned_ofSigned (by omega) (by omega), ?_, ?_, ?_⟩
    · simp only [decide_eq_true_eq]
      omega
    · have hcap : max (0 : Int) (min (2 ^ 32 - 1) (l.sum : Nat)) = (min (2 ^ 32 - 1) l.sum : Nat) := by omega
      rw [hcap, ofSigned_of_nonneg (by omega)]
    · simp only [decide_eq_true_eq]
      omega
  case order =>
    rw [hperm.foldl_eq' (fun x _ y _ a => Accum.add_exact_comm ht a x y)]

/-! ## What the way of a frame leaves of the Gather engines -/

section Gth

variable (d : Dev)

theorem Dev.gth_of_kept {d e : Dev} (h : e.kept = d.kept) : e.gth = d.gth := congrArg (fun x => x.2.2.2.2.2.1) h

@[simp] theorem Dev.pmc_gth (u code n : Nat) : (d.pmc u code n).gth = d.gth := Dev.gth_of_kept (d.kept_pmc u code n)

@[simp] theorem Dev.charge_gth (j : Option Nat) (i n : Nat) : (d.charge j i n).gth = d.gth := Dev.gth_of_kept (d.kept_charge j i n)

@[simp] theorem Dev.dmaWrote_gth (j : Option Nat) (n : Nat) : (d.dmaWrote j n).gth = d.gth := Dev.gth_of_kept (d.kept_dmaWrote j n)

@[simp] theorem Dev.dmaRead_gth (j : Option Nat) (n : Nat) : (d.dmaRead j n).gth = d.gth := by
  rw [Dev.dmaRead, Dev.charge_gth, Dev.pmc_gth]

@[simp] theorem Dev.finishJob_gth (id st r0 r1 r2 : Nat) : (d.finishJob id st r0 r1 r2).gth = d.gth :=
  Dev.gth_of_kept (d.kept_finishJob id st r0 r1 r2)

@[simp] theorem Dev.modPkt_gth (u : Nat) (f : Pkt → Pkt) : (d.modPkt u f).gth = d.gth := rfl

@[simp] theorem Dev.setStream_gth (n : Nat) (x : Stream) : (d.setStream n x).gth = d.gth := rfl

@[simp] theorem Dev.setLehrQ_gth (p q : Nat) (x : LehrQ) : (d.setLehrQ p q x).gth = d.gth := rfl

@[simp] theorem Dev.setCtx_gth (x : Ctx) : (d.setCtx x).gth = d.gth := rfl

theorem Dev.addPkt_gth (p : Pkt) : (d.addPkt p).gth = d.gth := rfl

theorem Dev.newUid_gth : d.newUid.2.gth = d.gth := rfl

theorem Dev.firstGroup_gth (n : Nat) : (d.firstGroup n).2.gth = d.gth := rfl

/-! ### Telemetry records -/

theorem Dev.scatter_gth (fn : Nat) (l : List (Nat × Nat)) (off : Nat) (bytes : List Byte) : (d.scatter fn l off bytes).gth = d.gth := by
  induction l generalizing d off bytes with
  | nil => rfl
  | cons a t ih =>
    rw [Dev.scatter]
    simp only [apply_ite Dev.gth, ih, Dev.emit_gth, ite_self]

theorem Dev.streamFull_gth (s : Nat) : (d.streamFull s).gth = d.gth := by
  unfold Dev.streamFull
  split
  · rfl
  · simp only [apply_ite Dev.gth, Dev.finishJob_gth, Dev.setStream_gth, ite_self]

theorem Dev.keepSample_gth (s : Nat) (r : List Byte) : (d.keepSample s r).gth = d.gth := by
  unfold Dev.keepSample
  split <;> rfl

theorem Dev.streamWrite_gth (s : Nat) : (d.streamWrite s).gth = d.gth := by
  unfold Dev.streamWrite
  dsimp only
  split
  · rfl
  · split
    · rfl
    · split
      · rw [Dev.keepSample_gth, Dev.emit_gth, Dev.setStream_gth]
      · split
        · rfl
        · simp only [apply_ite Dev.gth, Dev.streamFull_gth, Dev.setStream_gth, Dev.dmaWrote_gth, Dev.scatter_gth, ite_self]

theorem Dev.streamPump_gth (s fuel : Nat) : (d.streamPump s fuel).gth = d.gth := by
  induction fuel generalizing d with
  | zero => rfl
  | succ n ih => rw [Dev.streamPump, ih, Dev.streamWrite_gth]

theorem Dev.record_gth (s : Nat) (body : List Byte) : (d.record s body).gth = d.gth := by
  unfold Dev.record
  split
  · rfl
  · dsimp only
    split
    · rw [Dev.inc_gth, Dev.wr_gth]
    · rw [Dev.streamPump_gth, Dev.setStream_gth, Dev.wr_gth]

theorem Dev.cullet_gth (trace : Option Nat) (cp : Nat) (bit port : Option Nat) (data : List Byte) :
    (d.cullet trace cp bit port data).gth = d.gth := by
  cases trace with
  | none => rfl
  | some id => simp only [Dev.cullet, apply_ite Dev.gth, Dev.record_gth, ite_self]

/-! ### Cells, copies and the deep store -/

theorem Dev.writeCell_gth (u j code : Nat) (job : Option Nat) : (d.writeCell u j code job).gth = d.gth := by
  unfold Dev.writeCell
  split
  · rfl
  · split
    · rfl
    · rw [Dev.charge_gth, Dev.pmc_gth, Dev.modPkt_gth]

theorem Dev.writeCells_gth (u n : Nat) : (d.writeCells u n).gth = d.gth := by
  induction n generalizing d with
  | zero => rfl
  | succ n ih =>
    simp only [Dev.writeCells]
    split
    · rfl
    · simp only [apply_ite Dev.gth, ih, Dev.writeCell_gth, ite_self]

theorem Dev.addCopy_gth (c : Copy) : (d.addCopy c).gth = d.gth := by
  unfold Dev.addCopy
  dsimp only
  split
  · obtain ⟨l, x, hwake⟩ := Dev.wakeLpi_eq { d with dp := { d.dp with copies := d.dp.copies ++ [c] } } (c.queue % 12288 / 12)
    rw [hwake]
  · rfl

theorem Dev.setXoff_gth (i g : Nat) (b : Bool) : (d.setXoff i g b).gth = d.gth := by
  by_cases h : d.xoff i g = b
  · rw [Dev.setXoff_same h]
  · obtain ⟨l, x, y, heq⟩ := Dev.setXoff_eq h
    rw [heq, Dev.wr_gth]

theorem Dev.evalCopy_gth (ig : Option (Nat × Nat)) : (d.evalCopy ig).gth = d.gth := by
  cases ig with
  | none => rfl
  | some x => simp only [Dev.evalCopy, Dev.evalXoff, apply_ite Dev.gth, Dev.setXoff_gth, ite_self]

theorem Dev.takeExtent_gth (x : Ctx) (g : Nat) : (d.takeExtent x g).1.gth = d.gth := by
  unfold Dev.takeExtent
  split
  · rfl
  · split <;> rfl

theorem Dev.closeBatch_gth (n seq : Nat) : (d.closeBatch n seq).gth = d.gth := by
  unfold Dev.closeBatch
  split <;> rfl

theorem Dev.appendCells_gth (n u k : Nat) (first : Bool) (fuel : Nat) : (d.appendCells n u k first fuel).gth = d.gth := by
  induction fuel generalizing d k first with
  | zero => rfl
  | succ m ih =>
    simp only [Dev.appendCells]
    split
    · rfl
    · simp only [apply_ite Dev.gth, ih, Dev.setCtx_gth, Dev.takeExtent_gth, Dev.closeBatch_gth, ite_self]

theorem Dev.spillCopy_gth (u v k : Nat) : (d.spillCopy u v k).1.gth = d.gth := by
  unfold Dev.spillCopy
  dsimp only
  split
  · rw [Dev.pmc_gth, Dev.inc_gth]
  · rw [Dev.appendCells_gth]
    cases d.ctxOfVoq v <;> rfl

/-! ### Admission and the end of a frame -/

theorem Dev.wred_gth (a : Ask) : (d.wred a).1.gth = d.gth := by
  simp only [Dev.wred, Dev.free, apply_ite Prod.fst, apply_ite Prod.snd, apply_ite Dev.gth, ite_self]

theorem Dev.admitRecord_gth (a : Ask) (step charge : Nat) (ok : Bool) : (d.admitRecord a step charge ok).gth = d.gth :=
  d.cullet_gth _ _ _ _ _

theorem Dev.accepted_gth (a : Ask) (step : Nat) (c : Charge) (ecn : Bool) : (d.accepted a step c ecn).gth = d.gth := by
  simp only [Dev.accepted, Dev.evalCopy_gth, Dev.admitRecord_gth, Dev.modPkt_gth, apply_ite Dev.gth, Dev.pmc_gth, Dev.inc_gth,
    ite_self]

theorem Dev.admission_gth (a : Ask) (u : Nat) : (d.admission a u).1.gth = d.gth := by
  unfold Dev.admission
  dsimp only
  split
  · rw [Dev.admitRecord_gth, Dev.pmc_gth, Dev.wred_gth]
  · split
    · simp only [apply_ite Prod.fst, apply_ite Dev.gth, Dev.accepted_gth, Dev.admitRecord_gth, Dev.pmc_gth, Dev.spillCopy_gth,
        Dev.addCopy_gth, Dev.newUid, Dev.wred_gth, ite_self]
    · split
      · simp only [Dev.accepted_gth, Dev.addCopy_gth, Dev.newUid, Dev.wred_gth]
      · simp only [Dev.admitRecord_gth, Dev.pmc_gth, Dev.newUid, Dev.wred_gth]

theorem Dev.admitCopy_gth (a : Ask) (u : Nat) : (d.admitCopy a u).1.gth = d.gth := by
  have hadm := d.admission_gth a u
  unfold Dev.admitCopy
  split
  next heq =>
    rw [heq] at hadm
    exact hadm
  next heq =>
    rw [heq] at hadm
    rw [Dev.refusedRecord, Dev.cullet_gth, Dev.refused, apply_ite Dev.gth, Dev.inc_gth, Dev.inc_gth, ite_self]
    exact hadm

theorem Dev.admitAll_gth (l : List Ask) (u : Nat) : (d.admitAll l u).1.gth = d.gth := by
  induction l generalizing d with
  | nil => rfl
  | cons a t ih => exact (ih _).trans (d.admitCopy_gth a u)

theorem Dev.lehrUpdate_gth (p q l : Nat) : (d.lehrUpdate p q l).gth = d.gth := by
  simp only [Dev.lehrUpdate, apply_ite Dev.gth, Dev.setLehrQ_gth, Dev.pmc_gth, ite_self]

theorem wakeQueues_gth (old new : Dev) (l : List Nat) : (wakeQueues old new l).gth = new.gth :=
  foldl_proj Dev.gth _ (fun d e => by simp only [apply_ite Dev.gth, Dev.lehrUpdate_gth, ite_self]) l new

theorem Dev.endFrame_gth (u : Nat) : (d.endFrame u).gth = d.gth := by
  have free : ∀ t : Option Nat, (d.freeTrace t).gth = d.gth := fun t => by cases t <;> rfl
  have sweep : ∀ e : Dev, e.sweepFrames.gth = e.gth := fun _ => rfl
  rw [Dev.endFrame, sweep, Dev.freeFrame, Dev.pmc_gth, Dev.modPkt_gth, Dev.modPkt_gth, free]

theorem Dev.originate_gth (o : GOut) : (d.originate o).gth = d.gth := by
  simp only [Dev.originate, apply_ite Dev.gth, Dev.endFrame_gth, Dev.inc_gth, wakeQueues_gth, Dev.admitAll_gth, Dev.writeCells_gth,
    Dev.addPkt_gth, Dev.newUid_gth, Dev.firstGroup_gth, ite_self]

@[simp] theorem Dev.sendMember_gth (g : Group) (h : GHdr) (payload : List Byte) (i : Nat) (job : Option Nat) :
    (d.sendMember g h payload i job).gth = d.gth := by
  unfold Dev.sendMember
  rw [Dev.originate_gth]
  rfl

@[simp] theorem Dev.frameBuilt_gth (job : Option Nat) : (d.frameBuilt job).gth = d.gth := d.charge_gth job 12 1

end Gth

/-! ## The directory of groups (R232) -/

theorem Dev.group_setGroup (d : Dev) (g : Group) (k : Nat) : (d.setGroup g).group k = if g.slot = k then some g else d.group k :=
  Sparse.find?_insert _ _ _ _

theorem Dev.group_setGroup_self (d : Dev) (g : Group) : (d.setGroup g).group g.slot = some g :=
  (d.group_setGroup g _).trans (if_pos rfl)

theorem Dev.group_setGroup_of_slot (d : Dev) {g : Group} {k : Nat} (h : g.slot = k) : (d.setGroup g).group k = some g :=
  (d.group_setGroup g k).trans (if_pos h)

theorem Dev.group_of_gth {d e : Dev} (h : e.gth = d.gth) (k : Nat) : e.group k = d.group k := by
  rw [Dev.group, h, Dev.group]

/-- A group found by its identifier stands in its slot. -/
theorem Dev.group_of_groupOf {d : Dev} {id : Nat} {g : Group} (h : d.groupOf id = some g) : d.group g.slot = some g := by
  obtain ⟨hslot, hid⟩ := Option.filter_eq_some_iff.1 h
  rwa [Group.slot, beq_iff_eq.1 hid]

/-! ## Retirement (R243, R252) -/

/-- The count of steps whose hold time has passed, by each engine of the group, leaves the engines' own state alone. -/
theorem Dev.holdExpired_gth (d : Dev) (l : List Nat) (b : Bool) :
    (if b then l.foldl (fun d k => d.inc F.GTH_HOLD_EXP_COUNT [k]) d else d).gth = d.gth := by
  split
  · exact foldl_proj Dev.gth _ (fun d _ => d.inc_gth _ _) l d
  · rfl

/-- What the retirement of steps of the group in a slot leaves: no context comes, the group stays with the acknowledged steps of its
members, and neither frames nor the counts of duplicates change. -/
structure Retired (slot : Nat) (d e : Dev) : Prop where
  ctxs : ∀ c ∈ e.gth.ctxs, c ∈ d.gth.ctxs
  group : ∀ g, d.group slot = some g → g.slot = slot → ∃ h, e.group slot = some h ∧ h.slot = slot ∧ h.acked = g.acked
  dp : e.dp = d.dp
  dups : ∀ ix, e.rd F.GTH_DUP_COUNT ix = d.rd F.GTH_DUP_COUNT ix

namespace Retired

variable {slot : Nat} {d e f : Dev}

theorem refl (slot : Nat) (d : Dev) : Retired slot d d :=
  ⟨fun _ h => h, fun g h hs => ⟨g, h, hs, rfl⟩, rfl, fun _ => rfl⟩

theorem trans (h : Retired slot d e) (h' : Retired slot e f) : Retired slot d f where
  ctxs c hc := h.ctxs c (h'.ctxs c hc)
  group g hg hs := by
    obtain ⟨i, hi, his, hia⟩ := h.group g hg hs
    obtain ⟨j, hj, hjs, hja⟩ := h'.group i hi his
    exact ⟨j, hj, hjs, hja.trans hia⟩
  dp := h'.dp.trans h.dp
  dups ix := (h'.dups ix).trans (h.dups ix)

theorem freeCtxs (slot : Nat) (d : Dev) (k : Nat) (p : GCtx → Bool) : Retired slot d (d.freeCtxs k p) :=
  ⟨fun _ h => List.mem_of_mem_filter h, fun g h hs => ⟨g, h, hs, rfl⟩, rfl, fun _ => rfl⟩

/-- A step that leaves the engines' state and the frames alone. -/
theorem of_gth (hg : e.gth = d.gth) (hdp : e.dp = d.dp) (hr : ∀ ix, e.rd F.GTH_DUP_COUNT ix = d.rd F.GTH_DUP_COUNT ix) :
    Retired slot d e :=
  ⟨fun _ h => hg ▸ h, fun g h hs => ⟨g, (Dev.group_of_gth hg slot).trans h, hs, rfl⟩, hdp, hr⟩

theorem finishOp (slot : Nat) (d : Dev) (o : GOp) (st : Nat) : Retired slot d (d.finishOp o st) :=
  .of_gth (Dev.gth_of_kept (d.kept_finishJob _ _ _ _ _)) (Dev.dp_of_kept (d.kept_finishJob _ _ _ _ _))
    (Dev.rd_of_resting (d.resting_finishJob _ _ _ _ _) (by decide))

theorem holdExpired (slot : Nat) (d : Dev) (l : List Nat) (b : Bool) :
    Retired slot d (if b then l.foldl (fun d k => d.inc F.GTH_HOLD_EXP_COUNT [k]) d else d) := by
  refine .of_gth (d.holdExpired_gth l b) ?_ fun ix => ?_ <;> split
  · exact foldl_proj Dev.dp _ (fun d _ => d.inc_dp _ _) l d
  · rfl
  · exact foldl_proj (fun d => d.rd F.GTH_DUP_COUNT ix) _ (fun d k => d.rd_inc_apart (g := F.GTH_HOLD_EXP_COUNT) ix [k] (by decide)) l d
  · rfl

/-- The group changes, but neither its identifier nor what its members acknowledged. -/
theorem setGroup {g h : Group} (hg : d.group slot = some g) (hid : h.id = g.id) (hack : h.acked = g.acked) :
    Retired slot d (d.setGroup h) := by
  refine ⟨fun _ h => h, fun i hi hs => ?_, rfl, fun _ => rfl⟩
  obtain rfl : g = i := Option.some.inj (hg.symm.trans hi)
  have hslot : h.slot = slot := by rw [← hs, Group.slot, hid, Group.slot]
  exact ⟨h, d.group_setGroup_of_slot hslot, hslot, hack⟩

end Retired

/-- The oldest step in flight retires. -/
theorem Dev.retired_retireStep {d : Dev} {slot : Nat} {g : Group} (hg : d.group slot = some g) (s : GStep) :
    Retired slot d (d.retireStep g s) := by
  have hcleared := (Retired.freeCtxs slot d g.slot (fun c => c.step == s.step)).trans (.holdExpired slot _ g.list s.expired)
  have hstays := (Dev.group_of_gth (Dev.holdExpired_gth (d.freeCtxs g.slot (fun c => c.step == s.step)) g.list s.expired) slot).trans hg
  have put := fun (h : Group) hid hack => hcleared.trans (Retired.setGroup (h := h) hstays hid hack)
  unfold Dev.retireStep
  dsimp only
  split
  · exact put _ rfl rfl
  · split
    · refine put _ ?_ ?_ <;> split <;> rfl
    · split
      · refine Retired.trans (put _ ?_ ?_) (Retired.finishOp _ _ _ _) <;> rfl
      · exact put _ rfl rfl

theorem Dev.retired_retireUpTo {slot : Nat} (fuel : Nat) (d : Dev) : Retired slot d (d.retireUpTo slot fuel) := by
  induction fuel generalizing d with
  | zero => exact .refl _ _
  | succ n ih =>
    rw [Dev.retireUpTo]
    split
    · exact .refl _ _
    next g hg =>
      split
      · exact .refl _ _
      · split
        · exact (Dev.retired_retireStep hg _).trans (ih _)
        · exact .refl _ _

theorem Dev.retired_retire (d : Dev) (slot : Nat) : Retired slot d (d.retire slot) := by
  unfold Dev.retire
  split
  · exact .refl _ _
  · exact d.retired_retireUpTo _

/-- Nothing retires while the oldest step in flight is not RESULTED. -/
theorem Dev.retire_of_unresulted {d : Dev} {slot : Nat} {g : Group} (hg : d.group slot = some g)
    (h : ∀ st t, g.steps = st :: t → st.resulted = false) : d.retire slot = d := by
  rw [Dev.retire, hg]
  dsimp only
  cases hs : g.steps with
  | nil => rfl
  | cons st t =>
    rw [List.length_cons, Dev.retireUpTo, hg]
    simp only [hs, h st t hs, Bool.false_and, Bool.false_eq_true, if_false]

/-! ## Acknowledgement (R251) -/

/-- Member `m` of the group, which was `g` in `d`, has raised its acknowledged step to at least `t`; no context has come since `d`, and
none is gone but by a step that retires. -/
structure Raised (d e : Dev) (g : Group) (m : Nat) (t : Int) : Prop where
  acked : ∃ h, e.group g.slot = some h ∧ h.acked = g.acked.modify m (fun a => max a t)
  ctxs : ∀ c ∈ e.gth.ctxs, c ∈ d.gth.ctxs
  still : (∀ st t, g.steps = st :: t → st.resulted = false) → e.gth.ctxs = d.gth.ctxs

/-- What an answer about a group leaves of the engines: every context, and the group but for the marks of its operations. -/
structure Answered (d e : Dev) (g : Group) : Prop where
  ctxs : e.gth.ctxs = d.gth.ctxs
  group : ∃ h, e.group g.slot = some h ∧ h.id = g.id ∧ h.acked = g.acked ∧ h.steps = g.steps

theorem Answered.of_gth {d e : Dev} {g : Group} (hg : d.group g.slot = some g) (hdir : e.gth.dir = d.gth.dir)
    (hctxs : e.gth.ctxs = d.gth.ctxs) : Answered d e g :=
  ⟨hctxs, g, by rw [Dev.group, hdir]; exact hg, rfl, rfl, rfl⟩

/-- What leaves the engines' state alone is as good as an answer. -/
theorem Answered.of_gth_eq {d e : Dev} {g : Group} (hg : d.group g.slot = some g) (h : e.gth = d.gth) : Answered d e g :=
  .of_gth hg (congrArg Gth.dir h) (congrArg Gth.ctxs h)

/-- What leaves the engines' state alone, before an answer, changes nothing of what it leaves. -/
theorem Answered.after {d d' e : Dev} {g : Group} (h : Answered d' e g) (hgth : d'.gth = d.gth) : Answered d e g :=
  ⟨hgth ▸ h.ctxs, h.group⟩

/-- The group once its member `m` has acknowledged step `t`. -/
def Group.raise (g : Group) (m : Nat) (t : Int) : Group := { g with acked := g.acked.modify m (fun a => max a t) }

theorem Dev.acknowledge_eq {d : Dev} {slot : Nat} {g : Group} (hg : d.group slot = some g) (m : Nat) (t : Int) :
    d.acknowledge slot m t = (d.setGroup (g.raise m t)).retire slot := by
  rw [Dev.acknowledge, hg, Group.raise]

theorem Answered.raised_acknowledge {d e : Dev} {g : Group} (h : Answered d e g) (m : Nat) (t : Int) :
    Raised d (e.acknowledge g.slot m t) g m t := by
  obtain ⟨hctxs, i, hi, hid, hacked, hsteps⟩ := h
  have hslot : (i.raise m t).slot = g.slot := congrArg (· % 4096) hid
  have hput := e.group_setGroup_of_slot hslot
  rw [Dev.acknowledge_eq hi]
  have hretired := Dev.retired_retire (e.setGroup (i.raise m t)) g.slot
  obtain ⟨j, hj, -, hja⟩ := hretired.group _ hput hslot
  refine ⟨⟨j, hj, ?_⟩, fun c hc => hctxs ▸ hretired.ctxs c hc, fun hst => ?_⟩
  · rw [hja, Group.raise, hacked]
  · rw [Dev.retire_of_unresulted hput (hsteps ▸ hst)]
    exact hctxs

/-- An acknowledgement concerns no frame, and counts no duplicate. -/
theorem Dev.acknowledge_leaves (d : Dev) (slot m : Nat) (t : Int) :
    (d.acknowledge slot m t).dp = d.dp ∧ ∀ ix, (d.acknowledge slot m t).rd F.GTH_DUP_COUNT ix = d.rd F.GTH_DUP_COUNT ix := by
  cases hg : d.group slot with
  | none => rw [Dev.acknowledge, hg]; exact ⟨rfl, fun _ => rfl⟩
  | some g =>
    rw [Dev.acknowledge_eq hg]
    have hretired := Dev.retired_retire (d.setGroup (g.raise m t)) slot
    exact ⟨hretired.dp, hretired.dups⟩

/-! ## Answers (R259) -/

theorem Dev.charge_dp (d : Dev) (j : Option Nat) (i n : Nat) : (d.charge j i n).dp = d.dp := Dev.dp_of_kept (d.kept_charge j i n)

/-- One more answer of engine `k` is counted in this millisecond. -/
def Dev.answering (d : Dev) (k : Nat) : Dev :=
  let ms := d.rst.mono / 1000000
  let sent := Sparse.get (0, 0) d.gth.answers k
  { d with gth := { d.gth with answers := Sparse.set (0, 0) d.gth.answers k (ms, (if sent.1 = ms then sent.2 else 0) + 1) } }

theorem Dev.answer_ok {d : Dev} {k : Nat} (h : d.answerOk k = true) (f : Dev → Dev) : d.answer k f = f (d.answering k) := if_pos h

theorem Dev.answer_full {d : Dev} {k : Nat} (h : d.answerOk k = false) (f : Dev → Dev) :
    d.answer k f = d.inc F.GTH_ANS_DROP_COUNT [k] := if_neg (by simp [h])

/-- The header of an ERROR names the group, the step and the chunk that it is about, and its code. -/
theorem Group.errHdr_says (g : Group) (v step seq code : Nat) :
    let h := g.errHdr v step seq code
    h.kind = 5 ∧ h.code = code ∧ h.step = step ∧ h.seq = seq ∧ h.group = g.id ∧ h.gen = g.gen := by
  unfold Group.errHdr Group.hdr
  cases g.opAt step <;> exact ⟨rfl, rfl, rfl, rfl, rfl, rfl⟩

/-- An ERROR within the rate is sent from a device whose frames, groups and contexts are as they were. -/
theorem Dev.sendError_ok {d : Dev} {k : Nat} (h : d.answerOk k = true) (g : Group) (i step seq code : Nat) :
    ∃ (e : Dev) (x : GHdr), x = g.errHdr (Config.freeValue d.freeIdx).toNat step seq code ∧ e.dp = d.dp ∧
      e.gth.dir = d.gth.dir ∧ e.gth.ctxs = d.gth.ctxs ∧
      d.sendError k g i step seq code = ((e.sendMember g x [] i none).inc F.GTH_ERR_TX_COUNT [k]).noteError g.slot step := by
  rw [Dev.sendError, Dev.answer_ok h]
  refine ⟨(d.answering k).free.2.frameBuilt (g.jobAt step), _, rfl, Dev.charge_dp _ _ _ _, ?_, ?_, rfl⟩ <;>
    rw [Dev.frameBuilt_gth] <;> rfl

theorem Dev.noteError_eq {d : Dev} {slot : Nat} {g : Group} (hg : d.group slot = some g) (step : Nat) :
    ∃ l, d.noteError slot step = d.setGroup { g with ops := l } := ⟨_, by rw [Dev.noteError, hg]⟩

theorem Dev.answered_sendError {d : Dev} {g : Group} (hg : d.group g.slot = some g) (k i step seq code : Nat) :
    Answered d (d.sendError k g i step seq code) g := by
  cases hok : d.answerOk k with
  | true =>
    obtain ⟨e, x, -, -, hdir, hctxs, hsent⟩ := Dev.sendError_ok hok g i step seq code
    have hgth : ((e.sendMember g x [] i none).inc F.GTH_ERR_TX_COUNT [k]).gth = e.gth := by rw [Dev.inc_gth, Dev.sendMember_gth]
    generalize (e.sendMember g x [] i none).inc F.GTH_ERR_TX_COUNT [k] = y at hsent hgth
    obtain ⟨l, hl⟩ := Dev.noteError_eq ((Dev.group_of_gth hgth _).trans (by rw [Dev.group, hdir]; exact hg)) step
    rw [hsent, hl]
    exact ⟨(congrArg Gth.ctxs hgth).trans hctxs, _, y.group_setGroup_self { g with ops := l }, rfl, rfl, rfl⟩
  | false => exact .of_gth_eq hg (by rw [Dev.sendError, Dev.answer_full hok, Dev.inc_gth])

theorem Dev.answered_resend {d : Dev} {g : Group} (hg : d.group g.slot = some g) (k : Nat) (c : GCtx) (o : GOp) (m : Nat) :
    Answered d (d.resend k g c o m) g := by
  cases hok : d.answerOk k with
  | true =>
    have hgth : (d.resend k g c o m).gth = (d.answering k).gth := by
      rw [Dev.resend, Dev.answer_ok hok, Dev.inc_gth, Dev.sendMember_gth, Dev.frameBuilt_gth]
    exact .of_gth hg ((congrArg Gth.dir hgth).trans rfl) ((congrArg Gth.ctxs hgth).trans rfl)
  | false => exact .of_gth_eq hg (by rw [Dev.resend, Dev.answer_full hok, Dev.inc_gth])

/-! ## The rows of R246 -/

/-- Row 1: another version or kind. -/
theorem Dev.receive_bad {d : Dev} {k : Nat} {x : GIn} (h : x.h.ver ≠ 1 ∨ (x.h.kind ≠ 1 ∧ x.h.kind ≠ 3)) :
    d.receive k x = ((d.inc F.GTH_RX_BAD_COUNT [k]).charge none 12 1, 1) := by
  unfold Dev.receive
  exact if_pos (by simpa using h)

/-- The frame at engine `k` is a contribution or an ACK of version 1, to group `g` on the engine. -/
structure ToGroup (d : Dev) (k : Nat) (x : GIn) (g : Group) : Prop where
  ver : x.h.ver = 1
  kind : x.h.kind = 1 ∨ x.h.kind = 3
  group : d.groupOf x.h.group = some g
  engine : bitAt g.engines k = true

/-- And it is of the group's generation, from one of its members. -/
structure FromMember (d : Dev) (k : Nat) (x : GIn) (g : Group) : Prop extends ToGroup d k x g where
  gen : x.h.gen = g.gen
  member : x.h.member < g.m
  src : x.src = ((d.epAddr g.ep).1, (g.members.getD x.h.member {}).ip)

/-- Beyond rows 1 and 2. -/
theorem ToGroup.receive_eq {d : Dev} {k : Nat} {x : GIn} {g : Group} (h : ToGroup d k x g) :
    d.receive k x =
      if x.h.gen ≠ g.gen then ((d.charge none 12 1).sendBack k x.f x.ip x.pos (some g) x.h 2, 3)
      else if g.m ≤ x.h.member || x.src ≠ ((d.epAddr g.ep).1, (g.members.getD x.h.member ({} : Member)).ip) then
        ((d.charge none 12 1).sendBack k x.f x.ip x.pos (some g) x.h 3, 4)
      else if x.h.kind = 3 then ((d.charge none 12 1).acknowledge g.slot x.h.member x.h.step, 5)
      else d.contrib k g x := by
  have hrow : (decide (x.h.ver ≠ 1) || (decide (x.h.kind ≠ 1) && decide (x.h.kind ≠ 3))) = false := by
    rcases h.kind with hk | hk <;> simp [h.ver, hk]
  have hfind : (d.groupOf x.h.group).filter (fun g => bitAt g.engines k) = some g := by
    rw [h.group, Option.filter_some, if_pos h.engine]
  unfold Dev.receive
  simp only [hrow, hfind, Bool.false_eq_true, if_false]

/-- Row 3: another generation. -/
theorem ToGroup.receive_gen {d : Dev} {k : Nat} {x : GIn} {g : Group} (h : ToGroup d k x g) (hgen : x.h.gen ≠ g.gen) :
    (d.receive k x).2 = 3 := by
  rw [h.receive_eq, if_pos hgen]

section FromMember

variable {d : Dev} {k : Nat} {x : GIn} {g : Group} (h : FromMember d k x g)

include h

theorem FromMember.group_slot : d.group g.slot = some g := Dev.group_of_groupOf h.group

/-- Beyond row 4. -/
theorem FromMember.receive_eq : d.receive k x =
    if x.h.kind = 3 then ((d.charge none 12 1).acknowledge g.slot x.h.member x.h.step, 5) else d.contrib k g x := by
  rw [h.toToGroup.receive_eq, if_neg (not_not.2 h.gen), if_neg]
  simp [h.src, h.member]

/-- Row 5: an ACK. -/
theorem FromMember.receive_ack (hk : x.h.kind = 3) :
    d.receive k x = ((d.charge none 12 1).acknowledge g.slot x.h.member x.h.step, 5) := by
  rw [h.receive_eq, if_pos hk]

/-- Beyond row 9: a contribution to a step of an operation of the group; its row leaves `y`, before the sender's A[m] rises. -/
theorem FromMember.receive_contribution {o : GOp} (hk : x.h.kind = 1) (hlen : x.badLength = false)
    (hretired : g.retired x.h.step = false) (hop : g.opAt x.h.step = some o) {y : Dev} {row : Nat}
    (hrow : (d.charge (g.jobAt x.h.step) 12 1).contribution k g o x = (y, row)) :
    d.receive k x = (y.acknowledge g.slot x.h.member ((x.h.step : Int) - g.window), row) := by
  rw [h.receive_eq, if_neg (by omega), Dev.contrib]
  simp only [hlen, hretired, hop, hrow, Bool.false_eq_true, if_false]

end FromMember

/-! ### Rows 12 to 15: a contribution about a chunk that has a context -/

section Contribution

variable {d : Dev} {g : Group} {o : GOp} {x : GIn} {c : GCtx} (hsame : x.h.differs o = false)
  (hc : d.gctx g.slot x.h.step x.h.seq = some c) (k : Nat)

include hsame hc

theorem Dev.contribution_failed (hst : c.at_ = .failed) :
    d.contribution k g o x = (d.sendError k g x.h.member x.h.step x.h.seq 8, 12) := by
  simp only [Dev.contribution, hsame, hc, hst, Bool.false_eq_true, if_false]

theorem Dev.contribution_complete (hst : c.at_ = .complete) : d.contribution k g o x = (d.resend k g c o x.h.member, 13) := by
  simp only [Dev.contribution, hsame, hc, hst, Bool.false_eq_true, if_false]

theorem Dev.contribution_repeated (hst : c.at_ = .open_) (hbit : bitAt c.bits x.h.member = true) :
    d.contribution k g o x = ((d.inc F.GTH_DUP_COUNT [k]).pmc (112 + k) 0x62 1, 14) := by
  simp only [Dev.contribution, hsame, hc, hst, hbit, Bool.false_eq_true, if_false, if_true]

theorem Dev.contribution_new (hst : c.at_ = .open_) (hbit : bitAt c.bits x.h.member = false) :
    d.contribution k g o x = (d.reduce k g o c x, 15) := by
  simp only [Dev.contribution, hsame, hc, hst, hbit, Bool.false_eq_true, if_false]

end Contribution

/-- A contribution that came before is counted in GTH_DUP, once (R6). -/
theorem Dev.dups_counted (d : Dev) (j : Option Nat) (k : Nat) :
    (((d.charge j 12 1).inc F.GTH_DUP_COUNT [k]).pmc (112 + k) 0x62 1).rd F.GTH_DUP_COUNT [k] =
      min (2 ^ 32 - 1) (d.rd F.GTH_DUP_COUNT [k] + 1) := by
  have hcharge := Dev.rd_of_resting (d.resting_charge j 12 1) (f := F.GTH_DUP_COUNT) (by decide) [k]
  rw [Dev.rd_of_resting (Dev.resting_pmc _ _ _ _) (by decide), Dev.rd_inc_saturates _ _ _ (by decide) (by decide) (by decide), hcharge]
  rfl

/-- Settles O38: each row by the branch that its conditions choose; what a row leaves of the contexts, the acknowledged steps and the
counts is what its answer leaves (`Answered`), and then what the acknowledgement leaves (`Raised`). -/
theorem gatherRows : Obligations.GatherRows := by
  unfold Obligations.GatherRows
  refine ⟨?rows, fun d k g i step seq code => ⟨fun hok => ?error, fun hfull => Dev.answer_full hfull _⟩⟩
  case error =>
    obtain ⟨e, h, rfl, hdp, -, -, hsent⟩ := Dev.sendError_ok hok g i step seq code
    obtain ⟨hkind, hcode, hstep, hseq, hgroup, hgen⟩ := g.errHdr_says (Config.freeValue d.freeIdx).toNat step seq code
    exact ⟨e, _, hkind, hcode, hstep, hseq, hgroup, hgen, hdp, hsent⟩
  case rows =>
    intro d k x e kept
    refine ⟨Dev.receive_bad, ?_⟩
    intro g hver hkind hgroup hengine raised same
    have hto : ToGroup d k x g := ⟨hver, hkind, hgroup, hengine⟩
    refine ⟨hto.receive_gen, fun hgen hmember hsrc => ?_⟩
    have hfrom : FromMember d k x g := ⟨hto, hgen, hmember, hsrc⟩
    have hslot := hfrom.group_slot
    refine ⟨fun hk => ?ack, fun o c hk hlen hretired hop hsame hc => ?contribution⟩
    case ack =>
      have hrow := hfrom.receive_ack hk
      have he : e = (d.charge none 12 1).acknowledge g.slot x.h.member x.h.step := congrArg Prod.fst hrow
      have hr := (Answered.of_gth_eq hslot (d.charge_gth none 12 1)).raised_acknowledge x.h.member x.h.step
      rw [← he] at hr
      refine ⟨congrArg Prod.snd hrow, hr.acked, hr.ctxs, hr.still, ?_⟩
      rw [he, (Dev.acknowledge_leaves _ _ _ _).1, Dev.charge_dp]
    case contribution =>
      have hknown : ∀ {y : Dev} {row : Nat}, (d.charge (g.jobAt x.h.step) 12 1).contribution k g o x = (y, row) → Answered d y g →
          d.receive k x = (y.acknowledge g.slot x.h.member ((x.h.step : Int) - g.window), row) ∧
            Raised d e g x.h.member ((x.h.step : Int) - g.window) := fun {y row} hrow hy => by
        have hrec := hfrom.receive_contribution hk hlen hretired hop hrow
        have he : e = _ := congrArg Prod.fst hrec
        exact ⟨hrec, he ▸ hy.raised_acknowledge _ _⟩
      have hcharge := d.charge_gth (g.jobAt x.h.step) 12 1
      have hslot' : (d.charge (g.jobAt x.h.step) 12 1).group g.slot = some g := (Dev.group_of_gth hcharge _).trans hslot
      have hc' : (d.charge (g.jobAt x.h.step) 12 1).gctx g.slot x.h.step x.h.seq = some c := by rwa [Dev.gctx, hcharge]
      refine ⟨fun hst => ?_, fun hst => ?_, fun hst hbit => ?_, fun hst hbit => ?_⟩
      · obtain ⟨hrow, hr⟩ := hknown (Dev.contribution_failed hsame hc' k hst) ((Dev.answered_sendError hslot' _ _ _ _ _).after hcharge)
        exact ⟨congrArg Prod.snd hrow, hr.acked, hr.ctxs, hr.still, congrArg Prod.fst hrow⟩
      · obtain ⟨hrow, hr⟩ := hknown (Dev.contribution_complete hsame hc' k hst) ((Dev.answered_resend hslot' _ _ _ _).after hcharge)
        exact ⟨congrArg Prod.snd hrow, hr.acked, hr.ctxs⟩
      · obtain ⟨hrow, hr⟩ := hknown (Dev.contribution_repeated hsame hc' k hst hbit)
          (Answered.of_gth_eq hslot (by rw [Dev.pmc_gth, Dev.inc_gth, hcharge]))
        have he : e = _ := congrArg Prod.fst hrow
        obtain ⟨hdp, hdups⟩ := Dev.acknowledge_leaves
          (((d.charge (g.jobAt x.h.step) 12 1).inc F.GTH_DUP_COUNT [k]).pmc (112 + k) 0x62 1) g.slot x.h.member (x.h.step - g.window)
        refine ⟨congrArg Prod.snd hrow, hr.acked, hr.ctxs, hr.still, ?_, ?_⟩
        · rw [he, hdp, Dev.dp_pmc, Dev.inc_dp, Dev.charge_dp]
        · rw [he, hdups, Dev.dups_counted]
      · have hnew := Dev.contribution_new hsame hc' k hst hbit
        exact congrArg Prod.snd (hfrom.receive_contribution hk hlen hretired hop hnew)

/-! ## Jobs that go on, and their completions (R350, R352) -/

@[simp] theorem Dev.pmc_hif (d : Dev) (u code n : Nat) : (d.pmc u code n).hif = d.hif := by
  unfold Dev.pmc
  split
  · refine foldl_proj Dev.hif _ (fun e k => ?_) _ _
    dsimp only
    split
    · exact Dev.proj_pmcAdd Dev.hif Dev.wr_hif (fun _ _ => rfl) _ _ _ _ _
    · rfl
  · rfl

/-- From `d` to `e` no job comes or goes, and none but job `id` changes, which keeps its submission; nothing completes. -/
structure JobGoesOn (id : Nat) (d e : Dev) : Prop where
  jobs : ∃ f : Job → Job, (∀ x, (f x).id = x.id ∧ (f x).sub = x.sub) ∧
    e.hif.jobs = d.hif.jobs.map (fun x => if x.id = id then f x else x)
  finished : e.hif.finished = d.hif.finished
  cq : ∀ n, e.rd F.RING_CTL_CQ [n] = d.rd F.RING_CTL_CQ [n]

namespace JobGoesOn

variable {id : Nat} {d e f : Dev}

theorem trans (h : JobGoesOn id d e) (h' : JobGoesOn id e f) : JobGoesOn id d f := by
  obtain ⟨a, ha, hjobs⟩ := h.jobs
  obtain ⟨b, hb, hjobs'⟩ := h'.jobs
  refine ⟨⟨b ∘ a, fun x => ⟨(hb _).1.trans (ha x).1, (hb _).2.trans (ha x).2⟩, ?_⟩, h'.finished.trans h.finished,
    fun n => (h'.cq n).trans (h.cq n)⟩
  rw [hjobs', hjobs, List.map_map]
  refine List.map_congr_left fun x _ => ?_
  by_cases hx : x.id = id <;> simp [hx, (ha x).1]

theorem of_hif (hhif : e.hif.jobs = d.hif.jobs ∧ e.hif.finished = d.hif.finished)
    (hcq : ∀ n, e.rd F.RING_CTL_CQ [n] = d.rd F.RING_CTL_CQ [n]) : JobGoesOn id d e :=
  ⟨⟨fun x => x, fun _ => ⟨rfl, rfl⟩, by simp [hhif.1]⟩, hhif.2, hcq⟩

theorem startJob (id : Nat) (d : Dev) : JobGoesOn id d (d.startJob id) :=
  ⟨⟨fun x => { x with started := true }, fun _ => ⟨rfl, rfl⟩, rfl⟩, rfl, fun _ => rfl⟩

theorem charge (id : Nat) (d : Dev) {j : Option Nat} (hj : j = none ∨ j = some id) (i n : Nat) : JobGoesOn id d (d.charge j i n) := by
  rcases hj with rfl | rfl
  · exact .of_hif ⟨rfl, rfl⟩ fun _ => rfl
  · exact ⟨⟨fun x => { x with energy := x.energy + (d.activity i n).eventEnergy i n }, fun _ => ⟨rfl, rfl⟩, rfl⟩, rfl,
      fun _ => rfl⟩

theorem pmc (id : Nat) (d : Dev) (u code n : Nat) : JobGoesOn id d (d.pmc u code n) :=
  .of_hif (by simp) fun m => Dev.rd_pmc (by decide) [m] d u code n

theorem dmaRead (id : Nat) (d : Dev) {j : Option Nat} (hj : j = none ∨ j = some id) (n : Nat) : JobGoesOn id d (d.dmaRead j n) := by
  have hrem : JobGoesOn id d { d with hif := { d.hif with dmaReadRem := (d.hif.dmaReadRem + n) % 64 } } :=
    .of_hif ⟨rfl, rfl⟩ fun _ => rfl
  exact (hrem.trans (.pmc id _ _ _ _)).trans (.charge id _ hj 14 n)

/-- The job that ends goes; the others stay. -/
theorem finishJob_jobs (h : JobGoesOn id d e) (st r0 r1 r2 : Nat) :
    (e.finishJob id st r0 r1 r2).hif.jobs = d.hif.jobs.filter (fun x => x.id != id) := by
  have hfinish : (e.finishJob id st r0 r1 r2).hif.jobs = e.hif.jobs.filter (fun x => x.id != id) := by
    unfold Dev.finishJob
    split
    next hnone =>
      rw [eq_comm, List.filter_eq_self]
      exact fun x hx => by simpa using List.find?_eq_none.1 hnone x hx
    · dsimp only
      rw [Dev.addTo_hif]
  obtain ⟨f, hf, hjobs⟩ := h.jobs
  rw [hfinish, hjobs, List.filter_map]
  have hkeeps : ((fun x : Job => x.id != id) ∘ fun x => if x.id = id then f x else x) = fun x => x.id != id := by
    funext x
    by_cases hx : x.id = id <;> simp [hx, (hf x).1]
  rw [hkeeps]
  conv_rhs => rw [← List.map_id (List.filter _ _)]
  refine List.map_congr_left fun x hx => if_neg ?_
  simpa using (List.mem_filter.1 hx).2

/-- Its completion joins those that wait to be written (R350). -/
theorem finishJob_finished (h : JobGoesOn id d e) {j : Job} (hj : d.hif.jobs.find? (fun x => x.id == id) = some j) (r0 r1 r2 : Nat) :
    ∃ x, (e.finishJob id 0 r0 r1 r2).hif.finished = d.hif.finished ++ [x] ∧ x.1 = d.rd F.RING_CTL_CQ [j.sub.ring] ∧
      x.2.last = j.sub.opcode * 2 ^ 16 + 0 * 2 ^ 8 ∧ x.2.sq = some j.sub.ring := by
  obtain ⟨f, hf, hjobs⟩ := h.jobs
  obtain ⟨i, hi, hsub⟩ : ∃ i, e.hif.jobs.find? (fun x => x.id == id) = some i ∧ i.sub = j.sub := by
    have hid : j.id = id := by simpa using List.find?_some hj
    have hkeeps : ((fun x : Job => x.id == id) ∘ fun x => if x.id = id then f x else x) = fun x => x.id == id := by
      funext x
      by_cases hx : x.id = id <;> simp [hx, (hf x).1]
    exact ⟨f j, by rw [hjobs, List.find?_map, hkeeps, hj, Option.map_some, if_pos hid], (hf j).2⟩
  unfold Dev.finishJob
  rw [hi]
  dsimp only
  rw [Dev.addTo_hif, h.finished, hsub, h.cq]
  exact ⟨_, rfl, rfl, by cases i.sealed <;> rfl, rfl⟩

end JobGoesOn

/-- A job that a command finds is of its ring and its opcode. -/
theorem Dev.newJob_says {d : Dev} {n op : Nat} {j : Job} (h : d.newJob n op = some j) : j.sub.ring = n ∧ j.sub.opcode = op := by
  have := List.find?_some h
  simp only [Bool.and_eq_true, beq_iff_eq] at this
  exact this.1

/-! ## GATHER_GROUP_SET, GATHER_GROUP_CLEAR, GATHER_OP (R239, R240, R242) -/

/-- The job has begun, and the member records with their header have been read (R239, R290). -/
def Dev.groupRead (d : Dev) (j : Job) : Dev :=
  ((d.startJob j.id).dmaRead none (min 64 j.sub.len)).dmaRead (some j.id) (j.sub.len - 64)

/-- The group takes its slot: from another group, whose contexts are freed, or with its throttle cleared. -/
def Dev.claimSlot (d : Dev) (g : Group) : Dev :=
  (if (d.group g.slot).isSome then d.freeCtxs g.slot (fun _ => true) else d.setRaw R.GTH_THR [g.slot] 0).setGroup g

/-- The group is removed: its operations end, and its contexts are freed (R240). -/
def Dev.dropGroup (d : Dev) (g : Group) : Dev :=
  let d := (g.live.foldl (fun d o => d.finishOp o 1) d).freeCtxs g.slot (fun _ => true)
  { d with gth := { d.gth with dir := Sparse.put d.gth.dir g.slot none } }

/-- The operation joins those of its group; a group without any takes it as acknowledged up to its first step. -/
def Group.join (g : Group) (o : GOp) (now : Nat) : Group :=
  { g with
    ops := g.ops ++ [o]
    acked := if g.ops.isEmpty && g.past.isEmpty then g.acked.map (fun a => max a ((o.first : Int) - 1)) else g.acked
    waitAt := if g.nextOp.isNone then some now else g.waitAt }

theorem Dev.groupRead_goesOn (d : Dev) (j : Job) : JobGoesOn j.id d (d.groupRead j) :=
  ((JobGoesOn.startJob j.id d).trans (.dmaRead j.id _ (.inl rfl) _)).trans (.dmaRead j.id _ (.inr rfl) _)

theorem Dev.groupRead_gth (d : Dev) (j : Job) : (d.groupRead j).gth = d.gth := by
  rw [Dev.groupRead, Dev.dmaRead_gth, Dev.dmaRead_gth]
  rfl

theorem Dev.claimSlot_goesOn (d : Dev) (id : Nat) (g : Group) : JobGoesOn id d (d.claimSlot g) := by
  unfold Dev.claimSlot
  split
  · exact .of_hif ⟨rfl, rfl⟩ fun _ => rfl
  · refine .of_hif ⟨rfl, rfl⟩ fun n => ?_
    have hraw := d.raw_setRaw_other R.GTH_THR F.RING_CTL_CQ.reg [g.slot] [n] 0 (by decide) (by decide) (by decide)
    exact congrArg (fun v => bitsOf v _ _) hraw

theorem Dev.group_claimSlot (d : Dev) (g : Group) (k : Nat) : (d.claimSlot g).group k = if g.slot = k then some g else d.group k := by
  unfold Dev.claimSlot
  rw [Dev.group_setGroup]
  split
  · rfl
  · split <;> rfl

theorem Dev.dropGroup_group (d : Dev) (g : Group) : (d.dropGroup g).group g.slot = none := by
  unfold Dev.dropGroup Dev.group
  exact (Sparse.find?_filter _ (fun k => k != g.slot) _).trans (if_neg (by simp))

theorem Dev.dropGroup_ctxs (d : Dev) (g : Group) : ∀ c ∈ (d.dropGroup g).gth.ctxs, c.slot ≠ g.slot := by
  intro c hc
  simpa using (List.mem_filter.1 hc).2

section Jobs

variable {s : State} {n : Fin 256} {j : Job} (hl : Live s)

include hl

section GroupSet

variable (hj : s.dev.newJob n.val 0x10 = some j) (hdma : s.dev.jobDma j.id = true)

include hj hdma

theorem runs_gatherGroupSet_outOfRange {b : List Byte} (hrange : (parseGroup j b).inRange j.sub.len = false) :
    Runs (.gatherGroupSet n (.data b)) s ((s.dev.groupRead j).finishJob j.id 5 0 0 0) :=
  Runs.of_run hl rfl (by simp only [hj, hdma, hrange, Bool.not_true, Bool.not_false, Bool.false_eq_true, if_true, if_false, Dev.groupRead])

theorem runs_gatherGroupSet {b : List Byte} (hrange : (parseGroup j b).inRange j.sub.len = true) :
    Runs (.gatherGroupSet n (.data b)) s
      (if !(s.dev.groupRead j).groupAllowed (parseGroup j b) then (s.dev.groupRead j).finishJob j.id 6 0 0 0
       else ((s.dev.groupRead j).claimSlot (parseGroup j b)).finishJob j.id 0 0 0 0) :=
  Runs.of_run hl rfl (by
    simp only [hj, hdma, hrange, Bool.not_true, Bool.false_eq_true, if_false]
    rfl)

theorem runs_gatherGroupSet_unread {r : HostRead}
    (hr : r ∈ [HostRead.urOrCa, .timeout, .poisoned]) :
    Runs (.gatherGroupSet n r) s ((s.dev.startJob j.id).dataFault j.id r) := by
  refine Runs.of_run hl rfl ?_
  simp only [hj, hdma, Bool.not_true, Bool.false_eq_true, if_false]
  simp only [List.mem_cons, List.not_mem_nil, or_false] at hr
  rcases hr with rfl | rfl | rfl <;> rfl

end GroupSet

theorem runs_gatherGroupClear_absent (hj : s.dev.newJob n.val 0x11 = some j)
    (hg : s.dev.groupOf (bitsOf (j.p 0) 19 0) = none) :
    Runs (.gatherGroupClear n) s ((s.dev.startJob j.id).finishJob j.id 0 0 0 0) := by
  have hg' : (s.dev.startJob j.id).groupOf (bitsOf (j.p 0) 19 0) = none := hg
  exact Runs.of_run hl rfl (by simp only [hj, hg'])

theorem runs_gatherGroupClear (hj : s.dev.newJob n.val 0x11 = some j) {g : Group}
    (hg : s.dev.groupOf (bitsOf (j.p 0) 19 0) = some g) :
    Runs (.gatherGroupClear n) s (((s.dev.startJob j.id).dropGroup g).finishJob j.id 0 0 0 0) := by
  have hg' : (s.dev.startJob j.id).groupOf (bitsOf (j.p 0) 19 0) = some g := hg
  exact Runs.of_run hl rfl (by simp only [hj, hg', Dev.dropGroup])

section GatherOp

variable (hj : s.dev.newJob n.val 0x12 = some j)

include hj

theorem runs_gatherOp_outOfRange (hrange : (parseOp j).inRange = false) :
    Runs (.gatherOp n) s ((s.dev.startJob j.id).finishJob j.id 5 0 0 0) :=
  Runs.of_run hl rfl (by simp only [hj, hrange, Bool.not_false, if_true])

theorem runs_gatherOp_absent (hrange : (parseOp j).inRange = true) (hg : s.dev.groupOf (bitsOf (j.p 0) 19 0) = none) :
    Runs (.gatherOp n) s ((s.dev.startJob j.id).finishJob j.id 6 0 0 0) := by
  have hg' : (s.dev.startJob j.id).groupOf (bitsOf (j.p 0) 19 0) = none := hg
  exact Runs.of_run hl rfl (by simp only [hj, hrange, hg', Bool.not_true, Bool.false_eq_true, if_false])

theorem runs_gatherOp (hrange : (parseOp j).inRange = true) {g : Group} (hg : s.dev.groupOf (bitsOf (j.p 0) 19 0) = some g) :
    Runs (.gatherOp n) s
      (if !g.allows (parseOp j) (j.p 1) then (s.dev.startJob j.id).finishJob j.id 6 0 0 0
       else (s.dev.startJob j.id).setGroup (g.join (parseOp j) s.dev.rst.mono)) := by
  have hg' : (s.dev.startJob j.id).groupOf (bitsOf (j.p 0) 19 0) = some g := hg
  refine Runs.of_run hl rfl ?_
  simp only [hj, hrange, hg', Bool.not_true, Bool.false_eq_true, if_false]
  rfl

end GatherOp

end Jobs

/-- Settles O36: each command by the branch that its conditions choose; reading the records and taking the slot change the job alone,
so that its completion is the only one to come, and the engines' state in the group's slot alone. -/
theorem gatherJobs : Obligations.GatherJobs := by
  unfold Obligations.GatherJobs
  intro s n j hl
  refine ⟨?set, fun r hr hj hdma => runs_gatherGroupSet_unread hl hj hdma hr, ?clear, ?op⟩
  case set =>
    intro b hj hdma g d
    refine ⟨runs_gatherGroupSet_outOfRange hl hj hdma, fun hrange hallowed => ?_, fun hrange hallowed => ?_⟩
    · have hrun := runs_gatherGroupSet hl hj hdma hrange
      have hrefused : (s.dev.groupRead j).groupAllowed (parseGroup j b) = false := hallowed
      rwa [hrefused, Bool.not_false, if_pos rfl] at hrun
    · have hrun := runs_gatherGroupSet hl hj hdma hrange
      have htaken : (s.dev.groupRead j).groupAllowed (parseGroup j b) = true := hallowed
      rw [htaken, Bool.not_true, if_neg Bool.false_ne_true] at hrun
      have hgoes := (s.dev.groupRead_goesOn j).trans (Dev.claimSlot_goesOn _ j.id g)
      have hjobs := hgoes.finishJob_jobs 0 0 0 0
      have hdone := fun i hfind => hgoes.finishJob_finished (j := i) hfind 0 0 0
      have hgroup : ∀ k, (((s.dev.groupRead j).claimSlot g).finishJob j.id 0 0 0 0).group k =
          if g.slot = k then some g else s.dev.group k := fun k => by
        rw [Dev.group_of_gth (Dev.finishJob_gth _ _ _ _ _ _), Dev.group_claimSlot, Dev.group_of_gth (s.dev.groupRead_gth j)]
      generalize ((s.dev.groupRead j).claimSlot g).finishJob j.id 0 0 0 0 = e at hrun hjobs hdone hgroup
      refine ⟨_, hrun, (hgroup _).trans (if_pos rfl), fun k hk => (hgroup k).trans (if_neg (Ne.symm hk)), hjobs, fun hfind => ?_⟩
      obtain ⟨hring, hop⟩ := Dev.newJob_says hj
      have hx := hdone j hfind
      rwa [hring, hop] at hx
  case clear =>
    intro hj
    refine ⟨runs_gatherGroupClear_absent hl hj, fun g hg => ⟨_, runs_gatherGroupClear hl hj hg, ?_, ?_⟩⟩
    · exact (Dev.group_of_gth (Dev.finishJob_gth _ _ _ _ _ _) _).trans (Dev.dropGroup_group _ g)
    · rw [Dev.latched_gth, Dev.finishJob_gth]
      exact Dev.dropGroup_ctxs _ g
  case op =>
    intro hj o d
    refine ⟨runs_gatherOp_outOfRange hl hj, runs_gatherOp_absent hl hj, fun g hrange hg hallows => ?_, fun g hrange hg hallows => ?_⟩
    · simpa only [o, hallows, Bool.not_false, if_true] using runs_gatherOp hl hj hrange hg
    · have hrun := runs_gatherOp hl hj hrange hg
      rw [hallows] at hrun
      exact ⟨_, g.join o s.dev.rst.mono, hrun, Dev.group_setGroup_self _ (g.join o s.dev.rst.mono), rfl, rfl⟩

/-! ## GATHER_CONTRIB, GATHER_ACK (R233, R246) -/

/-- The engine has served pipeline `n`, and read the cells of frame `f`, of copy `c`. -/
def Dev.gatherRead (d : Dev) (k n : Nat) (f : Pkt) : Dev :=
  ({ d with gth := { d.gth with next := Sparse.set 0 d.gth.next k ((n + 1) % 32) } } : Dev).charge none 3 f.chain.length

/-- The frame is handled, its record is written, and its copy is gone. -/
def Dev.gatherHandle (d : Dev) (k : Nat) (c : Copy) (f : Pkt) : Dev :=
  let a := d.receive k (gatherIn f)
  (a.1.finalRecord c 0x53 [BitVec.ofNat 8 k, BitVec.ofNat 8 a.2]).removeCopy c.uid

/-- An engine that is on takes its head frame, when its kind is that of the command. -/
theorem Dev.gatherTake_eq {d : Dev} {k n : Nat} {c : Copy} {f : Pkt} {ack : Bool} (hsafe : d.safe = false)
    (hon : d.engineOn k = true) (hhead : d.gatherHead k = some (n, c)) (hf : d.pkt c.pkt = some f)
    (hkind : ((gatherIn f).h.kind == 3) = ack) : d.gatherTake k ack = (d.gatherRead k n f).gatherHandle k c f := by
  simp only [Dev.gatherTake, hsafe, hon, hhead, hf, hkind, Bool.not_true, Bool.or_self, bne_self_eq_false, Bool.false_eq_true, if_false,
    Dev.gatherHandle, Dev.gatherRead]

/-! ## STEP_DISPATCH and the timers (R247, R252, R253) -/

section Timers

variable {s : State} (hl : Live s) (hsafe : s.dev.safe = false)

include hl hsafe

theorem runs_stepDispatch {g : Group} {o : GOp} (h : s.dev.pickStep s.dev.waitingGroups [] = some (g, o)) :
    Runs .stepDispatch s (s.dev.dispatchStep g o) :=
  Runs.of_run hl rfl (by simp only [hsafe, h, Bool.false_eq_true, if_false])

theorem runs_holdExpiry {slot : Fin 4096} {st : BitVec 32} {g : Group} (hg : s.dev.group slot.val = some g)
    (hacked : g.ackedBy st.toNat = false) :
    Runs (.holdExpiry slot st) s ((s.dev.setGroup { g with steps := g.steps.map (fun x =>
      if x.step = st.toNat && x.resulted then { x with expired := true } else x) }).retire slot.val) :=
  Runs.of_run hl rfl (by simp only [hg, hsafe, hacked, Bool.or_self, Bool.false_eq_true, if_false])

section Context

variable {slot : Fin 4096} {st : BitVec 32} {q : BitVec 16} {g : Group} {o : GOp} {c : GCtx}
  (hown : s.dev.ctxOwner slot.val st.toNat q.toNat = some (g, o, c)) (hopen : c.at_ = .open_) (hbits : c.bits ≠ 0)

include hown hopen hbits

theorem runs_nakTimer : Runs (.nakTimer slot st q) s ((indicesWhere g.m (fun m => !bitAt c.bits m)).foldl
    (fun d m => d.sendNak c.engine g m c.step c.seq 0x0101 0) s.dev) :=
  Runs.of_run hl rfl (by simp [hown, hsafe, hopen, hbits])

/-- The straggler timeout is counted; then the group's action (STRAG_ACT) decides. -/
theorem runs_stragglerExpiry : Runs (.stragglerExpiry slot st q) s
    (if g.partial_ then (s.dev.inc F.GTH_STRAG_COUNT [c.engine]).completeCtx g o c true
     else (s.dev.inc F.GTH_STRAG_COUNT [c.engine]).abortOp g o) :=
  Runs.of_run hl rfl (by simp [hown, hsafe, hopen, hbits])

end Context

end Timers

/-- Settles O37: a frame by the kind that the command takes, each timer by the state of its context or step. -/
theorem gatherFramesAndTimers : Obligations.GatherFramesAndTimers := by
  unfold Obligations.GatherFramesAndTimers
  refine ⟨?frames, fun s hl hsafe => ⟨fun g o => runs_stepDispatch hl hsafe, ?timers, fun slot st g => runs_holdExpiry hl hsafe⟩⟩
  case frames =>
    intro s k n c f hl hsafe hon hhead hf d a e
    exact ⟨fun hkind => Runs.of_run hl rfl (Dev.gatherTake_eq hsafe hon hhead hf (beq_eq_false_iff_ne.2 hkind)),
      fun hkind => Runs.of_run hl rfl (Dev.gatherTake_eq hsafe hon hhead hf (beq_iff_eq.2 hkind))⟩
  case timers =>
    intro slot st q g o c hown hopen hbits
    have hexpiry := runs_stragglerExpiry hl hsafe hown hopen hbits
    exact ⟨runs_nakTimer hl hsafe hown hopen hbits, fun hp => by rwa [hp, if_pos rfl] at hexpiry,
      fun hp => by rwa [hp, if_neg Bool.false_ne_true] at hexpiry⟩

end Sys2Proof.Machine

/-!
PROOFS of the statements of spec/09_annealer_power_thermal.md: the shares of the classes and their order (R272, R273), then the
Annealer's tick and its publications (R262, R276), hints, droop and heat (R279 to R286), measurement (R265 to R270) and supply sags
(R288, R289).
-/

namespace Sys2Proof.Machine

/-! ## The shares of the classes (R272, R273) -/

/-- What is left to share with the grants so far: together they are what was available, and no class has more than it demands. -/
def Shares (avail : Nat) (dem : Nat → Nat) (s : Nat × Sparse Nat) : Prop :=
  s.1 + (Sparse.get 0 s.2 0 + Sparse.get 0 s.2 1 + Sparse.get 0 s.2 2) = avail ∧ ∀ c, Sparse.get 0 s.2 c ≤ dem c

/-- A class's turn in the first pass: its demand, up to its floor. -/
def floorTurn (dem floor : Nat → Nat) (s : Nat × Sparse Nat) (c : Nat) : Nat × Sparse Nat :=
  (s.1 - min (dem c) (min (floor c) s.1), Sparse.set 0 s.2 c (min (dem c) (min (floor c) s.1)))

/-- A class's turn in the second pass: what it lacks of its demand. -/
def demandTurn (dem : Nat → Nat) (s : Nat × Sparse Nat) (c : Nat) : Nat × Sparse Nat :=
  (s.1 - min (dem c - Sparse.get 0 s.2 c) s.1, Sparse.set 0 s.2 c (Sparse.get 0 s.2 c + min (dem c - Sparse.get 0 s.2 c) s.1))

theorem Dev.grants_eq (d : Dev) (dem : Nat → Nat) (avail w : Nat) : d.grants dem avail w =
    ((prioOrder d.prio).foldl (demandTurn dem)
      ((prioOrder d.prio).foldl (floorTurn dem (fun c => d.cm F.ANL_CLS_FLOOR [c] * w)) (avail, []))).2 := rfl

theorem prioOrder_perm (p : Nat) : (prioOrder p).Perm [0, 1, 2] := by
  unfold prioOrder
  split <;> decide

theorem lt_of_mem_prioOrder {p c : Nat} (h : c ∈ prioOrder p) : c < 3 := by
  have := (prioOrder_perm p).mem_iff.1 h
  simp at this
  omega

section Shares

variable {avail : Nat} {dem : Nat → Nat} {s : Nat × Sparse Nat} {c : Nat} {l : List Nat}

/-- What a class is granted more is taken from what is left. -/
theorem Shares.grant (h : Shares avail dem s) {x : Nat} (hc : c < 3) (hx : x ≤ s.1) (hd : Sparse.get 0 s.2 c + x ≤ dem c) :
    Shares avail dem (s.1 - x, Sparse.set 0 s.2 c (Sparse.get 0 s.2 c + x)) := by
  obtain ⟨htotal, hbound⟩ := h
  have hget : ∀ j, Sparse.get 0 (Sparse.set 0 s.2 c (Sparse.get 0 s.2 c + x)) j =
      if j = c then Sparse.get 0 s.2 c + x else Sparse.get 0 s.2 j := fun j => by
    split
    next hj => rw [hj, Sparse.get_set_self]
    next hj => exact Sparse.get_set_other _ _ _ _ _ _ hj
  refine ⟨?_, fun j => ?_⟩
  · dsimp only
    rw [hget, hget, hget]
    obtain rfl | rfl | rfl : c = 0 ∨ c = 1 ∨ c = 2 := by omega
    all_goals simp; omega
  · dsimp only
    rw [hget]
    split
    next hj => exact hj ▸ hd
    · exact hbound j

theorem Shares.foldl_floorTurn (floor : Nat → Nat) (hl : ∀ c ∈ l, c < 3) (hn : l.Nodup) (h : Shares avail dem s)
    (h0 : ∀ c ∈ l, Sparse.get 0 s.2 c = 0) : Shares avail dem (l.foldl (floorTurn dem floor) s) := by
  induction l generalizing s with
  | nil => exact h
  | cons a t ih =>
    obtain ⟨ha, ht⟩ := List.nodup_cons.1 hn
    have hstep : Shares avail dem (floorTurn dem floor s a) := by
      have := h.grant (x := min (dem a) (min (floor a) s.1)) (hl a (by simp)) (by omega) (by rw [h0 a (by simp)]; omega)
      rwa [h0 a (by simp), Nat.zero_add] at this
    refine ih (fun c hc => hl c (by simp [hc])) ht hstep fun c hc => ?_
    have hne : c ≠ a := fun he => ha (he ▸ hc)
    rw [floorTurn, Sparse.get_set_other _ _ _ _ _ _ hne, h0 c (by simp [hc])]

theorem Shares.after_demandTurn (hc : c < 3) (h : Shares avail dem s) : Shares avail dem (demandTurn dem s c) := by
  have := h.2 c
  exact h.grant hc (by omega) (by omega)

theorem Shares.foldl_demandTurn (hl : ∀ c ∈ l, c < 3) (h : Shares avail dem s) : Shares avail dem (l.foldl (demandTurn dem) s) :=
  List.foldlRecOn l _ h fun _ hs c hc => hs.after_demandTurn (hl c hc)

/-- No turn takes a grant back. -/
theorem le_foldl_demandTurn (dem : Nat → Nat) (l : List Nat) (s : Nat × Sparse Nat) (c : Nat) :
    Sparse.get 0 s.2 c ≤ Sparse.get 0 (l.foldl (demandTurn dem) s).2 c := by
  refine List.foldlRecOn (motive := fun e : Nat × Sparse Nat => Sparse.get 0 s.2 c ≤ Sparse.get 0 e.2 c) l _ le_rfl
    fun e he a _ => he.trans ?_
  rw [demandTurn]
  by_cases hca : c = a
  · rw [hca, Sparse.get_set_self]
    omega
  · rw [Sparse.get_set_other _ _ _ _ _ _ hca]

/-- Where the demands fit together, what is left covers what the class whose turn it is lacks. -/
theorem Shares.demandTurn_fits (hc : c < 3) (h : Shares avail dem s) (hfit : dem 0 + dem 1 + dem 2 ≤ avail) :
    Sparse.get 0 (demandTurn dem s c).2 c = dem c := by
  obtain ⟨htotal, hbound⟩ := h
  have h0 := hbound 0
  have h1 := hbound 1
  have h2 := hbound 2
  rw [demandTurn, Sparse.get_set_self]
  obtain rfl | rfl | rfl : c = 0 ∨ c = 1 ∨ c = 2 := by omega
  all_goals omega

theorem Shares.foldl_demandTurn_fits (hl : ∀ c ∈ l, c < 3) (h : Shares avail dem s) (hfit : dem 0 + dem 1 + dem 2 ≤ avail)
    (hc : c ∈ l) : Sparse.get 0 (l.foldl (demandTurn dem) s).2 c = dem c := by
  induction l generalizing s with
  | nil => cases hc
  | cons a t ih =>
    have ha := hl a (by simp)
    have ht : ∀ c ∈ t, c < 3 := fun c hc => hl c (by simp [hc])
    have hstep := h.after_demandTurn ha
    rcases List.mem_cons.1 hc with rfl | hct
    · have hserved := h.demandTurn_fits ha hfit
      have hkeeps := le_foldl_demandTurn dem t (demandTurn dem s c) c
      have hbound := (hstep.foldl_demandTurn ht).2 c
      rw [hserved] at hkeeps
      exact le_antisymm hbound hkeeps
    · exact ih ht hstep hct

end Shares

/-- Settles O41: every turn of the two passes moves what is left to a class that still lacks it. -/
theorem powerShares : Obligations.PowerShares := by
  unfold Obligations.PowerShares
  intro d dem avail w g
  have hl : ∀ c ∈ prioOrder d.prio, c < 3 := fun _ => lt_of_mem_prioOrder
  have hn : (prioOrder d.prio).Nodup := (prioOrder_perm _).nodup_iff.2 (by decide)
  have hstart : Shares avail dem (avail, []) := ⟨rfl, fun _ => Nat.zero_le _⟩
  have hfloors := hstart.foldl_floorTurn (fun c => d.cm F.ANL_CLS_FLOOR [c] * w) hl hn fun _ _ => rfl
  have hfits : dem 0 + dem 1 + dem 2 ≤ avail → ∀ c ∈ [0, 1, 2], g c = dem c := fun hfit c hc =>
    hfloors.foldl_demandTurn_fits hl hfit ((prioOrder_perm _).mem_iff.2 hc)
  obtain ⟨htotal, hbound⟩ := hfloors.foldl_demandTurn hl
  rw [← Dev.grants_eq] at htotal
  refine ⟨by dsimp only [g]; omega, fun c _ => hbound c, fun hfit => ⟨hfits hfit 0 ?_, hfits hfit 1 ?_, hfits hfit 2 ?_⟩⟩ <;> decide

/-- Settles O42: PRIO_EN has one bit, and the orders are the branches of `prioOrder`. -/
theorem priorityOrders : Obligations.PriorityOrders := by
  unfold Obligations.PriorityOrders
  refine ⟨?_, rfl, rfl, rfl, rfl, rfl, rfl, rfl, rfl⟩
  intro d n
  have hbit : d.cm F.ANL_OPP_PRIO_EN [n] < 2 := bitsOf_lt _ _ _
  have hen : d.onC F.ANL_OPP_PRIO_EN [n] = true ↔ d.cm F.ANL_OPP_PRIO_EN [n] = 1 := by
    rw [Dev.onC, bne_iff_ne]
    omega
  simp only [Dev.prio, hen, n]

/-! ## The level and its consumers (R42 to R45, R262, R276) -/

section TakeLevel

variable (d : Dev) (l : Nat)

/-- The dispatcher settles its buckets in its own state. -/
theorem Dev.settleTokens_gth_only : ∃ x : Gth, d.settleTokens = { d with gth := x } := by
  have hbuckets : ∀ t : Nat → Int, ∃ x : Gth,
      (List.range 8).foldl (fun e k => e.setTokens k (t k)) d = { d with gth := x } := fun t =>
    List.foldlRecOn (motive := fun e : Dev => ∃ x : Gth, e = { d with gth := x }) _ _ ⟨d.gth, rfl⟩ fun e he k _ => by
      obtain ⟨x, rfl⟩ := he
      exact ⟨_, rfl⟩
  obtain ⟨x, hx⟩ := hbuckets fun k => if d.tokenRate = 0 then d.tokenBurst else d.tokensNow k
  simp only [Dev.settleTokens, hx]
  exact ⟨_, rfl⟩

theorem Dev.gatherLevel_gth_only : ∃ x : Gth, x.level = l ∧ d.gatherLevel l = { d with gth := x } := by
  unfold Dev.gatherLevel
  split
  next h => exact ⟨d.gth, h.symm, rfl⟩
  · obtain ⟨x, hx⟩ := d.settleTokens_gth_only
    rw [hx]
    exact ⟨_, rfl, rfl⟩

/-- A level taken changes the Lehr's register, the dispatcher and the Sump's level alone. -/
theorem Dev.takeLevel_eq : ∃ x : Gth, x.level = l ∧
    d.takeLevel l = { d.wr F.LEHR_STAT_LEVEL [] l with gth := x, sump := { d.sump with level := l } } := by
  obtain ⟨x, hx, hd⟩ := (d.wr F.LEHR_STAT_LEVEL [] l).gatherLevel_gth_only l
  exact ⟨x, hx, by rw [Dev.takeLevel, hd]; rfl⟩

theorem Dev.takeLevel_gth_level : (d.takeLevel l).gth.level = l := by
  obtain ⟨x, hx, hd⟩ := d.takeLevel_eq l
  rw [hd, hx]

@[simp] theorem Dev.takeLevel_sump : (d.takeLevel l).sump = { d.sump with level := l } := by
  obtain ⟨x, _, hd⟩ := d.takeLevel_eq l
  rw [hd]

@[simp] theorem Dev.takeLevel_anl : (d.takeLevel l).anl = d.anl := by
  obtain ⟨x, _, hd⟩ := d.takeLevel_eq l
  rw [hd, Dev.wr_anl]

theorem Dev.rd_takeLevel (f : Fld) (ix : List Nat) : (d.takeLevel l).rd f ix = (d.wr F.LEHR_STAT_LEVEL [] l).rd f ix := by
  obtain ⟨x, _, hd⟩ := d.takeLevel_eq l
  rw [hd]
  rfl

end TakeLevel

/-- The level `l` is shown with the next number, and counted (R42). -/
def Dev.showLevel (d : Dev) (l : Nat) : Dev :=
  ((d.wr F.ANL_STAT_LEVEL [] l).wr F.ANL_STAT_SEQ [] ((d.rd F.ANL_STAT_SEQ [] + 1) % 16)).inc F.ANL_LVL_CNT_COUNT [l]

/-- The allowance `a` is shown, and the Sump takes it (R44). -/
def Dev.takeAllowance (d : Dev) (a : Nat) : Dev :=
  { d.wr F.ANL_LIMITS_A [] a with sump := { d.sump with allowance := a } }

section Publish

variable (d : Dev) (l : Nat)

theorem Dev.showLevel_anl : (d.showLevel l).anl = d.anl := by
  rw [Dev.showLevel, Dev.inc_anl, Dev.wr_anl, Dev.wr_anl]

theorem Dev.showLevel_sump : (d.showLevel l).sump = d.sump := by
  rw [Dev.showLevel, Dev.inc_sump, Dev.wr_sump, Dev.wr_sump]

theorem Dev.rd_takeAllowance (a : Nat) (f : Fld) (ix : List Nat) : (d.takeAllowance a).rd f ix = (d.wr F.ANL_LIMITS_A [] a).rd f ix := rfl

/-- A publication shows the larger of the two levels, which every consumer takes, and the allowance. -/
theorem Dev.publish_eq : d.publish =
    ((d.showLevel (max d.anl.level d.forcedLevel)).takeLevel (max d.anl.level d.forcedLevel)).takeAllowance d.anl.aNext := by
  have h : d.publish = let e := (d.showLevel (max d.anl.level d.forcedLevel)).takeLevel (max d.anl.level d.forcedLevel)
    e.takeAllowance e.anl.aNext := rfl
  rw [h]
  dsimp only
  rw [Dev.takeLevel_anl, Dev.showLevel_anl]

theorem Dev.publish_sump :
    d.publish.sump = { d.sump with level := max d.anl.level d.forcedLevel, allowance := d.anl.aNext } := by
  rw [Dev.publish_eq, Dev.takeAllowance, Dev.takeLevel_sump, Dev.showLevel_sump]

theorem Dev.publish_gth_level : d.publish.gth.level = max d.anl.level d.forcedLevel := by
  rw [Dev.publish_eq]
  exact Dev.takeLevel_gth_level _ _

/-- A field that no publication writes. -/
theorem Dev.rd_publish_apart {f : Fld} (ix : List Nat) (hlevel : f.apart F.ANL_STAT_LEVEL = true) (hseq : f.apart F.ANL_STAT_SEQ = true)
    (hcnt : f.apart F.ANL_LVL_CNT_COUNT = true) (hlehr : f.apart F.LEHR_STAT_LEVEL = true) (ha : f.apart F.ANL_LIMITS_A = true) :
    d.publish.rd f ix = d.rd f ix := by
  rw [Dev.publish_eq, Dev.rd_takeAllowance, Dev.rd_wr_apart _ _ _ _ ha, Dev.rd_takeLevel, Dev.rd_wr_apart _ _ _ _ hlehr, Dev.showLevel,
    Dev.rd_inc_apart _ _ _ hcnt, Dev.rd_wr_apart _ _ _ _ hseq, Dev.rd_wr_apart _ _ _ _ hlevel]

end Publish

/-- Settles O40: a publication is the level shown, the level taken and the allowance taken; of these each consumer's level and each
field shown is the last that it was given. -/
theorem annealerPeriod : Obligations.AnnealerPeriod := by
  unfold Obligations.AnnealerPeriod
  refine ⟨fun s cores ack hl => Runs.of_run hl rfl rfl, fun s hl => Runs.of_run hl rfl rfl, ?taken, ?published, ?sump⟩
  case taken =>
    intro d l hl
    refine ⟨?_, d.takeLevel_gth_level l, by rw [Dev.takeLevel_sump]⟩
    rw [Dev.rd_takeLevel, Dev.rd_wr_fits _ _ _ _ (by decide) (by decide) hl]
  case published =>
    intro d hl
    have hseq : (d.rd F.ANL_STAT_SEQ [] + 1) % 16 < 2 ^ 4 := Nat.mod_lt _ (by decide)
    refine ⟨?level, ?seq, ?lehr, by rw [Dev.publish_sump], d.publish_gth_level⟩ <;> rw [Dev.publish_eq, Dev.rd_takeAllowance]
    case level =>
      simp (disch := decide) only [Dev.rd_takeLevel, Dev.showLevel, Dev.rd_wr_apart, Dev.rd_inc_apart]
      exact Dev.rd_wr_fits _ _ _ _ (by decide) (by decide) hl
    case seq =>
      simp (disch := decide) only [Dev.rd_takeLevel, Dev.showLevel, Dev.rd_wr_apart, Dev.rd_inc_apart]
      exact Dev.rd_wr_fits _ _ _ _ (by decide) (by decide) hseq
    case lehr =>
      rw [Dev.rd_wr_apart _ _ _ _ (by decide), Dev.rd_takeLevel]
      exact Dev.rd_wr_fits _ _ _ _ (by decide) (by decide) hl
  case sump =>
    intro d
    have hbw := d.rd_publish_apart (f := R.SMP_BW_STAT.whole) [] (by decide) (by decide) (by decide) (by decide) (by decide)
    rw [Dev.rd_whole, Dev.rd_whole] at hbw
    exact ⟨by rw [Dev.publish_sump], by rw [Dev.publish_sump], by rw [Dev.publish_sump], hbw, rfl, rfl⟩

/-! ## Fields that no fault changes (R391 to R406) -/

/-- A field that faults leave alone, with the events that they post and the jobs that the safe state ends. -/
def Fld.faultless (f : Fld) : Bool :=
  f.eventless && f.apart F.ANL_RING_ENERGY_COUNT && decide (f.reg.win ≠ R.SPL_LATCH.win ∧ f.reg.id < 4096)

section Faultless

variable {f : Fld} (h : f.faultless = true) (ix : List Nat) (d : Dev)

include h

theorem Fld.eventless_of_faultless : f.eventless = true := by
  simp only [Fld.faultless, Bool.and_eq_true] at h
  exact h.1.1

theorem Dev.rd_setRaw_spl {r : Reg} (jx : List Nat) (v : Nat) (hr : r.win = R.SPL_LATCH.win ∧ r.id < 4096) :
    (d.setRaw r jx v).rd f ix = d.rd f ix := by
  obtain ⟨_, hwin, hid⟩ := by simpa only [Fld.faultless, Bool.and_eq_true, decide_eq_true_eq] using h
  exact d.rd_setRaw_other jx ix v (.inl (hr.1 ▸ hwin)) hid hr.2

theorem Dev.rd_wr_spl {g : Fld} (jx : List Nat) (v : Nat) (hg : g.reg.win = R.SPL_LATCH.win ∧ g.reg.id < 4096) :
    (d.wr g jx v).rd f ix = d.rd f ix := Dev.rd_setRaw_spl h ix d jx _ hg

theorem Dev.rd_inc_spl {g : Fld} (jx : List Nat) (hg : g.reg.win = R.SPL_LATCH.win ∧ g.reg.id < 4096) :
    (d.inc g jx).rd f ix = d.rd f ix := by
  obtain ⟨v, hv⟩ := d.addTo_eq g jx 1
  rw [Dev.inc, hv, Dev.rd_wr_spl h ix d jx v hg]

theorem Dev.rd_finishJob (id st r0 r1 r2 : Nat) : (d.finishJob id st r0 r1 r2).rd f ix = d.rd f ix := by
  have henergy : f.apart F.ANL_RING_ENERGY_COUNT = true := by
    simp only [Fld.faultless, Bool.and_eq_true] at h
    exact h.1.2
  unfold Dev.finishJob
  split
  · rfl
  · rw [Dev.rd_hif, d.rd_addTo_apart ix _ _ henergy]

theorem Dev.rd_enterSafe (k : Nat) : (d.enterSafe k).rd f ix = d.rd f ix := by
  unfold Dev.enterSafe
  split
  · rfl
  · have hparts : ∀ (e : Dev) (x : Hif) (y : Tlm) (z : Tbl), ({ e with hif := x, tlm := y, tbl := z } : Dev).rd f ix = e.rd f ix :=
      fun _ _ _ _ => rfl
    have hemit : ∀ (l : List Nat) (e : Dev), (l.foldl (fun e c => e.emit (.coreIrq c)) e).rd f ix = e.rd f ix :=
      foldl_proj (fun e : Dev => e.rd f ix) _ fun _ _ => rfl
    have habort : ∀ (l : List Nat) (e : Dev), (l.foldl (fun e id => e.abortJob id) e).rd f ix = e.rd f ix :=
      foldl_proj (fun e : Dev => e.rd f ix) _ fun e id => Dev.rd_finishJob h ix e _ _ _ _ _
    rw [hemit, hparts, habort]
    rfl

theorem Dev.rd_fatal (k : Nat) (x : FaultIn) : (d.fatal k x).rd f ix = d.rd f ix := by
  simp (disch := decide) only [Dev.fatal, Dev.rd_enterSafe h, apply_ite (fun e : Dev => e.rd f ix), Dev.rd_wr_spl h, ite_self]

theorem Dev.rd_recordOrLose (e : Dev × Nat) (r : FaultRec) (b c : Bool) : (Dev.recordOrLose e r b c).1.rd f ix = e.1.rd f ix := by
  have hspl : ∀ (e : Dev) (x : Spl), ({ e with spl := x } : Dev).rd f ix = e.rd f ix := fun _ _ => rfl
  have hstore : (e.1.storeRecord r).rd f ix = e.1.rd f ix := by
    simp (disch := decide) only [Dev.storeRecord, Dev.rd_wr_spl h, hspl]
  simp (disch := decide) only [Dev.recordOrLose, apply_ite Prod.fst, apply_ite (fun e : Dev => e.rd f ix), hstore, Dev.rd_inc_spl h,
    ite_self]

theorem Dev.rd_clockFaults (k : Nat) (fs : List FaultIn) (c : Bool) : (d.clockFaults k fs c).1.rd f ix = d.rd f ix := by
  have count : ∀ (l : List FaultIn) (e : Dev), (l.foldl (fun e x => e.countFault k x) e).rd f ix = e.rd f ix :=
    foldl_proj (fun e : Dev => e.rd f ix) _ fun b x => by
      simp (disch := decide) only [Dev.countFault, apply_ite (fun e : Dev => e.rd f ix), Dev.rd_inc_spl h, ite_self]
  have latch : ∀ (e : Dev) (x : FaultIn), (e.fillLatch k x).rd f ix = e.rd f ix := fun e x => by
    simp (disch := decide) only [Dev.fillLatch, Dev.rd_wr_spl h, Dev.rd_setRaw_spl h]
  have fatals : ∀ (l : List FaultIn) (first : Option FaultIn) (e : Dev × Nat),
      (l.foldl (fun e x =>
        let e := if first = some x || e.1.faultMasked k x.src then e
          else Dev.recordOrLose e (e.1.faultRecord k x true (e.1.on F.SPL_LATCH_INJ_SEEN [k])) true c
        (e.1.fatal k x, e.2)) e).1.rd f ix = e.1.rd f ix := fun l first =>
    foldl_proj (fun e : Dev × Nat => e.1.rd f ix) _ (fun b x => by
      simp only [Dev.rd_fatal h, apply_ite Prod.fst, apply_ite (fun e : Dev => e.rd f ix), Dev.rd_recordOrLose h, ite_self]) l
  have event : ∀ (e : Dev) (x : FaultIn), (e.faultEvent k x).rd f ix = e.rd f ix := fun e x => by
    simp only [Dev.faultEvent, apply_ite (fun e : Dev => e.rd f ix), Dev.rd_postEvent (Fld.eventless_of_faultless h), ite_self]
  unfold Dev.clockFaults
  dsimp only
  split
  · rw [event, fatals, Dev.rd_recordOrLose h]
    simp (disch := decide) only [apply_ite (fun e : Dev => e.rd f ix), Dev.rd_wr_spl h, latch, ite_self, count]
  · rw [fatals]
    simp (disch := decide) only [apply_ite (fun e : Dev => e.rd f ix), Dev.rd_wr_spl h, ite_self, count]

theorem Dev.rd_raise (k src syn : Nat) : (d.raise k src syn).rd f ix = d.rd f ix := by
  have loss : ∀ (n : Nat) (e : Dev), (e.lossFaults n).rd f ix = e.rd f ix := fun n => by
    induction n with
    | zero => exact fun _ => rfl
    | succ n ih => exact fun e => (ih _).trans (Dev.rd_clockFaults h ix e _ _ _)
  exact (loss _ _).trans (Dev.rd_clockFaults h ix d _ _ _)

end Faultless

/-! ## Power events (R292) -/

@[simp] theorem Dev.kept_powerEvent (d : Dev) (n : Nat) : (d.powerEvent n).kept = d.kept := d.kept_postEvent _ _

@[simp] theorem Dev.resting_powerEvent (d : Dev) (n : Nat) : (d.powerEvent n).resting = d.resting := d.resting_postEvent _ _

theorem Dev.rd_powerEvent {f : Fld} (h : f.eventless = true) (ix : List Nat) (d : Dev) (n : Nat) :
    (d.powerEvent n).rd f ix = d.rd f ix := Dev.rd_postEvent h ix d _ _

theorem Dev.anl_of_kept {d e : Dev} (h : e.kept = d.kept) : e.anl = d.anl := congrArg (fun x => x.2.2.2.2.2.2) h

theorem Dev.svc_of_kept {d e : Dev} (h : e.kept = d.kept) : e.svc = d.svc := congrArg (fun x => x.2.1.2.2.1) h

/-! ## Hints (R279) -/

section Hints

variable {s : State} (hl : Live s) (j : Nat)

include hl

theorem hintExpiry_next : ∃ t, exec (.hintExpiry j) s = .next t ∧ t.dev.hif.hints =
      (s.dev.hif.hints.map (fun h => if h.uid = j ∧ h.us ≠ 0 then { h with expired := true } else h)).filter
        (fun h => !h.expired || h.holding) ∧
    t.dev.hif.jobs = s.dev.hif.jobs ∧ t.dev.regs = s.dev.regs :=
  ⟨_, Runs.of_run hl rfl rfl, rfl, rfl, Dev.latched_regs _ _ hl.2⟩

theorem hintDispatchRelease_next : ∃ t, exec (.hintDispatchRelease j) s = .next t ∧
    (∀ h ∈ t.dev.hif.hints, h.uid = j → h.holding = false) ∧
    (∀ h ∈ s.dev.hif.hints, h.uid ≠ j → (h.expired = false ∨ h.holding = true) → h ∈ t.dev.hif.hints) ∧
    t.dev.hif.jobs = s.dev.hif.jobs ∧ t.dev.regs = s.dev.regs := by
  refine ⟨_, Runs.of_run hl rfl rfl, fun h hh hu => ?_, fun h hh hu hopen => ?_, rfl, Dev.latched_regs _ _ hl.2⟩
  · obtain ⟨x, _, rfl⟩ := List.mem_map.1 (List.mem_of_mem_filter hh)
    split at hu
    next hx => rw [if_pos hx]
    next hx => exact absurd hu hx
  · refine List.mem_filter.2 ⟨List.mem_map.2 ⟨h, hh, if_neg hu⟩, ?_⟩
    rcases hopen with he | he <;> simp [he]

end Hints

/-! ## Droop (R282, R283) -/

section Droop

variable {s : State} (hl : Live s)

include hl

theorem droopFire_next (die : Fin 4) : ∃ t, exec (.droopFire die) s = .next t ∧ die.val ∈ t.dev.anl.stretched ∧
    Sparse.get 0 t.dev.anl.fires die.val = Sparse.get 0 s.dev.anl.fires die.val + 1 := by
  have hanl : ((s.dev.inc F.ANL_DROOP_CNT_COUNT [4 + die.val]).pmc 129 0x79 1).anl = s.dev.anl :=
    Dev.anl_of_kept ((Dev.kept_pmc _ _ _ _).trans (Dev.kept_inc _ _ _))
  refine ⟨_, Runs.of_run hl rfl rfl, List.mem_cons_self, ?_⟩
  rw [Dev.latched_anl]
  dsimp only
  rw [Sparse.get_set_self, hanl]

theorem stretchEnd_next (die : Fin 4) : ∃ t, exec (.stretchEnd die) s = .next t ∧ die.val ∉ t.dev.anl.stretched ∧
    t.dev.regs = s.dev.regs :=
  ⟨_, Runs.of_run hl rfl rfl, by simp, Dev.latched_regs _ _ hl.2⟩

end Droop

/-- The most firings of a die in the window. -/
def Dev.droopMost (d : Dev) : Nat := (List.range 4).foldl (fun a i => max a (Sparse.get 0 d.anl.fires i)) 0

/-- The firings in a window that raise the guard. -/
def Dev.droopLimit (d : Dev) : Nat := max 1 (d.rd F.ANL_DROOP_LIMIT [])

/-- The guard one step up, to GUARD_MAX at most, and never down. -/
def Dev.guardUp (d : Dev) : Nat :=
  max (d.rd F.ANL_AVS_STAT_GUARD_MV [])
    (min (d.rd F.ANL_DROOP_GUARD_MAX []) (d.rd F.ANL_AVS_STAT_GUARD_MV [] + d.rd F.ANL_DROOP_GUARD_STEP []))

/-- The window's counts are taken. -/
def Dev.droopCounted (d : Dev) : Dev :=
  { d with anl := { d.anl with fires := [], droopFloor := decide (4 * d.droopLimit ≤ d.droopMost) } }

/-- The guard is raised to `v`, with its fault and its event. -/
def Dev.raiseGuard (d : Dev) (v : Nat) : Dev := ((d.wr F.ANL_AVS_STAT_GUARD_MV [] v).raise 53 0x44 0).powerEvent 7

/-- The end of a droop window. -/
def Dev.droopEnd (d : Dev) : Dev :=
  if d.droopLimit ≤ d.droopMost && d.guardUp ≠ d.rd F.ANL_AVS_STAT_GUARD_MV [] then d.droopCounted.raiseGuard d.guardUp
  else d.droopCounted

theorem exec_droopWindow (s : State) : exec .droopWindow s = s.run Dev.droopEnd := rfl

section DroopEnd

variable (d : Dev)

theorem Dev.raiseGuard_anl (v : Nat) : (d.raiseGuard v).anl = d.anl :=
  Dev.anl_of_kept ((Dev.kept_powerEvent _ _).trans ((Dev.kept_raise _ _ _ _).trans (Dev.kept_wr _ _ _ _)))

theorem Dev.rd_raiseGuard {v : Nat} (hv : v < 2 ^ 6) : (d.raiseGuard v).rd F.ANL_AVS_STAT_GUARD_MV [] = v := by
  rw [Dev.raiseGuard, Dev.rd_powerEvent (by decide), Dev.rd_raise (by decide)]
  exact Dev.rd_wr_fits _ _ _ _ (by decide) (by decide) hv

theorem Dev.guardUp_lt : d.guardUp < 2 ^ 6 := by
  have hg : d.rd F.ANL_AVS_STAT_GUARD_MV [] < 2 ^ 6 := d.rd_lt _ _
  have hmax : d.rd F.ANL_DROOP_GUARD_MAX [] < 2 ^ 6 := d.rd_lt _ _
  rw [Dev.guardUp]
  omega

theorem Dev.droopEnd_anl : d.droopEnd.anl = d.droopCounted.anl := by
  rw [Dev.droopEnd]
  split
  · exact Dev.raiseGuard_anl _ _
  · rfl

theorem Dev.droopEnd_few (h : d.droopMost < d.droopLimit) : d.droopEnd = d.droopCounted :=
  if_neg (by simp; omega)

theorem Dev.guard_droopEnd (h : d.droopLimit ≤ d.droopMost) : d.droopEnd.rd F.ANL_AVS_STAT_GUARD_MV [] = d.guardUp := by
  rw [Dev.droopEnd]
  split
  · exact Dev.rd_raiseGuard _ d.guardUp_lt
  next hcond =>
    have hsame : d.guardUp = d.rd F.ANL_AVS_STAT_GUARD_MV [] := by simpa [h] using hcond
    exact hsame.symm

end DroopEnd

theorem guardFall_next {s : State} (hl : Live s) (h : s.dev.anl.fires = []) : ∃ t, exec .guardFall s = .next t ∧
    t.dev.rd F.ANL_AVS_STAT_GUARD_MV [] = s.dev.rd F.ANL_AVS_STAT_GUARD_MV [] - s.dev.rd F.ANL_DROOP_GUARD_STEP [] := by
  have hlt : s.dev.rd F.ANL_AVS_STAT_GUARD_MV [] < 2 ^ 6 := s.dev.rd_lt _ _
  refine ⟨_, Runs.of_run hl rfl rfl, ?_⟩
  rw [Dev.rd_latched _ _ _ hl.2]
  dsimp only
  split
  · rw [Dev.rd_powerEvent (by decide)]
    exact Dev.rd_wr_fits _ _ _ _ (by decide) (by decide) (Nat.lt_of_le_of_lt (Nat.sub_le _ _) hlt)
  next hcond =>
    have hsame : s.dev.rd F.ANL_AVS_STAT_GUARD_MV [] - s.dev.rd F.ANL_DROOP_GUARD_STEP [] = s.dev.rd F.ANL_AVS_STAT_GUARD_MV [] := by
      simpa [h] using hcond
    exact hsame.symm

/-! ## Heat (R284, R285) -/

/-- The values of a list, read one by one at their places. -/
theorem map_getD_range {α β : Type} (l : List α) (x : α) (f : α → β) :
    (List.range l.length).map (fun i => f (l.getD i x)) = l.map f :=
  List.ext_getElem (by simp) fun i h _ => by
    have hi : i < l.length := by simpa using h
    simp [hi]

/-- Settles O44: each command by its effect; the guard is the register of the voltage loop, which no event and no fault writes. -/
theorem hintsDroopAndHeat : Obligations.HintsDroopAndHeat := by
  unfold Obligations.HintsDroopAndHeat
  intro s hl
  refine ⟨hintExpiry_next hl, hintDispatchRelease_next hl, fun die => ⟨droopFire_next hl die, stretchEnd_next hl die⟩, ?window,
    guardFall_next hl, ?sensors, fun h => Runs.of_run hl rfl (if_pos h), fun a b => Runs.of_run hl rfl rfl⟩
  case window =>
    intro most g
    refine ⟨_, Runs.of_run hl (exec_droopWindow s) rfl, ?_, ?_, fun hfew => ?_, fun hmany hfits => ?_, fun hmany hover => ?_⟩
    · rw [Dev.latched_anl, Dev.droopEnd_anl]
      rfl
    · rw [Dev.latched_anl, Dev.droopEnd_anl]
      rfl
    · rw [Dev.latched_regs _ _ hl.2, Dev.droopEnd_few _ hfew]
      rfl
    · rw [Dev.rd_latched _ _ _ hl.2, Dev.guard_droopEnd _ hmany, Dev.guardUp]
      omega
    · rw [Dev.rd_latched _ _ _ hl.2, Dev.guard_droopEnd _ hmany, Dev.guardUp]
      omega
  case sensors =>
    intro l hlen r d e
    have hr : (List.range 64).map (fun i => (l.getD i 0x800).toNat) = r := hlen ▸ map_getD_range l 0x800 _
    refine Runs.of_run hl rfl ?_
    dsimp only
    rw [hr]

/-! ## Measurement (R265 to R270) -/

theorem Runs.of_runAny {c : Instr} {s : State} {f : Dev → Dev} {d : Dev} (hc : exec c s = s.runAny f) (hd : f s.dev = d) :
    Runs c s d := by
  rw [Runs, hc, State.runAny, hd]

/-! ### Windows (R265 to R268) -/

/-- The device as a window finds it: the model's sum is taken and begins afresh. -/
def Dev.windowTaken (d : Dev) : Dev := { d with anl := { d.anl with winSum := 0, winN := 0 } }

/-- The rails, each with its reading. -/
def Dev.windowRails (d : Dev) (reads : List PmbRead) : List (Nat × PmbRead) :=
  (List.range d.railCount).map (fun r => (r, reads.getD r .failed))

/-- The rails have been asked on the bus. -/
def Dev.windowAsked (d : Dev) (reads : List PmbRead) : Dev :=
  (d.windowRails reads).foldl (fun d x => d.railBus x.1 d.anl.readStatus) d

/-- The STATUS_WORDs that an alert asked for. -/
def Dev.windowWords (d : Dev) (words : List PmbRead) : List PmbRead :=
  if d.anl.readStatus then (List.range d.railCount).map (fun r => words.getD r .failed) else []

/-- The STATUS_WORDs, then the readings, have come. -/
def Dev.windowRead (d : Dev) (reads words : List PmbRead) : Dev :=
  let a := d.windowAsked reads
  (d.windowRails reads).foldl (fun d x => d.railRead x.1 x.2) (if a.anl.readStatus then a.statusReads (a.windowWords words) else a)

/-- A read of either kind failed. -/
def Dev.windowBad (d : Dev) (reads words : List PmbRead) : Bool :=
  (d.windowRails reads).any (fun x => x.2 == .failed) || ((d.windowAsked reads).windowWords words).any (fun x => x == .failed)

theorem exec_pmbWindow (reads words : List PmbRead) (s : State) : exec (.pmbWindow reads words) s = s.run (fun d =>
    if !d.windowTaken.on F.ANL_PMB_CFG_EN [] then d.windowTaken
    else if d.windowTaken.pmbMismatch then d.windowTaken.windowFailed
    else if d.windowTaken.windowBad reads words then (d.windowTaken.windowRead reads words).windowFailed
    else (d.windowTaken.windowRead reads words).windowDone (sumBy (d.windowTaken.windowRails reads)
      (fun x => (d.windowTaken.windowRead reads words).rd F.ANL_PMB_MEAS_POWER [x.1])) d.anl.winSum d.anl.winN) := rfl

theorem Dev.windowTaken_on (d : Dev) (f : Fld) (ix : List Nat) : d.windowTaken.on f ix = d.on f ix := rfl

theorem Dev.windowTaken_pmbMismatch (d : Dev) : d.windowTaken.pmbMismatch = d.pmbMismatch := rfl

section Window

variable {s : State} (hl : Live s) (reads words : List PmbRead) (hon : s.dev.on F.ANL_PMB_CFG_EN [] = true)

include hl hon

theorem runs_pmbWindow_mismatch (h : s.dev.pmbMismatch = true) : Runs (.pmbWindow reads words) s s.dev.windowTaken.windowFailed :=
  Runs.of_run hl (exec_pmbWindow reads words s)
    (by simp only [Dev.windowTaken_on, Dev.windowTaken_pmbMismatch, hon, h, Bool.not_true, Bool.false_eq_true, if_false, if_true])

variable (hfit : s.dev.pmbMismatch = false)

include hfit

theorem runs_pmbWindow_bad (h : s.dev.windowTaken.windowBad reads words = true) :
    Runs (.pmbWindow reads words) s (s.dev.windowTaken.windowRead reads words).windowFailed :=
  Runs.of_run hl (exec_pmbWindow reads words s)
    (by simp only [Dev.windowTaken_on, Dev.windowTaken_pmbMismatch, hon, hfit, h, Bool.not_true, Bool.false_eq_true, if_false, if_true])

theorem runs_pmbWindow_good (h : s.dev.windowTaken.windowBad reads words = false) :
    Runs (.pmbWindow reads words) s ((s.dev.windowTaken.windowRead reads words).windowDone (sumBy (s.dev.windowTaken.windowRails reads)
      (fun x => (s.dev.windowTaken.windowRead reads words).rd F.ANL_PMB_MEAS_POWER [x.1])) s.dev.anl.winSum s.dev.anl.winN) :=
  Runs.of_run hl (exec_pmbWindow reads words s)
    (by simp only [Dev.windowTaken_on, Dev.windowTaken_pmbMismatch, hon, hfit, h, Bool.not_true, Bool.false_eq_true, if_false])

end Window

/-! ### Alerts (R270) -/

theorem exec_pmbAlert (s : State) : exec .pmbAlert s = s.runAny (fun d =>
    if d.on F.ANL_STAT_ALERT [] then d
    else if (d.wr F.ANL_STAT_ALERT [] 1).rst.level.isSome then d.wr F.ANL_STAT_ALERT [] 1
    else (d.wr F.ANL_STAT_ALERT [] 1).alertFault.powerEvent 5) := rfl

theorem exec_pmbAlertNRise (s : State) : exec .pmbAlertNRise s = s.runAny (fun d => d.wr F.ANL_STAT_ALERT [] 0) := rfl

section Alert

variable {s : State} (h : s.dev.on F.ANL_STAT_ALERT [] = false)

include h

theorem runs_pmbAlert (hl : Live s) : Runs .pmbAlert s ((s.dev.wr F.ANL_STAT_ALERT [] 1).alertFault.powerEvent 5) := by
  refine Runs.of_runAny (exec_pmbAlert s) ?_
  simp only [h, Dev.wr_rst, hl.1, Option.isSome_none, Bool.false_eq_true, if_false]

theorem runs_pmbAlert_held (hheld : s.dev.rst.level ≠ none) : Runs .pmbAlert s (s.dev.wr F.ANL_STAT_ALERT [] 1) := by
  refine Runs.of_runAny (exec_pmbAlert s) ?_
  simp only [h, Dev.wr_rst, Option.isSome_iff_ne_none.2 hheld, Bool.false_eq_true, if_false, if_true]

end Alert

/-- An alert asks for its own record (R270). -/
theorem Dev.mem_alertRecs (d : Dev) {x : FaultRec} (hx : x ∈ d.alertFault.spl.records) (hk : x.collector = 53) (hs : x.source = 0x42)
    (hi : x.inj = false) (hseq : d.rd F.SPL_REC_SEQ_SEQ [] ≤ x.seq) : x.seq ∈ d.alertFault.anl.alertRecs := by
  refine List.mem_append_right _ (List.mem_map.2 ⟨x, List.mem_filter.2 ⟨hx, ?_⟩, rfl⟩)
  simp [hk, hs, hi, hseq]

section Status

variable (d : Dev) (l : List PmbRead)

/-- Failed reads of STATUS_WORD are counted, and nothing else changes before the words enter the records. -/
theorem Dev.statusCounts_anl_spl : (l.foldl (fun d x => if x = .failed then d.inc F.ANL_PMB_ERR_COUNT [] else d) d).anl = d.anl ∧
    (l.foldl (fun d x => if x = .failed then d.inc F.ANL_PMB_ERR_COUNT [] else d) d).spl = d.spl := by
  refine ⟨foldl_proj (fun e : Dev => e.anl) _ (fun e x => ?_) _ _, foldl_proj (fun e : Dev => e.spl) _ (fun e x => ?_) _ _⟩
  · split
    · exact Dev.inc_anl _ _ _
    · rfl
  · split
    · exact Dev.inc_spl _ _ _
    · rfl

theorem Dev.recordStatus_anl (words : List Nat) : (d.recordStatus words).anl =
    { d.anl with readStatus := false, alertRecs := [], alertLatched := false, statusWords := words } := by
  unfold Dev.recordStatus
  dsimp only
  split <;> rfl

theorem Dev.recordStatus_records (words : List Nat) : (d.recordStatus words).spl.records = d.spl.records.map (fun x =>
    if d.anl.alertRecs.contains x.seq then { x with syndrome := Config.statusSyndrome words % 2 ^ 32, words := words } else x) := by
  unfold Dev.recordStatus
  dsimp only
  split <;> rfl

/-- The words of the reads enter every record that asked for them, and no other. -/
theorem Dev.statusReads_records {x : FaultRec} (hx : x ∈ d.spl.records) :
    (x.seq ∈ d.anl.alertRecs → { x with syndrome := Config.statusSyndrome (pmbWords l) % 2 ^ 32, words := pmbWords l } ∈
      (d.statusReads l).spl.records) ∧
    (x.seq ∉ d.anl.alertRecs → x ∈ (d.statusReads l).spl.records) := by
  obtain ⟨hanl, hspl⟩ := d.statusCounts_anl_spl l
  rw [Dev.statusReads, Dev.recordStatus_records, hanl, hspl]
  exact ⟨fun hask => List.mem_map.2 ⟨x, hx, if_pos (List.contains_iff_mem.2 hask)⟩,
    fun hask => List.mem_map.2 ⟨x, hx, if_neg fun h => hask (List.contains_iff_mem.1 h)⟩⟩

end Status

/-! ## Supply sags (R288, R289) -/

/-- A supply is low: INHIBIT and SEEN are set, and what is low is shown. -/
def Dev.sagShown (d : Dev) (io aon busy : Bool) : Dev :=
  let d := (d.wr F.ANL_SAG_INHIBIT [] 1).wr F.ANL_SAG_SEEN [] 1
  let d := (d.wr F.ANL_SAG_IO_LOW [] (b2n io)).wr F.ANL_SAG_AON_LOW [] (b2n aon)
  if busy then d.wr F.ANL_SAG_FLASH_UNCERTAIN [] 1 else d

section SagEnter

variable {s : State} (hl : Live s) {io aon : Bool} (busy : Bool) (hlow : (io || aon) = true)

include hl hlow

theorem runs_sagEnter : Runs (.sagEnter io aon busy) s
    (if s.dev.on F.ANL_SAG_INHIBIT [] then s.dev.sagShown io aon busy
     else ((s.dev.sagShown io aon busy).otpAbort.raise 53 0x4A 0).powerEvent 14) := by
  refine Runs.of_run hl rfl (if_neg ?_)
  rw [← Bool.not_or, hlow]
  decide

end SagEnter

/-- What the SAG register shows of a supply that is low. -/
theorem Dev.on_sagShown (d : Dev) (io aon busy : Bool) :
    (d.sagShown io aon busy).on F.ANL_SAG_INHIBIT [] = true ∧ (d.sagShown io aon busy).on F.ANL_SAG_SEEN [] = true ∧
    (d.sagShown io aon busy).on F.ANL_SAG_IO_LOW [] = io ∧ (d.sagShown io aon busy).on F.ANL_SAG_AON_LOW [] = aon ∧
    (busy = true → (d.sagShown io aon busy).on F.ANL_SAG_FLASH_UNCERTAIN [] = true) := by
  have hflash : ∀ {f : Fld}, f.apart F.ANL_SAG_FLASH_UNCERTAIN = true → ∀ e : Dev,
      (if busy then e.wr F.ANL_SAG_FLASH_UNCERTAIN [] 1 else e).on f [] = e.on f [] := fun hf e => by
    split
    · exact e.on_wr_apart [] [] 1 hf
    · rfl
  refine ⟨?_, ?_, ?_, ?_, fun hbusy => ?_⟩ <;> unfold Dev.sagShown <;> dsimp only
  · simp (disch := decide) only [hflash, Dev.on_wr_apart]
    exact Dev.on_wr_bit _ _ _ true rfl (by decide)
  · simp (disch := decide) only [hflash, Dev.on_wr_apart]
    exact Dev.on_wr_bit _ _ _ true rfl (by decide)
  · simp (disch := decide) only [hflash, Dev.on_wr_apart]
    exact Dev.on_wr_bit _ _ _ io rfl (by decide)
  · rw [hflash (by decide)]
    exact Dev.on_wr_bit _ _ _ aon rfl (by decide)
  · rw [if_pos hbusy]
    exact Dev.on_wr_bit _ _ _ true rfl (by decide)

/-- Both supplies hold: INHIBIT and what is low are cleared, and a waiting OTP request begins. -/
def Dev.sagOver (d : Dev) : Dev :=
  let d := ((d.wr F.ANL_SAG_INHIBIT [] 0).wr F.ANL_SAG_IO_LOW [] 0).wr F.ANL_SAG_AON_LOW [] 0
  { d with svc := { d.svc with otpWait := false } }.powerEvent 15

section SagOver

variable (d : Dev)

theorem Dev.sagOver_svc : d.sagOver.svc = { d.svc with otpWait := false } := by
  have hwait : ∀ e : Dev, ({ e with svc := { e.svc with otpWait := false } } : Dev).svc = { e.svc with otpWait := false } := fun _ => rfl
  rw [Dev.sagOver, Dev.svc_of_kept (Dev.kept_powerEvent _ _), hwait, Dev.wr_svc, Dev.wr_svc, Dev.wr_svc]

theorem Dev.on_sagOver : d.sagOver.on F.ANL_SAG_INHIBIT [] = false := by
  have hregs : ∀ (e : Dev) (x : Svc), ({ e with svc := x } : Dev).on F.ANL_SAG_INHIBIT [] = e.on F.ANL_SAG_INHIBIT [] := fun _ _ => rfl
  rw [Dev.sagOver, Dev.on, Dev.rd_powerEvent (by decide), ← Dev.on, hregs]
  simp (disch := decide) only [Dev.on_wr_apart]
  exact Dev.on_wr_bit _ _ _ false rfl (by decide)

theorem Dev.resting_sagOver : d.sagOver.resting = d.resting := by
  have hsvc : ∀ (e : Dev) (x : Svc), ({ e with svc := x } : Dev).resting = e.resting := fun _ _ => rfl
  rw [Dev.sagOver, Dev.resting_powerEvent, hsvc]
  simp (disch := decide) only [Dev.resting_wr]

/-- A sag that is over starts and stops no core. -/
theorem Dev.coreRuns_sagOver : d.sagOver.coreRuns 7 = d.coreRuns 7 := by
  have hrd : ∀ {f : Fld} (ix : List Nat), f.reg.rests = true → d.sagOver.rd f ix = d.rd f ix := fun ix hf =>
    Dev.rd_of_resting d.resting_sagOver hf ix
  simp (disch := decide) only [Dev.coreRuns, Dev.domOn, Dev.on, hrd, Dev.sagOver_svc]
  simp

/-- A record that goes to flash leaves every register but SPL_REC_FILL alone. -/
theorem Dev.on_flushRecord {f : Fld} (hf : f.apart F.SPL_REC_FILL_COUNT = true) (ix : List Nat) :
    (d.flushRecord true).on f ix = d.on f ix := by
  have hspl : ∀ (e : Dev) (x : Spl), ({ e with spl := x } : Dev).on f ix = e.on f ix := fun _ _ => rfl
  have hemit : ∀ (e : Dev) (o : Output), (e.emit o).on f ix = e.on f ix := fun _ _ => rfl
  unfold Dev.flushRecord Dev.openSector
  split
  · rfl
  · simp only [if_true, Dev.on_wr_apart _ _ _ _ hf, hspl, hemit, apply_ite (fun e : Dev => e.on f ix), ite_self]

theorem Dev.flushRecord_svc : (d.flushRecord true).svc = d.svc := by
  unfold Dev.flushRecord Dev.openSector
  split
  · rfl
  · simp only [if_true, Dev.wr_svc, Dev.emit_svc, apply_ite Dev.svc, ite_self]

end SagOver

theorem exec_sagRelease (s : State) : exec .sagRelease s = s.run (fun d =>
    if !d.on F.ANL_SAG_INHIBIT [] then d
    else if d.sagOver.coreRuns 7 then d.sagOver.spl.records.foldl (fun d _ => d.flushRecord true) d.sagOver else d.sagOver) := rfl

section SagRelease

variable {s : State} (hl : Live s) (hin : s.dev.on F.ANL_SAG_INHIBIT [] = true)

include hl hin

theorem runs_sagRelease (h : s.dev.coreRuns 7 = false) : Runs .sagRelease s s.dev.sagOver := by
  refine Runs.of_run hl (exec_sagRelease s) ?_
  simp only [hin, Dev.coreRuns_sagOver, h, Bool.not_true, Bool.false_eq_true, if_false]

/-- With or without records that go to flash, the sag is over. -/
theorem sagRelease_next : ∃ t, exec .sagRelease s = .next t ∧ t.dev.on F.ANL_SAG_INHIBIT [] = false ∧ t.dev.svc.otpWait = false := by
  refine ⟨_, Runs.of_run hl (exec_sagRelease s) rfl, ?_⟩
  have hsvc : s.dev.sagOver.svc.otpWait = false := by rw [Dev.sagOver_svc]
  rw [Dev.on_latched _ _ _ hl.2, Dev.latched_svc]
  simp only [hin, Bool.not_true, Bool.false_eq_true, if_false]
  split
  · have hon := foldl_proj (fun e : Dev => e.on F.ANL_SAG_INHIBIT []) (fun e (_ : FaultRec) => e.flushRecord true)
      (fun e _ => e.on_flushRecord (by decide) []) s.dev.sagOver.spl.records s.dev.sagOver
    have hkeep := foldl_proj Dev.svc (fun e (_ : FaultRec) => e.flushRecord true) (fun e _ => e.flushRecord_svc)
      s.dev.sagOver.spl.records s.dev.sagOver
    exact ⟨hon.trans s.dev.on_sagOver, by rw [hkeep, hsvc]⟩
  · exact ⟨s.dev.on_sagOver, hsvc⟩

end SagRelease

/-- Settles O43: windows, alerts and sags by the branches of their commands; an alert's own records are those from the number on that
it found, and the SAG register is read off what its commands write. -/
theorem measurementAndSags : Obligations.MeasurementAndSags := by
  unfold Obligations.MeasurementAndSags
  refine ⟨fun s hl => ⟨fun reads words hon hfit =>
      ⟨runs_pmbWindow_bad hl reads words hon hfit, runs_pmbWindow_good hl reads words hon hfit⟩,
    fun reads words hon => runs_pmbWindow_mismatch hl reads words hon,
    fun h => runs_pmbAlert h hl, Runs.of_runAny (exec_pmbAlertNRise s) rfl⟩, fun s hheld hd h => ?held, fun d x => d.mem_alertRecs,
    ?status, fun s hl => ⟨?entered, ?enter, runs_sagRelease hl, sagRelease_next hl⟩⟩
  case held =>
    refine ⟨_, runs_pmbAlert_held h hheld, ?_, rfl, rfl⟩
    rw [Dev.on_latched _ _ _ hd]
    exact Dev.on_wr_bit _ _ _ true rfl (by decide)
  case status =>
    intro d l t
    have hanl : t.anl = _ := (Dev.recordStatus_anl _ _).trans (by rw [(d.statusCounts_anl_spl l).1])
    refine ⟨by rw [hanl], by rw [hanl], by rw [hanl], fun x hx hask => ?_, fun x hx hask => (d.statusReads_records l hx).2 hask⟩
    exact ⟨_, (d.statusReads_records l hx).1 hask, rfl, rfl, rfl, rfl, rfl⟩
  case entered =>
    intro io aon busy hlow hin
    have hrun := runs_sagEnter hl busy hlow
    rw [hin, if_pos rfl] at hrun
    refine ⟨_, hrun, ?_⟩
    simp only [Dev.on_latched _ _ _ hl.2]
    exact s.dev.on_sagShown io aon busy
  case enter =>
    intro io aon busy hlow hin
    have hrun := runs_sagEnter hl busy hlow
    rwa [hin, if_neg Bool.false_ne_true] at hrun

end Sys2Proof.Machine

/-!
PROOFS of the statements of spec/10_telemetry_and_counters.md: the timebase and one TIME clock of a device that has nothing to do
(R294, R295), then streams, samples, histograms, counters and IPFIX (R303 to R320).
-/

namespace Sys2Proof.Machine

/-! ## The timebase (R294, R295) -/

theorem cast_ofSigned (w : Nat) (x : Int) : (ofSigned w x : Int) = x % (2 ^ w : Nat) :=
  Int.toNat_of_nonneg (Int.emod_nonneg _ (by positivity))

theorem toSigned_emod (w v : Nat) : toSigned w v % (2 ^ w : Nat) = v % (2 ^ w : Nat) := by
  unfold toSigned
  dsimp only
  split
  · rw [Int.natCast_mod, Int.emod_emod]
  · rw [Int.sub_emod_right, Int.natCast_mod, Int.emod_emod]

theorem Dev.trim_bounds (d : Dev) : -4294967 ≤ d.trim ∧ d.trim ≤ 4294967 := by
  unfold Dev.trim
  omega

/-- The two parts of TIME are one number of units of 2^-32 ns. -/
theorem Dev.time_clockTime (d : Dev) : (d.clockTime.ns * 2 ^ 32 + d.clockTime.frac : Int) =
    ((d.ns * 2 ^ 32 + d.frac : Int) + 2 ^ 32 + d.trim) % 2 ^ 96 := by
  have hparts : d.clockTime.ns * 2 ^ 32 + d.clockTime.frac =
      ofSigned 96 (((d.ns * 2 ^ 32 + d.frac : Nat) : Int) + 2 ^ 32 + d.trim) := Nat.div_add_mod' _ _
  have hcast := cast_ofSigned 96 (((d.ns * 2 ^ 32 + d.frac : Nat) : Int) + 2 ^ 32 + d.trim)
  rw [← hparts] at hcast
  exact_mod_cast hcast

section TimeCtl

variable {s : State} {m : Master} (hl : Live s) (hm : isPfSvc m = true) (hb : s.dev.hostBlocked m = false)

include hl hm hb

theorem runs_timeSet : Runs (.timeSet m) s { s.dev with ns := s.dev.rd F.TLM_TIME_STEP_STEP [], frac := 0 } :=
  Runs.of_run hl rfl (Dev.accessPf_taken _ _ hm hb (by decide))

theorem runs_timeStep : Runs (.timeStep m) s { s.dev with ns := (s.dev.ns + s.dev.rd F.TLM_TIME_STEP_STEP []) % 2 ^ 64 } :=
  Runs.of_run hl rfl (Dev.accessPf_taken _ _ hm hb (by decide))

end TimeCtl

/-! ## What the ticks of a clock find nothing to do for -/

section Ticks

variable {d : Dev}

theorem Dev.sweepTick_none (h : d.tlm.sweep = none) : d.sweepTick = d := by
  rw [Dev.sweepTick, h]

theorem Dev.scanTick_none (h : d.tbl.scan = none) : d.scanTick = d := by
  rw [Dev.scanTick, h]

theorem Dev.dumpTick_none (h : ∀ j ∈ d.tbl.jobs, j.dump = false) : d.dumpTick = d := by
  have hnone : d.tbl.jobs.filter (fun j => j.dump && j.ended.isNone) = [] :=
    List.filter_eq_nil_iff.2 fun j hj => by simp [h j hj]
  rw [Dev.dumpTick, hnone, List.foldl_nil]

theorem Dev.reloadTick_loaded (h : d.svc.unloaded = []) : d.reloadTick = d := by
  rw [Dev.reloadTick, h]
  rfl

theorem Dev.serveOne_none {c : Nat} (hin : d.requestIn c = none) (hwaits : d.requestWaits c = false) : d.serveOne c = d := by
  rw [Dev.serveOne, hin]
  simp [Dev.takeRequest, hwaits]

theorem Dev.serveTick_none (h : ∀ c, c < 64 → d.requestIn c = none ∧ d.requestWaits c = false) : d.serveTick = d := by
  rw [Dev.serveTick]
  split
  · refine List.foldlRecOn _ _ (motive := fun e : Dev => e = d) rfl fun e he c hc => ?_
    obtain ⟨hin, hwaits⟩ := h c (List.mem_range.1 hc)
    rw [he, Dev.serveOne_none hin hwaits]
  · rfl

theorem Dev.ipfixTick_none (h : d.ipfixCollectors = 0) : d.ipfixTick = d := if_pos h

theorem Dev.presentInjection_none (h : d.spl.inj = none) (real : List FaultIn) : d.presentInjection real = d := by
  rw [Dev.presentInjection, h]

end Ticks

/-! ## What the services and the side port look at -/

/-- `e` differs from `d` in AUX_STAT alone, as far as the services and the side port's ports look. -/
structure SameServices (d e : Dev) : Prop where
  raw : ∀ r ix, r.key ix ≠ R.AUX_STAT.key [] → e.raw r ix = d.raw r ix
  svc : e.svc = d.svc
  spl : e.spl = d.spl
  safe : e.safe = d.safe

section SameServices

variable {d e : Dev} (h : SameServices d e)

include h

theorem SameServices.rd (f : Fld) (ix : List Nat) (hf : f.reg.win ≠ R.AUX_STAT.win ∨ f.reg.id ≠ R.AUX_STAT.id)
    (hid : f.reg.id < 4096) : e.rd f ix = d.rd f ix := by
  rw [Dev.rd, h.raw _ _ (Reg.key_ne ix [] hf hid (by decide)), Dev.rd]

theorem SameServices.on (f : Fld) (ix : List Nat) (hf : f.reg.win ≠ R.AUX_STAT.win ∨ f.reg.id ≠ R.AUX_STAT.id)
    (hid : f.reg.id < 4096) : e.on f ix = d.on f ix := by
  rw [Dev.on, h.rd f ix hf hid, Dev.on]

theorem SameServices.domOn (n : Nat) : e.domOn n = d.domOn n := by
  rw [Dev.domOn, h.rd _ _ (by decide) (by decide), Dev.domOn]

theorem SameServices.auxPortOf (l : Nat) : e.auxPortOf l = d.auxPortOf l := by
  refine Dev.auxPortOf_congr (fun f hf ix => ?_) l
  simp only [List.mem_cons, List.not_mem_nil, or_false] at hf
  obtain hf | hf | hf := hf <;> exact h.rd f ix (by rw [hf]; decide) (by rw [hf]; decide)

theorem SameServices.coreRuns (k : Nat) : e.coreRuns k = d.coreRuns k := by
  simp only [Dev.coreRuns, h.domOn, h.svc, h.spl, h.safe, h.on F.SVC_CTL_HALT _ (by decide) (by decide),
    h.rd F.SVC_BOOT_STATE _ (by decide) (by decide)]

theorem SameServices.bindEn (c : Nat) : e.bindEn c = d.bindEn c := h.on _ _ (by decide) (by decide)

theorem SameServices.receiver (c : Nat) : e.receiver c = d.receiver c := h.rd _ _ (by decide) (by decide)

theorem SameServices.mbxHeld (c : Nat) : e.mbxHeld c = d.mbxHeld c := by
  have hbind : ∀ k, e.raw R.SVC_MBX_BIND [k] = d.raw R.SVC_MBX_BIND [k] := fun k =>
    h.raw _ _ (Reg.key_ne _ _ (by decide) (by decide) (by decide))
  simp only [Dev.mbxHeld, Dev.unbound, Dev.sender, h.bindEn, h.receiver, hbind,
    h.rd F.SVC_MBX_BIND_SENDER _ (by decide) (by decide)]

theorem SameServices.requestWaits (c : Nat) : e.requestWaits c = d.requestWaits c := by
  rw [Dev.requestWaits, h.receiver, h.bindEn, h.mbxHeld, h.coreRuns, h.on F.MBX_STAT_FULL _ (by decide) (by decide), Dev.requestWaits]

theorem SameServices.requestIn (c : Nat) : e.requestIn c = d.requestIn c := by
  simp only [Dev.requestIn, Dev.takenAt, Dev.message, h.receiver, h.requestWaits, h.coreRuns, h.svc,
    h.on F.MBX_STAT_FULL _ (by decide) (by decide), h.rd F.MBX_STAT_LEN _ (by decide) (by decide),
    h.rd F.MBX_DATA_DATA _ (by decide) (by decide)]

theorem SameServices.ipfixCollectors : e.ipfixCollectors = d.ipfixCollectors := by
  simp only [Dev.ipfixCollectors, Dev.ipfixByte, h.coreRuns, h.safe, h.svc]

end SameServices

/-! ## One TIME clock of a device that has nothing to do (R294, log 6) -/

/-- The side port's PLL has locked, where it is powered (log 277). -/
def Dev.pllLocked (d : Dev) : Dev := if d.domOn 181 then d.wr F.AUX_STAT_PLL_LOCK [] 1 else d

theorem Dev.pllLocked_regs_only (d : Dev) : d.pllLocked = { d with regs := d.pllLocked.regs } := by
  rw [Dev.pllLocked]
  split <;> rfl

theorem Dev.raw_pllLocked (d : Dev) (r : Reg) (ix : List Nat) (h : r.key ix ≠ R.AUX_STAT.key []) :
    d.pllLocked.raw r ix = d.raw r ix := by
  rw [Dev.pllLocked]
  split
  · exact d.raw_wr_of_key F.AUX_STAT_PLL_LOCK r [] ix 1 h
  · rfl

theorem Dev.on_pllLocked (d : Dev) (h : d.domOn 181 = true) : d.pllLocked.on F.AUX_STAT_PLL_LOCK [] = true := by
  rw [Dev.pllLocked, if_pos h]
  exact d.on_wr_bit F.AUX_STAT_PLL_LOCK [] true rfl (by decide)

theorem Dev.sameServices_pllLocked (d : Dev) : SameServices d d.pllLocked where
  raw := d.raw_pllLocked
  svc := by rw [d.pllLocked_regs_only]
  spl := by rw [d.pllLocked_regs_only]
  safe := by rw [d.pllLocked_regs_only]

/-- The idle columns of mode 1 that the time now past has room for (R73). -/
def Dev.idleColumns (d : Dev) : Dev :=
  let due := d.rst.mono * 5 / 16
  if d.auxMode = 1 && (d.auxPortOf 0).isSome && !d.safe then
    (List.range (due - d.phy.auxCol)).foldl (fun d _ => if d.phy.auxCol < due then d.auxIdle else d) d
  else { d with phy := { d.phy with auxCol := due } }

theorem Dev.auxTick_eq (d : Dev) : d.auxTick = (List.range 4).foldl Dev.auxFillAll d.pllLocked.idleColumns := rfl

theorem Dev.idleColumns_unused {d : Dev} (h : d.auxPortOf 0 = none) :
    d.idleColumns = { d with phy := { d.phy with auxCol := d.rst.mono * 5 / 16 } } := by
  simp [Dev.idleColumns, h]

theorem Dev.auxFillAll_unused {d : Dev} {p : Nat} (h : d.auxPortOf p = none) :
    d.auxFillAll p = d.setAuxAn p { d.auxAn p with sent := d.rst.mono / 8 } := by
  simp [Dev.auxFillAll, h]

/-- With no port in use the side port sends nothing: its counts of what was due are all that changes. -/
theorem Dev.auxTick_unused {d : Dev} (h : ∀ p, p < 4 → d.auxPortOf p = none) : ∃ x, d.auxTick = { d.pllLocked with phy := x } := by
  have hport : ∀ x p, p < 4 → ({ d.pllLocked with phy := x } : Dev).auxPortOf p = none := fun x p hp =>
    (d.sameServices_pllLocked.auxPortOf p).trans (h p hp)
  rw [Dev.auxTick_eq, Dev.idleColumns_unused (hport d.pllLocked.phy 0 (by decide))]
  refine List.foldlRecOn _ _ (motive := fun e : Dev => ∃ x, e = { d.pllLocked with phy := x }) ⟨_, rfl⟩ ?_
  rintro _ ⟨x, rfl⟩ p hp
  exact ⟨_, Dev.auxFillAll_unused (hport x p (List.mem_range.1 hp))⟩

/-- Nothing waits for the clock: no sweep, scan, dump, request, injection or IPFIX collector, and no port of the side port is in use. -/
structure Dev.NothingDue (d : Dev) : Prop where
  sweep : d.tlm.sweep = none
  inj : d.spl.inj = none
  ports : ∀ p, p < 4 → d.auxPortOf p = none
  scan : d.tbl.scan = none
  dumps : ∀ j ∈ d.tbl.jobs, j.dump = false
  loaded : d.svc.unloaded = []
  requests : ∀ c, c < 64 → d.requestIn c = none ∧ d.requestWaits c = false
  collectors : d.ipfixCollectors = 0

/-- Time has gone on by one clock, and the meters' command slot is free. -/
def Dev.timePassed (d : Dev) : Dev := { d.clockTime with dp := { d.dp with mtrBusy := false } }

/-- One clock with nothing due, but for the side port's own counts. -/
def Dev.idleClock (d : Dev) (x : Phy) : Dev := { d.timePassed.pllLocked with phy := x }

theorem Dev.idleClock_eq (d : Dev) (x : Phy) : d.idleClock x = { d.timePassed with regs := d.timePassed.pllLocked.regs, phy := x } := by
  rw [Dev.idleClock, d.timePassed.pllLocked_regs_only]

theorem Dev.sameServices_idleClock (d : Dev) (x : Phy) : SameServices d (d.idleClock x) where
  raw := d.timePassed.raw_pllLocked
  svc := by rw [d.idleClock_eq]; rfl
  spl := by rw [d.idleClock_eq]; rfl
  safe := by rw [d.idleClock_eq]; rfl

theorem Dev.NothingDue.clock {d : Dev} (h : d.NothingDue) : ∃ x, d.clock = d.idleClock x := by
  obtain ⟨x, hx⟩ := d.timePassed.auxTick_unused h.ports
  refine ⟨x, ?_⟩
  have hsame := d.sameServices_idleClock x
  have htlm : (d.idleClock x).tlm = d.tlm := by rw [d.idleClock_eq]; rfl
  have htbl : (d.idleClock x).tbl = d.tbl := by rw [d.idleClock_eq]; rfl
  have hsweep : (d.idleClock x).sweepTick = d.idleClock x := Dev.sweepTick_none (htlm ▸ h.sweep)
  have hstart : d.clock = (if (d.idleClock x).safe then d.idleClock x else (d.idleClock x).sweepTick
      ).scanTick.dumpTick.reloadTick.serveTick.ipfixTick.presentInjection [] := by
    rw [Dev.idleClock, ← hx]
    rfl
  rw [hstart, hsweep, ite_self, Dev.scanTick_none (htbl ▸ h.scan), Dev.dumpTick_none (htbl ▸ h.dumps),
    Dev.reloadTick_loaded (hsame.svc ▸ h.loaded),
    Dev.serveTick_none (fun c hc => by rw [hsame.requestIn, hsame.requestWaits]; exact h.requests c hc),
    Dev.ipfixTick_none (hsame.ipfixCollectors.trans h.collectors), Dev.presentInjection_none (hsame.spl ▸ h.inj)]

/-- Settles O45: with nothing due a clock is the step of TIME and the lock of the side port's PLL; SET and STEP by their branches. -/
theorem timeBase : Obligations.TimeBase := by
  unfold Obligations.TimeBase
  intro s hl
  refine ⟨fun hempty => ?step, fun hsweep hinj hports hscan hdumps hloaded hrequests hcollectors => ?clock,
    fun m hm hb => ⟨runs_timeSet hl hm hb, ?timeStep⟩, fun d => rfl⟩
  case step =>
    have hidle : step s = idle s := by simp only [step, hempty]
    rw [hidle, idle, State.runAny, Dev.clockAny, hl.1]
  case clock =>
    obtain ⟨x, hx⟩ := Dev.NothingDue.clock ⟨hsweep, hinj, hports, hscan, hdumps, hloaded, hrequests, hcollectors⟩
    obtain ⟨hlo, hhi⟩ := s.dev.trim_bounds
    have hraw := (s.dev.sameServices_idleClock x).raw
    have hlock : s.dev.domOn 181 = true → (s.dev.idleClock x).on F.AUX_STAT_PLL_LOCK [] = true := fun h =>
      s.dev.timePassed.on_pllLocked h
    have hfields := s.dev.idleClock_eq x
    dsimp only
    rw [hx]
    refine ⟨?_, hlo, hhi, hraw, hlock, ?_⟩
    · rw [hfields]
      exact s.dev.time_clockTime
    · rw [hfields]
      exact ⟨rfl, rfl, rfl, rfl, rfl, rfl⟩
  case timeStep =>
    refine ⟨_, runs_timeStep hl hm hb, rfl, Dev.latched_regs _ _ hl.2, Nat.mod_lt _ (by decide), ?_⟩
    have hsigned := toSigned_emod 64 (s.dev.rd F.TLM_TIME_STEP_STEP [])
    rw [Dev.latched_ns]
    dsimp only
    omega

/-! ## Streams (R303) -/

section Streams

variable {s : State} (hl : Live s)

include hl

section Post

variable {n : Fin 256} {j : Job} (hj : s.dev.newJob n.val 0x30 = some j)

/-- The job's stream takes its buffer: it is enabled, towards the host, and of the job's ring. -/
def Dev.streamFits (d : Dev) (k n : Nat) : Bool :=
  d.on F.TLM_STREAM_CFG_EN [k] && !d.on F.TLM_STREAM_CFG_DEST [k] && d.rd F.TLM_STREAM_CFG_RING [k] == n

include hj

/-- What TLM_POST does with its job `j`. -/
theorem runs_tlmPost : Runs (.tlmPost n) s
    (let k := j.p 0 % 4
     let d := s.dev.startJob j.id
     if !d.streamFits k n.val then d.finishJob j.id 6 0 0 0
     else if j.sub.len = 0 || j.sub.len % 32 ≠ 0 || 16777216 < j.sub.len then d.finishJob j.id 5 0 0 0
     else (d.setStream k { d.stream k with bufs := (d.stream k).bufs ++
       [{ job := j.id, ring := n.val, frags := j.frags, len := j.sub.len }] }).streamPump k (d.stream k).queue.length) := by
  refine Runs.of_run hl rfl ?_
  dsimp only
  rw [hj]
  simp only [Dev.streamFits, Bool.not_and, Bool.not_not]
  rfl

theorem runs_tlmPost_unfit (hfit : (s.dev.startJob j.id).streamFits (j.p 0 % 4) n.val = false) :
    Runs (.tlmPost n) s ((s.dev.startJob j.id).finishJob j.id 6 0 0 0) := by
  simpa only [hfit, Bool.not_false, if_true] using runs_tlmPost hl hj

theorem runs_tlmPost_badLength (hfit : (s.dev.startJob j.id).streamFits (j.p 0 % 4) n.val = true)
    (hlen : j.sub.len = 0 ∨ j.sub.len % 32 ≠ 0 ∨ 16777216 < j.sub.len) :
    Runs (.tlmPost n) s ((s.dev.startJob j.id).finishJob j.id 5 0 0 0) := by
  have hbad : (j.sub.len = 0 || j.sub.len % 32 ≠ 0 || 16777216 < j.sub.len) = true := by simpa [or_assoc] using hlen
  simpa only [hfit, hbad, Bool.not_true, Bool.false_eq_true, if_false, if_true] using runs_tlmPost hl hj

theorem runs_tlmPost_taken (hfit : (s.dev.startJob j.id).streamFits (j.p 0 % 4) n.val = true) (hpos : 0 < j.sub.len)
    (hunit : j.sub.len % 32 = 0) (hmax : j.sub.len ≤ 16777216) :
    let k := j.p 0 % 4
    let d := s.dev.startJob j.id
    Runs (.tlmPost n) s ((d.setStream k { d.stream k with bufs := (d.stream k).bufs ++
      [{ job := j.id, ring := n.val, frags := j.frags, len := j.sub.len }] }).streamPump k (d.stream k).queue.length) := by
  have hgood : ¬ (j.sub.len = 0 || j.sub.len % 32 ≠ 0 || 16777216 < j.sub.len) = true := by
    simp only [Bool.or_eq_true, decide_eq_true_eq]
    omega
  simpa only [hfit, hgood, Bool.not_true, Bool.false_eq_true, if_false] using runs_tlmPost hl hj

end Post

theorem runs_tlmFlush {k : Fin 4} {b : StreamBuf} {t : List StreamBuf} (hb : (s.dev.stream k.val).bufs = b :: t)
    (hus : s.dev.rd F.TLM_STREAM_CFG_FLUSH_US [k.val] ≠ 0) (hw : b.written ≠ 0) : Runs (.tlmFlush k) s
      ((s.dev.setStream k.val { s.dev.stream k.val with bufs := t }).finishJob b.job 0 b.written 0 0) := by
  refine Runs.of_run hl rfl ?_
  dsimp only
  rw [hb]
  exact if_neg (by simp [hus, hw])

end Streams

/-! ## Samples and histograms (R305, R308) -/

section Samples

variable {s : State} (hl : Live s)

include hl

section Sweep

variable (hen : s.dev.on F.TLM_QS_CFG_EN [] = true) (hsafe : s.dev.safe = false)

include hen hsafe

theorem runs_qsSweep_skipped {x : Nat × Nat} (h : s.dev.tlm.sweep = some x) :
    Runs .qsSweep s ((s.dev.inc F.TLM_QS_SKIP_COUNT []).wr F.TLM_STAT_QS_OVERRUN [] 1) := by
  refine Runs.of_run hl rfl ((if_neg (by simp [hen, hsafe])).trans ?_)
  rw [h]

theorem runs_qsSweep_started (h : s.dev.tlm.sweep = none) :
    Runs .qsSweep s ({ s.dev with tlm := { s.dev.tlm with sweep := some (0, s.dev.rst.mono) } } : Dev).sweepTick := by
  refine Runs.of_run hl rfl ((if_neg (by simp [hen, hsafe])).trans ?_)
  rw [h]

end Sweep

theorem runs_histLatchRead {m : Master} (hm : hasWindow m = true) (hb : s.dev.hostBlocked m = false) :
    Runs (.histLatchRead m) s (s.dev.histLatch.emit (.readData m.mid R.TLM_HQ_DATA.bar0
      (s.dev.histLatch.shownWord R.TLM_HQ_DATA [0] (s.dev.histLatch.tlm.hqLatch.getD 0 0)))) :=
  Runs.of_run hl rfl (if_neg (by simp [hm, hb]))

end Samples

/-! ## Performance counters (R319, R320) -/

/-- A write that no HIF reset turns away, to a block that needs no initialisation, has its effect. -/
theorem Dev.access_taken {d : Dev} {m : Master} {off : Nat} (v : Nat) (f : Dev → Dev) (hb : d.hostBlocked m = false)
    (hw : initWindow (off / 1048576) = false) : d.access m off v f = f d := by
  simp [Dev.access, hb, hw]

/-- An overflow sample up to its context: counter `k` of unit `u` wrapped at time `ns`. -/
def wrapHead (u k ns : Nat) : List Byte := [1] ++ leBytes 2 u ++ [BitVec.ofNat 8 k, 0, 0, 0] ++ leBytes 8 ns

section Wrap

variable {s : State} {pass u k : Nat} {pc : BitVec 64} {t : List (Nat × Nat)} (hl : Live s) (hw : s.dev.pmcWraps = (u, k) :: t)

include hl hw

theorem runs_pmcWrap {ctx : List Byte} (hctx : (if u < 64 then s.dev.pipeContext u pass
      else if 121 ≤ u && u ≤ 128 then (s.dev, leBytes 8 pc.toNat)
      else (s.dev, leBytes 8 (s.dev.rd F.PMC_CYC_COUNT [u]))) = (s.dev, ctx)) :
    Runs (.pmcWrap pass pc) s (({ s.dev with pmcWraps := t } : Dev).record 3 (wrapHead u k s.dev.ns ++ ctx)) := by
  refine Runs.of_run hl rfl ?_
  dsimp only
  rw [hw]
  dsimp only
  rw [hctx]
  rfl

theorem runs_pmcWrap_pipe {x : Pass} (hu : u < 64) (hx : s.dev.pass pass = some x) (hpipe : x.pipe = u) :
    Runs (.pmcWrap pass pc) s (({ s.dev with pmcWraps := t } : Dev).record 3 (wrapHead u k s.dev.ns ++
      (leBytes 4 (x.md' mdFlowHash) ++ leBytes 2 (x.md' mdIngPort) ++ leBytes 2 (x.md' mdPipeId) ++ leBytes 4 (x.md' mdIngTs / 256)))) := by
  refine runs_pmcWrap hl hw ?_
  rw [if_pos hu, Dev.pipeContext, hx]
  exact if_pos hpipe

theorem runs_pmcWrap_core (hlo : 121 ≤ u) (hhi : u ≤ 128) :
    Runs (.pmcWrap pass pc) s (({ s.dev with pmcWraps := t } : Dev).record 3 (wrapHead u k s.dev.ns ++ leBytes 8 pc.toNat)) := by
  refine runs_pmcWrap hl hw ?_
  rw [if_neg (by omega), if_pos (by simp [hlo, hhi])]

theorem runs_pmcWrap_cycles (hlo : 64 ≤ u) (hout : u < 121 ∨ 128 < u) :
    Runs (.pmcWrap pass pc) s (({ s.dev with pmcWraps := t } : Dev).record 3
      (wrapHead u k s.dev.ns ++ leBytes 8 (s.dev.rd F.PMC_CYC_COUNT [u]))) := by
  refine runs_pmcWrap hl hw ?_
  rw [if_neg (by omega), if_neg (by simp only [Bool.and_eq_true, decide_eq_true_eq]; omega)]

end Wrap

section Snapshots

variable {s : State} (hl : Live s)

include hl

theorem runs_pmcSnap {m : Master} {v : BitVec 32} (hm : pmcWriter m = true) (hb : s.dev.hostBlocked m = false)
    (hsnap : bitAt v.toNat 0 = true) : Runs (.pmcSnap m v) s
      ((s.dev.wr F.PMC_GCTL_FREEZE [] (bitsOf v.toNat 31 31)).wr F.PMC_GCTL_VIEW [] (bitsOf v.toNat 30 30)).snapshot :=
  Runs.of_run hl rfl ((if_pos (by rw [hsnap, hm]; rfl)).trans (Dev.access_taken _ _ hb (by decide)))

theorem runs_pmcSnapPeriodic (hon : s.dev.rd F.PMC_SNAP_PERIOD_TICKS [] ≠ 0)
    (hdue : s.dev.rd F.PMC_SNAP_PERIOD_TICKS [] ≤ s.dev.tlm.snapTicks) :
    Runs .pmcSnapPeriodic s ({ s.dev with tlm := { s.dev.tlm with snapTicks := 0 } } : Dev).snapshot :=
  Runs.of_run hl rfl (if_pos (by simp [hon, hdue]))

end Snapshots

theorem Dev.snapTime_snapshot (d : Dev) : d.snapshot.rd F.PMC_SNAP_TIME_NS [] = d.ns % 2 ^ 64 := by
  rw [Dev.snapshot, Dev.rd_wr_other _ _ _ _ _ _ (by decide) (by decide) (by decide), Dev.rd_wr_self _ _ _ _ (by decide) (by decide)]
  rfl

theorem Dev.snapSeq_snapshot (d : Dev) :
    d.snapshot.rd F.PMC_SNAP_SEQ_SEQ [] = (d.rd F.PMC_SNAP_SEQ_SEQ [] + 1) % 2 ^ 32 :=
  Dev.rd_wr_fits _ _ _ _ (by decide) (by decide) (Nat.mod_lt _ (by decide))

/-! ## IPFIX (R312) -/

/-- Message `m` leaves for collector `c`, and waits to be sent. -/
def Dev.exportTo (m : List Byte) (d : Dev) (c : Nat) : Dev :=
  { d.emit (.ipfix c m) with svc := { d.svc with outgoing := d.svc.outgoing ++ [{ collector := c, message := m }] } }

theorem Dev.exportSet_eq (d : Dev) (set : List Byte) :
    d.exportSet set = (List.range d.ipfixCollectors).foldl (Dev.exportTo (d.ipfixMessage set)) d := rfl

theorem Dev.out_foldl_exportTo (m : List Byte) (l : List Nat) (d : Dev) :
    (l.foldl (Dev.exportTo m) d).out = d.out ++ l.map (fun c => Output.ipfix c m) := by
  induction l generalizing d with
  | nil => exact (List.append_nil _).symm
  | cons c t ih =>
    rw [List.foldl_cons, ih, List.map_cons]
    exact List.append_assoc _ _ _

theorem Dev.exportSet_out (d : Dev) (set : List Byte) :
    (d.exportSet set).out = d.out ++ (List.range d.ipfixCollectors).map (fun c => Output.ipfix c (d.ipfixMessage set)) :=
  Dev.out_foldl_exportTo _ _ d

section Ipfix

variable {s : State} (hl : Live s) (hc : s.dev.ipfixCollectors ≠ 0)

include hl hc

theorem runs_ipfixExport :
    let l := if s.dev.enterprise = 0 then [] else s.dev.svc.queueRecs.map queueRecord
    let d := s.dev.exportRecords 257 queuesPerMessage l.length l
    Runs .ipfixExport s { d with svc := { d.svc with exportDue := true, queueRecs := [] } } :=
  Runs.of_run hl rfl (if_neg hc)

theorem runs_ipfixTemplateRefresh : Runs .ipfixTemplateRefresh s s.dev.sendTemplates :=
  Runs.of_run hl rfl (if_neg hc)

theorem ipfixTemplateRefresh_sends : ∃ t, exec .ipfixTemplateRefresh s = .next t ∧
    t.dev.svc.templateSeq = s.dev.svc.templateSeq + 1 ∧
    t.dev.out = s.dev.out ++ (List.range s.dev.ipfixCollectors).map (fun c =>
      Output.ipfix c (s.dev.ipfixMessage (ipfixSet 2 s.dev.templates))) :=
  ⟨_, runs_ipfixTemplateRefresh hl hc, rfl, s.dev.exportSet_out _⟩

end Ipfix

/-- Settles O46: each row by the branch that its conditions choose; the messages to the collectors by induction over them, and the
snapshot's time and number are read off the registers written. -/
theorem telemetryAndCounters : Obligations.TelemetryAndCounters := by
  unfold Obligations.TelemetryAndCounters
  intro s hl
  refine ⟨fun n j hj => ⟨fun hfit => ?unfit, fun hfit hlen => ?badLength, fun hfit hpos hunit hmax => ?posted⟩,
    fun k b t hb hus hw => runs_tlmFlush hl hb hus hw,
    fun hen hsafe => ⟨fun x hx => runs_qsSweep_skipped hl hen hsafe hx, runs_qsSweep_started hl hen hsafe⟩,
    fun m hm hb => runs_histLatchRead hl hm hb,
    fun pass pc u k t hw => ⟨fun x hu hx hpipe => runs_pmcWrap_pipe hl hw hu hx hpipe, runs_pmcWrap_core hl hw,
      runs_pmcWrap_cycles hl hw⟩,
    fun m v hm hb hsnap => runs_pmcSnap hl hm hb hsnap, runs_pmcSnapPeriodic hl,
    fun hc => ⟨runs_ipfixExport hl hc, ipfixTemplateRefresh_sends hl hc⟩,
    fun d => ⟨d.snapTime_snapshot, d.snapSeq_snapshot⟩⟩
  case unfit => exact runs_tlmPost_unfit hl hj hfit
  case badLength => exact runs_tlmPost_badLength hl hj hfit hlen
  case posted => exact runs_tlmPost_taken hl hj hfit hpos hunit hmax

end Sys2Proof.Machine

/-!
PROOFS of the statements of spec/11_host_rings.md to spec/15_package_pins_electrical.md. First what reporting and the blocks at
work leave of the device, for the two invariants: the safe state (R406) and the one-time programmable bits (R389, R390).
-/

namespace Sys2Proof.Machine

/-! ## What reporting leaves of the device -/

/-- The device but for the stores that counts, completions, events and interrupts write: registers, the host interface, outputs,
activity, overflow samples, free values. -/
def Dev.unreported (d : Dev) : Dev := { d with regs := [], hif := {}, out := [], act := [], pmcWraps := [], freeIdx := 0 }

@[simp] theorem Dev.unreported_setRaw (d : Dev) (r : Reg) (ix : List Nat) (v : Nat) : (d.setRaw r ix v).unreported = d.unreported := by unfold Dev.unreported; rfl
@[simp] theorem Dev.unreported_wr (d : Dev) (f : Fld) (ix : List Nat) (v : Nat) : (d.wr f ix v).unreported = d.unreported := by unfold Dev.unreported; rfl
@[simp] theorem Dev.unreported_emit (d : Dev) (o : Output) : (d.emit o).unreported = d.unreported := by unfold Dev.unreported; rfl
@[simp] theorem Dev.unreported_setRing (d : Dev) (n : Nat) (r : Ring) : (d.setRing n r).unreported = d.unreported := by unfold Dev.unreported; rfl
@[simp] theorem Dev.unreported_hif (d : Dev) (x : Hif) : ({ d with hif := x } : Dev).unreported = d.unreported := by unfold Dev.unreported; rfl

@[simp] theorem Dev.unreported_addTo (d : Dev) (f : Fld) (ix : List Nat) (n : Nat) : (d.addTo f ix n).unreported = d.unreported := by
  obtain ⟨v, h⟩ := d.addTo_eq f ix n
  rw [h, Dev.unreported_wr]

@[simp] theorem Dev.unreported_inc (d : Dev) (f : Fld) (ix : List Nat) : (d.inc f ix).unreported = d.unreported :=
  d.unreported_addTo f ix 1

@[simp] theorem Dev.unreported_pmc (d : Dev) (u code n : Nat) : (d.pmc u code n).unreported = d.unreported := by
  unfold Dev.pmc
  split
  · refine foldl_proj Dev.unreported _ (fun e c => ?_) _ d
    dsimp only
    split
    · exact Dev.proj_pmcAdd Dev.unreported Dev.unreported_wr (fun _ _ => rfl) e u c n 2
    · rfl
  · rfl

@[simp] theorem Dev.unreported_charge (d : Dev) (j : Option Nat) (i n : Nat) : (d.charge j i n).unreported = d.unreported := by
  cases j <;> rfl

@[simp] theorem Dev.unreported_dmaWrote (d : Dev) (j : Option Nat) (n : Nat) : (d.dmaWrote j n).unreported = d.unreported := by
  rw [Dev.dmaWrote, Dev.unreported_charge, Dev.unreported_pmc, Dev.unreported_hif]

@[simp] theorem Dev.unreported_dmaRead (d : Dev) (j : Option Nat) (n : Nat) : (d.dmaRead j n).unreported = d.unreported := by
  rw [Dev.dmaRead, Dev.unreported_charge, Dev.unreported_pmc, Dev.unreported_hif]

@[simp] theorem Dev.unreported_msix (d : Dev) (v : Nat) : (d.msix v).unreported = d.unreported := by
  simp only [Dev.msix, apply_ite Dev.unreported, Dev.unreported_wr, Dev.unreported_emit, ite_self]

@[simp] theorem Dev.unreported_signalRing (d : Dev) (m : Nat) : (d.signalRing m).unreported = d.unreported := by
  simp only [Dev.signalRing, apply_ite Dev.unreported, Dev.unreported_msix, Dev.unreported_wr, Dev.unreported_emit,
    Dev.unreported_setRing, ite_self]

@[simp] theorem Dev.unreported_writeEntry (d : Dev) (m : Nat) (e : RingEntry) : (d.writeEntry m e).unreported = d.unreported := by
  unfold Dev.writeEntry Dev.checkIrq
  cases e.sq <;> cases e.vec <;>
    simp only [apply_ite Dev.unreported, Dev.unreported_signalRing, Dev.unreported_setRing, Dev.unreported_msix, Dev.unreported_pmc,
      Dev.unreported_inc, Dev.unreported_dmaWrote, Dev.unreported_wr, Dev.unreported_emit, ite_self]

@[simp] theorem Dev.unreported_postEvent (d : Dev) (m : Nat) (e : RingEntry) : (d.postEvent m e).unreported = d.unreported := by
  simp only [Dev.postEvent, apply_ite Dev.unreported, Dev.unreported_writeEntry, Dev.unreported_hif, Dev.unreported_inc, ite_self]

@[simp] theorem Dev.unreported_ringEvent (d : Dev) (k n v m : Nat) : (d.ringEvent k n v m).unreported = d.unreported := by
  simp only [Dev.ringEvent, apply_ite Dev.unreported, Dev.unreported_postEvent, ite_self]

theorem Dev.unreported_stallEvent (d : Dev) (k m : Nat) : (d.stallEvent k m).unreported = d.unreported :=
  Dev.unreported_ringEvent _ _ _ _ _

theorem Dev.unreported_holdEntry (d : Dev) (m : Nat) (e : RingEntry) : (d.holdEntry m e).unreported = d.unreported := by
  simp only [Dev.holdEntry, apply_ite Dev.unreported, Dev.unreported_stallEvent, Dev.unreported_inc, Dev.unreported_setRing, ite_self]

theorem Dev.unreported_drainHold (d : Dev) (m fuel : Nat) : (d.drainHold m fuel).unreported = d.unreported := by
  induction fuel generalizing d with
  | zero => rfl
  | succ k ih =>
    unfold Dev.drainHold
    split
    · rfl
    · simp only [apply_ite Dev.unreported, ih, Dev.unreported_setRing, Dev.unreported_writeEntry, ite_self]

theorem Dev.unreported_admitLate (d : Dev) (m fuel : Nat) : (d.admitLate m fuel).unreported = d.unreported := by
  induction fuel generalizing d with
  | zero => rfl
  | succ k ih =>
    unfold Dev.admitLate
    split
    · rfl
    · simp only [apply_ite Dev.unreported, ih, Dev.unreported_holdEntry, Dev.unreported_setRing, ite_self]

theorem Dev.unreported_drainRounds (d : Dev) (m fuel : Nat) : (d.drainRounds m fuel).unreported = d.unreported := by
  induction fuel generalizing d with
  | zero => rfl
  | succ k ih => rw [Dev.drainRounds, ih, Dev.unreported_admitLate, Dev.unreported_drainHold]

theorem Dev.unreported_drainList (d : Dev) (l : List (Nat × RingEntry)) : (d.drainList l).unreported = d.unreported := by
  induction l generalizing d with
  | nil => rfl
  | cons x t ih =>
    simp only [Dev.drainList, apply_ite Dev.unreported, ih, Dev.unreported_writeEntry, Dev.unreported_hif, ite_self]

@[simp] theorem Dev.unreported_drainBacklog (d : Dev) : d.drainBacklog.unreported = d.unreported := by
  simp only [Dev.drainBacklog, apply_ite Dev.unreported, Dev.unreported_postEvent, Dev.unreported_hif, Dev.unreported_drainList, ite_self]

theorem Dev.unreported_msixPending (d : Dev) : d.msixPending.unreported = d.unreported :=
  foldl_proj Dev.unreported _ (fun e v => by
    simp only [apply_ite Dev.unreported, Dev.unreported_emit, Dev.unreported_wr, ite_self]) _ d

theorem Dev.unreported_sendOwed (d : Dev) : d.sendOwed.unreported = d.unreported := by
  refine (foldl_proj Dev.unreported _ (fun e x => by rw [Dev.unreported_signalRing, Dev.unreported_setRing]) _ _).trans ?_
  rw [apply_ite Dev.unreported, Dev.unreported_msixPending, ite_self]

/-- What waits for a function's requests goes on in the reporting stores alone. -/
@[simp] theorem Dev.unreported_drainAll (d : Dev) : d.drainAll.unreported = d.unreported := by
  rw [Dev.drainAll, Dev.unreported_sendOwed, foldl_proj Dev.unreported _ (fun e m => by
    rw [Dev.drainRing, Dev.unreported_drainBacklog, Dev.unreported_drainRounds]), Dev.unreported_drainBacklog]

@[simp] theorem Dev.unreported_finishJob (d : Dev) (id st r0 r1 r2 : Nat) : (d.finishJob id st r0 r1 r2).unreported = d.unreported := by
  unfold Dev.finishJob
  split
  · rfl
  · rw [Dev.unreported_hif, Dev.unreported_addTo]

/-! ## What the blocks at work leave of the device -/

/-- The device but for the stores of the blocks that carry frames, records, table jobs and collectives, of the service cores, and of reporting. -/
def Dev.unworked (d : Dev) : Dev := { d.unreported with phy := {}, dp := {}, tlm := {}, tbl := {}, sump := {}, gth := {}, svc := {} }

theorem Dev.unworked_of_unreported {d e : Dev} (h : e.unreported = d.unreported) : e.unworked = d.unworked := by
  rw [Dev.unworked, h, Dev.unworked]

@[simp] theorem Dev.unworked_wr (d : Dev) (f : Fld) (ix : List Nat) (v : Nat) : (d.wr f ix v).unworked = d.unworked := by unfold Dev.unworked; rfl
@[simp] theorem Dev.unworked_emit (d : Dev) (o : Output) : (d.emit o).unworked = d.unworked := by unfold Dev.unworked; rfl
@[simp] theorem Dev.unworked_phy (d : Dev) (x : Phy) : ({ d with phy := x } : Dev).unworked = d.unworked := by unfold Dev.unworked; rfl
@[simp] theorem Dev.unworked_dp (d : Dev) (x : Dp) : ({ d with dp := x } : Dev).unworked = d.unworked := by unfold Dev.unworked; rfl
@[simp] theorem Dev.unworked_tlm (d : Dev) (x : Tlm) : ({ d with tlm := x } : Dev).unworked = d.unworked := by unfold Dev.unworked; rfl
@[simp] theorem Dev.unworked_sump (d : Dev) (x : Sump) : ({ d with sump := x } : Dev).unworked = d.unworked := by unfold Dev.unworked; rfl
@[simp] theorem Dev.unworked_setPort (d : Dev) (n : Nat) (x : PortSt) : (d.setPort n x).unworked = d.unworked := by unfold Dev.unworked; rfl
@[simp] theorem Dev.unworked_setLane (d : Dev) (n : Nat) (x : LaneSt) : (d.setLane n x).unworked = d.unworked := by unfold Dev.unworked; rfl
@[simp] theorem Dev.unworked_setStream (d : Dev) (n : Nat) (x : Stream) : (d.setStream n x).unworked = d.unworked := by unfold Dev.unworked; rfl
@[simp] theorem Dev.unworked_setEgrPort (d : Dev) (n : Nat) (x : EgrPort) : (d.setEgrPort n x).unworked = d.unworked := by unfold Dev.unworked; rfl
@[simp] theorem Dev.unworked_modPkt (d : Dev) (u : Nat) (f : Pkt → Pkt) : (d.modPkt u f).unworked = d.unworked := by unfold Dev.unworked; rfl
@[simp] theorem Dev.unworked_modCopy (d : Dev) (u : Nat) (f : Copy → Copy) : (d.modCopy u f).unworked = d.unworked := by unfold Dev.unworked; rfl
@[simp] theorem Dev.unworked_setCtx (d : Dev) (x : Ctx) : (d.setCtx x).unworked = d.unworked := by unfold Dev.unworked; rfl

@[simp] theorem Dev.unworked_inc (d : Dev) (f : Fld) (ix : List Nat) : (d.inc f ix).unworked = d.unworked :=
  Dev.unworked_of_unreported (d.unreported_inc f ix)

@[simp] theorem Dev.unworked_pmc (d : Dev) (u code n : Nat) : (d.pmc u code n).unworked = d.unworked :=
  Dev.unworked_of_unreported (d.unreported_pmc u code n)

@[simp] theorem Dev.unworked_charge (d : Dev) (j : Option Nat) (i n : Nat) : (d.charge j i n).unworked = d.unworked :=
  Dev.unworked_of_unreported (d.unreported_charge j i n)

@[simp] theorem Dev.unworked_dmaWrote (d : Dev) (j : Option Nat) (n : Nat) : (d.dmaWrote j n).unworked = d.unworked :=
  Dev.unworked_of_unreported (d.unreported_dmaWrote j n)

@[simp] theorem Dev.unworked_finishJob (d : Dev) (id st r0 r1 r2 : Nat) : (d.finishJob id st r0 r1 r2).unworked = d.unworked :=
  Dev.unworked_of_unreported (d.unreported_finishJob id st r0 r1 r2)

/-! ### Ports and lanes -/

@[simp] theorem Dev.unworked_linkEvent (d : Dev) (sub p stat : Nat) : (d.linkEvent sub p stat).unworked = d.unworked := by
  simp only [Dev.linkEvent, apply_ite Dev.unworked, Dev.unworked_of_unreported (Dev.unreported_postEvent _ _ _), ite_self]

@[simp] theorem Dev.unworked_portSignal (d : Dev) (p : Nat) (s : PortSignal) (was now : Bool) :
    (d.portSignal p s was now).unworked = d.unworked := by
  simp only [Dev.portSignal, apply_ite Dev.unworked, Dev.unworked_emit, ite_self]

@[simp] theorem Dev.unworked_setTxLpi (d : Dev) (p : Nat) (b : Bool) : (d.setTxLpi p b).unworked = d.unworked := by
  rw [Dev.setTxLpi, Dev.unworked_setPort, Dev.unworked_portSignal]

@[simp] theorem Dev.unworked_updateLink (d : Dev) (p : Nat) : (d.updateLink p).unworked = d.unworked := by
  simp only [Dev.updateLink, Dev.settleFault, Dev.dropMarks, Dev.linkRose, apply_ite Dev.unworked, Dev.unworked_linkEvent,
    Dev.unworked_setPort, Dev.unworked_portSignal, Dev.unworked_dp, Dev.unworked_wr, Dev.unworked_inc, ite_self]

theorem Dev.unworked_portDown (d : Dev) (p phase : Nat) : (d.portDown p phase).unworked = d.unworked := by
  have lanesOff : ∀ (l : List Nat) (e : Dev), (l.foldl Dev.laneOff e).unworked = e.unworked :=
    foldl_proj Dev.unworked Dev.laneOff fun e n => by
      simp only [Dev.laneOff, apply_ite Dev.unworked, Dev.unworked_setLane, Dev.unworked_wr, ite_self]
  have reaches : ∀ (l : List Nat) (e : Dev), (l.foldl Dev.takeReach e).unworked = e.unworked :=
    foldl_proj Dev.unworked Dev.takeReach fun e n => e.unworked_setLane n _
  simp only [Dev.portDown, Dev.setDegraded, apply_ite Dev.unworked, Dev.unworked_updateLink, Dev.unworked_setPort,
    Dev.unworked_setTxLpi, Dev.unworked_portSignal, Dev.unworked_wr, lanesOff, reaches, ite_self]

@[simp] theorem Dev.unworked_laneChanged (d : Dev) (n : Nat) : (d.laneChanged n).unworked = d.unworked := by
  unfold Dev.laneChanged
  split
  · simp only [Dev.checkMismatch, apply_ite Dev.unworked, Dev.unworked_linkEvent, Dev.unworked_portDown, Dev.unworked_setPort, ite_self]
  · rfl

/-! ### Telemetry records -/

@[simp] theorem Dev.unworked_scatter (d : Dev) (fn : Nat) (l : List (Nat × Nat)) (off : Nat) (bytes : List Byte) :
    (d.scatter fn l off bytes).unworked = d.unworked := by
  induction l generalizing d off bytes with
  | nil => rfl
  | cons a t ih =>
    rw [Dev.scatter]
    simp only [apply_ite Dev.unworked, ih, Dev.unworked_emit, ite_self]

theorem Dev.unworked_streamFull (d : Dev) (s : Nat) : (d.streamFull s).unworked = d.unworked := by
  unfold Dev.streamFull
  split
  · rfl
  · simp only [apply_ite Dev.unworked, Dev.unworked_finishJob, Dev.unworked_setStream, ite_self]

theorem Dev.unworked_streamWrite (d : Dev) (s : Nat) : (d.streamWrite s).unworked = d.unworked := by
  have keep : ∀ (e : Dev) (r : List Byte), (e.keepSample s r).unworked = e.unworked := fun e r => by
    unfold Dev.keepSample
    split <;> rfl
  unfold Dev.streamWrite
  dsimp only
  split
  · rfl
  · split
    · rfl
    · split
      · rw [keep, Dev.unworked_emit, Dev.unworked_setStream]
      · split
        · rfl
        · simp only [apply_ite Dev.unworked, Dev.unworked_streamFull, Dev.unworked_setStream, Dev.unworked_dmaWrote,
            Dev.unworked_scatter, ite_self]

theorem Dev.unworked_streamPump (d : Dev) (s fuel : Nat) : (d.streamPump s fuel).unworked = d.unworked := by
  induction fuel generalizing d with
  | zero => rfl
  | succ n ih => rw [Dev.streamPump, ih, Dev.unworked_streamWrite]

@[simp] theorem Dev.unworked_cullet (d : Dev) (trace : Option Nat) (cp : Nat) (bit port : Option Nat) (data : List Byte) :
    (d.cullet trace cp bit port data).unworked = d.unworked := by
  have record : ∀ body, (d.record 1 body).unworked = d.unworked := fun body => by
    simp only [Dev.record, apply_ite Dev.unworked, Dev.unworked_inc, Dev.unworked_wr, Dev.unworked_streamPump,
      Dev.unworked_setStream, ite_self]
  cases trace with
  | none => rfl
  | some id => simp only [Dev.cullet, apply_ite Dev.unworked, record, ite_self]

/-! ### Frames, copies and queues -/

theorem Dev.unworked_refit (d : Dev) (u : Nat) : (d.refit u).unworked = d.unworked := by
  have cell : ∀ (e : Dev) (j : Nat), (e.writeCell u j 0x32 none).unworked = e.unworked := fun e j => by
    unfold Dev.writeCell
    split
    · rfl
    · split
      · rfl
      · simp only [Dev.unworked_charge, Dev.unworked_pmc, Dev.unworked_modPkt]
  unfold Dev.refit
  split
  · rfl
  · split
    · rfl
    · exact foldl_proj Dev.unworked _ cell _ _

theorem Dev.unworked_evalCopy (d : Dev) (ig : Option (Nat × Nat)) : (d.evalCopy ig).unworked = d.unworked := by
  cases ig with
  | none => rfl
  | some x => simp only [Dev.evalCopy, Dev.evalXoff, Dev.setXoff, Dev.wakeLpi, apply_ite Dev.unworked, Dev.unworked_setPort,
      Dev.unworked_setTxLpi, Dev.unworked_setEgrPort, Dev.unworked_wr, ite_self]

theorem Dev.unworked_releaseCopy (d : Dev) (u : Nat) : (d.releaseCopy u).unworked = d.unworked := by
  have deficit : ∀ (e : Dev) (v : Nat), (e.resetDeficit v).unworked = e.unworked := fun e v => by
    simp only [Dev.resetDeficit, apply_ite Dev.unworked, Dev.unworked_setEgrPort, ite_self]
  unfold Dev.releaseCopy
  split
  · rfl
  · split
    · rfl
    · dsimp only
      rw [deficit, Dev.unworked_evalCopy]
      split
      · simp only [Dev.freeFrame, apply_ite Dev.unworked, Dev.unworked_pmc, Dev.unworked_refit, Dev.unworked_modPkt,
          Dev.unworked_modCopy, ite_self]
      · rfl

@[simp] theorem Dev.unworked_removeCopy (d : Dev) (u : Nat) : (d.removeCopy u).unworked = d.unworked := by
  have lost : ∀ (e : Dev) (v : Nat), (e.queueLost v).unworked = e.unworked := fun e v => by
    simp only [Dev.queueLost, apply_ite Dev.unworked, Dev.unworked_setEgrPort, ite_self]
  unfold Dev.removeCopy
  dsimp only
  split
  · exact (lost _ _).trans (d.unworked_releaseCopy u)
  · exact d.unworked_releaseCopy u

@[simp] theorem Dev.unworked_finalRecord (d : Dev) (c : Copy) (cp : Nat) (data : List Byte) :
    (d.finalRecord c cp data).unworked = d.unworked := by
  have free : ∀ (e : Dev) (t : Option Nat), (e.freeTrace t).unworked = e.unworked := fun _ t => by cases t <;> rfl
  unfold Dev.finalRecord
  split
  · rfl
  · simp only [apply_ite Dev.unworked, Dev.unworked_modPkt, free, Dev.unworked_cullet, ite_self]

/-! ### The deep store -/

theorem Dev.unworked_loseCopy (d : Dev) (r u : Nat) : (d.loseCopy r u).unworked = d.unworked := by
  have unbatch : ∀ e : Dev, (e.unbatch u).unworked = e.unworked := fun _ => rfl
  unfold Dev.loseCopy
  split
  · rfl
  · split
    · rfl
    · rw [Dev.unworked_removeCopy, unbatch, Dev.unworked_finalRecord, Dev.unworked_inc]

theorem Dev.unworked_linkBatches (d : Dev) (n fuel : Nat) : (d.linkBatches n fuel).unworked = d.unworked := by
  have record : ∀ (e : Dev) (u seq : Nat), (e.batchRecord u 0x24 n seq []).unworked = e.unworked := fun e u seq => by
    unfold Dev.batchRecord
    split
    · exact e.unworked_cullet _ _ _ _ _
    · rfl
  have segs : ∀ (l : List Seg) (seq : Nat) (e : Dev),
      (l.foldl (fun d s => (d.linkSeg s).batchRecord s.copy 0x24 n seq []) e).unworked = e.unworked := fun l seq =>
    foldl_proj Dev.unworked _ (fun e s => (record _ _ _).trans (e.unworked_modCopy _ _)) l
  induction fuel generalizing d with
  | zero => rfl
  | succ k ih =>
    unfold Dev.linkBatches
    split
    · rfl
    · split
      · rfl
      · simp only [apply_ite Dev.unworked, ih, Dev.unworked_setCtx, segs, ite_self]

theorem Dev.unworked_linkBack (d : Dev) (n : Nat) : (d.linkBack n).unworked = d.unworked := by
  have wake : ∀ (l : List Nat) (e : Dev), (wakeQueues d e l).unworked = e.unworked :=
    foldl_proj Dev.unworked _ fun e q => by
      have set : ∀ (x : Dev) (p q : Nat) (y : LehrQ), (x.setLehrQ p q y).unworked = x.unworked := fun _ _ _ _ => rfl
      simp only [Dev.lehrUpdate, apply_ite Dev.unworked, set, Dev.unworked_pmc, ite_self]
  unfold Dev.linkBack
  split
  · rw [wake, Dev.unworked_linkBatches]
  · rfl

theorem Dev.unworked_dropPort (d : Dev) (k : Nat) (x : Ctx) : (d.dropPort k x).unworked = d.unworked := by
  have lose : ∀ (l : List Batch) (e : Dev), (l.foldl (fun d b => d.loseBatch 2 b) e).unworked = e.unworked :=
    foldl_proj Dev.unworked _ fun e b => foldl_proj Dev.unworked _ (fun e u => e.unworked_loseCopy 2 u) _ e
  unfold Dev.dropPort
  dsimp only
  split
  · rw [Dev.unworked_linkBack, Dev.unworked_setCtx, lose]
  · exact lose _ _

/-- What a port that goes down loses, before its fault is raised. -/
theorem Dev.unworked_portLosses (d : Dev) (k : Nat) : (d.portLosses k).unworked = d.unworked := by
  have image : ∀ e : Dev, (e.imageLost k).unworked = e.unworked := fun _ => rfl
  rw [Dev.portLosses, apply_ite Dev.unworked, image, foldl_proj Dev.unworked _ (fun e x => e.unworked_dropPort k x), ite_self]

/-! ## What faults do to the device (R395 to R402, R406) -/

section FaultSteps

variable {R : Dev → Dev → Prop} (hrefl : ∀ d, R d d) (htrans : ∀ a b c, R a b → R b c → R a c)
  (hreport : ∀ d e : Dev, e.unreported = d.unreported → R d e) (hspl : ∀ (d : Dev) (x : Spl), R d { d with spl := x })
  (hsafe : ∀ (d : Dev) (k : Nat), R d (d.enterSafe k))

include htrans hreport hsafe in
theorem Dev.fatal_rel (d : Dev) (k : Nat) (f : FaultIn) : R d (d.fatal k f) := by
  unfold Dev.fatal
  refine htrans _ _ _ (hreport _ _ ?_) (hsafe _ k)
  split <;> simp only [Dev.unreported_wr]

include hrefl htrans

theorem foldl_rel {α β : Type} (π : β → Dev) {f : β → α → β} (h : ∀ b a, R (π b) (π (f b a))) (l : List α) (b : β) :
    R (π b) (π (l.foldl f b)) := by
  induction l generalizing b with
  | nil => exact hrefl _
  | cons a t ih => exact htrans _ _ _ (h b a) (ih _)

include hreport hspl

theorem Dev.recordOrLose_rel (e : Dev × Nat) (r : FaultRec) (b c : Bool) : R e.1 (Dev.recordOrLose e r b c).1 := by
  unfold Dev.recordOrLose
  split
  · exact htrans _ _ _ (hspl e.1 { e.1.spl with records := e.1.spl.records ++ [{ r with zeroed := e.1.zeroedIn r.seq }] })
      (hreport _ _ ((Dev.unreported_wr _ _ _ _).trans (Dev.unreported_wr _ _ _ _)))
  · split
    · exact hreport _ _ (Dev.unreported_inc _ _ _)
    · exact hrefl _

include hsafe

theorem Dev.clockFaults_rel (d : Dev) (k : Nat) (fs : List FaultIn) (c : Bool) : R d (d.clockFaults k fs c).1 := by
  have count : ∀ (l : List FaultIn) (e : Dev), (l.foldl (fun e f => e.countFault k f) e).unreported = e.unreported :=
    foldl_proj Dev.unreported _ fun e f => by
      simp only [Dev.countFault, apply_ite Dev.unreported, Dev.unreported_inc, ite_self]
  have fill : ∀ (e : Dev) (f : FaultIn), (e.fillLatch k f).unreported = e.unreported := fun e f => by
    simp only [Dev.fillLatch, Dev.unreported_wr, Dev.unreported_setRaw]
  have event : ∀ (e : Dev) (f : FaultIn), (e.faultEvent k f).unreported = e.unreported := fun e f => by
    simp only [Dev.faultEvent, apply_ite Dev.unreported, Dev.unreported_postEvent, ite_self]
  have fatals : ∀ (first : Option FaultIn) (l : List FaultIn) (e : Dev × Nat), R e.1 (l.foldl (fun e f =>
      let e := if first = some f || e.1.faultMasked k f.src then e
        else Dev.recordOrLose e (e.1.faultRecord k f true (e.1.on F.SPL_LATCH_INJ_SEEN [k])) true c
      (e.1.fatal k f, e.2)) e).1 := fun first => foldl_rel hrefl htrans Prod.fst fun e f => by
    refine htrans _ _ _ ?_ (Dev.fatal_rel htrans hreport hsafe _ k f)
    split
    · exact hrefl _
    · exact Dev.recordOrLose_rel hrefl htrans hreport hspl _ _ _ _
  unfold Dev.clockFaults
  dsimp only
  split
  · refine htrans _ _ _ (htrans _ _ _ (htrans _ _ _ (hreport _ _ ?_) (Dev.recordOrLose_rel hrefl htrans hreport hspl _ _ _ _))
      (fatals _ _ _)) (hreport _ _ (event _ _))
    simp only [apply_ite Dev.unreported, Dev.unreported_wr, fill, ite_self, count]
  · refine htrans _ _ _ (hreport _ _ ?_) (fatals _ _ _)
    simp only [apply_ite Dev.unreported, Dev.unreported_wr, ite_self, count]

/-- The faults of a clock are reports, changes of Spall's own state, and entries into the safe state: what all three keep, they
keep. -/
theorem Dev.raiseAll_rel (d : Dev) (k : Nat) (fs : List FaultIn) : R d (d.raiseAll k fs) := by
  have clock := Dev.clockFaults_rel hrefl htrans hreport hspl hsafe
  have loss : ∀ (n : Nat) (e : Dev), R e (e.lossFaults n) := fun n => by
    induction n with
    | zero => exact hrefl
    | succ n ih => exact fun e => htrans _ _ _ (clock e 60 _ false) (ih _)
  exact htrans _ _ _ (clock d k fs true) (loss _ _)

end FaultSteps

/-- What reports, Spall's own state and an entry into the safe state leave alone, faults leave alone. -/
theorem Dev.proj_raiseAll {γ : Type} (π : Dev → γ) (hreport : ∀ d e : Dev, e.unreported = d.unreported → π e = π d)
    (hspl : ∀ (d : Dev) (x : Spl), π { d with spl := x } = π d) (hsafe : ∀ (d : Dev) (k : Nat), π (d.enterSafe k) = π d)
    (d : Dev) (k : Nat) (fs : List FaultIn) : π (d.raiseAll k fs) = π d :=
  Dev.raiseAll_rel (R := fun d e => π e = π d) (fun _ => rfl) (fun _ _ _ h1 h2 => h2.trans h1) hreport hspl hsafe d k fs

/-! ## The entry into the safe state and the beginning of a reset (R406, R415, R417) -/

/-- What an entry into the safe state leaves but for the safe state itself: the end of the jobs, which is reporting, and stores that
it empties. -/
theorem Dev.enterSafe_proj {γ : Type} (π : Dev → γ) (hreport : ∀ d e : Dev, e.unreported = d.unreported → π e = π d)
    (hmark : ∀ (d : Dev) (x : Spl), π { d with safe := true, spl := x } = π d)
    (hends : ∀ (d : Dev) (t : Tlm) (l : List TblJob), π { d with tlm := t, tbl := { d.tbl with jobs := l } } = π d)
    (d : Dev) (k : Nat) : π (d.enterSafe k) = π d := by
  unfold Dev.enterSafe
  split
  · rfl
  · dsimp only
    rw [foldl_proj π (fun d c => d.emit (.coreIrq c)) fun e c => hreport _ _ (e.unreported_emit _)]
    generalize he : List.foldl _ _ (List.map _ _) = e
    have hjobs : π e = π ({ d with safe := true, spl := { d.spl with safeBy := k } } : Dev) := by
      rw [← he, foldl_proj π (fun d id => d.abortJob id) fun e id => hreport _ _ (e.unreported_finishJob _ _ _ _ _)]
      exact hreport _ _ (Dev.unreported_emit _ _)
    exact (hends { e with hif := { e.hif with rxBufs := [] } } _ _).trans
      ((hreport _ _ (e.unreported_hif _)).trans (hjobs.trans (hmark d _)))

theorem Dev.safe_of_unreported {d e : Dev} (h : e.unreported = d.unreported) : e.safe = d.safe := by
  have := congrArg Dev.safe h
  exact this

theorem Dev.resets_of_unreported {d e : Dev} (h : e.unreported = d.unreported) : e.resets = d.resets := by
  have := congrArg Dev.resets h
  exact this

theorem Dev.otp_of_unreported {d e : Dev} (h : e.unreported = d.unreported) : e.otp = d.otp := by
  have := congrArg Dev.otp h
  exact this

theorem Dev.safe_of_unworked {d e : Dev} (h : e.unworked = d.unworked) : e.safe = d.safe := by
  have := congrArg Dev.safe h
  exact this

theorem Dev.otp_of_unworked {d e : Dev} (h : e.unworked = d.unworked) : e.otp = d.otp := by
  have := congrArg Dev.otp h
  exact this

theorem Dev.enterSafe_safe (d : Dev) (k : Nat) : (d.enterSafe k).safe = true := by
  unfold Dev.enterSafe
  split
  next h => exact h
  · dsimp only
    rw [foldl_proj Dev.safe _ fun e c => e.emit_safe _]
    exact foldl_proj Dev.safe (fun d id => d.abortJob id)
      (fun e id => Dev.safe_of_unreported (e.unreported_finishJob _ _ _ _ _)) _ _

theorem Dev.enterSafe_resets (d : Dev) (k : Nat) : (d.enterSafe k).resets = d.resets :=
  Dev.enterSafe_proj Dev.resets (fun _ _ => Dev.resets_of_unreported) (fun _ _ => rfl) (fun _ _ _ => rfl) d k

theorem Dev.raiseAll_safe {d : Dev} (h : d.safe = true) (k : Nat) (fs : List FaultIn) : (d.raiseAll k fs).safe = true :=
  Dev.raiseAll_rel (R := fun d e => d.safe = true → e.safe = true) (fun _ => id) (fun _ _ _ f g => g ∘ f)
    (fun _ _ he hd => (Dev.safe_of_unreported he).trans hd) (fun _ _ => id) (fun e k _ => e.enterSafe_safe k) d k fs h

theorem Dev.raiseAll_otp (d : Dev) (k : Nat) (fs : List FaultIn) : (d.raiseAll k fs).otp = d.otp :=
  Dev.proj_raiseAll Dev.otp (fun _ _ => Dev.otp_of_unreported) (fun _ _ => rfl)
    (Dev.enterSafe_proj Dev.otp (fun _ _ => Dev.otp_of_unreported) (fun _ _ => rfl) fun _ _ _ => rfl) d k fs

/-! ## The end of jobs with their rings (R356, R360) -/

/-- The device but for the stores that the end of jobs changes: registers, the host interface, groups and contexts of the engines,
streams, table jobs, injected frames that wait. -/
def Dev.unended (d : Dev) : Dev :=
  { d with regs := [], hif := {}, gth := {}, tlm := {}, tbl := { d.tbl with jobs := [], paths := [] }
           dp := { d.dp with inject := [], entryCredit := [] } }

theorem Dev.unworked_of_unended {d e : Dev} (h : e.unended = d.unended) : e.unworked = d.unworked := by
  have := congrArg Dev.unworked h
  exact this

theorem Dev.unended_wr (d : Dev) (f : Fld) (ix : List Nat) (v : Nat) : (d.wr f ix v).unended = d.unended := by unfold Dev.unended; rfl

theorem Dev.unended_hif (d : Dev) (x : Hif) : ({ d with hif := x } : Dev).unended = d.unended := by unfold Dev.unended; rfl

theorem Dev.raw_hif (d : Dev) (x : Hif) (r : Reg) (ix : List Nat) : ({ d with hif := x } : Dev).raw r ix = d.raw r ix := rfl

theorem keyId_key (r : Reg) (ix : List Nat) (h : r.id < 4096) : keyId (r.key ix) = r.id := by
  unfold keyId Reg.key Reg.keyAt
  omega

/-- What the host's configuration, the pins and the link's training set of the host interface: the level of PERST_N, the HIF reset
that it holds, what the link trains to, Bus Master Enable, the MSI vectors and configuration space. -/
def Hif.pins (x : Hif) : (Bool × Bool × Nat) × Nat × Sparse Nat × Sparse PcieCfg :=
  ((x.perstLow, x.perstHold, x.train), x.busMaster, x.msiVectors, x.pcie)

def Dev.pins (d : Dev) : (Bool × Bool × Nat) × Nat × Sparse Nat × Sparse PcieCfg := d.hif.pins

theorem Hif.pins_backlog (x : Hif) (l : List (Nat × RingEntry)) : { x with backlog := l }.pins = x.pins := by unfold Hif.pins; rfl
theorem Hif.pins_lostSince (x : Hif) (n : Nat) : { x with lostSince := n }.pins = x.pins := by unfold Hif.pins; rfl
theorem Hif.pins_dmaWriteRem (x : Hif) (n : Nat) : { x with dmaWriteRem := n }.pins = x.pins := by unfold Hif.pins; rfl
theorem Hif.pins_ended (x : Hif) (js : List Job) (hs : List Hint) (fs : List (Nat × RingEntry)) :
    { x with jobs := js, hints := hs, finished := fs }.pins = x.pins := by unfold Hif.pins; rfl

theorem Dev.pins_hif (d : Dev) (x : Hif) : ({ d with hif := x } : Dev).pins = x.pins := by unfold Dev.pins; rfl
theorem Dev.hif_pins (d : Dev) : d.hif.pins = d.pins := by rw [Dev.pins]
theorem Dev.pins_setRing (d : Dev) (n : Nat) (r : Ring) : (d.setRing n r).pins = d.pins := by unfold Dev.pins Hif.pins; rfl
theorem Dev.pins_emit (d : Dev) (o : Output) : (d.emit o).pins = d.pins := by unfold Dev.pins; rfl
theorem Dev.pins_setRaw (d : Dev) (r : Reg) (ix : List Nat) (v : Nat) : (d.setRaw r ix v).pins = d.pins := by unfold Dev.pins; rfl
theorem Dev.pins_wr (d : Dev) (f : Fld) (ix : List Nat) (v : Nat) : (d.wr f ix v).pins = d.pins := by unfold Dev.pins; rfl

/-- A register that neither the host interface's reset nor the end of jobs changes. -/
def Endless (k : Nat) : Prop :=
  keyWin k ∉ [R.HIF_CFG.win, R.RING_CTL.win, R.MBX_STAT.win] ∧
  (keyWin k ≠ R.ANL_RING_ENERGY.win ∨ keyId k ≠ R.ANL_RING_ENERGY.id) ∧ ∀ n, k ≠ R.GTH_HOLD_EXP.key [n]

/-- What the end of jobs can do. -/
structure Ended (d e : Dev) : Prop where
  rest : e.unended = d.unended
  raw : ∀ r ix, Endless (r.key ix) → e.raw r ix = d.raw r ix
  pins : e.pins = d.pins

namespace Ended

variable {d e f : Dev}

theorem refl (d : Dev) : Ended d d := ⟨rfl, fun _ _ _ => rfl, rfl⟩

theorem trans (h1 : Ended d e) (h2 : Ended e f) : Ended d f :=
  ⟨h2.rest.trans h1.rest, fun r ix h => (h2.raw r ix h).trans (h1.raw r ix h), h2.pins.trans h1.pins⟩

theorem foldl {α : Type} {g : Dev → α → Dev} (h : ∀ d a, Ended d (g d a)) (l : List α) (d : Dev) : Ended d (l.foldl g d) := by
  induction l generalizing d with
  | nil => exact refl d
  | cons a t ih => exact (h d a).trans (ih _)

/-- A change of the stores that `Dev.unended` leaves out. -/
theorem of_regs (h : e.unended = d.unended) (hr : e.regs = d.regs) (hp : e.pins = d.pins) : Ended d e :=
  ⟨h, fun r ix _ => by rw [Dev.raw, hr, Dev.raw], hp⟩

theorem inc_holdExp (d : Dev) (k : Nat) : Ended d (d.inc F.GTH_HOLD_EXP_COUNT [k]) := by
  obtain ⟨v, h⟩ := d.addTo_eq F.GTH_HOLD_EXP_COUNT [k] 1
  rw [Dev.inc, h]
  exact ⟨d.unended_wr _ _ _, fun r ix hk => d.raw_wr_of_key _ r [k] ix v (hk.2.2 k), d.pins_wr _ _ _⟩

theorem finishJob (d : Dev) (id st r0 r1 r2 : Nat) : Ended d (d.finishJob id st r0 r1 r2) := by
  unfold Dev.finishJob
  split
  · exact refl d
  next j _ =>
    obtain ⟨v, h⟩ := d.addTo_eq F.ANL_RING_ENERGY_COUNT [j.sub.ring] (j.energy / (16 * 640000 * 1000))
    dsimp only
    rw [h]
    refine ⟨by rw [Dev.unended_hif, Dev.unended_wr], fun r ix hk => ?_, by rw [Dev.pins_hif, Hif.pins_ended, Dev.hif_pins, Dev.pins_wr]⟩
    rw [Dev.raw_hif]
    refine d.raw_wr_of_key _ r [j.sub.ring] ix v fun he => ?_
    obtain ⟨_, henergy, _⟩ := hk
    rw [he] at henergy
    revert henergy
    rw [keyWin_key _ _ (by decide), keyId_key _ _ (by decide)]
    exact fun h => h.elim (· rfl) (· rfl)

theorem setGroup (d : Dev) (g : Group) : Ended d (d.setGroup g) := of_regs (by unfold Dev.unended; rfl) rfl (by unfold Dev.pins Hif.pins; rfl)

theorem freeCtxs (d : Dev) (k : Nat) (p : GCtx → Bool) : Ended d (d.freeCtxs k p) := of_regs (by unfold Dev.unended; rfl) rfl (by unfold Dev.pins Hif.pins; rfl)

theorem retireStep (d : Dev) (g : Group) (s : GStep) : Ended d (d.retireStep g s) := by
  have freed := freeCtxs d g.slot (fun c => c.step == s.step)
  have counted : Ended d (if s.expired then g.list.foldl (fun d k => d.inc F.GTH_HOLD_EXP_COUNT [k])
      (d.freeCtxs g.slot (fun c => c.step == s.step)) else d.freeCtxs g.slot (fun c => c.step == s.step)) := by
    split
    · exact freed.trans (foldl (fun d k => inc_holdExp d k) _ _)
    · exact freed
  unfold Dev.retireStep
  dsimp only
  split
  · exact counted.trans (setGroup _ _)
  · split
    · exact counted.trans (setGroup _ _)
    · split
      · exact (counted.trans (setGroup _ _)).trans (finishJob _ _ _ _ _ _)
      · exact counted.trans (setGroup _ _)

theorem retireUpTo (d : Dev) (slot fuel : Nat) : Ended d (d.retireUpTo slot fuel) := by
  induction fuel generalizing d with
  | zero => exact refl d
  | succ n ih =>
    rw [Dev.retireUpTo]
    split
    · exact refl d
    · split
      · exact refl d
      · split
        · exact (retireStep _ _ _).trans (ih _)
        · exact refl d

theorem retire (d : Dev) (slot : Nat) : Ended d (d.retire slot) := by
  unfold Dev.retire
  split
  · exact refl d
  · exact retireUpTo _ _ _

theorem endOps (d : Dev) (p : Nat → Bool) (status : Option Nat) : Ended d (d.endOps p status) := by
  refine foldl (fun d x => ?_) _ d
  unfold Dev.endOp
  split
  · exact refl d
  · have freed := fun g => (freeCtxs d x.1 (fun c => x.2.has c.step)).trans (setGroup _ g)
    cases status with
    | none => exact (freed _).trans (retire _ _)
    | some st => exact ((freed _).trans (finishJob _ _ _ _ _ _)).trans (retire _ _)

theorem stopJob (d : Dev) (id : Nat) : Ended d (d.stopJob id).1 := by
  have table : ∀ e : Dev, Ended e (e.abortTable id) := fun e => by
    unfold Dev.abortTable
    split
    · exact refl e
    · exact of_regs (by unfold Dev.unended; rfl) rfl (by unfold Dev.pins Hif.pins; rfl)
  have inject : Ended d (d.abortInject id) := of_regs (by unfold Dev.unended; rfl) rfl (by unfold Dev.pins Hif.pins; rfl)
  exact (inject.trans (table _)).trans (of_regs (by unfold Dev.unended; rfl) rfl (by unfold Dev.pins Hif.pins; rfl))

theorem dropRingJobs (d : Dev) (p : Nat → Bool) : Ended d (d.dropRingJobs p) :=
  ((endOps d _ none).trans (foldl (fun d (j : Job) => stopJob d j.id) _ _)).trans (of_regs (by unfold Dev.unended; rfl) rfl (by unfold Dev.pins Hif.pins; rfl))

end Ended

/-! ## The stages of a release (R419, R420) -/

/-- The device with the straps of a release, and with the boot hold and the static address that follow them (R413, R414, R438). -/
def Dev.strapped (d : Dev) (smb : Nat) (slow : Bool) (boot : Nat) : Dev :=
  let d := if d.rst.level = some .powerOn then d.sample smb slow boot else d
  let d := d.wr F.PIN_BMC_STATIC_ADDR [] (0x60 + d.rd F.GLB_STRAP_SMB_ADDR [])
  d.wr F.RST_STAT_BOOT_HOLD [] (b2n (d.rd F.GLB_STRAP_BOOT [] == 1))

/-- The device with every switched domain off and the sequence at its start; the host interface stays in reset while PERST_N is low. -/
def Dev.begun (d : Dev) : Dev :=
  let e : Dev := { d.allOff with
    rst := { d.rst with level := none, seqOn := true, seq := seqOrder }, hif := { d.hif with perstHold := d.hif.perstLow } }
  if e.hif.perstLow then e.wr F.HIF_STAT_RST_BUSY [] 1 else e

theorem Dev.release_eq (d : Dev) (smb : Nat) (slow : Bool) (boot : Nat) :
    d.release smb slow boot = (d.strapped smb slow boot).begun.pdNext := by
  unfold Dev.release Dev.strapped Dev.begun
  rfl

/-! ## Effects that end no safe state and touch no one-time programmable bit -/

/-- The safe state and the one-time programmable bits. -/
def Dev.stays (d : Dev) : Bool × Otp := (d.safe, d.otp)

theorem Dev.stays_of_unworked {d e : Dev} (h : e.unworked = d.unworked) : e.stays = d.stays :=
  Prod.ext (Dev.safe_of_unworked h) (Dev.otp_of_unworked h)

theorem Dev.stays_wr (d : Dev) (f : Fld) (ix : List Nat) (v : Nat) : (d.wr f ix v).stays = d.stays :=
  Dev.stays_of_unworked (d.unworked_wr f ix v)
theorem Dev.stays_setRaw (d : Dev) (r : Reg) (ix : List Nat) (v : Nat) : (d.setRaw r ix v).stays = d.stays := rfl
theorem Dev.stays_svc (d : Dev) (x : Svc) : ({ d with svc := x } : Dev).stays = d.stays := rfl

theorem Dev.stays_pcieTrain (d : Dev) (w : Nat) : (d.pcieTrain w).stays = d.stays := by
  simp only [Dev.pcieTrain, apply_ite Dev.stays, Dev.stays_of_unworked (Dev.unworked_of_unreported (Dev.unreported_drainAll _)),
    Dev.stays_setRaw, ite_self]

/-- The safe state lasts, and the one-time programmable bits stay as they are. -/
structure Lasting (d e : Dev) : Prop where
  safe : d.safe = true → e.safe = true
  otp : e.otp = d.otp

theorem Dev.cxlDown_eq (d : Dev) (k src : Nat) : d.cxlDown k src =
    ((((d.wr F.CXL_ERR_LINK_DOWN [k] 1).inc F.CXL_LINK_DOWN_CNT_COUNT [k]).portLosses k).wr F.CXL_STAT_MEM_READY [k] 0).raiseAll 45
      [⟨src, k * 2 ^ 30, false⟩] := by
  unfold Dev.cxlDown Dev.sumpFault Dev.raise Dev.portLosses
  rfl

namespace Lasting

variable {d e f : Dev}

theorem refl (d : Dev) : Lasting d d := ⟨id, rfl⟩

theorem trans (h1 : Lasting d e) (h2 : Lasting e f) : Lasting d f := ⟨h2.safe ∘ h1.safe, h2.otp.trans h1.otp⟩

theorem of_eq (hs : e.safe = d.safe) (ho : e.otp = d.otp) : Lasting d e := ⟨fun h => hs.trans h, ho⟩

theorem of_unworked (h : e.unworked = d.unworked) : Lasting d e := of_eq (Dev.safe_of_unworked h) (Dev.otp_of_unworked h)

theorem of_unreported (h : e.unreported = d.unreported) : Lasting d e := of_unworked (Dev.unworked_of_unreported h)

theorem foldl {α : Type} {g : Dev → α → Dev} (h : ∀ d a, Lasting d (g d a)) (l : List α) (d : Dev) : Lasting d (l.foldl g d) := by
  induction l generalizing d with
  | nil => exact refl d
  | cons a t ih => exact (h d a).trans (ih _)

theorem raiseAll (d : Dev) (k : Nat) (fs : List FaultIn) : Lasting d (d.raiseAll k fs) :=
  ⟨fun h => Dev.raiseAll_safe h k fs, d.raiseAll_otp k fs⟩

theorem finishJob (d : Dev) (id st r0 r1 r2 : Nat) : Lasting d (d.finishJob id st r0 r1 r2) :=
  of_unreported (d.unreported_finishJob id st r0 r1 r2)

theorem drainAll (d : Dev) : Lasting d d.drainAll := of_unreported d.unreported_drainAll

theorem hifReset (d : Dev) (link space : Bool) : Lasting d (d.hifReset link space) :=
  (of_unworked (Dev.unworked_of_unended (Ended.dropRingJobs d (fun _ => true)).rest)).trans (of_eq rfl rfl)

theorem wr (d : Dev) (f : Fld) (ix : List Nat) (v : Nat) : Lasting d (d.wr f ix v) := of_unworked (d.unworked_wr f ix v)

theorem setRst (d : Dev) (x : RstSt) : Lasting d (d.setRst x) := of_eq rfl rfl

theorem pdNext (d : Dev) : Lasting d d.pdNext := by
  obtain ⟨x, hx | hx⟩ := d.pdNext_eq <;> rw [hx]
  · exact setRst d x
  · exact (wr d _ _ _).trans (setRst _ x)

theorem cxlDown (d : Dev) (k src : Nat) : Lasting d (d.cxlDown k src) := by
  have counted := (wr d F.CXL_ERR_LINK_DOWN [k] 1).trans (of_unworked (Dev.unworked_inc _ F.CXL_LINK_DOWN_CNT_COUNT [k]))
  rw [Dev.cxlDown_eq]
  generalize (d.wr F.CXL_ERR_LINK_DOWN [k] 1).inc F.CXL_LINK_DOWN_CNT_COUNT [k] = e at counted ⊢
  have lost := (counted.trans (of_unworked (e.unworked_portLosses k))).trans (wr _ F.CXL_STAT_MEM_READY [k] 0)
  exact lost.trans (raiseAll _ _ _)

theorem clearDomain (d : Dev) (n : Nat) : Lasting d (d.clearDomain n) := by
  have job : ∀ (e : Dev) (x : Injected), Lasting e (match x.job with
      | some j => e.finishJob j 6 0 0 0
      | none => e) := fun e x => by
    cases x.job with
    | none => exact refl e
    | some j => exact finishJob e j 6 0 0 0
  have waits : ∀ x : Dp, Lasting d { d with dp := x } := fun _ => of_eq rfl rfl
  have injections : Lasting d (d.dropInjections n) := (waits _).trans (foldl job _ _)
  have sealed : ∀ (e : Dev) (p : Nat → Bool), Lasting e (e.sealedEnd p) := fun e p =>
    foldl (fun e (j : Job) => finishJob e j.id 0 0 0 0) _ e
  exact (injections.trans (sealed _ _)).trans (of_eq rfl rfl)

theorem pdSwitch (d : Dev) (n : Nat) (up : Bool) : Lasting d (d.pdSwitch n up) := by
  have marked := setRst d { d.rst with pdActive := none }
  have on : ∀ e : Dev, Lasting e (e.setOn n up) := fun e => wr e _ _ _
  unfold Dev.pdSwitch
  dsimp only
  generalize d.setRst { d.rst with pdActive := none } = e at marked ⊢
  refine marked.trans (trans ?_ ((clearDomain _ n).trans (on _)))
  split
  · exact cxlDown e _ _
  · exact refl e

theorem of_stays (h : e.stays = d.stays) : Lasting d e := of_eq (congrArg Prod.fst h) (congrArg Prod.snd h)

theorem pdSettle (d : Dev) (n : Nat) (up : Bool) : Lasting d (d.pdSettle n up) := by
  have lanes : ∀ (l : List Nat) (x : Dev), (l.foldl (fun d i => d.laneChanged (8 * n + i)) x).stays = x.stays :=
    foldl_proj Dev.stays _ fun x i => Dev.stays_of_unworked (x.unworked_laneChanged _)
  have drain : ∀ (x : Dev) (g : Nat) (b : Bool), (x.setDrain g b).stays = x.stays := fun _ _ _ => rfl
  have endpoint : ∀ x : Dev, x.clearEndpoint.stays = x.stays := fun _ => rfl
  refine of_stays ?_
  simp only [Dev.pdSettle, Dev.checkHandover, apply_ite Dev.stays, Dev.stays_pcieTrain, lanes, drain, endpoint, Dev.stays_svc, ite_self]

theorem pdDone (d : Dev) : Lasting d d.pdDone := by
  cases h : d.rst.pdActive with
  | none => rw [Dev.pdDone, h]; exact refl d
  | some x =>
    rw [d.pdDone_eq h]
    exact ((pdSwitch d x.1 x.2).trans (pdSettle _ x.1 x.2)).trans (pdNext _)

theorem release (d : Dev) (smb : Nat) (slow : Bool) (boot : Nat) : Lasting d (d.release smb slow boot) := by
  have off : ∀ e : Dev, e.allOff.stays = e.stays := fun e => by
    rw [Dev.allOff]
    exact foldl_proj Dev.stays _ (fun e k => e.stays_wr _ _ _) _ e
  have level : ∀ (e : Dev) (x : RstSt) (y : Hif), ({ e with rst := x, hif := y } : Dev).stays = e.stays := fun _ _ _ => rfl
  have strapped : (d.strapped smb slow boot).stays = d.stays := by
    simp only [Dev.strapped, Dev.sample, apply_ite Dev.stays, Dev.stays_wr, ite_self]
  have begun : ∀ e : Dev, e.begun.stays = e.stays := fun e => by
    simp only [Dev.begun, apply_ite Dev.stays, Dev.stays_wr, level, off, ite_self]
  rw [Dev.release_eq]
  exact (of_stays ((begun _).trans strapped)).trans (pdNext _)

end Lasting

theorem Lasting.keepsSafe {d e : Dev} (h : Lasting d e) : KeepsSafe d e := fun hd _ => h.safe hd

theorem Lasting.keepsOtp {d e : Dev} (h : Lasting d e) : KeepsOtp d e := by
  rw [KeepsOtp, h.otp]
  exact ⟨fun hl => ⟨hl, rfl⟩, le_rfl⟩

/-! ## The beginning of a reset (R415, R417, R418) -/

/-- The device but for its registers. -/
def Dev.unstored (d : Dev) : Dev := { d with regs := [] }

theorem Dev.unstored_setRaw (d : Dev) (r : Reg) (ix : List Nat) (v : Nat) : (d.setRaw r ix v).unstored = d.unstored := by
  unfold Dev.unstored; rfl

theorem Dev.unstored_wr (d : Dev) (f : Fld) (ix : List Nat) (v : Nat) : (d.wr f ix v).unstored = d.unstored := by
  unfold Dev.unstored; rfl

theorem Dev.unstored_inc (d : Dev) (f : Fld) (ix : List Nat) : (d.inc f ix).unstored = d.unstored := by
  obtain ⟨v, h⟩ := d.addTo_eq f ix 1
  rw [Dev.inc, h, Dev.unstored_wr]

/-- What a reset of level `l` leaves of the device outside its registers. -/
def Dev.resetRest (d : Dev) (l : ResetLevel) : Dev where
  ns := if l == .warm then d.ns else 0
  frac := if l == .warm then d.frac else 0
  resets := d.resets + 1
  freeIdx := d.freeIdx
  out := d.out
  otp := d.otp
  rst := { level := some l, thermTrip := l == .warm && d.rst.thermTrip, seqOn := false, mono := d.rst.mono, refclk := d.rst.refclk }
  hif := { jobSeq := d.hif.jobSeq, perstLow := d.hif.perstLow, train := d.hif.train }
  spl := { records := if l == .warm then d.spl.records else [], flashLog := d.spl.flashLog, flashAt := d.spl.flashAt
           bootCount := d.spl.bootCount, bootLogged := d.spl.bootLogged
           d2dReplays := if l == .warm then d.spl.d2dReplays else [], deadRec := if l == .warm then d.spl.deadRec else [] }
  bmc := { tapReset := d.bmc.tapReset }

theorem Dev.unstored_resetTo (d : Dev) (l : ResetLevel) : (d.resetTo l).unstored = d.resetRest l := by
  simp only [Dev.resetTo, Dev.keepSag, apply_ite Dev.unstored, Dev.unstored_wr, ite_self]
  rfl

/-- The device at the beginning of a reset: SAFE_N rises where it was low, and a programming pulse of the OTP ends. -/
def Dev.ended (d : Dev) : Dev := (if d.safe then d.emit (.safeN false) else d).otpAbort

theorem Dev.unstored_beginReset (d : Dev) (l : ResetLevel) (cause supply mid : Nat) (aon : Bool) :
    (d.beginReset l cause supply mid aon).unstored = d.ended.resetRest l := by
  rw [← Dev.unstored_resetTo, Dev.ended]
  unfold Dev.beginReset
  simp only [apply_ite Dev.unstored, Dev.unstored_wr, Dev.unstored_setRaw, Dev.unstored_inc, ite_self]

/-- The device once the words of a broken programming pulse hold what they may (log 3): any values, where the key is not locked. -/
def Dev.keyLeft (d : Dev) : Dev :=
  let (ks, d) := (List.range 12).foldl (fun (x : List Nat × Dev) _ =>
    let (v, d) := x.2.free
    (x.1 ++ [bitsOf v.toNat 31 0], d)) ([], d)
  { d with otp := { d.otp with key := if d.otp.locked then d.otp.key else ks } }

theorem Dev.keyLeft_eq (d : Dev) : ∃ ks n, d.keyLeft =
    { d with freeIdx := n, otp := { d.otp with key := if d.otp.locked then d.otp.key else ks } } := by
  have values : ∀ (l : List Nat) (x : List Nat × Dev), ∃ ks n, l.foldl (fun (x : List Nat × Dev) _ =>
      let (v, d) := x.2.free
      (x.1 ++ [bitsOf v.toNat 31 0], d)) x = (ks, { x.2 with freeIdx := n }) := fun l => by
    induction l with
    | nil => exact fun x => ⟨x.1, x.2.freeIdx, rfl⟩
    | cons a t ih => exact fun x => ih _
  obtain ⟨ks, n, hv⟩ := values (List.range 12) ([], d)
  refine ⟨ks, n, ?_⟩
  rw [Dev.keyLeft, hv]

theorem Dev.otpAbort_pulse {d : Dev} (h : d.pulses = true) :
    d.otpAbort = ((d.wr F.SVC_OTP_CTL_BUSY [] 0).wr F.ANL_SAG_OTP_ABORT [] 1).keyLeft := if_pos h

theorem Dev.otpAbort_idle {d : Dev} (h : d.pulses = false) : d.otpAbort = d := if_neg (Bool.eq_false_iff.1 h)

/-- The end of a programming pulse touches neither the lock nor what stands under it. -/
theorem Dev.otpAbort_otp (d : Dev) : ∃ ks, d.otpAbort.otp = { d.otp with key := if d.otp.locked then d.otp.key else ks } := by
  cases h : d.pulses with
  | false => exact ⟨d.otp.key, by rw [Dev.otpAbort_idle h, ite_self]⟩
  | true =>
    obtain ⟨ks, n, he⟩ := ((d.wr F.SVC_OTP_CTL_BUSY [] 0).wr F.ANL_SAG_OTP_ABORT [] 1).keyLeft_eq
    exact ⟨ks, by rw [Dev.otpAbort_pulse h, he, Dev.wr_otp, Dev.wr_otp]⟩

theorem keepsOtp_otpAbort (d : Dev) : KeepsOtp d d.otpAbort := by
  obtain ⟨ks, h⟩ := d.otpAbort_otp
  rw [KeepsOtp, h]
  exact ⟨fun hl => ⟨hl, if_pos hl⟩, le_rfl⟩

theorem keepsOtp_beginReset (d : Dev) (l : ResetLevel) (cause supply mid : Nat) (aon : Bool) :
    KeepsOtp d (d.beginReset l cause supply mid aon) := by
  have hotp : (d.beginReset l cause supply mid aon).otp = d.ended.otp := by
    have := congrArg Dev.otp (d.unstored_beginReset l cause supply mid aon)
    exact this
  rw [KeepsOtp, hotp, Dev.ended]
  split
  · exact keepsOtp_otpAbort (d.emit _)
  · exact keepsOtp_otpAbort d

theorem Dev.otpAbort_resets (d : Dev) : d.otpAbort.resets = d.resets := by
  cases h : d.pulses with
  | false => rw [Dev.otpAbort_idle h]
  | true =>
    obtain ⟨ks, n, he⟩ := ((d.wr F.SVC_OTP_CTL_BUSY [] 0).wr F.ANL_SAG_OTP_ABORT [] 1).keyLeft_eq
    rw [Dev.otpAbort_pulse h, he, Dev.wr_resets, Dev.wr_resets]

theorem Dev.beginReset_resets (d : Dev) (l : ResetLevel) (cause supply mid : Nat) (aon : Bool) :
    (d.beginReset l cause supply mid aon).resets = d.resets + 1 := by
  have h : (d.beginReset l cause supply mid aon).resets = d.ended.resets + 1 := by
    have := congrArg Dev.resets (d.unstored_beginReset l cause supply mid aon)
    exact this
  rw [h, Dev.ended, Dev.otpAbort_resets, apply_ite Dev.resets, Dev.emit_resets, ite_self]

theorem Dev.beginReset_safe (d : Dev) (l : ResetLevel) (cause supply mid : Nat) (aon : Bool) :
    (d.beginReset l cause supply mid aon).safe = false := by
  have := congrArg Dev.safe (d.unstored_beginReset l cause supply mid aon)
  exact this

/-! ## The two invariants of a run (R389, R390, R406) -/

theorem exec_latches (c : Instr) {s t : State} (h : exec c s = .next t) : t.dev = s.dev ∨ ∃ e, t.dev = Dev.latched s.dev e := by
  obtain ⟨f, hf⟩ := exec_lifts c
  rw [hf s] at h
  cases ha : actsInReset c with
  | true =>
    obtain rfl := Host.Outcome.next.inj (ha ▸ h)
    exact .inr ⟨_, rfl⟩
  | false =>
    obtain rfl := Host.Outcome.next.inj (ha ▸ h)
    by_cases hl : s.dev.rst.level.isNone = true
    · exact .inr ⟨f s.dev, if_pos hl⟩
    · exact .inl (if_neg hl)

/-- A step leaves the device as it was, or latches what no effect can undo. -/
theorem step_latches {s t : State} (h : step s = .next t) : t.dev = s.dev ∨ ∃ e, t.dev = Dev.latched s.dev e := by
  unfold step at h
  split at h
  next c rest _ => exact exec_latches c (s := { pending := rest, dev := s.dev }) h
  · obtain rfl := Host.Outcome.next.inj h
    exact .inr ⟨_, rfl⟩

theorem step_resets {s t : State} (h : step s = .next t) : s.dev.resets ≤ t.dev.resets := by
  obtain he | ⟨e, he⟩ := step_latches h <;> rw [he]
  exact le_max_left _ _

theorem step_safe {s t : State} (h : step s = .next t) (hs : s.dev.safe = true) (hr : t.dev.resets = s.dev.resets) :
    t.dev.safe = true := by
  obtain he | ⟨e, he⟩ := step_latches h
  · rw [he, hs]
  · rw [he] at hr ⊢
    have hle : e.resets ≤ s.dev.resets := max_eq_left_iff.1 hr
    simp [Dev.latched, hs, hle]

theorem run_succ {M : Host.Core} {n : Nat} {s t : M.State} (h : M.run (n + 1) s = .next t) :
    ∃ u, M.step s = .next u ∧ M.run n u = .next t := by
  rw [Host.Core.run] at h
  split at h
  next u hu => exact ⟨u, hu, h⟩
  all_goals cases h

theorem run_resets {n : Nat} {s t : State} (h : Host.Core.run Sys2Proof.core n s = .next t) : s.dev.resets ≤ t.dev.resets := by
  induction n generalizing s with
  | zero => exact (Host.Outcome.next.inj h) ▸ le_rfl
  | succ n ih =>
    obtain ⟨u, hu, ht⟩ := run_succ h
    exact (step_resets hu).trans (ih ht)

/-- A run in which no reset begins ends in the safe state where it began there: the count of resets never falls, so it stood still
in every step. -/
theorem run_safe {n : Nat} {s t : State} (h : Host.Core.run Sys2Proof.core n s = .next t) (hs : s.dev.safe = true)
    (hr : t.dev.resets = s.dev.resets) : t.dev.safe = true := by
  induction n generalizing s with
  | zero => exact (Host.Outcome.next.inj h) ▸ hs
  | succ n ih =>
    obtain ⟨u, hu, ht⟩ := run_succ h
    have hstood : u.dev.resets = s.dev.resets := le_antisymm ((run_resets ht).trans_eq hr) (step_resets hu)
    exact ih ht (step_safe hu hs hstood) (hr.trans hstood.symm)

/-- Settles O3: a step ends the safe state only where it counts a reset, so a run keeps it by induction on its length; the shared
effects are chains of reports, faults and losses, each of which keeps it. -/
theorem safeStateIsOneWay : Obligations.SafeStateIsOneWay := by
  unfold Obligations.SafeStateIsOneWay
  exact ⟨fun _ _ _ h => run_safe h, fun d k fs => (Lasting.raiseAll d k fs).keepsSafe,
    fun d id st r0 r1 r2 => (Lasting.finishJob d id st r0 r1 r2).keepsSafe, fun d l s => (Lasting.hifReset d l s).keepsSafe,
    fun d => (Lasting.pdDone d).keepsSafe, fun d a b c => (Lasting.release d a b c).keepsSafe,
    fun d k => ⟨d.enterSafe_safe k, d.enterSafe_resets k⟩,
    fun d l c s m a => ⟨d.beginReset_safe l c s m a, d.beginReset_resets l c s m a⟩⟩

theorem step_otp {s t : State} (h : step s = .next t) : KeepsOtp s.dev t.dev := by
  obtain he | ⟨e, he⟩ := step_latches h <;> rw [he]
  · exact ⟨fun hl => ⟨hl, rfl⟩, le_rfl⟩
  · exact ⟨fun hl => ⟨by simp [Dev.latched, hl], if_pos hl⟩, le_max_left _ _⟩

/-- Settles O4: every step latches the lock, the key under it and the rollback index; of the shared effects only the end of a
programming pulse writes the key, and not under the lock. -/
theorem otpIsKept : Obligations.OtpIsKept := by
  unfold Obligations.OtpIsKept
  refine ⟨fun key n s t hlocked hkey hn h => ?step, keepsOtp_beginReset, keepsOtp_otpAbort,
    fun d l s => (Lasting.hifReset d l s).keepsOtp, fun d => (Lasting.pdDone d).keepsOtp,
    fun d a b c => (Lasting.release d a b c).keepsOtp, fun d k fs => (Lasting.raiseAll d k fs).keepsOtp,
    fun d id st r0 r1 r2 => (Lasting.finishJob d id st r0 r1 r2).keepsOtp⟩
  case step =>
    obtain ⟨hlock, hroll⟩ := step_otp h
    obtain ⟨hl, hk⟩ := hlock hlocked
    exact ⟨hl, hk.trans hkey, hn.trans hroll⟩

/-! ## What a command's next state shows of the registers -/

/-- A place of a register beside one in the same array, within the array. -/
theorem Reg.key_ne_row {r : Reg} {n st i j : Nat} (h : r.dims = [⟨0, n, st⟩]) (hi : i < 2 ^ 20) (hj : j < 2 ^ 20) (hne : i ≠ j) :
    r.key [i] ≠ r.key [j] := fun he => hne (r.keyAt_inj hi hj (by rwa [Reg.key_row h, Reg.key_row h] at he))

theorem Master.mid_lt (m : Master) : m.mid < 256 := by
  cases m with
  | vf v => exact Nat.lt_of_lt_of_le (Nat.succ_lt_succ v.isLt) (by decide)
  | svc k => exact Nat.lt_of_lt_of_le (Nat.add_lt_add_left k.isLt 0x40) (by decide)
  | pf0 | jtag | bmc => decide

theorem Dev.raw_emit (d : Dev) (o : Output) (r : Reg) (ix : List Nat) : (d.emit o).raw r ix = d.raw r ix := rfl

theorem Dev.on_emit (d : Dev) (o : Output) (f : Fld) (ix : List Nat) : (d.emit o).on f ix = d.on f ix := rfl

theorem Dev.out_emit (d : Dev) (o : Output) : (d.emit o).out = d.out ++ [o] := rfl

theorem Dev.rd_of_raw {d e : Dev} {f : Fld} {ix : List Nat} (h : e.raw f.reg ix = d.raw f.reg ix) : e.rd f ix = d.rd f ix := by
  rw [Dev.rd, h, Dev.rd]

theorem Dev.on_of_raw {d e : Dev} {f : Fld} {ix : List Nat} (h : e.raw f.reg ix = d.raw f.reg ix) : e.on f ix = d.on f ix := by
  rw [Dev.on, Dev.rd_of_raw h, Dev.on]

/-! ## Mailbox channels (R366 to R371) -/

section Channels

variable (d : Dev) (mid c : Nat)

/-- A signal writes registers of the host interface and of the BMC port alone. -/
theorem Dev.raw_signalMid (vec : Nat) {r : Reg} (ix : List Nat) (hr : r.rests = true) (hb : r.win ≠ R.PIN_BMC.win) :
    (d.signalMid mid vec).raw r ix = d.raw r ix := by
  have msix : (d.msix vec).resting = d.resting := by
    unfold Dev.msix
    split
    · exact d.resting_wr _ _ (by decide)
    · exact d.resting_emit _
  have pend : d.bmcPend.raw r ix = d.raw r ix := by
    have hpend := d.raw_wr_of_key F.PIN_BMC_PEND r [] ix 1 (Reg.key_ne ix [] (.inl hb) (Reg.id_lt_of_rests hr) (by decide))
    unfold Dev.bmcPend
    dsimp only
    split
    · rw [Dev.raw_emit, hpend]
    · exact hpend
  unfold Dev.signalMid
  split
  · exact Dev.raw_of_resting msix hr ix
  · split
    · exact d.raw_emit _ _ _
    · split
      · exact pend
      · rfl

theorem Dev.raw_mbxClear (r : Reg) (ix : List Nat) (h : r.key ix ≠ R.MBX_STAT.key [c]) : (d.mbxClear c).raw r ix = d.raw r ix := by
  unfold Dev.mbxClear
  rw [Dev.raw_wr_of_key _ F.MBX_STAT_LEN r [c] ix 0 h, Dev.raw_wr_of_key _ F.MBX_STAT_SEND_REJ r [c] ix 0 h,
    Dev.raw_wr_of_key _ F.MBX_STAT_TIMEOUT r [c] ix 0 h, Dev.raw_wr_of_key _ F.MBX_STAT_FULL r [c] ix 0 h]

/-- A channel reset clears all that MBX_STAT holds but SEQ (R371). -/
theorem Dev.mbxClear_stat : (d.mbxClear c).on F.MBX_STAT_FULL [c] = false ∧ (d.mbxClear c).on F.MBX_STAT_TIMEOUT [c] = false ∧
    (d.mbxClear c).on F.MBX_STAT_SEND_REJ [c] = false ∧ (d.mbxClear c).rd F.MBX_STAT_LEN [c] = 0 ∧
    (d.mbxClear c).rd F.MBX_STAT_SEQ [c] = d.rd F.MBX_STAT_SEQ [c] := by
  simp (disch := decide) [Dev.mbxClear, Dev.on, Dev.rd_wr_fits, Dev.rd_wr_apart]

/-- The channel as a SEND fills it, before the signal (R368). -/
def Dev.mbxSent (len : Nat) : Dev :=
  let d := (d.wr F.MBX_STAT_FULL [c] 1).wr F.MBX_STAT_LEN [c] len
  d.wr F.MBX_STAT_SEQ [c] ((d.rd F.MBX_STAT_SEQ [c] + 1) % 65536)

/-- The channel as an ACK empties it, before the signal (R368). -/
def Dev.mbxTaken : Dev := (d.wr F.MBX_STAT_FULL [c] 0).wr F.MBX_STAT_TIMEOUT [c] 0

theorem Dev.mbxSent_stat {len : Nat} (h : len < 128) : (d.mbxSent c len).on F.MBX_STAT_FULL [c] = true ∧
    (d.mbxSent c len).rd F.MBX_STAT_LEN [c] = len ∧
    (d.mbxSent c len).rd F.MBX_STAT_SEQ [c] = (d.rd F.MBX_STAT_SEQ [c] + 1) % 65536 := by
  have hseq : ∀ n, n % 65536 < 2 ^ (F.MBX_STAT_SEQ.hi + 1 - F.MBX_STAT_SEQ.lo) := fun n => Nat.mod_lt n (by decide)
  unfold Dev.mbxSent
  dsimp only
  rw [Dev.rd_wr_fits _ F.MBX_STAT_SEQ _ _ (by decide) (by decide) (hseq _)]
  refine ⟨?_, ?_, ?_⟩
  · simp (disch := decide) [Dev.on, Dev.rd_wr_fits, Dev.rd_wr_apart]
  · rw [Dev.rd_wr_apart _ _ _ _ (by decide), Dev.rd_wr_fits _ F.MBX_STAT_LEN _ _ (by decide) (by decide) h]
  · simp (disch := decide) [Dev.rd_wr_apart]

theorem Dev.mbxTaken_stat : (d.mbxTaken c).on F.MBX_STAT_FULL [c] = false ∧ (d.mbxTaken c).on F.MBX_STAT_TIMEOUT [c] = false ∧
    (d.mbxTaken c).rd F.MBX_STAT_SEQ [c] = d.rd F.MBX_STAT_SEQ [c] := by
  simp (disch := decide) [Dev.mbxTaken, Dev.on, Dev.rd_wr_fits, Dev.rd_wr_apart]

theorem Dev.raw_mbxSent (len : Nat) (r : Reg) (ix : List Nat) (h : r.key ix ≠ R.MBX_STAT.key [c]) :
    (d.mbxSent c len).raw r ix = d.raw r ix := by
  unfold Dev.mbxSent
  rw [Dev.raw_wr_of_key _ F.MBX_STAT_SEQ r [c] ix _ h, Dev.raw_wr_of_key _ F.MBX_STAT_LEN r [c] ix _ h,
    Dev.raw_wr_of_key _ F.MBX_STAT_FULL r [c] ix _ h]

theorem Dev.raw_mbxTaken (r : Reg) (ix : List Nat) (h : r.key ix ≠ R.MBX_STAT.key [c]) :
    (d.mbxTaken c).raw r ix = d.raw r ix := by
  unfold Dev.mbxTaken
  rw [Dev.raw_wr_of_key _ F.MBX_STAT_TIMEOUT r [c] ix _ h, Dev.raw_wr_of_key _ F.MBX_STAT_FULL r [c] ix _ h]

variable {d mid c}

/-- The registers of the mailbox after an effect that leaves channel `c` as device `e` has it, and all else as `d` does. -/
theorem Dev.channel_of_raw {x d e : Dev} {c : Nat} (hc : c < 64)
    (hx : ∀ {r : Reg}, r.rests = true → r.win ≠ R.PIN_BMC.win → ∀ ix, x.raw r ix = e.raw r ix)
    (he : ∀ r ix, r.key ix ≠ R.MBX_STAT.key [c] → e.raw r ix = d.raw r ix) :
    (∀ f : Fld, f.reg = R.MBX_STAT → x.rd f [c] = e.rd f [c]) ∧ (∀ k j, x.raw R.MBX_DATA [k, j] = d.raw R.MBX_DATA [k, j]) ∧
    (∀ k, k < 64 → k ≠ c → x.raw R.MBX_STAT [k] = d.raw R.MBX_STAT [k]) := by
  refine ⟨fun f hf => ?_, fun k j => ?_, fun k hk hne => ?_⟩
  · rw [Dev.rd, hf, hx (by decide) (by decide), Dev.rd, hf]
  · rw [hx (by decide) (by decide), he _ _ (Reg.key_ne _ _ (by decide) (by decide) (by decide))]
  · rw [hx (by decide) (by decide), he _ _ (Reg.key_ne_row rfl (by omega) (by omega) hne)]

/-- A SEND that is taken fills the channel (R368). -/
theorem Dev.mbxSend_taken {len : Nat} (hen : d.bindEn c = true) (hheld : d.mbxHeld c = false) (hs : d.sender c = mid)
    (hf : d.on F.MBX_STAT_FULL [c] = false) (h1 : 1 ≤ len) (h2 : len ≤ 64) (hc : c < 64) :
    (d.mbxSend mid c len).on F.MBX_STAT_FULL [c] = true ∧ (d.mbxSend mid c len).rd F.MBX_STAT_LEN [c] = len ∧
    (d.mbxSend mid c len).rd F.MBX_STAT_SEQ [c] = (d.rd F.MBX_STAT_SEQ [c] + 1) % 65536 ∧
    (∀ k j, (d.mbxSend mid c len).raw R.MBX_DATA [k, j] = d.raw R.MBX_DATA [k, j]) ∧
    (∀ k, k < 64 → k ≠ c → (d.mbxSend mid c len).raw R.MBX_STAT [k] = d.raw R.MBX_STAT [k]) := by
  have hraw : ∀ {r : Reg}, r.rests = true → r.win ≠ R.PIN_BMC.win → ∀ ix,
      (d.mbxSend mid c len).raw r ix = (d.mbxSent c len).raw r ix := fun hr hb ix => by
    have h0 : len ≠ 0 := by omega
    have h3 : ¬64 < len := by omega
    unfold Dev.mbxSend
    simp only [hen, hheld, hs, hf, h0, h3, Bool.not_true, bne_self_eq_false, Bool.or_self, Bool.false_eq_true, if_false,
      decide_false]
    split
    · exact Dev.raw_signalMid _ _ _ ix hr hb
    · rfl
  obtain ⟨hstat, hdata, hother⟩ := Dev.channel_of_raw hc hraw (d.raw_mbxSent c len)
  obtain ⟨hfull, hlen, hseq⟩ := d.mbxSent_stat c (len := len) (by omega)
  exact ⟨by rw [Dev.on, hstat _ rfl]; exact hfull, (hstat _ rfl).trans hlen, (hstat _ rfl).trans hseq, hdata, hother⟩

/-- An ACK that is taken empties the channel (R368). -/
theorem Dev.mbxAck_taken {seq : Nat} (hen : d.bindEn c = true) (hheld : d.mbxHeld c = false) (hs : d.receiver c = mid)
    (hf : d.on F.MBX_STAT_FULL [c] = true) (hq : d.rd F.MBX_STAT_SEQ [c] = seq) (hc : c < 64) :
    (d.mbxAck mid c seq).on F.MBX_STAT_FULL [c] = false ∧ (d.mbxAck mid c seq).on F.MBX_STAT_TIMEOUT [c] = false ∧
    (d.mbxAck mid c seq).rd F.MBX_STAT_SEQ [c] = d.rd F.MBX_STAT_SEQ [c] ∧
    (∀ k j, (d.mbxAck mid c seq).raw R.MBX_DATA [k, j] = d.raw R.MBX_DATA [k, j]) ∧
    (∀ k, k < 64 → k ≠ c → (d.mbxAck mid c seq).raw R.MBX_STAT [k] = d.raw R.MBX_STAT [k]) := by
  have hraw : ∀ {r : Reg}, r.rests = true → r.win ≠ R.PIN_BMC.win → ∀ ix,
      (d.mbxAck mid c seq).raw r ix = (d.mbxTaken c).raw r ix := fun hr hb ix => by
    unfold Dev.mbxAck
    simp only [hen, hheld, hs, hf, hq, Bool.not_true, bne_self_eq_false, Bool.or_self, Bool.false_eq_true, if_false,
      beq_self_eq_true, Bool.and_self, if_true]
    split
    · exact Dev.raw_signalMid _ _ _ ix hr hb
    · rfl
  obtain ⟨hstat, hdata, hother⟩ := Dev.channel_of_raw hc hraw (d.raw_mbxTaken c)
  obtain ⟨hfull, htmo, hseq⟩ := d.mbxTaken_stat c
  exact ⟨by rw [Dev.on, hstat _ rfl]; exact hfull, by rw [Dev.on, hstat _ rfl]; exact htmo, (hstat _ rfl).trans hseq, hdata, hother⟩

theorem Dev.mbxSend_unbound {len : Nat} (h : d.bindEn c = false ∨ d.mbxHeld c = true ∨ d.sender c ≠ mid) :
    d.mbxSend mid c len = d.inc F.MBX_REJ_COUNT [c] := by
  refine if_pos ?_
  rcases h with h | h | h <;> simp [h]

theorem Dev.mbxSend_rejected {len : Nat} (hen : d.bindEn c = true) (hheld : d.mbxHeld c = false) (hs : d.sender c = mid)
    (h : d.on F.MBX_STAT_FULL [c] = true ∨ len = 0 ∨ 64 < len) :
    d.mbxSend mid c len = (d.wr F.MBX_STAT_SEND_REJ [c] 1).inc F.MBX_REJ_COUNT [c] := by
  refine (if_neg ?_).trans (if_pos ?_)
  · simp [hen, hheld, hs]
  · simpa [or_assoc] using h

theorem Dev.mbxAck_rejected {seq : Nat} (hen : d.bindEn c = true) (hheld : d.mbxHeld c = false) (hs : d.receiver c = mid)
    (h : d.on F.MBX_STAT_FULL [c] = false ∨ d.rd F.MBX_STAT_SEQ [c] ≠ seq) : d.mbxAck mid c seq = d.inc F.MBX_REJ_COUNT [c] := by
  refine (if_neg ?_).trans (if_neg ?_)
  · simp [hen, hheld, hs]
  · rcases h with h | h <;> simp [h]

/-! ### Bindings (R364, R366) -/

/-- The word of a binding: EN, SENDER and RECEIVER. -/
def bindWord (en : Bool) (a b : BitVec 8) : Nat := b2n en * 2 ^ 31 + a.toNat * 2 ^ 8 + b.toNat

theorem bindWord_fits (en : Bool) (a b : BitVec 8) : setBitsOf (bindWord en a b % 2 ^ 32) 30 16 0 = bindWord en a b := by
  have ha := a.isLt
  have hb := b.isLt
  have he : b2n en ≤ 1 := by cases en <;> decide
  unfold setBitsOf bindWord
  omega

/-- A binding that is in force reads its word's fields. -/
theorem Dev.binding_of_raw {en : Bool} {a b : BitVec 8} (h : d.raw R.SVC_MBX_BIND [c] = bindWord en a b) :
    d.bindEn c = en ∧ d.sender c = a.toNat ∧ d.receiver c = b.toNat := by
  have ha := a.isLt
  have hb := b.isLt
  have he : b2n en ≤ 1 := by cases en <;> decide
  have hen : d.rd F.SVC_MBX_BIND_EN [c] = b2n en := by
    change bitsOf (d.raw R.SVC_MBX_BIND [c]) 31 31 = _
    rw [h, bitsOf, bindWord]
    omega
  refine ⟨by rw [Dev.bindEn, Dev.on, hen, b2n_bne_zero], ?_, ?_⟩
  · change bitsOf (d.raw R.SVC_MBX_BIND [c]) 15 8 = _
    rw [h, bitsOf, bindWord]
    omega
  · change bitsOf (d.raw R.SVC_MBX_BIND [c]) 7 0 = _
    rw [h, bitsOf, bindWord]
    omega

theorem Dev.bindWrite_open {en : Bool} {a b : BitVec 8} (hm : mid = 0 ∨ mid = 0x40) (hl : d.on F.SVC_MBX_BIND_LOCK_LOCK [] = false) :
    d.bindWrite mid c (bindWord en a b) = if d.raw R.SVC_MBX_BIND [c] = bindWord en a b then d
      else (d.setRaw R.SVC_MBX_BIND [c] (bindWord en a b)).mbxClear c := by
  unfold Dev.bindWrite
  rw [if_neg (by omega), if_neg (by simp [hl]), bindWord_fits]

end Channels

section Mailboxes

variable {s : State} {m : Master} {c : Fin 64} (hl : Live s)

include hl

/-- A command of a master that the mailboxes hear has its effect. -/
theorem runs_mbxSend (hd : s.dev.mbxDeaf m = false) (len : BitVec 7) :
    Runs (.mbxSend m c len) s (s.dev.mbxSend m.mid c.val len.toNat) := Runs.of_run hl rfl (if_neg (by simp [hd]))

theorem runs_mbxAck (hd : s.dev.mbxDeaf m = false) (seq : BitVec 16) :
    Runs (.mbxAck m c seq) s (s.dev.mbxAck m.mid c.val seq.toNat) := Runs.of_run hl rfl (if_neg (by simp [hd]))

theorem mbxReset_shows (hd : s.dev.mbxDeaf m = false) (h : (s.dev.bindEn c.val = true ∧
      (s.dev.sender c.val = m.mid ∨ s.dev.receiver c.val = m.mid)) ∨ m = .svc 0 ∨ m = .jtag) :
    ∃ t, exec (.mbxReset m c) s = .next t ∧ t.dev.on F.MBX_STAT_FULL [c.val] = false ∧
      t.dev.on F.MBX_STAT_TIMEOUT [c.val] = false ∧ t.dev.on F.MBX_STAT_SEND_REJ [c.val] = false ∧
      t.dev.rd F.MBX_STAT_LEN [c.val] = 0 ∧ t.dev.rd F.MBX_STAT_SEQ [c.val] = s.dev.rd F.MBX_STAT_SEQ [c.val] ∧
      (∀ r ix, r.key ix ≠ R.MBX_STAT.key [c.val] → t.dev.raw r ix = s.dev.raw r ix) := by
  have hmay : s.dev.mayResetMbx m.mid c.val = true := by
    rw [Dev.mayResetMbx]
    rcases h with ⟨hen, h | h⟩ | rfl | rfl
    · simp [hen, h]
    · simp [hen, h]
    · simp [Master.mid]
    · simp [Master.mid]
  have hrun : Runs (.mbxReset m c) s (s.dev.mbxClear c.val) :=
    Runs.of_run hl rfl ((if_neg (by simp [hd])).trans (if_pos hmay))
  refine ⟨_, hrun, ?_⟩
  simp only [Dev.on_latched _ _ _ hl.2, Dev.rd_latched _ _ _ hl.2, Dev.raw_latched _ _ _ hl.2]
  obtain ⟨hfull, htmo, hrej, hlen, hseq⟩ := s.dev.mbxClear_stat c.val
  exact ⟨hfull, htmo, hrej, hlen, hseq, fun r ix => s.dev.raw_mbxClear c.val r ix⟩

/-- A binding write while the table is open: the binding stands, and a change of it resets the channel (R364, R366). -/
theorem mbxBind_shows {en : Bool} {a b : BitVec 8} (hb : s.dev.hostBlocked m = false) (hm : m = .pf0 ∨ m = .svc 0)
    (hlock : s.dev.on F.SVC_MBX_BIND_LOCK_LOCK [] = false) :
    ∃ t, exec (.mbxBindChange m c en a b) s = .next t ∧
      t.dev.bindEn c.val = en ∧ t.dev.sender c.val = a.toNat ∧ t.dev.receiver c.val = b.toNat ∧
      (∀ r ix, r.key ix ≠ R.SVC_MBX_BIND.key [c.val] → r.key ix ≠ R.MBX_STAT.key [c.val] → t.dev.raw r ix = s.dev.raw r ix) ∧
      (s.dev.bindEn c.val ≠ en ∨ s.dev.sender c.val ≠ a.toNat ∨ s.dev.receiver c.val ≠ b.toNat →
        t.dev.on F.MBX_STAT_FULL [c.val] = false ∧ t.dev.on F.MBX_STAT_TIMEOUT [c.val] = false ∧
        t.dev.on F.MBX_STAT_SEND_REJ [c.val] = false ∧ t.dev.rd F.MBX_STAT_LEN [c.val] = 0 ∧
        t.dev.rd F.MBX_STAT_SEQ [c.val] = s.dev.rd F.MBX_STAT_SEQ [c.val] ∧
        (∀ k j, t.dev.raw R.MBX_DATA [k, j] = s.dev.raw R.MBX_DATA [k, j])) ∧
      (s.dev.raw R.SVC_MBX_BIND [c.val] = b2n en * 2 ^ 31 + a.toNat * 2 ^ 8 + b.toNat → t.dev = s.dev) := by
  have hmid : m.mid = 0 ∨ m.mid = 0x40 := by rcases hm with rfl | rfl <;> decide
  have hrun : Runs (.mbxBindChange m c en a b) s (s.dev.bindWrite m.mid c.val (bindWord en a b)) :=
    Runs.of_run hl rfl (if_neg (by simp [hb]))
  rw [Dev.bindWrite_open hmid hlock] at hrun
  refine ⟨_, hrun, ?_⟩
  simp only [Dev.bindEn, Dev.sender, Dev.receiver, Dev.on_latched _ _ _ hl.2, Dev.rd_latched _ _ _ hl.2,
    Dev.raw_latched _ _ _ hl.2]
  split
  case isTrue hsame =>
    obtain ⟨hen, hsend, hrecv⟩ := Dev.binding_of_raw hsame
    refine ⟨hen, hsend, hrecv, fun _ _ _ _ => rfl, fun hne => ?_, fun _ => Dev.latched_eq _ _ hl.2 rfl rfl rfl⟩
    rcases hne with h | h | h
    · exact absurd hen h
    · exact absurd hsend h
    · exact absurd hrecv h
  case isFalse hdiff =>
    have hother := fun r ix => (s.dev.setRaw R.SVC_MBX_BIND [c.val] (bindWord en a b)).raw_mbxClear c.val r ix
    have hword : ((s.dev.setRaw R.SVC_MBX_BIND [c.val] (bindWord en a b)).mbxClear c.val).raw R.SVC_MBX_BIND [c.val] =
        bindWord en a b := by
      have hbyte := a.isLt
      have hbyte' := b.isLt
      have hbit : b2n en ≤ 1 := by cases en <;> decide
      rw [hother _ _ (Reg.key_ne _ _ (by decide) (by decide) (by decide)), Dev.raw_setRaw_self, Nat.mod_eq_of_lt]
      rw [bindWord]
      omega
    obtain ⟨hen, hsend, hrecv⟩ := Dev.binding_of_raw hword
    obtain ⟨hfull, htmo, hrej, hlen, hseq⟩ := (s.dev.setRaw R.SVC_MBX_BIND [c.val] (bindWord en a b)).mbxClear_stat c.val
    have hkept : ∀ r ix, r.key ix ≠ R.SVC_MBX_BIND.key [c.val] → r.key ix ≠ R.MBX_STAT.key [c.val] →
        ((s.dev.setRaw R.SVC_MBX_BIND [c.val] (bindWord en a b)).mbxClear c.val).raw r ix = s.dev.raw r ix := fun r ix h1 h2 => by
      rw [hother r ix h2, Dev.raw_setRaw_of_key _ _ _ _ _ _ h1]
    refine ⟨hen, hsend, hrecv, hkept, fun _ => ⟨hfull, htmo, hrej, hlen, ?_, fun k j => ?_⟩, fun h => absurd h hdiff⟩
    · rw [hseq, Dev.rd, Dev.raw_setRaw_other _ _ _ _ _ _ (by decide) (by decide) (by decide), Dev.rd]
    · exact hkept _ _ (Reg.key_ne _ _ (by decide) (by decide) (by decide)) (Reg.key_ne _ _ (by decide) (by decide) (by decide))

end Mailboxes

/-- Settles O53: a message and its acknowledgement by what they show of the channel, what is turned away by the count alone, a binding
write by its word. -/
theorem mailboxes : Obligations.Mailboxes := by
  unfold Obligations.Mailboxes
  intro s m c hl
  refine ⟨fun hd => ⟨fun hen hheld hs len => ⟨fun hf h1 h2 => ⟨_, runs_mbxSend hl hd len, ?sent⟩, fun h => ?rejected⟩,
    fun len h => ?unbound, fun hen hheld hs seq => ⟨fun hf hq => ⟨_, runs_mbxAck hl hd seq, ?taken⟩, fun h => ?stale⟩,
    mbxReset_shows hl hd⟩, fun hf ht => ?timer, fun ht => ?off,
    fun en a b hb hm => ⟨fun hlock => ?locked, mbxBind_shows hl hb hm⟩⟩
  case sent =>
    simp only [Dev.on_latched _ _ _ hl.2, Dev.rd_latched _ _ _ hl.2, Dev.raw_latched _ _ _ hl.2]
    exact Dev.mbxSend_taken hen hheld hs hf h1 h2 c.isLt
  case taken =>
    simp only [Dev.on_latched _ _ _ hl.2, Dev.rd_latched _ _ _ hl.2, Dev.raw_latched _ _ _ hl.2]
    exact Dev.mbxAck_taken hen hheld hs hf hq c.isLt
  case rejected => exact Dev.mbxSend_rejected hen hheld hs h ▸ runs_mbxSend hl hd len
  case unbound => exact Dev.mbxSend_unbound h ▸ runs_mbxSend hl hd len
  case stale => exact Dev.mbxAck_rejected hen hheld hs h ▸ runs_mbxAck hl hd seq
  case timer => exact Runs.of_run hl rfl (if_pos (by simp [hf, ht]))
  case off => exact Runs.of_run hl rfl (if_neg (by simp [ht]))
  case locked =>
    refine Runs.of_run hl rfl ((if_neg (by simp [hb])).trans ((if_neg ?_).trans (if_pos hlock)))
    rcases hm with rfl | rfl <;> decide

/-! ## Locks (R374, R375) -/

section Locks

variable (d : Dev) (mid k : Nat)

theorem Dev.lockRead_held (h : d.on F.MBX_LOCK_HELD [k] = true) : d.lockRead mid k =
    d.emit (.readData mid (23 * 0x100000 + 0x8000 + 4 * k) (d.raw R.MBX_LOCK [k])) := if_pos h

/-- The lock with its owner, as a read of a free lock leaves it. -/
def Dev.lockTaken : Dev := (d.wr F.MBX_LOCK_HELD [k] 1).wr F.MBX_LOCK_OWNER [k] mid

theorem Dev.lockRead_free (h : d.on F.MBX_LOCK_HELD [k] = false) : d.lockRead mid k = (d.lockTaken mid k).emit
    (.readData mid (23 * 0x100000 + 0x8000 + 4 * k) ((d.lockTaken mid k).raw R.MBX_LOCK [k] + 2 ^ 31)) :=
  if_neg (by simp [h])

variable {d mid k}

theorem Dev.lockTaken_out : (d.lockTaken mid k).out = d.out := by
  rw [Dev.lockTaken, Dev.wr_out, Dev.wr_out]

theorem Dev.lockTaken_fields (hm : mid < 256) : (d.lockTaken mid k).rd F.MBX_LOCK_HELD [k] = 1 ∧
    (d.lockTaken mid k).rd F.MBX_LOCK_OWNER [k] = mid ∧
    (d.lockTaken mid k).rd F.MBX_LOCK_GRANTED [k] = d.rd F.MBX_LOCK_GRANTED [k] := by
  unfold Dev.lockTaken
  refine ⟨?_, Dev.rd_wr_fits _ _ _ _ (by decide) (by decide) hm, ?_⟩
  · rw [Dev.rd_wr_apart _ _ _ _ (by decide), Dev.rd_wr_fits _ _ _ _ (by decide) (by decide) (by decide)]
  · rw [Dev.rd_wr_apart _ _ _ _ (by decide), Dev.rd_wr_apart _ _ _ _ (by decide)]

/-- The word that the reader of a free lock gets: GRANTED, HELD and its MID. -/
theorem Dev.lockTaken_word (hm : mid < 256) : bitAt ((d.lockTaken mid k).raw R.MBX_LOCK [k] + 2 ^ 31) 30 = true ∧
    bitsOf ((d.lockTaken mid k).raw R.MBX_LOCK [k] + 2 ^ 31) 23 16 = mid ∧
    (d.on F.MBX_LOCK_GRANTED [k] = false → bitAt ((d.lockTaken mid k).raw R.MBX_LOCK [k] + 2 ^ 31) 31 = true) := by
  obtain ⟨hheld, hown, hgr⟩ := Dev.lockTaken_fields (d := d) (k := k) hm
  change bitsOf ((d.lockTaken mid k).raw R.MBX_LOCK [k]) 30 30 = 1 at hheld
  change bitsOf ((d.lockTaken mid k).raw R.MBX_LOCK [k]) 23 16 = mid at hown
  change bitsOf ((d.lockTaken mid k).raw R.MBX_LOCK [k]) 31 31 = _ at hgr
  generalize (d.lockTaken mid k).raw R.MBX_LOCK [k] = v at hheld hown hgr ⊢
  unfold bitsOf at hheld hown hgr ⊢
  refine ⟨?_, by omega, fun hg => ?_⟩
  · rw [bitAt, decide_eq_true_eq]
    omega
  · have hz : d.rd F.MBX_LOCK_GRANTED [k] = 0 := by simpa [Dev.on] using hg
    rw [bitAt, decide_eq_true_eq]
    omega

theorem Dev.raw_lockTaken (r : Reg) (ix : List Nat) (h : r.key ix ≠ R.MBX_LOCK.key [k]) :
    (d.lockTaken mid k).raw r ix = d.raw r ix := by
  unfold Dev.lockTaken
  rw [Dev.raw_wr_of_key _ F.MBX_LOCK_OWNER r [k] ix _ h, Dev.raw_wr_of_key _ F.MBX_LOCK_HELD r [k] ix _ h]

theorem Dev.lock_cleared (k : Nat) : (d.setRaw R.MBX_LOCK [k] 0).on F.MBX_LOCK_HELD [k] = false := by
  rw [Dev.on, Dev.rd, show F.MBX_LOCK_HELD.reg = R.MBX_LOCK from rfl, Dev.raw_setRaw_self]
  decide

end Locks

/-- A read of a free lock takes it (R374). -/
theorem lockAcquire_shows {s : State} {m : Master} {k : Fin 16} (hl : Live s) (hd : s.dev.mbxDeaf m = false)
    (hfree : s.dev.on F.MBX_LOCK_HELD [k.val] = false) : ∃ t v, exec (.mbxLockAcquire m k) s = .next t ∧
      t.dev.on F.MBX_LOCK_HELD [k.val] = true ∧ t.dev.rd F.MBX_LOCK_OWNER [k.val] = m.mid ∧
      t.dev.out = s.dev.out ++ [.readData m.mid (23 * 0x100000 + 0x8000 + 4 * k.val) v] ∧ bitAt v 30 = true ∧ bitsOf v 23 16 = m.mid ∧
      (s.dev.on F.MBX_LOCK_GRANTED [k.val] = false → bitAt v 31 = true) ∧
      (∀ r ix, r.key ix ≠ R.MBX_LOCK.key [k.val] → t.dev.raw r ix = s.dev.raw r ix) := by
  have hrun : Runs (.mbxLockAcquire m k) s (s.dev.lockRead m.mid k.val) := Runs.of_run hl rfl (if_neg (by simp [hd]))
  rw [Dev.lockRead_free _ _ _ hfree] at hrun
  obtain ⟨hheld, hown, -⟩ := Dev.lockTaken_fields (d := s.dev) (k := k.val) (Master.mid_lt m)
  obtain ⟨hbit, hmid, hgr⟩ := Dev.lockTaken_word (d := s.dev) (k := k.val) (Master.mid_lt m)
  have hother := fun r ix => Dev.raw_lockTaken (d := s.dev) (mid := m.mid) (k := k.val) r ix
  have hout : (s.dev.lockTaken m.mid k.val).out = s.dev.out := Dev.lockTaken_out
  generalize s.dev.lockTaken m.mid k.val = e at *
  refine ⟨_, _, hrun, (Dev.on_latched _ _ _ hl.2).trans ?_, (Dev.rd_latched _ _ _ hl.2).trans ?_, ?_, hbit, hmid, hgr,
    fun r ix h => (Dev.raw_latched _ _ _ hl.2).trans ?_⟩
  · rw [Dev.on_emit, Dev.on, hheld]
    decide
  · rw [Dev.rd_emit, hown]
  · rw [← hout, ← Dev.out_emit]
    exact Dev.latched_out _ _
  · rw [Dev.raw_emit, hother r ix h]

/-- Settles O54: a read takes a free lock or shows a held one; RELEASE and FORCE clear the register or change nothing. -/
theorem locks : Obligations.Locks := by
  unfold Obligations.Locks
  intro s m k hl hd
  have hdeaf : ¬s.dev.mbxDeaf m = true := by simp [hd]
  refine ⟨fun hfree => lockAcquire_shows hl hd hfree, fun hheld => ?held, fun hheld hown => ?release, fun h => ?other, fun h => ?force, fun h => ?weak⟩
  case held => exact Runs.of_run hl rfl ((if_neg hdeaf).trans (s.dev.lockRead_held m.mid k.val hheld))
  case release =>
    refine ⟨_, Runs.of_run hl rfl ((if_neg hdeaf).trans (if_pos (by simp [hheld, hown]))), ?_⟩
    simp only [Dev.on_latched _ _ _ hl.2, Dev.raw_latched _ _ _ hl.2]
    exact ⟨Dev.lock_cleared k.val, fun r ix h => Dev.raw_setRaw_of_key _ _ _ _ _ _ h⟩
  case other =>
    refine Runs.of_run hl rfl ((if_neg hdeaf).trans (if_neg ?_))
    rcases h with h | h <;> simp [h]
  case force =>
    have hmay : ((0x40 ≤ m.mid && m.mid ≤ 0x47) || m.mid == 0x50) = true := by
      rcases h with ⟨j, rfl⟩ | rfl
      · exact (by decide : ∀ j : Fin 8, ((0x40 ≤ (Master.svc j).mid && (Master.svc j).mid ≤ 0x47) || (Master.svc j).mid == 0x50) = true) j
      · rfl
    refine ⟨_, Runs.of_run hl rfl ((if_neg hdeaf).trans (if_pos hmay)), ?_⟩
    simp only [Dev.on_latched _ _ _ hl.2, Dev.rd_latched _ _ _ hl.2, Dev.raw_latched _ _ _ hl.2]
    refine ⟨?_, ?_, fun r ix h1 h2 => ?_⟩
    · rw [Dev.on, Dev.rd_inc_apart _ _ _ (by decide)]
      exact Dev.lock_cleared k.val
    · rw [Dev.rd_inc_saturates _ _ _ (by decide) (by decide) (by decide), Dev.rd_setRaw_other _ _ _ _ (by decide) (by decide) (by decide)]
      rfl
    · obtain ⟨v, hv⟩ := (s.dev.setRaw R.MBX_LOCK [k.val] 0).addTo_eq F.MBX_LOCK_FORCED_COUNT [] 1
      rw [Dev.inc, hv, Dev.raw_wr_of_key _ F.MBX_LOCK_FORCED_COUNT r [] ix v h2, Dev.raw_setRaw_of_key _ _ _ _ _ _ h1]
  case weak =>
    refine Runs.of_run hl rfl ((if_neg hdeaf).trans (if_neg ?_))
    rcases h with rfl | rfl <;> decide

/-! ## An effect of a pin on a device that no reset holds -/

/-- A latch on top of that of the same effect adds nothing. -/
theorem Dev.latched_latched {d d' : Dev} (e : Dev) (hd : d.spl.dead = []) (hd' : d'.spl.dead = []) (hs : d'.safe = d.safe)
    (hr : d'.resets = d.resets) (ho : d'.otp = d.otp) : Dev.latched d (Dev.latched d' e) = Dev.latched d e := by
  have hsafe : ((e.safe || (d.safe && decide (e.resets ≤ d.resets))) || (d.safe && decide (max d.resets e.resets ≤ d.resets))) =
      (e.safe || (d.safe && decide (e.resets ≤ d.resets))) := by
    cases e.safe <;> cases d.safe <;> simp
  have hlocked : ((e.otp.locked || d.otp.locked) || d.otp.locked) = (e.otp.locked || d.otp.locked) := by
    rw [Bool.or_assoc, Bool.or_self]
  unfold Dev.latched
  simp only [hd, hd', hs, hr, ho, ite_self, List.foldl_nil, max_self, ← max_assoc, hsafe, hlocked]
  cases d.otp.locked <;> rfl

/-- A command that a pin brings: its level is taken at once, and the effect `f` follows, since no reset holds the device. -/
theorem Runs.of_pin {c : Instr} {s : State} (f pin : Dev → Dev) (hl : Live s)
    (hc : exec c s = s.runAny fun d => (pin d).apply f) (hrst : (pin s.dev).rst.level = s.dev.rst.level)
    (hd : (pin s.dev).spl.dead = s.dev.spl.dead) (hs : (pin s.dev).safe = s.dev.safe)
    (hr : (pin s.dev).resets = s.dev.resets) (ho : (pin s.dev).otp = s.dev.otp) : Runs c s (f (pin s.dev)) := by
  have hlive : (pin s.dev).rst.level.isNone = true := by rw [hrst, hl.1]; rfl
  rw [Runs, hc, State.runAny, Dev.apply, if_pos hlive, Dev.latched_latched _ hl.2 (hd.trans hl.2) hs hr ho]

/-! ## Reference inputs (R412) -/

theorem Dev.on_wr_set {d : Dev} {f : Fld} {n st i j : Nat} (hf : f.reg.dims = [⟨0, n, st⟩]) (hlo : f.lo = f.hi) (hhi : f.hi < 64)
    (hi : i < 2 ^ 20) (hj : j < 2 ^ 20) (h : i = j ∨ d.on f [i] = true) : (d.wr f [j] 1).on f [i] = true := by
  by_cases hij : i = j
  · rw [hij]
    exact d.on_wr_bit f [j] true hlo hhi
  · rw [Dev.on, Dev.rd_wr_of_key _ _ _ _ _ _ (Reg.key_ne_row hf hi hj hij)]
    exact h.resolve_left hij

/-- A bit set at every index of a list reads 1 there. -/
theorem Dev.on_foldl_set {f : Fld} {n st : Nat} (hf : f.reg.dims = [⟨0, n, st⟩]) (hlo : f.lo = f.hi) (hhi : f.hi < 64) {l : List Nat}
    (hl : ∀ i ∈ l, i < 2 ^ 20) {i : Nat} (hi : i < 2 ^ 20) (d : Dev) (h : i ∈ l ∨ d.on f [i] = true) :
    (l.foldl (fun d c => d.wr f [c] 1) d).on f [i] = true := by
  induction l generalizing d with
  | nil => exact h.resolve_left List.not_mem_nil
  | cons a t ih =>
    refine ih (fun j hj => hl j (.tail _ hj)) _ ?_
    rcases h with h | h
    · rcases List.mem_cons.1 h with rfl | h
      · exact .inr (Dev.on_wr_set hf hlo hhi hi hi (.inl rfl))
      · exact .inl h
    · exact .inr (Dev.on_wr_set hf hlo hhi hi (hl a (.head _)) (.inr h))

theorem Dev.raw_foldl_set {f : Fld} {l : List Nat} (r : Reg) (ix : List Nat) (h : ∀ c ∈ l, r.key ix ≠ f.reg.key [c]) (d : Dev) :
    (l.foldl (fun d c => d.wr f [c] 1) d).raw r ix = d.raw r ix := by
  induction l generalizing d with
  | nil => rfl
  | cons a t ih =>
    rw [List.foldl_cons, ih fun c hc => h c (.tail _ hc), Dev.raw_wr_of_key _ _ _ _ _ _ (h a (.head _))]

theorem Dev.unworked_portsLoseReady (d : Dev) (ps : List Nat) : (d.portsLoseReady ps).unworked = d.unworked := by
  have lanes : ∀ (l : List Nat) (e : Dev), (l.foldl (fun d n => d.wr F.LANE_STAT_READY [n] 0) e).unworked = e.unworked :=
    foldl_proj Dev.unworked _ fun e n => e.unworked_wr _ _ _
  exact foldl_proj Dev.unworked _ (fun e p => (Dev.unworked_portDown _ _ _).trans (lanes _ _)) ps d

theorem Dev.rst_of_unworked {d e : Dev} (h : e.unworked = d.unworked) : e.rst = d.rst := by
  have := congrArg Dev.rst h
  exact this

theorem refClusters_lt (b : Fin 7) : ∀ c ∈ refClusters b.val, c < 2 ^ 20 := by
  simp only [refClusters, List.mem_map, List.mem_range]
  rintro c ⟨j, hj, rfl⟩
  omega

/-- Settles O16: the level of the input is taken, and its clusters' REF_OK follows it; the ports that go down with it leave the
reset's own state alone. -/
theorem referenceClocks : Obligations.ReferenceClocks := by
  unfold Obligations.ReferenceClocks
  intro s b hl
  refine ⟨?fails, ?returns, fun m hon => Runs.of_run hl rfl (if_pos hon)⟩
  case fails =>
    have hrun : Runs (.refclkOutOfRange b) s ((refClusters b.val).foldl
        (fun d c => (d.wr F.PCS_CL_STAT_REF_OK [c] 0).portsLoseReady (d.clusterPorts c)) (s.dev.refclk b.val true)) :=
      Runs.of_pin (fun d => (refClusters b.val).foldl
        (fun d c => (d.wr F.PCS_CL_STAT_REF_OK [c] 0).portsLoseReady (d.clusterPorts c)) d) (fun d => d.refclk b.val true) hl rfl rfl rfl rfl rfl rfl
    refine ⟨_, hrun, hrun, ?_⟩
    have hrst := foldl_proj Dev.unworked (fun d c => (d.wr F.PCS_CL_STAT_REF_OK [c] 0).portsLoseReady (d.clusterPorts c))
      (fun e c => (Dev.unworked_portsLoseReady _ _).trans (e.unworked_wr F.PCS_CL_STAT_REF_OK [c] 0)) (refClusters b.val)
      (s.dev.refclk b.val true)
    rw [Dev.latched_rst, Dev.rst_of_unworked hrst]
    exact (bitAt_putBit _ _ _ _).trans (if_pos rfl)
  case returns =>
    have hrun : Runs (.refOkRestore b) s ((refClusters b.val).foldl (fun d c => d.wr F.PCS_CL_STAT_REF_OK [c] 1)
        (s.dev.refclk b.val false)) :=
      Runs.of_pin (fun d => (refClusters b.val).foldl (fun d c => d.wr F.PCS_CL_STAT_REF_OK [c] 1) d)
        (fun d => d.refclk b.val false) hl rfl rfl rfl rfl rfl rfl
    have hlt := refClusters_lt b
    refine ⟨_, hrun, ?_, fun c hc => ?_, fun r ix hne => ?_⟩
    · have hrst := foldl_proj Dev.rst (fun d c => d.wr F.PCS_CL_STAT_REF_OK [c] 1) (fun e c => e.wr_rst _ _ _) (refClusters b.val)
        (s.dev.refclk b.val false)
      rw [Dev.latched_rst, hrst]
      exact (bitAt_putBit _ _ _ _).trans (if_pos rfl)
    · rw [Dev.on_latched _ _ _ hl.2]
      exact Dev.on_foldl_set (f := F.PCS_CL_STAT_REF_OK) rfl rfl (by decide) hlt (hlt c hc) (s.dev.refclk b.val false) (.inl hc)
    · rw [Dev.raw_latched _ _ _ hl.2, Dev.raw_foldl_set (f := F.PCS_CL_STAT_REF_OK) r ix hne]
      rfl

/-! ## Words in error (R393) -/

/-- The dword of `w` is 0 in a stored set of registers. -/
def DeadWord.Zero (w : DeadWord) (m : Sparse Word) : Prop :=
  (Sparse.get w.reset m w.key).toNat / 2 ^ (if w.high then 32 else 0) % 2 ^ 32 = 0

/-- A 64-bit value without its high or low dword. -/
def withoutDword (high : Bool) (v : Nat) : Nat := if high then setBitsOf v 63 32 0 else setBitsOf v 31 0 0

theorem withoutDword_mod {high : Bool} {v : Nat} (hv : v < 2 ^ 64) : withoutDword high v % 2 ^ 64 =
    if high then v % 2 ^ 32 else v / 2 ^ 32 * 2 ^ 32 := by
  cases high <;> simp only [withoutDword, setBitsOf, if_true, Bool.false_eq_true, if_false] <;> omega

theorem DeadWord.get_clear (w : DeadWord) (m : Sparse Word) : (Sparse.get w.reset (w.clear m) w.key).toNat =
    if w.high then (Sparse.get w.reset m w.key).toNat % 2 ^ 32 else (Sparse.get w.reset m w.key).toNat / 2 ^ 32 * 2 ^ 32 := by
  rw [DeadWord.clear, Sparse.get_set_self, BitVec.toNat_ofNat]
  exact withoutDword_mod (BitVec.isLt _)

theorem DeadWord.zero_clear (w : DeadWord) (m : Sparse Word) : w.Zero (w.clear m) := by
  rw [DeadWord.Zero, DeadWord.get_clear]
  cases w.high <;> simp only [if_true, Bool.false_eq_true, if_false] <;> omega

/-- What one word in error clears another one does not bring back. -/
theorem DeadWord.zero_clear_other {w v : DeadWord} {m : Sparse Word} (hreset : w.key = v.key → w.reset = v.reset) (h : w.Zero m) :
    w.Zero (v.clear m) := by
  by_cases hk : w.key = v.key
  · have hget : (Sparse.get w.reset (v.clear m) w.key).toNat = if v.high then (Sparse.get w.reset m w.key).toNat % 2 ^ 32
        else (Sparse.get w.reset m w.key).toNat / 2 ^ 32 * 2 ^ 32 := by
      rw [hreset hk, hk, v.get_clear]
    unfold DeadWord.Zero at h ⊢
    rw [hget]
    generalize (Sparse.get w.reset m w.key).toNat = x at h ⊢
    revert h
    cases w.high <;> cases v.high <;> simp only [if_true, Bool.false_eq_true, if_false, pow_zero, Nat.div_one] <;> omega
  · rw [DeadWord.Zero, DeadWord.clear, Sparse.get_set_other _ _ _ _ _ _ hk]
    exact h

theorem DeadWord.zero_foldl {w : DeadWord} {l : List DeadWord} {m : Sparse Word}
    (hreset : ∀ v ∈ l, w.key = v.key → w.reset = v.reset) (h : w ∈ l ∨ w.Zero m) :
    w.Zero (l.foldl (fun m v => v.clear m) m) := by
  induction l generalizing m with
  | nil => exact h.resolve_left List.not_mem_nil
  | cons a t ih =>
    refine ih (fun v hv => hreset v (.tail _ hv)) ?_
    rcases h with h | h
    · rcases List.mem_cons.1 h with rfl | h
      · exact .inr (w.zero_clear m)
      · exact .inl h
    · exact .inr (DeadWord.zero_clear_other (hreset a (.head _)) h)

/-- Until a reset begins, every step keeps the words in error 0: what it leaves is cleared word by word. -/
theorem step_keeps_dead {s t : State} (h : step s = .next t) (hr : t.dev.resets = s.dev.resets)
    (hreset : ∀ w ∈ s.dev.spl.dead, ∀ v ∈ s.dev.spl.dead, w.key = v.key → w.reset = v.reset)
    (hz : ∀ w ∈ s.dev.spl.dead, w.Zero s.dev.regs) : ∀ w ∈ s.dev.spl.dead, w.Zero t.dev.regs := by
  intro w hw
  obtain he | ⟨e, he⟩ := step_latches h
  · rw [he]
    exact hz w hw
  · rw [he] at hr ⊢
    have hle : e.resets ≤ s.dev.resets := max_eq_left_iff.1 hr
    have hregs : (Dev.latched s.dev e).regs = s.dev.spl.dead.foldl (fun m v => v.clear m) e.regs := by
      simp only [Dev.latched, if_pos hle]
    rw [hregs]
    exact DeadWord.zero_foldl (hreset w hw) (.inl hw)

/-! ## The faults of a clock in one collector (R395 to R402) -/

/-- No register key that faults at collector `k` write before their event. -/
structure OffFaults (k key : Nat) : Prop where
  shared : ∀ r ∈ [R.SPL_FATAL, R.SPL_FATAL_TIME, R.SPL_REC_FILL, R.SPL_REC_SEQ, R.SPL_REC_LOST], key ≠ r.key []
  own : ∀ r ∈ [R.SPL_LATCH, R.SPL_LATCH_TIME, R.SPL_INJ_CNT], key ≠ r.key [k]
  count : ∀ n < 4, key ≠ R.SPL_CNT.key [k, n]
  energy : ∀ n, key ≠ R.ANL_RING_ENERGY.key [n]

theorem Dev.faultNum_lt (d : Dev) (k src : Nat) : d.faultNum k src < 4 := by
  have hsev : faultSev k src < 4 := by
    unfold faultSev
    split
    next c _ => cases c <;> decide
    · decide
  unfold Dev.faultNum Dev.severity
  split
  · split
    · decide
    · exact Nat.mod_lt _ (by decide)
  · exact hsev

/-- What faults at collector `k` leave: every other register, and which collectors count no more. -/
structure Spares (k : Nat) (d e : Dev) : Prop where
  raw : ∀ r ix, OffFaults k (r.key ix) → e.raw r ix = d.raw r ix
  badCnt : e.spl.badCnt = d.spl.badCnt

namespace Spares

variable {k : Nat} {d e f : Dev}

theorem refl (k : Nat) (d : Dev) : Spares k d d := ⟨fun _ _ _ => rfl, rfl⟩

theorem trans (h1 : Spares k d e) (h2 : Spares k e f) : Spares k d f :=
  ⟨fun r ix h => (h2.raw r ix h).trans (h1.raw r ix h), h2.badCnt.trans h1.badCnt⟩

theorem foldl {α : Type} {g : Dev → α → Dev} (h : ∀ d a, Spares k d (g d a)) (l : List α) (d : Dev) : Spares k d (l.foldl g d) :=
  foldl_rel (refl k) (fun _ _ _ => trans) id h l d

theorem of_regs (hr : e.regs = d.regs) (hb : e.spl.badCnt = d.spl.badCnt) : Spares k d e :=
  ⟨fun r ix _ => by rw [Dev.raw, hr, Dev.raw], hb⟩

theorem setRaw (d : Dev) (r : Reg) (ix : List Nat) (v : Nat) (h : ∀ key, OffFaults k key → key ≠ r.key ix) :
    Spares k d (d.setRaw r ix v) := ⟨fun _ _ hq => d.raw_setRaw_of_key _ _ _ _ _ (h _ hq), rfl⟩

theorem wr (d : Dev) (f : Fld) (ix : List Nat) (v : Nat) (h : ∀ key, OffFaults k key → key ≠ f.reg.key ix) :
    Spares k d (d.wr f ix v) := setRaw d f.reg ix _ h

theorem inc (d : Dev) (f : Fld) (ix : List Nat) (h : ∀ key, OffFaults k key → key ≠ f.reg.key ix) : Spares k d (d.inc f ix) := by
  obtain ⟨v, hv⟩ := d.addTo_eq f ix 1
  rw [Dev.inc, hv]
  exact wr d f ix v h

/-- A write of a register that all collectors share, or of one of collector `k`'s own. -/
theorem shared (d : Dev) (f : Fld) (v : Nat)
    (h : f.reg ∈ [R.SPL_FATAL, R.SPL_FATAL_TIME, R.SPL_REC_FILL, R.SPL_REC_SEQ, R.SPL_REC_LOST]) : Spares k d (d.wr f [] v) :=
  wr d f [] v fun _ hk => hk.shared f.reg h

theorem own (d : Dev) (f : Fld) (v : Nat) (h : f.reg ∈ [R.SPL_LATCH, R.SPL_LATCH_TIME, R.SPL_INJ_CNT]) :
    Spares k d (d.wr f [k] v) := wr d f [k] v fun _ hk => hk.own f.reg h

theorem emit (d : Dev) (o : Output) : Spares k d (d.emit o) := of_regs rfl rfl

theorem countFault (d : Dev) (f : FaultIn) : Spares k d (d.countFault k f) := by
  have counted : Spares k d (if d.spl.badCnt.contains k then d else d.inc F.SPL_CNT_COUNT [k, d.faultNum k f.src]) := by
    split
    · exact refl k d
    · exact inc d _ _ fun _ hk => hk.count _ (d.faultNum_lt k f.src)
  unfold Dev.countFault
  dsimp only
  split
  · exact counted.trans (inc _ _ _ fun _ hk => hk.own R.SPL_INJ_CNT (by decide))
  · exact counted

theorem fillLatch (d : Dev) (f : FaultIn) : Spares k d (d.fillLatch k f) :=
  ((((((((setRaw d R.SPL_LATCH [k] 0 fun _ hk => hk.own R.SPL_LATCH (by decide)).trans
    (own _ F.SPL_LATCH_VALID _ (by decide))).trans (own _ F.SPL_LATCH_INJ _ (by decide))).trans
    (own _ F.SPL_LATCH_SORING _ (by decide))).trans (own _ F.SPL_LATCH_CLASS _ (by decide))).trans
    (own _ F.SPL_LATCH_SOURCE _ (by decide))).trans (own _ F.SPL_LATCH_SYNDROME _ (by decide))).trans
    (own _ F.SPL_LATCH_TIME_NS _ (by decide)))

theorem spl (d : Dev) (x : Spl) (h : x.badCnt = d.spl.badCnt) : Spares k d { d with spl := x } := of_regs rfl h

theorem storeRecord (d : Dev) (r : FaultRec) : Spares k d (d.storeRecord r) := by
  have stored := spl (k := k) d { d.spl with records := d.spl.records ++ [{ r with zeroed := d.zeroedIn r.seq }] } rfl
  unfold Dev.storeRecord
  dsimp only
  generalize ({ d with spl := { d.spl with records := d.spl.records ++ [{ r with zeroed := d.zeroedIn r.seq }] } } : Dev) = e at stored ⊢
  exact (stored.trans (shared e F.SPL_REC_FILL_COUNT _ (by decide))).trans (shared _ F.SPL_REC_SEQ_SEQ _ (by decide))

theorem recordOrLose (e : Dev × Nat) (r : FaultRec) (b c : Bool) : Spares k e.1 (Dev.recordOrLose e r b c).1 := by
  unfold Dev.recordOrLose
  split
  · exact storeRecord e.1 r
  · split
    · exact inc e.1 F.SPL_REC_LOST_COUNT [] fun _ hk => hk.shared R.SPL_REC_LOST (by decide)
    · exact refl k e.1

theorem finishJob (d : Dev) (id st r0 r1 r2 : Nat) : Spares k d (d.finishJob id st r0 r1 r2) := by
  unfold Dev.finishJob
  split
  · exact refl k d
  next j _ =>
    obtain ⟨v, h⟩ := d.addTo_eq F.ANL_RING_ENERGY_COUNT [j.sub.ring] (j.energy / (16 * 640000 * 1000))
    dsimp only
    rw [h]
    exact (wr d F.ANL_RING_ENERGY_COUNT [j.sub.ring] v fun _ hk => hk.energy _).trans (of_regs rfl rfl)

theorem enterSafe (d : Dev) (c : Nat) : Spares k d (d.enterSafe c) := by
  have abort : ∀ (e : Dev) (id : Nat), Spares k e (e.abortJob id) := fun e id => finishJob e id 1 _ _ _
  unfold Dev.enterSafe
  split
  · exact refl k d
  · refine trans ?_ (foldl (fun e c => emit e (.coreIrq c)) (List.range 8) _)
    refine trans (trans ?_ (foldl abort (d.hif.jobs.map (·.id)) _)) (of_regs rfl rfl)
    exact of_regs rfl rfl

theorem fatal (d : Dev) (f : FaultIn) : Spares k d (d.fatal k f) := by
  unfold Dev.fatal
  refine trans ?_ (enterSafe _ k)
  split
  · exact shared d F.SPL_FATAL_FATAL_OVF 1 (by decide)
  · exact (((((shared d F.SPL_FATAL_VALID _ (by decide)).trans (shared _ F.SPL_FATAL_INJ _ (by decide))).trans
      (shared _ F.SPL_FATAL_COLLECTOR _ (by decide))).trans (shared _ F.SPL_FATAL_SOURCE _ (by decide))).trans
      (shared _ F.SPL_FATAL_SYNDROME _ (by decide))).trans (shared _ F.SPL_FATAL_TIME_NS _ (by decide))

/-- The registers that faults write before their event. -/
def written : List Reg := [R.SPL_FATAL, R.SPL_FATAL_TIME, R.SPL_REC_FILL, R.SPL_REC_SEQ, R.SPL_REC_LOST, R.SPL_LATCH, R.SPL_LATCH_TIME,
  R.SPL_INJ_CNT, R.SPL_CNT, R.ANL_RING_ENERGY]

/-- Another register is off the faults of every collector. -/
theorem off_of_ne {r : Reg} (ix : List Nat) (h : ∀ q ∈ written, r.win ≠ q.win ∨ r.id ≠ q.id) (hid : r.id < 4096) :
    OffFaults k (r.key ix) := by
  have hne : ∀ q ∈ written, ∀ jx, r.key ix ≠ q.key jx := fun q hq jx =>
    Reg.key_ne ix jx (h q hq) hid ((by decide : ∀ q ∈ written, q.id < 4096) q hq)
  exact ⟨fun q hq => hne q (List.mem_append_left (as := [_, _, _, _, _]) [_, _, _, _, _] hq) [],
    fun q hq => hne q (List.mem_append_right [_, _, _, _, _] (List.mem_append_left (as := [_, _, _]) [_, _] hq)) [k],
    fun n _ => hne _ (by decide) _, fun n => hne _ (by decide) _⟩

/-- Without the event queue of faults, the faults of a clock post nothing. -/
theorem clockFaults (hq : d.on F.HIF_EVQ_EN_FAULT [] = false) (fs : List FaultIn) (c : Bool) : Spares k d (d.clockFaults k fs c).1 := by
  have event : ∀ {e : Dev} (f : FaultIn), Spares k d e → Spares k d (e.faultEvent k f) := fun f h => by
    have he := (Dev.on_of_raw (f := F.HIF_EVQ_EN_FAULT) (h.raw _ [] (off_of_ne [] (by decide) (by decide)))).trans hq
    rwa [Dev.faultEvent, if_neg (by simp [he])]
  have ovf : ∀ (e : Dev) (b : Bool), Spares k e (if b then e else e.wr F.SPL_LATCH_OVF [k] 1) := fun e b => by
    split
    · exact refl k e
    · exact own e F.SPL_LATCH_OVF 1 (by decide)
  have seen : ∀ (e : Dev) (b : Bool), Spares k e (if b then e.wr F.SPL_LATCH_INJ_SEEN [k] 1 else e) := fun e b => by
    split
    · exact own e F.SPL_LATCH_INJ_SEEN 1 (by decide)
    · exact refl k e
  have fatals : ∀ (first : Option FaultIn) (l : List FaultIn) (e : Dev × Nat), Spares k e.1 (l.foldl (fun e f =>
      let e := if first = some f || e.1.faultMasked k f.src then e
        else Dev.recordOrLose e (e.1.faultRecord k f true (e.1.on F.SPL_LATCH_INJ_SEEN [k])) true c
      (e.1.fatal k f, e.2)) e).1 := fun first => foldl_rel (refl k) (fun _ _ _ => trans) Prod.fst fun e f => by
    refine trans ?_ (fatal _ f)
    split
    · exact refl k e.1
    · exact recordOrLose _ _ _ _
  have counted := fun l : List FaultIn => foldl (k := k) countFault l d
  unfold Dev.clockFaults
  dsimp only
  split
  · exact event _ (((((counted _).trans (fillLatch _ _)).trans (ovf _ _)).trans (seen _ _)).trans
      (recordOrLose (_, 0) _ _ c) |>.trans (fatals _ _ _))
  · exact (((counted _).trans (ovf _ _)).trans (seen _ _)).trans (fatals _ _ (_, 0))

theorem lossFaults (hq : d.on F.HIF_EVQ_EN_FAULT [] = false) (n : Nat) : Spares 60 d (d.lossFaults n) := by
  induction n generalizing d with
  | zero => exact refl 60 d
  | succ n ih =>
    have h := clockFaults (k := 60) hq [⟨0x41, 0, false⟩] false
    have hq' := (Dev.on_of_raw (f := F.HIF_EVQ_EN_FAULT) (h.raw _ [] (off_of_ne [] (by decide) (by decide)))).trans hq
    exact h.trans (ih hq')

theorem raiseAll60 (hq : d.on F.HIF_EVQ_EN_FAULT [] = false) (fs : List FaultIn) : Spares 60 d (d.raiseAll 60 fs) := by
  have h := clockFaults (k := 60) hq fs true
  have hq' := (Dev.on_of_raw (f := F.HIF_EVQ_EN_FAULT) (h.raw _ [] (off_of_ne [] (by decide) (by decide)))).trans hq
  exact h.trans (lossFaults hq' _)

/-- A register of a collector below 60 that stands once for each collector. -/
theorem off60_own {r : Reg} (hr : r ∈ [R.SPL_LATCH, R.SPL_LATCH_TIME, R.SPL_INJ_CNT]) {j : Nat} (hj : j < 60) :
    OffFaults 60 (r.key [j]) := by
  obtain ⟨hid, ⟨st, hdims⟩, hother⟩ := (by
    simp only [List.mem_cons, List.not_mem_nil, or_false] at hr
    rcases hr with rfl | rfl | rfl <;> exact ⟨by decide, ⟨_, rfl⟩, by decide⟩ :
    r.id < 4096 ∧ (∃ st, r.dims = [⟨0, 61, st⟩]) ∧
    (∀ q ∈ written, (r = q ∧ q ∈ [R.SPL_LATCH, R.SPL_LATCH_TIME, R.SPL_INJ_CNT]) ∨ ((r.win ≠ q.win ∨ r.id ≠ q.id) ∧ q.id < 4096)))
  have hne : ∀ q ∈ written, q ∉ [R.SPL_LATCH, R.SPL_LATCH_TIME, R.SPL_INJ_CNT] → ∀ jx, r.key [j] ≠ q.key jx := fun q hq hn jx => by
    obtain h | ⟨hqr, hq'⟩ := hother q hq
    · exact absurd h.2 hn
    · exact Reg.key_ne _ _ hqr hid hq'
  refine ⟨fun q hq => ?_, fun q hq => ?_, fun n _ => hne _ (by decide) (by decide) _, fun n => hne _ (by decide) (by decide) _⟩
  · exact hne q (List.mem_append_left (as := [_, _, _, _, _]) [_, _, _, _, _] hq)
      ((by decide : ∀ q ∈ [R.SPL_FATAL, R.SPL_FATAL_TIME, R.SPL_REC_FILL, R.SPL_REC_SEQ, R.SPL_REC_LOST],
        q ∉ [R.SPL_LATCH, R.SPL_LATCH_TIME, R.SPL_INJ_CNT]) q hq) _
  · obtain ⟨rfl, -⟩ | ⟨hqr, hq'⟩ :=
      hother q (List.mem_append_right [_, _, _, _, _] (List.mem_append_left (as := [_, _, _]) [_, _] hq))
    · exact Reg.key_ne_row hdims (by omega) (by omega) (by omega)
    · exact Reg.key_ne _ _ hqr hid hq'

theorem off60_count {j i : Nat} (hj : j < 60) (hi : i < 4) : OffFaults 60 (R.SPL_CNT.key [j, i]) := by
  have hne : ∀ q ∈ written, q ≠ R.SPL_CNT → ∀ jx, R.SPL_CNT.key [j, i] ≠ q.key jx := fun q hq hn jx => by
    obtain ⟨h, hid⟩ := (by decide : ∀ q ∈ written, q ≠ R.SPL_CNT →
      (R.SPL_CNT.win ≠ q.win ∨ R.SPL_CNT.id ≠ q.id) ∧ q.id < 4096) q hq hn
    exact Reg.key_ne _ _ h (by decide) hid
  refine ⟨fun q hq => ?_, fun q hq => ?_, fun n hn he => ?_, fun n => hne _ (by decide) (by decide) _⟩
  · exact hne q (List.mem_append_left (as := [_, _, _, _, _]) [_, _, _, _, _] hq)
      ((by decide : ∀ q ∈ [R.SPL_FATAL, R.SPL_FATAL_TIME, R.SPL_REC_FILL, R.SPL_REC_SEQ, R.SPL_REC_LOST], q ≠ R.SPL_CNT) q hq) _
  · exact hne q (List.mem_append_right [_, _, _, _, _] (List.mem_append_left (as := [_, _, _]) [_, _] hq))
      ((by decide : ∀ q ∈ [R.SPL_LATCH, R.SPL_LATCH_TIME, R.SPL_INJ_CNT], q ≠ R.SPL_CNT) q hq) _
  · have hrow : ∀ a b, R.SPL_CNT.key [a, b] = R.SPL_CNT.keyAt (a * 4 + b) := fun a b => by simp [Reg.key, R.SPL_CNT, flatIndex]
    rw [hrow, hrow] at he
    have := Reg.keyAt_inj _ (by omega) (by omega) he
    omega

end Spares

/-! ## One fault that latches (R395 to R399) -/

section OneFault

variable {d : Dev} {k src syn : Nat}

theorem Dev.comm_of_unreported {d e : Dev} (h : e.unreported = d.unreported) : e.comm = d.comm := by
  have := congrArg Dev.comm h
  exact this

theorem Dev.cm_of_comm {d e : Dev} (h : e.comm = d.comm) (f : Fld) (ix : List Nat) : e.cm f ix = d.cm f ix := by
  rw [Dev.cm, Dev.rawC, h, Dev.cm, Dev.rawC]

/-- The class or severity of a source follows the committed configuration alone. -/
theorem Dev.faultNum_of_comm {d e : Dev} (h : e.comm = d.comm) (k src : Nat) : e.faultNum k src = d.faultNum k src := by
  unfold Dev.faultNum Dev.severity Dev.onC
  rw [Dev.cm_of_comm h, Dev.cm_of_comm h]

theorem Dev.faultFatal_of_comm {d e : Dev} (h : e.comm = d.comm) (k src : Nat) : e.faultFatal k src = d.faultFatal k src := by
  rw [Dev.faultFatal, Dev.faultNum_of_comm h, Dev.faultFatal]

theorem Dev.comm_countFault (d : Dev) (k : Nat) (f : FaultIn) : (d.countFault k f).comm = d.comm :=
  Dev.comm_of_unreported (by simp only [Dev.countFault, apply_ite Dev.unreported, Dev.unreported_inc, ite_self])

theorem Dev.comm_fillLatch (d : Dev) (k : Nat) (f : FaultIn) : (d.fillLatch k f).comm = d.comm :=
  Dev.comm_of_unreported (by simp only [Dev.fillLatch, Dev.unreported_wr, Dev.unreported_setRaw])

theorem Dev.comm_recordOrLose (e : Dev × Nat) (r : FaultRec) (b c : Bool) : (Dev.recordOrLose e r b c).1.comm = e.1.comm :=
  Dev.recordOrLose_rel (R := fun d e => e.comm = d.comm) (fun _ => rfl) (fun _ _ _ h1 h2 => h2.trans h1)
    (fun _ _ => Dev.comm_of_unreported) (fun _ _ => rfl) e r b c

/-- The flags of a latch just filled: valid, and neither overflow nor an injection seen. -/
theorem Dev.fillLatch_flags (d : Dev) (k : Nat) (f : FaultIn) : (d.fillLatch k f).on F.SPL_LATCH_OVF [k] = false ∧
    (d.fillLatch k f).on F.SPL_LATCH_INJ_SEEN [k] = false ∧ (d.fillLatch k f).on F.SPL_LATCH_VALID [k] = true := by
  have zero : ∀ g : Fld, g.reg = R.SPL_LATCH → (d.setRaw R.SPL_LATCH [k] 0).rd g [k] = 0 := fun g hg => by
    rw [Dev.rd, hg, Dev.raw_setRaw_self]
    exact bitsOf_zero _ _
  unfold Dev.fillLatch
  refine ⟨?_, ?_, ?_⟩
  · simp (disch := decide) only [Dev.on, Dev.rd_wr_apart, zero F.SPL_LATCH_OVF rfl, bne_self_eq_false]
  · simp (disch := decide) only [Dev.on, Dev.rd_wr_apart, zero F.SPL_LATCH_INJ_SEEN rfl, bne_self_eq_false]
  · simp (disch := decide) only [Dev.on, Dev.rd_wr_apart, Dev.rd_wr_fits]
    rfl

/-- The counts of a fault change nothing that decides whether it latches. -/
theorem Dev.faultLatches_countFault (d : Dev) (k src : Nat) (f : FaultIn) :
    (d.countFault k f).faultLatches k src = d.faultLatches k src ∧
    (d.countFault k f).on F.SPL_LATCH_VALID [k] = d.on F.SPL_LATCH_VALID [k] := by
  have hrd : ∀ (g : Fld) (ix : List Nat), g.apart F.SPL_CNT_COUNT = true → g.apart F.SPL_INJ_CNT_COUNT = true →
      (d.countFault k f).rd g ix = d.rd g ix := fun g ix h1 h2 => by
    simp only [Dev.countFault, apply_ite (fun e : Dev => e.rd g ix), Dev.rd_inc_apart _ _ _ h1, Dev.rd_inc_apart _ _ _ h2, ite_self]
  have hcomm := d.comm_countFault k f
  refine ⟨?_, ?_⟩
  · simp only [Dev.faultLatches, Dev.faultMasked, Dev.collectorBroken, Dev.onC, Dev.cm_of_comm hcomm, Dev.faultNum_of_comm hcomm,
      hrd F.SPL_MASK_MASK _ (by decide) (by decide), hrd F.SPL_STAT2_BROKEN _ (by decide) (by decide)]
  · rw [Dev.on, hrd _ _ (by decide) (by decide), Dev.on]

theorem orderFaults_single {f : FaultIn} (h : f.inj = false) : orderFaults [f] = [f] := by
  simp [orderFaults, orderFaults.insert, h]

/-- A fault alone in its clock that latches, and is not fatal: it is counted, fills the empty latch, and its record and its event
follow. -/
theorem Dev.clockFaults_latch (hlive : d.collectorLive k = true) (hclass : (faultClass k src).isSome = true)
    (hlatch : d.faultLatches k src = true) (hempty : d.on F.SPL_LATCH_VALID [k] = false) (hfatal : d.faultFatal k src = false)
    (c : Bool) : d.clockFaults k [⟨src, syn, false⟩] c =
      let e := (d.countFault k ⟨src, syn, false⟩).fillLatch k ⟨src, syn, false⟩
      let r := Dev.recordOrLose (e, 0) (e.faultRecord k ⟨src, syn, false⟩ false false) false c
      (r.1.faultEvent k ⟨src, syn, false⟩, r.2) := by
  obtain ⟨hl, hv⟩ := d.faultLatches_countFault k src ⟨src, syn, false⟩
  obtain ⟨hovf, hseen, -⟩ := (d.countFault k ⟨src, syn, false⟩).fillLatch_flags k ⟨src, syn, false⟩
  have hcomm : ((d.countFault k ⟨src, syn, false⟩).fillLatch k ⟨src, syn, false⟩).comm = d.comm :=
    (Dev.comm_fillLatch _ _ _).trans (d.comm_countFault _ _)
  have hrec := fun r => (Dev.faultFatal_of_comm ((Dev.comm_recordOrLose
    ((d.countFault k ⟨src, syn, false⟩).fillLatch k ⟨src, syn, false⟩, 0) r false c).trans hcomm) k src).trans hfatal
  unfold Dev.clockFaults
  simp only [List.filter_cons, List.filter_nil, hclass, hlive, Bool.false_or, Bool.true_and, if_true,
    orderFaults_single, List.foldl_cons, List.foldl_nil, hl, hlatch, hv, hempty, Bool.not_false, List.head?_cons, List.tail_cons,
    List.isEmpty_nil, List.any_nil, Bool.false_eq_true, if_false, hovf, hseen,
    (Dev.faultFatal_of_comm hcomm k src).trans hfatal, hrec]

/-- One fault that latches and is not fatal, with the losses that its record may bring. -/
theorem Dev.raise_latch (hlive : d.collectorLive k = true) (hclass : (faultClass k src).isSome = true)
    (hbroken : d.collectorBroken k = false) (hempty : d.on F.SPL_LATCH_VALID [k] = false) (hmask : d.faultMasked k src = false)
    (hnum : d.faultNum k src = 1 ∨ d.faultNum k src = 2) :
    let f : FaultIn := { src := src, syn := syn, inj := false }
    let e := (d.countFault k f).fillLatch k f
    let r := Dev.recordOrLose (e, 0) (e.faultRecord k f false false) false true
    d.raise k src syn = (r.1.faultEvent k f).lossFaults r.2 := by
  have hlatch : d.faultLatches k src = true := by
    rw [Dev.faultLatches, hmask, hbroken]
    rcases hnum with h | h <;> rw [h] <;> rfl
  have hfatal : d.faultFatal k src = false := by
    rw [Dev.faultFatal]
    rcases hnum with h | h <;> rw [h] <;> rfl
  intro f e r
  rw [Dev.raise, Dev.raiseAll, Dev.clockFaults_latch hlive hclass hlatch hempty hfatal true]

end OneFault

/-! ## Faults that bring the safe state (R400, R405, R406) -/

theorem Dev.fatal_safe (d : Dev) (k : Nat) (f : FaultIn) : (d.fatal k f).safe = true := Dev.enterSafe_safe _ k

/-- A fatal fault of a live collector enters the safe state, whatever else its clock does. -/
theorem Dev.raise_fatal {d : Dev} {k src : Nat} (syn : Nat) (hlive : d.collectorLive k = true)
    (hclass : (faultClass k src).isSome = true) (hfatal : d.faultFatal k src = true) : (d.raise k src syn).safe = true := by
  have event : ∀ (e : Dev) (f : FaultIn), (e.faultEvent k f).safe = e.safe := fun e f => Dev.safe_of_unreported (by
    simp only [Dev.faultEvent, apply_ite Dev.unreported, Dev.unreported_postEvent, ite_self])
  have loss : ∀ (n : Nat) (e : Dev), e.safe = true → (e.lossFaults n).safe = true := fun n => by
    induction n with
    | zero => exact fun _ h => h
    | succ n ih => exact fun e h => ih _ (Dev.clockFaults_rel (R := fun d e => d.safe = true → e.safe = true) (fun _ => id)
        (fun _ _ _ f g => g ∘ f) (fun _ _ he hd => (Dev.safe_of_unreported he).trans hd) (fun _ _ => id)
        (fun e k _ => e.enterSafe_safe k) e 60 _ false h)
  have wr : ∀ (e : Dev) (f : Fld) (ix : List Nat) (v : Nat), (e.wr f ix v).comm = e.comm := fun e f ix v => e.wr_comm f ix v
  have act : ∀ {g : Dev × Nat → FaultIn → Dev × Nat} (e : Dev × Nat) {b : Bool}, (∀ e f, (g e f).1.safe = true) → b = true →
      (List.foldl g e (if b = true then [⟨src, syn, false⟩] else [])).1.safe = true := fun e b hg hb => by
    rw [if_pos hb]
    exact hg e _
  refine loss _ _ ?_
  unfold Dev.clockFaults
  simp only [List.filter_cons, List.filter_nil, hclass, hlive, Bool.false_or, Bool.true_and, if_true, orderFaults_single,
    List.foldl_cons, List.foldl_nil]
  split
  next f _ =>
    rw [event]
    refine act _ (fun _ _ => Dev.fatal_safe _ _ _) ((Dev.faultFatal_of_comm ?_ k src).trans hfatal)
    simp only [Dev.comm_recordOrLose, apply_ite Dev.comm, wr, ite_self, Dev.comm_fillLatch, Dev.comm_countFault]
  next _ =>
    refine act _ (fun _ _ => Dev.fatal_safe _ _ _) ((Dev.faultFatal_of_comm ?_ k src).trans hfatal)
    simp only [apply_ite Dev.comm, wr, ite_self, Dev.comm_countFault]

/-- A hard source of class FT is fatal in both modes. -/
theorem Dev.faultFatal_hard (d : Dev) {k src : Nat} (hh : faultHard k src = true) (hs : faultSev k src = 3) :
    d.faultFatal k src = true := by
  simp only [Dev.faultFatal, Dev.faultNum, Dev.severity, hh, hs, if_true, ite_self, beq_self_eq_true]


/-! ## The commands of the collectors (R393, R397, R401, R405) -/

theorem Dev.injRefused_iff (d : Dev) (k src : Nat) : d.injRefused k src = true ↔ d.on F.SPL_CFG_INJ_LOCK [] = true ∨
    faultClass k src = none ∨ (d.faultNum k src = 3 ∧ d.on F.SPL_CFG_INJ_FT [] = false) ∨ d.on F.SPL_STAT_INJ_PEND [] = true := by
  simp only [Dev.injRefused, Dev.faultFatal, Bool.or_eq_true, Bool.and_eq_true, Option.isNone_iff_eq_none, beq_iff_eq,
    Bool.not_eq_true', or_assoc]

/-- The faults of a clock, each collector as the command gives it. -/
theorem runs_faultRaise {s : State} (hl : Live s) (k : Fin 61) (faults : FaultClock) (hit : List Contained) :
    Runs (.faultRaise k faults hit) s (((k, faults.own) :: faults.others).foldl
      (fun d x => (faultsIn x.2).foldl (fun d f => d.sourceActs x.1.val f) (d.raiseReal x.1.val (faultsIn x.2)))
      (((k, faults.own) :: faults.others).foldl (fun d x => d.containAt x.1.val (faultsIn x.2) hit) s.dev)) := by
  refine Runs.of_run hl rfl ?_
  simp only [← List.map_cons (f := fun x : Fin 61 × List (BitVec 8 × BitVec 32) => (x.1.val, faultsIn x.2)) (a := (k, faults.own)),
    List.foldl_map]
  rfl

section Injection

variable {s : State} {m : Master} {k : Fin 61} (hl : Live s) (hw : splWriter m = true) (hb : s.dev.hostBlocked m = false)
  (hi : s.dev.on F.RST_STAT_INIT_DONE [] = true)

include hl hw hb hi

theorem runs_faultInject {v : BitVec 32} (hv : bitAt v.toNat 31 = true) :
    Runs (.faultInject m k v) s (s.dev.inject (s.dev.plain R.SPL_INJ [k.val] v.toNat 31 0) k.val) := by
  refine Runs.of_run hl rfl ((if_pos (by simp [hw, hv])).trans ((Dev.access_initialised _ _ _ hb hi).trans ?_))
  exact if_pos hv

/-- An injection that is not refused waits for its clock edge; INJ_REJ stays as it is. -/
theorem faultInject_shows {v : BitVec 32} (hv : bitAt v.toNat 31 = true)
    (hr : s.dev.injRefused k.val ((s.dev.plain R.SPL_INJ [k.val] v.toNat 31 0).rd F.SPL_INJ_SOURCE [k.val]) = false) :
    ∃ t, exec (.faultInject m k v) s = .next t ∧ t.dev.on F.SPL_STAT_INJ_PEND [] = true ∧
      t.dev.spl.inj = some (k.val, (s.dev.plain R.SPL_INJ [k.val] v.toNat 31 0).rd F.SPL_INJ_SOURCE [k.val],
        s.dev.rd F.SPL_INJ_SYN_SYNDROME [k.val]) ∧ t.dev.on F.SPL_STAT_INJ_REJ [] = s.dev.on F.SPL_STAT_INJ_REJ [] := by
  have hrun := runs_faultInject (k := k) hl hw hb hi hv
  have hsyn : (s.dev.plain R.SPL_INJ [k.val] v.toNat 31 0).rd F.SPL_INJ_SYN_SYNDROME [k.val] = s.dev.rd F.SPL_INJ_SYN_SYNDROME [k.val] :=
    s.dev.rd_setRaw_other _ _ _ (by decide) (by decide) (by decide)
  have hrej : (s.dev.plain R.SPL_INJ [k.val] v.toNat 31 0).on F.SPL_STAT_INJ_REJ [] = s.dev.on F.SPL_STAT_INJ_REJ [] := by
    rw [Dev.on, Dev.on]
    exact congrArg (· != 0) (s.dev.rd_setRaw_other _ _ _ (by decide) (by decide) (by decide))
  generalize s.dev.plain R.SPL_INJ [k.val] v.toNat 31 0 = e at *
  have hspl : ∀ (a : Dev) (x : Spl) (f : Fld), ({ a with spl := x } : Dev).on f [] = a.on f [] := fun _ _ _ => rfl
  rw [Dev.inject, if_neg (Bool.eq_false_iff.1 hr)] at hrun
  refine ⟨_, hrun, (Dev.on_latched _ _ _ hl.2).trans ?_, ?_, (Dev.on_latched _ _ _ hl.2).trans ?_⟩
  · rw [hspl]
    exact e.on_wr_bit F.SPL_STAT_INJ_PEND [] true rfl (by decide)
  · rw [Dev.latched_spl, hsyn]
  · rw [hspl, Dev.on_wr_apart _ _ _ _ (by decide), hrej]

theorem latchClear_shows (hv : s.dev.on F.SPL_LATCH_VALID [k.val] = true) : ∃ t, exec (.latchClear m k) s = .next t ∧
    t.dev.raw R.SPL_LATCH [k.val] = 0 ∧ t.dev.raw R.SPL_LATCH_TIME [k.val] = 0 ∧
    (∀ r ix, r.key ix ≠ R.SPL_LATCH.key [k.val] → r.key ix ≠ R.SPL_LATCH_TIME.key [k.val] → t.dev.raw r ix = s.dev.raw r ix) := by
  have hrun : Runs (.latchClear m k) s (s.dev.clearLatch k.val) :=
    Runs.of_run hl rfl ((if_pos hw).trans ((Dev.access_initialised _ _ _ hb hi).trans (if_pos hv)))
  refine ⟨_, hrun, (Dev.raw_latched _ _ _ hl.2).trans ?_, (Dev.raw_latched _ _ _ hl.2).trans ?_,
    fun r ix h1 h2 => (Dev.raw_latched _ _ _ hl.2).trans ?_⟩ <;> unfold Dev.clearLatch
  · rw [Dev.raw_setRaw_other _ _ _ _ _ _ (by decide) (by decide) (by decide), Dev.raw_setRaw_self]
    rfl
  · rw [Dev.raw_setRaw_self]
    rfl
  · rw [Dev.raw_setRaw_of_key _ _ _ _ _ _ h2, Dev.raw_setRaw_of_key _ _ _ _ _ _ h1]

end Injection

/-- A next state whose effect is in the safe state is in it. -/
theorem Runs.showsSafe {c : Instr} {s : State} {d : Dev} (h : Runs c s d) (hd : d.safe = true) :
    ∃ t, exec c s = .next t ∧ t.dev.safe = true := ⟨_, h, by simp only [Dev.latched, hd, Bool.true_or]⟩

/-- The two sources of collector 60 that are hard enter the safe state. -/
theorem Dev.raise_root (d : Dev) {src : Nat} (h : src = 0x42 ∨ src = 0x43) : (d.raise 60 src 0).safe = true := by
  rcases h with rfl | rfl <;>
    exact Dev.raise_fatal 0 rfl (by decide) (d.faultFatal_hard (by decide) (by decide))

/-! ### A broken collector (R405) -/

section Broken

variable (d : Dev) (k : Nat)

/-- Collector `k` marked broken. -/
def Dev.markBroken : Dev := d.wr F.SPL_STAT2_BROKEN [] (putBit (d.rd F.SPL_STAT2_BROKEN []) k true)

/-- The latch and the counters of collector `k` cleared. -/
def Dev.collCleared : Dev :=
  (List.range 4).foldl (fun d i => d.setRaw R.SPL_CNT [k, i] 0) ((d.clearLatch k).setRaw R.SPL_INJ_CNT [k] 0)

theorem Dev.markBroken_broken {k : Nat} (hk : k < 61) : (d.markBroken k).collectorBroken k = true := by
  rw [Dev.collectorBroken, Dev.markBroken, Dev.rd_wr_width _ _ _ (w := 61) rfl (by decide) (by decide), bitAt_eq_testBit,
    Nat.testBit_mod_two_pow, ← bitAt_eq_testBit, bitAt_putBit, if_pos rfl]
  simpa using hk

/-- What clears the counters of a collector writes SPL_CNT alone. -/
theorem Dev.raw_clearCounts (l : List Nat) (e : Dev) (r : Reg) (ix : List Nat) (h : r.win ≠ R.SPL_CNT.win ∨ r.id ≠ R.SPL_CNT.id)
    (hid : r.id < 4096) : (l.foldl (fun d i => d.setRaw R.SPL_CNT [k, i] 0) e).raw r ix = e.raw r ix :=
  foldl_proj (fun d : Dev => d.raw r ix) _ (fun d _ => d.raw_setRaw_other _ _ _ _ _ h hid (by decide)) l e

theorem Dev.raw_collCleared (r : Reg) (ix : List Nat) (hid : r.id < 4096)
    (h : ∀ q ∈ [R.SPL_LATCH, R.SPL_LATCH_TIME, R.SPL_INJ_CNT, R.SPL_CNT], r.win ≠ q.win ∨ r.id ≠ q.id) :
    (d.collCleared k).raw r ix = d.raw r ix := by
  rw [Dev.collCleared, Dev.raw_clearCounts _ _ _ _ _ (h _ (by decide)) hid, Dev.clearLatch,
    Dev.raw_setRaw_other _ _ _ _ _ _ (h R.SPL_INJ_CNT (by decide)) hid (by decide),
    Dev.raw_setRaw_other _ _ _ _ _ _ (h R.SPL_LATCH_TIME (by decide)) hid (by decide),
    Dev.raw_setRaw_other _ _ _ _ _ _ (h R.SPL_LATCH (by decide)) hid (by decide)]

theorem Dev.collCleared_zero : (d.collCleared k).raw R.SPL_LATCH [k] = 0 ∧ (d.collCleared k).raw R.SPL_LATCH_TIME [k] = 0 ∧
    (d.collCleared k).raw R.SPL_INJ_CNT [k] = 0 := by
  unfold Dev.collCleared Dev.clearLatch
  refine ⟨?_, ?_, ?_⟩ <;> rw [Dev.raw_clearCounts _ _ _ _ _ (by decide) (by decide)]
  · rw [Dev.raw_setRaw_other _ _ _ _ _ _ (by decide) (by decide) (by decide),
      Dev.raw_setRaw_other _ _ _ _ _ _ (by decide) (by decide) (by decide), Dev.raw_setRaw_self]
    rfl
  · rw [Dev.raw_setRaw_other _ _ _ _ _ _ (by decide) (by decide) (by decide), Dev.raw_setRaw_self]
    rfl
  · rw [Dev.raw_setRaw_self]
    rfl

theorem Dev.collCleared_counts {k i : Nat} (hk : k < 61) (hi : i < 4) : (d.collCleared k).raw R.SPL_CNT [k, i] = 0 := by
  have hrow : ∀ b, R.SPL_CNT.key [k, b] = R.SPL_CNT.keyAt (k * 4 + b) := fun b => by simp [Reg.key, R.SPL_CNT, flatIndex]
  have hne : ∀ {j}, j < 4 → i ≠ j → R.SPL_CNT.key [k, i] ≠ R.SPL_CNT.key [k, j] := fun hj hij he => by
    rw [hrow, hrow] at he
    have := Reg.keyAt_inj _ (by omega) (by omega) he
    omega
  have clears : ∀ (l : List Nat) (e : Dev), (∀ j ∈ l, j < 4) → i ∈ l ∨ e.raw R.SPL_CNT [k, i] = 0 →
      (l.foldl (fun d i => d.setRaw R.SPL_CNT [k, i] 0) e).raw R.SPL_CNT [k, i] = 0 := fun l => by
    induction l with
    | nil => exact fun e _ h => h.resolve_left List.not_mem_nil
    | cons a t ih =>
      refine fun e hl h => ih _ (fun j hj => hl j (.tail _ hj)) ?_
      by_cases hia : i = a
      · subst hia
        rw [Dev.raw_setRaw_self]
        exact .inr rfl
      · rw [Dev.raw_setRaw_of_key _ _ _ _ _ _ (hne (hl a (.head _)) hia)]
        rcases h with h | h
        · exact .inl ((List.mem_cons.1 h).resolve_left hia)
        · exact .inr h
  exact clears _ _ (fun j hj => List.mem_range.1 hj) (.inl (List.mem_range.2 hi))

end Broken

theorem collPar_shows {s : State} (hl : Live s) (k : Fin 60) (counter : Bool) (hq : s.dev.on F.HIF_EVQ_EN_FAULT [] = false) :
    ∃ t, exec (.collPar { collector := ⟨k.val, by omega⟩, counter := counter }) s = .next t ∧ t.dev.collectorBroken k.val = true ∧
      t.dev.raw R.SPL_LATCH [k.val] = 0 ∧ t.dev.raw R.SPL_LATCH_TIME [k.val] = 0 ∧ t.dev.raw R.SPL_INJ_CNT [k.val] = 0 ∧
      (∀ i, i < 4 → t.dev.raw R.SPL_CNT [k.val, i] = 0) ∧ (counter = true → t.dev.spl.badCnt.contains k.val = true) ∧
      (counter = false → t.dev.spl.badCnt = s.dev.spl.badCnt) := by
  have hmark : ∀ (a : Dev), (a.markBroken k.val).spl = a.spl := fun a => a.wr_spl _ _ _
  have hclear : ∀ (a : Dev), (a.collCleared k.val).spl = a.spl := fun a =>
    foldl_proj (fun d : Dev => d.spl) _ (fun d i => d.setRaw_spl _ _ _) _ _
  let a : Dev := if counter then { s.dev with spl := { s.dev.spl with
    badCnt := k.val :: s.dev.spl.badCnt.filter (fun j => j != k.val) } } else s.dev
  have haq : a.on F.HIF_EVQ_EN_FAULT [] = false := by
    cases counter <;> exact hq
  have hrun : Runs (.collPar { collector := ⟨k.val, by omega⟩, counter := counter }) s
      (((a.markBroken k.val).collCleared k.val).raise 60 0x40 k.val) := Runs.of_run hl rfl rfl
  have hbq : ((a.markBroken k.val).collCleared k.val).on F.HIF_EVQ_EN_FAULT [] = false := by
    rw [Dev.on_of_raw ((a.markBroken k.val).raw_collCleared k.val F.HIF_EVQ_EN_FAULT.reg [] (by decide) (by decide)), Dev.markBroken,
      Dev.on_wr_apart _ _ _ _ (by decide), haq]
  have hspares : Spares 60 ((a.markBroken k.val).collCleared k.val) _ := Spares.raiseAll60 hbq [⟨0x40, k.val, false⟩]
  obtain ⟨hlatch, htime, hinj⟩ := (a.markBroken k.val).collCleared_zero k.val
  have hcnt := hspares.badCnt
  rw [hclear, hmark] at hcnt
  refine ⟨_, hrun, ?_, (Dev.raw_latched _ _ _ hl.2).trans ?_, (Dev.raw_latched _ _ _ hl.2).trans ?_,
    (Dev.raw_latched _ _ _ hl.2).trans ?_, fun i hi => (Dev.raw_latched _ _ _ hl.2).trans ?_, fun hc => ?_, fun hc => ?_⟩
  · have hbroken := (Dev.rd_of_raw (f := F.SPL_STAT2_BROKEN) (hspares.raw _ [] (Spares.off_of_ne [] (by decide) (by decide)))).trans
      (Dev.rd_of_raw ((a.markBroken k.val).raw_collCleared k.val F.SPL_STAT2_BROKEN.reg [] (by decide) (by decide)))
    have hset := a.markBroken_broken (k := k.val) (by omega)
    rw [Dev.collectorBroken] at hset ⊢
    rw [Dev.rd_latched _ _ _ hl.2]
    exact (congrArg (bitAt · k.val) hbroken).trans hset
  · exact (hspares.raw _ _ (Spares.off60_own (by decide) k.isLt)).trans hlatch
  · exact (hspares.raw _ _ (Spares.off60_own (by decide) k.isLt)).trans htime
  · exact (hspares.raw _ _ (Spares.off60_own (by decide) k.isLt)).trans hinj
  · exact (hspares.raw _ _ (Spares.off60_count k.isLt hi)).trans (Dev.collCleared_counts _ (by omega) hi)
  · rw [Dev.latched_spl]
    refine (congrArg (·.contains k.val) hcnt).trans ?_
    simp only [a, hc, if_true]
    exact List.contains_iff_mem.2 (.head _)
  · rw [Dev.latched_spl]
    refine hcnt.trans ?_
    simp only [a, hc, Bool.false_eq_true, if_false]

/-! ### What a latch holds (R397) -/

section Latch

variable {d : Dev} {k src syn : Nat}

theorem Dev.ns_of_unreported {d e : Dev} (h : e.unreported = d.unreported) : e.ns = d.ns := by
  have := congrArg Dev.ns h
  exact this

/-- The fields of a latch that a real fault fills. -/
theorem Dev.fillLatch_fields (hsyn : syn < 2 ^ 32) :
    (d.fillLatch k ⟨src, syn, false⟩).rd F.SPL_LATCH_SOURCE [k] = src % 256 ∧
    (d.fillLatch k ⟨src, syn, false⟩).rd F.SPL_LATCH_SYNDROME [k] = syn ∧
    (d.fillLatch k ⟨src, syn, false⟩).rd F.SPL_LATCH_CLASS [k] = d.faultNum k src ∧
    (d.fillLatch k ⟨src, syn, false⟩).on F.SPL_LATCH_INJ [k] = false ∧
    (d.fillLatch k ⟨src, syn, false⟩).rd F.SPL_LATCH_TIME_NS [k] = d.ns % 2 ^ 64 := by
  unfold Dev.fillLatch
  refine ⟨?_, ?_, ?_, ?_, ?_⟩
  · rw [Dev.rd_wr_apart _ _ _ _ (by decide), Dev.rd_wr_apart _ _ _ _ (by decide), Dev.rd_wr_width _ _ _ (w := 8) rfl (by decide) (by decide)]
    rfl
  · rw [Dev.rd_wr_apart _ _ _ _ (by decide), Dev.rd_wr_fits _ _ _ _ (by decide) (by decide) hsyn]
  · rw [Dev.rd_wr_apart _ _ _ _ (by decide), Dev.rd_wr_apart _ _ _ _ (by decide), Dev.rd_wr_apart _ _ _ _ (by decide),
      Dev.rd_wr_fits _ F.SPL_LATCH_CLASS _ _ (by decide) (by decide) (Dev.faultNum_lt _ _ _)]
    exact Dev.faultNum_of_comm (Dev.comm_of_unreported (by simp only [Dev.unreported_wr, Dev.unreported_setRaw])) _ _
  · rw [Dev.on, Dev.rd_wr_apart _ _ _ _ (by decide), Dev.rd_wr_apart _ _ _ _ (by decide), Dev.rd_wr_apart _ _ _ _ (by decide),
      Dev.rd_wr_apart _ _ _ _ (by decide), Dev.rd_wr_apart _ _ _ _ (by decide),
      Dev.rd_wr_fits _ F.SPL_LATCH_INJ _ _ (by decide) (by decide) (show b2n false < 2 by decide)]
    rfl
  · rw [Dev.rd_wr_width _ _ _ (w := 64) rfl (by decide) (by decide)]
    exact congrArg (· % 2 ^ 64) (Dev.ns_of_unreported (by simp only [Dev.unreported_wr, Dev.unreported_setRaw]))

/-- The latch of a collector below 60 after a fault that it latches: neither the record nor its loss touches it. -/
theorem Dev.raise_latch_raw (hk : k < 60) (hlive : d.collectorLive k = true) (hclass : (faultClass k src).isSome = true)
    (hbroken : d.collectorBroken k = false) (hempty : d.on F.SPL_LATCH_VALID [k] = false) (hmask : d.faultMasked k src = false)
    (hnum : d.faultNum k src = 1 ∨ d.faultNum k src = 2) (hq : d.on F.HIF_EVQ_EN_FAULT [] = false) {r : Reg}
    (hr : r ∈ [R.SPL_LATCH, R.SPL_LATCH_TIME, R.SPL_INJ_CNT]) :
    (d.raise k src syn).raw r [k] = ((d.countFault k ⟨src, syn, false⟩).fillLatch k ⟨src, syn, false⟩).raw r [k] := by
  have hfilled := (Spares.countFault (k := k) d ⟨src, syn, false⟩).trans (Spares.fillLatch _ ⟨src, syn, false⟩)
  rw [Dev.raise_latch hlive hclass hbroken hempty hmask hnum]
  generalize (d.countFault k ⟨src, syn, false⟩).fillLatch k ⟨src, syn, false⟩ = e at hfilled ⊢
  have hevq := fun {x : Dev} (h : Spares k d x) =>
    (Dev.on_of_raw (f := F.HIF_EVQ_EN_FAULT) (h.raw _ [] (Spares.off_of_ne [] (by decide) (by decide)))).trans hq
  have hrecord := Spares.recordOrLose (k := 60) (e, 0) (e.faultRecord k ⟨src, syn, false⟩ false false) false true
  have hrec := hevq (hfilled.trans (Spares.recordOrLose (e, 0) (e.faultRecord k ⟨src, syn, false⟩ false false) false true))
  generalize Dev.recordOrLose (e, 0) (e.faultRecord k ⟨src, syn, false⟩ false false) false true = x at hrecord hrec ⊢
  rw [Dev.faultEvent, if_neg (by simp [hrec]), (Spares.lossFaults hrec x.2).raw _ _ (Spares.off60_own hr hk)]
  exact hrecord.raw _ _ (Spares.off60_own hr hk)

end Latch

theorem Dev.recordOrLose_room {d : Dev} {n : Nat} {r : FaultRec} {fatal : Bool} (h : d.recordRoom fatal = true) :
    Dev.recordOrLose (d, n) r fatal true = (d.storeRecord r, n) := by
  unfold Dev.recordOrLose
  rw [if_pos h]

theorem Dev.recordOrLose_full {d : Dev} {n : Nat} {r : FaultRec} {fatal : Bool} (h : d.recordRoom fatal = false) :
    Dev.recordOrLose (d, n) r fatal true = (d.inc F.SPL_REC_LOST_COUNT [], n + 1) := by
  unfold Dev.recordOrLose
  rw [if_neg (Bool.eq_false_iff.1 h), if_pos rfl]

/-- Settles O57: what a fault leaves is followed through its clock by what each stage may write; the two hard sources of collector 60 by
the safe state; words in error by the latch of every step. -/
theorem faults : Obligations.Faults := by
  unfold Obligations.Faults
  refine ⟨fun s hl => ⟨fun k faults hit => runs_faultRaise hl k faults hit,
      fun k link => ⟨Runs.of_run hl rfl rfl, Runs.of_run hl rfl rfl⟩,
      fun m k hw hb hi => ⟨fun v hv => ⟨fun hr => ?refused, fun hr => ?pending⟩, fun hv => latchClear_shows hl hw hb hi hv⟩,
      fun m hm hb hi => ?force, ?root, fun k counter _ hq => collPar_shows hl k counter hq⟩,
    fun d k f hinj => ?count, fun d k fs hit => ⟨fun h => if_pos h, fun h => if_neg (Bool.eq_false_iff.1 h)⟩,
    fun d k fs h hno => ?nothing, fun d k f fs h => ?hits, fun d m f hm hsrc hsyn => ?pll, fun d k f hsrc => if_neg (by simp [hsrc]),
    fun d k src syn hk hlive hclass hbroken hempty => ?latch, fun d n r fatal => ⟨Dev.recordOrLose_room, Dev.recordOrLose_full⟩,
    fun m w => w.zero_clear m, fun d off p hp => ?word, fun s t h hr hreset => step_keeps_dead h hr hreset, fun d k f => ?event,
    fun d k src syn hk hlive hmode hclass hsev hmask hbroken hempty hq hsyn => ?fields⟩
  case refused =>
    have hrun := runs_faultInject (k := k) hl hw hb hi hv
    rwa [Dev.inject, if_pos ((s.dev.injRefused_iff _ _).2 hr)] at hrun
  case pending =>
    exact faultInject_shows hl hw hb hi hv (Bool.eq_false_iff.2 fun h => hr ((s.dev.injRefused_iff _ _).1 h))
  case force =>
    have hrun : Runs (.forceSafe m) s (s.dev.raise 60 0x43 0) :=
      Runs.of_run hl rfl ((if_pos (by rcases hm with h | rfl <;> simp [*])).trans (Dev.access_initialised _ _ _ hb hi))
    exact hrun.showsSafe (s.dev.raise_root (.inr rfl))
  case root =>
    have hrun : Runs .rootCheck s (s.dev.raise 60 0x42 0) := Runs.of_run hl rfl rfl
    exact hrun.showsSafe (s.dev.raise_root (.inl rfl))
  case count =>
    simp only [Dev.countFault, hinj, Bool.false_eq_true, if_false]
    exact ⟨fun h => by rw [if_pos h], fun h => by rw [if_neg (Bool.eq_false_iff.1 h)]⟩
  case nothing =>
    unfold Dev.containOne
    split
    next f hf =>
      refine if_neg ?_
      rcases hno with hno | hno
      · exact absurd (List.find?_some hf) (by simp [hno f (List.mem_of_find?_eq_some hf)])
      · simp [hno]
    · rfl
  case hits =>
    unfold Dev.containOne
    refine ⟨fun hhit hin => ?_, fun hmiss => ?_, fun hsrc => ?_⟩
    · rw [List.find?_cons_of_pos hhit]
      exact if_pos hin
    · rw [List.find?_cons_of_neg (by simp [hmiss])]
    · unfold hitBy
      rw [hsrc, Bool.false_and]
  case pll =>
    unfold Dev.sourceActs
    refine ⟨?_, fun k hk => if_neg ?_⟩
    · rw [hsyn]
      refine if_pos ?_
      simp only [hsrc, Bool.and_eq_true, decide_eq_true_eq, beq_iff_eq]
      exact ⟨⟨⟨by omega, by omega⟩, trivial⟩, by omega⟩
    · simp only [Bool.and_eq_true, decide_eq_true_eq]
      omega
  case latch =>
    intro soring num hhard hmask hnum
    have hn : d.faultNum k src = num := by
      simp only [Dev.faultNum, Dev.severity, hhard, Bool.false_eq_true, if_false, num, soring]
    refine Dev.raise_latch hlive hclass hbroken hempty ?_ (hn ▸ hnum)
    cases hs : soring with
    | true => simp [Dev.faultMasked, show d.onC F.SPL_CFG_SORING_MODE [] = true from hs]
    | false => simp [Dev.faultMasked, hmask hs]
  case word =>
    refine ⟨{ off := off, key := p.reg.key p.ix, reset := p.reg.resetWord p.ix, high := p.high }, ?_⟩
    rw [Dev.badWord, hp]
    exact ⟨rfl, rfl, rfl, rfl, rfl, rfl, rfl⟩
  case event =>
    intro soring n entry
    refine ⟨fun h => if_neg (by simp [h]), fun h hno => ?_, fun h hs hn => ?_⟩
    · have hplain : ¬(soring && n == 2) = true := by rcases hno with h | h <;> simp [h]
      rw [Dev.faultEvent, if_pos h]
      exact congrArg (d.postEvent _) (if_neg hplain)
    · have hvec : (soring && n == 2) = true := by simp [hs, hn]
      rw [Dev.faultEvent, if_pos h]
      exact congrArg (d.postEvent _) (if_pos hvec)
  case fields =>
    have hn : d.faultNum k src = faultSev k src := by rw [Dev.faultNum, hmode]; rfl
    have hraw := fun {r : Reg} => Dev.raise_latch_raw (syn := syn) hk hlive hclass hbroken hempty hmask (hn ▸ hsev) hq (r := r)
    have hlatch := hraw (r := R.SPL_LATCH) (by decide)
    obtain ⟨hovf, -, hvalid⟩ := (d.countFault k ⟨src, syn, false⟩).fillLatch_flags k ⟨src, syn, false⟩
    obtain ⟨hsrc, hsynd, hcls, hinj, hns⟩ := Dev.fillLatch_fields (d := d.countFault k ⟨src, syn, false⟩) (k := k) (src := src) hsyn
    have hclsn := (Dev.faultNum_of_comm (d.comm_countFault k ⟨src, syn, false⟩) k src).trans hn
    have hnsn : (d.countFault k ⟨src, syn, false⟩).ns = d.ns := Dev.ns_of_unreported (by
      simp only [Dev.countFault, apply_ite Dev.unreported, Dev.unreported_inc, ite_self])
    exact ⟨(Dev.on_of_raw (f := F.SPL_LATCH_VALID) hlatch).trans hvalid, (Dev.rd_of_raw (f := F.SPL_LATCH_SOURCE) hlatch).trans hsrc,
      (Dev.rd_of_raw (f := F.SPL_LATCH_SYNDROME) hlatch).trans hsynd,
      ((Dev.rd_of_raw (f := F.SPL_LATCH_CLASS) hlatch).trans hcls).trans hclsn,
      (Dev.on_of_raw (f := F.SPL_LATCH_INJ) hlatch).trans hinj, (Dev.on_of_raw (f := F.SPL_LATCH_OVF) hlatch).trans hovf,
      ((Dev.rd_of_raw (f := F.SPL_LATCH_TIME_NS) (hraw (r := R.SPL_LATCH_TIME) (by decide))).trans hns).trans (hnsn ▸ rfl)⟩

/-! ## What a reset leaves of the registers (R418) -/

theorem keyWin_of_key_eq {x r : Reg} {ix jx : List Nat} (h : r.key ix = x.key jx) (hx : x.id < 4096) : InArray x r ix :=
  ⟨by rw [h, keyWin_key _ _ hx], by rw [h, keyId_key _ _ hx]⟩

theorem Dev.raw_of_regs {d e : Dev} (h : e.regs = d.regs) (r : Reg) (ix : List Nat) : e.raw r ix = d.raw r ix := by
  rw [Dev.raw, h, Dev.raw]

/-- A register that is not kept reads as after power-on. -/
theorem Dev.raw_keepRegs_if (d : Dev) (p : Nat → Bool) (r : Reg) (ix : List Nat) :
    (d.keepRegs p).raw r ix = if p (r.key ix) then d.raw r ix else State.reset.dev.raw r ix := by
  rw [Dev.raw, Dev.keepRegs, Sparse.get_keep, apply_ite BitVec.toNat]
  rfl

/-- A reset keeps what its list names. -/
theorem resetKeeps_iff (l : ResetLevel) (r : Reg) (ix : List Nat) :
    resetKeeps l (r.key ix) = true ↔ ∃ x ∈ keptRegs l, InArray x r ix := by
  cases l <;> simp [resetKeeps, keptRegs, InArray, or_assoc]

/-! ### The end of a programming pulse -/

/-- The device but for what the end of a programming pulse changes. -/
def Dev.unpulsed (d : Dev) : Dev := { d with regs := [], out := [], freeIdx := 0, otp := {} }

theorem Dev.unpulsed_wr (d : Dev) (f : Fld) (ix : List Nat) (v : Nat) : (d.wr f ix v).unpulsed = d.unpulsed := by
  unfold Dev.unpulsed; rfl

theorem Dev.unpulsed_emit (d : Dev) (o : Output) : (d.emit o).unpulsed = d.unpulsed := by
  unfold Dev.unpulsed; rfl

theorem Dev.unpulsed_keyLeft (d : Dev) : d.keyLeft.unpulsed = d.unpulsed := by
  obtain ⟨ks, n, he⟩ := d.keyLeft_eq
  rw [he]
  rfl

theorem Dev.unpulsed_otpAbort (d : Dev) : d.otpAbort.unpulsed = d.unpulsed := by
  cases h : d.pulses with
  | false => rw [Dev.otpAbort_idle h]
  | true => rw [Dev.otpAbort_pulse h, Dev.unpulsed_keyLeft, Dev.unpulsed_wr, Dev.unpulsed_wr]

theorem Dev.unpulsed_ended (d : Dev) : d.ended.unpulsed = d.unpulsed := by
  rw [Dev.ended, Dev.unpulsed_otpAbort, apply_ite Dev.unpulsed, Dev.unpulsed_emit, ite_self]

theorem Dev.raw_keyLeft (d : Dev) (r : Reg) (ix : List Nat) : d.keyLeft.raw r ix = d.raw r ix := by
  obtain ⟨ks, n, he⟩ := d.keyLeft_eq
  rw [he]
  rfl

theorem Dev.ended_pulse {d : Dev} (h : d.pulses = true) (r : Reg) (ix : List Nat) :
    d.ended.raw r ix = ((d.wr F.SVC_OTP_CTL_BUSY [] 0).wr F.ANL_SAG_OTP_ABORT [] 1).raw r ix := by
  rw [Dev.ended]
  split
  · rw [Dev.otpAbort_pulse (d := d.emit _) h, Dev.raw_keyLeft]
    exact Dev.raw_of_regs rfl r ix
  · rw [Dev.otpAbort_pulse h, Dev.raw_keyLeft]

theorem Dev.ended_idle {d : Dev} (h : d.pulses = false) (r : Reg) (ix : List Nat) : d.ended.raw r ix = d.raw r ix := by
  rw [Dev.ended]
  split
  · rw [Dev.otpAbort_idle (d := d.emit _) h]
    rfl
  · rw [Dev.otpAbort_idle h]

/-- A pulse that ends writes SVC_OTP_CTL and OTP_ABORT. -/
theorem Dev.raw_ended (d : Dev) (r : Reg) (ix : List Nat) (h1 : r.key ix ≠ R.SVC_OTP_CTL.key []) (h2 : r.key ix ≠ R.ANL_SAG.key []) :
    d.ended.raw r ix = d.raw r ix := by
  cases h : d.pulses with
  | false => exact Dev.ended_idle h r ix
  | true => rw [Dev.ended_pulse h, Dev.raw_wr_of_key _ F.ANL_SAG_OTP_ABORT r [] ix 1 h2,
      Dev.raw_wr_of_key _ F.SVC_OTP_CTL_BUSY r [] ix 0 h1]

theorem Dev.rd_ended (d : Dev) {f : Fld} (h1 : f.apart F.SVC_OTP_CTL_BUSY = true) (h2 : f.apart F.ANL_SAG_OTP_ABORT = true) :
    d.ended.rd f [] = d.rd f [] := by
  cases h : d.pulses with
  | false => exact Dev.rd_of_raw (Dev.ended_idle h _ _)
  | true => rw [Dev.rd_of_raw (Dev.ended_pulse h _ _), Dev.rd_wr_apart _ _ _ _ h2, Dev.rd_wr_apart _ _ _ _ h1]

theorem Dev.otpAbort_ended (d : Dev) : d.ended.on F.ANL_SAG_OTP_ABORT [] = (d.pulses || d.on F.ANL_SAG_OTP_ABORT []) := by
  cases h : d.pulses with
  | false => exact Dev.on_of_raw (Dev.ended_idle h _ _)
  | true =>
    rw [Dev.on_of_raw (Dev.ended_pulse h _ _), Bool.true_or]
    exact Dev.on_wr_bit _ _ _ true rfl (by decide)

/-! ### The registers of a reset -/

section ResetRegs

variable (d : Dev) (l : ResetLevel)

/-- The device of a reset of level `l` before ANL_STAT.ALERT and the bits of ANL_SAG are written. -/
def Dev.resetBase : Dev := { d.resetRest l with regs := (d.keepRegs (resetKeeps l)).regs }

theorem Dev.resetTo_eq : d.resetTo l = if l == .warm then ((d.resetBase l).wr F.ANL_STAT_ALERT [] (d.rd F.ANL_STAT_ALERT [])).keepSag d
    else (d.resetBase l).wr F.ANL_STAT_ALERT [] (d.rd F.ANL_STAT_ALERT []) := by
  unfold Dev.resetTo Dev.resetBase Dev.resetRest
  rfl

theorem Dev.raw_resetBase (r : Reg) (ix : List Nat) :
    (d.resetBase l).raw r ix = if resetKeeps l (r.key ix) then d.raw r ix else State.reset.dev.raw r ix := by
  rw [← Dev.raw_keepRegs_if]
  exact Dev.raw_of_regs rfl r ix

theorem Dev.raw_keepSag (n old : Dev) (r : Reg) (ix : List Nat) (h : r.key ix ≠ R.ANL_SAG.key []) :
    (n.keepSag old).raw r ix = n.raw r ix := by
  unfold Dev.keepSag
  rw [Dev.raw_wr_of_key _ F.ANL_SAG_OTP_ABORT r [] ix _ h, Dev.raw_wr_of_key _ F.ANL_SAG_FLASH_UNCERTAIN r [] ix _ h,
    Dev.raw_wr_of_key _ F.ANL_SAG_SEEN r [] ix _ h]

theorem Dev.raw_resetTo (r : Reg) (ix : List Nat) (hsag : r.key ix ≠ R.ANL_SAG.key []) (hstat : r.key ix ≠ R.ANL_STAT.key []) :
    (d.resetTo l).raw r ix = if resetKeeps l (r.key ix) then d.raw r ix else State.reset.dev.raw r ix := by
  rw [Dev.resetTo_eq, apply_ite (fun e : Dev => e.raw r ix), Dev.raw_keepSag _ _ _ _ hsag, ite_self,
    Dev.raw_wr_of_key _ F.ANL_STAT_ALERT r [] ix _ hstat, Dev.raw_resetBase]

/-- ANL_STAT after a reset: the level of its pin, the rest at reset. -/
theorem Dev.raw_resetTo_stat :
    (d.resetTo l).raw R.ANL_STAT [] = setBitsOf (State.reset.dev.raw R.ANL_STAT []) 9 9 (d.rd F.ANL_STAT_ALERT []) := by
  have hkeeps : resetKeeps l (R.ANL_STAT.key []) = false := by cases l <;> decide
  have hbase : (d.resetBase l).raw R.ANL_STAT [] = State.reset.dev.raw R.ANL_STAT [] := by
    rw [Dev.raw_resetBase, hkeeps]
    rfl
  rw [Dev.resetTo_eq, apply_ite (fun e : Dev => e.raw R.ANL_STAT []),
    Dev.raw_keepSag _ _ _ _ (Reg.key_ne _ _ (by decide) (by decide) (by decide)), ite_self, Dev.wr,
    show F.ANL_STAT_ALERT.reg = R.ANL_STAT from rfl, Dev.raw_setRaw_self, hbase]
  exact Nat.mod_eq_of_lt (setBitsOf_lt (State.reset.dev.raw_lt _ _) (by decide) (by decide))

/-- ANL_SAG after a reset, before a pulse that it ended shows: a warm one keeps the three bits that are cleared by a write. -/
theorem Dev.rd_resetTo_sag {f : Fld} (hf : f.reg = R.ANL_SAG) : (d.resetBase l).rd f [] = State.reset.dev.rd f [] := by
  have hkeeps : resetKeeps l (R.ANL_SAG.key []) = false := by cases l <;> decide
  rw [Dev.rd, hf, Dev.raw_resetBase, hkeeps, Dev.rd, hf]
  rfl

theorem Dev.rd_resetTo_other {f : Fld} (hf : f.reg = R.ANL_SAG) (h1 : f.apart F.ANL_SAG_SEEN = true)
    (h2 : f.apart F.ANL_SAG_FLASH_UNCERTAIN = true) (h3 : f.apart F.ANL_SAG_OTP_ABORT = true) (h4 : f.apart F.ANL_STAT_ALERT = true) :
    (d.resetTo l).rd f [] = State.reset.dev.rd f [] := by
  rw [Dev.resetTo_eq, apply_ite (fun e : Dev => e.rd f []), Dev.keepSag, Dev.rd_wr_apart _ _ _ _ h3, Dev.rd_wr_apart _ _ _ _ h2,
    Dev.rd_wr_apart _ _ _ _ h1, ite_self, Dev.rd_wr_apart _ _ _ _ h4, Dev.rd_resetTo_sag _ _ hf]

theorem Dev.sag_resetTo_warm : (d.resetTo .warm).rd F.ANL_SAG_SEEN [] = d.rd F.ANL_SAG_SEEN [] ∧
    (d.resetTo .warm).rd F.ANL_SAG_FLASH_UNCERTAIN [] = d.rd F.ANL_SAG_FLASH_UNCERTAIN [] ∧
    (d.resetTo .warm).rd F.ANL_SAG_OTP_ABORT [] = d.rd F.ANL_SAG_OTP_ABORT [] := by
  have hlt := fun f : Fld => d.rd_lt f []
  rw [Dev.resetTo_eq, if_pos (by decide), Dev.keepSag]
  refine ⟨?_, ?_, ?_⟩
  · rw [Dev.rd_wr_apart _ _ _ _ (by decide), Dev.rd_wr_apart _ _ _ _ (by decide),
      Dev.rd_wr_fits _ F.ANL_SAG_SEEN _ _ (by decide) (by decide) (hlt _)]
  · rw [Dev.rd_wr_apart _ _ _ _ (by decide), Dev.rd_wr_fits _ F.ANL_SAG_FLASH_UNCERTAIN _ _ (by decide) (by decide) (hlt _)]
  · rw [Dev.rd_wr_fits _ F.ANL_SAG_OTP_ABORT _ _ (by decide) (by decide) (hlt _)]

theorem Dev.sag_resetTo_cold {l : ResetLevel} (hl : l ≠ .warm) {f : Fld} (hf : f.reg = R.ANL_SAG) (h : f.apart F.ANL_STAT_ALERT = true) :
    (d.resetTo l).rd f [] = State.reset.dev.rd f [] := by
  rw [Dev.resetTo_eq, if_neg (by simpa using hl), Dev.rd_wr_apart _ _ _ _ h, Dev.rd_resetTo_sag _ _ hf]

end ResetRegs

/-! ### A reset that begins -/

section BeginReset

/-- RST_CAUSE is written. -/
def Dev.causeWritten (d : Dev) (cause supply mid : Nat) : Dev :=
  (((d.setRaw R.RST_CAUSE [] 0).wr F.RST_CAUSE_CAUSE [] cause).wr F.RST_CAUSE_SUPPLY [] supply).wr F.RST_CAUSE_MID [] mid

/-- The reset is counted, or RST_COUNT is cleared. -/
def Dev.resetCounted (d : Dev) (l : ResetLevel) (aon : Bool) : Dev :=
  if aon then d.setRaw R.RST_COUNT [] 0
  else if l = .warm then d.inc F.RST_COUNT_WARM [] else d.inc F.RST_COUNT_COLD []

theorem Dev.beginReset_eq (d : Dev) (l : ResetLevel) (cause supply mid : Nat) (aon : Bool) : d.beginReset l cause supply mid aon =
    if d.pulses then (((d.ended.resetTo l).causeWritten cause supply mid).resetCounted l aon).wr F.ANL_SAG_OTP_ABORT [] 1
    else ((d.ended.resetTo l).causeWritten cause supply mid).resetCounted l aon := by
  unfold Dev.beginReset Dev.causeWritten Dev.resetCounted Dev.ended
  rfl

variable (d : Dev)

theorem Dev.raw_causeWritten (cause supply mid : Nat) (r : Reg) (ix : List Nat) (h : r.key ix ≠ R.RST_CAUSE.key []) :
    (d.causeWritten cause supply mid).raw r ix = d.raw r ix := by
  unfold Dev.causeWritten
  rw [Dev.raw_wr_of_key _ F.RST_CAUSE_MID r [] ix _ h, Dev.raw_wr_of_key _ F.RST_CAUSE_SUPPLY r [] ix _ h,
    Dev.raw_wr_of_key _ F.RST_CAUSE_CAUSE r [] ix _ h, Dev.raw_setRaw_of_key _ _ _ _ _ _ h]

theorem Dev.raw_resetCounted (l : ResetLevel) (aon : Bool) (r : Reg) (ix : List Nat) (h : r.key ix ≠ R.RST_COUNT.key []) :
    (d.resetCounted l aon).raw r ix = d.raw r ix := by
  have inc : ∀ f : Fld, f.reg = R.RST_COUNT → (d.inc f []).raw r ix = d.raw r ix := fun f hf => by
    obtain ⟨v, hv⟩ := d.addTo_eq f [] 1
    rw [Dev.inc, hv, Dev.raw_wr_of_key _ f r [] ix _ (by rw [hf]; exact h)]
  rw [Dev.resetCounted, apply_ite (fun e : Dev => e.raw r ix), apply_ite (fun e : Dev => e.raw r ix),
    Dev.raw_setRaw_of_key _ _ _ _ _ _ h, inc _ rfl, inc _ rfl, ite_self, ite_self]

theorem Dev.rd_resetCounted (l : ResetLevel) (aon : Bool) (f : Fld) (ix : List Nat) (h : f.reg.key ix ≠ R.RST_COUNT.key []) :
    (d.resetCounted l aon).rd f ix = d.rd f ix := Dev.rd_of_raw (d.raw_resetCounted l aon _ _ h)

variable (l : ResetLevel) (cause supply mid : Nat) (aon : Bool)

theorem Dev.raw_beginReset (r : Reg) (ix : List Nat) (hsag : r.key ix ≠ R.ANL_SAG.key []) (hcause : r.key ix ≠ R.RST_CAUSE.key [])
    (hcount : r.key ix ≠ R.RST_COUNT.key []) : (d.beginReset l cause supply mid aon).raw r ix = (d.ended.resetTo l).raw r ix := by
  rw [Dev.beginReset_eq, apply_ite (fun e : Dev => e.raw r ix), Dev.raw_wr_of_key _ F.ANL_SAG_OTP_ABORT r [] ix _ hsag, ite_self,
    Dev.raw_resetCounted _ _ _ _ _ hcount, Dev.raw_causeWritten _ _ _ _ _ _ hcause]

theorem Dev.rd_beginReset_sag {f : Fld} (hf : f.reg = R.ANL_SAG) (h : f.apart F.ANL_SAG_OTP_ABORT = true) :
    (d.beginReset l cause supply mid aon).rd f [] = (d.ended.resetTo l).rd f [] := by
  rw [Dev.beginReset_eq, apply_ite (fun e : Dev => e.rd f []), Dev.rd_wr_apart _ _ _ _ h, ite_self]
  exact Dev.rd_of_raw (by rw [hf, Dev.raw_resetCounted _ _ _ _ _ (Reg.key_ne _ _ (by decide) (by decide) (by decide)),
    Dev.raw_causeWritten _ _ _ _ _ _ (Reg.key_ne _ _ (by decide) (by decide) (by decide))])

theorem Dev.otpAbort_beginReset : (d.beginReset l cause supply mid aon).on F.ANL_SAG_OTP_ABORT [] =
    (d.pulses || (l == .warm && d.on F.ANL_SAG_OTP_ABORT [])) := by
  cases h : d.pulses with
  | true =>
    rw [Dev.beginReset_eq, if_pos h, Bool.true_or]
    exact Dev.on_wr_bit _ _ _ true rfl (by decide)
  | false =>
    have hkept : (d.beginReset l cause supply mid aon).on F.ANL_SAG_OTP_ABORT [] = (d.ended.resetTo l).on F.ANL_SAG_OTP_ABORT [] := by
      rw [Dev.beginReset_eq, if_neg (by rw [h]; decide)]
      exact Dev.on_of_raw (by rw [Dev.raw_resetCounted _ _ _ _ _ (Reg.key_ne _ _ (by decide) (by decide) (by decide)),
        Dev.raw_causeWritten _ _ _ _ _ _ (Reg.key_ne _ _ (by decide) (by decide) (by decide))])
    rw [hkept, Bool.false_or]
    by_cases hw : l = .warm
    · rw [hw, Dev.on, (Dev.sag_resetTo_warm d.ended).2.2, ← Dev.on, Dev.otpAbort_ended, h]
      rfl
    · rw [Dev.on, Dev.sag_resetTo_cold _ hw rfl (by decide), beq_eq_false_iff_ne.2 hw, Bool.false_and]
      decide

theorem Dev.rd_beginReset_cause {f : Fld} (hf : f.reg = R.RST_CAUSE) : (d.beginReset l cause supply mid aon).rd f [] =
    ((d.ended.resetTo l).causeWritten cause supply mid).rd f [] := by
  have hkey : f.reg.key [] ≠ R.RST_COUNT.key [] := by rw [hf]; exact Reg.key_ne _ _ (by decide) (by decide) (by decide)
  have hsag : f.reg.key [] ≠ F.ANL_SAG_OTP_ABORT.reg.key [] := by rw [hf]; exact Reg.key_ne _ _ (by decide) (by decide) (by decide)
  rw [Dev.beginReset_eq, apply_ite (fun e : Dev => e.rd f []), Dev.rd_of_raw (Dev.raw_wr_of_key _ F.ANL_SAG_OTP_ABORT _ [] _ _ hsag),
    ite_self, Dev.rd_resetCounted _ _ _ _ _ hkey]

theorem Dev.cause_beginReset (h : cause < 16) : (d.beginReset l cause supply mid aon).rd F.RST_CAUSE_CAUSE [] = cause := by
  rw [Dev.rd_beginReset_cause _ _ _ _ _ _ rfl, Dev.causeWritten, Dev.rd_wr_apart _ _ _ _ (by decide), Dev.rd_wr_apart _ _ _ _ (by decide),
    Dev.rd_wr_fits _ F.RST_CAUSE_CAUSE _ _ (by decide) (by decide) h]

theorem Dev.supply_beginReset (h : supply < 16) : (d.beginReset l cause supply mid aon).rd F.RST_CAUSE_SUPPLY [] = supply := by
  rw [Dev.rd_beginReset_cause _ _ _ _ _ _ rfl, Dev.causeWritten, Dev.rd_wr_apart _ _ _ _ (by decide),
    Dev.rd_wr_fits _ F.RST_CAUSE_SUPPLY _ _ (by decide) (by decide) h]

theorem Dev.mid_beginReset (h : mid < 256) : (d.beginReset l cause supply mid aon).rd F.RST_CAUSE_MID [] = mid := by
  rw [Dev.rd_beginReset_cause _ _ _ _ _ _ rfl, Dev.causeWritten, Dev.rd_wr_fits _ F.RST_CAUSE_MID _ _ (by decide) (by decide) h]

/-- RST_COUNT stands until the reset is counted. -/
theorem Dev.rd_beginReset_count : ∃ e : Dev, e.rd F.RST_COUNT_COLD [] = d.rd F.RST_COUNT_COLD [] ∧
    e.rd F.RST_COUNT_WARM [] = d.rd F.RST_COUNT_WARM [] ∧
    (d.beginReset l cause supply mid aon).raw R.RST_COUNT [] = (e.resetCounted l aon).raw R.RST_COUNT [] := by
  have hkeeps : resetKeeps l (R.RST_COUNT.key []) = true := by cases l <;> decide
  have hraw : ((d.ended.resetTo l).causeWritten cause supply mid).raw R.RST_COUNT [] = d.raw R.RST_COUNT [] := by
    rw [Dev.raw_causeWritten _ _ _ _ _ _ (Reg.key_ne _ _ (by decide) (by decide) (by decide)),
      Dev.raw_resetTo _ _ _ _ (Reg.key_ne _ _ (by decide) (by decide) (by decide)) (Reg.key_ne _ _ (by decide) (by decide) (by decide)),
      if_pos hkeeps, Dev.raw_ended _ _ _ (Reg.key_ne _ _ (by decide) (by decide) (by decide))
        (Reg.key_ne _ _ (by decide) (by decide) (by decide))]
  refine ⟨_, Dev.rd_of_raw hraw, Dev.rd_of_raw hraw, ?_⟩
  rw [Dev.beginReset_eq, apply_ite (fun e : Dev => e.raw R.RST_COUNT []),
    Dev.raw_wr_of_key _ F.ANL_SAG_OTP_ABORT _ [] _ _ (Reg.key_ne _ _ (by decide) (by decide) (by decide)), ite_self]

theorem Dev.cold_beginReset (h : l ≠ .warm) :
    (d.beginReset l cause supply mid false).rd F.RST_COUNT_COLD [] = min 65535 (d.rd F.RST_COUNT_COLD [] + 1) ∧
    (d.beginReset l cause supply mid false).rd F.RST_COUNT_WARM [] = d.rd F.RST_COUNT_WARM [] := by
  obtain ⟨e, hc, hw, hraw⟩ := d.rd_beginReset_count l cause supply mid false
  rw [Dev.resetCounted, if_neg (by decide), if_neg h] at hraw
  constructor
  · rw [Dev.rd_of_raw (f := F.RST_COUNT_COLD) hraw, Dev.rd_inc_saturates _ F.RST_COUNT_COLD _ (by decide) (by decide) (by decide), hc,
      show 2 ^ (F.RST_COUNT_COLD.hi + 1 - F.RST_COUNT_COLD.lo) - 1 = 65535 from rfl]
  · rw [Dev.rd_of_raw (f := F.RST_COUNT_WARM) hraw, Dev.rd_inc_apart _ _ _ (by decide), hw]

theorem Dev.warm_beginReset :
    (d.beginReset .warm cause supply mid false).rd F.RST_COUNT_WARM [] = min 65535 (d.rd F.RST_COUNT_WARM [] + 1) ∧
    (d.beginReset .warm cause supply mid false).rd F.RST_COUNT_COLD [] = d.rd F.RST_COUNT_COLD [] := by
  obtain ⟨e, hc, hw, hraw⟩ := d.rd_beginReset_count .warm cause supply mid false
  rw [Dev.resetCounted, if_neg (by decide), if_pos rfl] at hraw
  constructor
  · rw [Dev.rd_of_raw (f := F.RST_COUNT_WARM) hraw, Dev.rd_inc_saturates _ F.RST_COUNT_WARM _ (by decide) (by decide) (by decide), hw,
      show 2 ^ (F.RST_COUNT_WARM.hi + 1 - F.RST_COUNT_WARM.lo) - 1 = 65535 from rfl]
  · rw [Dev.rd_of_raw (f := F.RST_COUNT_COLD) hraw, Dev.rd_inc_apart _ _ _ (by decide), hc]

theorem Dev.aon_beginReset : (d.beginReset l cause supply mid true).raw R.RST_COUNT [] = 0 := by
  obtain ⟨e, -, -, hraw⟩ := d.rd_beginReset_count l cause supply mid true
  rw [hraw, Dev.resetCounted, if_pos rfl, Dev.raw_setRaw_self, Nat.zero_mod]

end BeginReset

/-! ### What a reset leaves (R418) -/

/-- A reset that begins is not undone: only the locked key field and the rollback index are. -/
theorem Dev.latched_begun {d c : Dev} (h : c.resets = d.resets + 1) (hs : c.safe = false) :
    ∃ o, Dev.latched d c = { c with otp := o } ∧ (c.otp = d.otp → o = d.otp) := by
  have hnew : ¬ c.resets ≤ d.resets := by omega
  have hmax : max d.resets c.resets = c.resets := max_eq_right (by omega)
  refine ⟨(Dev.latched d c).otp, ?_, fun ho => ?_⟩
  · simp [Dev.latched, hnew, hmax, hs]
  · simp [Dev.latched, ho]

/-- What a reset leaves outside the registers and the one-time programmable bits. -/
theorem Dev.rest_begun (d : Dev) (l : ResetLevel) (cause supply mid : Nat) (aon : Bool) :
    ∃ e, Dev.latched d (d.beginReset l cause supply mid aon) = e ∧ e.regs = (d.beginReset l cause supply mid aon).regs ∧
      (∃ rs o, e = { d.ended.resetRest l with regs := rs, otp := o }) ∧ (d.pulses = false → e.otp = d.otp) := by
  obtain ⟨o, he, ho⟩ := Dev.latched_begun (d.beginReset_resets l cause supply mid aon) (d.beginReset_safe l cause supply mid aon)
  have hrest := d.unstored_beginReset l cause supply mid aon
  refine ⟨_, rfl, by rw [he], ⟨(d.beginReset l cause supply mid aon).regs, o, ?_⟩, fun hp => ?_⟩
  · rw [he, ← hrest, Dev.unstored]
  · have hotp : (d.beginReset l cause supply mid aon).otp = d.otp := by
      calc (d.beginReset l cause supply mid aon).otp = (d.beginReset l cause supply mid aon).unstored.otp := rfl
        _ = d.ended.otp := by rw [hrest]; rfl
        _ = d.otp := by rw [Dev.ended, Dev.otpAbort_idle (by split; exact hp; exact hp)]; split <;> rfl
    rw [he]
    exact ho hotp

theorem InArray.of_key {x r : Reg} {ix : List Nat} (jx : List Nat) (hx : x.id < 4096) (h : ¬ InArray x r ix) : r.key ix ≠ x.key jx :=
  fun he => h (keyWin_of_key_eq he hx)

/-- What a reset leaves of the registers, as R418 has it. -/
structure RegsLeft (l : ResetLevel) (d e : Dev) : Prop where
  rest : ∀ r ix, ¬ InArray R.ANL_SAG r ix → ¬ InArray R.ANL_STAT r ix → (∀ x ∈ keptRegs l, ¬ InArray x r ix) →
    e.raw r ix = State.reset.dev.raw r ix
  stat : e.raw R.ANL_STAT [] = setBitsOf (State.reset.dev.raw R.ANL_STAT []) 9 9 (d.rd F.ANL_STAT_ALERT [])
  strap : e.raw R.GLB_STRAP [] = d.raw R.GLB_STRAP []
  sag : ∀ f ∈ [F.ANL_SAG_INHIBIT, F.ANL_SAG_IO_LOW, F.ANL_SAG_AON_LOW], e.rd f [] = State.reset.dev.rd f []
  abort : e.on F.ANL_SAG_OTP_ABORT [] = (d.pulses || (l == .warm && d.on F.ANL_SAG_OTP_ABORT []))
  warm : l = .warm → e.rd F.ANL_SAG_SEEN [] = d.rd F.ANL_SAG_SEEN [] ∧
    e.rd F.ANL_SAG_FLASH_UNCERTAIN [] = d.rd F.ANL_SAG_FLASH_UNCERTAIN [] ∧
    ∀ r ∈ (keptRegs .warm).drop 3, ∀ ix, e.raw r ix = d.raw r ix
  cold : l ≠ .warm → e.rd F.ANL_SAG_SEEN [] = 0 ∧ e.rd F.ANL_SAG_FLASH_UNCERTAIN [] = 0

/-- A register that a warm reset keeps, but for the straps, the cause and the count, is none that a reset writes. -/
theorem kept_warm_apart {r : Reg} (hr : r ∈ (keptRegs .warm).drop 3) (ix : List Nat) : r.id < 4096 ∧
    ∀ x ∈ [R.ANL_SAG, R.RST_CAUSE, R.RST_COUNT, R.ANL_STAT, R.SVC_OTP_CTL], r.key ix ≠ x.key [] := by
  have apart : ∀ r ∈ (keptRegs .warm).drop 3, r.id < 4096 ∧
      ∀ x ∈ [R.ANL_SAG, R.RST_CAUSE, R.RST_COUNT, R.ANL_STAT, R.SVC_OTP_CTL], (r.win ≠ x.win ∨ r.id ≠ x.id) ∧ x.id < 4096 := by
    decide
  obtain ⟨hid, hx⟩ := apart r hr
  exact ⟨hid, fun x hm => Reg.key_ne _ _ (hx x hm).1 hid (hx x hm).2⟩

theorem keptRegs_id (l : ResetLevel) : ∀ x ∈ keptRegs l, x.id < 4096 := by cases l <;> decide

theorem mem_keptRegs (l : ResetLevel) : ∀ x ∈ [R.GLB_STRAP, R.RST_CAUSE, R.RST_COUNT], x ∈ keptRegs l := by
  cases l <;> simp [keptRegs]

theorem Dev.regsLeft (d : Dev) (l : ResetLevel) (cause supply mid : Nat) (aon : Bool) :
    RegsLeft l d (d.beginReset l cause supply mid aon) where
  rest r ix hsag hstat hk := by
    have hsag := InArray.of_key [] (by decide) hsag
    have hkey := fun x hx => InArray.of_key [] (keptRegs_id l x hx) (hk x hx)
    have hnot : ¬ resetKeeps l (r.key ix) = true := fun h => by
      obtain ⟨x, hx, hin⟩ := (resetKeeps_iff l r ix).1 h
      exact hk x hx hin
    rw [Dev.raw_beginReset _ _ _ _ _ _ _ _ hsag (hkey _ (mem_keptRegs l _ (by simp))) (hkey _ (mem_keptRegs l _ (by simp))),
      Dev.raw_resetTo _ _ _ _ hsag (InArray.of_key [] (by decide) hstat), if_neg hnot]
  stat := by
    rw [Dev.raw_beginReset _ _ _ _ _ _ _ _ (Reg.key_ne _ _ (by decide) (by decide) (by decide))
      (Reg.key_ne _ _ (by decide) (by decide) (by decide)) (Reg.key_ne _ _ (by decide) (by decide) (by decide)),
      Dev.raw_resetTo_stat, Dev.rd_ended _ (by decide) (by decide)]
  strap := by
    have hkeeps : resetKeeps l (R.GLB_STRAP.key []) = true := by cases l <;> decide
    rw [Dev.raw_beginReset _ _ _ _ _ _ _ _ (Reg.key_ne _ _ (by decide) (by decide) (by decide))
      (Reg.key_ne _ _ (by decide) (by decide) (by decide)) (Reg.key_ne _ _ (by decide) (by decide) (by decide)),
      Dev.raw_resetTo _ _ _ _ (Reg.key_ne _ _ (by decide) (by decide) (by decide)) (Reg.key_ne _ _ (by decide) (by decide) (by decide)),
      if_pos hkeeps, Dev.raw_ended _ _ _ (Reg.key_ne _ _ (by decide) (by decide) (by decide))
        (Reg.key_ne _ _ (by decide) (by decide) (by decide))]
  sag f hf := by
    have apart : ∀ f ∈ [F.ANL_SAG_INHIBIT, F.ANL_SAG_IO_LOW, F.ANL_SAG_AON_LOW], f.reg = R.ANL_SAG ∧
        f.apart F.ANL_SAG_SEEN = true ∧ f.apart F.ANL_SAG_FLASH_UNCERTAIN = true ∧ f.apart F.ANL_SAG_OTP_ABORT = true ∧
        f.apart F.ANL_STAT_ALERT = true := by decide
    obtain ⟨hreg, h1, h2, h3, h4⟩ := apart f hf
    rw [Dev.rd_beginReset_sag _ _ _ _ _ _ hreg h3, Dev.rd_resetTo_other _ _ hreg h1 h2 h3 h4]
  abort := d.otpAbort_beginReset l cause supply mid aon
  warm hl := by
    obtain rfl := hl
    obtain ⟨hseen, hflash, -⟩ := d.ended.sag_resetTo_warm
    refine ⟨?_, ?_, fun r hr ix => ?_⟩
    · rw [Dev.rd_beginReset_sag _ _ _ _ _ _ rfl (by decide), hseen, Dev.rd_ended _ (by decide) (by decide)]
    · rw [Dev.rd_beginReset_sag _ _ _ _ _ _ rfl (by decide), hflash, Dev.rd_ended _ (by decide) (by decide)]
    · obtain ⟨hid, hkey⟩ := kept_warm_apart hr ix
      have hkeeps : resetKeeps .warm (r.key ix) = true :=
        (resetKeeps_iff .warm r ix).2 ⟨r, List.mem_of_mem_drop hr, keyWin_of_key_eq rfl hid⟩
      rw [Dev.raw_beginReset _ _ _ _ _ _ _ _ (hkey _ (by simp)) (hkey _ (by simp)) (hkey _ (by simp)),
        Dev.raw_resetTo _ _ _ _ (hkey _ (by simp)) (hkey _ (by simp)), if_pos hkeeps,
        Dev.raw_ended _ _ _ (hkey _ (by simp)) (hkey _ (by simp))]
  cold hl := by
    rw [Dev.rd_beginReset_sag _ _ _ _ _ _ rfl (by decide), Dev.rd_beginReset_sag _ _ _ _ _ _ rfl (by decide),
      Dev.sag_resetTo_cold _ hl rfl (by decide), Dev.sag_resetTo_cold _ hl rfl (by decide)]
    exact ⟨by decide, by decide⟩

theorem RegsLeft.of_regs {l : ResetLevel} {d e f : Dev} (h : RegsLeft l d e) (hr : f.regs = e.regs) : RegsLeft l d f := by
  have raw := Dev.raw_of_regs hr
  have rd : ∀ x : Fld, f.rd x [] = e.rd x [] := fun x => Dev.rd_of_raw (raw _ _)
  have on : ∀ x : Fld, f.on x [] = e.on x [] := fun x => Dev.on_of_raw (raw _ _)
  refine ⟨?_, ?_, ?_, ?_, ?_, ?_, ?_⟩
  · simpa only [raw] using h.rest
  · simpa only [raw] using h.stat
  · simpa only [raw] using h.strap
  · simpa only [rd] using h.sag
  · simpa only [on] using h.abort
  · simpa only [rd, raw] using h.warm
  · simpa only [rd] using h.cold

/-- What a reset that begins leaves, with the fields that it writes. -/
theorem resetLeft_beginReset (d : Dev) (l : ResetLevel) (cause supply mid : Nat) (aon : Bool) :
    ResetLeft l d (Dev.latched d (d.beginReset l cause supply mid aon)) ∧
    ∀ r ix, (Dev.latched d (d.beginReset l cause supply mid aon)).raw r ix = (d.beginReset l cause supply mid aon).raw r ix := by
  obtain ⟨e, he, hregs, ⟨rs, o, hrest⟩, hotp⟩ := d.rest_begun l cause supply mid aon
  have hleft := (d.regsLeft l cause supply mid aon).of_regs hregs
  have hended := d.unpulsed_ended
  have hspl : d.ended.spl = d.spl := by simpa only [Dev.unpulsed] using congrArg Dev.spl hended
  have hns : d.ended.ns = d.ns := by simpa only [Dev.unpulsed] using congrArg Dev.ns hended
  have hfrac : d.ended.frac = d.frac := by simpa only [Dev.unpulsed] using congrArg Dev.frac hended
  have hrec : e.spl.records = if l == .warm then d.spl.records else [] := by rw [hrest, ← hspl]; rfl
  have htime : e.ns = if l == .warm then d.ns else 0 := by rw [hrest, ← hns]; rfl
  have hpart : e.frac = if l == .warm then d.frac else 0 := by rw [hrest, ← hfrac]; rfl
  rw [he]
  refine ⟨⟨by rw [hrest]; rfl, by rw [hrest]; rfl, by rw [hrest]; rfl, by rw [hrest]; rfl, by rw [hrest]; rfl, by rw [hrest]; rfl,
    by rw [hrest]; rfl, by rw [hrest]; rfl, by rw [hrest]; rfl, by rw [hrest]; rfl, by rw [hrest]; rfl, by rw [hrest]; rfl,
    by rw [hrest]; rfl, hleft.rest, hleft.stat, fun r ix => by rw [hrest]; rfl, hleft.strap, hleft.sag, hleft.abort, hotp,
    fun hw => ?_, fun hw => ?_⟩, fun r ix => Dev.raw_of_regs hregs r ix⟩
  · obtain ⟨hseen, hflash, hkept⟩ := hleft.warm hw
    rw [hw] at hrec htime hpart
    exact ⟨hrec, htime, hpart, hseen, hflash, hkept⟩
  · obtain ⟨hseen, hflash⟩ := hleft.cold hw
    rw [beq_eq_false_iff_ne.2 hw] at hrec htime hpart
    exact ⟨hrec, htime, hpart, hseen, hflash⟩


/-! ## What waits for a function's requests leaves the link and its pins (R328, R417) -/

section Pins

variable (d : Dev)

theorem Dev.pins_inc (f : Fld) (ix : List Nat) : (d.inc f ix).pins = d.pins := by
  obtain ⟨v, h⟩ := d.addTo_eq f ix 1
  rw [Dev.inc, h, Dev.pins_wr]

theorem Dev.pins_pmc (u code n : Nat) : (d.pmc u code n).pins = d.pins := by
  unfold Dev.pmc
  split
  · refine foldl_proj Dev.pins _ (fun e c => ?_) _ d
    dsimp only
    split
    · exact Dev.proj_pmcAdd Dev.pins Dev.pins_wr (fun _ _ => rfl) e u c n 2
    · rfl
  · rfl

theorem Dev.pins_dmaWrote (j : Option Nat) (n : Nat) : (d.dmaWrote j n).pins = d.pins := by
  have charge : ∀ e : Dev, (e.charge j 14 n).pins = e.pins := fun e => by cases j <;> rfl
  rw [Dev.dmaWrote, charge, Dev.pins_pmc, Dev.pins_hif, Hif.pins_dmaWriteRem, Dev.hif_pins]

theorem Dev.pins_msix (v : Nat) : (d.msix v).pins = d.pins := by
  simp only [Dev.msix, apply_ite Dev.pins, Dev.pins_wr, Dev.pins_emit, ite_self]

theorem Dev.pins_signalRing (m : Nat) : (d.signalRing m).pins = d.pins := by
  simp only [Dev.signalRing, apply_ite Dev.pins, Dev.pins_msix, Dev.pins_wr, Dev.pins_emit, Dev.pins_setRing, ite_self]

theorem Dev.pins_writeEntry (m : Nat) (e : RingEntry) : (d.writeEntry m e).pins = d.pins := by
  unfold Dev.writeEntry Dev.checkIrq
  cases e.sq <;> cases e.vec <;>
    simp only [apply_ite Dev.pins, Dev.pins_signalRing, Dev.pins_setRing, Dev.pins_msix, Dev.pins_pmc, Dev.pins_inc,
      Dev.pins_dmaWrote, Dev.pins_wr, Dev.pins_emit, ite_self]

theorem Dev.pins_postEvent (m : Nat) (e : RingEntry) : (d.postEvent m e).pins = d.pins := by
  simp only [Dev.postEvent, apply_ite Dev.pins, Dev.pins_writeEntry, Dev.pins_hif, Hif.pins_backlog, Hif.pins_lostSince,
    Dev.hif_pins, ite_self]

theorem Dev.pins_stallEvent (k m : Nat) : (d.stallEvent k m).pins = d.pins := by
  have event : ∀ (e : Dev) (v : Nat), (e.ringEvent k m v 0).pins = e.pins := fun e v => by
    simp only [Dev.ringEvent, apply_ite Dev.pins, Dev.pins_postEvent, ite_self]
  exact event _ _

theorem Dev.pins_holdEntry (m : Nat) (e : RingEntry) : (d.holdEntry m e).pins = d.pins := by
  simp only [Dev.holdEntry, apply_ite Dev.pins, Dev.pins_stallEvent, Dev.pins_inc, Dev.pins_setRing, ite_self]

theorem Dev.pins_drainHold (m fuel : Nat) : (d.drainHold m fuel).pins = d.pins := by
  induction fuel generalizing d with
  | zero => rfl
  | succ k ih =>
    unfold Dev.drainHold
    split
    · rfl
    · simp only [apply_ite Dev.pins, ih, Dev.pins_setRing, Dev.pins_writeEntry, ite_self]

theorem Dev.pins_admitLate (m fuel : Nat) : (d.admitLate m fuel).pins = d.pins := by
  induction fuel generalizing d with
  | zero => rfl
  | succ k ih =>
    unfold Dev.admitLate
    split
    · rfl
    · simp only [apply_ite Dev.pins, ih, Dev.pins_holdEntry, Dev.pins_setRing, ite_self]

theorem Dev.pins_drainRounds (m fuel : Nat) : (d.drainRounds m fuel).pins = d.pins := by
  induction fuel generalizing d with
  | zero => rfl
  | succ k ih => rw [Dev.drainRounds, ih, Dev.pins_admitLate, Dev.pins_drainHold]

theorem Dev.pins_drainList (l : List (Nat × RingEntry)) : (d.drainList l).pins = d.pins := by
  induction l generalizing d with
  | nil => rfl
  | cons x t ih => simp only [Dev.drainList, apply_ite Dev.pins, ih, Dev.pins_writeEntry, Dev.pins_hif, Hif.pins_backlog, Dev.hif_pins, ite_self]

theorem Dev.pins_drainBacklog : d.drainBacklog.pins = d.pins := by
  simp only [Dev.drainBacklog, apply_ite Dev.pins, Dev.pins_postEvent, Dev.pins_drainList, Dev.pins_hif, Hif.pins_backlog,
    Hif.pins_lostSince, Dev.hif_pins, ite_self]

theorem Dev.pins_sendOwed : d.sendOwed.pins = d.pins := by
  have pending : d.msixPending.pins = d.pins := foldl_proj Dev.pins _ (fun e v => by
    simp only [apply_ite Dev.pins, Dev.pins_emit, Dev.pins_wr, ite_self]) _ d
  refine (foldl_proj Dev.pins _ (fun e x => by rw [Dev.pins_signalRing, Dev.pins_setRing]) _ _).trans ?_
  rw [apply_ite Dev.pins, pending, ite_self]

theorem Dev.pins_drainAll : d.drainAll.pins = d.pins := by
  rw [Dev.drainAll, Dev.pins_sendOwed, foldl_proj Dev.pins _ (fun e m => by
    rw [Dev.drainRing, Dev.pins_drainBacklog, Dev.pins_drainRounds]), Dev.pins_drainBacklog]

variable {f : Fld} (h : f.eventless = true) (ix : List Nat)

include h

theorem Dev.rd_sendOwed : d.sendOwed.rd f ix = d.rd f ix := by
  have pending : d.msixPending.rd f ix = d.rd f ix := foldl_proj (fun e : Dev => e.rd f ix) _ (fun e v => by
    dsimp only
    split
    · rw [Dev.rd_emit, Dev.rd_wr_apart _ ix _ _ (Fld.apart_of_eventless h (by simp [eventFields]))]
    · rfl) _ d
  refine (foldl_proj (fun e : Dev => e.rd f ix) _ (fun e x => by rw [Dev.rd_signalRing h, Dev.rd_setRing]) _ _).trans ?_
  rw [apply_ite (fun e : Dev => e.rd f ix), pending, ite_self]

/-- What waits for a function's requests writes event registers alone. -/
theorem Dev.rd_drainAll : d.drainAll.rd f ix = d.rd f ix := by
  rw [Dev.drainAll, Dev.rd_sendOwed _ h, foldl_proj (fun e : Dev => e.rd f ix) _ (fun e m => Dev.rd_drainRing h ix e m),
    Dev.rd_drainBacklog h]

end Pins

/-! ### The link (R424) -/

/-- The fields of a link that has trained lie below bit 13 of HIF_STAT, and so leave what stands above them. -/
theorem linkWord_div (v : Nat) {w sp : Nat} (f : Bool) (hw : w < 32) (hsp : sp < 16) :
    (v - pcieFields v + linkWord w sp f) / 8192 = v / 8192 := by
  have hb : b2n f < 2 := by cases f <;> decide
  simp only [pcieFields, linkWord, bitsOf]
  omega

theorem Dev.busy_pcieTrain (d : Dev) {w sp : Nat} (f : Bool) (hw : w < 32) (hsp : sp < 16) :
    (d.pcieTrain (linkWord w sp f)).on F.HIF_STAT_RST_BUSY [] = d.on F.HIF_STAT_RST_BUSY [] := by
  unfold Dev.pcieTrain
  split
  · have hdiv := linkWord_div (d.raw R.HIF_STAT []) f hw hsp
    have high : ∀ v, bitsOf v 31 31 = v / 8192 / 2 ^ 18 % 2 := fun v => by simp only [bitsOf]; omega
    have hwide : ∀ v, bitsOf (v % 2 ^ 64) 31 31 = bitsOf v 31 31 := fun v => by simp only [bitsOf]; omega
    rw [Dev.on, Dev.on, Dev.rd_drainAll _ (by decide), Dev.rd, Dev.rd, show F.HIF_STAT_RST_BUSY.reg = R.HIF_STAT from rfl,
      Dev.raw_setRaw_self, show F.HIF_STAT_RST_BUSY.hi = 31 from rfl, show F.HIF_STAT_RST_BUSY.lo = 31 from rfl, hwide, high, hdiv, high]
  · rfl

theorem Dev.pins_pcieTrain (d : Dev) (w : Nat) : (d.pcieTrain w).pins = d.pins := by
  simp only [Dev.pcieTrain, apply_ite Dev.pins, Dev.pins_drainAll, Dev.pins_setRaw, ite_self]

/-! ## The end of a reset (R413, R417, R419) -/

/-- One field written at each index of a list. -/
theorem Dev.rd_foldl_wr {f : Fld} {n st : Nat} (hf : f.reg.dims = [⟨0, n, st⟩]) (hlo : f.lo ≤ f.hi) (hhi : f.hi < 64) (g : Nat → Nat)
    {l : List Nat} (hl : ∀ i ∈ l, i < 2 ^ 20) {i : Nat} (hi : i < 2 ^ 20) (d : Dev) :
    (l.foldl (fun d k => d.wr f [k] (g k)) d).rd f [i] = if i ∈ l then g i % 2 ^ (f.hi + 1 - f.lo) else d.rd f [i] := by
  induction l generalizing d with
  | nil => rfl
  | cons a t ih =>
    rw [List.foldl_cons, ih fun j hj => hl j (.tail _ hj)]
    by_cases ht : i ∈ t
    · rw [if_pos ht, if_pos (.tail _ ht)]
    · by_cases ha : i = a
      · rw [if_neg ht, if_pos (ha ▸ .head _), ha, Dev.rd_wr_self _ _ _ _ hlo hhi]
      · rw [if_neg ht, if_neg (by simp [ht, ha]), Dev.rd_wr_of_key _ _ _ _ _ _ (Reg.key_ne_row hf hi (hl a (.head _)) ha)]

theorem Dev.raw_allOff (d : Dev) (r : Reg) (ix : List Nat) (h : ∀ k, r.key ix ≠ R.GLB_PD_ON.key [k]) : d.allOff.raw r ix = d.raw r ix :=
  foldl_proj (fun e : Dev => e.raw r ix) _ (fun e k => e.raw_wr_of_key F.GLB_PD_ON_ON r [k] ix _ (h k)) _ d

/-- Every switched domain is off. -/
theorem Dev.domOn_allOff (d : Dev) {n : Nat} (hn : n < 190) : d.allOff.domOn n = false := by
  have hmem : n / 32 ∈ List.range 6 := List.mem_range.2 (by omega)
  have hrd : d.allOff.rd F.GLB_PD_ON_ON [n / 32] = if n / 32 = 5 then 2 ^ 30 else 0 := by
    rw [Dev.allOff, Dev.rd_foldl_wr (n := 6) (st := 4) rfl (by decide) (by decide) (fun k => if k = 5 then 2 ^ 30 else 0)
      (fun i hi => by have := List.mem_range.1 hi; omega) (by omega), if_pos hmem]
    split <;> rfl
  rw [Dev.domOn, hrd, bitAt_eq_testBit]
  split
  next h => rw [Nat.testBit_two_pow, decide_eq_false (by omega)]
  · exact Nat.zero_testBit _

section Release

variable (d : Dev)

/-- The release before PERST_N's level is looked at. -/
def Dev.restarted : Dev :=
  { d.allOff with rst := { d.rst with level := none, seqOn := true, seq := seqOrder }, hif := { d.hif with perstHold := d.hif.perstLow } }

theorem Dev.begun_eq : d.begun = if d.hif.perstLow then d.restarted.wr F.HIF_STAT_RST_BUSY [] 1 else d.restarted := by
  unfold Dev.begun Dev.restarted
  rfl

theorem Dev.raw_restarted (r : Reg) (ix : List Nat) : d.restarted.raw r ix = d.allOff.raw r ix :=
  Dev.raw_of_regs (by rw [Dev.restarted]) r ix

theorem Dev.rst_begun : d.begun.rst = { d.rst with level := none, seqOn := true, seq := seqOrder } := by
  rw [Dev.begun_eq, apply_ite Dev.rst, Dev.wr_rst, ite_self, Dev.restarted]

theorem Dev.raw_begun (r : Reg) (ix : List Nat) (h : ∀ k, r.key ix ≠ R.GLB_PD_ON.key [k]) (hb : r.key ix ≠ R.HIF_STAT.key []) :
    d.begun.raw r ix = d.raw r ix := by
  rw [Dev.begun_eq, apply_ite (fun e : Dev => e.raw r ix), Dev.raw_wr_of_key _ F.HIF_STAT_RST_BUSY r [] ix _ hb, ite_self,
    Dev.raw_restarted, Dev.raw_allOff _ _ _ h]

theorem Dev.domOn_begun {n : Nat} (hn : n < 190) : d.begun.domOn n = false := by
  have hkeep : d.begun.rd F.GLB_PD_ON_ON [n / 32] = d.allOff.rd F.GLB_PD_ON_ON [n / 32] := by
    rw [Dev.begun_eq, apply_ite (fun e : Dev => e.rd F.GLB_PD_ON_ON [n / 32]), Dev.rd_wr_apart _ _ _ _ (by decide), ite_self]
    exact Dev.rd_of_raw (d.raw_restarted _ _)
  rw [Dev.domOn, hkeep, ← Dev.domOn, d.domOn_allOff hn]

theorem Dev.level_pdNext : d.pdNext.rst.level = d.rst.level := by
  have seqNext : d.seqNext.rst.level = d.rst.level := by
    unfold Dev.seqNext
    split <;> rfl
  have hseq : (if d.rst.seqOn then d.seqNext else d).rst.level = d.rst.level := by
    rw [apply_ite (fun e : Dev => e.rst.level), seqNext, ite_self]
  unfold Dev.pdNext
  generalize List.range 190 = l
  generalize (if d.rst.seqOn then d.seqNext else d) = e at hseq ⊢
  split
  · rfl
  · dsimp only
    split
    · exact hseq
    · split
      · exact hseq
      · exact hseq

/-- The sequence begins with its first domain, which is requested on. -/
theorem Dev.pdActive_pdNext {t : List Nat} {n : Nat} (ha : d.rst.pdActive = none) (hon : d.rst.seqOn = true) (hs : d.rst.seq = n :: t)
    (hreq : d.domReq n = true) : d.pdNext.rst.pdActive = some (n, true) := by
  have hnext : d.seqNext = { d with rst := { d.rst with seq := t, pdActive := some (n, true) } } := by
    unfold Dev.seqNext
    rw [hs, List.dropWhile_cons_of_neg (by rw [hreq]; decide)]
  unfold Dev.pdNext
  generalize List.range 190 = l
  rw [if_neg (by rw [ha]; decide), if_pos hon, hnext]
  rfl

variable (smb : Nat) (slow : Bool) (boot : Nat)

theorem Dev.rst_strapped : (d.strapped smb slow boot).rst = d.rst := by
  rw [Dev.strapped, Dev.wr_rst, Dev.wr_rst, apply_ite Dev.rst, Dev.sample, Dev.wr_rst, Dev.wr_rst, Dev.wr_rst, ite_self]

theorem Dev.hif_strapped : (d.strapped smb slow boot).hif = d.hif := by
  rw [Dev.strapped, Dev.wr_hif, Dev.wr_hif, apply_ite Dev.hif, Dev.sample, Dev.wr_hif, Dev.wr_hif, Dev.wr_hif, ite_self]

/-- A register of another kind than the straps' and the two that follow them. -/
theorem Dev.raw_strapped (r : Reg) (ix : List Nat) (h1 : r.key ix ≠ R.GLB_STRAP.key []) (h2 : r.key ix ≠ R.PIN_BMC.key [])
    (h3 : r.key ix ≠ R.RST_STAT.key []) : (d.strapped smb slow boot).raw r ix = d.raw r ix := by
  rw [Dev.strapped, Dev.raw_wr_of_key _ F.RST_STAT_BOOT_HOLD r [] ix _ h3, Dev.raw_wr_of_key _ F.PIN_BMC_STATIC_ADDR r [] ix _ h2,
    apply_ite (fun e : Dev => e.raw r ix), Dev.sample, Dev.raw_wr_of_key _ F.GLB_STRAP_BOOT r [] ix _ h1,
    Dev.raw_wr_of_key _ F.GLB_STRAP_SPI_SLOW r [] ix _ h1, Dev.raw_wr_of_key _ F.GLB_STRAP_SMB_ADDR r [] ix _ h1, ite_self]

/-- The straps once a reset has ended: on power-on the pins', else as they were. -/
theorem Dev.strap_strapped : (d.strapped smb slow boot).raw R.GLB_STRAP [] =
    (if d.rst.level = some .powerOn then d.sample smb slow boot else d).raw R.GLB_STRAP [] := by
  rw [Dev.strapped, Dev.raw_wr_of_key _ F.RST_STAT_BOOT_HOLD _ [] _ _ (Reg.key_ne _ _ (by decide) (by decide) (by decide)),
    Dev.raw_wr_of_key _ F.PIN_BMC_STATIC_ADDR _ [] _ _ (Reg.key_ne _ _ (by decide) (by decide) (by decide))]

theorem Dev.bootHold_strapped : (d.strapped smb slow boot).on F.RST_STAT_BOOT_HOLD [] =
    ((d.strapped smb slow boot).rd F.GLB_STRAP_BOOT [] == 1) := by
  rw [Dev.strapped, Dev.on_wr_bit _ _ _ _ rfl (by decide), Dev.rd_wr_apart _ _ _ _ (by decide), Dev.rd_wr_apart _ _ _ _ (by decide),
    Dev.rd_wr_apart _ _ _ _ (by decide)]

/-- Outside the power domains, HIF_STAT and RST_STAT.PD_DONE a release writes the straps and what follows them. -/
theorem Dev.rd_release {f : Fld} (hdone : f.apart F.RST_STAT_PD_DONE = true) (h : ∀ k, f.reg.key [] ≠ R.GLB_PD_ON.key [k])
    (hb : f.reg.key [] ≠ R.HIF_STAT.key []) : (d.release smb slow boot).rd f [] = (d.strapped smb slow boot).rd f [] := by
  rw [Dev.release_eq, Dev.rd_pdNext _ _ hdone]
  exact Dev.rd_of_raw (Dev.raw_begun _ _ _ h hb)

theorem Dev.raw_pdNext (r : Reg) (ix : List Nat) (h : r.key ix ≠ R.RST_STAT.key []) : d.pdNext.raw r ix = d.raw r ix := by
  have setRst : ∀ (e : Dev) (x : RstSt), (e.setRst x).raw r ix = e.raw r ix := fun _ _ => rfl
  obtain ⟨x, hx | hx⟩ := d.pdNext_eq
  · rw [hx, setRst]
  · rw [hx, setRst, Dev.raw_wr_of_key _ F.RST_STAT_PD_DONE r [] ix _ h]

theorem Dev.strap_release : (d.release smb slow boot).raw R.GLB_STRAP [] =
    (if d.rst.level = some .powerOn then d.sample smb slow boot else d).raw R.GLB_STRAP [] := by
  rw [Dev.release_eq, Dev.raw_pdNext _ _ _ (Reg.key_ne _ _ (by decide) (by decide) (by decide)),
    Dev.raw_begun _ _ _ (fun k => Reg.key_ne _ _ (by decide) (by decide) (by decide)) (Reg.key_ne _ _ (by decide) (by decide) (by decide)),
    Dev.strap_strapped]

theorem Dev.straps_release (h : d.rst.level = some .powerOn) (hsmb : smb < 4) (hboot : boot < 4) :
    (d.release smb slow boot).rd F.GLB_STRAP_BOOT [] = boot ∧ (d.release smb slow boot).rd F.GLB_STRAP_SMB_ADDR [] = smb ∧
    (d.release smb slow boot).on F.GLB_STRAP_SPI_SLOW [] = slow := by
  have hraw : (d.release smb slow boot).raw R.GLB_STRAP [] = (d.sample smb slow boot).raw R.GLB_STRAP [] := by
    rw [Dev.strap_release, if_pos h]
  refine ⟨?_, ?_, ?_⟩
  · rw [Dev.rd_of_raw (f := F.GLB_STRAP_BOOT) hraw, Dev.sample, Dev.rd_wr_fits _ F.GLB_STRAP_BOOT _ _ (by decide) (by decide) hboot]
  · rw [Dev.rd_of_raw (f := F.GLB_STRAP_SMB_ADDR) hraw, Dev.sample, Dev.rd_wr_apart _ _ _ _ (by decide),
      Dev.rd_wr_apart _ _ _ _ (by decide), Dev.rd_wr_fits _ F.GLB_STRAP_SMB_ADDR _ _ (by decide) (by decide) hsmb]
  · rw [Dev.on_of_raw (f := F.GLB_STRAP_SPI_SLOW) hraw, Dev.sample, Dev.on_wr_apart _ _ _ _ (by decide), Dev.on_wr_bit _ _ _ _ rfl (by decide)]

theorem Dev.busy_release (h : d.hif.perstLow = true) : (d.release smb slow boot).on F.HIF_STAT_RST_BUSY [] = true := by
  rw [Dev.release_eq, Dev.on, Dev.rd_pdNext _ _ (by decide), Dev.begun_eq, Dev.hif_strapped, if_pos h]
  exact Dev.on_wr_bit _ _ _ true rfl (by decide)

theorem Dev.bootHold_release : (d.release smb slow boot).on F.RST_STAT_BOOT_HOLD [] = true ↔
    (d.release smb slow boot).rd F.GLB_STRAP_BOOT [] = 1 := by
  have hold := d.rd_release smb slow boot (f := F.RST_STAT_BOOT_HOLD) (by decide)
    (fun k => Reg.key_ne _ _ (by decide) (by decide) (by decide)) (Reg.key_ne _ _ (by decide) (by decide) (by decide))
  have boots := d.rd_release smb slow boot (f := F.GLB_STRAP_BOOT) (by decide)
    (fun k => Reg.key_ne _ _ (by decide) (by decide) (by decide)) (Reg.key_ne _ _ (by decide) (by decide) (by decide))
  rw [boots, Dev.on, hold, ← Dev.on, Dev.bootHold_strapped, beq_iff_eq]

theorem Dev.domReq_begun (n : Nat) : ((d.strapped smb slow boot).begun).domReq n = d.domReq n := by
  have hraw : ((d.strapped smb slow boot).begun).raw R.GLB_PD_REQ [n / 32] = d.raw R.GLB_PD_REQ [n / 32] := by
    rw [Dev.raw_begun _ _ _ (fun k => Reg.key_ne _ _ (by decide) (by decide) (by decide)) (Reg.key_ne _ _ (by decide) (by decide) (by decide)),
      Dev.raw_strapped _ _ _ _ _ _ (Reg.key_ne _ _ (by decide) (by decide) (by decide)) (Reg.key_ne _ _ (by decide) (by decide) (by decide))
        (Reg.key_ne _ _ (by decide) (by decide) (by decide))]
  rw [Dev.domReq, Dev.rd_of_raw (f := F.GLB_PD_REQ_ON) hraw, Dev.domReq]

theorem Dev.pdActive_release (ha : d.rst.pdActive = none) (hreq : d.domReq 182 = true) :
    (d.release smb slow boot).rst.pdActive = some (182, true) := by
  rw [Dev.release_eq]
  refine Dev.pdActive_pdNext _ (t := 180 :: (List.range 190).filter (fun n => n != 182 && n != 180)) ?_ ?_ ?_ ?_
  · rw [Dev.rst_begun, Dev.rst_strapped, ha]
  · rw [Dev.rst_begun]
  · rw [Dev.rst_begun, seqOrder]
  · rw [Dev.domReq_begun, hreq]

end Release

/-! ## The commands that begin and end resets -/

/-- A reset that has begun: what it leaves, and the registers as it writes them. -/
structure Begun (l : ResetLevel) (cause supply mid : Nat) (aon : Bool) (d e : Dev) : Prop where
  left : ResetLeft l d e
  raw : ∀ r ix, e.raw r ix = (d.beginReset l cause supply mid aon).raw r ix

namespace Begun

variable {l : ResetLevel} {cause supply mid : Nat} {aon : Bool} {d e : Dev}

theorem cause_eq (h : Begun l cause supply mid aon d e) (hc : cause < 16) : e.rd F.RST_CAUSE_CAUSE [] = cause := by
  rw [Dev.rd_of_raw (h.raw _ _), Dev.cause_beginReset _ _ _ _ _ _ hc]

theorem supply_eq (h : Begun l cause supply mid aon d e) (hs : supply < 16) : e.rd F.RST_CAUSE_SUPPLY [] = supply := by
  rw [Dev.rd_of_raw (h.raw _ _), Dev.supply_beginReset _ _ _ _ _ _ hs]

theorem mid_eq (h : Begun l cause supply mid aon d e) (hm : mid < 256) : e.rd F.RST_CAUSE_MID [] = mid := by
  rw [Dev.rd_of_raw (h.raw _ _), Dev.mid_beginReset _ _ _ _ _ _ hm]

theorem cold_eq (h : Begun l cause supply mid false d e) (hl : l ≠ .warm) :
    e.rd F.RST_COUNT_COLD [] = min 65535 (d.rd F.RST_COUNT_COLD [] + 1) ∧ e.rd F.RST_COUNT_WARM [] = d.rd F.RST_COUNT_WARM [] := by
  rw [Dev.rd_of_raw (h.raw _ _), Dev.rd_of_raw (h.raw _ _)]
  exact d.cold_beginReset l cause supply mid hl

theorem warm_eq (h : Begun .warm cause supply mid false d e) :
    e.rd F.RST_COUNT_WARM [] = min 65535 (d.rd F.RST_COUNT_WARM [] + 1) ∧ e.rd F.RST_COUNT_COLD [] = d.rd F.RST_COUNT_COLD [] := by
  rw [Dev.rd_of_raw (h.raw _ _), Dev.rd_of_raw (h.raw _ _)]
  exact d.warm_beginReset cause supply mid

/-- A command that begins a reset answers the device that the reset leaves. -/
theorem of_runs {c : Instr} {s : State} (h : Runs c s (s.dev.beginReset l cause supply mid aon)) :
    ∃ t, exec c s = .next t ∧ Begun l cause supply mid aon s.dev t.dev := by
  obtain ⟨hleft, hraw⟩ := resetLeft_beginReset s.dev l cause supply mid aon
  exact ⟨_, h, hleft, hraw⟩

end Begun

/-! ### RST_CTL (R416, R417) -/

theorem Dev.rstCtl_keyRej (d : Dev) (mid : Nat) {v : Nat} (h : bitsOf v 15 8 ≠ 0x5A) : d.rstCtl mid v = d.wr F.RST_STAT_KEY_REJ [] 1 := by
  rw [Dev.rstCtl, if_pos h]

theorem Dev.coldTrigger_begins {d : Dev} (cause supply mid : Nat) (h : d.rst.level = none ∨ d.rst.level = some .warm) :
    d.coldTrigger cause supply mid = d.beginReset .cold cause supply mid false := by
  rw [Dev.coldTrigger, if_pos h]

theorem Dev.rstCtl_cold {d : Dev} (mid : Nat) {v : Nat} (hk : bitsOf v 15 8 = 0x5A) (hv : bitAt v 1 = true)
    (h : d.rst.level = none ∨ d.rst.level = some .warm) : d.rstCtl mid v = d.beginReset .cold 5 0 mid false := by
  rw [Dev.rstCtl, if_neg (not_not.2 hk), if_pos hv, Dev.coldTrigger_begins _ _ _ h]

theorem Dev.rstCtl_warm {d : Dev} (mid : Nat) {v : Nat} (hk : bitsOf v 15 8 = 0x5A) (h0 : bitAt v 0 = true) (h1 : bitAt v 1 = false) :
    d.rstCtl mid v = d.warmTrigger 7 mid := by
  rw [Dev.rstCtl, if_neg (not_not.2 hk), if_neg (Bool.eq_false_iff.1 h1), if_pos h0]

theorem Dev.warmTrigger_begins {d : Dev} (cause mid : Nat) (h : d.rst.level = none) (ht : d.rst.thermTrip = false) :
    d.warmTrigger cause mid = d.beginReset .warm cause 0 mid false := by
  rw [Dev.warmTrigger, if_neg (by rw [h]; decide), if_neg (by rw [ht]; decide)]

theorem Dev.warmTrigger_refused {d : Dev} (cause mid : Nat) (h : d.rst.level = none) (ht : d.rst.thermTrip = true) :
    d.warmTrigger cause mid = d.wr F.RST_STAT_WARM_REJ [] 1 := by
  rw [Dev.warmTrigger, if_neg (by rw [h]; decide), if_pos ht]

theorem exec_cold (m : Master) (v : BitVec 32) (s : State) : exec (.cold m v) s = s.runAny fun d =>
    if !(rstWriter m && bitAt v.toNat 1) then d
    else if d.rst.level = some .warm then d.rstCtl m.mid v.toNat
    else d.apply (fun d => d.access m R.RST_CTL.bar0 v.toNat (fun d => d.rstCtl m.mid v.toNat)) := rfl

theorem runs_cold {s : State} {m : Master} {v : BitVec 32} (hl : Live s) (hm : rstWriter m = true) (hb : s.dev.hostBlocked m = false)
    (hv : bitAt v.toNat 1 = true) : Runs (.cold m v) s (s.dev.rstCtl m.mid v.toNat) := by
  have htaken := Dev.access_taken (d := s.dev) (off := R.RST_CTL.bar0) v.toNat (fun d => d.rstCtl m.mid v.toNat) hb (by decide)
  have hno : ¬ (!(rstWriter m && bitAt v.toNat 1)) = true := by rw [hm, hv]; decide
  have hcold : ¬ s.dev.rst.level = some .warm := by rw [hl.1]; exact nofun
  have happly : s.dev.rst.level.isNone = true := by rw [hl.1]; rfl
  have hrun := Runs.of_runAny (exec_cold m v s) ((if_neg hno).trans (if_neg hcold))
  rwa [Runs, Dev.apply, if_pos happly, htaken, Dev.latched_latched _ hl.2 hl.2 rfl rfl rfl] at hrun

theorem runs_warm {s : State} {m : Master} {v : BitVec 32} (hl : Live s) (hm : rstWriter m = true) (hb : s.dev.hostBlocked m = false)
    (h0 : bitAt v.toNat 0 = true) (h1 : bitAt v.toNat 1 = false) : Runs (.warm m v) s (s.dev.rstCtl m.mid v.toNat) := by
  have htaken := Dev.access_taken (d := s.dev) (off := R.RST_CTL.bar0) v.toNat (fun d => d.rstCtl m.mid v.toNat) hb (by decide)
  refine Runs.of_run hl rfl ?_
  rw [if_pos (by rw [hm, h0, h1]; decide), htaken]

theorem runs_cold_inWarm {s : State} {m : Master} {v : BitVec 32} (hw : s.dev.rst.level = some .warm) (hm : rstWriter m = true)
    (hv : bitAt v.toNat 1 = true) : Runs (.cold m v) s (s.dev.rstCtl m.mid v.toNat) := by
  refine Runs.of_runAny (exec_cold m v s) ?_
  rw [if_neg (by rw [hm, hv]; decide), if_pos hw]

/-! ### PERST_N and INIT_DONE -/

/-- PERST_N is high, and the interface held in no HIF reset by it. -/
def Dev.perstHigh (d : Dev) (w : Nat) : Dev := { d with hif := { d.hif with perstLow := false, perstHold := false, train := w } }

theorem Dev.perstRises_eq (d : Dev) (w : Nat) : d.perstRises w = (d.perstHigh w).apply fun e =>
    (if d.hif.perstHold then e.wr F.HIF_STAT_RST_BUSY [] 0 else e).pcieTrain w := by
  unfold Dev.perstRises Dev.perstHigh
  rfl

theorem Dev.pins_perstRises (d : Dev) (w : Nat) : (d.perstRises w).pins = (d.perstHigh w).pins := by
  have latched : ∀ a b : Dev, (Dev.latched a b).pins = b.pins := fun a b => by
    unfold Dev.pins
    rw [Dev.latched_hif]
  rw [Dev.perstRises_eq, Dev.apply, apply_ite Dev.pins, latched, Dev.pins_pcieTrain, apply_ite Dev.pins, Dev.pins_wr, ite_self, ite_self]

theorem Dev.perstLow_perstRises (d : Dev) (w : Nat) : (d.perstRises w).hif.perstLow = false :=
  congrArg (fun x => x.1.1) (d.pins_perstRises w)

theorem Dev.busy_perstRises {d : Dev} (hd : d.spl.dead = []) {w : Nat}
    (hw : ∀ e : Dev, (e.pcieTrain w).on F.HIF_STAT_RST_BUSY [] = e.on F.HIF_STAT_RST_BUSY []) (hl : d.rst.level = none)
    (hh : d.hif.perstHold = true) : (d.perstRises w).on F.HIF_STAT_RST_BUSY [] = false := by
  have happly : (d.perstHigh w).rst.level.isNone = true := by rw [Dev.perstHigh, hl]; rfl
  have hdead : (d.perstHigh w).spl.dead = [] := by rw [Dev.perstHigh, hd]
  rw [Dev.perstRises_eq, Dev.apply, if_pos happly, Dev.on_latched _ _ _ hdead, hw, if_pos hh]
  exact Dev.on_wr_bit _ _ _ false rfl (by decide)

/-- Whatever a PERST_N rise trains the link to, RST_BUSY stands as it was. -/
theorem Dev.busy_trained (w : Fin 32) (sp : Fin 16) (f : Bool) (e : Dev) :
    (e.pcieTrain (if linkOk w.val sp.val f then linkWord w.val sp.val f else 0)).on F.HIF_STAT_RST_BUSY [] = e.on F.HIF_STAT_RST_BUSY [] := by
  split
  · exact e.busy_pcieTrain f w.isLt sp.isLt
  · rw [Dev.pcieTrain, if_neg (by simp)]

theorem Dev.initDone_refsOk (d : Dev) : ((d.wr F.RST_STAT_INIT_DONE [] 1).refsOk).on F.RST_STAT_INIT_DONE [] = true := by
  have hrefs : ∀ e : Dev, e.refsOk.rd F.RST_STAT_INIT_DONE [] = e.rd F.RST_STAT_INIT_DONE [] := fun e =>
    foldl_proj (fun e : Dev => e.rd F.RST_STAT_INIT_DONE []) _ (fun e c => e.rd_wr_apart _ _ _ (by decide)) _ e
  rw [Dev.on, hrefs]
  exact Dev.on_wr_bit _ _ _ true rfl (by decide)

theorem initDone_rises {s : State} (hl : Live s) (hi : s.dev.on F.RST_STAT_INIT_DONE [] = false) (hw : s.dev.rst.waiting = []) :
    ∃ t, exec .initDone s = .next t ∧ t.dev.on F.RST_STAT_INIT_DONE [] = true := by
  have hrun := Runs.of_run (c := .initDone) hl rfl (if_neg (Bool.eq_false_iff.1 hi))
  refine ⟨_, hrun, ?_⟩
  rw [Dev.on_latched _ _ _ hl.2, hw, Dev.replay, Dev.on, Dev.rd_pdNext _ _ (by decide)]
  have setRst : ∀ (e : Dev) (x : RstSt), ({ e with rst := x } : Dev).rd F.RST_STAT_INIT_DONE [] = e.rd F.RST_STAT_INIT_DONE [] := fun _ _ => rfl
  rw [setRst, ← Dev.on, Dev.initDone_refsOk]

theorem release_ends {s : State} (a b : Fin 4) (slow : Bool) (hs : s.dev.rst.level.isSome = true) (hd : s.dev.spl.dead = []) :
    ∃ t, exec (.resetRelease a slow b) s = .next t ∧ t.dev.rst = (s.dev.release a.val slow b.val).rst ∧
      ∀ r ix, t.dev.raw r ix = (s.dev.release a.val slow b.val).raw r ix := by
  have hrun := Runs.of_runAny (c := .resetRelease a slow b) (s := s) rfl (if_pos hs)
  exact ⟨_, hrun, Dev.latched_rst _ _, fun r ix => Dev.raw_of_regs (Dev.latched_regs _ _ hd) r ix⟩

/-- Settles O59: a reset that begins is one function, whose registers and whose rest are said once; each trigger takes its branch. -/
theorem resetsBeginAndEnd : Obligations.ResetsBeginAndEnd := by
  unfold Obligations.ResetsBeginAndEnd
  refine ⟨fun s => ?_, fun s m v hl hm hb hk => ⟨fun hv => ?cold, fun h0 h1 ht => ?warm⟩, fun s hl hi hw => initDone_rises hl hi hw⟩
  case cold =>
    have hrun := runs_cold hl hm hb hv
    rw [Dev.rstCtl_cold _ hk hv (.inl hl.1)] at hrun
    obtain ⟨t, ht, hbegun⟩ := Begun.of_runs hrun
    exact ⟨t, ht, hbegun.left, hbegun.cause_eq (by decide), hbegun.mid_eq (Master.mid_lt m)⟩
  case warm =>
    have hrun := runs_warm hl hm hb h0 h1
    rw [Dev.rstCtl_warm _ hk h0 h1, Dev.warmTrigger_begins _ _ hl.1 ht] at hrun
    obtain ⟨t, ht, hbegun⟩ := Begun.of_runs hrun
    exact ⟨t, ht, hbegun.left, hbegun.cause_eq (by decide), hbegun.mid_eq (Master.mid_lt m)⟩
  refine ⟨fun c => ?powerOn, ?refclk, fun k => ⟨fun h => ?supply, fun h => Runs.of_runAny (f := fun d => d.coldTrigger 4 k.val 0) rfl ?held⟩, fun hn ht => ?pin,
    fun h => Runs.of_runAny (f := fun d => d.warmTrigger 6 0) rfl (if_pos h), fun m v hw hm hv => ⟨fun hk => ?inWarm, fun hk => ?keyRej⟩, fun a b slow hs hd => ?release,
    fun w sp f hlow hd => ?perst⟩
  case powerOn =>
    have power : ∀ {cause : Nat} {aon : Bool}, s.dev.powerOn c = s.dev.beginReset .powerOn cause 0 0 aon → cause < 16 →
        ∃ t, exec (.powerOnReset c) s = .next t ∧ Begun .powerOn cause 0 0 aon s.dev t.dev := fun h _ =>
      Begun.of_runs (Runs.of_runAny (f := fun d => d.powerOn c) rfl h)
    cases c with
    | vddAon =>
      obtain ⟨t, ht, hb⟩ := power (cause := 1) (aon := true) rfl (by decide)
      refine ⟨t, ht, hb.left, hb.cause_eq (by decide), fun _ => ?_, fun h => absurd rfl h⟩
      rw [hb.raw, Dev.aon_beginReset]
    | vddIo =>
      obtain ⟨t, ht, hb⟩ := power (cause := 1) (aon := false) rfl (by decide)
      exact ⟨t, ht, hb.left, hb.cause_eq (by decide), nofun, fun _ => hb.cold_eq (by decide)⟩
    | pwrgd =>
      obtain ⟨t, ht, hb⟩ := power (cause := 2) (aon := false) rfl (by decide)
      exact ⟨t, ht, hb.left, hb.cause_eq (by decide), nofun, fun _ => hb.cold_eq (by decide)⟩
    | refclkA =>
      obtain ⟨t, ht, hb⟩ := power (cause := 3) (aon := false) rfl (by decide)
      exact ⟨t, ht, hb.left, hb.cause_eq (by decide), nofun, fun _ => hb.cold_eq (by decide)⟩
  case refclk =>
    obtain ⟨t, ht, hb⟩ := Begun.of_runs (c := .refclkALoss) (s := s) (l := .powerOn) (cause := 3) (supply := 0) (mid := 0) (aon := false)
      (Runs.of_runAny (f := fun d => d.powerOn .refclkA) rfl rfl)
    exact ⟨t, ht, hb.left, hb.cause_eq (by decide), (hb.cold_eq (by decide)).1⟩
  case supply =>
    obtain ⟨t, ht, hb⟩ := Begun.of_runs (c := .supplyFail k) (Runs.of_runAny rfl (Dev.coldTrigger_begins 4 k.val 0 h))
    exact ⟨t, ht, hb.left, hb.cause_eq (by decide), hb.supply_eq (by omega), (hb.cold_eq (by decide)).1⟩
  case held =>
    rw [Dev.coldTrigger, if_neg]
    rcases h with h | h <;> simp [h]
  case pin =>
    obtain ⟨t, ht, hb⟩ := Begun.of_runs (c := .sysRstNLow) (Runs.of_runAny (f := fun d => d.warmTrigger 6 0) rfl (Dev.warmTrigger_begins 6 0 hn ht))
    exact ⟨t, ht, hb.left, hb.cause_eq (by decide), hb.warm_eq.1, hb.warm_eq.2⟩
  case inWarm =>
    have hrun := runs_cold_inWarm hw hm hv
    rw [Dev.rstCtl_cold _ hk hv (.inr hw)] at hrun
    obtain ⟨t, ht, hb⟩ := Begun.of_runs hrun
    exact ⟨t, ht, hb.left, hb.cause_eq (by decide), hb.mid_eq (Master.mid_lt m), (hb.cold_eq (by decide)).1⟩
  case keyRej =>
    have hrun := runs_cold_inWarm hw hm hv
    rwa [Dev.rstCtl_keyRej _ _ hk] at hrun
  case release =>
    obtain ⟨t, ht, hrst, hraw⟩ := release_ends a b slow hs hd
    have hrd : ∀ (f : Fld) (ix : List Nat), t.dev.rd f ix = (s.dev.release a.val slow b.val).rd f ix := fun f ix => Dev.rd_of_raw (hraw _ _)
    have hon : ∀ f : Fld, t.dev.on f [] = (s.dev.release a.val slow b.val).on f [] := fun f => Dev.on_of_raw (hraw _ _)
    have straps := fun h => s.dev.straps_release a.val slow b.val h a.isLt b.isLt
    refine ⟨t, ht, ?level, fun n hn => ?off, fun ha hreq => ?first, fun h => ?straps, fun h => ?kept, ?hold, fun h => ?busy⟩
    case level => rw [hrst, Dev.release_eq, Dev.level_pdNext, Dev.rst_begun]
    case off => rw [Dev.domOn, hrd, Dev.release_eq, Dev.rd_pdNext _ _ (by decide), ← Dev.domOn, Dev.domOn_begun _ hn]
    case first => rw [hrst, Dev.pdActive_release _ _ _ _ ha hreq]
    case straps => rw [hrd, hrd, hon]; exact straps h
    case kept => rw [hraw, Dev.strap_release, if_neg h]
    case hold => rw [hon, hrd]; exact s.dev.bootHold_release a.val slow b.val
    case busy => rw [hon]; exact s.dev.busy_release a.val slow b.val h
  case perst =>
    have hrun := Runs.of_runAny (c := .perstNRise w sp f) (s := s) rfl (if_pos hlow)
    refine ⟨_, hrun, s.dev.perstLow_perstRises _, fun hn hh => ?_⟩
    rw [Dev.on_latched _ _ _ hd, Dev.busy_perstRises hd (Dev.busy_trained w sp f) hn hh]


/-! ## The key of RST_CTL and THERMTRIP_N (R416) -/

theorem rstWriter_of_other {m : Master} (h0 : m ≠ .pf0) (hs : ∀ k, m ≠ .svc k) (hj : m ≠ .jtag) (hb : m ≠ .bmc) : rstWriter m = false := by
  cases m with
  | pf0 => exact absurd rfl h0
  | vf v => rfl
  | svc k => exact absurd rfl (hs k)
  | jtag => exact absurd rfl hj
  | bmc => exact absurd rfl hb

theorem runs_cold_other {s : State} {m : Master} (v : BitVec 32) (hm : rstWriter m = false) : Runs (.cold m v) s s.dev := by
  refine Runs.of_runAny (exec_cold m v s) ?_
  rw [if_pos (by rw [hm]; rfl)]

theorem runs_warm_other {s : State} {m : Master} (v : BitVec 32) (hl : Live s) (hm : rstWriter m = false) : Runs (.warm m v) s s.dev := by
  refine Runs.of_run hl rfl ?_
  rw [if_neg (by rw [hm, Bool.false_and, Bool.false_and]; exact Bool.false_ne_true)]

/-- Settles O58: the key stands before the command, THERMTRIP_N before a warm reset. -/
theorem resetKeyAndThermtrip : Obligations.ResetKeyAndThermtrip := by
  unfold Obligations.ResetKeyAndThermtrip
  intro s hl
  refine ⟨fun m v hm hb hk => ⟨fun hv => ?_, fun h0 h1 => ?_⟩, ⟨rfl, fun k => rfl, rfl, rfl⟩, fun m v h0 hs hj hb => ?_,
    fun ht => ⟨fun m v hm hb hk h0 h1 => ?_, ?_, fun m v hm hb hk hv => ?_, fun cause => ?_⟩⟩
  · rw [← Dev.rstCtl_keyRej s.dev m.mid hk]
    exact runs_cold hl hm hb hv
  · rw [← Dev.rstCtl_keyRej s.dev m.mid hk]
    exact runs_warm hl hm hb h0 h1
  · have hm := rstWriter_of_other h0 hs hj hb
    exact ⟨runs_cold_other v hm, runs_warm_other v hl hm⟩
  · rw [← Dev.warmTrigger_refused 7 m.mid hl.1 ht, ← Dev.rstCtl_warm m.mid hk h0 h1]
    exact runs_warm hl hm hb h0 h1
  · rw [← Dev.warmTrigger_refused 6 0 hl.1 ht]
    exact Runs.of_runAny (f := fun d => d.warmTrigger 6 0) rfl rfl
  · have hrun := runs_cold hl hm hb hv
    rw [Dev.rstCtl_cold _ hk hv (.inl hl.1)] at hrun
    obtain ⟨t, hexec, hbegun⟩ := Begun.of_runs hrun
    exact ⟨t, hexec, hbegun.left.1⟩
  · obtain ⟨t, hexec, hleft, -⟩ := (resetsBeginAndEnd.1 s).1 cause
    exact ⟨t, hexec, hleft.1⟩

/-! ## The BMC port (R437 to R439) -/

theorem Dev.hostBlocked_bmc (d : Dev) : d.hostBlocked .bmc = false := by simp [Dev.hostBlocked]

theorem bmc_served {s : State} {off : Nat} (h : s.dev.mustWait off = false) : Served s .bmc off :=
  ⟨⟨s.dev.hostBlocked_bmc, h⟩, nofun, rfl⟩

theorem locate_rstCtl : locate R.RST_CTL.bar0 = some ⟨R.RST_CTL, [], false⟩ := by decide

/-- A write of RST_CTL by a master that may write it. -/
theorem Dev.write32_rstCtl {d : Dev} {m : Master} (hd : d.spl.dead = []) (hm : rstWriter m = true) (v : Nat) :
    d.write32 m R.RST_CTL.bar0 v = d.rstCtl m.mid v := by
  have haway : d.mbxAway R.RST_CTL.bar0 = false := by rw [Dev.mbxAway, show (R.RST_CTL.bar0 / 1048576 == R.MBX_STAT.win) = false by decide, Bool.false_and]
  have hwriter : d.writer m R.RST_CTL = true := by
    unfold Dev.writer
    rw [if_neg (by decide), if_neg (by decide), if_pos rfl, hm]
  rw [Dev.write32_narrow locate_rstCtl haway rfl, Dev.writeReg_stored (by decide) rfl (by decide) hwriter rfl, Dev.shownWord_of_no_dead _ _ _ _ hd]
  unfold Dev.store
  rw [if_neg (by decide), if_neg (by decide), if_neg (by decide), if_pos rfl]

theorem Dev.writeOk_wrongKey (d : Dev) (m : Master) {v : Nat} (h : bitsOf v 15 8 ≠ 0x5A) : d.writeOk m R.RST_CTL.bar0 v = false := by
  simp [Dev.writeOk, locate_rstCtl, h]

theorem bmcWrite_rstCtl {s : State} (hl : Live s) (v : Nat) (ha : s.dev.bmc.addr = R.RST_CTL.bar0) :
    s.dev.busWrite .bmc s.dev.bmc.addr false v = s.dev.rstCtl Master.bmc.mid v := by
  rw [ha, (bmc_served (s := s) (off := R.RST_CTL.bar0) (by rw [Dev.mustWait, show initWindow (R.RST_CTL.bar0 / 1048576) = false by decide, Bool.false_and])).busWrite,
    if_neg (by decide), Dev.write32_rstCtl hl.2 rfl]

section BmcWrite

variable {s : State} (hl : Live s) (v : BitVec 32)

include hl

theorem runs_bmcWrite_step (h : (s.dev.busWrite .bmc s.dev.bmc.addr false v.toNat).resets = s.dev.resets) :
    Runs (.bmcWrite v false) s ((s.dev.busWrite .bmc s.dev.bmc.addr false v.toNat).bmcStep (!s.dev.writeOk .bmc s.dev.bmc.addr v.toNat)) :=
  Runs.of_run hl rfl ((if_neg Bool.false_ne_true).trans (if_pos h))

theorem runs_bmcWrite_reset (h : (s.dev.busWrite .bmc s.dev.bmc.addr false v.toNat).resets ≠ s.dev.resets) :
    Runs (.bmcWrite v false) s (s.dev.busWrite .bmc s.dev.bmc.addr false v.toNat) :=
  Runs.of_run hl rfl ((if_neg Bool.false_ne_true).trans (if_neg h))

theorem bmcWrite_cold (ha : s.dev.bmc.addr = R.RST_CTL.bar0) (hk : bitsOf v.toNat 15 8 = 0x5A) (hv : bitAt v.toNat 1 = true) :
    ∃ t, exec (.bmcWrite v false) s = .next t ∧ t.dev.rst.level = some .cold ∧ t.dev.bmc.addr = 0 ∧ t.dev.bmc.err = false := by
  have hwrite := bmcWrite_rstCtl hl v.toNat ha
  rw [Dev.rstCtl_cold _ hk hv (.inl hl.1)] at hwrite
  have hrun := runs_bmcWrite_reset hl v (by rw [hwrite, Dev.beginReset_resets]; omega)
  rw [hwrite] at hrun
  obtain ⟨e, he, -, ⟨rs, o, hrest⟩, -⟩ := s.dev.rest_begun .cold 5 0 Master.bmc.mid false
  refine ⟨_, hrun, ?_⟩
  rw [he, hrest]
  exact ⟨rfl, rfl, rfl⟩

theorem bmcWrite_keyRej (ha : s.dev.bmc.addr = R.RST_CTL.bar0) (hk : bitsOf v.toNat 15 8 ≠ 0x5A) :
    ∃ t, exec (.bmcWrite v false) s = .next t ∧ t.dev.on F.RST_STAT_KEY_REJ [] = true ∧ t.dev.bmc.err = true ∧
      t.dev.bmc.addr = (s.dev.bmc.addr + 4) % 2 ^ 32 := by
  have hwrite := bmcWrite_rstCtl hl v.toNat ha
  rw [Dev.rstCtl_keyRej _ _ hk] at hwrite
  have hok := Dev.writeOk_wrongKey s.dev .bmc hk
  rw [← ha] at hok
  have hrun := runs_bmcWrite_step hl v (by rw [hwrite, Dev.wr_resets])
  rw [hwrite, hok] at hrun
  have step : ∀ (e : Dev) (b : Bool), (e.bmcStep b).on F.RST_STAT_KEY_REJ [] = e.on F.RST_STAT_KEY_REJ [] := fun _ _ => rfl
  refine ⟨_, hrun, ?_, ?_, ?_⟩
  · rw [Dev.on_latched _ _ _ hl.2, step]
    exact Dev.on_wr_bit _ _ _ true rfl (by decide)
  · rw [Dev.latched_bmc, Dev.bmcStep]
    rfl
  · rw [Dev.latched_bmc, Dev.bmcStep, Dev.wr_bmc]

theorem runs_bmcRead (hw : s.dev.mustWait s.dev.bmc.addr = false) : Runs .bmcRead s
    (((s.dev.read32 .bmc s.dev.bmc.addr).1.emit (.bmcData (s.dev.read32 .bmc s.dev.bmc.addr).2)).bmcStep s.dev.bmcReadErr) :=
  Runs.of_run hl rfl (if_neg (Bool.eq_false_iff.1 hw))

theorem bmcRead_waits (hw : s.dev.mustWait s.dev.bmc.addr = true) : ∃ t, exec .bmcRead s = .next t ∧ t.dev.regs = s.dev.regs ∧
    t.dev.bmc.addr = (s.dev.bmc.addr + 4) % 2 ^ 32 ∧ t.dev.rst.waiting.length = s.dev.rst.waiting.length + 1 := by
  have hread : s.dev.busRead .bmc s.dev.bmc.addr false =
      s.dev.wait { mid := Master.bmc.mid, off := s.dev.bmc.addr, write := false, wide := false, val := 0 } := by
    simp [Dev.busRead, Dev.tap, hasWindow, Dev.hostBlocked_bmc, hw]
  have hrun := Runs.of_run (c := .bmcRead) hl rfl (if_pos hw)
  rw [hread] at hrun
  refine ⟨_, hrun, ?_, rfl, ?_⟩
  · rw [Dev.latched_regs _ _ hl.2]
    rfl
  · rw [Dev.latched_rst]
    exact List.length_append

end BmcWrite

/-- The bus address of the BMC port is PIN_BMC's alone. -/
theorem pinBmc_written {s : State} {c : Instr} (hl : Live s) (b : Bool) {a : Nat} (ha : a < 128)
    (hc : exec c s = s.run fun d => (d.wr F.PIN_BMC_I3C [] (b2n b)).wr F.PIN_BMC_DYN_ADDR [] a) :
    ∃ t, exec c s = .next t ∧ t.dev.on F.PIN_BMC_I3C [] = b ∧ t.dev.rd F.PIN_BMC_DYN_ADDR [] = a ∧
      (∀ r ix, r.key ix ≠ R.PIN_BMC.key [] → t.dev.raw r ix = s.dev.raw r ix) := by
  have hraw := fun r ix => Dev.raw_latched (d := s.dev) ((s.dev.wr F.PIN_BMC_I3C [] (b2n b)).wr F.PIN_BMC_DYN_ADDR [] a) r ix hl.2
  refine ⟨_, Runs.of_run hl hc rfl, ?_, ?_, fun r ix h => ?_⟩
  · rw [Dev.on_latched _ _ _ hl.2, Dev.on_wr_apart _ _ _ _ (by decide), Dev.on_wr_bit _ _ _ _ rfl (by decide)]
  · rw [Dev.rd_latched _ _ _ hl.2, Dev.rd_wr_fits _ F.PIN_BMC_DYN_ADDR _ _ (by decide) (by decide) ha]
  · rw [hraw, Dev.raw_wr_of_key _ F.PIN_BMC_DYN_ADDR r [] ix _ h, Dev.raw_wr_of_key _ F.PIN_BMC_I3C r [] ix _ h]

/-- Settles O60: the port's access is the bus's, and what the port adds is its address and ERR. -/
theorem bmcPort : Obligations.BmcPort := by
  unfold Obligations.BmcPort
  intro s hl
  exact ⟨fun off => ⟨Runs.of_run hl rfl rfl, Runs.of_run hl rfl rfl⟩,
    fun v => ⟨runs_bmcWrite_step hl v, runs_bmcWrite_reset hl v, bmcWrite_cold hl v, bmcWrite_keyRej hl v, Runs.of_run hl rfl rfl⟩,
    runs_bmcRead hl, bmcRead_waits hl, Runs.of_run hl rfl rfl, Runs.of_run hl rfl rfl,
    fun a => pinBmc_written hl true a.isLt rfl, pinBmc_written hl false (by decide) rfl,
    fun b => Runs.of_run hl rfl rfl,
    Runs.of_runAny (f := fun d => { d with bmc := { d.bmc with tapReset := true } }) rfl rfl⟩


/-! ## Submission entries (R336 to R341, R359) -/

theorem Dev.onFetch_failed (d : Dev) (n : Nat) {r : HostRead} (f : Dev → List Byte → Dev)
    (hr : r ∈ [HostRead.urOrCa, .timeout, .poisoned]) : d.onFetch n r f = d.fetchFault n r := by
  cases r with
  | data b => simp at hr
  | urOrCa => rfl
  | timeout => rfl
  | poisoned => rfl

theorem readFailed_of_mem {r : HostRead} (hr : r ∈ [HostRead.urOrCa, .timeout, .poisoned]) : readFailed r = true := by
  cases r with
  | data b => simp at hr
  | urOrCa => rfl
  | timeout => rfl
  | poisoned => rfl

theorem Dev.err_fetchFault (d : Dev) (n : Nat) (r : HostRead) : ((d.fetchFault n r).ring n).err = true := by
  rw [Dev.fetchFault, Dev.ring_setRing_self]

section Fetch

variable {s : State} (n : Fin 256) (hl : Live s)

include hl

theorem runs_sqFetch (h : s.dev.canFetch n.val = true) (r : HostRead) :
    Runs (.sqFetch n r) s (s.dev.onFetch n.val r fun d b => d.fetchedPhase n.val b 0) :=
  Runs.of_run hl rfl (if_pos h)

theorem runs_phRetry (ht : (s.dev.ring n.val).phTry ≠ 0) (h : s.dev.mayRead n.val = true) (r : HostRead) :
    Runs (.phRetry n r) s (s.dev.onFetch n.val r fun d b => d.fetchedPhase n.val b (s.dev.ring n.val).phTry) :=
  Runs.of_run hl rfl (if_pos (by rw [h, Bool.and_true, bne_iff_ne]; exact ht))

theorem runs_sqPoll (hm : s.dev.mayFetch n.val = true) (hf : (s.dev.ring n.val).fetched.length < s.dev.prefetch)
    (hs : (s.dev.ring n.val).stopSq = false) (ho : s.dev.on F.RING_CTL_OWNMODE [n.val] = false)
    (hp : s.dev.rd F.RING_POLL_INTERVAL [n.val] ≠ 0) (hc : s.dev.rd F.RING_SQ_PROD_INDEX [n.val] = s.dev.rd F.RING_SQ_CONS_INDEX [n.val])
    (r : HostRead) : Runs (.sqPoll n r) s (s.dev.onFetch n.val r fun d b =>
      let d := d.dmaRead none 64
      if entryBit b = d.sqPh n.val (s.dev.rd F.RING_SQ_CONS_INDEX [n.val]) then
        (d.wr F.RING_SQ_PROD_INDEX [n.val] ((s.dev.rd F.RING_SQ_CONS_INDEX [n.val] + 1) % (2 * d.sqSize n.val))).takeEntry n.val b
      else d) :=
  Runs.of_run hl rfl (if_pos (by simp [hm, hf, hs, ho, hp, hc]))

theorem runs_ownerPoll (hm : s.dev.mayFetch n.val = true) (hf : (s.dev.ring n.val).fetched.length < s.dev.prefetch)
    (ho : s.dev.on F.RING_CTL_OWNMODE [n.val] = true)
    (hp : ((s.dev.ring n.val).awake || s.dev.rd F.RING_POLL_INTERVAL [n.val] != 0) = true) (r : HostRead) :
    Runs (.ownerPoll n r) s (s.dev.onFetch n.val r fun d b =>
      let d := d.dmaRead none 64
      if entryBit b = 1 then
        let slot := d.rd F.RING_SQ_CONS_INDEX [n.val] % d.sqSize n.val
        let a := d.rd F.RING_SQ_BASE_ADDR [n.val] * 64 + 64 * slot + 60
        let d := (d.emit (.dmaDwords (d.owner n.val) a [leVal (sliceOf b 60 4) - 1])).dmaWrote none 4
        d.takeEntry n.val b
      else d.setRing n.val { d.ring n.val with awake := false }) :=
  Runs.of_run hl rfl (if_pos (by rw [hm, ho, hp, decide_eq_true hf]; rfl))

end Fetch

/-- Settles O49: a command that may read does what the read's outcome says, data or none. -/
theorem submissionFetch : Obligations.SubmissionFetch := by
  unfold Obligations.SubmissionFetch
  intro s n hl
  refine ⟨fun h => ⟨fun b => runs_sqFetch n hl h _, fun r hr => ?_⟩, fun hm hf => ⟨fun b hs ho hp hc => ⟨runs_sqPoll n hl hm hf hs ho hp hc _,
    fun r hr => ?_⟩, fun b ho hp => ⟨fun h1 => ?_, fun h0 => ?_, fun r hr => ?_⟩⟩, fun b ht hm => ⟨runs_phRetry n hl ht hm _, fun r hr => ?_⟩,
    fun r hr hm => ⟨Runs.of_run hl rfl (if_pos (by rw [readFailed_of_mem hr, hm]; rfl)), s.dev.err_fetchFault n.val r⟩⟩
  · rw [← s.dev.onFetch_failed n.val _ hr]
    exact runs_sqFetch n hl h r
  · rw [← s.dev.onFetch_failed n.val _ hr]
    exact runs_sqPoll n hl hm hf hs ho hp hc r
  · have hrun := runs_ownerPoll n hl hm hf ho hp (.data b)
    rw [Dev.onFetch] at hrun
    dsimp only at hrun
    rwa [if_pos h1] at hrun
  · have hrun := runs_ownerPoll n hl hm hf ho hp (.data b)
    rw [Dev.onFetch] at hrun
    dsimp only at hrun
    rwa [if_neg (by rw [h0]; decide)] at hrun
  · rw [← s.dev.onFetch_failed n.val _ hr]
    exact runs_ownerPoll n hl hm hf ho hp r
  · rw [← s.dev.onFetch_failed n.val _ hr]
    exact runs_phRetry n hl ht hm r


/-! ## A HIF reset (R360 to R362, R412) -/

/-- The forwarding tables, the stored frames and the Sump. -/
def Dev.forwarding (d : Dev) :
    (Sparse Nat × Sparse Nat × Sparse Nat × Sparse Nat × Sparse (Nat × Nat)) × List Pkt × List Copy × Sump :=
  ((d.tbl.em, d.tbl.lpm, d.tbl.tcam, d.tbl.mcg, d.tbl.ctr), d.dp.pkts, d.dp.copies, d.sump)

theorem Ended.forwarding {d e : Dev} (h : Ended d e) : e.forwarding = d.forwarding := by
  have := congrArg Dev.forwarding h.rest
  exact this

theorem Dev.forwarding_of_unreported {d e : Dev} (h : e.unreported = d.unreported) : e.forwarding = d.forwarding := by
  have := congrArg Dev.forwarding h
  exact this

theorem Dev.forwarding_raiseAll (d : Dev) (k : Nat) (fs : List FaultIn) : (d.raiseAll k fs).forwarding = d.forwarding :=
  Dev.proj_raiseAll Dev.forwarding (fun _ _ h => Dev.forwarding_of_unreported h) (fun _ _ => rfl)
    (fun d k => Dev.enterSafe_proj Dev.forwarding (fun _ _ h => Dev.forwarding_of_unreported h) (fun _ _ => rfl) (fun _ _ _ => rfl) d k) d k fs

theorem Dev.forwarding_pcieLost (d : Dev) : d.pcieLost.forwarding = d.forwarding := by
  have down : d.pcieDown.forwarding = d.forwarding := Dev.forwarding_of_unreported (d.unreported_setRaw _ _ _)
  have raised : ∀ e : Dev, (e.raise 54 0x42 0).forwarding = e.forwarding := fun e => e.forwarding_raiseAll _ _
  rw [Dev.pcieLost, apply_ite Dev.forwarding, raised, down, ite_self]

/-- The host interface once its jobs are gone: a function-level reset keeps configuration space. -/
def Dev.hifEmptied (d : Dev) (space : Bool) : Dev :=
  let h := d.hif
  { d with
    hif := { jobSeq := h.jobSeq, perstLow := h.perstLow, perstHold := h.perstHold, train := h.train, jobs := h.jobs
             busMaster := if space then h.busMaster else 0, msiVectors := if space then h.msiVectors else []
             pcie := if space then h.pcie else [], aer := if space then h.aer else [] }
    dp := { d.dp with rxNext := 0 } }

/-- The device of a HIF reset before HIF_STAT is written. -/
def Dev.hifCleared (d : Dev) (space : Bool) : Dev :=
  (((d.dropRingJobs (fun _ => true)).hifEmptied space).keepRegs (fun k => !hifKey k)).dropHolds (fun off => hifWin (off / 0x100000))

theorem Dev.hifReset_eq (d : Dev) (link space : Bool) : d.hifReset link space =
    ((d.hifCleared space).setRaw R.HIF_STAT [] (if link then pcieFields (d.raw R.HIF_STAT []) else 0)).wr F.HIF_STAT_RST_BUSY [] 1 := by
  unfold Dev.hifReset Dev.hifCleared Dev.hifEmptied
  rfl

section HifReset

variable (d : Dev) (link space : Bool)

theorem Dev.raw_hifCleared (r : Reg) (ix : List Nat) : (d.hifCleared space).raw r ix =
    if hifKey (r.key ix) then State.reset.dev.raw r ix else (d.dropRingJobs (fun _ => true)).raw r ix := by
  have cleared : (d.hifCleared space).raw r ix =
      (((d.dropRingJobs (fun _ => true)).hifEmptied space).keepRegs (fun k => !hifKey k)).raw r ix := Dev.raw_of_regs rfl r ix
  have emptied : ((d.dropRingJobs (fun _ => true)).hifEmptied space).raw r ix = (d.dropRingJobs (fun _ => true)).raw r ix :=
    Dev.raw_of_regs rfl r ix
  rw [cleared, Dev.raw_keepRegs_if, emptied]
  cases hifKey (r.key ix) <;> rfl

/-- Outside HIF_STAT a HIF reset leaves what it clears and what the end of the jobs leaves. -/
theorem Dev.raw_hifReset (r : Reg) (ix : List Nat) (h : r.key ix ≠ R.HIF_STAT.key []) :
    (d.hifReset link space).raw r ix = (d.hifCleared space).raw r ix := by
  rw [Dev.hifReset_eq, Dev.raw_wr_of_key _ F.HIF_STAT_RST_BUSY r [] ix _ h, Dev.raw_setRaw_of_key _ _ _ _ _ _ h]

theorem Dev.busy_hifReset : (d.hifReset link space).on F.HIF_STAT_RST_BUSY [] = true := by
  rw [Dev.hifReset_eq]
  exact Dev.on_wr_bit _ _ _ true rfl (by decide)

theorem pcieFields_lt (v : Nat) : pcieFields v < 2 ^ 64 := by
  simp only [pcieFields, bitsOf]
  omega

theorem Dev.linkUp_hifReset : (d.hifReset link space).on F.HIF_STAT_LINK_UP [] = (link && d.on F.HIF_STAT_LINK_UP []) := by
  have bit : ∀ v, bitsOf v 0 0 = v % 2 := fun v => by simp [bitsOf]
  rw [Dev.hifReset_eq, Dev.on, Dev.rd_wr_apart _ _ _ _ (by decide), Dev.rd, show F.HIF_STAT_LINK_UP.reg = R.HIF_STAT from rfl,
    Dev.raw_setRaw_self, show F.HIF_STAT_LINK_UP.hi = 0 from rfl, show F.HIF_STAT_LINK_UP.lo = 0 from rfl, bit]
  cases link with
  | false => rfl
  | true =>
    have hlow : pcieFields (d.raw R.HIF_STAT []) % 2 ^ 64 % 2 = d.raw R.HIF_STAT [] % 2 := by
      rw [Nat.mod_eq_of_lt (pcieFields_lt _)]
      simp only [pcieFields, bitsOf]
      omega
    rw [if_pos rfl, hlow, Bool.true_and, Dev.on, Dev.rd, show F.HIF_STAT_LINK_UP.reg = R.HIF_STAT from rfl,
      show F.HIF_STAT_LINK_UP.hi = 0 from rfl, show F.HIF_STAT_LINK_UP.lo = 0 from rfl, bit]

theorem Dev.hif_hifReset : (d.hifReset link space).hif = (d.hifCleared space).hif := by
  rw [Dev.hifReset_eq, Dev.wr_hif, Dev.setRaw_hif]

theorem Dev.hif_hifCleared : (d.hifCleared space).hif = ((d.dropRingJobs (fun _ => true)).hifEmptied space).hif := by
  rw [Dev.hifCleared, Dev.dropHolds, Dev.keepRegs]

theorem Dev.rings_hifReset : (d.hifReset link space).hif.rings = [] := by
  rw [Dev.hif_hifReset, Dev.hif_hifCleared, Dev.hifEmptied]

theorem Dev.jobs_hifReset : (d.hifReset link space).hif.jobs = [] := by
  rw [Dev.hif_hifReset, Dev.hif_hifCleared, Dev.hifEmptied, Dev.dropRingJobs]
  dsimp only
  rw [List.filter_eq_nil_iff]
  exact fun _ _ => by decide

theorem Dev.perstLow_hifReset : (d.hifReset link space).hif.perstLow = d.hif.perstLow := by
  have hpins : (d.dropRingJobs (fun _ => true)).hif.perstLow = d.hif.perstLow :=
    congrArg (fun x => x.1.1) (Ended.dropRingJobs d (fun _ => true)).pins
  rw [Dev.hif_hifReset, Dev.hif_hifCleared, Dev.hifEmptied]
  exact hpins

theorem Dev.energy_hifReset (i : Nat) : (d.hifReset link space).rd F.ANL_RING_ENERGY_COUNT [i] = 0 := by
  have hkey : hifKey (R.ANL_RING_ENERGY.key [i]) = true := by
    rw [hifKey, keyWin_key _ _ (by decide), keyId_key _ _ (by decide)]
    decide
  have hreset : State.reset.dev.raw R.ANL_RING_ENERGY [i] = 0 := by
    have hword : R.ANL_RING_ENERGY.resetWord [i] = R.ANL_RING_ENERGY.resetWord [0] :=
      Fld.resetWord_uniform (g := F.ANL_RING_ENERGY_COUNT) (by decide) [i] [0]
    rw [show State.reset.dev.raw R.ANL_RING_ENERGY [i] = (R.ANL_RING_ENERGY.resetWord [i]).toNat from rfl, hword]
    decide
  have hraw : (d.hifReset link space).raw R.ANL_RING_ENERGY [i] = 0 := by
    rw [Dev.raw_hifReset _ _ _ _ _ (Reg.key_ne _ _ (by decide) (by decide) (by decide)), Dev.raw_hifCleared, if_pos hkey, hreset]
  rw [Dev.rd, show F.ANL_RING_ENERGY_COUNT.reg = R.ANL_RING_ENERGY from rfl, hraw]
  rfl

theorem Dev.forwarding_hifReset : (d.hifReset link space).forwarding = d.forwarding := by
  have wr : ∀ (e : Dev) (f : Fld) (v : Nat), (e.wr f [] v).forwarding = e.forwarding := fun e f v =>
    Dev.forwarding_of_unreported (e.unreported_wr f [] v)
  have set : ∀ (e : Dev) (r : Reg) (v : Nat), (e.setRaw r [] v).forwarding = e.forwarding := fun _ _ _ => rfl
  have cleared : (d.hifCleared space).forwarding = (d.dropRingJobs (fun _ => true)).forwarding := by
    rw [Dev.hifCleared]
    generalize d.dropRingJobs (fun _ => true) = e
    rfl
  rw [Dev.hifReset_eq, wr, set, cleared, (Ended.dropRingJobs d _).forwarding]

/-- A HIF reset writes the host interface's registers and what the end of jobs writes. -/
theorem Dev.raw_hifReset_endless {r : Reg} {ix : List Nat} (h : Endless (r.key ix)) : (d.hifReset link space).raw r ix = d.raw r ix := by
  obtain ⟨hwin, henergy, hexp⟩ := h
  have hkey : hifKey (r.key ix) = false := by
    simp only [List.mem_cons, List.not_mem_nil, or_false, not_or] at hwin
    obtain ⟨h1, h2, h3⟩ := hwin
    rcases henergy with h | h <;> simp [hifKey, h1, h2, h3, h]
  have hstat : r.key ix ≠ R.HIF_STAT.key [] := fun he => by
    rw [he, keyWin_key _ _ (by decide)] at hwin
    exact absurd hwin (by decide)
  rw [Dev.raw_hifReset _ _ _ _ _ hstat, Dev.raw_hifCleared, if_neg (by rw [hkey]; decide),
    (Ended.dropRingJobs d _).raw r ix ⟨hwin, henergy, hexp⟩]

end HifReset


/-! ### What requests a HIF reset -/

/-- The causes that take the link down. -/
def linkCauses : List HifResetCause := [.hotReset, .linkDisable, .refclk, .perst]

/-- PERST_N's level is taken, by its own cause. -/
def Dev.hifPin (d : Dev) (c : HifResetCause) : Dev := if c = .perst then d.perstFalls else d

theorem runs_hifReset {s : State} (hl : Live s) (c : HifResetCause) : Runs (.hifReset c) s ((s.dev.hifPin c).hifRequest c) := by
  have pin : ∀ {α : Sort _} (π : Dev → α), π s.dev.perstFalls = π s.dev → π (s.dev.hifPin c) = π s.dev := fun π h => by
    rw [Dev.hifPin]
    split
    · exact h
    · rfl
  exact Runs.of_pin (fun d => d.hifRequest c) (fun d => d.hifPin c) hl rfl (pin (fun d => d.rst.level) rfl) (pin (fun d => d.spl.dead) rfl)
    (pin (fun d => d.safe) rfl) (pin (fun d => d.resets) rfl) (pin (fun d => d.otp) rfl)

/-- A request by one of the causes that R360 and R412 name, or by a master that may write HIF_CTL. -/
def Requests (c : HifResetCause) : Prop :=
  c ∈ [HifResetCause.flrPf0, .hotReset, .linkDisable, .refclk, .perst, .ctl .bmc, .ctl .jtag] ∨ ∃ k, c = .ctl (.svc k)

/-- The reset that a request makes: of the device as it was, but for PERST_N's level and the fault of a link that falls. -/
theorem Dev.hifRequest_eq {c : HifResetCause} (hc : Requests c) (d : Dev) : ∃ (a : Dev) (space : Bool),
    (d.hifPin c).hifRequest c = a.hifReset (decide (c ∉ linkCauses)) space ∧ a.forwarding = d.forwarding ∧
    (c ≠ .refclk ∨ d.on F.HIF_STAT_LINK_UP [] = false → a.regs = d.regs) ∧ (c = .perst → a.hif.perstLow = true) := by
  have lost : d.on F.HIF_STAT_LINK_UP [] = false → d.pcieLost = d := fun h => by
    rw [Dev.pcieLost, if_neg (Bool.eq_false_iff.1 h)]
  rcases hc with hc | ⟨k, rfl⟩
  · simp only [List.mem_cons, List.not_mem_nil, or_false] at hc
    rcases hc with rfl | rfl | rfl | rfl | rfl | rfl | rfl
    · exact ⟨d, false, rfl, rfl, fun _ => rfl, nofun⟩
    · exact ⟨d, false, rfl, rfl, fun _ => rfl, nofun⟩
    · exact ⟨d, false, rfl, rfl, fun _ => rfl, nofun⟩
    · exact ⟨d.pcieLost, false, rfl, d.forwarding_pcieLost, fun h => by rw [lost (h.resolve_left (· rfl))], nofun⟩
    · exact ⟨d.perstFalls, false, rfl, rfl, fun _ => rfl, fun _ => rfl⟩
    · exact ⟨d, true, rfl, rfl, fun _ => rfl, nofun⟩
    · exact ⟨d, true, rfl, rfl, fun _ => rfl, nofun⟩
  · exact ⟨d, true, by simp [linkCauses, Dev.hifPin, Dev.hifRequest], rfl, fun _ => rfl, nofun⟩

/-! ## The ends of rings (R356 to R361) -/

theorem Dev.pins_holdLate (l : List RingEntry) (n : Nat) (d : Dev) : (l.foldl (fun d e => d.holdEntry n e) d).pins = d.pins :=
  foldl_proj Dev.pins _ (fun e x => e.pins_holdEntry n x) l d

theorem Dev.pins_ringReset (d : Dev) (n : Nat) : (d.ringReset n).pins = d.pins := by
  have addTo : ∀ (e : Dev) (k : Nat), (e.addTo F.HIF_DMA_ERR_COUNT [] k).pins = e.pins := fun e k => by
    obtain ⟨v, h⟩ := e.addTo_eq F.HIF_DMA_ERR_COUNT [] k
    rw [h, Dev.pins_wr]
  have rings : ∀ (x : Hif) (l : Sparse Ring), { x with rings := l }.pins = x.pins := fun _ _ => by unfold Hif.pins; rfl
  have finished : ∀ (x : Hif) (l : List (Nat × RingEntry)) (rs : Sparse Ring), { x with finished := l, rings := rs }.pins = x.pins :=
    fun _ _ _ => by unfold Hif.pins; rfl
  have keep : ∀ (e : Dev) (p q : Nat → Bool), ((e.keepRegs p).dropHolds q).pins = e.pins := fun e p q => by
    unfold Dev.pins
    rw [Dev.dropHolds, Dev.keepRegs]
  unfold Dev.ringReset
  simp only [Dev.pins_holdLate, keep, Dev.pins_setRing, Dev.pins_hif, rings, finished, Dev.hif_pins, addTo, (Ended.dropRingJobs d _).pins]

theorem Dev.pins_vfReset_regs (l : List Nat) (d : Dev) : (l.foldl (fun d n => d.ringReset n) d).pins = d.pins :=
  foldl_proj Dev.pins _ (fun e n => e.pins_ringReset n) l d

/-- What a reset of VFv leaves of its configuration space. -/
theorem Dev.cfg_vfReset (d : Dev) (v : Nat) : (d.vfReset v).fnCfg v = {} ∧ bitAt (d.vfReset v).hif.busMaster v = false := by
  have hpins := Dev.pins_vfReset_regs (indicesWhere 256 (fun n => d.vfOwns v n)) { d with hif := { d.hif with
    busMaster := putBit d.hif.busMaster v false, msiVectors := Sparse.set 0 d.hif.msiVectors v 0
    pcie := Sparse.set {} d.hif.pcie v {}, aer := d.hif.aer.filter (fun e => e.1 != v) } }
  have hbus : (d.vfReset v).hif.busMaster = putBit d.hif.busMaster v false := congrArg (fun x => x.2.1) hpins
  have hpcie : (d.vfReset v).hif.pcie = Sparse.set {} d.hif.pcie v {} := congrArg (fun x => x.2.2.2) hpins
  constructor
  · rw [Dev.fnCfg, hpcie, Sparse.get_set_self]
  · rw [hbus, bitAt_putBit, if_pos rfl]

theorem Dev.fnOn_vfsOff (d : Dev) (v : Nat) : d.vfsOff.fnOn (v + 1) = false := by
  unfold Dev.vfsOff Dev.fnOn
  generalize List.foldl _ d _ = e
  have hcfg : ∀ c : PcieCfg, (e.setFnCfg 0 c).fnCfg 0 = c := fun c => Sparse.get_set_self _ _ _ _
  rw [hcfg]
  simp

theorem Dev.sqStop_enabled {d : Dev} {n : Nat} (h : d.on F.RING_CTL_SQ_EN [n] = true) : d.sqStop n =
    let d := d.wr F.RING_CTL_SQ_EN [n] 0
    let r := d.ring n
    (d.setRing n { r with stopSq := true, awake := r.awake || d.on F.RING_CTL_OWNMODE [n] }).abortRing n := if_pos h

theorem Dev.cqStop_enabled {d : Dev} {n : Nat} (h : d.on F.RING_CTL_CQ_EN [n] = true) :
    d.cqStop n = (d.wr F.RING_CTL_CQ_EN [n] 0).setRing n { d.ring n with stopCq := true } := if_pos h

theorem Dev.on_setRing (d : Dev) (n : Nat) (r : Ring) (f : Fld) (ix : List Nat) : (d.setRing n r).on f ix = d.on f ix := rfl

theorem Dev.ring_latched (d e : Dev) (n : Nat) : (Dev.latched d e).ring n = e.ring n := by
  rw [Dev.ring, Dev.latched_hif, Dev.ring]

section Shutdown

variable {s : State} {m : Master} (n : Fin 256) (hl : Live s)

include hl

theorem runs_ringWrite {c : Instr} (f : Dev → Dev) (hc : exec c s = s.run fun d => if isPfSvc m && !d.hostBlocked m then f d else d)
    (hm : isPfSvc m = true) (hb : s.dev.hostBlocked m = false) : Runs c s (f s.dev) :=
  Runs.of_run hl hc (if_pos (by rw [hm, hb]; rfl))

theorem cqDisable_stops (hm : isPfSvc m = true) (hb : s.dev.hostBlocked m = false) (h : s.dev.on F.RING_CTL_CQ_EN [n.val] = true) :
    ∃ t, exec (.cqDisable m n) s = .next t ∧ t.dev.on F.RING_CTL_CQ_EN [n.val] = false ∧ (t.dev.ring n.val).stopCq = true := by
  have hrun := runs_ringWrite (c := .cqDisable m n) hl (fun d => d.cqStop n.val) rfl hm hb
  rw [Dev.cqStop_enabled h] at hrun
  refine ⟨_, hrun, ?_, ?_⟩
  · rw [Dev.on_latched _ _ _ hl.2, Dev.on_setRing]
    exact Dev.on_wr_bit _ _ _ false rfl (by decide)
  · rw [Dev.ring_latched, Dev.ring_setRing_self]

/-- A command that sets ring `n` alone. -/
theorem ring_written {c : Instr} {x : Ring} (h : Runs c s (s.dev.setRing n.val x)) :
    ∃ t, exec c s = .next t ∧ t.dev.regs = s.dev.regs ∧ t.dev.ring n.val = x := by
  refine ⟨_, h, ?_, by rw [Dev.ring_latched, Dev.ring_setRing_self]⟩
  rw [Dev.latched_regs _ _ hl.2, Dev.setRing]

theorem cqDisableEffect_ends (hs : (s.dev.ring n.val).stopCq = true) (hh : (s.dev.ring n.val).hold = [])
    (hlate : (s.dev.ring n.val).late = []) (hk : ∀ k < 256, s.dev.rd F.RING_CTL_CQ [k] ≠ n.val ∨ s.dev.sqState k = 0) :
    Runs (.cqDisableEffect n) s (s.dev.setRing n.val { s.dev.ring n.val with stopCq := false }) := by
  have hall : (List.range 256).all (fun k => s.dev.rd F.RING_CTL_CQ [k] != n.val || s.dev.sqState k == 0) = true := by
    rw [List.all_eq_true]
    intro k hmem
    rcases hk k (List.mem_range.1 hmem) with h | h <;> simp [h]
  exact Runs.of_run hl rfl (if_pos (by rw [hs, hh, hlate, hall]; rfl))

end Shutdown

/-- What a request for a HIF reset leaves. -/
theorem hifReset_leaves {s : State} (hl : Live s) {c : HifResetCause} (hc : Requests c) :
    ∃ t, exec (.hifReset c) s = .next t ∧ t.dev.on F.HIF_STAT_RST_BUSY [] = true ∧ t.dev.hif.rings = [] ∧ t.dev.hif.jobs = [] ∧
      (c ∈ linkCauses → t.dev.on F.HIF_STAT_LINK_UP [] = false) ∧
      (c ∉ linkCauses → t.dev.on F.HIF_STAT_LINK_UP [] = s.dev.on F.HIF_STAT_LINK_UP []) ∧
      (c = .perst → t.dev.hif.perstLow = true) ∧ (∀ i, t.dev.rd F.ANL_RING_ENERGY_COUNT [i] = 0) ∧
      t.dev.forwarding = s.dev.forwarding ∧
      (c ≠ .refclk ∨ s.dev.on F.HIF_STAT_LINK_UP [] = false → ∀ r ix, Endless (r.key ix) → t.dev.raw r ix = s.dev.raw r ix) := by
  obtain ⟨a, space, ha, hforward, hregs, hlow⟩ := Dev.hifRequest_eq hc s.dev
  have hrun := runs_hifReset hl c
  rw [ha] at hrun
  refine ⟨_, hrun, ?_, ?_, ?_, fun h => ?_, fun h => ?_, fun h => ?_, fun i => ?_, ?_, fun h r ix hk => ?_⟩
  · rw [Dev.on_latched _ _ _ hl.2, Dev.busy_hifReset]
  · rw [Dev.latched_hif, Dev.rings_hifReset]
  · rw [Dev.latched_hif, Dev.jobs_hifReset]
  · rw [Dev.on_latched _ _ _ hl.2, Dev.linkUp_hifReset, decide_eq_false (not_not.2 h), Bool.false_and]
  · have hne : c ≠ .refclk := fun he => h (by rw [he, linkCauses]; simp)
    rw [Dev.on_latched _ _ _ hl.2, Dev.linkUp_hifReset, decide_eq_true h, Bool.true_and,
      Dev.on_of_raw (Dev.raw_of_regs (hregs (.inl hne)) _ _)]
  · rw [Dev.latched_hif, Dev.perstLow_hifReset, hlow h]
  · rw [Dev.rd_latched _ _ _ hl.2, Dev.energy_hifReset]
  · have latched : ∀ x y : Dev, (Dev.latched x y).forwarding = y.forwarding := fun _ _ => rfl
    rw [latched, Dev.forwarding_hifReset, hforward]
  · rw [Dev.raw_latched _ _ _ hl.2, Dev.raw_hifReset_endless _ _ _ hk, Dev.raw_of_regs (hregs h)]

theorem hifRequest_other {m : Master} (hm : m ∉ [Master.bmc, .jtag]) (hs : ∀ k, m ≠ .svc k) (d : Dev) :
    (d.hifPin (.ctl m)).hifRequest (.ctl m) = d := by
  cases m with
  | pf0 => rfl
  | vf v => rfl
  | svc k => exact absurd rfl (hs k)
  | jtag => simp at hm
  | bmc => simp at hm

/-- Settles O51: a shutdown and a disabling set the ring's own state, a HIF reset is the end of every job with the interface's
registers cleared. -/
theorem ringsEnd : Obligations.RingsEnd := by
  unfold Obligations.RingsEnd
  intro s hl
  refine ⟨fun m n hm hb => ⟨fun h => ?shutdown, cqDisable_stops n hl hm hb, runs_ringWrite hl (fun d => d.ringReset n.val) rfl hm hb⟩,
    fun n hq => ?shutdownEnd, fun n hs hh hlate hk => ?disableEffect, fun v => Runs.of_run hl rfl rfl, Runs.of_run hl rfl rfl,
    fun v => ⟨s.dev.fnOn_vfsOff v.val, s.dev.cfg_vfReset (v.val + 1)⟩, fun c hc => ?hifReset, fun c m hm hs hc => ?other,
    fun h => Runs.of_run hl rfl (if_neg (Bool.eq_false_iff.1 h))⟩
  case shutdown =>
    have hrun := runs_ringWrite (c := .sqShutdown m n) hl (fun d => d.sqStop n.val) rfl hm hb
    rwa [Dev.sqStop_enabled h] at hrun
  case shutdownEnd =>
    obtain ⟨t, ht, hregs, hring⟩ := ring_written n hl (Runs.of_run (c := .sqShutdownEnd n) hl rfl (if_pos hq))
    exact ⟨t, ht, hregs, by rw [hring], by rw [hring]⟩
  case disableEffect =>
    obtain ⟨t, ht, hregs, hring⟩ := ring_written n hl (cqDisableEffect_ends n hl hs hh hlate hk)
    exact ⟨t, ht, hregs, by rw [hring]⟩
  case hifReset =>
    obtain ⟨t, ht, hbusy, hrings, hjobs, hdown, hup, hlow, henergy, hforward, hraw⟩ := hifReset_leaves hl hc
    simp only [Dev.forwarding, Prod.mk.injEq] at hforward
    obtain ⟨⟨hem, hlpm, htcam, hmcg, hctr⟩, hpkts, hcopies, hsump⟩ := hforward
    exact ⟨t, ht, hbusy, hrings, hjobs, hdown, hup, hlow, henergy, hem, hlpm, htcam, hmcg, hctr, hpkts, hcopies, hsump,
      fun h r ix hwin hen hexp => hraw h r ix ⟨hwin, hen, hexp⟩⟩
  case other =>
    have hrun := runs_hifReset hl c
    rw [hc, hifRequest_other hm hs] at hrun
    rwa [hc]


/-! ## Bus mastering, poisoned writes, the PCIe link (R324, R328, R359, R424) -/

/-- A function's configuration space, Bus Master Enable and vectors are as the host writes them; other functions' enables stand. -/
theorem busMaster_written (a : Dev) (fn : Nat) (en : Bool) (v : Nat) (cfg : PcieCfg) :
    let b := a.setFnCfg fn cfg
    let b : Dev := { b with hif := { b.hif with busMaster := putBit b.hif.busMaster fn en
                                                msiVectors := Sparse.set 0 b.hif.msiVectors fn v } }
    b.fnCfg fn = cfg ∧ bitAt b.hif.busMaster fn = en ∧ Sparse.get 0 b.hif.msiVectors fn = v ∧
    ∀ k, k ≠ fn → bitAt b.hif.busMaster k = bitAt a.hif.busMaster k := by
  refine ⟨Sparse.get_set_self _ _ _ _, ?_, Sparse.get_set_self _ _ _ _, fun k hk => ?_⟩
  · exact (bitAt_putBit _ _ _ _).trans (if_pos rfl)
  · exact (bitAt_putBit _ _ _ _).trans (if_neg hk)

section DmaErr

variable (d : Dev) (fn : Nat) (err : AerError)

/-- A failed DMA is recorded before it is reported. -/
def Dev.dmaErrKept : Dev :=
  { d.inc F.HIF_DMA_ERR_COUNT [] with
    hif := { (d.inc F.HIF_DMA_ERR_COUNT []).hif with aer := (d.inc F.HIF_DMA_ERR_COUNT []).hif.aer ++ [(fn, err)] } }

theorem Dev.dmaErr_eq : d.dmaErr fn err =
    if ((d.dmaErrKept fn err).fnCfg fn).aer then (d.dmaErrKept fn err).emit (.aer fn err) else d.dmaErrKept fn err := by
  unfold Dev.dmaErr Dev.dmaErrKept
  rfl

theorem Dev.raw_dmaErr (r : Reg) (ix : List Nat) : (d.dmaErr fn err).raw r ix = (d.inc F.HIF_DMA_ERR_COUNT []).raw r ix := by
  rw [Dev.dmaErr_eq, apply_ite (fun e : Dev => e.raw r ix), Dev.raw_emit, ite_self, Dev.dmaErrKept, Dev.raw_hif]

theorem Dev.aer_dmaErr : (d.dmaErr fn err).hif.aer = d.hif.aer ++ [(fn, err)] := by
  rw [Dev.dmaErr_eq, apply_ite Dev.hif, Dev.emit_hif, ite_self, Dev.dmaErrKept, Dev.inc_hif]

end DmaErr

theorem poisoned_counted {s : State} (hl : Live s) {fn : Fin 32} (h : s.dev.fnOn fn.val = true) :
    ∃ t, exec (.poisonedTlp fn) s = .next t ∧ t.dev.hif.aer = s.dev.hif.aer ++ [(fn.val, .poisoned)] ∧
      t.dev.rd F.HIF_DMA_ERR_COUNT [] = min (2 ^ 32 - 1) (s.dev.rd F.HIF_DMA_ERR_COUNT [] + 1) ∧
      (∀ r ix, r.key ix ≠ R.HIF_DMA_ERR.key [] → t.dev.raw r ix = s.dev.raw r ix) := by
  refine ⟨_, Runs.of_run (c := .poisonedTlp fn) hl rfl (if_pos h), ?_, ?_, fun r ix hk => ?_⟩
  · rw [Dev.latched_hif, Dev.aer_dmaErr]
  · rw [Dev.rd_latched _ _ _ hl.2, Dev.rd_of_raw (Dev.raw_dmaErr _ _ _ _ _),
      Dev.rd_inc_saturates _ F.HIF_DMA_ERR_COUNT _ (by decide) (by decide) (by decide),
      show F.HIF_DMA_ERR_COUNT.hi + 1 - F.HIF_DMA_ERR_COUNT.lo = 32 from rfl]
  · obtain ⟨v, hv⟩ := s.dev.addTo_eq F.HIF_DMA_ERR_COUNT [] 1
    rw [Dev.raw_latched _ _ _ hl.2, Dev.raw_dmaErr, Dev.inc, hv, Dev.raw_wr_of_key _ F.HIF_DMA_ERR_COUNT r [] ix v hk]

theorem Dev.pcieTrain_up {d : Dev} {w sp : Nat} (f : Bool) (hlow : d.hif.perstLow = false) (hdom : d.domOn 180 = true)
    (hup : d.on F.HIF_STAT_LINK_UP [] = false) : d.pcieTrain (linkWord w sp f) =
    (d.setRaw R.HIF_STAT [] (d.raw R.HIF_STAT [] - pcieFields (d.raw R.HIF_STAT []) + linkWord w sp f)).drainAll := by
  have hw : (linkWord w sp f != 0) = true := by
    rw [bne_iff_ne, linkWord]
    omega
  rw [Dev.pcieTrain, if_pos (by rw [hlow, hdom, hup, hw]; rfl)]

/-- Settles O52: configuration space is written field by field, a poisoned write is counted and recorded, the link falls and trains. -/
theorem hostLink : Obligations.HostLink := by
  unfold Obligations.HostLink
  intro s hl
  refine ⟨fun fn en v cfg => ⟨Runs.of_run hl rfl rfl, busMaster_written _ fn.val en v.val cfg⟩, fun fn h => poisoned_counted hl h,
    fun h => Runs.of_run hl rfl (if_pos h), fun w sp f hok hlow hdom hup => ?_⟩
  rw [← Dev.pcieTrain_up f hlow hdom hup]
  exact Runs.of_run hl rfl (if_pos hok)


/-! ## Jobs, completions and interrupts (R327, R342 to R352, R380) -/

/-- The frame of an INJECT with data: LEN bytes as read, or with the FCS made afresh. -/
def injectFrame (j : Job) (b : List Byte) : List Byte :=
  let b := sliceOf (b ++ List.replicate j.sub.len 0) 0 j.sub.len
  if bitAt (j.p 0) 16 then b.take (b.length - 4) ++ fcsBytes (b.take (b.length - 4)) else b

theorem sliceOf_padded {b : List Byte} {n : Nat} (z : List Byte) (h : n ≤ b.length) : sliceOf (b ++ z) 0 n = b.take n := by
  rw [sliceOf, List.drop_zero, List.take_append_of_le_length h]

theorem injectFrame_says {j : Job} {b : List Byte} (h64 : 64 ≤ j.sub.len) (hb : j.sub.len ≤ b.length) :
    (injectFrame j b).length = j.sub.len ∧ (bitAt (j.p 0) 16 = false → injectFrame j b = b.take j.sub.len) ∧
    (bitAt (j.p 0) 16 = true → (injectFrame j b).take (j.sub.len - 4) = b.take (j.sub.len - 4) ∧ fcsGood (injectFrame j b) = true) := by
  have hlen : (b.take j.sub.len).length = j.sub.len := List.length_take_of_le hb
  have hbody : (b.take j.sub.len).take (j.sub.len - 4) = b.take (j.sub.len - 4) := by
    rw [List.take_take, min_eq_left (Nat.sub_le _ _)]
  have hshort : (b.take (j.sub.len - 4)).length = j.sub.len - 4 := List.length_take_of_le (by omega)
  rw [injectFrame, sliceOf_padded _ hb, hlen, hbody]
  cases bitAt (j.p 0) 16 with
  | false => exact ⟨hlen, fun _ => rfl, nofun⟩
  | true =>
    refine ⟨?_, nofun, fun _ => ⟨?_, fcsGood_append _⟩⟩
    · rw [if_pos rfl, List.length_append, length_fcsBytes, hshort]
      omega
    · rw [if_pos rfl, List.take_append_of_le_length (le_of_eq hshort.symm), List.take_of_length_le (le_of_eq hshort)]

theorem Dev.dp_dmaRead (d : Dev) (j : Option Nat) (n : Nat) : (d.dmaRead j n).dp = d.dp := by
  have := congrArg Dev.dp (d.unreported_dmaRead j n)
  exact this

/-- The turn of the frames for the host is after pipeline `k`'s. -/
def Dev.rxTurn (d : Dev) (k : Nat) : Dev := { d with dp := { d.dp with rxNext := (k + 1) % 32 } }

/-- The frame goes where its maps send it. -/
def Dev.rxSent (d : Dev) (c : Copy) (p : Pkt) : Dev :=
  match d.rxTo p with
  | .ring k => d.rxRing c p k
  | .core t => (d.emit (.coreFrame t p.bytes)).rxGone c 0x52 [0]
  | .unmapped => (d.inc F.HIF_RX_UNMAPPED_COUNT []).rxDrop c

section Jobs

variable {s : State} {j : Job} (n : Fin 256) (hl : Live s)

include hl

/-- An INJECT whose frame is read waits in an injection entry of its pipeline. -/
theorem inject_waits {b : List Byte} (hj : s.dev.newJob n.val 0x01 = some j) (hdma : s.dev.jobDma j.id = true) (h64 : 64 ≤ j.sub.len)
    (hmax : j.sub.len ≤ 16384) (hdom : s.dev.domOn (128 + j.p 0 % 1024 / 32) = true)
    (hroom : s.dev.injectRoom (j.p 0 % 1024 / 32) = true) :
    ∃ t, exec (.inject (.host n (.data b))) s = .next t ∧
      t.dev.dp.inject = s.dev.dp.inject ++
        [{ mid := s.dev.owner n.val, job := some j.id, port := j.p 0 % 1024, bytes := injectFrame j b }] := by
  have hlen : ¬ (j.sub.len < 64 || 16384 < j.sub.len) = true := by
    simp only [Bool.or_eq_true, decide_eq_true_eq]
    omega
  have hput : s.dev.injectJob n.val (.data b) = ((s.dev.startJob j.id).dmaRead (some j.id) j.sub.len).putInject
      ((s.dev.startJob j.id).owner n.val) (some j.id) (j.p 0 % 1024) (bitAt (j.p 0) 16)
      (sliceOf (b ++ List.replicate j.sub.len 0) 0 j.sub.len) := by
    unfold Dev.injectJob
    rw [hj]
    dsimp only
    rw [if_neg (by rw [hroom]; decide), if_neg hlen, if_neg (by rw [hdom]; decide), if_neg (by rw [hdma]; decide)]
  refine ⟨_, Runs.of_run (c := .inject (.host n (.data b))) hl rfl hput, ?_⟩
  rw [Dev.latched_dp, Dev.putInject, Dev.dp_dmaRead]
  rfl

theorem inject_refused (hj : s.dev.newJob n.val 0x01 = some j) (r : HostRead) (hroom : s.dev.injectRoom (j.p 0 % 1024 / 32) = true) :
    ((j.sub.len < 64 ∨ 16384 < j.sub.len) → Runs (.inject (.host n r)) s ((s.dev.startJob j.id).finishJob j.id 5 0 0 0)) ∧
    (64 ≤ j.sub.len → j.sub.len ≤ 16384 → s.dev.domOn (128 + j.p 0 % 1024 / 32) = false →
      Runs (.inject (.host n r)) s ((s.dev.startJob j.id).finishJob j.id 6 0 0 0)) := by
  have hjob : ∀ e, s.dev.injectJob n.val r = e → Runs (.inject (.host n r)) s e := fun e he => Runs.of_run hl rfl he
  refine ⟨fun h => hjob _ ?_, fun h64 hmax hdom => hjob _ ?_⟩ <;> rw [Dev.injectJob, hj] <;> dsimp only <;>
    rw [if_neg (by rw [hroom]; decide)]
  · rw [if_pos (by simpa only [Bool.or_eq_true, decide_eq_true_eq] using h)]
  · rw [if_neg (by simp only [Bool.or_eq_true, decide_eq_true_eq]; omega), if_pos (by rw [hdom]; rfl)]

theorem rxPost_posts (hj : s.dev.newJob n.val 0x02 = some j) :
    (160 ≤ j.sub.len → j.sub.len ≤ 16777216 → ∃ t, exec (.rxPost n) s = .next t ∧
      t.dev.hif.rxBufs = s.dev.hif.rxBufs ++ [{ job := j.id, ring := n.val, frags := j.frags, len := j.sub.len }]) ∧
    ((j.sub.len < 160 ∨ 16777216 < j.sub.len) → Runs (.rxPost n) s ((s.dev.startJob j.id).finishJob j.id 5 0 0 0)) := by
  have hrun : ∀ e, (match s.dev.newJob n.val 0x02 with
      | none => s.dev
      | some j =>
        let d := s.dev.startJob j.id
        if j.sub.len < 160 || 16777216 < j.sub.len then d.finishJob j.id 5 0 0 0
        else
          let b : StreamBuf := { job := j.id, ring := n.val, frags := j.frags, len := j.sub.len }
          { d with hif := { d.hif with rxBufs := d.hif.rxBufs ++ [b] } }) = e → Runs (.rxPost n) s e := fun e he => Runs.of_run hl rfl he
  rw [hj] at hrun
  refine ⟨fun h1 h2 => ⟨_, hrun _ (if_neg ?_), rfl⟩, fun h => hrun _ (if_pos ?_)⟩
  · simp only [Bool.or_eq_true, decide_eq_true_eq]
    omega
  · simpa only [Bool.or_eq_true, decide_eq_true_eq] using h

theorem runs_fence (hj : s.dev.newJob n.val 0x3F = some j) : Runs (.fence n) s (s.dev.finishJob j.id 0 0 0 0) := by
  refine Runs.of_run hl rfl ?_
  rw [hj]

theorem runs_completionWrite {m : Nat} {e : RingEntry} {t : List (Nat × RingEntry)} (hf : s.dev.hif.finished = (m, e) :: t) (free : Bool) :
    Runs (.completionWrite free) s (if s.dev.on F.RING_CTL_OWNMODE [m] && s.dev.cqMay m free && (s.dev.ring m).hold.isEmpty &&
        (s.dev.ring m).late.isEmpty then ({ s.dev with hif := { s.dev.hif with finished := t } } : Dev).writeEntry m e
      else ({ s.dev with hif := { s.dev.hif with finished := t } } : Dev).pushCompletion m e) := by
  refine Runs.of_run hl rfl ?_
  rw [hf]
  rfl

theorem runs_cqOwnerPoll (ho : s.dev.on F.RING_CTL_OWNMODE [n.val] = true) (hm : s.dev.cqMay n.val true = true)
    {e : RingEntry} {t : List RingEntry} (hh : (s.dev.ring n.val).hold = e :: t) :
    Runs (.cqOwnerPoll n true) s
      (let d := s.dev.writeEntry n.val e
       let d := d.setRing n.val { d.ring n.val with hold := t }
       (d.admitLate n.val (d.ring n.val).late.length).drainBacklog) := by
  refine Runs.of_run hl rfl ((if_pos (by rw [ho, hm]; rfl)).trans ?_)
  rw [hh]

/-- The next frame for the host goes where its maps send it. -/
theorem runs_hostRxDeliver {k : Nat} {c : Copy} {p : Pkt} (hs : s.dev.safe = false) (hh : s.dev.rxHead = some (k, c, p)) :
    Runs .hostRxDeliver s ((s.dev.rxTurn k).rxSent c p) := by
  refine Runs.of_run hl rfl ((if_neg (Bool.eq_false_iff.1 hs)).trans ?_)
  rw [hh]
  rfl

end Jobs

/-- Settles O50: each command acts on the job, the ring or the frame that its condition names. -/
theorem jobsAndCompletions : Obligations.JobsAndCompletions := by
  unfold Obligations.JobsAndCompletions
  intro s hl
  refine ⟨fun n fr h => ?dispatch, fun n j b hj hdma h64 hmax hdom hb hroom => ?inject, fun n j r hj => inject_refused n hl hj r,
    fun k port b hk h64 hmax hroom hdom => ?core, fun n j hj => rxPost_posts n hl hj, fun n j hj => runs_fence n hl hj,
    fun m e t hf ho hm hh hlate => ?written, fun m e t hf ho free => ?pushed, fun m e t ho hm hh => runs_cqOwnerPoll m hl ho hm hh,
    fun m h => Runs.of_run hl rfl (if_pos h), fun m hen ht hc => ?timer, fun n c p hs hh => ?rx⟩
  case dispatch =>
    refine Runs.of_run hl rfl ?_
    rw [h]
  case inject =>
    obtain ⟨t, ht, hput⟩ := inject_waits (b := b) n hl hj hdma h64 hmax hdom hroom
    exact ⟨t, injectFrame j b, ht, (injectFrame_says h64 hb).1, hput, (injectFrame_says h64 hb).2⟩
  case core =>
    have hok : (s.dev.coreRuns k.val && decide (64 ≤ b.length) && decide (b.length ≤ 16384) && s.dev.injectRoom (port.val / 32) &&
        s.dev.domOn (128 + port.val / 32)) = true := by rw [hk, decide_eq_true h64, decide_eq_true hmax, hroom, hdom]; rfl
    exact ⟨_, Runs.of_run (c := .inject (.core k port false b)) hl rfl (if_pos hok), rfl⟩
  case written =>
    have hrun := runs_completionWrite hl hf true
    rwa [if_pos (by rw [ho, hm, hh, hlate]; rfl)] at hrun
  case pushed =>
    have hrun := runs_completionWrite hl hf free
    rwa [if_neg (by rw [ho]; exact Bool.false_ne_true)] at hrun
  case timer =>
    refine Runs.of_run hl rfl (if_pos ?_)
    rw [hen, Bool.true_and, Bool.and_eq_true, bne_iff_ne, bne_iff_ne]
    exact ⟨ht, hc⟩
  case rx =>
    have hrun := runs_hostRxDeliver hl hs hh
    refine ⟨fun k hk => ?_, fun t ht => ?_, fun hu => ?_⟩
    · rwa [Dev.rxSent, show (s.dev.rxTurn n).rxTo p = .ring k from hk] at hrun
    · rwa [Dev.rxSent, show (s.dev.rxTurn n).rxTo p = .core t from ht] at hrun
    · rwa [Dev.rxSent, show (s.dev.rxTurn n).rxTo p = .unmapped from hu] at hrun


/-! ## A reply leaves what neither mailboxes nor signals write (R370, R373, R383) -/

section Reply

variable (d : Dev) {f : Fld} (hf : f.eventless = true)
  (hm : ∀ g ∈ [F.MBX_STAT_FULL, F.MBX_STAT_LEN, F.MBX_STAT_SEQ, F.MBX_STAT_TIMEOUT, F.MBX_STAT_SEND_REJ, F.MBX_REJ_COUNT, F.MBX_DATA_DATA,
    F.PIN_BMC_PEND], f.apart g = true) (hw : f.reg.win ≠ R.MBX_DATA.win) (hid : f.reg.id < 4096) (ix : List Nat)

include hm in
theorem Dev.rd_mbxReject (c : Nat) : (d.mbxReject c).rd f ix = d.rd f ix := d.rd_inc_apart ix [c] (hm _ (by simp))

include hf hm

theorem Dev.rd_signalMid (mid vec : Nat) : (d.signalMid mid vec).rd f ix = d.rd f ix := by
  have pend : d.bmcPend.rd f ix = d.rd f ix := by
    rw [Dev.bmcPend, apply_ite (fun e : Dev => e.rd f ix), Dev.rd_emit, ite_self, Dev.rd_wr_apart _ _ _ _ (hm _ (by simp))]
  simp only [Dev.signalMid, apply_ite (fun e : Dev => e.rd f ix), Dev.rd_msix hf, Dev.rd_emit, pend, ite_self]

theorem Dev.rd_mbxAck (mid c seq : Nat) : (d.mbxAck mid c seq).rd f ix = d.rd f ix := by
  have wr : ∀ (e : Dev) (v w : Nat), ((e.wr F.MBX_STAT_FULL [c] v).wr F.MBX_STAT_TIMEOUT [c] w).rd f ix = e.rd f ix := fun e v w => by
    rw [Dev.rd_wr_apart _ _ _ _ (hm _ (by simp)), Dev.rd_wr_apart _ _ _ _ (hm _ (by simp))]
  simp only [Dev.mbxAck, apply_ite (fun e : Dev => e.rd f ix), Dev.rd_mbxReject _ hm, Dev.rd_signalMid _ hf hm, wr, ite_self]

theorem Dev.rd_mbxSend (mid c len : Nat) : (d.mbxSend mid c len).rd f ix = d.rd f ix := by
  have rej : ∀ (e : Dev), (e.wr F.MBX_STAT_SEND_REJ [c] 1).rd f ix = e.rd f ix := fun e => e.rd_wr_apart _ _ _ (hm _ (by simp))
  have sent : ∀ (e : Dev) (u v w : Nat), (((e.wr F.MBX_STAT_FULL [c] u).wr F.MBX_STAT_LEN [c] v).wr F.MBX_STAT_SEQ [c] w).rd f ix =
      e.rd f ix := fun e u v w => by
    rw [Dev.rd_wr_apart _ _ _ _ (hm _ (by simp)), Dev.rd_wr_apart _ _ _ _ (hm _ (by simp)), Dev.rd_wr_apart _ _ _ _ (hm _ (by simp))]
  simp only [Dev.mbxSend, apply_ite (fun e : Dev => e.rd f ix), Dev.rd_mbxReject _ hm, Dev.rd_signalMid _ hf hm, rej, sent, ite_self]

theorem Dev.rd_requestDone (mid c : Nat) : (d.requestDone mid c).rd f ix = d.rd f ix := by
  unfold Dev.requestDone
  split
  · rfl
  · exact d.rd_mbxAck hf hm ix _ _ _

include hw hid

theorem Dev.rd_reply (mid c : Nat) (msg : List Nat) (st : Nat) (rest : List Nat) : (d.reply mid c msg st rest).rd f ix = d.rd f ix := by
  have code : (d.withCode st rest).2.rd f ix = d.rd f ix := by
    unfold Dev.withCode
    split <;> rfl
  have words : ∀ (p : Nat) (l : List (Nat × Nat)) (e : Dev), (l.foldl (fun d x => d.setRaw R.MBX_DATA [p, x.2] x.1) e).rd f ix = e.rd f ix :=
    fun p => foldl_proj (fun e : Dev => e.rd f ix) _ fun e x => e.rd_setRaw_other _ _ _ (.inl hw) hid (by decide)
  unfold Dev.reply
  dsimp only
  rw [Dev.rd_mbxSend _ hf hm, words, Dev.rd_requestDone _ hf hm, code]

end Reply

/-! ## Requests that are carried out (R381, R383) -/

theorem Dev.serve_answers {d : Dev} {c svc op mid : Nat} {msg : List Nat} (f : Dev → List Nat → Dev × Answer)
    (h : d.requestIn c = some (mid, msg)) (hc : wrongChannel c = false) (hsv : bitsOf (msg.getD 0 0) 31 24 = svc) (h8 : svc ≤ 8)
    (hr : d.serviceRuns svc = true) (hk : opKnown svc op = true) (hop : bitsOf (msg.getD 0 0) 23 16 = op) :
    d.serve c svc (some op) f = (f d msg).1.reply mid c msg (f d msg).2.1 (f d msg).2.2 := by
  have hgo : ¬ (wrongChannel c || 8 < svc) = true := by rw [hc, Bool.false_or, decide_eq_true_eq]; omega
  unfold Dev.serve
  rw [h]
  dsimp only
  rw [hsv, hop, if_neg hgo, if_neg (not_not.2 rfl), if_neg (by rw [hr]; decide), if_neg (by rw [hk]; decide), if_neg (by simp)]

/-! ## A firmware update with poison (R178, R386) -/

/-- A request of PF0 for a firmware update of port 0's memory device, with firmware running. -/
def updateRequest : Dev :=
  let d := (({} : Dev).wr F.SVC_BOOT_STATE [] 3).wr F.MBX_STAT_FULL [0] 1
  (d.wr F.MBX_STAT_LEN [0] 2).wr F.MBX_DATA_DATA [0, 0] (7 * 2 ^ 24 + 3 * 2 ^ 16)

/-- Its message: FW_UPDATE, of port 0. -/
def updateMessage : List Nat := [7 * 2 ^ 24 + 3 * 2 ^ 16, 0]

theorem updateRequest_says : updateRequest.requestIn 0 = some (0x40, updateMessage) ∧ updateRequest.serviceRuns 7 = true ∧
    updateRequest.ownedExtents = [] ∧ updateRequest.regionReach 2 0 0 = true ∧ updateRequest.safe = false ∧
    updateRequest.rst.level = none ∧ updateRequest.spl.dead = [] := by decide +kernel

/-- The device before the reply, as the firmware's poisoned read leaves it. -/
def poisonedRead : Dev := (updateRequest.readArchive 0 0 [] true).1

/-- The device before the reply, as the statement has it. -/
def poisonStated : Dev :=
  (((updateRequest.charge none 4 0).wr F.CXL_ERR_POISON [updateRequest.regionPort 2 0] 1).raise 45 0x45
    (updateRequest.regionPort 2 0 * 2 ^ 30)).emit (.busError 0)

/-- The port counts the poisoned line (CXL_POISON_CNT), which the statement leaves out. -/
theorem poison_differs : poisonedRead.rd F.CXL_POISON_CNT_COUNT [3] = 1 ∧ poisonStated.rd F.CXL_POISON_CNT_COUNT [3] = 0 := by
  decide +kernel

/-- What FW_UPDATE does with the request once the firmware's read has met poison. -/
def poisonedAnswer (d : Dev) (msg : List Nat) : Dev × Answer :=
  let k := msgByte msg 4
  if 3 < k || msg.length < 2 then (d, svcBadArg, [])
  else if d.safe || d.ownedExtents.any (fun e => d.extentPort e == k) then (d, svcBusy, [])
  else
    let (d, came) := d.readArchive 0 0 [] true
    if !came then (d, svcFailed, []) else (d.emit (.memMailbox k 3 []), svcOk, [])

theorem poisonedAnswer_fails : poisonedAnswer updateRequest updateMessage = (poisonedRead, svcFailed, []) := by
  obtain ⟨-, -, howned, -, hsafe, -, -⟩ := updateRequest_says
  have hread : updateRequest.readArchive 0 0 [] true = (poisonedRead, false) := Prod.ext rfl (by decide +kernel)
  rw [poisonedAnswer, if_neg (by decide), hsafe, howned, hread]
  rfl

theorem runs_poisonedUpdate (hl : Live { pending := [], dev := updateRequest }) :
    Runs (.fwUpdate 0 0 [] true true) { pending := [], dev := updateRequest } (poisonedRead.reply 0x40 0 updateMessage 7 []) := by
  obtain ⟨hin, hruns, -⟩ := updateRequest_says
  have hserve := Dev.serve_answers (op := 3) poisonedAnswer hin (by decide) (by decide) (by decide) hruns (by decide) (by decide)
  rw [poisonedAnswer_fails] at hserve
  exact Runs.of_run hl rfl hserve

/-- The poisoned lines of port 3 are those of the device before the reply. -/
theorem poisonCount_reply (d : Dev) (mid c : Nat) (msg : List Nat) (st : Nat) (rest : List Nat) :
    (d.reply mid c msg st rest).rd F.CXL_POISON_CNT_COUNT [3] = d.rd F.CXL_POISON_CNT_COUNT [3] :=
  Dev.rd_reply d (by decide) (by decide) (by decide) (by decide) [3] mid c msg st rest

/-- Refutes O55: FW_UPDATE's read of ARCHIVE that meets poison counts the line in CXL_POISON_CNT of the port (R178), beside
CXL_ERR.POISON; the statement's next state has the bit alone. -/
theorem not_serviceRequests : ¬ Obligations.ServiceRequests := by
  unfold Obligations.ServiceRequests
  intro h
  obtain ⟨hin, -, howned, hreach, hsafe, hlevel, hdead⟩ := updateRequest_says
  have hl : Live { pending := [], dev := updateRequest } := ⟨hlevel, hdead⟩
  obtain ⟨-, -, -, hanswers⟩ := h { pending := [], dev := updateRequest } 0 0x40 updateMessage hl
  obtain ⟨-, -, -, -, -, hmemory, -⟩ := hanswers hin (by decide) rfl
  obtain ⟨-, -, hports⟩ := hmemory (by decide) 0 [] true true none
  obtain ⟨-, -, hupdate⟩ := hports (by decide) (by decide)
  obtain ⟨-, hfree⟩ := hupdate (by decide)
  obtain ⟨-, hpoison, -⟩ := hfree hsafe (by rw [howned]; exact nofun)
  have hstated : Runs (.fwUpdate 0 0 [] true true) { pending := [], dev := updateRequest } (poisonStated.reply 0x40 0 updateMessage 7 []) :=
    hpoison hreach rfl
  have hsame := (runs_poisonedUpdate hl).symm.trans hstated
  have hcount := congrArg (fun o : Host.Outcome State Fault Refusal => match o with
    | .next t => t.dev.rd F.CXL_POISON_CNT_COUNT [3]
    | _ => 0) hsame
  dsimp only at hcount
  rw [Dev.rd_latched _ _ _ hdead, Dev.rd_latched _ _ _ hdead, poisonCount_reply, poisonCount_reply, poison_differs.1,
    poison_differs.2] at hcount
  exact absurd hcount (by decide)


/-! ## What a port's bring-up leaves of the service cores (R382) -/

/-- The device but for the ports, the queues of frames, and what reporting writes. -/
def Dev.unported (d : Dev) : Dev := { d.unreported with phy := {}, dp := {} }

theorem Dev.svc_of_unported {d e : Dev} (h : e.unported = d.unported) : e.svc = d.svc := by
  have := congrArg Dev.svc h
  exact this

theorem Dev.unported_of_unreported {d e : Dev} (h : e.unreported = d.unreported) : e.unported = d.unported := by
  rw [Dev.unported, h, Dev.unported]

section Unported

variable (d : Dev)

theorem Dev.unported_wr (f : Fld) (ix : List Nat) (v : Nat) : (d.wr f ix v).unported = d.unported := by unfold Dev.unported; rfl
theorem Dev.unported_emit (o : Output) : (d.emit o).unported = d.unported := by unfold Dev.unported; rfl
theorem Dev.unported_setRaw (r : Reg) (ix : List Nat) (v : Nat) : (d.setRaw r ix v).unported = d.unported := by unfold Dev.unported; rfl
theorem Dev.unported_phy (x : Phy) : ({ d with phy := x } : Dev).unported = d.unported := by unfold Dev.unported; rfl
theorem Dev.unported_dp (x : Dp) : ({ d with dp := x } : Dev).unported = d.unported := by unfold Dev.unported; rfl
theorem Dev.unported_setPort (p : Nat) (x : PortSt) : (d.setPort p x).unported = d.unported := by unfold Dev.unported; rfl
theorem Dev.unported_setLane (n : Nat) (x : LaneSt) : (d.setLane n x).unported = d.unported := by unfold Dev.unported; rfl

theorem Dev.unported_inc (f : Fld) (ix : List Nat) : (d.inc f ix).unported = d.unported :=
  Dev.unported_of_unreported (d.unreported_inc f ix)

theorem Dev.unported_portSignal (p : Nat) (s : PortSignal) (was now : Bool) : (d.portSignal p s was now).unported = d.unported := by
  simp only [Dev.portSignal, apply_ite Dev.unported, Dev.unported_emit, ite_self]

theorem Dev.unported_linkEvent (sub p stat : Nat) : (d.linkEvent sub p stat).unported = d.unported := by
  simp only [Dev.linkEvent, apply_ite Dev.unported, Dev.unported_of_unreported (Dev.unreported_postEvent _ _ _), ite_self]

theorem Dev.unported_updateLink (p : Nat) : (d.updateLink p).unported = d.unported := by
  simp only [Dev.updateLink, Dev.settleFault, Dev.dropMarks, Dev.linkRose, apply_ite Dev.unported, Dev.unported_linkEvent,
    Dev.unported_setPort, Dev.unported_portSignal, Dev.unported_dp, Dev.unported_wr, Dev.unported_inc, ite_self]

theorem Dev.unported_portDown (p phase : Nat) : (d.portDown p phase).unported = d.unported := by
  have lanesOff : ∀ (l : List Nat) (e : Dev), (l.foldl Dev.laneOff e).unported = e.unported :=
    foldl_proj Dev.unported Dev.laneOff fun e n => by
      simp only [Dev.laneOff, apply_ite Dev.unported, Dev.unported_setLane, Dev.unported_wr, ite_self]
  have reaches : ∀ (l : List Nat) (e : Dev), (l.foldl Dev.takeReach e).unported = e.unported :=
    foldl_proj Dev.unported Dev.takeReach fun e n => e.unported_setLane n _
  simp only [Dev.portDown, Dev.setDegraded, Dev.setTxLpi, apply_ite Dev.unported, Dev.unported_updateLink, Dev.unported_setPort,
    Dev.unported_portSignal, Dev.unported_wr, lanesOff, reaches, ite_self]

theorem Dev.unported_auxPortRestart (p : Nat) : (d.auxPortRestart p).unported = d.unported := by
  have begun : ∀ e : Dev, (e.auxStatInit p).unported = e.unported := fun e => by
    simp only [Dev.auxStatInit, apply_ite Dev.unported, Dev.unported_wr, Dev.unported_setRaw, ite_self]
  simp only [Dev.auxPortRestart, Dev.auxAnNew, Dev.setAuxAn, Dev.setAuxRx, Dev.auxLaneNew, Dev.setAuxLane, Dev.unported_phy, begun]

theorem Dev.unported_auxHandover : d.auxHandover.unported = d.unported := by
  have ports : ∀ (l : List Nat) (e : Dev), (l.foldl Dev.auxPortRestart e).unported = e.unported :=
    foldl_proj Dev.unported Dev.auxPortRestart fun e p => e.unported_auxPortRestart p
  simp only [Dev.auxHandover, Dev.auxRestart, apply_ite Dev.unported, ports, Dev.unported_phy, ite_self]

end Unported

/-- A hand-over ends with the cores that run now. -/
theorem linkHandover_ends {s : State} (hl : Live s) (h : s.dev.svc.handover = true) : ∃ t, exec .linkHandover s = .next t ∧
    t.dev.svc.handover = false ∧ t.dev.svc.linkCores = s.dev.linkCoresNow := by
  have ports : ∀ (l : List Nat) (e : Dev), (l.foldl (fun d p =>
      let k := (d.port p).phase
      if 1 ≤ k && k ≤ 5 then d.portDown p 1 else d) e).unported = e.unported :=
    foldl_proj Dev.unported _ fun e p => by
      dsimp only
      rw [apply_ite Dev.unported, Dev.unported_portDown, ite_self]
  refine ⟨_, Runs.of_run (c := .linkHandover) hl rfl (if_pos h), ?_⟩
  have hsvc := Dev.svc_of_unported ((Dev.unported_auxHandover _).trans (ports (s.dev.phy.ports.map (·.1))
    { s.dev with svc := { s.dev.svc with handover := false, linkCores := s.dev.linkCoresNow } }))
  rw [Dev.latched_svc]
  exact ⟨congrArg Svc.handover hsvc, congrArg Svc.linkCores hsvc⟩

/-! ## Cores halt and restart (R379, R382) -/

/-- A core's number at which its control register lies. -/
theorem svcCtl_notInit (k : Fin 8) : initWindow (R.SVC_CTL.bar0At k.val / 1048576) = false := by
  revert k
  decide

section CoreControl

variable (d : Dev)

theorem Dev.checkHandover_regs : d.checkHandover.regs = d.regs := by
  rw [Dev.checkHandover, apply_ite Dev.regs, ite_self]

theorem Dev.checkHandover_svc : d.checkHandover.svc = d.svc ∨ d.checkHandover.svc = { d.svc with handover := true } := by
  unfold Dev.checkHandover
  split
  · exact .inl rfl
  · exact .inr rfl

theorem Dev.on_checkHandover (f : Fld) (ix : List Nat) : d.checkHandover.on f ix = d.on f ix :=
  Dev.on_of_raw (Dev.raw_of_regs d.checkHandover_regs _ _)

theorem Dev.restarts_checkHandover : d.checkHandover.svc.restarts = d.svc.restarts := by
  obtain h | h := d.checkHandover_svc <;> rw [h]

/-- A write of HALT alone. -/
theorem Dev.svcCtl_halt (k : Nat) (halt : Bool) : d.svcCtl k (b2n halt * 2) =
    (if k = 0 then d else d.wr F.SVC_CTL_HALT [k] (b2n halt)).checkHandover := by
  have hbit : bitAt (b2n halt * 2) 0 = false := by cases halt <;> decide
  have hhalt : bitsOf (b2n halt * 2) 1 1 = b2n halt := by cases halt <;> decide
  rw [Dev.svcCtl, hhalt, if_neg (by rw [hbit]; decide)]

/-- A write of RESET with HALT. -/
theorem Dev.svcCtl_reset (k : Nat) (halt : Bool) : d.svcCtl k (b2n halt * 2 + 1) =
    ((if k = 0 then d else d.wr F.SVC_CTL_HALT [k] (b2n halt)).restartCore k).checkHandover := by
  have hbit : bitAt (b2n halt * 2 + 1) 0 = true := by cases halt <;> decide
  have hhalt : bitsOf (b2n halt * 2 + 1) 1 1 = b2n halt := by cases halt <;> decide
  rw [Dev.svcCtl, hhalt, if_pos hbit]

/-- What the service of a core forgets before the core restarts. -/
def Dev.coreIdle (k : Nat) : Dev := if k = 4 then d.ipfixIdle else d

theorem Dev.restartCore_eq (k : Nat) : d.restartCore k = { d.coreIdle k with svc := { (d.coreIdle k).svc with
    restarts := Sparse.set 0 (d.coreIdle k).svc.restarts k (Sparse.get 0 (d.coreIdle k).svc.restarts k + 1)
    taken := (d.coreIdle k).svc.taken.filter (fun x => x.1 != 0x40 + k)
    handover := (d.coreIdle k).svc.handover || (d.coreIdle k).svc.linkCores.contains k } } := by
  unfold Dev.restartCore Dev.coreIdle
  rfl

theorem Dev.coreIdle_svc (k : Nat) : (d.coreIdle k).svc.restarts = d.svc.restarts ∧ (d.coreIdle k).svc.linkCores = d.svc.linkCores := by
  have lock : d.giveLock.svc = d.svc := by rw [Dev.giveLock, apply_ite Dev.svc, Dev.wr_svc, Dev.wr_svc, ite_self]
  have idle : d.ipfixIdle.svc.restarts = d.svc.restarts ∧ d.ipfixIdle.svc.linkCores = d.svc.linkCores := by
    rw [Dev.ipfixIdle, lock]
    exact ⟨rfl, rfl⟩
  rw [Dev.coreIdle]
  split
  · exact idle
  · exact ⟨rfl, rfl⟩

theorem Dev.on_restartCore {f : Fld} (h1 : f.apart F.MBX_LOCK_HELD = true) (h2 : f.apart F.MBX_LOCK_OWNER = true) (k : Nat) (ix : List Nat) :
    (d.restartCore k).on f ix = d.on f ix := by
  have lock : d.giveLock.on f ix = d.on f ix := by
    rw [Dev.giveLock, apply_ite (fun e : Dev => e.on f ix), Dev.on_wr_apart _ _ _ _ h2, Dev.on_wr_apart _ _ _ _ h1, ite_self]
  have idle : (d.coreIdle k).on f ix = d.on f ix := by
    rw [Dev.coreIdle, apply_ite (fun e : Dev => e.on f ix), Dev.ipfixIdle]
    have svc : ∀ (e : Dev) (x : Svc), ({ e with svc := x } : Dev).on f ix = e.on f ix := fun _ _ => rfl
    rw [svc, lock, ite_self]
  rw [Dev.restartCore_eq, ← idle]
  rfl

end CoreControl

section Cores

variable {s : State} {m : Master} (k : Fin 8) (hl : Live s) (hm : svcWriter m = true) (hb : s.dev.hostBlocked m = false)

include hl hm hb

theorem runs_svcHalt (halt : Bool) : Runs (.svcHalt m k halt) s
    ((if k.val = 0 then s.dev else s.dev.wr F.SVC_CTL_HALT [k.val] (b2n halt)).checkHandover) := by
  refine Runs.of_run hl rfl ((if_pos hm).trans ?_)
  rw [Dev.access_taken _ _ hb (svcCtl_notInit k), Dev.svcCtl_halt]

theorem runs_svcReset : Runs (.svcReset m k) s ((((if k.val = 0 then s.dev
    else s.dev.wr F.SVC_CTL_HALT [k.val] (b2n (s.dev.on F.SVC_CTL_HALT [k.val])))).restartCore k.val).checkHandover) := by
  refine Runs.of_run hl rfl ((if_pos hm).trans ?_)
  rw [Dev.access_taken _ _ hb (svcCtl_notInit k), Dev.svcCtl_reset]

theorem svcHalt_shows (halt : Bool) : ∃ t, exec (.svcHalt m k halt) s = .next t ∧
    (k.val ≠ 0 → t.dev.on F.SVC_CTL_HALT [k.val] = halt) ∧ (k.val = 0 → t.dev.regs = s.dev.regs) ∧
    (∀ j, j < 8 → j ≠ k.val → t.dev.on F.SVC_CTL_HALT [j] = s.dev.on F.SVC_CTL_HALT [j]) ∧
    t.dev.svc.restarts = s.dev.svc.restarts := by
  refine ⟨_, runs_svcHalt k hl hm hb halt, fun hk => ?_, fun hk => ?_, fun j hj hne => ?_, ?_⟩
  · rw [Dev.on_latched _ _ _ hl.2, Dev.on_checkHandover, if_neg hk, Dev.on_wr_bit _ _ _ _ rfl (by decide)]
  · rw [Dev.latched_regs _ _ hl.2, Dev.checkHandover_regs, if_pos hk]
  · have hkey : F.SVC_CTL_HALT.reg.key [j] ≠ F.SVC_CTL_HALT.reg.key [k.val] :=
      Reg.key_ne_row (n := 8) (st := 0x10) rfl (by omega) (by omega) hne
    have other : (s.dev.wr F.SVC_CTL_HALT [k.val] (b2n halt)).on F.SVC_CTL_HALT [j] = s.dev.on F.SVC_CTL_HALT [j] :=
      Dev.on_of_raw (Dev.raw_wr_of_key _ _ _ _ _ _ hkey)
    rw [Dev.on_latched _ _ _ hl.2, Dev.on_checkHandover, apply_ite (fun e : Dev => e.on F.SVC_CTL_HALT [j]), other, ite_self]
  · rw [Dev.latched_svc, Dev.restarts_checkHandover, apply_ite Dev.svc, Dev.wr_svc, ite_self]

theorem svcReset_shows : ∃ t, exec (.svcReset m k) s = .next t ∧
    t.dev.on F.SVC_CTL_HALT [k.val] = s.dev.on F.SVC_CTL_HALT [k.val] ∧
    Sparse.get 0 t.dev.svc.restarts k.val = Sparse.get 0 s.dev.svc.restarts k.val + 1 := by
  refine ⟨_, runs_svcReset k hl hm hb, ?_, ?_⟩
  · rw [Dev.on_latched _ _ _ hl.2, Dev.on_checkHandover, Dev.on_restartCore _ (by decide) (by decide)]
    split
    · rfl
    · rw [Dev.on_wr_bit _ _ _ _ rfl (by decide)]
  · have hsvc : (if k.val = 0 then s.dev else s.dev.wr F.SVC_CTL_HALT [k.val] (b2n (s.dev.on F.SVC_CTL_HALT [k.val]))).svc = s.dev.svc := by
      rw [apply_ite Dev.svc, Dev.wr_svc, ite_self]
    rw [Dev.latched_svc, Dev.restarts_checkHandover, Dev.restartCore_eq]
    dsimp only
    rw [Sparse.get_set_self, (Dev.coreIdle_svc _ _).1, hsvc]

theorem svcReset_handover (hc : s.dev.svc.linkCores.contains k.val = true) :
    ∃ t, exec (.svcReset m k) s = .next t ∧ t.dev.svc.handover = true := by
  refine ⟨_, runs_svcReset k hl hm hb, ?_⟩
  have hsvc : (if k.val = 0 then s.dev else s.dev.wr F.SVC_CTL_HALT [k.val] (b2n (s.dev.on F.SVC_CTL_HALT [k.val]))).svc = s.dev.svc := by
    rw [apply_ite Dev.svc, Dev.wr_svc, ite_self]
  have restarted : ∀ e : Dev, e.svc = s.dev.svc → (e.restartCore k.val).svc.handover = true := fun e he => by
    rw [Dev.restartCore_eq]
    dsimp only
    rw [(Dev.coreIdle_svc _ _).2, he, hc, Bool.or_true]
  rw [Dev.latched_svc]
  obtain h | h := Dev.checkHandover_svc ((if k.val = 0 then s.dev
    else s.dev.wr F.SVC_CTL_HALT [k.val] (b2n (s.dev.on F.SVC_CTL_HALT [k.val]))).restartCore k.val) <;> rw [h]
  exact restarted _ hsvc

end Cores


/-! ## The boot ROM's stages (R387, R388) -/

section BootLemmas

variable (d : Dev)

theorem Dev.rd_svc (x : Svc) (f : Fld) (ix : List Nat) : ({ d with svc := x } : Dev).rd f ix = d.rd f ix := rfl
theorem Dev.rd_snap (x : Sparse Word) (f : Fld) (ix : List Nat) : ({ d with snap := x } : Dev).rd f ix = d.rd f ix := rfl

/-- The device once both slots' headers have been read. -/
def Dev.headsRead : Dev := (d.emit (.flashRead 0x100000 512)).emit (.flashRead 0x900000 512)

theorem Dev.bootHeaders_eq (a b : BootSlot) : d.bootHeaders a b = match bootOrder a b with
    | [] => d.headsRead.bootFailed 1
    | x :: l => if d.otp.key.isEmpty then d.headsRead.bootState 4 else d.headsRead.bootTry 1 (x :: l) := by
  have hB : slotAt 1 = 0x900000 := by decide
  have hA : slotAt 0 = 0x100000 := by decide
  rw [Dev.bootHeaders, Dev.headsRead, hA, hB, Dev.emit_otp, Dev.emit_otp]
  cases bootOrder a b <;> rfl

/-- The ROM finds no slot exactly when neither slot's MAGIC is valid. -/
theorem bootOrder_eq_nil (a b : BootSlot) : bootOrder a b = [] ↔ slotMagic a = false ∧ slotMagic b = false := by
  unfold bootOrder
  cases slotMagic a <;> cases slotMagic b <;> dsimp only <;> split <;> simp

theorem bootOrder_both {a b : BootSlot} (ha : slotMagic a = true) (hb : slotMagic b = true) :
    bootOrder a b = if slotField a 8 4 < slotField b 8 4 then [slotCand b 1, slotCand a 0] else [slotCand a 0, slotCand b 1] := by
  rw [bootOrder, if_pos ha, if_pos hb]
  rfl

theorem Dev.bootHeaders_none {a b : BootSlot} (h : bootOrder a b = []) : d.bootHeaders a b = d.headsRead.bootFailed 1 := by
  rw [Dev.bootHeaders_eq, h]

theorem Dev.bootHeaders_blank {a b : BootSlot} (h : bootOrder a b ≠ []) (hk : d.otp.key = []) :
    d.bootHeaders a b = d.headsRead.wr F.SVC_BOOT_STATE [] 4 := by
  obtain ⟨x, l, hxl⟩ := List.exists_cons_of_ne_nil h
  rw [Dev.bootHeaders_eq, hxl]
  dsimp only
  rw [hk, if_pos (by decide), Dev.bootState]

theorem Dev.bootHeaders_keyed {a b : BootSlot} (h : bootOrder a b ≠ []) (hk : d.otp.key ≠ []) :
    d.bootHeaders a b = d.headsRead.bootTry 1 (bootOrder a b) := by
  obtain ⟨x, l, hxl⟩ := List.exists_cons_of_ne_nil h
  rw [Dev.bootHeaders_eq, hxl]
  dsimp only
  rw [if_neg (by rwa [List.isEmpty_iff])]

/-! ### The choice of a slot -/

theorem Dev.bootTry_nil (e : Nat) : d.bootTry e [] = d.bootFailed e := by rw [Dev.bootTry]

theorem Dev.bootTry_fails (e : Nat) {x : BootCand} {code : Nat} (l : List BootCand) (h : d.slotError x = some code) :
    d.bootTry e (x :: l) = d.bootTry code l := by
  rw [Dev.bootTry, h]

theorem Dev.bootTry_passes (e : Nat) {x : BootCand} (l : List BootCand) (h : d.slotError x = none) :
    d.bootTry e (x :: l) = { d.bootState 1 with svc := { (d.bootState 1).svc with bootLeft := x :: l } } := by
  rw [Dev.bootTry, h]

theorem Dev.slotError_key {x : BootCand} (h : x.keyHash ≠ d.otp.keyNow) : d.slotError x = some 2 := by
  rw [Dev.slotError, if_pos h]

theorem Dev.slotError_rollback {x : BootCand} (h : x.keyHash = d.otp.keyNow) (hr : x.rollback < d.otp.index) :
    d.slotError x = some 4 := by
  rw [Dev.slotError, if_neg (not_not.2 h), if_pos hr]

theorem Dev.slotError_none {x : BootCand} (h : x.keyHash = d.otp.keyNow) (hr : d.otp.index ≤ x.rollback) :
    d.slotError x = none := by
  rw [Dev.slotError, if_neg (not_not.2 h), if_neg (by omega)]

theorem Dev.bootState_reads {n : Nat} (h : n < 16) : (d.bootState n).rd F.SVC_BOOT_STATE [] = n := by
  rw [Dev.bootState, Dev.rd_wr_fits _ _ _ _ (by decide) (by decide) h]

/-- Steps 2 and 3 of the ROM on the slot that is next. -/
theorem Dev.bootTry_shows (e : Nat) (x : BootCand) (l : List BootCand) :
    (x.keyHash ≠ d.otp.keyNow → d.bootTry e (x :: l) = d.bootTry 2 l) ∧
    (x.keyHash = d.otp.keyNow → x.rollback < d.otp.index → d.bootTry e (x :: l) = d.bootTry 4 l) ∧
    (x.keyHash = d.otp.keyNow → d.otp.index ≤ x.rollback → (d.bootTry e (x :: l)).rd F.SVC_BOOT_STATE [] = 1 ∧
      (d.bootTry e (x :: l)).svc.bootLeft = x :: l) := by
  refine ⟨fun h => d.bootTry_fails e l (d.slotError_key h), fun h hr => d.bootTry_fails e l (d.slotError_rollback h hr),
    fun h hr => ?_⟩
  rw [d.bootTry_passes e l (d.slotError_none h hr), Dev.rd_svc]
  exact ⟨d.bootState_reads (by decide), rfl⟩

end BootLemmas

/-- With no word in error the ROM sees the key hash and the rollback index as they are. -/
theorem otp_intact {o : Otp} (h : o.dead = []) : o.keyNow = o.key ∧ o.index = o.rollback := by
  constructor
  · simp [Otp.keyNow, h]
  · rw [Otp.index, h]
    simp only [List.contains_nil, Bool.false_eq_true, if_false]
    omega

/-! ### The load of an image -/

/-- What a memory of a list of bytes holds at address n. -/
theorem get_ramOf (l : List Byte) {n : Nat} (h : n < l.length) : Sparse.get 0 (ramOf 0 l) n = (l.getD n 0).toNat := by
  have hfst : (ramOf 0 l).map (fun e => e.1) = (l.zipIdx.filter (fun x => x.1 != 0)).map (fun x => x.2) := by
    rw [ramOf, List.map_map]
    exact List.map_congr_left fun x _ => Nat.zero_add x.2
  have hnodup : ((ramOf 0 l).map (fun e => e.1)).Nodup := by
    rw [hfst]
    refine List.Nodup.sublist (List.Sublist.map _ List.filter_sublist) ?_
    rw [List.zipIdx_map_snd]
    exact List.nodup_range'
  have hget : l.getD n 0 = l[n] := List.getD_eq_getElem _ _ h
  by_cases hz : l[n] = 0
  · rw [hget, hz]
    refine Sparse.get_of_not_mem 0 fun e he hn => ?_
    obtain ⟨⟨v, i⟩, hx, rfl⟩ := List.mem_map.1 he
    obtain ⟨hmem, hv⟩ := List.mem_filter.1 hx
    have hat := List.mem_zipIdx' hmem
    dsimp only at hn hv hat
    rw [Nat.zero_add] at hn
    subst hn
    rw [hat.2, hz] at hv
    exact absurd hv (by decide)
  · have hmem : (n, l[n].toNat) ∈ ramOf 0 l := by
      refine List.mem_map.2 ⟨(l[n], n), List.mem_filter.2 ⟨?_, ?_⟩, ?_⟩
      · rw [List.mk_mem_zipIdx_iff_getElem?, List.getElem?_eq_getElem h]
      · exact bne_iff_ne.2 hz
      · rw [Nat.zero_add]
    rw [hget]
    exact Sparse.get_of_mem 0 hnodup hmem

section Load

variable (d : Dev) (x : BootCand) (l : List BootCand)

/-- The device while the image that follows slot x's header is read. -/
def Dev.imageRead : Dev := d.emit (.flashRead (slotAt x.slot + 512) x.length)

theorem Dev.bootLoad_length (i : FlashImage) (h : x.length = 0 ∨ 8388096 < x.length) : d.bootLoad x l i = d.bootTry 6 l := by
  rw [Dev.bootLoad, if_pos h]

theorem Dev.bootLoad_readError (h0 : x.length ≠ 0) (hm : x.length ≤ 8388096) :
    d.bootLoad x l .readError = (d.imageRead x).bootTry 5 l := by
  rw [Dev.bootLoad, if_neg (by omega), Dev.imageRead]

theorem Dev.bootLoad_bytes (h0 : x.length ≠ 0) (hm : x.length ≤ 8388096) (b : List Byte) :
    d.bootLoad x l (.bytes b) = { (d.imageRead x).bootState 2 with
      svc := { ((d.imageRead x).bootState 2).svc with fwMem := ramOf 0 (b.take x.length) } } := by
  rw [Dev.bootLoad, if_neg (by omega), Dev.imageRead]

end Load

/-! ### The start of an image -/

section Run

variable (d : Dev)

/-- A register that is none of those the load of the trimmed coefficients writes. -/
def Fld.notTrim (f : Fld) : Bool := f.apart F.ANL_COEF_VALUE && f.apart F.ANL_STATIC_VALUE && f.apart (commitBusy R.ANL_CFG.win)

/-- A GO write is discarded, or sets BUSY and takes the staged values. -/
theorem Dev.commitGo_cases (w : Nat) : d.commitGo w = d ∨ ∃ m, d.commitGo w = { d.wr (commitBusy w) [] 1 with snap := m } := by
  unfold Dev.commitGo
  split
  · exact .inl rfl
  · exact .inr ⟨_, rfl⟩

/-- One coefficient is staged, by its index. -/
def Dev.stageCoef (x : Nat × Nat) : Dev :=
  if x.1 < 16 then d.wr F.ANL_COEF_VALUE [x.1] x.2 else d.wr F.ANL_STATIC_VALUE [x.1 - 16] x.2

theorem Dev.stageCoef_svc (x : Nat × Nat) : (d.stageCoef x).svc = d.svc := by
  rw [Dev.stageCoef, apply_ite Dev.svc, Dev.wr_svc, Dev.wr_svc, ite_self]

theorem Dev.rd_stageCoef {f : Fld} (hcoef : f.apart F.ANL_COEF_VALUE = true) (hstat : f.apart F.ANL_STATIC_VALUE = true)
    (ix : List Nat) (x : Nat × Nat) : (d.stageCoef x).rd f ix = d.rd f ix := by
  rw [Dev.stageCoef, apply_ite (fun e : Dev => e.rd f ix), Dev.rd_wr_apart _ _ _ _ hcoef, Dev.rd_wr_apart _ _ _ _ hstat, ite_self]

/-- The coefficients of `l` are staged. -/
def Dev.stageTrim (l : List (Nat × Nat)) : Dev := l.foldl Dev.stageCoef d

theorem Dev.stageTrim_svc (l : List (Nat × Nat)) : (d.stageTrim l).svc = d.svc :=
  foldl_proj Dev.svc Dev.stageCoef Dev.stageCoef_svc l d

theorem Dev.rd_stageTrim {f : Fld} (hcoef : f.apart F.ANL_COEF_VALUE = true) (hstat : f.apart F.ANL_STATIC_VALUE = true)
    (ix : List Nat) (l : List (Nat × Nat)) : (d.stageTrim l).rd f ix = d.rd f ix :=
  foldl_proj (fun e : Dev => e.rd f ix) Dev.stageCoef (fun e x => e.rd_stageCoef hcoef hstat ix x) l d

/-- A GO that waits, as the model keeps it (log 326). -/
def Dev.trimWaits : Dev := { d with svc := { d.svc with trimGo := true } }

theorem Dev.trimWaits_svc : d.trimWaits.svc = { d.svc with trimGo := true } := rfl
theorem Dev.rd_trimWaits (f : Fld) (ix : List Nat) : d.trimWaits.rd f ix = d.rd f ix := rfl

/-- The staged values are committed, now or once BUSY has cleared. -/
def Dev.trimGoes : Dev := if d.on F.ANL_CFG_COMMIT_BUSY [] then d.trimWaits else d.commitGo R.ANL_CFG.win

theorem Dev.trimGoes_cases : d.trimGoes = d.trimWaits ∨ d.trimGoes = d.commitGo R.ANL_CFG.win := by
  unfold Dev.trimGoes
  split
  · exact .inl rfl
  · exact .inr rfl

theorem Dev.loadTrim_eq : d.loadTrim = (d.stageTrim ((List.range 40).map (fun i => (i, d.trimmed i)))).trimGoes := by
  unfold Dev.loadTrim Dev.stageTrim Dev.trimGoes Dev.trimWaits Dev.stageCoef
  rfl

theorem Dev.loadTrim_cases : ∃ l, d.loadTrim = (d.stageTrim l).trimWaits ∨ d.loadTrim = (d.stageTrim l).commitGo R.ANL_CFG.win :=
  ⟨_, by rw [Dev.loadTrim_eq]; exact Dev.trimGoes_cases _⟩

theorem Dev.commitGo_svc (w : Nat) : (d.commitGo w).svc = d.svc := by
  obtain h | ⟨m, h⟩ := d.commitGo_cases w <;> rw [h]
  exact d.wr_svc (commitBusy w) [] 1

theorem Dev.rd_commitGo {f : Fld} {w : Nat} (hf : f.apart (commitBusy w) = true) (ix : List Nat) : (d.commitGo w).rd f ix = d.rd f ix := by
  obtain h | ⟨m, h⟩ := d.commitGo_cases w <;> rw [h]
  rw [Dev.rd_snap, Dev.rd_wr_apart _ _ _ _ hf]

theorem Dev.rd_loadTrim {f : Fld} (hf : f.notTrim = true) (ix : List Nat) : d.loadTrim.rd f ix = d.rd f ix := by
  obtain ⟨h12, hbusy⟩ := Bool.and_eq_true_iff.1 hf
  obtain ⟨hcoef, hstat⟩ := Bool.and_eq_true_iff.1 h12
  obtain ⟨l, h | h⟩ := d.loadTrim_cases <;> rw [h]
  · rw [Dev.rd_trimWaits, Dev.rd_stageTrim _ hcoef hstat]
  · rw [Dev.rd_commitGo _ hbusy, Dev.rd_stageTrim _ hcoef hstat]

theorem Dev.loadTrim_svc : d.loadTrim.svc = d.svc ∨ d.loadTrim.svc = { d.svc with trimGo := true } := by
  obtain ⟨l, h | h⟩ := d.loadTrim_cases <;> rw [h]
  · exact .inr (by rw [Dev.trimWaits_svc, Dev.stageTrim_svc])
  · exact .inl (by rw [Dev.commitGo_svc, Dev.stageTrim_svc])

theorem Dev.rd_reloadPair (p : Nat) (f : Fld) (ix : List Nat) : (d.reloadPair p).rd f ix = d.rd f ix := by
  unfold Dev.reloadPair
  rfl

theorem Dev.reloadPair_svc (p : Nat) : (d.reloadPair p).svc.entry = d.svc.entry ∧
    (d.reloadPair p).svc.imageRollback = d.svc.imageRollback := by
  unfold Dev.reloadPair
  exact ⟨rfl, rfl⟩

theorem Dev.rd_reloadPairs (f : Fld) (ix : List Nat) : d.reloadPairs.rd f ix = d.rd f ix :=
  foldl_proj (fun e : Dev => e.rd f ix) Dev.reloadPair (fun e p => e.rd_reloadPair p f ix) _ d

theorem Dev.reloadPairs_svc : d.reloadPairs.svc.entry = d.svc.entry ∧ d.reloadPairs.svc.imageRollback = d.svc.imageRollback :=
  ⟨foldl_proj (fun e : Dev => e.svc.entry) Dev.reloadPair (fun e p => (e.reloadPair_svc p).1) _ d,
    foldl_proj (fun e : Dev => e.svc.imageRollback) Dev.reloadPair (fun e p => (e.reloadPair_svc p).2) _ d⟩

/-- The registers of the service cores that say what has been started. -/
def Dev.bootMarked (x : BootCand) : Dev :=
  ((d.bootState 3).wr F.SVC_BOOT_SLOT [] x.slot).wr F.SVC_FW_VER_VERSION [] x.version

/-- Slot x's image is on S0. -/
def Dev.imageStarted (x : BootCand) : Dev :=
  { d with
    svc := { d.svc with imageRollback := x.rollback, entry := x.entry, bootLeft := [] }
    spl := { d.spl with bootCount := d.spl.bootCount + 1 } }

/-- The cores that run link bring-up from now on are those that run now. -/
def Dev.linkCoresSet : Dev := { d with svc := { d.svc with linkCores := d.linkCoresNow, handover := false } }

theorem Dev.rd_imageStarted (x : BootCand) (f : Fld) (ix : List Nat) : (d.imageStarted x).rd f ix = d.rd f ix := rfl
theorem Dev.imageStarted_svc (x : BootCand) : (d.imageStarted x).svc.entry = x.entry ∧
    (d.imageStarted x).svc.imageRollback = x.rollback := ⟨rfl, rfl⟩
theorem Dev.rd_linkCoresSet (f : Fld) (ix : List Nat) : d.linkCoresSet.rd f ix = d.rd f ix := rfl
theorem Dev.linkCoresSet_svc : d.linkCoresSet.svc.entry = d.svc.entry ∧ d.linkCoresSet.svc.imageRollback = d.svc.imageRollback :=
  ⟨rfl, rfl⟩

theorem Dev.bootRun_eq (x : BootCand) : d.bootRun x = ((d.bootMarked x).imageStarted x).loadTrim.reloadPairs.linkCoresSet := by
  unfold Dev.bootRun Dev.linkCoresSet Dev.imageStarted Dev.bootMarked
  rfl

theorem Dev.rd_bootRun (x : BootCand) {f : Fld} (hf : f.notTrim = true) (ix : List Nat) :
    (d.bootRun x).rd f ix = (d.bootMarked x).rd f ix := by
  rw [Dev.bootRun_eq, Dev.rd_linkCoresSet, Dev.rd_reloadPairs, Dev.rd_loadTrim _ hf, Dev.rd_imageStarted]

theorem Dev.bootRun_svc (x : BootCand) : (d.bootRun x).svc.entry = x.entry ∧ (d.bootRun x).svc.imageRollback = x.rollback := by
  have trimmed : ∀ e : Dev, e.loadTrim.svc.entry = e.svc.entry ∧ e.loadTrim.svc.imageRollback = e.svc.imageRollback := fun e => by
    obtain h | h := e.loadTrim_svc <;> rw [h] <;> exact ⟨rfl, rfl⟩
  rw [Dev.bootRun_eq, (Dev.linkCoresSet_svc _).1, (Dev.linkCoresSet_svc _).2, (Dev.reloadPairs_svc _).1, (Dev.reloadPairs_svc _).2,
    (trimmed _).1, (trimmed _).2]
  exact Dev.imageStarted_svc _ x

theorem Dev.bootMarked_reads (x : BootCand) : (d.bootMarked x).rd F.SVC_BOOT_STATE [] = 3 ∧
    (d.bootMarked x).rd F.SVC_BOOT_SLOT [] = x.slot % 2 ∧ (d.bootMarked x).rd F.SVC_FW_VER_VERSION [] = x.version % 2 ^ 32 := by
  refine ⟨?_, ?_, ?_⟩
  · rw [Dev.bootMarked, Dev.rd_wr_apart _ _ _ _ (by decide), Dev.rd_wr_apart _ _ _ _ (by decide), d.bootState_reads (by decide)]
  · rw [Dev.bootMarked, Dev.rd_wr_apart _ _ _ _ (by decide), Dev.rd_wr_width _ _ _ (w := 1) (by decide) (by decide) (by decide), Nat.pow_one]
  · rw [Dev.bootMarked, Dev.rd_wr_width _ _ _ (w := 32) (by decide) (by decide) (by decide)]

theorem Dev.bootVerify_good {x : BootCand} (l : List BootCand) (h : ecdsaVerify x.key x.sig (x.signed ++ d.fwBytes x.length) = true) :
    d.bootVerify x l = d.bootRun x := by
  rw [Dev.bootVerify, BootCand.verifies, if_pos h]

theorem Dev.bootVerify_bad {x : BootCand} (l : List BootCand) (h : ecdsaVerify x.key x.sig (x.signed ++ d.fwBytes x.length) = false) :
    d.bootVerify x l = d.bootTry 3 l := by
  rw [Dev.bootVerify, BootCand.verifies, if_neg (by rw [h]; decide)]

end Run

/-! ### The command BOOT_ROM -/

section BootRom

variable {s : State} (a b : BootSlot) (hl : Live s) (hhold : s.dev.on F.RST_STAT_BOOT_HOLD [] = false)
  (hdom : s.dev.domOn 182 = true)

/-- What the ROM reads as the image of slot x. -/
def imageOf (x : BootCand) : FlashImage := if x.slot = 0 then a.image else b.image

/-- One stage of the ROM, by SVC_BOOT.STATE and the slots that are left. -/
def Dev.bootStage (d : Dev) (st : Nat) (left : List BootCand) : Dev :=
  match st, left with
  | 0, _ => d.bootHeaders a b
  | 1, x :: t => d.bootLoad x t (imageOf a b x)
  | 2, x :: t => d.bootVerify x t
  | _, _ => d

theorem exec_bootRom (s : State) : exec (.bootRom a b) s = s.run (fun d =>
    if d.on F.RST_STAT_BOOT_HOLD [] || !d.domOn 182 then d else d.bootStage a b (d.rd F.SVC_BOOT_STATE []) d.svc.bootLeft) := rfl

include hl hhold hdom

theorem runs_bootRom : Runs (.bootRom a b) s (s.dev.bootStage a b (s.dev.rd F.SVC_BOOT_STATE []) s.dev.svc.bootLeft) :=
  Runs.of_run hl (exec_bootRom a b s) (if_neg (by rw [hhold, hdom]; decide))

theorem bootRom_headers (hst : s.dev.rd F.SVC_BOOT_STATE [] = 0) : Runs (.bootRom a b) s (s.dev.bootHeaders a b) := by
  have h := runs_bootRom a b hl hhold hdom
  rwa [hst, Dev.bootStage] at h

theorem bootRom_loads {x : BootCand} {l : List BootCand} (hleft : s.dev.svc.bootLeft = x :: l)
    (hst : s.dev.rd F.SVC_BOOT_STATE [] = 1) : Runs (.bootRom a b) s (s.dev.bootLoad x l (imageOf a b x)) := by
  have h := runs_bootRom a b hl hhold hdom
  rwa [hst, hleft, Dev.bootStage] at h

theorem bootRom_verifies {x : BootCand} {l : List BootCand} (hleft : s.dev.svc.bootLeft = x :: l)
    (hst : s.dev.rd F.SVC_BOOT_STATE [] = 2) : Runs (.bootRom a b) s (s.dev.bootVerify x l) := by
  have h := runs_bootRom a b hl hhold hdom
  rwa [hst, hleft, Dev.bootStage] at h

/-- The first stage. -/
theorem bootRom_starts (hst : s.dev.rd F.SVC_BOOT_STATE [] = 0) :
    (slotMagic a = false → slotMagic b = false → Runs (.bootRom a b) s (s.dev.headsRead.bootFailed 1)) ∧
    (slotMagic a = true ∨ slotMagic b = true → s.dev.otp.key = [] →
      Runs (.bootRom a b) s (s.dev.headsRead.wr F.SVC_BOOT_STATE [] 4)) ∧
    (slotMagic a = true ∨ slotMagic b = true → s.dev.otp.key ≠ [] →
      Runs (.bootRom a b) s (s.dev.headsRead.bootTry 1 (bootOrder a b))) := by
  have hrun := bootRom_headers a b hl hhold hdom hst
  have some_slot : slotMagic a = true ∨ slotMagic b = true → bootOrder a b ≠ [] := fun h hnil => by
    obtain ⟨ha, hb⟩ := (bootOrder_eq_nil a b).1 hnil
    simp [ha, hb] at h
  refine ⟨fun ha hb => ?_, fun h hk => ?_, fun h hk => ?_⟩
  · rwa [Dev.bootHeaders_none _ ((bootOrder_eq_nil a b).2 ⟨ha, hb⟩)] at hrun
  · rwa [Dev.bootHeaders_blank _ (some_slot h) hk] at hrun
  · rwa [Dev.bootHeaders_keyed _ (some_slot h) hk] at hrun

/-- The second stage: the image goes to firmware memory. -/
theorem bootRom_loadShows {x : BootCand} {l : List BootCand} (hleft : s.dev.svc.bootLeft = x :: l)
    (hst : s.dev.rd F.SVC_BOOT_STATE [] = 1) :
    (x.length = 0 ∨ 8388096 < x.length → Runs (.bootRom a b) s (s.dev.bootTry 6 l)) ∧
    (x.length ≠ 0 → x.length ≤ 8388096 →
      (imageOf a b x = .readError → Runs (.bootRom a b) s ((s.dev.imageRead x).bootTry 5 l)) ∧
      ∀ i, imageOf a b x = .bytes i → ∃ t, exec (.bootRom a b) s = .next t ∧ t.dev.rd F.SVC_BOOT_STATE [] = 2 ∧
        t.dev.out = (s.dev.imageRead x).out ∧ t.dev.svc.bootLeft = x :: l ∧ ∀ n, n < min x.length i.length →
          Sparse.get 0 t.dev.svc.fwMem n = (i.getD n 0).toNat) := by
  have hrun := bootRom_loads a b hl hhold hdom hleft hst
  refine ⟨fun h => ?_, fun h0 hm => ⟨fun hi => ?_, fun i hi => ?_⟩⟩
  · rwa [Dev.bootLoad_length _ _ _ _ h] at hrun
  · rwa [hi, Dev.bootLoad_readError _ _ _ h0 hm] at hrun
  · rw [hi, Dev.bootLoad_bytes _ _ _ h0 hm] at hrun
    refine ⟨_, hrun, ?_, ?_, ?_, fun n hn => ?_⟩
    · rw [Dev.rd_latched _ _ _ hl.2, Dev.rd_svc, Dev.bootState_reads _ (by decide)]
    · rw [Dev.latched_out]
      dsimp only
      rw [Dev.bootState, Dev.wr_out]
    · rw [Dev.latched_svc]
      dsimp only
      rw [Dev.bootState, Dev.wr_svc, Dev.imageRead, Dev.emit_svc, hleft]
    · have hlt : n < (i.take x.length).length := by rw [List.length_take]; exact hn
      rw [Dev.latched_svc]
      dsimp only
      rw [get_ramOf _ hlt, List.getD_eq_getElem _ _ hlt, List.getElem_take, List.getD_eq_getElem]

/-- The third stage: the image is verified and started. -/
theorem bootRom_verifyShows {x : BootCand} {l : List BootCand} (hleft : s.dev.svc.bootLeft = x :: l)
    (hst : s.dev.rd F.SVC_BOOT_STATE [] = 2) :
    (ecdsaVerify x.key x.sig (x.signed ++ s.dev.fwBytes x.length) = false → Runs (.bootRom a b) s (s.dev.bootTry 3 l)) ∧
    (ecdsaVerify x.key x.sig (x.signed ++ s.dev.fwBytes x.length) = true →
      ∃ t, exec (.bootRom a b) s = .next t ∧ t.dev.rd F.SVC_BOOT_STATE [] = 3 ∧
        t.dev.rd F.SVC_BOOT_SLOT [] = x.slot % 2 ∧ t.dev.rd F.SVC_FW_VER_VERSION [] = x.version % 2 ^ 32 ∧
        t.dev.svc.entry = x.entry ∧ t.dev.svc.imageRollback = x.rollback) := by
  have hrun := bootRom_verifies a b hl hhold hdom hleft hst
  refine ⟨fun h => ?_, fun h => ?_⟩
  · rwa [Dev.bootVerify_bad _ _ h] at hrun
  · rw [Dev.bootVerify_good _ _ h] at hrun
    obtain ⟨hstate, hslot, hver⟩ := s.dev.bootMarked_reads x
    obtain ⟨hentry, hback⟩ := s.dev.bootRun_svc x
    refine ⟨_, hrun, ?_, ?_, ?_, hentry, hback⟩
    · rw [Dev.rd_latched _ _ _ hl.2, Dev.rd_bootRun _ _ (by decide), hstate]
    · rw [Dev.rd_latched _ _ _ hl.2, Dev.rd_bootRun _ _ (by decide), hslot]
    · rw [Dev.rd_latched _ _ _ hl.2, Dev.rd_bootRun _ _ (by decide), hver]

end BootRom

/-! ## The boot hold and one-time programming (R389, R414) -/

section Otp

theorem bootGo_ends {s : State} {m : Master} (hl : Live s) (hm : m ∈ [Master.pf0, .jtag, .bmc]) (hb : s.dev.hostBlocked m = false) :
    Runs (.bootGo m) s (s.dev.wr F.RST_STAT_BOOT_HOLD [] 0) := by
  have hmay : (m == .pf0 || m == .jtag || m == .bmc) = true := by
    simpa [or_assoc] using hm
  refine Runs.of_run hl rfl ((if_pos hmay).trans ?_)
  rw [Dev.access_taken _ _ hb (by decide)]

/-- A step that leaves the OTP leaves it as it was. -/
theorem Dev.latched_otp_same {d e : Dev} (h : e.otp = d.otp) : (Dev.latched d e).otp = d.otp := by
  have hotp : (Dev.latched d e).otp = { e.otp with
      rollback := max d.otp.rollback e.otp.rollback
      locked := e.otp.locked || d.otp.locked
      key := if d.otp.locked then d.otp.key else e.otp.key } := rfl
  rw [hotp, h, max_self, Bool.or_self, ite_self]

/-- A key field that a step programs and locks, where none was locked before. -/
theorem Dev.latched_otp_locks {d e : Dev} (hd : d.otp.locked = false) (he : e.otp.locked = true) :
    (Dev.latched d e).otp.locked = true ∧ (Dev.latched d e).otp.key = e.otp.key := by
  have hlock : (Dev.latched d e).otp.locked = (e.otp.locked || d.otp.locked) := rfl
  have hkey : (Dev.latched d e).otp.key = if d.otp.locked then d.otp.key else e.otp.key := rfl
  rw [hlock, hkey, he, hd]
  exact ⟨rfl, if_neg Bool.false_ne_true⟩

variable {s : State} {m : Master} (hl : Live s) (hm : m ∈ [Master.pf0, .jtag]) (hb : s.dev.hostBlocked m = false)

/-- The programming request waits while `w` holds. -/
def Dev.otpAsked (d : Dev) (w : Bool) : Dev := { d with svc := { d.svc with otpWait := w } }

theorem Dev.otpAsked_svc (d : Dev) (w : Bool) : (d.otpAsked w).svc.otpWait = w := rfl
theorem Dev.otpAsked_otp (d : Dev) (w : Bool) : (d.otpAsked w).otp = d.otp := rfl
theorem Dev.on_otpAsked (d : Dev) (w : Bool) (f : Fld) (ix : List Nat) : (d.otpAsked w).on f ix = d.on f ix := rfl

/-- The conditions of a programming request that begins. -/
theorem Dev.otpProgram_eq (d : Dev) (m : Master) : d.otpProgram m =
    if ((m == .pf0 || m == .jtag) && d.rd F.SVC_BOOT_STATE [] == 4 && !d.otp.locked && !d.on F.SVC_OTP_CTL_BUSY []) = true then
      (d.wr F.SVC_OTP_CTL_BUSY [] 1).otpAsked (d.on F.ANL_SAG_INHIBIT [])
    else d := by
  have hotp : ∀ w, (d.wr F.SVC_OTP_CTL_BUSY [] 1).otpAsked w =
      { d.wr F.SVC_OTP_CTL_BUSY [] 1 with svc := { d.svc with otpWait := w } } := fun w => by
    rw [Dev.otpAsked, Dev.wr_svc]
  rw [hotp, Dev.otpProgram]

include hl hb

theorem runs_otpProgram : Runs (.otpProgram m) s (s.dev.otpProgram m) :=
  Runs.of_run hl rfl (Dev.access_taken _ _ hb (by decide))

theorem otpProgram_idle (hst : s.dev.rd F.SVC_BOOT_STATE [] ≠ 4) : Runs (.otpProgram m) s s.dev := by
  have hrun := runs_otpProgram hl hb
  rwa [Dev.otpProgram_eq, if_neg (by simp [hst])] at hrun

include hm

theorem otpProgram_begins (hst : s.dev.rd F.SVC_BOOT_STATE [] = 4) (hlock : s.dev.otp.locked = false)
    (hbusy : s.dev.on F.SVC_OTP_CTL_BUSY [] = false) : ∃ t, exec (.otpProgram m) s = .next t ∧
      t.dev.on F.SVC_OTP_CTL_BUSY [] = true ∧ t.dev.svc.otpWait = s.dev.on F.ANL_SAG_INHIBIT [] ∧ t.dev.otp = s.dev.otp := by
  have hmay : (m == .pf0 || m == .jtag) = true := by simpa using hm
  have hrun := runs_otpProgram hl hb
  rw [Dev.otpProgram_eq, if_pos (by rw [hmay, hst, hlock, hbusy]; decide)] at hrun
  refine ⟨_, hrun, ?_, ?_, ?_⟩
  · rw [Dev.on_latched _ _ _ hl.2, Dev.on_otpAsked]
    exact s.dev.on_wr_bit _ _ true (by decide) (by decide)
  · rw [Dev.latched_svc, Dev.otpAsked_svc]
  · exact Dev.latched_otp_same (by rw [Dev.otpAsked_otp, Dev.wr_otp])

end Otp

section OtpDone

/-- The key field is programmed and locked. -/
def Dev.keyLocked (d : Dev) (key : List Nat) : Dev := { d with otp := { d.otp with key := key, locked := true } }

theorem Dev.keyLocked_otp (d : Dev) (key : List Nat) : (d.keyLocked key).otp.locked = true ∧ (d.keyLocked key).otp.key = key :=
  ⟨rfl, rfl⟩
theorem Dev.rd_keyLocked (d : Dev) (key : List Nat) (f : Fld) (ix : List Nat) : (d.keyLocked key).rd f ix = d.rd f ix := rfl
theorem Dev.on_keyLocked (d : Dev) (key : List Nat) (f : Fld) (ix : List Nat) : (d.keyLocked key).on f ix = d.on f ix := rfl

/-- The key hash as the registers hold it. -/
def Dev.keyAsked (d : Dev) : List Nat := (List.range 12).map (fun i => d.rd F.SVC_OTP_KEY_HASH [i])

theorem exec_otpProgramDone (s : State) : exec .otpProgramDone s = s.run (fun d =>
    if d.on F.SVC_OTP_CTL_BUSY [] && !d.svc.otpWait && !d.otp.locked then
      ((d.wr F.SVC_OTP_CTL_BUSY [] 0).wr F.SVC_BOOT_STATE [] 0).keyLocked d.keyAsked
    else d) := by
  unfold Dev.keyLocked Dev.keyAsked
  rfl

theorem otpProgramDone_locks {s : State} (hl : Live s) (hbusy : s.dev.on F.SVC_OTP_CTL_BUSY [] = true)
    (hwait : s.dev.svc.otpWait = false) (hlock : s.dev.otp.locked = false) :
    ∃ t, exec .otpProgramDone s = .next t ∧ t.dev.otp.locked = true ∧
      t.dev.otp.key = (List.range 12).map (fun i => s.dev.rd F.SVC_OTP_KEY_HASH [i]) ∧
      t.dev.rd F.SVC_BOOT_STATE [] = 0 ∧ t.dev.on F.SVC_OTP_CTL_BUSY [] = false := by
  refine ⟨_, Runs.of_run hl (exec_otpProgramDone s) (if_pos (by rw [hbusy, hwait, hlock]; decide)), ?_, ?_, ?_, ?_⟩
  · exact (Dev.latched_otp_locks hlock (Dev.keyLocked_otp _ _).1).1
  · exact (Dev.latched_otp_locks hlock (Dev.keyLocked_otp _ _).1).2.trans (Dev.keyLocked_otp _ _).2
  · rw [Dev.rd_latched _ _ _ hl.2, Dev.rd_keyLocked, Dev.rd_wr_fits _ _ _ _ (by decide) (by decide) (by decide)]
  · rw [Dev.on_latched _ _ _ hl.2, Dev.on_keyLocked, Dev.on_wr_apart _ _ _ _ (by decide)]
    exact s.dev.on_wr_bit _ _ false (by decide) (by decide)

end OtpDone

/-! ## A record goes to the flash log (R403) -/

section Flush

variable (d : Dev) (r : FaultRec)

/-- The device once record r has been written at the log's next place. -/
def Dev.recordWritten : Dev :=
  (if d.spl.flashAt % 127 = 0 then d.openSector d.spl.flashAt else d).emit
    (.flash (logSector d.spl.flashAt + 32 + d.spl.flashAt % 127 * 32) r.bytes)

/-- The log that the record is added to: without the oldest sector's records where that sector has been erased. -/
def Dev.logKept : List FaultRec :=
  if d.spl.flashAt % 127 = 0 && logSize ≤ (d.recordWritten r).spl.flashLog.length then (d.recordWritten r).spl.flashLog.drop 127
  else (d.recordWritten r).spl.flashLog

theorem Dev.openSector_spl (n : Nat) : (d.openSector n).spl = { d.spl with bootLogged := d.spl.bootCount } := by
  unfold Dev.openSector
  rw [Dev.emit_spl]
  split <;> rfl

theorem Dev.openSector_out (n : Nat) : ∃ o, (d.openSector n).out =
    (if logSize ≤ d.spl.flashLog.length then d.emit (.flash (logSector n) []) else d).out ++ [o] := by
  unfold Dev.openSector
  exact ⟨_, rfl⟩

/-- A full log's oldest sector is erased before the next one begins. -/
theorem Dev.openSector_erases {n : Nat} (h : logSize ≤ d.spl.flashLog.length) : .flash (logSector n) [] ∈ (d.openSector n).out := by
  obtain ⟨o, ho⟩ := d.openSector_out n
  rw [ho, if_pos h, Dev.out_emit]
  simp

theorem Dev.recordWritten_spl : ∃ n, (d.recordWritten r).spl = { d.spl with bootLogged := n } := by
  rw [Dev.recordWritten, Dev.emit_spl]
  split
  · exact ⟨_, d.openSector_spl _⟩
  · exact ⟨d.spl.bootLogged, rfl⟩

theorem Dev.recordWritten_out : .flash (logSector d.spl.flashAt + 32 + d.spl.flashAt % 127 * 32) r.bytes ∈ (d.recordWritten r).out := by
  rw [Dev.recordWritten, Dev.out_emit]
  exact List.mem_append_right _ (List.mem_singleton_self _)

theorem Dev.recordWritten_erases (h : d.spl.flashAt % 127 = 0) (hfull : 65024 ≤ d.spl.flashLog.length) :
    .flash (logSector d.spl.flashAt) [] ∈ (d.recordWritten r).out := by
  rw [Dev.recordWritten, if_pos h, Dev.out_emit]
  exact List.mem_append_left _ (d.openSector_erases hfull)

/-- The state of the log and of the buffer as a flush sets it. -/
def Dev.logSet (records log : List FaultRec) (n : Nat) : Dev :=
  { d with spl := { d.spl with records := records, flashLog := log, flashAt := n } }

theorem Dev.logSet_spl (records log : List FaultRec) (n : Nat) :
    (d.logSet records log n).spl = { d.spl with records := records, flashLog := log, flashAt := n } := rfl
theorem Dev.logSet_out (records log : List FaultRec) (n : Nat) : (d.logSet records log n).out = d.out := rfl

variable {r} {l : List FaultRec} (h : d.spl.records = r :: l)

include h

theorem Dev.flushRecord_good : d.flushRecord true =
    ((d.recordWritten r).logSet l (d.logKept r ++ [r]) (d.spl.flashAt + 1)).wr F.SPL_REC_FILL_COUNT [] l.length := by
  unfold Dev.flushRecord Dev.logSet Dev.logKept Dev.recordWritten
  rw [h]
  rfl

theorem Dev.flushRecord_bad : d.flushRecord false =
    (d.recordWritten r).logSet (d.recordWritten r).spl.records (d.logKept r ++ [{ r with bad := true }]) (d.spl.flashAt + 1) := by
  unfold Dev.flushRecord Dev.logSet Dev.logKept Dev.recordWritten
  rw [h]
  rfl

end Flush

theorem faultlogFlush_shows {s : State} (hl : Live s) {r : FaultRec} {l : List FaultRec} (hmay : s.dev.mayFlush = true)
    (h : s.dev.spl.records = r :: l) :
    ∃ t, exec (.faultlogFlush true) s = .next t ∧ t.dev.spl.records = l ∧ t.dev.spl.flashLog.getLast? = some r ∧
      .flash (logSector s.dev.spl.flashAt + 32 + s.dev.spl.flashAt % 127 * 32) r.bytes ∈ t.dev.out ∧
      (s.dev.spl.flashAt % 127 = 0 → 65024 ≤ s.dev.spl.flashLog.length → .flash (logSector s.dev.spl.flashAt) [] ∈ t.dev.out) ∧
      ∃ u, exec (.faultlogFlush false) s = .next u ∧ u.dev.spl.records = s.dev.spl.records ∧
        u.dev.spl.flashLog.getLast? = some { r with bad := true } ∧ u.dev.spl.flashAt = s.dev.spl.flashAt + 1 := by
  have flush : ∀ good, Runs (.faultlogFlush good) s (s.dev.flushRecord good) := fun good =>
    Runs.of_run (f := fun d => if d.mayFlush then d.flushRecord good else d) hl rfl (if_pos hmay)
  have hgood := flush true
  have hbad := flush false
  rw [Dev.flushRecord_good _ h] at hgood
  rw [Dev.flushRecord_bad _ h] at hbad
  obtain ⟨n, hspl⟩ := s.dev.recordWritten_spl r
  refine ⟨_, hgood, ?_, ?_, ?_, fun h0 hfull => ?_, _, hbad, ?_, ?_, ?_⟩
  · rw [Dev.latched_spl, Dev.wr_spl, Dev.logSet_spl]
  · rw [Dev.latched_spl, Dev.wr_spl, Dev.logSet_spl]
    exact List.getLast?_concat
  · rw [Dev.latched_out, Dev.wr_out, Dev.logSet_out]
    exact s.dev.recordWritten_out r
  · rw [Dev.latched_out, Dev.wr_out, Dev.logSet_out]
    exact s.dev.recordWritten_erases r h0 hfull
  · rw [Dev.latched_spl, Dev.logSet_spl, hspl]
  · rw [Dev.latched_spl, Dev.logSet_spl]
    exact List.getLast?_concat
  · rw [Dev.latched_spl, Dev.logSet_spl]

/-! ## The obligation -/

/-- What the header of slot n says, by its bytes. -/
theorem slotCand_bytes (a : BootSlot) (n : Nat) : (slotCand a n).key = (a.header.drop 128).take 97 ∧
    (slotCand a n).sig = (a.header.drop 232).take 96 ∧ (slotCand a n).signed = a.header.take 232 :=
  ⟨rfl, rfl, rfl⟩

/-- Settles O56: each command is taken apart into the device it leaves, and its registers and memories are read off there. -/
theorem coresBootAndOtp : Obligations.CoresBootAndOtp := by
  unfold Obligations.CoresBootAndOtp
  intro s hl
  exact ⟨fun m k hm hb => ⟨svcHalt_shows k hl hm hb, svcReset_shows k hl hm hb⟩,
    fun m k hm hb hc => svcReset_handover k hl hm hb hc,
    linkHandover_ends hl,
    fun a b hhold hdom => ⟨bootRom_starts a b hl hhold hdom,
      fun x l hleft hst => bootRom_loadShows a b hl hhold hdom hleft hst,
      fun x l hleft hst => bootRom_verifyShows a b hl hhold hdom hleft hst⟩,
    slotCand_bytes,
    s.dev.bootTry_nil,
    s.dev.bootTry_shows,
    otp_intact,
    fun a b ha hb => bootOrder_both ha hb,
    fun m hm hb => bootGo_ends hl hm hb,
    fun m hm hb => ⟨otpProgram_begins hl hm hb, otpProgram_idle hl hb⟩,
    otpProgramDone_locks hl,
    fun r l hmay h => faultlogFlush_shows hl hmay h⟩

end Sys2Proof.Machine
